-- ==== Sys2Proof/Word.lean ====
section
/-!
DEFINITION. The words of the block. Register values and their bit fields are natural numbers, read and written by bit
position as the spec numbers them (bit 0 the least significant), each cut to its field's width where it is stored; a byte
of a memory is a bit vector.
-/

namespace Sys2Proof

/-- A 64-bit register value as a requester writes it (R46). -/
abbrev Word := BitVec 64

/-- One byte. -/
abbrev Byte := BitVec 8

end Sys2Proof
end

