-- ==== Sys2Proof/Syntax.lean ====
section
/-!
DEFINITION. The commands of the block: one constructor of `Instr` per row of spec/opcode_table.json, with the operands its
row needs, and the small types of those operands.
-/

namespace Sys2Proof

/-- The three requesters of the register fabric (R43). -/
inductive Req where
  | camera | firmware | sniwyn
  deriving DecidableEq, Repr

/-- Where an NVMe command came from: a submission queue of the camera's controller (0 is the admin queue), or a
connection of the dock's NVMe/TCP target; or a command that the pair's lead relays (R438). -/
inductive Src where
  | host (q : Nat)
  | dock (conn : Nat)
  | relay
  deriving DecidableEq, Repr

/-- A command's identity: its source and its command identifier. -/
structure Cid where
  src : Src
  cid : Nat
  deriving DecidableEq, Repr

/-- What a calibration found on one flash channel (R143): the longest SLC program time, whether the program failed,
the LUNs that hold a Seal block, the planes of a LUN and the bus time of one LUN's slots. -/
structure CalChan where
  chan   : Nat
  progNs : Nat
  failed : Bool
  luns   : Nat
  planes : Nat
  busNs  : Nat
  deriving DecidableEq, Repr

/-- A take (R258 to R263). -/
structure Take where
  num    : Nat
  first  : Nat
  last   : Nat
  streams : List Nat
  phase  : Nat
  reason : Nat
  tbOpen : Nat
  tbClose : Nat
  calOpen : Nat
  tbStop : Nat
  stopper : Option Cid
  verified : Nat
  deriving DecidableEq, Repr

/-- A frame index entry (Table 09-3). -/
structure Entry where
  frame   : Nat
  take    : Nat
  stream  : Nat
  src     : Nat
  flags   : Nat
  piece   : Nat
  tc      : Nat
  status  : Nat
  timecode : Nat
  user    : Nat
  tbSync  : Nat
  tbPulse : Nat
  cal     : Nat
  startLba : Nat
  nsid    : Nat
  reason  : Nat
  gap     : Nat
  length  : Nat
  decl    : Nat
  crcCalc : Nat
  crcTrl  : Nat
  sha     : Nat
  deriving DecidableEq, Repr

/-- A logical journal record that the lead of a pair sends (R442). -/
inductive LRec where
  | unmap (key count : Nat)
  | take (t : Take)
  | append (stream leaves : Nat)
  | frameEntry (e : Entry)
  deriving DecidableEq, Repr

/-- IDENT (Table 15-3): Device Serial Number, peer of record, rank, token, FEED, the namespaces (NSID, size, format), the
marked segments, the listed takes and the mapped segments. -/
structure Ident where
  serial : Nat
  peer   : Option Nat
  rank   : Nat
  token  : Bool
  feed   : Nat
  nses   : List (Nat × Nat × Nat)
  segs   : List Nat
  takes  : List Nat
  mapped : List Nat
  deriving DecidableEq, Repr

/-- RESULT (R443): what a half found when a frame closed. -/
structure PResult where
  stream  : Nat
  take    : Nat
  frame   : Nat
  piece   : Nat
  length  : Nat
  flags   : Nat
  crcCalc : Nat
  crcTrl  : Nat
  sha     : Nat
  append  : Nat
  deriving DecidableEq, Repr

/-- A SLOT message (Table 15-4): its descriptor and its payload as eight sectors. -/
structure SlotMsg where
  kind  : Nat
  flags : Nat
  slot  : Nat
  nsid  : Nat
  stream : Nat
  index : Nat
  key   : Nat
  mask  : Nat
  frame : Nat
  take  : Nat
  data  : List Nat
  deriving DecidableEq, Repr

/-- An ALIGN block as a physical lane receives it (Table 08-1), with the skew measured on the lane. -/
structure AlignBlk where
  lane    : Nat
  logical : Nat
  seq     : Nat
  count   : Nat
  skew    : Nat
  deriving DecidableEq, Repr

/-- The fields of an I/O command on logical blocks: namespace, first block and count, PRACT, PRCHK (bit 2 guard, bit 1
application tag, bit 0 reference tag), initial reference tag, application tag and its mask, the DSPEC of a Streams directive, and
whether a reserved bit, a length or a data pointer is invalid. -/
structure IoCmd where
  nsid  : Nat
  slba  : Nat
  nlb   : Nat
  pract : Bool
  prchk : Nat
  ref   : Nat
  app   : Nat
  mask  : Nat
  dspec : Option Nat
  bad   : Bool
  deriving DecidableEq, Repr

/-- What one decode of a codeword finds (R378, R381, R385): whether the syndrome is satisfied, the bits corrected, the checks left
unsatisfied, whether the page reads as erased, whether the tier mark failed, and, where the decoder ends on another codeword than
the one written, that codeword's key and sectors. -/
structure DecRes where
  ok      : Bool
  bits    : Nat
  unsat   : Nat
  erased  : Bool
  markBad : Bool
  wrong   : Option (Nat × List Nat)
  deriving DecidableEq, Repr

/-- A LUN as discovery finds it (R351, R352): its index, whether its volume's LUN number is beyond the second, whether its
parameter page passes its CRC-16, and what it reports: data and spare bytes of a page, planes, pages of a block, blocks of a plane,
cell type, and whether it offers SLC mode. -/
structure LunFound where
  index  : Nat
  beyond : Bool
  crcOk  : Bool
  dataB  : Nat
  spare  : Nat
  planes : Nat
  pages  : Nat
  blocks : Nat
  cell   : Nat
  slc    : Bool
  deriving DecidableEq, Repr

/-- What discovery finds on a channel (Table 12-3): the LUNs that answer, whether training succeeds, the rate divider in use, and
whether each of its two Seal blocks reads as erased. -/
structure ChanFound where
  chan    : Nat
  luns    : List LunFound
  trained : Bool
  rate    : Nat
  erased0 : Bool
  erased1 : Bool
  deriving DecidableEq, Repr

/-- What the tracker's refresh finds on a LUN (R384): whether index 0 decodes, and the bits corrected there and at the index. -/
structure TrackRes where
  chan  : Nat
  lun   : Nat
  ok    : Bool
  bits0 : Nat
  bits  : Nat
  deriving DecidableEq, Repr

/-- HELD (R439, R441): the lead's slot number, or the stream, take, frame, piece and index of a frame's slot. -/
inductive HeldMsg where
  | slot (n : Nat)
  | frame (stream take frame piece index : Nat)
  deriving DecidableEq, Repr

/-- BEAT (Table 15-2): the peer's role, token, rank, divergence and FEED, its mode and PSTATE, and bits 31 to 0 of its timebase. -/
structure BeatMsg where
  lead  : Bool
  token : Bool
  rank  : Nat
  div   : Bool
  feed  : Nat
  mode  : Nat
  pstate : Nat
  tb    : Nat
  deriving DecidableEq, Repr

/-- The commands and events of the HZB6440: one constructor per row of the command table. -/
inductive Instr where
  /-- REGISTER_WRITE (R9): A write to a register field with no row of its own takes effect field by field according to each field's access type. -/
  | registerWrite (who : Req) (addr : Nat) (bytes : Nat) (val : Nat)
  /-- HALF_WRITE_LOW (R47): A 32-bit write to a low half is held in the requester's half-write holding register without effect. -/
  | halfWriteLow (who : Req) (addr : Nat) (val : Nat)
  /-- HALF_WRITE_HIGH (R60): A 32-bit write to a high half performs the held low half with it as one write, or acts alone on the high-half bits. -/
  | halfWriteHigh (who : Req) (addr : Nat) (val : Nat)
  /-- LOW_HALF_READ (R48): A 32-bit read of a low half returns it and captures the whole register for a following high-half read. -/
  | lowHalfRead (who : Req) (addr : Nat) (bytes : Nat)
  /-- SHADOW_COMMIT (R51): SHADOW_CTL.COMMIT requests a commit of the page's pending values to the target epoch, accepted or refused within 100 ns. -/
  | shadowCommit (who : Req) (page : Nat) (epoch : Nat)
  /-- SHADOW_ABANDON (R54): SHADOW_CTL.ABANDON sets every pending value back to its active value. -/
  | shadowAbandon (who : Req) (page : Nat) (commit : Bool)
  /-- GCOMMIT (R52): SYS.GCOMMIT.GO commits every dirty page together, or none if any page would refuse. -/
  | gcommit (who : Req) (epoch : Nat)
  /-- COMMIT_ADOPTED (R53): An island adopts committed values at its safe boundary; when all have, MIXED clears and ACTIVE_EPOCH takes the target. -/
  | commitAdopted (page : Nat)
  /-- SNAP_TRIGGER_FIRE (R55): A write of SNAP.TRIGGER.FIRE triggers a snapshot. -/
  | snapTriggerFire (who : Req)
  /-- SNAP_IN_EDGE (R55): An enabled filtered edge on SNAP_IN triggers a snapshot. -/
  | snapInEdge (rising : Bool)
  /-- SNAP_REARM (R65): SNAP.REARM.GO clears HELD so that later triggers are acted on. -/
  | snapRearm (who : Req)
  /-- SNAP_CLR_COUNTS (R65): SNAP.REARM.CLR_COUNTS clears the MERGED and MISSED counts. -/
  | snapClrCounts (who : Req)
  /-- POWER_ON_RESET_RELEASE (R78): Power-on reset releases once groups A to C, RESET_N, PWR_FAIL_N and the 25 MHz reference have held for 1 ms. -/
  | powerOnResetRelease (straps : Nat) (unstable : Nat)
  /-- BANK_LEVEL_DECIDED (R73): A VDDIO_A or VDDQ_FL bank is decided at a level after 1 ms in range, or INVALID after 20 ms outside both ranges. -/
  | bankLevelDecided (bank : Nat) (level : Nat)
  /-- RAIL_TRIP (R79): A rail monitor trips below its minimum, with a rail-specific consequence from power-on reset to Seal. -/
  | railTrip (rail : Nat)
  /-- VIN_SENSE_LOW (R80): VIN_SENSE falls below TH_MV and, when enabled, starts Seal. -/
  | vinSenseLow (mv : Nat)
  /-- PWR_FAIL_N (R127): PWR_FAIL_N asserted after its filter starts Seal, or Keep from Rest. -/
  | pwrFailN (low : Bool)
  /-- XTAL_LOSS (R98): Loss of XTAL_IN is detected, PLLs enter holdover and Seal begins. -/
  | xtalLoss
  /-- REF_CLOCK_LOSS (R99): Loss of SD_REFCLK or PE_REFCLK takes its links down without Seal. -/
  | refClockLoss (ref : Nat) (inL1ss : Bool)
  /-- REF_RESTORED (R99): A lost reference present for 100 µs without a break counts as restored. -/
  | refRestored (ref : Nat)
  /-- PLL_LOCK (R87): A PLL locks within 50 µs of its conditions holding and its CLK.PLL_LOCK bit sets. -/
  | pllLock (pll : Nat)
  /-- SSC_PROFILE_CHANGE (R89): A spread PLL moves to its newly adopted profile at the start of its next modulation period. -/
  | sscProfileChange (pll : Nat)
  /-- LOSS_CLR (R99): CLK.LOSS_CLR.GO clears LOSS_COUNT. -/
  | lossClr (who : Req)
  /-- ISL_EN_WRITE (R95): A write of an island's ISL_EN bit starts, stops, latches or cancels its power state as Table R95 sets out. -/
  | islEnWrite (who : Req) (island : Nat) (en : Bool)
  /-- ISLAND_STOP_COMPLETE (R95): An island's stop completes and it reads OFF, restarting if REENABLE_PENDING was set. -/
  | islandStopComplete (island : Nat)
  /-- ISLAND_STARTED (R63): An island starts, taking committed values and its timebase replica before its functions report ready. -/
  | islandStarted (island : Nat)
  /-- RESET_N_ASSERT (R103): RESET_N asserted after its filter starts a reset flush before a reset of all islands but KEEP. -/
  | resetNAssert
  /-- RESET_N_RELEASE (R121): RESET_N released after assertion in Keep restarts the device from a controlled Keep entry. -/
  | resetNRelease (straps : Nat) (unstable : Nat)
  /-- PERST_N_ASSERT (R105): PERST_N asserted resets the HOST island only, without changing the mode. -/
  | perstNAssert
  /-- PERST_N_DEASSERT (R127): PERST_N deasserted brings HOST out of reset, or starts Wake from Rest. -/
  | perstNDeassert
  /-- WATCHDOG_EXPIRY (R107): The 250 ms watchdog expires and starts a reset flush and reset. -/
  | watchdogExpiry
  /-- SOFT_RESET (R103): SYS.RESET_CTL.SOFT_RESET with the key starts a reset flush and a soft reset. -/
  | softReset (who : Req) (key : Nat)
  /-- ISLAND_RESET (R106): SYS.RESET_CTL.ISLAND_RESET with the key resets one named island for 1 µs where permitted. -/
  | islandReset (who : Req) (key : Nat) (island : Nat)
  /-- RESET_FLUSH_END (R103): The reset flush ends and the pending reset takes effect. -/
  | resetFlushEnd
  /-- DEFERRED_RESET_RELEASE (R577): A deferred reset takes effect once both the flush and the sector operation have ended. -/
  | deferredResetRelease
  /-- FUNCTION_READY (R108): A function finishes starting and its READY bit sets, enabling the functions that need it. -/
  | functionReady (fn : Nat) (found : List Nat)
  /-- FUNCTION_FAULT (R109): A function fails to start, sets its FAULT bit and clears the functions that need it. -/
  | functionFault (fn : Nat)
  /-- MODE_REQ (R115): A write of SYS.MODE_REQ with GO requests a transition to TARGET. -/
  | modeReq (who : Req) (target : Nat)
  /-- MODE_TRANSITION_COMPLETE (R114): A mode transition completes, SYS.MODE takes the new mode and cause, and held requests are judged. -/
  | modeTransitionComplete
  /-- WAKE_EXIT_TIMEOUT (R118): The Wake exit set is incomplete 5 s after Wake entry and the device enters Quarantine. -/
  | wakeExitTimeout
  /-- DRAIN_COMPLETE (R119): The drain of an accepted Rest or Keep request completes and the checkpoint is written. -/
  | drainComplete
  /-- REST_ENTRY (R119): No earlier than 1 ms after the Rest completion is posted, HOST's stop begins and the mode becomes Rest. -/
  | restEntry
  /-- RESTART_AFTER_SEAL (R121): After Seal, main power valid and PWR_FAIL_N high for 100 ms restart the device from Keep. -/
  | restartAfterSeal (straps : Nat) (unstable : Nat)
  /-- WAKE_RISING (R127): A WAKE rising edge wakes Rest or restarts Keep after a controlled entry. -/
  | wakeRising (straps : Nat) (unstable : Nat)
  /-- OFFLOAD_NO_CONNECTION_TIMEOUT (R123): Two seconds without an NVMe/TCP connection in Offload return the device to Idle. -/
  | offloadNoConnectionTimeout
  /-- HOLD_SAMPLE (R135): Every 2 µs the HOLD_SENSE converter samples and the ledger recomputes available energy and headroom. -/
  | holdSample (code : Nat)
  /-- ADMISSION_DECISION (R147): Once per CORE cycle the ledger decides one waiting request for slots against energy and free-slot tests. -/
  | admissionDecision
  /-- LEDGER_CAL_GO (R143): LEDGER.CAL.GO starts a flush-cost recalibration in Idle or Service. -/
  | ledgerCalGo (who : Req)
  /-- CAL_DONE (R143): Calibration programs complete and cost, T_SLOT, T_ABORT, T_RECORD and the Seal reserve are recomputed. -/
  | calDone (tAbortUs : Nat) (chans : List CalChan)
  /-- HOST_WAIT_EXPIRED (R150): A HOST request not admitted within HOST_WAIT_MS completes with Ledger Exhausted. -/
  | hostWaitExpired (cid : Cid)
  /-- LEDGER_CLR (R167): LEDGER.CLR.GO clears MIN_HEADROOM, REFUSALS and EXHAUSTED. -/
  | ledgerClr (who : Req)
  /-- PBUF_CLR (R30): PBUF.CLR.GO sets HIGH_WATER to the present in-use count. -/
  | pbufClr (who : Req)
  /-- SEAL_LUNS_READY (R153): Every LUN is ready after the Seal Reset and the flush to Seal blocks begins. -/
  | sealLunsReady
  /-- SEAL_PAGE_PROGRAM_DONE (R155): A Seal-page program retires or fails, and the next page goes to the first ready Seal LUN. -/
  | sealPageProgramDone (chan : Nat) (ok : Bool)
  /-- SEAL_RECORD_RETIRED (R158): The Seal record retires on all its copies and every island but MGMT and KEEP is gated. -/
  | sealRecordRetired
  /-- SEAL_KEEP_ENTRY (R153): The seal flag is written to KEEP and Keep is entered with cause 0x12. -/
  | sealKeepEntry
  /-- JOURNAL_REPLAY (R303): Rebuild phase 1 loads the newest root, replays the journal into a delta and applies Seal pages. -/
  | journalReplay (bad : List Nat)
  /-- ARBITRATION_WINDOW_START (R176): Every 10 µs the arbiter refills the pool and class balances and sets the ledger and thermal effects. -/
  | arbitrationWindowStart (throughout : List Nat)
  /-- ARBITER_PICK (R177): The arbiter picks one pickable flash operation and grants its cost in tokens to its channel. -/
  | arbiterPick (pickable : List Nat)
  /-- SEQUENCER_ISSUE (R356): A channel sequencer issues an operation to its LUN and spends its tokens. -/
  | sequencerIssue (op : Nat)
  /-- THERMAL_SAMPLE (R182): Every 100 µs the sensors are sampled and the thermal state rises or falls. -/
  | thermalSample (tj : List Int) (extMv : Nat)
  /-- GRANT_WRITE (R185): A write of BUDGET.GRANT.GRANT_MW sets the camera power grant from the next window. -/
  | grantWrite (who : Req) (mw : Nat)
  /-- BUDGET_CLR (R192): BUDGET.CLR.GO clears EXPIRED, LAPSED, CLASS_SPENT and FLOOR_MISS. -/
  | budgetClr (who : Req)
  /-- SQ_TAIL_DOORBELL (R24): A submission queue tail doorbell write leads to a submission-entry fetch within 120 ns. -/
  | sqTailDoorbell (q : Nat) (value : Nat) (fetchNs : Nat)
  /-- CQ_HEAD_DOORBELL (R194): A completion queue head doorbell write frees completion entries. -/
  | cqHeadDoorbell (q : Nat) (value : Nat)
  /-- CC_ENABLE (R195): A write of CC.EN enables the controller, or resets it when cleared. -/
  | ccEnable (en : Bool) (ams : Nat) (asqs : Nat) (acqs : Nat)
  /-- CC_SHUTDOWN (R224): A normal shutdown via CC.SHN completes once every outstanding command has completed. -/
  | ccShutdown
  /-- CREATE_IO_SQ (R198): Create I/O Submission Queue forms queue pair q with its QoS class. -/
  | createIoSq (id : Cid) (qid : Nat) (size : Nat) (cqid : Nat) (prio : Nat) (bad : Bool)
  /-- CREATE_IO_CQ (R198): Create I/O Completion Queue creates completion queue q. -/
  | createIoCq (id : Cid) (qid : Nat) (size : Nat) (vec : Nat) (ien : Bool) (bad : Bool)
  /-- DELETE_IO_SQ (R224): Delete I/O Submission Queue aborts commands not past their point of no return. -/
  | deleteIoSq (id : Cid) (qid : Nat)
  /-- DELETE_IO_CQ (R198): Delete I/O Completion Queue removes completion queue q. -/
  | deleteIoCq (id : Cid) (qid : Nat)
  /-- GET_LOG_PAGE (R202): Get Log Page returns a standard or vendor log page. -/
  | getLogPage (id : Cid) (lid : Nat) (off : Nat) (bytes : Nat) (rae : Bool) (bad : Bool)
  /-- IDENTIFY (R197): Identify returns controller or namespace data with the limits of Table 07-2. -/
  | identify (id : Cid) (cns : Nat) (nsid : Nat) (cntid : Nat) (bad : Bool)
  /-- ABORT (R215): Abort catches the named command if it has not passed its point of no return, staying armed for WIN_US. -/
  | abort (id : Cid) (sqid : Nat) (cid : Nat) (bad : Bool)
  /-- ABORT_WINDOW_EXPIRED (R215): An Abort's window of WIN_US ends and it stops catching arriving entries. -/
  | abortWindowExpired (id : Cid)
  /-- SET_FEATURES (R201): Set Features writes a supported feature, including power state and grant. -/
  | setFeatures (id : Cid) (fid : Nat) (cdw11 : Nat) (save : Bool) (bad : Bool)
  /-- GET_FEATURES (R201): Get Features returns a supported feature's value. -/
  | getFeatures (id : Cid) (fid : Nat) (cdw11 : Nat) (sel : Nat) (bad : Bool)
  /-- ASYNCHRONOUS_EVENT_REQUEST (R213): An Asynchronous Event Request is held to carry a later event. -/
  | asynchronousEventRequest (id : Cid)
  /-- NAMESPACE_MANAGEMENT (R409): Namespace Management creates or deletes namespaces within TNVMCAP. -/
  | namespaceManagement (id : Cid) (sel : Nat) (nsid : Nat) (size : Nat) (cap : Nat) (fmt : Nat) (dps : Nat) (bad : Bool)
  /-- NAMESPACE_ATTACHMENT (R218): Namespace Attachment attaches namespaces to the controller. -/
  | namespaceAttachment (id : Cid) (sel : Nat) (nsid : Nat) (bad : Bool)
  /-- FIRMWARE_IMAGE_DOWNLOAD (R565): Firmware Image Download checks and writes 1 to 16 parcels into staging sectors. -/
  | firmwareImageDownload (id : Cid) (numd : Nat) (ofst : Nat) (bytes : List Nat) (bad : Bool)
  /-- FIRMWARE_COMMIT (R567): Firmware Commit journals a pending copy or activation, or enters Update for CA 011b. -/
  | firmwareCommit (id : Cid) (fs : Nat) (ca : Nat) (bad : Bool)
  /-- DEVICE_SELF_TEST (R589): Device Self-test starts, defers or aborts a short or extended self-test. -/
  | deviceSelfTest (id : Cid) (nsid : Nat) (stc : Nat)
  /-- KEEP_ALIVE (R227): Keep Alive restarts the Keep Alive timer. -/
  | keepAlive (id : Cid)
  /-- KEEP_ALIVE_EXPIRED (R227): The Keep Alive timer expires and the controller acts as NVMe defines, setting KATO_EXPIRE. -/
  | keepAliveExpired (ctrl : Nat)
  /-- DIRECTIVE_SEND (R207): Directive Send configures the Identify and Streams directives. -/
  | directiveSend (id : Cid) (dtype : Nat) (doper : Nat) (cdw12 : Nat) (bad : Bool)
  /-- DIRECTIVE_RECEIVE (R207): Directive Receive reports stream directive parameters. -/
  | directiveReceive (id : Cid) (dtype : Nat) (doper : Nat) (bytes : Nat) (bad : Bool)
  /-- FORMAT_NVM (R537): Format NVM unmaps namespaces, with a crypto erase for SES 1. -/
  | formatNvm (id : Cid) (nsid : Nat) (lbaf : Nat) (ses : Nat) (pi : Nat) (first : Bool) (bad : Bool)
  /-- SANITIZE (R537): Sanitize performs a crypto erase or block erase of every namespace. -/
  | sanitize (id : Cid) (act : Nat) (cdw10 : Nat) (bad : Bool)
  /-- TAKE_START (R258): Take Start opens a take over its streams once its open record is journaled. -/
  | takeStart (id : Cid) (take : Nat) (first : Nat) (last : Nat) (bad : Bool)
  /-- TAKE_STOP (R262): Take Stop moves a take to CLOSING and completes when it is CLOSED. -/
  | takeStop (id : Cid) (take : Nat) (bad : Bool)
  /-- OWNER_LOCK (R527): Owner Lock enrols, changes credentials or locks the device under Table 18-4. -/
  | ownerLock (id : Cid) (carryOk : Bool) (hours : Nat) (cred : List Nat) (bad : Bool) (short : Bool)
  /-- OWNER_UNLOCK (R527): Owner Unlock checks a credential, opens the device and arms or disarms carry. -/
  | ownerUnlock (id : Cid) (arm : Bool) (cred : List Nat) (bad : Bool) (short : Bool)
  /-- FRAME_INDEX_READ (R211): Frame Index Read returns durable entries, or waits for one when WAIT is set. -/
  | frameIndexRead (id : Cid) (stream : Nat) (wait : Bool) (take : Nat) (first : Nat) (count : Nat) (bad : Bool) (short : Bool)
  /-- LEDGER_QUERY (R209): Ledger Query returns the 64-byte ledger record, live or latched. -/
  | ledgerQuery (id : Cid) (snap : Bool) (bad : Bool) (short : Bool)
  /-- MODE_REQUEST (R210): The vendor Mode Request requests a transition and completes when it completes or is refused. -/
  | modeRequest (id : Cid) (target : Nat) (bad : Bool)
  /-- MAILBOX_POST (R494): Mailbox Post pushes words into the HI queue and rings doorbells as one step. -/
  | mailboxPost (id : Cid) (words : List Nat) (doorbell : Nat) (bad : Bool) (short : Bool)
  /-- SNAPSHOT_TRIGGER (R212): The vendor Snapshot Trigger fires a snapshot and may return the Snapshot log page. -/
  | snapshotTrigger (id : Cid) (ret : Bool) (rearm : Bool) (bad : Bool) (short : Bool)
  /-- PAIR_CONTROL (R452): Pair Control queries, takes or releases the lead token, starts convergence or stops mirroring. -/
  | pairControl (id : Cid) (action : Nat) (bad : Bool)
  /-- FLUSH (R26): Flush completes in order behind earlier writes with no data to move. -/
  | flush (id : Cid) (nsid : Nat) (bad : Bool)
  /-- WRITE (R25): Write admits slots for its leaves and fetches its data into them. -/
  | write (id : Cid) (c : IoCmd)
  /-- HOST_WRITE_DATA_COMPLETE (R25): The last data word of a write is stored and its completion becomes eligible within 190 ns or 240 ns in pair mode. -/
  | hostWriteDataComplete (id : Cid) (sectors : List Nat) (ackNs : Nat)
  /-- READ (R36): Read returns the newest data from slot, read cache or flash. -/
  | read (id : Cid) (c : IoCmd)
  /-- COMPARE (R218): Compare checks stored data against supplied data. -/
  | compare (id : Cid) (c : IoCmd) (data : List Nat)
  /-- WRITE_ZEROES (R200): Write Zeroes writes zeros to a range of leaves. -/
  | writeZeroes (id : Cid) (c : IoCmd)
  /-- DATASET_MANAGEMENT (R200): Dataset Management deallocates ranges and ignores other attributes. -/
  | datasetManagement (id : Cid) (nsid : Nat) (ranges : List (Nat × Nat)) (ad : Bool) (bad : Bool)
  /-- VERIFY (R473): Verify checks data without transfer and may feed the verify hashers. -/
  | verify (id : Cid) (c : IoCmd)
  /-- SELFTEST_CHUNK (R216): A device self-test runs a chunk of at most 2 ms. -/
  | selftestChunk (uas : List Nat)
  /-- SELFTEST_RESUME (R216): A suspended self-test resumes after IDLE_US without I/O, or a short test runs one chunk after FORCE_MS. -/
  | selftestResume (forced : Bool)
  /-- SELFTEST_SEGMENT_DONE (R589): A self-test segment ends and its pass or failure is recorded in the Device Self-test log. -/
  | selftestSegmentDone (ok : Bool) (rows : List (Nat × Nat))
  /-- HOSTQ_CLR (R25): HOSTQ.CLR.GO clears FETCH_LAT to DB_ERRORS. -/
  | hostqClr (who : Req)
  /-- PCIE_RETRAIN (R193): PCIE.RETRAIN.GO retrains the link within LINK_CFG. -/
  | pcieRetrain (who : Req) (speed : Nat) (width : Nat)
  /-- PCIE_CLR (R193): PCIE.CLR.GO clears ERR_CNT and RECOV. -/
  | pcieClr (who : Req)
  /-- PCIE_LINK_UP (R195): Link training completes and PCIE_LINK sets with configuration space answering. -/
  | pcieLinkUp (speed : Nat) (width : Nat) (eq : Nat)
  /-- LANE_BLOCK_LOCK (R232): A lane acquires block lock after 64 consecutive valid sync headers. -/
  | laneBlockLock (lane : Nat) (slips : Nat)
  /-- LOCK_LOSS (R232): A locked lane loses lock after 16 invalid headers in 64 and searches again. -/
  | lockLoss (lane : Nat)
  /-- BAD_SYNC_HEADER (R233): A block with an invalid sync header stays as eight zero bytes and may damage its frame. -/
  | badSyncHeader (lane : Nat)
  /-- BUSAIST_ALIGN (R234): ALIGN blocks of one position align the lanes by ALIGN_SEQ. -/
  | busaistAlign (blks : List AlignBlk)
  /-- ALIGN_TIMEOUT (R235): No ALIGN within the ALIGN_MAX interval takes the link out of alignment. -/
  | alignTimeout
  /-- BUSAIST_SYNC (R240): A SYNC candidate selects its VC and opens header collection. -/
  | busaistSync (b1 : Nat) (pattern : Nat)
  /-- FRAME_HEADER (R240): A 16-byte frame header is accepted and stamped or rejected and counted. -/
  | frameHeader (h0 : Nat) (h1 : Nat)
  /-- BUSAIST_SWITCH (R237): A SWITCH selects the VC of the following data blocks. -/
  | busaistSwitch (vc : Nat)
  /-- FRAME_DATA_BLOCK (R244): A logical data block joins the current VC's frame or orphan piece. -/
  | frameDataBlock (payload : Nat)
  /-- BUSAIST_TERM (R243): A TERM closes its VC's frame and its CRC-32C is compared with the payload. -/
  | busaistTerm (vc : Nat) (status : Nat) (crc : Nat) (frame : Nat)
  /-- BUSAIST_ABORT (R254): An ABORT closes its VC's frame DAMAGED with the reason code. -/
  | busaistAbort (vc : Nat) (reason : Nat)
  /-- BAD_CTRL (R236): An unknown or malformed control block is counted and treated as IDLE. -/
  | badCtrl (payload : Nat)
  /-- FC_BLOCK (R246): Every 52.8 ns the back channel sends an FC block with XOFF, READY, CREDIT and lock state. -/
  | fcBlock
  /-- INGEST_CTL_EN (R250): INGEST.CTL.EN starts the link or begins its stop. -/
  | ingestCtlEn (who : Req) (en : Bool)
  /-- INGEST_STOP_TIMEOUT (R250): One millisecond into a link stop, frames still in progress close DAMAGED and the stop completes. -/
  | ingestStopTimeout
  /-- INGEST_CLR (R256): INGEST.CLR.GO clears the frame, header, check, gap, protocol, link and lane counts. -/
  | ingestClr (who : Req)
  /-- TAKE_CLOSE (R262): A CLOSING take becomes CLOSED once its frames are durable and its close record is journaled. -/
  | takeClose (take : Nat)
  /-- TAKE_STOP_TIMEOUT (R262): STOP_MS after Take Stop, a frame still in progress is closed DAMAGED. -/
  | takeStopTimeout (take : Nat)
  /-- FRM_IN_PULSE (R266): A filtered FRM_IN rising edge is recorded in the pulse ring with its address and SUBFRAME. -/
  | frmInPulse
  /-- FRAME_DURABLE (R22): A frame becomes durable, its index entry is written and journaled and the frame event posts. -/
  | frameDurable (id : Nat)
  /-- CAPTURE_UNIT_FLUSH (R278): A capture unit closes FLUSH_MS after its first record. -/
  | captureUnitFlush
  /-- FRAME_CLR (R272): FRAME.CLR.GO clears the entry, pulse, capture and sketch counts. -/
  | frameClr (who : Req)
  /-- PROGRAM_RETIRE (R296): A page program retires, the map is updated, the change journaled and the slots freed. -/
  | programRetire (op : Nat) (ok : Bool)
  /-- FLASH_READ_COMPLETE (R355): A flash read completes and its codewords pass to the LDPC pool. -/
  | flashReadComplete (op : Nat)
  /-- ERASE_COMPLETE (R417): A block-set erase completes, its counter increments and it is journaled. -/
  | eraseComplete (op : Nat) (ok : Bool)
  /-- FLASH_OP_TIMEOUT (R370): An operation exceeds its time-out, its LUN is reset and it is reported failed. -/
  | flashOpTimeout (op : Nat)
  /-- CHANNEL_DISCOVERY_DONE (R367): Channel discovery ends READY, ABSENT, FAILED or UNUSED within 40 ms. -/
  | channelDiscoveryDone (r : ChanFound)
  /-- ZQ_CALIBRATION (R366): Every ZQ_MS a short ZQ calibration runs on each idle LUN. -/
  | zqCalibration (chan : Nat)
  /-- FCH_CTL_FAIL (R373): FCH.CTL.FAIL marks the channel FAILED in Service or at D2. -/
  | fchCtlFail (who : Req) (chan : Nat)
  /-- FCH_CLR (R370): FCH.CLR.GO clears the channel's operation, error and latency counts. -/
  | fchClr (who : Req) (chan : Nat)
  /-- JOURNAL_PAGE_RETIRE (R301): A journal page retires in flash and leaves the journal tail, releasing waiting appends. -/
  | journalPageRetire
  /-- MAP_CKPT_GO (R302): MAP.CKPT.GO starts a checkpoint. -/
  | mapCkptGo (who : Req)
  /-- CHECKPOINT_COMPLETE (R302): A root copy retires, a CHECKPOINT record is journaled and older journal pages are released. -/
  | checkpointComplete
  /-- PAD_TIMEOUT (R310): A page held durable for PAD_US is completed with filler and issued. -/
  | padTimeout (group : Nat)
  /-- PARTIAL_LEAF_MERGE (R297): A slot with a sector mask is merged with the leaf's older sectors before its program. -/
  | partialLeafMerge (seq : Nat)
  /-- SEGMENT_LOADED (R303): A map segment becomes resident with its delta applied and its entries walked. -/
  | segmentLoaded (seg : Nat)
  /-- MAP_CLR (R310): MAP.CLR.GO clears the conversion and pad counts. -/
  | mapClr (who : Req)
  /-- WAYS_CHANGED (R309): The clean of switched-off map-cache ways completes and WAYS_ON takes the new count. -/
  | waysChanged
  /-- MCACHE_CLR (R307): MCACHE.CLR.GO clears the hit, miss, write-back and wait counts. -/
  | mcacheClr (who : Req)
  /-- DRAM_REFRESH_WINDOW (R335): A refresh window begins each tREFI, adopting live DRAMC commits. -/
  | dramRefreshWindow (chan : Nat)
  /-- MR4_POLL (R335): Every 4 ms MR4 is polled and each rank's refresh interval set. -/
  | mr4Poll (rates : List Nat)
  /-- PERIODIC_TRAINING (R337): Every RETRAIN_MS a channel's DQS oscillator is checked and delays nudged. -/
  | periodicTraining (chan : Nat) (driftPs : Nat)
  /-- DRAM_INIT_SWEEP (R339): The sweep initialises one uninitialised 64 KiB region in idle cycles. -/
  | dramInitSweep
  /-- DRAM_WRITE (R331): A client's DRAM write enters the write queue, completing at once for FORWARD clients. -/
  | dramWrite (client : Nat) (addr : Nat) (data : List Nat) (poison : Bool)
  /-- DRAM_READ (R332): A client's DRAM read is served from the queue or from DRAM with ECC checking. -/
  | dramRead (client : Nat) (addr : Nat) (n : Nat) (err : Nat)
  /-- DRAM_WRITE_ISSUED (R332): A queued write is issued to DRAM, completing a SOURCE client's write. -/
  | dramWriteIssued (n : Nat)
  /-- DRAM_PATROL (R392): The DRAM patrol reads chunks so each is read every DRAM_PATROL_H hours. -/
  | dramPatrol (err : Nat)
  /-- DRAMC_CLR (R340): DRAMC.CLR.GO clears the temperature, ECC, error, forward and traffic counts. -/
  | dramcClr (who : Req)
  /-- CODEWORD_DECODED (R382): A decoder finishes a codeword and the escalation passes, continues or ends. -/
  | codewordDecoded (n : Nat) (r : DecRes)
  /-- TRACKER_REFRESH (R384): Every TRACK_REFRESH_S a page per LUN with a non-zero index is read to test index 0. -/
  | trackerRefresh (rs : List TrackRes)
  /-- SCRUB_READ (R390): The scrubber issues its next paced page read of the oldest band. -/
  | scrubRead
  /-- SRAM_PATROL (R394): Every SRAM_PATROL.MS the map cache is patrolled and single errors corrected. -/
  | sramPatrol (ce : Nat) (clean : Nat) (dirty : Bool)
  /-- ECC_CLR (R397): ECC.CLR.GO clears the codeword, bit, retry, escalation, check and SRAM counts. -/
  | eccClr (who : Req)
  /-- SCRUB_CLR (R391): SCRUB.CLR.GO clears PAGES and ACTIONS. -/
  | scrubClr (who : Req)
  /-- GROOM_VICTIM_SELECT (R410): Grooming takes its next victim from the highest source with a candidate. -/
  | groomVictimSelect
  /-- BAND_OPEN (R406): A placement group opens an ERASED band when the free count permits. -/
  | bandOpen (group : Nat)
  /-- GROOM_IDLE_CLOSE (R414): A grooming band without a page for IDLE_CLOSE_MS is filled and closed. -/
  | groomIdleClose (group : Nat)
  /-- GROOM_CLR (R410): GROOM.CLR.GO clears RELOC_PAGES, HOST_PAGES and VICTIMS. -/
  | groomClr (who : Req)
  /-- PAIR_LINK_FRAME (R433): A pair-link frame from FSTART to FEND is accepted in sequence or discarded with a NAK. -/
  | pairLinkFrame (v : Nat) (seq : Nat) (units : Nat) (crcOk : Bool)
  /-- LINKACK (R433): A LINKACK acknowledges frames of a VC, or a NAK triggers resending. -/
  | linkack (v : Nat) (seq : Nat) (nak : Bool)
  /-- PAIR_RESEND_TIMEOUT (R433): Two microseconds without progress resend every unacknowledged frame of a VC. -/
  | pairResendTimeout (v : Nat)
  /-- CREDIT (R434): A CREDIT block returns freed receive units of a VC. -/
  | credit (v : Nat) (limit : Nat)
  /-- TRAIN (R433): A TRAIN takes the pair link down and both halves realign. -/
  | train (reason : Nat)
  /-- BEAT (R445): A received BEAT carries the peer's role, mode, state and timebase. -/
  | beat (b : BeatMsg)
  /-- MIRROR_STALL_TIMEOUT (R445): A mirror-pending slot waiting STALL_MS declares loss. -/
  | mirrorStallTimeout
  /-- PR_DET_N_HIGH (R445): PR_DET_N high on two 1 µs samples declares loss. -/
  | prDetNHigh
  /-- SLOT (R439): A SLOT message is admitted into a follow slot and answered with HELD once durable. -/
  | slot (m : SlotMsg)
  /-- HELD (R439): HELD moves the named slot from mirror-pending to durable. -/
  | held (h : HeldMsg) (ns : Nat)
  /-- RECORD (R442): A RECORD message is applied by the follow in SEQ order and acknowledged. -/
  | record (seq : Nat) (r : LRec)
  /-- REC_ACK (R442): REC_ACK lets commands needing that record complete. -/
  | recAck (seq : Nat)
  /-- IDENT (R449): IDENT exchange decides roles and whether to enter MIRRORED or SYNCING. -/
  | ident (ident : Ident) (lanes : List AlignBlk)
  /-- RESULT (R443): A peer's frame RESULT is arbitrated against the local entry. -/
  | result (r : PResult)
  /-- SHAPE (R450): SHAPE lists a segment's mapped units and the target unmaps the rest. -/
  | shape (seg : Nat) (keys : List Nat)
  /-- MAILBOX (R492): A MAILBOX message carries a set P change to the other half's registers. -/
  | mailbox (kind : Nat) (dir : Nat) (idx : Nat) (words : List Nat)
  /-- RELAY (R438): A relayed command from the lead runs on the follow. -/
  | relay (n : Nat) (cmd : Nat) (args : List Nat)
  /-- RELAY_DONE (R438): RELAY_DONE lets the lead run and complete the relayed command. -/
  | relayDone (n : Nat) (sct : Nat) (sc : Nat)
  /-- PEER_SEAL (R448): A SEAL message from the peer declares loss. -/
  | peerSeal
  /-- LEAVE (R448): A LEAVE message declares loss unless the halves planned Rest or Keep. -/
  | leave (planned : Bool)
  /-- SNAPREQ (R55): A peer SNAPREQ triggers a snapshot when PEER_IN is set. -/
  | snapreq
  /-- CONVERGENCE_COPY (R450): The source copies a marked segment's units to the target in Idle or Groom. -/
  | convergenceCopy
  /-- PAIR_CTL_EN (R448): PAIR.CTL.EN starts the pair link or stops it with LEAVE. -/
  | pairCtlEn (who : Req) (en : Bool)
  /-- PAIR_CLR (R433): PAIR.CLR.GO clears the link, beat, failover, arbitration and lane counts. -/
  | pairClr (who : Req)
  /-- NET_CTL_EN (R458): NET.CTL.EN starts a port or stops it, resetting its connections. -/
  | netCtlEn (who : Req) (port : Nat) (en : Bool)
  /-- LINK_UP (R458): A port gains block or codeword lock and its function sets. -/
  | linkUp (port : Nat)
  /-- LINK_DOWN (R482): A port's link drops, its function clears and its contexts close INCOMPLETE. -/
  | linkDown (port : Nat)
  /-- DHCP_BOUND (R459): DHCPv4 obtains the port's IPv4 address. -/
  | dhcpBound (port : Nat) (addr : Nat)
  /-- PAUSE_FRAME (R457): A received PAUSE frame holds transmission when PAUSE_RX is set. -/
  | pauseFrame (port : Nat) (quanta : Nat)
  /-- TCP_CONNECTION_REQUEST (R463): A TCP connection request is accepted or answered with a reset. -/
  | tcpConnectionRequest (port : Nat) (addr : Nat) (v6 : Bool) (dport : Nat)
  /-- ICREQ (R460): An ICReq sets up the connection, granting digests as configured. -/
  | icreq (conn : Nat) (hdgst : Bool) (ddgst : Bool)
  /-- CONNECT (R465): A fabric Connect creates a controller and may enter Offload from Idle. -/
  | connect (id : Cid) (qid : Nat) (sqsize : Nat) (cntlid : Nat) (host : Nat) (kato : Nat)
  /-- PROPERTY_GET (R464): Property Get reads a fabric controller property. -/
  | propertyGet (id : Cid) (ofst : Nat) (eight : Bool)
  /-- PROPERTY_SET (R464): Property Set writes a fabric controller property. -/
  | propertySet (id : Cid) (ofst : Nat) (eight : Bool) (value : Nat)
  /-- H2C_DATA (R484): An H2CData PDU delivers write data, a digest error failing the command. -/
  | h2cData (id : Cid) (off : Nat) (sectors : List Nat) (hdrOk : Bool) (dataOk : Bool)
  /-- OFFLOAD_CLOSE_TIMEOUT (R479): One hundred milliseconds after an Idle request in Offload, connections are closed. -/
  | offloadCloseTimeout
  /-- NET_CLR (R457): NET.CLR.GO clears the port's byte, error, FEC and PAUSE counts. -/
  | netClr (who : Req) (port : Nat)
  /-- NVTCP_CTL_EN (R465): NVTCP.CTL.EN enables or disables the NVMe/TCP target. -/
  | nvtcpCtlEn (who : Req) (en : Bool)
  /-- NVTCP_CLR (R484): NVTCP.CLR.GO clears connection, digest, outcome and hashed counts. -/
  | nvtcpClr (who : Req)
  /-- MBX_RING (R488): A sender writing RING ORs doorbell bits into DB and notifies the receiver. -/
  | mbxRing (who : Req) (d : Nat) (b : Nat)
  /-- MBX_DB_CLEAR (R488): The receiver clears doorbell bits by writing DB. -/
  | mbxDbClear (who : Req) (d : Nat) (b : Nat)
  /-- MBX_BLOCK_GO (R490): BLK_CTL.GO posts a mailbox block. -/
  | mbxBlockGo (who : Req) (d : Nat)
  /-- MBX_BLOCK_DONE (R490): BLK_CTL.DONE marks a posted block answered. -/
  | mbxBlockDone (who : Req) (d : Nat)
  /-- MBX_BLOCK_RELEASE (R490): BLK_CTL.RELEASE returns an answered block to IDLE. -/
  | mbxBlockRelease (who : Req) (d : Nat)
  /-- MBX_Q_PUSH (R491): Q_PUSH appends one word to a mailbox queue or is refused when full. -/
  | mbxQPush (who : Req) (d : Nat) (w : Nat)
  /-- MBX_Q_POP (R491): Q_POP removes N words from the front of a mailbox queue. -/
  | mbxQPop (who : Req) (d : Nat) (n : Nat)
  /-- MBXACC (R487): A JTAG MBXACC Update-DR performs one 64-bit MBX access as Sniwyn. -/
  | mbxacc (write : Bool) (index : Nat) (data : Nat)
  /-- PING (R496): A PING message is answered with the same words. -/
  | ping (via : Nat)
  /-- REG_READ (R497): A REG_READ message reads one register as Sniwyn. -/
  | regRead (via : Nat)
  /-- REG_WRITE (R497): A REG_WRITE message writes one register as Sniwyn. -/
  | regWrite (via : Nat)
  /-- MBX_MODE_REQ (R497): A MODE_REQ message requests a mode with cause 0x07 and rings HO bit 1 when judged. -/
  | mbxModeReq (via : Nat)
  /-- INFO (R547): An INFO message returns identity, mode, readiness and security state. -/
  | info (via : Nat)
  /-- FORWARD (R497): A FORWARD message carries a request to the peer and returns its reply. -/
  | forward (via : Nat)
  /-- LOG_READ (R496): A LOG_READ message returns words of a log page. -/
  | logRead (via : Nat)
  /-- MESSAGE_BODY_TIMEOUT (R496): A request whose body is incomplete 10 ms after its header is discarded with BAD_LENGTH. -/
  | messageBodyTimeout
  /-- FORWARD_TIMEOUT (R496): A forwarded request unanswered for 10 ms is answered with TIMEOUT. -/
  | forwardTimeout (n : Nat)
  /-- SDMA_GO (R503): START.GO begins a register-mode transfer after address and permission checks. -/
  | sdmaGo (who : Req) (n : Nat)
  /-- SDMA_KICK (R504): START.KICK fetches the descriptor at HEAD. -/
  | sdmaKick (who : Req) (n : Nat)
  /-- SDMA_RING_RESET (R504): START.RING_RESET sets HEAD to 0. -/
  | sdmaRingReset (who : Req) (n : Nat)
  /-- SDMA_DESC_FETCH (R504): A descriptor fetch returns and the channel starts it or enters WAIT. -/
  | sdmaDescFetch (n : Nat) (ok : Bool) (bytes : List Nat)
  /-- SDMA_TRANSFER_END (R505): A transfer or descriptor ends, writing status then OWN, and the next descriptor follows. -/
  | sdmaTransferEnd (n : Nat) (err : Nat) (moved : Nat) (pcie : List Nat)
  /-- SDMA_PAUSE (R507): A write of CTL.PAUSE drains or resumes a channel. -/
  | sdmaPause (who : Req) (n : Nat) (pause : Bool)
  /-- SDMA_PAUSED (R507): A pause drain completes and the channel enters PAUSED. -/
  | sdmaPaused (n : Nat) (moved : Nat) (pcie : List Nat)
  /-- SDMA_CTL_EN (R508): CTL.EN starts a channel or disables it, discarding unwritten data. -/
  | sdmaCtlEn (who : Req) (n : Nat) (en : Bool)
  /-- SDMA_STOP_COMPLETE (R508): A disabled channel has nothing in flight and its stop completes. -/
  | sdmaStopComplete (n : Nat)
  /-- SDMA_CLR (R502): SDMA.CLR.GO clears BYTES and ERRORS. -/
  | sdmaClr (who : Req)
  /-- CRCU_CLEAR (R510): CLEAR sets a unit's ACC to its initial value and BYTES to 0. -/
  | crcuClear (who : Req) (unit : Nat)
  /-- FEED (R511): FEED adds 8 bytes to a software-fed unit. -/
  | feed (who : Req) (unit : Nat) (val : Nat)
  /-- FEED_PART (R511): FEED_PART adds n bytes to a software-fed unit. -/
  | feedPart (who : Req) (unit : Nat) (val : Nat)
  /-- CRCU_ACC_WRITE (R510): A write of ACC resumes a computation. -/
  | crcuAccWrite (who : Req) (unit : Nat) (val : Nat)
  /-- CRCU_CFG_WRITE (R513): A CFG write is taken only while EN is 0 or clears EN. -/
  | crcuCfgWrite (who : Req) (unit : Nat) (val : Nat)
  /-- TAMPER_N (R535): A tamper event zeroises the carry secret and takes the configured action. -/
  | tamperN (low : Bool)
  /-- CARRY_EXPIRED (R534): The carry countdown reaches 0 and KEEP zeroises CS. -/
  | carryExpired
  /-- KEY_ZEROISE (R530): After I/O and PBUF drain, key slots and KM are zeroised on entry to LOCKED. -/
  | keyZeroise
  /-- NEW_CHAL (R541): DBG.REQ.NEW_CHAL loads a fresh 48-byte challenge. -/
  | newChal (who : Req)
  /-- DBG_SUBMIT (R541): DBG.SUBMIT.GO verifies a signed response and raises the debug level. -/
  | dbgSubmit (who : Req)
  /-- DBG_DROP (R542): DBG.REQ.DROP returns the level to D0. -/
  | dbgDrop (who : Req)
  /-- DEBUG_LIFETIME_EXPIRED (R542): LIFETIME_S after a grant the level returns to D0. -/
  | debugLifetimeExpired
  /-- CHALLENGE_EXPIRED (R541): A challenge becomes invalid 60 s after issue. -/
  | challengeExpired
  /-- SEC_CLR (R546): SEC.CLR.GO clears TAMPER_LATCHED, LOCKED_WRITES and CRED_FAILS. -/
  | secClr (who : Req)
  /-- UNLOCK_A (R554): CODE.UNLOCK_A with its key begins the unlock sequence. -/
  | unlockA (who : Req) (key : Nat)
  /-- UNLOCK_B (R554): CODE.UNLOCK_B with its key arms the requester's unlock. -/
  | unlockB (who : Req) (key : Nat)
  /-- CODE_UNLOCK_TIMEOUT (R554): An armed unlock is disarmed after 1 ms. -/
  | codeUnlockTimeout (who : Req)
  /-- NOP (R554): CODE CMD NOP does nothing. -/
  | nop (who : Req)
  /-- READ_LINE (R554): READ_LINE reads 256 bytes into DATA0 to DATA31. -/
  | readLine (who : Req)
  /-- PROGRAM_LINE (R555): PROGRAM_LINE programs and verifies a line when unlocked. -/
  | programLine (who : Req)
  /-- ERASE_SECTOR (R556): ERASE_SECTOR increments the sector counter and erases it when unlocked. -/
  | eraseSector (who : Req)
  /-- BLANK_CHECK (R554): BLANK_CHECK reports whether a sector is fully erased. -/
  | blankCheck (who : Req)
  /-- CRC_SECTOR (R554): CRC_SECTOR computes the CRC-32C of a sector. -/
  | crcSector (who : Req)
  /-- CMD_DONE (R554): A code-store command ends with BUSY clear and its error code. -/
  | cmdDone (ok : Bool)
  /-- UPDATE_COPY_SECTOR (R572): Update copies and checks one target sector and journals COPY_DONE. -/
  | updateCopySector (ok : Bool)
  /-- UPDATE_SWITCH (R572): Update verifies the target slot, journals ACTIVE with TRIAL and requests a soft reset. -/
  | updateSwitch
  /-- BIST_GO (R586): BIST.CMD.GO starts a non-destructive run over the masked arrays. -/
  | bistGo (who : Req)
  /-- BIST_ABORT (R586): BIST.CMD.ABORT ends the run after the current segment is restored. -/
  | bistAbort (who : Req)
  /-- BIST_SEGMENT_DONE (R585): A non-destructive BIST segment is tested, repaired if needed and copied back. -/
  | bistSegmentDone (array : Nat) (rows : List Nat)
  /-- BIST_FUSE (R587): BIST.CMD.FUSE blows the soft repairs of an array into fuses. -/
  | bistFuse (who : Req) (array : Nat)
  /-- FUSE_DONE (R587): A fuse repair completes, a FUSED record is appended and a run follows. -/
  | fuseDone
  /-- BIST_CLR (R584): BIST.CLR.GO clears COUNTS. -/
  | bistClr (who : Req)
  /-- FI_CFG_WRITE (R593): A write of an injector's CFG arms it when permitted and valid, or disarms it. -/
  | fiCfgWrite (who : Req) (inj : Nat) (val : Nat)
  /-- FI_CTL_EN (R594): FI.CTL.EN enables fault injection, or stops every injector when cleared. -/
  | fiCtlEn (who : Req) (en : Bool)
  /-- CALENDAR_SECOND_EDGE (R601): The KEEP prescaler wraps, SECONDS increments and SEC_TB and SEC_CAL capture. -/
  | calendarSecondEdge (straps : Nat) (unstable : Nat)
  /-- CALENDAR_TRIM (R602): Every 32 s KEEP adds or removes TRIM counts from the prescaler. -/
  | calendarTrim (sub : Nat)
  /-- CALENDAR_REFRESH (R603): A KEEP handshake refreshes the MGMT calendar copy. -/
  | calendarRefresh (sub : Nat)
  /-- CAL_SET (R604): A write of TIME.CAL_SET sets the calendar and VALID. -/
  | calSet (who : Req) (val : Nat)
  /-- ALARM_WRITE (R607): A write of TIME.ALARM arms the alarm, firing at once if already due. -/
  | alarmWrite (who : Req) (val : Nat)
  /-- VBAK_MEASURE (R606): Once a second VBAK is measured and VBAK_LOW may set. -/
  | vbakMeasure (mv : Nat)
  /-- KEEP_SUPPLY_LOSS (R605): KEEP's detector trips and its contents are declared lost. -/
  | keepSupplyLoss
  /-- KEEP_SUPPLY_RETURN (R605): The KEEP rail returns and KEEP starts afresh with VALID clear. -/
  | keepSupplyReturn
  /-- RTC_LOSS (R626): The 32.768 kHz crystal stops and KEEP runs from its internal oscillator. -/
  | rtcLoss
  /-- RTC_RESTORED (R626): The crystal returns and MGMT writes the calendar back into KEEP. -/
  | rtcRestored
  /-- TIMEBASE_MARKER (R610): Every 256 ticks a marker aligns each island's timebase replica to the master. -/
  | timebaseMarker
  /-- LTC_FRAME (R613): A decoded LTC frame updates lock state and jam-syncs the generator. -/
  | ltcFrame (cells : Bool) (addr : Nat) (rate : Nat) (user : Nat) (boundary : Nat) (period : Nat)
  /-- LTC_LOSS_TIMEOUT (R613): LOSS_FRAMES periods without a valid frame unlock the reader. -/
  | ltcLossTimeout
  /-- GENERATOR_BOUNDARY (R615): The generator reaches a frame boundary and advances its address. -/
  | generatorBoundary
  /-- GEN_PRESET (R616): A write of GEN_PRESET sets the free-running generator's address. -/
  | genPreset (who : Req) (addr : Nat)
  /-- TIME_CLR (R607): TIME.CLR.GO clears ALARM_FIRED and the LTC, FRM and step counts. -/
  | timeClr (who : Req)
  /-- UART_CHARACTER (R621): A received character is delivered with its flags and timestamp into the receive FIFO. -/
  | uartCharacter (port : Nat) (data : Nat) (framing : Bool) (parity : Bool)
  /-- BREAK (R622): A low line lasting BREAK_BITS is recorded once as a break entry. -/
  | breakCondition (port : Nat)
  /-- TX_PUSH (R624): TX_PUSH appends one byte to the transmit FIFO or is refused. -/
  | txPush (who : Req) (port : Nat) (data : Nat)
  /-- UART_TX_CHARACTER_SENT (R624): A character finishes transmitting and the next is started. -/
  | uartTxCharacterSent (port : Nat)
  /-- RX_POP (R623): RX_POP removes N entries from the receive FIFO. -/
  | rxPop (who : Req) (port : Nat) (n : Nat)
  /-- SEND_BREAK (R624): CTL.SEND_BREAK drives TX low after the current character, or releases it. -/
  | sendBreak (who : Req) (port : Nat) (on : Bool)
  /-- UART_CFG_WRITE (R625): A UART CFG write is taken only while EN is 0 or clears EN. -/
  | uartCfgWrite (who : Req) (port : Nat) (val : Nat)
  /-- UART_CTL_EN (R625): CTL.EN enables the UART or disables it, discarding the character being received. -/
  | uartCtlEn (who : Req) (port : Nat) (en : Bool)
  /-- ASER_CLR (R623): ASER.CLR.GO clears the instance's counts. -/
  | aserClr (who : Req) (port : Nat)
  /-- PR_DET_N_LOW (R127): PR_DET_N falls low when a peer is fitted, and pair-link bring-up starts once CONFIG has set. -/
  | prDetNLow
  /-- RAIL_VALID (R78): A supply rail rises into its operating range, its RAIL_STATUS.VALID bit sets and functions that need it may start. -/
  | railValid (rail : Nat)
  /-- CONFIG_SPACE_WRITE (R196): The camera writes PCIe configuration space, changing the power state to D3hot or back, enabling MSI-X, Bus Master Enable or PME. -/
  | configSpaceWrite (d3 : Bool) (msix : Bool) (busMaster : Bool) (pme : Bool)
  /-- PCIE_LINK_DOWN (R108): The PCIe link drops out of L0 without PERST_N, PCIE.EVT_RAW.LINK_DOWN sets and PCIE_LINK clears with the functions that need it. -/
  | pcieLinkDown
  /-- INTERRUPT_COALESCING_TIMEOUT (R25): The Interrupt Coalescing aggregation time expires and the held MSI-X interrupt for a completion queue is sent. -/
  | interruptCoalescingTimeout (q : Nat)
  /-- PAGE_IDLE_TIMEOUT (R334): A DRAM row left open under the HINT policy is closed after IDLE_NS without an access. -/
  | pageIdleTimeout (chan : Nat) (bank : Nat)
  /-- PAIR_STALL_WARNING (R445): A mirror-pending slot has waited half of STALL_MS and PAIR.EVT_RAW.STALL sets. -/
  | pairStallWarning
  /-- TCP_CONNECTION_CLOSE (R123): The dock closes or resets a TCP connection, or TCP ends it, and its controller and queue are torn down. -/
  | tcpConnectionClose (conn : Nat)
  /-- ADDRESS_RESOLUTION_REQUEST (R457): An ARP request or IPv6 neighbour solicitation for a port's address arrives and is answered. -/
  | addressResolutionRequest (port : Nat) (addr : Nat) (v6 : Bool)
  /-- ICMP_ECHO_REQUEST (R457): An ICMP or ICMPv6 echo request to a port's address arrives and is answered. -/
  | icmpEchoRequest (port : Nat) (addr : Nat) (v6 : Bool) (data : List Nat)
  /-- PAUSE_TIME_EXPIRED (R457): The pause time of a received PAUSE frame runs out and the port resumes transmission. -/
  | pauseTimeExpired (port : Nat)
  /-- CREDENTIAL_REJECTION_DELAY (R528): One second after a rejected Owner Lock or Unlock was received, it completes with 7h/0x8C and the attempts left. -/
  | credentialRejectionDelay (id : Cid)
  /-- TRST_N_ASSERT (R648): TRST_N held low for at least 100 ns resets the IEEE 1149.1 TAP to Test-Logic-Reset. -/
  | trstNAssert
  deriving DecidableEq, Repr

end Sys2Proof
end

