-- ==== Sys2Proof/Decode.lean ====
section
/-!
DEFINITION. The command a word spells. The command table gives no row any bits, so no word spells one.
-/

namespace Sys2Proof

/-- The command that a word of `nbits` bits spells by the table's bits: none, since no row has bits. -/
def decodeTableWord (_nbits _w : Nat) : Option Instr := none

end Sys2Proof
end

