-- ==== Sys2Proof/Config.lean ====
section
/-!
DEFINITION. The values the spec leaves open. Each is an opaque constant: nothing can evaluate it, so a statement holds
for every value. A first argument `n` is a counter of the state that every use advances.
-/

namespace Sys2Proof.Config

/-- R81: which of the two levels a strap reports that changes in its sampling window; bit `i` for strap `i`. -/
opaque strapLevel : Nat → Nat

/-- R56, R57: ticks from the trigger instant to an island's latch; at most 12 are used. -/
opaque latchDelay : Nat → Nat → Nat

/-- The SHA-256 digest of a byte string (FIPS 180), as a number. -/
opaque sha256 : List Nat → Nat

/-- The SHA-384 digest of a byte string (FIPS 180), as a number. -/
opaque sha384 : List Nat → Nat

/-- R541: whether an ECDSA P-384 signature verifies: key, message, signature. -/
opaque ecdsaOk : Nat → List Nat → List Nat → Bool

/-- Random numbers of the device: 48-byte challenges, keys, salts. -/
opaque random : Nat → Nat

/-- A value the spec leaves undefined. -/
opaque undefinedValue : Nat → Nat

/-- What the code store holds as it leaves manufacture in the sectors of slot A, the recovery loader and the configuration: the
byte at an offset. -/
opaque factoryByte : Nat → Nat

/-- What identifies the part and the spec does not state: the vendor and subsystem identifiers, the text of serial number, model and
revision, the subsystem's qualified name, and the like, by the offset of Identify Controller at which it stands. -/
opaque identity : Nat → Nat

end Sys2Proof.Config
end

