-- ==== Sys2Proof/Machine/Fields.lean ====
section
/-!
DEFINITION. The register fields of the 96 pages: one `Field` per field of the spec's register tables
(Tables 02-5 to 21-3), with its page, offset, bits, access type, reset value and legal values; the events of
each page; and the SNAP words each page latches. Where a reset column gives no number ("found", "journal",
"config", ...), the value stands in assumption log entry 1.
-/

namespace Sys2Proof.Machine

/-- Access types of Table 00-3 (R9). RSV bits have no field. -/
inductive Acc where
  | rw | ro | w1c | w1s | wo | rws | rwl
  deriving DecidableEq, Repr

/-- The values a field may take (R12). -/
inductive Legal where
  /-- Every value. -/
  | any
  /-- From `a` to `b`. -/
  | rng (a b : Nat)
  /-- Every value but 0. -/
  | nz
  /-- Every value but `a`. -/
  | ne (a : Nat)
  /-- One of a list. -/
  | oneOf (l : List Nat)
  /-- Each byte at most `m`. -/
  | bytes (m : Nat)
  /-- Each of 16 bit pairs at most `m`. -/
  | pairs (m : Nat)
  deriving DecidableEq, Repr

/-- Whether every one of `n` bytes of `v` is at most `m`. -/
def bytesLe (m : Nat) : Nat → Nat → Bool
  | 0, _ => true
  | n + 1, v => decide (v % 256 ≤ m) && bytesLe m n (v / 256)

/-- Whether every one of `n` bit pairs of `v` is at most `m`. -/
def pairsLe (m : Nat) : Nat → Nat → Bool
  | 0, _ => true
  | n + 1, v => decide (v % 4 ≤ m) && pairsLe m n (v / 4)

/-- R12: whether `v` is not a reserved value. -/
def Legal.ok : Legal → Nat → Bool
  | .any, _ => true
  | .rng a b, v => decide (a ≤ v ∧ v ≤ b)
  | .nz, v => decide (v ≠ 0)
  | .ne a, v => decide (v ≠ a)
  | .oneOf l, v => l.contains v
  | .bytes m, v => bytesLe m 8 v
  | .pairs m, v => pairsLe m 16 v

/-- One register field. `own` says that a write of it is a row of the command table of its own. -/
structure Field where
  page  : Nat
  off   : Nat
  hi    : Nat
  lo    : Nat
  acc   : Acc
  rst   : Nat
  legal : Legal
  own   : Bool
  deriving DecidableEq, Repr

/-- The field's width in bits. -/
def Field.width (f : Field) : Nat := f.hi + 1 - f.lo

/-- Where the register file keeps the field's value. Offsets from 0x10000 are words behind a window. -/
def Field.key (f : Field) : Nat := (f.page * 0x100000 + f.off) * 64 + f.lo

/-- The page a register-file key belongs to. -/
def keyPage (k : Nat) : Nat := k / 64 / 0x100000
/-- The offset a register-file key belongs to. -/
def keyOff (k : Nat) : Nat := k / 64 % 0x100000
/-- The lowest bit of a register-file key. -/
def keyLo (k : Nat) : Nat := k % 64

/-- An event: a bit of a page's EVT_RAW. -/
structure Ev where
  page : Nat
  bit  : Nat
  deriving DecidableEq, Repr

/-! ### Page numbers (Table 02-1) -/
namespace Pg
/-- Table 02-1. -/
def SYS : Nat := 0x00
/-- Table 02-1. -/
def PWR : Nat := 0x01
/-- Table 02-1. -/
def CLK : Nat := 0x02
/-- Table 02-1. -/
def BUDGET : Nat := 0x03
/-- Table 02-1. -/
def LEDGER : Nat := 0x04
/-- Table 02-1. -/
def SNAP : Nat := 0x05
/-- Table 02-1. -/
def TIME : Nat := 0x06
/-- Table 02-1. -/
def SEC : Nat := 0x07
/-- Table 02-1. -/
def DBG : Nat := 0x08
/-- Table 02-1. -/
def CODE : Nat := 0x09
/-- Table 02-1. -/
def UPD : Nat := 0x0a
/-- Table 02-1. -/
def BIST : Nat := 0x0b
/-- Table 02-1. -/
def FI : Nat := 0x0c
/-- Table 02-1. -/
def MBX : Nat := 0x0d
/-- Table 02-1. -/
def SDMA : Nat := 0x0e
/-- Table 02-1. -/
def CRCU : Nat := 0x0f
/-- Table 02-1. -/
def HOSTQ : Nat := 0x10
/-- Table 02-1. -/
def PCIE : Nat := 0x11
/-- Table 02-1. -/
def INGEST : Nat := 0x12
/-- Table 02-1. -/
def FRAME : Nat := 0x13
/-- Table 02-1. -/
def MAP : Nat := 0x14
/-- Table 02-1. -/
def MCACHE : Nat := 0x15
/-- Table 02-1. -/
def DRAMC : Nat := 0x16
/-- Table 02-1. -/
def PBUF : Nat := 0x17
/-- Table 02-1. -/
def ECC : Nat := 0x18
/-- Table 02-1. -/
def SCRUB : Nat := 0x19
/-- Table 02-1. -/
def GROOM : Nat := 0x1a
/-- Table 02-1. -/
def PAIR : Nat := 0x1b
/-- Table 02-1. -/
def NET0 : Nat := 0x1c
/-- Table 02-1. -/
def NET1 : Nat := 0x1d
/-- Table 02-1. -/
def NVTCP : Nat := 0x1e
/-- Table 02-1. -/
def ASER : Nat := 0x1f
/-- Table 02-1: page of flash channel `c`. -/
def FCH (c : Nat) : Nat := 0x20 + c
end Pg

/-! ### Fields -/
namespace F

/-- Table 02-2: EVT_RAW of page `p`, W1C. -/
def EVT_RAW (p : Nat) : Field := ⟨p, 0x020, 63, 0, .w1c, 0, .any, false⟩
/-- Table 02-2: EVT_MASK of page `p`, RW; resets to all ones. -/
def EVT_MASK (p : Nat) : Field := ⟨p, 0x028, 63, 0, .rw, 0xffffffffffffffff, .any, false⟩
/-- Table 02-7: SHADOW_CTL.TARGET_EPOCH of page `p`, RW. -/
def TARGET_EPOCH (p : Nat) : Field := ⟨p, 0x040, 23, 0, .rw, 0, .any, false⟩
/-- Table 02-8: SHADOW_STATUS.REASON of page `p`, RO. -/
def SHADOW_REASON (p : Nat) : Field := ⟨p, 0x048, 55, 51, .ro, 0, .any, false⟩
/-- Table 02-8: SHADOW_STATUS.REFUSED of page `p`, RO. -/
def SHADOW_REFUSED (p : Nat) : Field := ⟨p, 0x048, 50, 50, .ro, 0, .any, false⟩
/-- Table 02-8: SHADOW_STATUS.MIXED of page `p`, RO. -/
def SHADOW_MIXED (p : Nat) : Field := ⟨p, 0x048, 48, 48, .ro, 0, .any, false⟩
/-- Table 02-8: SHADOW_STATUS.PENDING_EPOCH of page `p`, RO. -/
def PENDING_EPOCH (p : Nat) : Field := ⟨p, 0x048, 47, 24, .ro, 0, .any, false⟩
/-- Table 02-8: SHADOW_STATUS.ACTIVE_EPOCH of page `p`, RO. -/
def ACTIVE_EPOCH (p : Nat) : Field := ⟨p, 0x048, 23, 0, .ro, 0, .any, false⟩
/-- Table 02-9: SNAP_EPOCH.COMMIT_EPOCH of page `p`, RO. -/
def SNAP_COMMIT_EPOCH (p : Nat) : Field := ⟨p, 0x050, 63, 40, .ro, 0, .any, false⟩
/-- Table 02-9: SNAP_EPOCH.SOURCE of page `p`, RO. -/
def SNAP_SOURCE (p : Nat) : Field := ⟨p, 0x050, 36, 32, .ro, 0, .any, false⟩
/-- Table 02-9: SNAP_EPOCH.EPOCH of page `p`, RO. -/
def SNAP_EPOCH (p : Nat) : Field := ⟨p, 0x050, 31, 0, .ro, 0, .any, false⟩
/-- Table 02-9: SNAP_TIME of page `p`, RO. -/
def SNAP_TIME (p : Nat) : Field := ⟨p, 0x058, 63, 0, .ro, 0, .any, false⟩
/-- Table 02-2: SNAP_k of page `p`, RO. -/
def SNAP_WORD (p k : Nat) : Field := ⟨p, 0x060 + 8 * k, 63, 0, .ro, 0, .any, false⟩

/-- Table 02-10: SYS.MODE.CAUSE, RO. -/
def SYS_MODE_CAUSE : Field := ⟨0x0, 0x100, 15, 8, .ro, 0, .any, false⟩
/-- Table 02-10: SYS.MODE.PREV, RO. -/
def SYS_MODE_PREV : Field := ⟨0x0, 0x100, 7, 4, .ro, 0, .any, false⟩
/-- Table 02-10: SYS.MODE.CUR, RO. -/
def SYS_MODE_CUR : Field := ⟨0x0, 0x100, 3, 0, .ro, 2, .any, false⟩
/-- Table 02-10: SYS.MODE_REQ.GO, WO. -/
def SYS_MODE_REQ_GO : Field := ⟨0x0, 0x108, 8, 8, .wo, 0, .any, false⟩
/-- Table 02-10: SYS.MODE_REQ.TARGET, RW. -/
def SYS_MODE_REQ_TARGET : Field := ⟨0x0, 0x108, 3, 0, .rw, 3, .any, false⟩
/-- Table 02-10: SYS.MODE_TIME.ENTRY_TB, RO. -/
def SYS_MODE_TIME_ENTRY_TB : Field := ⟨0x0, 0x110, 63, 0, .ro, 0, .any, false⟩
/-- Table 02-10: SYS.FUNC_READY.READY, RO. -/
def SYS_FUNC_READY_READY : Field := ⟨0x0, 0x118, 47, 0, .ro, 0, .any, false⟩
/-- Table 02-10: SYS.FUNC_FAULT.FAULT, W1C. -/
def SYS_FUNC_FAULT_FAULT : Field := ⟨0x0, 0x120, 47, 0, .w1c, 0, .any, false⟩
/-- Table 02-10: SYS.RESET_CTL.KEY, WO. -/
def SYS_RESET_CTL_KEY : Field := ⟨0x0, 0x128, 63, 48, .wo, 0, .any, false⟩
/-- Table 02-10: SYS.RESET_CTL.ISLAND, WO. -/
def SYS_RESET_CTL_ISLAND : Field := ⟨0x0, 0x128, 12, 8, .wo, 0, .any, false⟩
/-- Table 02-10: SYS.RESET_CTL.ISLAND_RESET, WO. -/
def SYS_RESET_CTL_ISLAND_RESET : Field := ⟨0x0, 0x128, 1, 1, .wo, 0, .any, false⟩
/-- Table 02-10: SYS.RESET_CTL.SOFT_RESET, WO. -/
def SYS_RESET_CTL_SOFT_RESET : Field := ⟨0x0, 0x128, 0, 0, .wo, 0, .any, false⟩
/-- Table 02-10: SYS.RESET_CAUSE.CAUSE, W1C, reset column "per reset" (power-on reset sets bit 0). -/
def SYS_RESET_CAUSE_CAUSE : Field := ⟨0x0, 0x130, 6, 0, .w1c, 1, .any, false⟩
/-- Table 02-10: SYS.STRAPS.ISLAND_TEST, RO, reset column "strap". -/
def SYS_STRAPS_ISLAND_TEST : Field := ⟨0x0, 0x138, 3, 3, .ro, 0, .any, false⟩
/-- Table 02-10: SYS.STRAPS.BOOT_SEL, RO, reset column "strap". -/
def SYS_STRAPS_BOOT_SEL : Field := ⟨0x0, 0x138, 2, 1, .ro, 0, .any, false⟩
/-- Table 02-10: SYS.STRAPS.PAIR_RANK, RO, reset column "strap". -/
def SYS_STRAPS_PAIR_RANK : Field := ⟨0x0, 0x138, 0, 0, .ro, 0, .any, false⟩
/-- Table 02-10: SYS.GCOMMIT.GO, WO. -/
def SYS_GCOMMIT_GO : Field := ⟨0x0, 0x140, 32, 32, .wo, 0, .any, false⟩
/-- Table 02-10: SYS.GCOMMIT.TARGET_EPOCH, RW. -/
def SYS_GCOMMIT_TARGET_EPOCH : Field := ⟨0x0, 0x140, 23, 0, .rw, 0, .any, false⟩
/-- Table 02-10: SYS.GCOMMIT_STATUS.REFUSED, RO. -/
def SYS_GCOMMIT_STATUS_REFUSED : Field := ⟨0x0, 0x148, 40, 40, .ro, 0, .any, false⟩
/-- Table 02-10: SYS.GCOMMIT_STATUS.PAGES, RO. -/
def SYS_GCOMMIT_STATUS_PAGES : Field := ⟨0x0, 0x148, 39, 32, .ro, 0, .any, false⟩
/-- Table 02-10: SYS.GCOMMIT_STATUS.MIXED_COUNT, RO. -/
def SYS_GCOMMIT_STATUS_MIXED_COUNT : Field := ⟨0x0, 0x148, 7, 0, .ro, 0, .any, false⟩
/-- Table 02-10: SYS.MIXED_MAP0.MAP, RO. -/
def SYS_MIXED_MAP0_MAP : Field := ⟨0x0, 0x150, 63, 0, .ro, 0, .any, false⟩
/-- Table 02-10: SYS.MIXED_MAP1.MAP, RO. -/
def SYS_MIXED_MAP1_MAP : Field := ⟨0x0, 0x158, 31, 0, .ro, 0, .any, false⟩
/-- Table 02-10: SYS.ACCESS_LOG.KIND, RO. -/
def SYS_ACCESS_LOG_KIND : Field := ⟨0x0, 0x160, 31, 28, .ro, 0, .any, false⟩
/-- Table 02-10: SYS.ACCESS_LOG.WRITE, RO. -/
def SYS_ACCESS_LOG_WRITE : Field := ⟨0x0, 0x160, 27, 27, .ro, 0, .any, false⟩
/-- Table 02-10: SYS.ACCESS_LOG.REQUESTER, RO. -/
def SYS_ACCESS_LOG_REQUESTER : Field := ⟨0x0, 0x160, 25, 24, .ro, 0, .any, false⟩
/-- Table 02-10: SYS.ACCESS_LOG.OFFSET, RO. -/
def SYS_ACCESS_LOG_OFFSET : Field := ⟨0x0, 0x160, 19, 0, .ro, 0, .any, false⟩
/-- Table 02-10: SYS.SCRATCH, RW. -/
def SYS_SCRATCH : Field := ⟨0x0, 0x168, 63, 0, .rw, 0, .any, false⟩
/-- Table 02-12: SNAP.TRIGGER.FIRE, WO. -/
def SNAP_TRIGGER_FIRE : Field := ⟨0x5, 0x100, 0, 0, .wo, 0, .any, false⟩
/-- Table 02-12: SNAP.CFG.EVT_BIT, RW. -/
def SNAP_CFG_EVT_BIT : Field := ⟨0x5, 0x108, 21, 16, .rw, 0, .any, false⟩
/-- Table 02-12: SNAP.CFG.EVT_PAGE, RW. -/
def SNAP_CFG_EVT_PAGE : Field := ⟨0x5, 0x108, 14, 8, .rw, 0, .rng 0 0x5F, false⟩
/-- Table 02-12: SNAP.CFG.PEER_OUT, RW. -/
def SNAP_CFG_PEER_OUT : Field := ⟨0x5, 0x108, 5, 5, .rw, 0, .any, false⟩
/-- Table 02-12: SNAP.CFG.PEER_IN, RW. -/
def SNAP_CFG_PEER_IN : Field := ⟨0x5, 0x108, 4, 4, .rw, 0, .any, false⟩
/-- Table 02-12: SNAP.CFG.EVT_EN, RW. -/
def SNAP_CFG_EVT_EN : Field := ⟨0x5, 0x108, 3, 3, .rw, 0, .any, false⟩
/-- Table 02-12: SNAP.CFG.SNAP_IN_EDGE, RW. -/
def SNAP_CFG_SNAP_IN_EDGE : Field := ⟨0x5, 0x108, 2, 2, .rw, 0, .any, false⟩
/-- Table 02-12: SNAP.CFG.SNAP_IN_EN, RW. -/
def SNAP_CFG_SNAP_IN_EN : Field := ⟨0x5, 0x108, 1, 1, .rw, 0, .any, false⟩
/-- Table 02-12: SNAP.CFG.HOLD, RW. -/
def SNAP_CFG_HOLD : Field := ⟨0x5, 0x108, 0, 0, .rw, 1, .any, false⟩
/-- Table 02-12: SNAP.REARM.CLR_COUNTS, WO. -/
def SNAP_REARM_CLR_COUNTS : Field := ⟨0x5, 0x110, 1, 1, .wo, 0, .any, false⟩
/-- Table 02-12: SNAP.REARM.GO, WO. -/
def SNAP_REARM_GO : Field := ⟨0x5, 0x110, 0, 0, .wo, 0, .any, false⟩
/-- Table 02-12: SNAP.STATE.BUSY, RO. -/
def SNAP_STATE_BUSY : Field := ⟨0x5, 0x118, 1, 1, .ro, 0, .any, false⟩
/-- Table 02-12: SNAP.STATE.HELD, RO. -/
def SNAP_STATE_HELD : Field := ⟨0x5, 0x118, 0, 0, .ro, 0, .any, false⟩
/-- Table 02-12: SNAP.LAST_EPOCH.EPOCH, RO. -/
def SNAP_LAST_EPOCH_EPOCH : Field := ⟨0x5, 0x120, 31, 0, .ro, 0, .any, false⟩
/-- Table 02-12: SNAP.LAST_TIME.TIME, RO. -/
def SNAP_LAST_TIME_TIME : Field := ⟨0x5, 0x128, 63, 0, .ro, 0, .any, false⟩
/-- Table 02-12: SNAP.COUNTS.MERGED, RO. -/
def SNAP_COUNTS_MERGED : Field := ⟨0x5, 0x130, 31, 16, .ro, 0, .any, false⟩
/-- Table 02-12: SNAP.COUNTS.MISSED, RO. -/
def SNAP_COUNTS_MISSED : Field := ⟨0x5, 0x130, 15, 0, .ro, 0, .any, false⟩
/-- Table 02-12: SNAP.SKEW.LATCHED, RO. -/
def SNAP_SKEW_LATCHED : Field := ⟨0x5, 0x138, 55, 32, .ro, 0, .any, false⟩
/-- Table 02-12: SNAP.SKEW.SPREAD, RO. -/
def SNAP_SKEW_SPREAD : Field := ⟨0x5, 0x138, 7, 0, .ro, 0, .any, false⟩
/-- Table 03-8: PWR.RAIL_STATUS.FLD_LEVEL, RO, reset column "measured". -/
def PWR_RAIL_STATUS_FLD_LEVEL : Field := ⟨0x1, 0x100, 25, 24, .ro, 0, .any, false⟩
/-- Table 03-8: PWR.RAIL_STATUS.FLC_LEVEL, RO, reset column "measured". -/
def PWR_RAIL_STATUS_FLC_LEVEL : Field := ⟨0x1, 0x100, 23, 22, .ro, 0, .any, false⟩
/-- Table 03-8: PWR.RAIL_STATUS.FLB_LEVEL, RO, reset column "measured". -/
def PWR_RAIL_STATUS_FLB_LEVEL : Field := ⟨0x1, 0x100, 21, 20, .ro, 0, .any, false⟩
/-- Table 03-8: PWR.RAIL_STATUS.FLA_LEVEL, RO, reset column "measured". -/
def PWR_RAIL_STATUS_FLA_LEVEL : Field := ⟨0x1, 0x100, 19, 18, .ro, 0, .any, false⟩
/-- Table 03-8: PWR.RAIL_STATUS.IO_LEVEL, RO, reset column "measured". -/
def PWR_RAIL_STATUS_IO_LEVEL : Field := ⟨0x1, 0x100, 17, 16, .ro, 0, .any, false⟩
/-- Table 03-8: PWR.RAIL_STATUS.VALID, RO, reset column "measured" (groups A to C valid at release). -/
def PWR_RAIL_STATUS_VALID : Field := ⟨0x1, 0x100, 15, 0, .ro, 255, .any, false⟩
/-- Table 03-8: PWR.RAIL_TRIP.TRIP, W1C. -/
def PWR_RAIL_TRIP_TRIP : Field := ⟨0x1, 0x108, 15, 0, .w1c, 0, .any, false⟩
/-- Table 03-8: PWR.VIN_CFG.TH_MV, RW. -/
def PWR_VIN_CFG_TH_MV : Field := ⟨0x1, 0x110, 26, 16, .rw, 0x258, .rng 400 1100, false⟩
/-- Table 03-8: PWR.VIN_CFG.BELOW, RO. -/
def PWR_VIN_CFG_BELOW : Field := ⟨0x1, 0x110, 1, 1, .ro, 0, .any, false⟩
/-- Table 03-8: PWR.VIN_CFG.EN, RW. -/
def PWR_VIN_CFG_EN : Field := ⟨0x1, 0x110, 0, 0, .rw, 0, .any, false⟩
/-- Table 03-8: PWR.ISL_EN.EN, RW / RO. -/
def PWR_ISL_EN_EN : Field := ⟨0x1, 0x118, 23, 0, .rw, 0xffffff, .any, true⟩
/-- Table 03-8: PWR.ISL_STATE.STATE, RO, reset column "per island" (KEEP and MGMT ON, HOST to DRAM STARTING, FL OFF). -/
def PWR_ISL_STATE_STATE : Field := ⟨0x1, 0x120, 47, 0, .ro, 0x555a, .any, false⟩
/-- Table 03-8: PWR.ISL_REEN.REENABLE_PENDING, RO. -/
def PWR_ISL_REEN_REENABLE_PENDING : Field := ⟨0x1, 0x128, 23, 0, .ro, 0, .any, false⟩
/-- Table 03-8: PWR.ISL_REFUSE.REFUSED, W1C. -/
def PWR_ISL_REFUSE_REFUSED : Field := ⟨0x1, 0x130, 23, 0, .w1c, 0, .any, false⟩
/-- Table 03-8: PWR.FILT.TAMPER_N, RWL. -/
def PWR_FILT_TAMPER_N : Field := ⟨0x1, 0x138, 34, 32, .rwl, 7, .any, false⟩
/-- Table 03-8: PWR.FILT.ASER1_RX, RW. -/
def PWR_FILT_ASER1_RX : Field := ⟨0x1, 0x138, 30, 28, .rw, 0, .any, false⟩
/-- Table 03-8: PWR.FILT.ASER0_RX, RW. -/
def PWR_FILT_ASER0_RX : Field := ⟨0x1, 0x138, 26, 24, .rw, 0, .any, false⟩
/-- Table 03-8: PWR.FILT.PWR_FAIL_N, RW. -/
def PWR_FILT_PWR_FAIL_N : Field := ⟨0x1, 0x138, 22, 20, .rw, 2, .any, false⟩
/-- Table 03-8: PWR.FILT.SNAP_IN, RW. -/
def PWR_FILT_SNAP_IN : Field := ⟨0x1, 0x138, 18, 16, .rw, 0, .any, false⟩
/-- Table 03-8: PWR.FILT.FRM_IN, RW. -/
def PWR_FILT_FRM_IN : Field := ⟨0x1, 0x138, 14, 12, .rw, 4, .any, false⟩
/-- Table 03-8: PWR.FILT.TC_IN, RW. -/
def PWR_FILT_TC_IN : Field := ⟨0x1, 0x138, 10, 8, .rw, 7, .any, false⟩
/-- Table 03-8: PWR.FILT.WAKE, RW. -/
def PWR_FILT_WAKE : Field := ⟨0x1, 0x138, 6, 4, .rw, 7, .any, false⟩
/-- Table 03-8: PWR.FILT.RESET_N, RW. -/
def PWR_FILT_RESET_N : Field := ⟨0x1, 0x138, 2, 0, .rw, 6, .any, false⟩
/-- Table 03-8: PWR.GPIO_PAD.PAD, RW. -/
def PWR_GPIO_PAD_PAD : Field := ⟨0x1, 0x140, 63, 0, .rw, 0x5555555555555555, .any, false⟩
/-- Table 03-8: PWR.MISC_PAD.PAD, RW. -/
def PWR_MISC_PAD_PAD : Field := ⟨0x1, 0x148, 11, 0, .rw, 0x555, .any, false⟩
/-- Table 03-8: PWR.GPIO_DIR.DIR, RW. -/
def PWR_GPIO_DIR_DIR : Field := ⟨0x1, 0x150, 15, 0, .rw, 0, .any, false⟩
/-- Table 03-8: PWR.GPIO_OUT.OUT, RW. -/
def PWR_GPIO_OUT_OUT : Field := ⟨0x1, 0x158, 15, 0, .rw, 0, .any, false⟩
/-- Table 03-8: PWR.GPIO_IN.IN, RO, reset column "—". -/
def PWR_GPIO_IN_IN : Field := ⟨0x1, 0x160, 15, 0, .ro, 0, .any, false⟩
/-- Table 03-8: PWR.GPIO_PULL.PULL, two bits a GPIO, RW; 3 reserved. -/
def PWR_GPIO_PULL : Field := ⟨0x1, 0x168, 31, 0, .rw, 0x55555555, .pairs 2, false⟩
/-- Table 03-10: CLK.PLL_LOCK.LOCK, RO. -/
def CLK_PLL_LOCK_LOCK : Field := ⟨0x2, 0x100, 9, 0, .ro, 0, .any, false⟩
/-- Table 03-10: CLK.REF_STATUS.RTC_OK, RO, reset column "—" (crystal running). -/
def CLK_REF_STATUS_RTC_OK : Field := ⟨0x2, 0x108, 3, 3, .ro, 1, .any, false⟩
/-- Table 03-10: CLK.REF_STATUS.SD_REFCLK_OK, RO, reset column "—". -/
def CLK_REF_STATUS_SD_REFCLK_OK : Field := ⟨0x2, 0x108, 2, 2, .ro, 0, .any, false⟩
/-- Table 03-10: CLK.REF_STATUS.PE_REFCLK_OK, RO, reset column "—". -/
def CLK_REF_STATUS_PE_REFCLK_OK : Field := ⟨0x2, 0x108, 1, 1, .ro, 0, .any, false⟩
/-- Table 03-10: CLK.REF_STATUS.XTAL_OK, RO. -/
def CLK_REF_STATUS_XTAL_OK : Field := ⟨0x2, 0x108, 0, 0, .ro, 1, .any, false⟩
/-- Table 03-10: CLK.SSC.FLD, RWS. -/
def CLK_SSC_FLD : Field := ⟨0x2, 0x110, 22, 20, .rws, 0, .rng 0 5, false⟩
/-- Table 03-10: CLK.SSC.FLC, RWS. -/
def CLK_SSC_FLC : Field := ⟨0x2, 0x110, 18, 16, .rws, 0, .rng 0 5, false⟩
/-- Table 03-10: CLK.SSC.FLB, RWS. -/
def CLK_SSC_FLB : Field := ⟨0x2, 0x110, 14, 12, .rws, 0, .rng 0 5, false⟩
/-- Table 03-10: CLK.SSC.FLA, RWS. -/
def CLK_SSC_FLA : Field := ⟨0x2, 0x110, 10, 8, .rws, 0, .rng 0 5, false⟩
/-- Table 03-10: CLK.SSC.DR, RWS. -/
def CLK_SSC_DR : Field := ⟨0x2, 0x110, 6, 4, .rws, 0, .rng 0 5, false⟩
/-- Table 03-10: CLK.SSC.CORE, RWS. -/
def CLK_SSC_CORE : Field := ⟨0x2, 0x110, 2, 0, .rws, 0, .rng 0 5, false⟩
/-- Table 03-10: CLK.LOSS_COUNT.SD_REFCLK, RO. -/
def CLK_LOSS_COUNT_SD_REFCLK : Field := ⟨0x2, 0x118, 47, 32, .ro, 0, .any, false⟩
/-- Table 03-10: CLK.LOSS_COUNT.PE_REFCLK, RO. -/
def CLK_LOSS_COUNT_PE_REFCLK : Field := ⟨0x2, 0x118, 31, 16, .ro, 0, .any, false⟩
/-- Table 03-10: CLK.LOSS_COUNT.XTAL, RO. -/
def CLK_LOSS_COUNT_XTAL : Field := ⟨0x2, 0x118, 15, 0, .ro, 0, .any, false⟩
/-- Table 03-10: CLK.LOSS_CLR.GO, WO. -/
def CLK_LOSS_CLR_GO : Field := ⟨0x2, 0x120, 0, 0, .wo, 0, .any, false⟩
/-- Table 03-10: CLK.FOSC_MEAS.CYCLES, RO, reset column "—". -/
def CLK_FOSC_MEAS_CYCLES : Field := ⟨0x2, 0x128, 15, 0, .ro, 500, .any, false⟩
/-- Table 05-5: LEDGER.STATUS.STOPPED, RO. -/
def LEDGER_STATUS_STOPPED : Field := ⟨0x4, 0x18, 3, 3, .ro, 0, .any, false⟩
/-- Table 05-5: LEDGER.STATUS.XOFF, RO. -/
def LEDGER_STATUS_XOFF : Field := ⟨0x4, 0x18, 2, 2, .ro, 0, .any, false⟩
/-- Table 05-5: LEDGER.STATUS.CALIBRATED, RO. -/
def LEDGER_STATUS_CALIBRATED : Field := ⟨0x4, 0x18, 1, 1, .ro, 0, .any, false⟩
/-- Table 05-5: LEDGER.STATUS.SENSE_FAULT, RO. -/
def LEDGER_STATUS_SENSE_FAULT : Field := ⟨0x4, 0x18, 0, 0, .ro, 0, .any, false⟩
/-- Table 05-5: LEDGER.BANK.V_FULL_MV, RWS. -/
def LEDGER_BANK_V_FULL_MV : Field := ⟨0x4, 0x100, 63, 48, .rws, 0, .rng 1000 60000, false⟩
/-- Table 05-5: LEDGER.BANK.V_FLOOR_MV, RWS. -/
def LEDGER_BANK_V_FLOOR_MV : Field := ⟨0x4, 0x100, 47, 32, .rws, 0, .any, false⟩
/-- Table 05-5: LEDGER.BANK.CAP_UF, RWS. -/
def LEDGER_BANK_CAP_UF : Field := ⟨0x4, 0x100, 19, 0, .rws, 0, .any, false⟩
/-- Table 05-5: LEDGER.DIV.OFS_MV, RWS. -/
def LEDGER_DIV_OFS_MV : Field := ⟨0x4, 0x108, 55, 40, .rws, 0, .any, false⟩
/-- Table 05-5: LEDGER.DIV.RATIO, RWS. -/
def LEDGER_DIV_RATIO : Field := ⟨0x4, 0x108, 23, 0, .rws, 0xc0000, .nz, false⟩
/-- Table 05-5: LEDGER.SEAL_CFG.KEEP_UJ, RWS. -/
def LEDGER_SEAL_CFG_KEEP_UJ : Field := ⟨0x4, 0x110, 47, 32, .rws, 200, .any, false⟩
/-- Table 05-5: LEDGER.SEAL_CFG.MARGIN, RWS. -/
def LEDGER_SEAL_CFG_MARGIN : Field := ⟨0x4, 0x110, 27, 24, .rws, 4, .any, false⟩
/-- Table 05-5: LEDGER.SEAL_CFG.SEAL_PWR_MW, RWS. -/
def LEDGER_SEAL_CFG_SEAL_PWR_MW : Field := ⟨0x4, 0x110, 19, 0, .rws, 0, .any, false⟩
/-- Table 05-5: LEDGER.ADMIT.HOST_WAIT_MS, RWS. -/
def LEDGER_ADMIT_HOST_WAIT_MS : Field := ⟨0x4, 0x118, 57, 48, .rws, 50, .rng 1 1000, false⟩
/-- Table 05-5: LEDGER.ADMIT.INGEST_RSV_UJ, RWS. -/
def LEDGER_ADMIT_INGEST_RSV_UJ : Field := ⟨0x4, 0x118, 47, 24, .rws, 0, .any, false⟩
/-- Table 05-5: LEDGER.ADMIT.GUARD_UJ, RWS. -/
def LEDGER_ADMIT_GUARD_UJ : Field := ⟨0x4, 0x118, 23, 0, .rws, 0xfa0, .any, false⟩
/-- Table 05-5: LEDGER.FLOW.XON_UJ, RWS. -/
def LEDGER_FLOW_XON_UJ : Field := ⟨0x4, 0x120, 47, 24, .rws, 0x2ee0, .any, false⟩
/-- Table 05-5: LEDGER.FLOW.XOFF_UJ, RWS. -/
def LEDGER_FLOW_XOFF_UJ : Field := ⟨0x4, 0x120, 23, 0, .rws, 0x1f40, .any, false⟩
/-- Table 05-5: LEDGER.CAL.GO, WO. -/
def LEDGER_CAL_GO : Field := ⟨0x4, 0x128, 0, 0, .wo, 0, .any, false⟩
/-- Table 05-5: LEDGER.CAL_RESULT.T_SLOT_PS, RO. -/
def LEDGER_CAL_RESULT_T_SLOT_PS : Field := ⟨0x4, 0x130, 63, 32, .ro, 0, .any, false⟩
/-- Table 05-5: LEDGER.CAL_RESULT.COST_Q8, RO. -/
def LEDGER_CAL_RESULT_COST_Q8 : Field := ⟨0x4, 0x130, 23, 0, .ro, 0, .any, false⟩
/-- Table 05-5: LEDGER.CAL_TIMES.SEAL_EST_US, RO. -/
def LEDGER_CAL_TIMES_SEAL_EST_US : Field := ⟨0x4, 0x138, 63, 48, .ro, 0, .any, false⟩
/-- Table 05-5: LEDGER.CAL_TIMES.T_RECORD_US, RO. -/
def LEDGER_CAL_TIMES_T_RECORD_US : Field := ⟨0x4, 0x138, 47, 32, .ro, 0, .any, false⟩
/-- Table 05-5: LEDGER.CAL_TIMES.T_ABORT_US, RO. -/
def LEDGER_CAL_TIMES_T_ABORT_US : Field := ⟨0x4, 0x138, 31, 16, .ro, 0, .any, false⟩
/-- Table 05-5: LEDGER.CAL_TIMES.JTAIL_SLOTS, RO. -/
def LEDGER_CAL_TIMES_JTAIL_SLOTS : Field := ⟨0x4, 0x138, 12, 0, .ro, 0, .any, false⟩
/-- Table 05-5: LEDGER.CAL_CHAN.EXCLUDED, RO. -/
def LEDGER_CAL_CHAN_EXCLUDED : Field := ⟨0x4, 0x140, 63, 0, .ro, 0, .any, false⟩
/-- Table 05-5: LEDGER.SAMPLE.SEQ, RO. -/
def LEDGER_SAMPLE_SEQ : Field := ⟨0x4, 0x148, 63, 32, .ro, 0, .any, false⟩
/-- Table 05-5: LEDGER.SAMPLE.V_MV, RO. -/
def LEDGER_SAMPLE_V_MV : Field := ⟨0x4, 0x148, 31, 16, .ro, 0, .any, false⟩
/-- Table 05-5: LEDGER.SAMPLE.CODE, RO. -/
def LEDGER_SAMPLE_CODE : Field := ⟨0x4, 0x148, 11, 0, .ro, 0, .any, false⟩
/-- Table 05-5: LEDGER.AVAILABLE.A, RO. -/
def LEDGER_AVAILABLE_A : Field := ⟨0x4, 0x150, 47, 0, .ro, 0, .any, false⟩
/-- Table 05-5: LEDGER.COMMITTED.C, RO. -/
def LEDGER_COMMITTED_C : Field := ⟨0x4, 0x158, 47, 0, .ro, 0, .any, false⟩
/-- Table 05-5: LEDGER.INFLIGHT.F, RO. -/
def LEDGER_INFLIGHT_F : Field := ⟨0x4, 0x160, 47, 0, .ro, 0, .any, false⟩
/-- Table 05-5: LEDGER.RESERVE.S, RO. -/
def LEDGER_RESERVE_S : Field := ⟨0x4, 0x168, 47, 0, .ro, 0, .any, false⟩
/-- Table 05-5: LEDGER.HEADROOM.H, RO. -/
def LEDGER_HEADROOM_H : Field := ⟨0x4, 0x170, 47, 0, .ro, 0, .any, false⟩
/-- Table 05-5: LEDGER.MIN_HEADROOM.H_MIN, RO. -/
def LEDGER_MIN_HEADROOM_H_MIN : Field := ⟨0x4, 0x178, 47, 0, .ro, 0, .any, false⟩
/-- Table 05-5: LEDGER.REFUSALS.COUNTS, RO. -/
def LEDGER_REFUSALS_COUNTS : Field := ⟨0x4, 0x180, 63, 0, .ro, 0, .any, false⟩
/-- Table 05-5: LEDGER.EXHAUSTED.COUNT, RO. -/
def LEDGER_EXHAUSTED_COUNT : Field := ⟨0x4, 0x188, 31, 0, .ro, 0, .any, false⟩
/-- Table 05-5: LEDGER.CLR.GO, WO. -/
def LEDGER_CLR_GO : Field := ⟨0x4, 0x190, 0, 0, .wo, 0, .any, false⟩
/-- Table 05-5: LEDGER.SEAL_FLAG.FLAG, RO, reset column "found". -/
def LEDGER_SEAL_FLAG_FLAG : Field := ⟨0x4, 0x198, 1, 0, .ro, 0, .any, false⟩
/-- Table 05-5: LEDGER.LAST_SEAL.SEAL_SEQ, RO. -/
def LEDGER_LAST_SEAL_SEAL_SEQ : Field := ⟨0x4, 0x1a0, 63, 32, .ro, 0, .any, false⟩
/-- Table 05-5: LEDGER.LAST_SEAL.DURATION_US, RO. -/
def LEDGER_LAST_SEAL_DURATION_US : Field := ⟨0x4, 0x1a0, 31, 16, .ro, 0, .any, false⟩
/-- Table 05-5: LEDGER.LAST_SEAL.FOUND, RO. -/
def LEDGER_LAST_SEAL_FOUND : Field := ⟨0x4, 0x1a0, 15, 15, .ro, 0, .any, false⟩
/-- Table 05-5: LEDGER.LAST_SEAL.SLOTS, RO. -/
def LEDGER_LAST_SEAL_SLOTS : Field := ⟨0x4, 0x1a0, 14, 0, .ro, 0, .any, false⟩
/-- Table 05-7: PBUF.FREE.COUNT, RO. -/
def PBUF_FREE_COUNT : Field := ⟨0x17, 0x100, 14, 0, .ro, 0x4000, .any, false⟩
/-- Table 05-7: PBUF.FILLING.COUNT, RO. -/
def PBUF_FILLING_COUNT : Field := ⟨0x17, 0x108, 14, 0, .ro, 0, .any, false⟩
/-- Table 05-7: PBUF.DURABLE.COUNT, RO. -/
def PBUF_DURABLE_COUNT : Field := ⟨0x17, 0x110, 14, 0, .ro, 0, .any, false⟩
/-- Table 05-7: PBUF.PROGRAMMING.COUNT, RO. -/
def PBUF_PROGRAMMING_COUNT : Field := ⟨0x17, 0x118, 14, 0, .ro, 0, .any, false⟩
/-- Table 05-7: PBUF.MIRROR_PEND.COUNT, RO. -/
def PBUF_MIRROR_PEND_COUNT : Field := ⟨0x17, 0x120, 14, 0, .ro, 0, .any, false⟩
/-- Table 05-7: PBUF.RELOC.COUNT, RO. -/
def PBUF_RELOC_COUNT : Field := ⟨0x17, 0x128, 14, 0, .ro, 0, .any, false⟩
/-- Table 05-7: PBUF.PARITY.COUNT, RO. -/
def PBUF_PARITY_COUNT : Field := ⟨0x17, 0x130, 14, 0, .ro, 0, .any, false⟩
/-- Table 05-7: PBUF.HIGH_WATER.COUNT, RO. -/
def PBUF_HIGH_WATER_COUNT : Field := ⟨0x17, 0x138, 14, 0, .ro, 0, .any, false⟩
/-- Table 05-7: PBUF.THRESH.LOW_FREE, RWS. -/
def PBUF_THRESH_LOW_FREE : Field := ⟨0x17, 0x140, 14, 0, .rws, 0x400, .any, false⟩
/-- Table 05-7: PBUF.ADMIT_SEQ.SEQ, RO. -/
def PBUF_ADMIT_SEQ_SEQ : Field := ⟨0x17, 0x148, 31, 0, .ro, 0, .any, false⟩
/-- Table 05-7: PBUF.CLR.GO, WO. -/
def PBUF_CLR_GO : Field := ⟨0x17, 0x150, 0, 0, .wo, 0, .any, false⟩
/-- Table 06-5: BUDGET.STATUS.LSTATE, RO. -/
def BUDGET_STATUS_LSTATE : Field := ⟨0x3, 0x18, 5, 4, .ro, 0, .any, false⟩
/-- Table 06-5: BUDGET.STATUS.TSTATE, RO. -/
def BUDGET_STATUS_TSTATE : Field := ⟨0x3, 0x18, 3, 2, .ro, 0, .any, false⟩
/-- Table 06-5: BUDGET.STATUS.GRANT_LOW, RO. -/
def BUDGET_STATUS_GRANT_LOW : Field := ⟨0x3, 0x18, 0, 0, .ro, 0, .any, false⟩
/-- Table 06-5: BUDGET.GRANT.GRANT_MW, RW. -/
def BUDGET_GRANT_GRANT_MW : Field := ⟨0x3, 0x100, 19, 0, .rw, 0x3a98, .any, true⟩
/-- Table 06-5: BUDGET.BASE.BASE_MW, RWS. -/
def BUDGET_BASE_BASE_MW : Field := ⟨0x3, 0x108, 19, 0, .rws, 0x2ee0, .any, false⟩
/-- Table 06-5: BUDGET.POOL.POOL_MIN_UJ, RWS. -/
def BUDGET_POOL_POOL_MIN_UJ : Field := ⟨0x3, 0x110, 15, 0, .rws, 30, .any, false⟩
/-- Table 06-5: BUDGET.COST_A.ERASE, RWS. -/
def BUDGET_COST_A_ERASE : Field := ⟨0x3, 0x118, 63, 48, .rws, 0x3c0, .any, false⟩
/-- Table 06-5: BUDGET.COST_A.PROG_SLC, RWS. -/
def BUDGET_COST_A_PROG_SLC : Field := ⟨0x3, 0x118, 47, 32, .rws, 128, .any, false⟩
/-- Table 06-5: BUDGET.COST_A.PROG, RWS. -/
def BUDGET_COST_A_PROG : Field := ⟨0x3, 0x118, 31, 16, .rws, 0x160, .any, false⟩
/-- Table 06-5: BUDGET.COST_A.READ, RWS. -/
def BUDGET_COST_A_READ : Field := ⟨0x3, 0x118, 15, 0, .rws, 96, .any, false⟩
/-- Table 06-5: BUDGET.COST_B.RETRY, RWS. -/
def BUDGET_COST_B_RETRY : Field := ⟨0x3, 0x120, 31, 16, .rws, 96, .any, false⟩
/-- Table 06-5: BUDGET.COST_B.XFER, RWS. -/
def BUDGET_COST_B_XFER : Field := ⟨0x3, 0x120, 15, 0, .rws, 20, .any, false⟩
/-- Table 06-5: BUDGET.THERM_TJ.HYST_C, RWS. -/
def BUDGET_THERM_TJ_HYST_C : Field := ⟨0x3, 0x128, 27, 24, .rws, 3, .any, false⟩
/-- Table 06-5: BUDGET.THERM_TJ.TJ3, RWS. -/
def BUDGET_THERM_TJ_TJ3 : Field := ⟨0x3, 0x128, 23, 16, .rws, 108, .any, false⟩
/-- Table 06-5: BUDGET.THERM_TJ.TJ2, RWS. -/
def BUDGET_THERM_TJ_TJ2 : Field := ⟨0x3, 0x128, 15, 8, .rws, 102, .any, false⟩
/-- Table 06-5: BUDGET.THERM_TJ.TJ1, RWS. -/
def BUDGET_THERM_TJ_TJ1 : Field := ⟨0x3, 0x128, 7, 0, .rws, 95, .any, false⟩
/-- Table 06-5: BUDGET.THERM_EXT.HYST_MV, RWS. -/
def BUDGET_THERM_EXT_HYST_MV : Field := ⟨0x3, 0x130, 57, 50, .rws, 10, .any, false⟩
/-- Table 06-5: BUDGET.THERM_EXT.EN, RWS. -/
def BUDGET_THERM_EXT_EN : Field := ⟨0x3, 0x130, 49, 49, .rws, 0, .any, false⟩
/-- Table 06-5: BUDGET.THERM_EXT.POL, RWS. -/
def BUDGET_THERM_EXT_POL : Field := ⟨0x3, 0x130, 48, 48, .rws, 0, .any, false⟩
/-- Table 06-5: BUDGET.THERM_EXT.TH3, RWS. -/
def BUDGET_THERM_EXT_TH3 : Field := ⟨0x3, 0x130, 43, 32, .rws, 0, .any, false⟩
/-- Table 06-5: BUDGET.THERM_EXT.TH2, RWS. -/
def BUDGET_THERM_EXT_TH2 : Field := ⟨0x3, 0x130, 27, 16, .rws, 0, .any, false⟩
/-- Table 06-5: BUDGET.THERM_EXT.TH1, RWS. -/
def BUDGET_THERM_EXT_TH1 : Field := ⟨0x3, 0x130, 11, 0, .rws, 0, .any, false⟩
/-- Table 06-5: BUDGET.THERM_CAP.CAP_T3_MW, RWS. -/
def BUDGET_THERM_CAP_CAP_T3_MW : Field := ⟨0x3, 0x138, 47, 32, .rws, 0x36b0, .any, false⟩
/-- Table 06-5: BUDGET.THERM_CAP.CAP_T2_MW, RWS. -/
def BUDGET_THERM_CAP_CAP_T2_MW : Field := ⟨0x3, 0x138, 31, 16, .rws, 0x4650, .any, false⟩
/-- Table 06-5: BUDGET.THERM_CAP.CAP_T1_MW, RWS. -/
def BUDGET_THERM_CAP_CAP_T1_MW : Field := ⟨0x3, 0x138, 15, 0, .rws, 0x5dc0, .any, false⟩
/-- Table 06-5: BUDGET.LEDGER_LO.LO_UJ, RWS. -/
def BUDGET_LEDGER_LO_LO_UJ : Field := ⟨0x3, 0x140, 31, 0, .rws, 0x4e20, .any, false⟩
/-- Table 06-5: BUDGET.TEMP.EXCLUDED, RO. -/
def BUDGET_TEMP_EXCLUDED : Field := ⟨0x3, 0x148, 39, 32, .ro, 0, .any, false⟩
/-- Table 06-5: BUDGET.TEMP.EXT_MV, RO. -/
def BUDGET_TEMP_EXT_MV : Field := ⟨0x3, 0x148, 27, 16, .ro, 0, .any, false⟩
/-- Table 06-5: BUDGET.TEMP.SENSOR, RO. -/
def BUDGET_TEMP_SENSOR : Field := ⟨0x3, 0x148, 10, 8, .ro, 0, .any, false⟩
/-- Table 06-5: BUDGET.TEMP.TJ_MAX, RO. -/
def BUDGET_TEMP_TJ_MAX : Field := ⟨0x3, 0x148, 7, 0, .ro, 0, .any, false⟩
/-- Table 06-5: BUDGET.WINDOW.COUNT, RO. -/
def BUDGET_WINDOW_COUNT : Field := ⟨0x3, 0x150, 63, 32, .ro, 0, .any, false⟩
/-- Table 06-5: BUDGET.WINDOW.POOL_Q4, RO. -/
def BUDGET_WINDOW_POOL_Q4 : Field := ⟨0x3, 0x150, 23, 0, .ro, 0, .any, false⟩
/-- Table 06-5: BUDGET.EXPIRED.SUM, RO. -/
def BUDGET_EXPIRED_SUM : Field := ⟨0x3, 0x158, 63, 0, .ro, 0, .any, false⟩
/-- Table 06-5: BUDGET.LAPSED.SUM, RO. -/
def BUDGET_LAPSED_SUM : Field := ⟨0x3, 0x160, 63, 0, .ro, 0, .any, false⟩
/-- Table 06-5: BUDGET.CLR.GO, WO. -/
def BUDGET_CLR_GO : Field := ⟨0x3, 0x168, 0, 0, .wo, 0, .any, false⟩
/-- Table 06-5: BUDGET.CLASS_SPENT.SUM, RO. -/
def BUDGET_CLASS_SPENT_SUM (k : Nat) : Field := ⟨0x3, (0x180 + 8 * k), 63, 0, .ro, 0, .any, false⟩
/-- Table 06-5: BUDGET.FLOOR_MISS.COUNTS, RO. -/
def BUDGET_FLOOR_MISS_COUNTS : Field := ⟨0x3, 0x1c0, 63, 0, .ro, 0, .any, false⟩
/-- Table 06-3, 06-5: BUDGET.FLOOR_M0, RWS. -/
def BUDGET_FLOOR_M0 : Field := ⟨0x3, 0x200, 63, 0, .rws, 0, .bytes 128, false⟩
/-- Table 06-3, 06-5: BUDGET.FLOOR_M1, RWS. -/
def BUDGET_FLOOR_M1 : Field := ⟨0x3, 0x208, 63, 0, .rws, 0, .bytes 128, false⟩
/-- Table 06-3, 06-5: BUDGET.FLOOR_M2, RWS. -/
def BUDGET_FLOOR_M2 : Field := ⟨0x3, 0x210, 63, 0, .rws, 0x400010080810, .bytes 128, false⟩
/-- Table 06-3, 06-5: BUDGET.FLOOR_M3, RWS. -/
def BUDGET_FLOOR_M3 : Field := ⟨0x3, 0x218, 63, 0, .rws, 0x818080018180810, .bytes 128, false⟩
/-- Table 06-3, 06-5: BUDGET.FLOOR_M4, RWS. -/
def BUDGET_FLOOR_M4 : Field := ⟨0x3, 0x220, 63, 0, .rws, 0x20c080004081840, .bytes 128, false⟩
/-- Table 06-3, 06-5: BUDGET.FLOOR_M5, RWS. -/
def BUDGET_FLOOR_M5 : Field := ⟨0x3, 0x228, 63, 0, .rws, 0x40c080040100800, .bytes 128, false⟩
/-- Table 06-3, 06-5: BUDGET.FLOOR_M6, RWS. -/
def BUDGET_FLOOR_M6 : Field := ⟨0x3, 0x230, 63, 0, .rws, 0x40c084808080400, .bytes 128, false⟩
/-- Table 06-3, 06-5: BUDGET.FLOOR_M7, RWS. -/
def BUDGET_FLOOR_M7 : Field := ⟨0x3, 0x238, 63, 0, .rws, 0x1030080010100808, .bytes 128, false⟩
/-- Table 06-3, 06-5: BUDGET.FLOOR_M8, RWS. -/
def BUDGET_FLOOR_M8 : Field := ⟨0x3, 0x240, 63, 0, .rws, 0, .bytes 128, false⟩
/-- Table 06-3, 06-5: BUDGET.FLOOR_M9, RWS. -/
def BUDGET_FLOOR_M9 : Field := ⟨0x3, 0x248, 63, 0, .rws, 0x8200020000000, .bytes 128, false⟩
/-- Table 06-3, 06-5: BUDGET.FLOOR_M10, RWS. -/
def BUDGET_FLOOR_M10 : Field := ⟨0x3, 0x250, 63, 0, .rws, 0x818081018180810, .bytes 128, false⟩
/-- Table 06-3, 06-5: BUDGET.FLOOR_M11, RWS. -/
def BUDGET_FLOOR_M11 : Field := ⟨0x3, 0x258, 63, 0, .rws, 0x83030000000, .bytes 128, false⟩
def BUDGET_FLOOR_M_FLOOR (m : Nat) : Field := ([BUDGET_FLOOR_M0, BUDGET_FLOOR_M1, BUDGET_FLOOR_M2, BUDGET_FLOOR_M3, BUDGET_FLOOR_M4, BUDGET_FLOOR_M5, BUDGET_FLOOR_M6, BUDGET_FLOOR_M7, BUDGET_FLOOR_M8, BUDGET_FLOOR_M9, BUDGET_FLOOR_M10, BUDGET_FLOOR_M11].getD m BUDGET_FLOOR_M0)
/-- Table 06-3, 06-5: BUDGET.CEIL_M0, RWS. -/
def BUDGET_CEIL_M0 : Field := ⟨0x3, 0x260, 63, 0, .rws, 0, .bytes 128, false⟩
/-- Table 06-3, 06-5: BUDGET.CEIL_M1, RWS. -/
def BUDGET_CEIL_M1 : Field := ⟨0x3, 0x268, 63, 0, .rws, 0, .bytes 128, false⟩
/-- Table 06-3, 06-5: BUDGET.CEIL_M2, RWS. -/
def BUDGET_CEIL_M2 : Field := ⟨0x3, 0x270, 63, 0, .rws, 0x8080801080808080, .bytes 128, false⟩
/-- Table 06-3, 06-5: BUDGET.CEIL_M3, RWS. -/
def BUDGET_CEIL_M3 : Field := ⟨0x3, 0x278, 63, 0, .rws, 0x8080801080808080, .bytes 128, false⟩
/-- Table 06-3, 06-5: BUDGET.CEIL_M4, RWS. -/
def BUDGET_CEIL_M4 : Field := ⟨0x3, 0x280, 63, 0, .rws, 0x20c200820408080, .bytes 128, false⟩
/-- Table 06-3, 06-5: BUDGET.CEIL_M5, RWS. -/
def BUDGET_CEIL_M5 : Field := ⟨0x3, 0x288, 63, 0, .rws, 0x1020801080808080, .bytes 128, false⟩
/-- Table 06-3, 06-5: BUDGET.CEIL_M6, RWS. -/
def BUDGET_CEIL_M6 : Field := ⟨0x3, 0x290, 63, 0, .rws, 0x1020808080808080, .bytes 128, false⟩
/-- Table 06-3, 06-5: BUDGET.CEIL_M7, RWS. -/
def BUDGET_CEIL_M7 : Field := ⟨0x3, 0x298, 63, 0, .rws, 0x8080801080808080, .bytes 128, false⟩
/-- Table 06-3, 06-5: BUDGET.CEIL_M8, RWS. -/
def BUDGET_CEIL_M8 : Field := ⟨0x3, 0x2a0, 63, 0, .rws, 0, .bytes 128, false⟩
/-- Table 06-3, 06-5: BUDGET.CEIL_M9, RWS. -/
def BUDGET_CEIL_M9 : Field := ⟨0x3, 0x2a8, 63, 0, .rws, 0x20800080808080, .bytes 128, false⟩
/-- Table 06-3, 06-5: BUDGET.CEIL_M10, RWS. -/
def BUDGET_CEIL_M10 : Field := ⟨0x3, 0x2b0, 63, 0, .rws, 0x8080808080808080, .bytes 128, false⟩
/-- Table 06-3, 06-5: BUDGET.CEIL_M11, RWS. -/
def BUDGET_CEIL_M11 : Field := ⟨0x3, 0x2b8, 63, 0, .rws, 0x108080808080, .bytes 128, false⟩
def BUDGET_CEIL_M_CEIL (m : Nat) : Field := ([BUDGET_CEIL_M0, BUDGET_CEIL_M1, BUDGET_CEIL_M2, BUDGET_CEIL_M3, BUDGET_CEIL_M4, BUDGET_CEIL_M5, BUDGET_CEIL_M6, BUDGET_CEIL_M7, BUDGET_CEIL_M8, BUDGET_CEIL_M9, BUDGET_CEIL_M10, BUDGET_CEIL_M11].getD m BUDGET_CEIL_M0)
/-- Table 07-12: HOSTQ.STATUS.QPAIRS, RO. -/
def HOSTQ_STATUS_QPAIRS : Field := ⟨0x10, 0x18, 24, 16, .ro, 0, .any, false⟩
/-- Table 07-12: HOSTQ.STATUS.CFS, RO. -/
def HOSTQ_STATUS_CFS : Field := ⟨0x10, 0x18, 2, 2, .ro, 0, .any, false⟩
/-- Table 07-12: HOSTQ.STATUS.RDY, RO. -/
def HOSTQ_STATUS_RDY : Field := ⟨0x10, 0x18, 1, 1, .ro, 0, .any, false⟩
/-- Table 07-12: HOSTQ.STATUS.EN, RO. -/
def HOSTQ_STATUS_EN : Field := ⟨0x10, 0x18, 0, 0, .ro, 0, .any, false⟩
/-- Table 07-12: HOSTQ.ABORT_CFG.WIN_US, RWS. -/
def HOSTQ_ABORT_CFG_WIN_US : Field := ⟨0x10, 0x100, 7, 0, .rws, 4, .nz, false⟩
/-- Table 07-12: HOSTQ.ST_YIELD.FORCE_MS, RWS. -/
def HOSTQ_ST_YIELD_FORCE_MS : Field := ⟨0x10, 0x108, 31, 16, .rws, 50, .nz, false⟩
/-- Table 07-12: HOSTQ.ST_YIELD.IDLE_US, RWS. -/
def HOSTQ_ST_YIELD_IDLE_US : Field := ⟨0x10, 0x108, 15, 0, .rws, 0x1f4, .any, false⟩
/-- Table 07-12: HOSTQ.INFLIGHT.COUNT, RO. -/
def HOSTQ_INFLIGHT_COUNT : Field := ⟨0x10, 0x110, 11, 0, .ro, 0, .any, false⟩
/-- Table 07-12: HOSTQ.FETCH_LAT.MAX_NS, RO. -/
def HOSTQ_FETCH_LAT_MAX_NS : Field := ⟨0x10, 0x118, 15, 0, .ro, 0, .any, false⟩
/-- Table 07-12: HOSTQ.ACK_LAT.MAX_NS, RO. -/
def HOSTQ_ACK_LAT_MAX_NS : Field := ⟨0x10, 0x120, 15, 0, .ro, 0, .any, false⟩
/-- Table 07-12: HOSTQ.PAGE_ROUTE0.ROUTE, RW. -/
def HOSTQ_PAGE_ROUTE0_ROUTE : Field := ⟨0x10, 0x128, 63, 0, .rw, 0, .any, false⟩
/-- Table 07-12: HOSTQ.PAGE_ROUTE1.ROUTE, RW. -/
def HOSTQ_PAGE_ROUTE1_ROUTE : Field := ⟨0x10, 0x130, 31, 0, .rw, 0, .any, false⟩
/-- Table 07-12: HOSTQ.PAGE_PEND0.PEND, RO. -/
def HOSTQ_PAGE_PEND0_PEND : Field := ⟨0x10, 0x138, 63, 0, .ro, 0, .any, false⟩
/-- Table 07-12: HOSTQ.PAGE_PEND1.PEND, RO. -/
def HOSTQ_PAGE_PEND1_PEND : Field := ⟨0x10, 0x140, 31, 0, .ro, 0, .any, false⟩
/-- Table 07-12: HOSTQ.ABORTS.NOT_CAUGHT, RO. -/
def HOSTQ_ABORTS_NOT_CAUGHT : Field := ⟨0x10, 0x148, 63, 32, .ro, 0, .any, false⟩
/-- Table 07-12: HOSTQ.ABORTS.CAUGHT, RO. -/
def HOSTQ_ABORTS_CAUGHT : Field := ⟨0x10, 0x148, 31, 0, .ro, 0, .any, false⟩
/-- Table 07-12: HOSTQ.REFUSED.COUNT, RO. -/
def HOSTQ_REFUSED_COUNT : Field := ⟨0x10, 0x150, 31, 0, .ro, 0, .any, false⟩
/-- Table 07-12: HOSTQ.PI_ERRORS.REF, RO. -/
def HOSTQ_PI_ERRORS_REF : Field := ⟨0x10, 0x158, 63, 48, .ro, 0, .any, false⟩
/-- Table 07-12: HOSTQ.PI_ERRORS.APP, RO. -/
def HOSTQ_PI_ERRORS_APP : Field := ⟨0x10, 0x158, 47, 32, .ro, 0, .any, false⟩
/-- Table 07-12: HOSTQ.PI_ERRORS.GUARD, RO. -/
def HOSTQ_PI_ERRORS_GUARD : Field := ⟨0x10, 0x158, 31, 0, .ro, 0, .any, false⟩
/-- Table 07-12: HOSTQ.DB_ERRORS.VALUE, RO. -/
def HOSTQ_DB_ERRORS_VALUE : Field := ⟨0x10, 0x160, 31, 16, .ro, 0, .any, false⟩
/-- Table 07-12: HOSTQ.DB_ERRORS.REG, RO. -/
def HOSTQ_DB_ERRORS_REG : Field := ⟨0x10, 0x160, 15, 0, .ro, 0, .any, false⟩
/-- Table 07-12: HOSTQ.CLR.GO, WO. -/
def HOSTQ_CLR_GO : Field := ⟨0x10, 0x168, 0, 0, .wo, 0, .any, false⟩
/-- Table 07-12: HOSTQ.QBIND.VALID, RWS. -/
def HOSTQ_QBIND_VALID (k : Nat) : Field := ⟨0x10, (0x400 + 8 * k), 8, 8, .rws, 1, .any, false⟩
/-- Table 07-12: HOSTQ.QBINDq.STREAM of queue q = k + 1, RWS; resets to q - 1. -/
def HOSTQ_QBIND_STREAM (k : Nat) : Field := ⟨0x10, (0x400 + 8 * k), 7, 0, .rws, k, .any, false⟩
/-- Table 07-12: HOSTQ.QBIND.QOS, RO. -/
def HOSTQ_QBIND_QOS (k : Nat) : Field := ⟨0x10, (0x400 + 8 * k), 17, 16, .ro, 0, .any, false⟩
/-- Table 07-12: HOSTQ.QBIND.OUTSTANDING, RO. -/
def HOSTQ_QBIND_OUTSTANDING (k : Nat) : Field := ⟨0x10, (0x400 + 8 * k), 31, 20, .ro, 0, .any, false⟩
/-- Table 07-14: PCIE.STATUS.L1SS, RO. -/
def PCIE_STATUS_L1SS : Field := ⟨0x11, 0x18, 16, 16, .ro, 0, .any, false⟩
/-- Table 07-14: PCIE.STATUS.DSTATE, RO. -/
def PCIE_STATUS_DSTATE : Field := ⟨0x11, 0x18, 10, 9, .ro, 0, .any, false⟩
/-- Table 07-14: PCIE.STATUS.WIDTH, RO. -/
def PCIE_STATUS_WIDTH : Field := ⟨0x11, 0x18, 8, 4, .ro, 0, .any, false⟩
/-- Table 07-14: PCIE.STATUS.SPEED, RO. -/
def PCIE_STATUS_SPEED : Field := ⟨0x11, 0x18, 3, 0, .ro, 0, .any, false⟩
/-- Table 07-14: PCIE.LINK_CFG.L1SS_ALLOW, RWL. -/
def PCIE_LINK_CFG_L1SS_ALLOW : Field := ⟨0x11, 0x100, 9, 9, .rwl, 1, .any, false⟩
/-- Table 07-14: PCIE.LINK_CFG.L1_ALLOW, RWL. -/
def PCIE_LINK_CFG_L1_ALLOW : Field := ⟨0x11, 0x100, 8, 8, .rwl, 1, .any, false⟩
/-- Table 07-14: PCIE.LINK_CFG.MAX_WIDTH, RWL. -/
def PCIE_LINK_CFG_MAX_WIDTH : Field := ⟨0x11, 0x100, 6, 4, .rwl, 4, .oneOf [1, 2, 4], false⟩
/-- Table 07-14: PCIE.LINK_CFG.MAX_SPEED, RWL. -/
def PCIE_LINK_CFG_MAX_SPEED : Field := ⟨0x11, 0x100, 2, 0, .rwl, 5, .rng 1 5, false⟩
/-- Table 07-14: PCIE.RETRAIN.GO, WO. -/
def PCIE_RETRAIN_GO : Field := ⟨0x11, 0x108, 0, 0, .wo, 0, .any, false⟩
/-- Table 07-14: PCIE.ERR_CNT.REPLAY_TO, RO. -/
def PCIE_ERR_CNT_REPLAY_TO : Field := ⟨0x11, 0x110, 63, 48, .ro, 0, .any, false⟩
/-- Table 07-14: PCIE.ERR_CNT.BAD_DLLP, RO. -/
def PCIE_ERR_CNT_BAD_DLLP : Field := ⟨0x11, 0x110, 47, 32, .ro, 0, .any, false⟩
/-- Table 07-14: PCIE.ERR_CNT.BAD_TLP, RO. -/
def PCIE_ERR_CNT_BAD_TLP : Field := ⟨0x11, 0x110, 31, 16, .ro, 0, .any, false⟩
/-- Table 07-14: PCIE.ERR_CNT.RX_ERR, RO. -/
def PCIE_ERR_CNT_RX_ERR : Field := ⟨0x11, 0x110, 15, 0, .ro, 0, .any, false⟩
/-- Table 07-14: PCIE.RECOV.SPEED_CHANGES, RO. -/
def PCIE_RECOV_SPEED_CHANGES : Field := ⟨0x11, 0x118, 31, 16, .ro, 0, .any, false⟩
/-- Table 07-14: PCIE.RECOV.ENTRIES, RO. -/
def PCIE_RECOV_ENTRIES : Field := ⟨0x11, 0x118, 15, 0, .ro, 0, .any, false⟩
/-- Table 07-14: PCIE.EQ_STATUS.DONE, RO. -/
def PCIE_EQ_STATUS_DONE : Field := ⟨0x11, 0x120, 2, 0, .ro, 0, .any, false⟩
/-- Table 07-14: PCIE.CLR.GO, WO. -/
def PCIE_CLR_GO : Field := ⟨0x11, 0x128, 0, 0, .wo, 0, .any, false⟩
/-- Table 07-14: PCIE.WAKE_CTL.ON_MBX, RW. -/
def PCIE_WAKE_CTL_ON_MBX : Field := ⟨0x11, 0x130, 2, 2, .rw, 1, .any, false⟩
/-- Table 07-14: PCIE.WAKE_CTL.ON_ALARM, RW. -/
def PCIE_WAKE_CTL_ON_ALARM : Field := ⟨0x11, 0x130, 1, 1, .rw, 1, .any, false⟩
/-- Table 07-14: PCIE.WAKE_CTL.ON_WAKE, RW. -/
def PCIE_WAKE_CTL_ON_WAKE : Field := ⟨0x11, 0x130, 0, 0, .rw, 1, .any, false⟩
/-- Table 08-6: INGEST.CTL.EN, RW. -/
def INGEST_CTL_EN : Field := ⟨0x12, 0x10, 0, 0, .rw, 1, .any, true⟩
/-- Table 08-6: INGEST.STATUS.LOCKED, RO. -/
def INGEST_STATUS_LOCKED : Field := ⟨0x12, 0x18, 23, 16, .ro, 0, .any, false⟩
/-- Table 08-6: INGEST.STATUS.READY, RO. -/
def INGEST_STATUS_READY : Field := ⟨0x12, 0x18, 5, 5, .ro, 0, .any, false⟩
/-- Table 08-6: INGEST.STATUS.XOFF, RO. -/
def INGEST_STATUS_XOFF : Field := ⟨0x12, 0x18, 4, 4, .ro, 0, .any, false⟩
/-- Table 08-6: INGEST.STATUS.ALIGNED, RO. -/
def INGEST_STATUS_ALIGNED : Field := ⟨0x12, 0x18, 3, 3, .ro, 0, .any, false⟩
/-- Table 08-6: INGEST.STATUS.REENABLE_PENDING, RO. -/
def INGEST_STATUS_REENABLE_PENDING : Field := ⟨0x12, 0x18, 2, 2, .ro, 0, .any, false⟩
/-- Table 08-6: INGEST.STATUS.FSTATE, RO. -/
def INGEST_STATUS_FSTATE : Field := ⟨0x12, 0x18, 1, 0, .ro, 0, .any, false⟩
/-- Table 08-6: INGEST.CFG.MAX_LEN_MIB, RWS. -/
def INGEST_CFG_MAX_LEN_MIB : Field := ⟨0x12, 0x100, 63, 52, .rws, 0x100, .any, false⟩
/-- Table 08-6: INGEST.CFG.ALIGN_MAX, RWS. -/
def INGEST_CFG_ALIGN_MAX : Field := ⟨0x12, 0x100, 47, 40, .rws, 16, .any, false⟩
/-- Table 08-6: INGEST.CFG.PATTERN_TOL, RWS. -/
def INGEST_CFG_PATTERN_TOL : Field := ⟨0x12, 0x100, 35, 32, .rws, 3, .any, false⟩
/-- Table 08-6: INGEST.CFG.MAX_GAP, RWS. -/
def INGEST_CFG_MAX_GAP : Field := ⟨0x12, 0x100, 23, 16, .rws, 16, .any, false⟩
/-- Table 08-6: INGEST.CFG.POLARITY, RWS. -/
def INGEST_CFG_POLARITY : Field := ⟨0x12, 0x100, 15, 8, .rws, 0, .any, false⟩
/-- Table 08-6: INGEST.CFG.LANES, RWS. -/
def INGEST_CFG_LANES : Field := ⟨0x12, 0x100, 3, 0, .rws, 8, .oneOf [1, 2, 4, 8], false⟩
/-- Table 08-6: INGEST.FLOW.ELASTIC_KIB, RO. -/
def INGEST_FLOW_ELASTIC_KIB : Field := ⟨0x12, 0x108, 56, 48, .ro, 0, .any, false⟩
/-- Table 08-6: INGEST.FLOW.CONSUMED, RO. -/
def INGEST_FLOW_CONSUMED : Field := ⟨0x12, 0x108, 47, 24, .ro, 0, .any, false⟩
/-- Table 08-6: INGEST.FLOW.CREDIT, RO. -/
def INGEST_FLOW_CREDIT : Field := ⟨0x12, 0x108, 23, 0, .ro, 0, .any, false⟩
/-- Table 08-6: INGEST.XOFF_TIME.TICKS, RO. -/
def INGEST_XOFF_TIME_TICKS : Field := ⟨0x12, 0x110, 63, 0, .ro, 0, .any, false⟩
/-- Table 08-6: INGEST.STREAM_EN.EN, RWS, reset column "All ones" (all ones). -/
def INGEST_STREAM_EN_EN (k : Nat) : Field := ⟨0x12, (0x120 + 8 * k), 63, 0, .rws, 0xffffffffffffffff, .any, false⟩
/-- Table 08-6: INGEST.VC_STATE.ORPHAN, RO. -/
def INGEST_VC_STATE_ORPHAN : Field := ⟨0x12, 0x140, 23, 16, .ro, 0, .any, false⟩
/-- Table 08-6: INGEST.VC_STATE.STATE, RO. -/
def INGEST_VC_STATE_STATE : Field := ⟨0x12, 0x140, 15, 0, .ro, 0, .any, false⟩
/-- Table 08-6: INGEST.VC_STREAM.STREAM, RO. -/
def INGEST_VC_STREAM_STREAM : Field := ⟨0x12, 0x148, 63, 0, .ro, 0, .any, false⟩
/-- Table 08-6: INGEST.FRAMES.DAMAGED, RO. -/
def INGEST_FRAMES_DAMAGED : Field := ⟨0x12, 0x150, 63, 32, .ro, 0, .any, false⟩
/-- Table 08-6: INGEST.FRAMES.ACCEPTED, RO. -/
def INGEST_FRAMES_ACCEPTED : Field := ⟨0x12, 0x150, 31, 0, .ro, 0, .any, false⟩
/-- Table 08-6: INGEST.HDR_ERR.STREAM_BUSY, RO. -/
def INGEST_HDR_ERR_STREAM_BUSY : Field := ⟨0x12, 0x158, 63, 48, .ro, 0, .any, false⟩
/-- Table 08-6: INGEST.HDR_ERR.BAD_FIELD, RO. -/
def INGEST_HDR_ERR_BAD_FIELD : Field := ⟨0x12, 0x158, 47, 32, .ro, 0, .any, false⟩
/-- Table 08-6: INGEST.HDR_ERR.OUT_OF_WINDOW, RO. -/
def INGEST_HDR_ERR_OUT_OF_WINDOW : Field := ⟨0x12, 0x158, 31, 16, .ro, 0, .any, false⟩
/-- Table 08-6: INGEST.HDR_ERR.CRC, RO. -/
def INGEST_HDR_ERR_CRC : Field := ⟨0x12, 0x158, 15, 0, .ro, 0, .any, false⟩
/-- Table 08-6: INGEST.CHK.ABORTS, RO. -/
def INGEST_CHK_ABORTS : Field := ⟨0x12, 0x160, 63, 48, .ro, 0, .any, false⟩
/-- Table 08-6: INGEST.CHK.TERM_MISMATCH, RO. -/
def INGEST_CHK_TERM_MISMATCH : Field := ⟨0x12, 0x160, 47, 32, .ro, 0, .any, false⟩
/-- Table 08-6: INGEST.CHK.TERM_MISSING, RO. -/
def INGEST_CHK_TERM_MISSING : Field := ⟨0x12, 0x160, 31, 16, .ro, 0, .any, false⟩
/-- Table 08-6: INGEST.CHK.CHECK_DOUBT, RO. -/
def INGEST_CHK_CHECK_DOUBT : Field := ⟨0x12, 0x160, 15, 0, .ro, 0, .any, false⟩
/-- Table 08-6: INGEST.GAP.ORPHANS, RO. -/
def INGEST_GAP_ORPHANS : Field := ⟨0x12, 0x168, 63, 48, .ro, 0, .any, false⟩
/-- Table 08-6: INGEST.GAP.GAP_EVENTS, RO. -/
def INGEST_GAP_GAP_EVENTS : Field := ⟨0x12, 0x168, 47, 32, .ro, 0, .any, false⟩
/-- Table 08-6: INGEST.GAP.FRAMES_SKIPPED, RO. -/
def INGEST_GAP_FRAMES_SKIPPED : Field := ⟨0x12, 0x168, 31, 0, .ro, 0, .any, false⟩
/-- Table 08-6: INGEST.PROTO.CREDIT_VIOL, RO. -/
def INGEST_PROTO_CREDIT_VIOL : Field := ⟨0x12, 0x170, 63, 48, .ro, 0, .any, false⟩
/-- Table 08-6: INGEST.PROTO.UNBOUND_BLOCKS, RO. -/
def INGEST_PROTO_UNBOUND_BLOCKS : Field := ⟨0x12, 0x170, 47, 32, .ro, 0, .any, false⟩
/-- Table 08-6: INGEST.PROTO.UNBOUND_FRAMES, RO. -/
def INGEST_PROTO_UNBOUND_FRAMES : Field := ⟨0x12, 0x170, 31, 16, .ro, 0, .any, false⟩
/-- Table 08-6: INGEST.PROTO.BAD_CTRL, RO. -/
def INGEST_PROTO_BAD_CTRL : Field := ⟨0x12, 0x170, 15, 0, .ro, 0, .any, false⟩
/-- Table 08-6: INGEST.LINK.REALIGNS, RO. -/
def INGEST_LINK_REALIGNS : Field := ⟨0x12, 0x178, 31, 16, .ro, 0, .any, false⟩
/-- Table 08-6: INGEST.LINK.ALIGN_FAIL, RO. -/
def INGEST_LINK_ALIGN_FAIL : Field := ⟨0x12, 0x178, 15, 0, .ro, 0, .any, false⟩
/-- Table 08-6: INGEST.CLR.GO, WO. -/
def INGEST_CLR_GO : Field := ⟨0x12, 0x180, 0, 0, .wo, 0, .any, false⟩
/-- Table 08-6: INGEST.LANE.LOGICAL, RO. -/
def INGEST_LANE_LOGICAL (k : Nat) : Field := ⟨0x12, (0x200 + 8 * k), 63, 56, .ro, 255, .any, false⟩
/-- Table 08-6: INGEST.LANE.SKEW_UI, RO. -/
def INGEST_LANE_SKEW_UI (k : Nat) : Field := ⟨0x12, (0x200 + 8 * k), 55, 48, .ro, 0, .any, false⟩
/-- Table 08-6: INGEST.LANE.SLIPS, RO. -/
def INGEST_LANE_SLIPS (k : Nat) : Field := ⟨0x12, (0x200 + 8 * k), 47, 32, .ro, 0, .any, false⟩
/-- Table 08-6: INGEST.LANE.LOCK_LOSS, RO. -/
def INGEST_LANE_LOCK_LOSS (k : Nat) : Field := ⟨0x12, (0x200 + 8 * k), 31, 16, .ro, 0, .any, false⟩
/-- Table 08-6: INGEST.LANE.BAD_SH, RO. -/
def INGEST_LANE_BAD_SH (k : Nat) : Field := ⟨0x12, (0x200 + 8 * k), 15, 0, .ro, 0, .any, false⟩
/-- Table 09-7: FRAME.TAKE_CFG.STOP_MS, RWS. -/
def FRAME_TAKE_CFG_STOP_MS : Field := ⟨0x13, 0x100, 15, 0, .rws, 50, .nz, false⟩
/-- Table 09-7: FRAME.PULSE.AGE_US, RWS. -/
def FRAME_PULSE_AGE_US : Field := ⟨0x13, 0x108, 23, 0, .rws, 0x4e20, .any, false⟩
/-- Table 09-7: FRAME.ACAP.FLUSH_MS, RWS. -/
def FRAME_ACAP_FLUSH_MS : Field := ⟨0x13, 0x110, 55, 48, .rws, 100, .nz, false⟩
/-- Table 09-7: FRAME.ACAP.RUN_US, RWS. -/
def FRAME_ACAP_RUN_US : Field := ⟨0x13, 0x110, 39, 24, .rws, 100, .any, false⟩
/-- Table 09-7: FRAME.ACAP.STREAM, RWS. -/
def FRAME_ACAP_STREAM : Field := ⟨0x13, 0x110, 15, 8, .rws, 255, .any, false⟩
/-- Table 09-7: FRAME.ACAP.EN1, RWS. -/
def FRAME_ACAP_EN1 : Field := ⟨0x13, 0x110, 1, 1, .rws, 0, .any, false⟩
/-- Table 09-7: FRAME.ACAP.EN0, RWS. -/
def FRAME_ACAP_EN0 : Field := ⟨0x13, 0x110, 0, 0, .rws, 0, .any, false⟩
/-- Table 09-7: FRAME.DESC_SEL.STREAM, RW. -/
def FRAME_DESC_SEL_STREAM : Field := ⟨0x13, 0x118, 7, 0, .rw, 0, .any, false⟩
/-- Table 09-7: FRAME.DESC_A.DESC, RWS. -/
def FRAME_DESC_A_DESC (i : Nat) : Field := ⟨0x13, (0x10000 + 0x10 * i), 63, 0, .rws, 0, .any, false⟩
/-- Table 09-7: FRAME.DESC_B.DESC, RWS. -/
def FRAME_DESC_B_DESC (i : Nat) : Field := ⟨0x13, (0x10008 + 0x10 * i), 63, 0, .rws, 0, .any, false⟩
/-- Table 09-7: FRAME.TAKES.OPEN, RO. -/
def FRAME_TAKES_OPEN : Field := ⟨0x13, 0x140, 36, 32, .ro, 0, .any, false⟩
/-- Table 09-7: FRAME.TAKES.LAST, RO, reset column "journal". -/
def FRAME_TAKES_LAST : Field := ⟨0x13, 0x140, 31, 0, .ro, 0, .any, false⟩
/-- Table 09-7: FRAME.TAKE_MAP.MAP, RO. -/
def FRAME_TAKE_MAP_MAP (k : Nat) : Field := ⟨0x13, (0x148 + 8 * k), 63, 0, .ro, 0, .any, false⟩
/-- Table 09-7: FRAME.COUNTS.SKETCHES, RO. -/
def FRAME_COUNTS_SKETCHES : Field := ⟨0x13, 0x168, 63, 32, .ro, 0, .any, false⟩
/-- Table 09-7: FRAME.COUNTS.ENTRIES, RO. -/
def FRAME_COUNTS_ENTRIES : Field := ⟨0x13, 0x168, 31, 0, .ro, 0, .any, false⟩
/-- Table 09-7: FRAME.PULSE_STAT.PULSES, RO. -/
def FRAME_PULSE_STAT_PULSES : Field := ⟨0x13, 0x170, 63, 32, .ro, 0, .any, false⟩
/-- Table 09-7: FRAME.PULSE_STAT.NO_PULSE, RO. -/
def FRAME_PULSE_STAT_NO_PULSE : Field := ⟨0x13, 0x170, 31, 16, .ro, 0, .any, false⟩
/-- Table 09-7: FRAME.PULSE_STAT.PULSE_SKIP, RO. -/
def FRAME_PULSE_STAT_PULSE_SKIP : Field := ⟨0x13, 0x170, 15, 0, .ro, 0, .any, false⟩
/-- Table 09-7: FRAME.ACAP_STAT.OVERRUN, RO. -/
def FRAME_ACAP_STAT_OVERRUN : Field := ⟨0x13, 0x178, 47, 32, .ro, 0, .any, false⟩
/-- Table 09-7: FRAME.ACAP_STAT.UNITS, RO. -/
def FRAME_ACAP_STAT_UNITS : Field := ⟨0x13, 0x178, 31, 0, .ro, 0, .any, false⟩
/-- Table 09-7: FRAME.SKETCH_STAT.SKIP, RO. -/
def FRAME_SKETCH_STAT_SKIP : Field := ⟨0x13, 0x180, 15, 0, .ro, 0, .any, false⟩
/-- Table 09-7: FRAME.CLR.GO, WO. -/
def FRAME_CLR_GO : Field := ⟨0x13, 0x188, 0, 0, .wo, 0, .any, false⟩
/-- Table 10-4: MAP.STATUS.RESERVE_LEFT, RO. -/
def MAP_STATUS_RESERVE_LEFT : Field := ⟨0x14, 0x18, 15, 8, .ro, 0, .any, false⟩
/-- Table 10-4: MAP.STATUS.CKPT_BUSY, RO. -/
def MAP_STATUS_CKPT_BUSY : Field := ⟨0x14, 0x18, 2, 2, .ro, 0, .any, false⟩
/-- Table 10-4: MAP.STATUS.PHASE, RO. -/
def MAP_STATUS_PHASE : Field := ⟨0x14, 0x18, 1, 0, .ro, 0, .any, false⟩
/-- Table 10-4: MAP.CFG.RSV_BANDS, RWS. -/
def MAP_CFG_RSV_BANDS : Field := ⟨0x14, 0x100, 55, 48, .rws, 6, .any, false⟩
/-- Table 10-4: MAP.CFG.JTAIL_MAX, RWS. -/
def MAP_CFG_JTAIL_MAX : Field := ⟨0x14, 0x100, 43, 32, .rws, 0x200, .any, false⟩
/-- Table 10-4: MAP.CFG.CKPT_MIB, RWS. -/
def MAP_CFG_CKPT_MIB : Field := ⟨0x14, 0x100, 31, 16, .rws, 0x100, .any, false⟩
/-- Table 10-4: MAP.CFG.PAD_US, RWS. -/
def MAP_CFG_PAD_US : Field := ⟨0x14, 0x100, 15, 0, .rws, 0x3e8, .nz, false⟩
/-- Table 10-4: MAP.LEAF.INGEST_RSV, RWS. -/
def MAP_LEAF_INGEST_RSV : Field := ⟨0x14, 0x108, 47, 16, .rws, 0x1000, .any, false⟩
/-- Table 10-4: MAP.LEAF.POOL_MIB, RWS. -/
def MAP_LEAF_POOL_MIB : Field := ⟨0x14, 0x108, 15, 0, .rws, 0x400, .any, false⟩
/-- Table 10-4: MAP.GEOM.BAND_STRIPES, RO, reset column "found". -/
def MAP_GEOM_BAND_STRIPES : Field := ⟨0x14, 0x110, 15, 0, .ro, 0, .any, false⟩
/-- Table 10-4: MAP.STREAM_SEL.STREAM, RW. -/
def MAP_STREAM_SEL_STREAM : Field := ⟨0x14, 0x118, 7, 0, .rw, 0, .any, false⟩
/-- Table 10-4: MAP.STREAM_CFG.PG, RWS, reset column "journal". -/
def MAP_STREAM_CFG_PG (i : Nat) : Field := ⟨0x14, (0x10000 + 0x20 * i), 11, 8, .rws, i % 16, .any, false⟩
/-- Table 10-4: MAP.STREAM_CFG.MODE, RWS, reset column "journal". -/
def MAP_STREAM_CFG_MODE (i : Nat) : Field := ⟨0x14, (0x10000 + 0x20 * i), 5, 5, .rws, 0, .any, false⟩
/-- Table 10-4: MAP.STREAM_CFG.NSID, RWS, reset column "journal". -/
def MAP_STREAM_CFG_NSID (i : Nat) : Field := ⟨0x14, (0x10000 + 0x20 * i), 4, 0, .rws, 0, .rng 0 16, false⟩
/-- Table 10-4: MAP.STREAM_REGION.LEN_EXT, RWS, reset column "journal". -/
def MAP_STREAM_REGION_LEN_EXT (i : Nat) : Field := ⟨0x14, (0x10008 + 0x20 * i), 63, 32, .rws, 0, .any, false⟩
/-- Table 10-4: MAP.STREAM_REGION.BASE_EXT, RWS, reset column "journal". -/
def MAP_STREAM_REGION_BASE_EXT (i : Nat) : Field := ⟨0x14, (0x10008 + 0x20 * i), 31, 0, .rws, 0, .any, false⟩
/-- Table 10-4: MAP.STREAM_APPEND.LEAVES, RO, reset column "journal". -/
def MAP_STREAM_APPEND_LEAVES (i : Nat) : Field := ⟨0x14, (0x10010 + 0x20 * i), 47, 0, .ro, 0, .any, false⟩
/-- Table 10-4: MAP.JOURNAL.SEQ, RO, reset column "journal". -/
def MAP_JOURNAL_SEQ : Field := ⟨0x14, 0x138, 63, 16, .ro, 0, .any, false⟩
/-- Table 10-4: MAP.JOURNAL.TAIL, RO. -/
def MAP_JOURNAL_TAIL : Field := ⟨0x14, 0x138, 15, 0, .ro, 0, .any, false⟩
/-- Table 10-4: MAP.CKPT.NUMBER, RO, reset column "journal". -/
def MAP_CKPT_NUMBER : Field := ⟨0x14, 0x140, 63, 1, .ro, 0, .any, false⟩
/-- Table 10-4: MAP.CKPT.GO, WO. -/
def MAP_CKPT_GO : Field := ⟨0x14, 0x140, 0, 0, .wo, 0, .any, false⟩
/-- Table 10-4: MAP.LEAF_USED.TABLES, RO. -/
def MAP_LEAF_USED_TABLES : Field := ⟨0x14, 0x148, 31, 0, .ro, 0, .any, false⟩
/-- Table 10-4: MAP.COUNTS.CONVERSIONS, RO. -/
def MAP_COUNTS_CONVERSIONS : Field := ⟨0x14, 0x150, 63, 32, .ro, 0, .any, false⟩
/-- Table 10-4: MAP.COUNTS.PADS, RO. -/
def MAP_COUNTS_PADS : Field := ⟨0x14, 0x150, 31, 0, .ro, 0, .any, false⟩
/-- Table 10-4: MAP.SEGMENTS.TOTAL, RO. -/
def MAP_SEGMENTS_TOTAL : Field := ⟨0x14, 0x158, 63, 32, .ro, 0, .any, false⟩
/-- Table 10-4: MAP.SEGMENTS.RESIDENT, RO. -/
def MAP_SEGMENTS_RESIDENT : Field := ⟨0x14, 0x158, 31, 0, .ro, 0, .any, false⟩
/-- Table 10-4: MAP.REBUILD.PHASE2_MS, RO. -/
def MAP_REBUILD_PHASE2_MS : Field := ⟨0x14, 0x160, 63, 32, .ro, 0, .any, false⟩
/-- Table 10-4: MAP.REBUILD.PHASE1_MS, RO. -/
def MAP_REBUILD_PHASE1_MS : Field := ⟨0x14, 0x160, 31, 0, .ro, 0, .any, false⟩
/-- Table 10-4: MAP.CLR.GO, WO. -/
def MAP_CLR_GO : Field := ⟨0x14, 0x168, 0, 0, .wo, 0, .any, false⟩
/-- Table 10-6: MCACHE.STATUS.VBUF, RO. -/
def MCACHE_STATUS_VBUF : Field := ⟨0x15, 0x18, 14, 8, .ro, 0, .any, false⟩
/-- Table 10-6: MCACHE.STATUS.REENABLE_PENDING, RO. -/
def MCACHE_STATUS_REENABLE_PENDING : Field := ⟨0x15, 0x18, 5, 5, .ro, 0, .any, false⟩
/-- Table 10-6: MCACHE.STATUS.WAYS_ON, RO. -/
def MCACHE_STATUS_WAYS_ON : Field := ⟨0x15, 0x18, 4, 0, .ro, 16, .any, false⟩
/-- Table 10-6: MCACHE.CFG.WAYS, RWS. -/
def MCACHE_CFG_WAYS : Field := ⟨0x15, 0x100, 12, 8, .rws, 16, .any, false⟩
/-- Table 10-6: MCACHE.CFG.EVICT, RWS. -/
def MCACHE_CFG_EVICT : Field := ⟨0x15, 0x100, 0, 0, .rws, 1, .any, false⟩
/-- Table 10-6: MCACHE.HITS.COUNT, RO. -/
def MCACHE_HITS_COUNT : Field := ⟨0x15, 0x108, 63, 0, .ro, 0, .any, false⟩
/-- Table 10-6: MCACHE.MISSES.COUNT, RO. -/
def MCACHE_MISSES_COUNT : Field := ⟨0x15, 0x110, 63, 0, .ro, 0, .any, false⟩
/-- Table 10-6: MCACHE.VHITS.COUNT, RO. -/
def MCACHE_VHITS_COUNT : Field := ⟨0x15, 0x118, 63, 0, .ro, 0, .any, false⟩
/-- Table 10-6: MCACHE.WRITEBACKS.COUNT, RO. -/
def MCACHE_WRITEBACKS_COUNT : Field := ⟨0x15, 0x120, 63, 0, .ro, 0, .any, false⟩
/-- Table 10-6: MCACHE.FILL_WAIT.CYCLES, RO. -/
def MCACHE_FILL_WAIT_CYCLES : Field := ⟨0x15, 0x128, 63, 0, .ro, 0, .any, false⟩
/-- Table 10-6: MCACHE.CLR.GO, WO. -/
def MCACHE_CLR_GO : Field := ⟨0x15, 0x130, 0, 0, .wo, 0, .any, false⟩
/-- Table 11-7: DRAMC.STATUS.RETAINED, RO. -/
def DRAMC_STATUS_RETAINED : Field := ⟨0x16, 0x18, 5, 5, .ro, 0, .any, false⟩
/-- Table 11-7: DRAMC.STATUS.INIT_DONE, RO. -/
def DRAMC_STATUS_INIT_DONE : Field := ⟨0x16, 0x18, 4, 4, .ro, 0, .any, false⟩
/-- Table 11-7: DRAMC.STATUS.TRAIN, RO. -/
def DRAMC_STATUS_TRAIN : Field := ⟨0x16, 0x18, 3, 2, .ro, 0, .any, false⟩
/-- Table 11-7: DRAMC.STATUS.SELF_REFRESH, RO. -/
def DRAMC_STATUS_SELF_REFRESH : Field := ⟨0x16, 0x18, 1, 1, .ro, 0, .any, false⟩
/-- Table 11-7: DRAMC.STATUS.TRAINED, RO. -/
def DRAMC_STATUS_TRAINED : Field := ⟨0x16, 0x18, 0, 0, .ro, 0, .any, false⟩
/-- Table 11-7: DRAMC.CFG.FINDEX_MIB, RWS. -/
def DRAMC_CFG_FINDEX_MIB : Field := ⟨0x16, 0x100, 47, 32, .rws, 0x200, .any, false⟩
/-- Table 11-7: DRAMC.CFG.RATE, RWS. -/
def DRAMC_CFG_RATE : Field := ⟨0x16, 0x100, 8, 8, .rws, 0, .any, false⟩
/-- Table 11-7: DRAMC.CFG.ORDER, RWS. -/
def DRAMC_CFG_ORDER : Field := ⟨0x16, 0x100, 5, 4, .rws, 0, .any, false⟩
/-- Table 11-7: DRAMC.CFG.GRAIN, RWS. -/
def DRAMC_CFG_GRAIN : Field := ⟨0x16, 0x100, 3, 0, .rws, 4, .any, false⟩
/-- Table 11-7: DRAMC.PAGE.IDLE_NS, RWS. -/
def DRAMC_PAGE_IDLE_NS : Field := ⟨0x16, 0x108, 31, 16, .rws, 200, .nz, false⟩
/-- Table 11-7: DRAMC.PAGE.POLICY, RWS. -/
def DRAMC_PAGE_POLICY : Field := ⟨0x16, 0x108, 3, 0, .rws, 15, .any, false⟩
/-- Table 11-7: DRAMC.ORDERING.MODE bit 0, RO. -/
def DRAMC_ORDERING_FIX0 : Field := ⟨0x16, 0x110, 0, 0, .ro, 1, .any, false⟩
/-- Table 11-7: DRAMC.ORDERING.MODE bits 6 to 1, RWS. -/
def DRAMC_ORDERING : Field := ⟨0x16, 0x110, 6, 1, .rws, 7, .any, false⟩
/-- Table 11-7: DRAMC.ORDERING.MODE bit 7, RO. -/
def DRAMC_ORDERING_FIX7 : Field := ⟨0x16, 0x110, 7, 7, .ro, 1, .any, false⟩
/-- Table 11-7: DRAMC.REFRESH.DRIFT_PS, RWS. -/
def DRAMC_REFRESH_DRIFT_PS : Field := ⟨0x16, 0x118, 47, 32, .rws, 10, .any, false⟩
/-- Table 11-7: DRAMC.REFRESH.RETRAIN_MS, RWS. -/
def DRAMC_REFRESH_RETRAIN_MS : Field := ⟨0x16, 0x118, 31, 16, .rws, 100, .any, false⟩
/-- Table 11-7: DRAMC.REFRESH.MODE, RWS. -/
def DRAMC_REFRESH_MODE : Field := ⟨0x16, 0x118, 0, 0, .rws, 0, .any, false⟩
/-- Table 11-7: DRAMC.GEOM.ROW_BITS, RO, reset column "found". -/
def DRAMC_GEOM_ROW_BITS : Field := ⟨0x16, 0x120, 23, 16, .ro, 0, .any, false⟩
/-- Table 11-7: DRAMC.GEOM.DENSITY, RO, reset column "found". -/
def DRAMC_GEOM_DENSITY : Field := ⟨0x16, 0x120, 11, 8, .ro, 0, .any, false⟩
/-- Table 11-7: DRAMC.GEOM.BANK_GROUPS, RO, reset column "found". -/
def DRAMC_GEOM_BANK_GROUPS : Field := ⟨0x16, 0x120, 5, 5, .ro, 0, .any, false⟩
/-- Table 11-7: DRAMC.GEOM.RANKS2, RO, reset column "found". -/
def DRAMC_GEOM_RANKS2 : Field := ⟨0x16, 0x120, 4, 4, .ro, 0, .any, false⟩
/-- Table 11-7: DRAMC.GEOM.CHANNELS, RO, reset column "found". -/
def DRAMC_GEOM_CHANNELS : Field := ⟨0x16, 0x120, 3, 0, .ro, 0, .any, false⟩
/-- Table 11-7: DRAMC.SIZE.BYTES, RO, reset column "found". -/
def DRAMC_SIZE_BYTES : Field := ⟨0x16, 0x128, 63, 0, .ro, 0, .any, false⟩
/-- Table 11-7: DRAMC.REGION_A.MAP_MIB, RO. -/
def DRAMC_REGION_A_MAP_MIB : Field := ⟨0x16, 0x130, 63, 48, .ro, 0, .any, false⟩
/-- Table 11-7: DRAMC.REGION_A.JOURNAL_MIB, RO. -/
def DRAMC_REGION_A_JOURNAL_MIB : Field := ⟨0x16, 0x130, 47, 32, .ro, 0, .any, false⟩
/-- Table 11-7: DRAMC.REGION_A.CORE_MIB, RO. -/
def DRAMC_REGION_A_CORE_MIB : Field := ⟨0x16, 0x130, 31, 16, .ro, 0, .any, false⟩
/-- Table 11-7: DRAMC.REGION_A.FINDEX_MIB, RO. -/
def DRAMC_REGION_A_FINDEX_MIB : Field := ⟨0x16, 0x130, 15, 0, .ro, 0, .any, false⟩
/-- Table 11-7: DRAMC.REGION_B.RCACHE_MIB, RO. -/
def DRAMC_REGION_B_RCACHE_MIB : Field := ⟨0x16, 0x138, 31, 0, .ro, 0, .any, false⟩
/-- Table 11-7: DRAMC.PASR.KEPT, RO. -/
def DRAMC_PASR_KEPT : Field := ⟨0x16, 0x140, 63, 32, .ro, 0, .any, false⟩
/-- Table 11-7: DRAMC.TEMP.HIGH_COUNT, RO. -/
def DRAMC_TEMP_HIGH_COUNT : Field := ⟨0x16, 0x148, 47, 32, .ro, 0, .any, false⟩
/-- Table 11-7: DRAMC.TEMP.RATE, RO. -/
def DRAMC_TEMP_RATE : Field := ⟨0x16, 0x148, 15, 0, .ro, 0, .any, false⟩
/-- Table 11-7: DRAMC.ECC_CE.COUNT, RO. -/
def DRAMC_ECC_CE_COUNT : Field := ⟨0x16, 0x150, 63, 0, .ro, 0, .any, false⟩
/-- Table 11-7: DRAMC.ECC_UE.COUNT, RO. -/
def DRAMC_ECC_UE_COUNT : Field := ⟨0x16, 0x158, 63, 0, .ro, 0, .any, false⟩
/-- Table 11-7: DRAMC.LAST_ERR.KIND, RO. -/
def DRAMC_LAST_ERR_KIND : Field := ⟨0x16, 0x160, 63, 60, .ro, 0, .any, false⟩
/-- Table 11-7: DRAMC.LAST_ERR.CLIENT, RO. -/
def DRAMC_LAST_ERR_CLIENT : Field := ⟨0x16, 0x160, 58, 56, .ro, 0, .any, false⟩
/-- Table 11-7: DRAMC.LAST_ERR.ADDR, RO. -/
def DRAMC_LAST_ERR_ADDR : Field := ⟨0x16, 0x160, 39, 0, .ro, 0, .any, false⟩
/-- Table 11-7: DRAMC.FWD.COUNT, RO. -/
def DRAMC_FWD_COUNT : Field := ⟨0x16, 0x168, 63, 0, .ro, 0, .any, false⟩
/-- Table 11-7: DRAMC.TRAFFIC.BYTES_64, RO. -/
def DRAMC_TRAFFIC_BYTES_64 : Field := ⟨0x16, 0x170, 63, 0, .ro, 0, .any, false⟩
/-- Table 11-7: DRAMC.CLR.GO, WO. -/
def DRAMC_CLR_GO : Field := ⟨0x16, 0x178, 0, 0, .wo, 0, .any, false⟩
/-- Table 12-4: FCH.CTL.FAIL, W1S. -/
def FCH_CTL_FAIL (c : Nat) : Field := ⟨(0x20 + c), 0x10, 0, 0, .w1s, 0, .any, true⟩
/-- Table 12-4: FCH.STATUS.LUNS, RO. -/
def FCH_STATUS_LUNS (c : Nat) : Field := ⟨(0x20 + c), 0x18, 28, 24, .ro, 0, .any, false⟩
/-- Table 12-4: FCH.STATUS.RATE, RO. -/
def FCH_STATUS_RATE (c : Nat) : Field := ⟨(0x20 + c), 0x18, 13, 12, .ro, 0, .any, false⟩
/-- Table 12-4: FCH.STATUS.IFACE, RO. -/
def FCH_STATUS_IFACE (c : Nat) : Field := ⟨(0x20 + c), 0x18, 9, 8, .ro, 0, .any, false⟩
/-- Table 12-4: FCH.STATUS.STATE, RO. -/
def FCH_STATUS_STATE (c : Nat) : Field := ⟨(0x20 + c), 0x18, 2, 0, .ro, 5, .any, false⟩
/-- Table 12-4: FCH.PAD.ODT, RWS. -/
def FCH_PAD_ODT (c : Nat) : Field := ⟨(0x20 + c), 0x100, 5, 4, .rws, 0, .any, false⟩
/-- Table 12-4: FCH.PAD.SLEW, RWS. -/
def FCH_PAD_SLEW (c : Nat) : Field := ⟨(0x20 + c), 0x100, 3, 2, .rws, 1, .any, false⟩
/-- Table 12-4: FCH.PAD.DRIVE, RWS. -/
def FCH_PAD_DRIVE (c : Nat) : Field := ⟨(0x20 + c), 0x100, 1, 0, .rws, 1, .any, false⟩
/-- Table 12-4: FCH.IFCFG.RATE_DIV, RWS. -/
def FCH_IFCFG_RATE_DIV (c : Nat) : Field := ⟨(0x20 + c), 0x108, 1, 0, .rws, 0, .rng 0 2, false⟩
/-- Table 12-4: FCH.TIMEOUT.ERASE_US, RWS. -/
def FCH_TIMEOUT_ERASE_US (c : Nat) : Field := ⟨(0x20 + c), 0x110, 63, 48, .rws, 0x4e20, .any, false⟩
/-- Table 12-4: FCH.TIMEOUT.PROG_US, RWS. -/
def FCH_TIMEOUT_PROG_US (c : Nat) : Field := ⟨(0x20 + c), 0x110, 47, 32, .rws, 0x1388, .any, false⟩
/-- Table 12-4: FCH.TIMEOUT.READ_US, RWS. -/
def FCH_TIMEOUT_READ_US (c : Nat) : Field := ⟨(0x20 + c), 0x110, 31, 16, .rws, 0x1f4, .any, false⟩
/-- Table 12-4: FCH.TIMEOUT.ZQ_MS, RWS. -/
def FCH_TIMEOUT_ZQ_MS (c : Nat) : Field := ⟨(0x20 + c), 0x110, 15, 0, .rws, 100, .any, false⟩
/-- Table 12-4: FCH.SUSP.CLASSES, RWS. -/
def FCH_SUSP_CLASSES (c : Nat) : Field := ⟨(0x20 + c), 0x118, 39, 32, .rws, 56, .any, false⟩
/-- Table 12-4: FCH.SUSP.MIN_RUN_US, RWS. -/
def FCH_SUSP_MIN_RUN_US (c : Nat) : Field := ⟨(0x20 + c), 0x118, 27, 16, .rws, 0x12c, .any, false⟩
/-- Table 12-4: FCH.SUSP.MAX_ERASE, RWS. -/
def FCH_SUSP_MAX_ERASE (c : Nat) : Field := ⟨(0x20 + c), 0x118, 11, 8, .rws, 4, .any, false⟩
/-- Table 12-4: FCH.SUSP.MAX_PROG, RWS. -/
def FCH_SUSP_MAX_PROG (c : Nat) : Field := ⟨(0x20 + c), 0x118, 7, 4, .rws, 1, .any, false⟩
/-- Table 12-4: FCH.SUSP.ERASE_EN, RWS. -/
def FCH_SUSP_ERASE_EN (c : Nat) : Field := ⟨(0x20 + c), 0x118, 1, 1, .rws, 1, .any, false⟩
/-- Table 12-4: FCH.SUSP.PROG_EN, RWS. -/
def FCH_SUSP_PROG_EN (c : Nat) : Field := ⟨(0x20 + c), 0x118, 0, 0, .rws, 1, .any, false⟩
/-- Table 12-4: FCH.RETRY.FA, RWS. -/
def FCH_RETRY_FA (c : Nat) : Field := ⟨(0x20 + c), 0x120, 7, 0, .rws, 0, .any, false⟩
/-- Table 12-4: FCH.GEOM.PAGES_PER_BLOCK, RO, reset column "found". -/
def FCH_GEOM_PAGES_PER_BLOCK (c : Nat) : Field := ⟨(0x20 + c), 0x128, 63, 48, .ro, 0, .any, false⟩
/-- Table 12-4: FCH.GEOM.BLOCKS_PER_PLANE, RO, reset column "found". -/
def FCH_GEOM_BLOCKS_PER_PLANE (c : Nat) : Field := ⟨(0x20 + c), 0x128, 47, 32, .ro, 0, .any, false⟩
/-- Table 12-4: FCH.GEOM.SPARE_BYTES, RO, reset column "found". -/
def FCH_GEOM_SPARE_BYTES (c : Nat) : Field := ⟨(0x20 + c), 0x128, 27, 16, .ro, 0, .any, false⟩
/-- Table 12-4: FCH.GEOM.CELL, RO, reset column "found". -/
def FCH_GEOM_CELL (c : Nat) : Field := ⟨(0x20 + c), 0x128, 15, 12, .ro, 0, .any, false⟩
/-- Table 12-4: FCH.GEOM.PLANES, RO, reset column "found". -/
def FCH_GEOM_PLANES (c : Nat) : Field := ⟨(0x20 + c), 0x128, 9, 8, .ro, 0, .any, false⟩
/-- Table 12-4: FCH.GEOM.SLC_OK, RO, reset column "found". -/
def FCH_GEOM_SLC_OK (c : Nat) : Field := ⟨(0x20 + c), 0x128, 0, 0, .ro, 0, .any, false⟩
/-- Table 12-4: FCH.LUN_STATE.STATE, RO. -/
def FCH_LUN_STATE_STATE (c : Nat) : Field := ⟨(0x20 + c), 0x130, 31, 0, .ro, 0, .any, false⟩
/-- Table 12-4: FCH.SEAL.ERASED1, RO. -/
def FCH_SEAL_ERASED1 (c : Nat) : Field := ⟨(0x20 + c), 0x138, 52, 52, .ro, 0, .any, false⟩
/-- Table 12-4: FCH.SEAL.LUN1, RO. -/
def FCH_SEAL_LUN1 (c : Nat) : Field := ⟨(0x20 + c), 0x138, 51, 48, .ro, 0, .any, false⟩
/-- Table 12-4: FCH.SEAL.BLOCK1, RO. -/
def FCH_SEAL_BLOCK1 (c : Nat) : Field := ⟨(0x20 + c), 0x138, 47, 32, .ro, 0, .any, false⟩
/-- Table 12-4: FCH.SEAL.ERASED0, RO. -/
def FCH_SEAL_ERASED0 (c : Nat) : Field := ⟨(0x20 + c), 0x138, 20, 20, .ro, 0, .any, false⟩
/-- Table 12-4: FCH.SEAL.LUN0, RO. -/
def FCH_SEAL_LUN0 (c : Nat) : Field := ⟨(0x20 + c), 0x138, 19, 16, .ro, 0, .any, false⟩
/-- Table 12-4: FCH.SEAL.BLOCK0, RO. -/
def FCH_SEAL_BLOCK0 (c : Nat) : Field := ⟨(0x20 + c), 0x138, 15, 0, .ro, 0, .any, false⟩
/-- Table 12-4: FCH.CREDIT.IN_HANDSHAKE, RO. -/
def FCH_CREDIT_IN_HANDSHAKE (c : Nat) : Field := ⟨(0x20 + c), 0x140, 21, 16, .ro, 0, .any, false⟩
/-- Table 12-4: FCH.CREDIT.SEQ, RO. -/
def FCH_CREDIT_SEQ (c : Nat) : Field := ⟨(0x20 + c), 0x140, 13, 8, .ro, 0, .any, false⟩
/-- Table 12-4: FCH.CREDIT.CORE, RO. -/
def FCH_CREDIT_CORE (c : Nat) : Field := ⟨(0x20 + c), 0x140, 5, 0, .ro, 32, .any, false⟩
/-- Table 12-4: FCH.TOK_GRANTED.SUM, RO. -/
def FCH_TOK_GRANTED_SUM (c : Nat) : Field := ⟨(0x20 + c), 0x148, 63, 0, .ro, 0, .any, false⟩
/-- Table 12-4: FCH.TOK_SPENT.SUM, RO. -/
def FCH_TOK_SPENT_SUM (c : Nat) : Field := ⟨(0x20 + c), 0x150, 63, 0, .ro, 0, .any, false⟩
/-- Table 12-4: FCH.TOK_EXPIRED.SUM, RO. -/
def FCH_TOK_EXPIRED_SUM (c : Nat) : Field := ⟨(0x20 + c), 0x158, 63, 0, .ro, 0, .any, false⟩
/-- Table 12-4: FCH.READS.COUNT, RO. -/
def FCH_READS_COUNT (c : Nat) : Field := ⟨(0x20 + c), 0x160, 63, 0, .ro, 0, .any, false⟩
/-- Table 12-4: FCH.PROGS.COUNT, RO. -/
def FCH_PROGS_COUNT (c : Nat) : Field := ⟨(0x20 + c), 0x168, 63, 0, .ro, 0, .any, false⟩
/-- Table 12-4: FCH.ERASES.COUNT, RO. -/
def FCH_ERASES_COUNT (c : Nat) : Field := ⟨(0x20 + c), 0x170, 63, 0, .ro, 0, .any, false⟩
/-- Table 12-4: FCH.ERR.TIMEOUTS, RO. -/
def FCH_ERR_TIMEOUTS (c : Nat) : Field := ⟨(0x20 + c), 0x178, 63, 48, .ro, 0, .any, false⟩
/-- Table 12-4: FCH.ERR.PROG_FAIL, RO. -/
def FCH_ERR_PROG_FAIL (c : Nat) : Field := ⟨(0x20 + c), 0x178, 47, 32, .ro, 0, .any, false⟩
/-- Table 12-4: FCH.ERR.ERASE_FAIL, RO. -/
def FCH_ERR_ERASE_FAIL (c : Nat) : Field := ⟨(0x20 + c), 0x178, 31, 16, .ro, 0, .any, false⟩
/-- Table 12-4: FCH.ERR.SUSPENDS, RO. -/
def FCH_ERR_SUSPENDS (c : Nat) : Field := ⟨(0x20 + c), 0x178, 15, 0, .ro, 0, .any, false⟩
/-- Table 12-4: FCH.LAT.MAX_ERASE_US, RO. -/
def FCH_LAT_MAX_ERASE_US (c : Nat) : Field := ⟨(0x20 + c), 0x180, 31, 16, .ro, 0, .any, false⟩
/-- Table 12-4: FCH.LAT.MAX_PROG_US, RO. -/
def FCH_LAT_MAX_PROG_US (c : Nat) : Field := ⟨(0x20 + c), 0x180, 15, 0, .ro, 0, .any, false⟩
/-- Table 12-4: FCH.SPARES.FEWEST, RO, reset column "found". -/
def FCH_SPARES_FEWEST (c : Nat) : Field := ⟨(0x20 + c), 0x188, 15, 0, .ro, 0, .any, false⟩
/-- Table 12-4: FCH.CLR.GO, WO. -/
def FCH_CLR_GO (c : Nat) : Field := ⟨(0x20 + c), 0x190, 0, 0, .wo, 0, .any, false⟩
/-- Table 13-6: ECC.STATUS.MAX_TIER, RO, reset column "found". -/
def ECC_STATUS_MAX_TIER : Field := ⟨0x18, 0x18, 2, 0, .ro, 0, .any, false⟩
/-- Table 13-6: ECC.TIER_WEAR_A.W1, RWS. -/
def ECC_TIER_WEAR_W1 : Field := ⟨0x18, 0x100, 15, 0, .rws, 0x1f4, .any, false⟩
/-- Table 13-6: ECC.TIER_WEAR_A.W2, RWS. -/
def ECC_TIER_WEAR_W2 : Field := ⟨0x18, 0x100, 31, 16, .rws, 0x3e8, .any, false⟩
/-- Table 13-6: ECC.TIER_WEAR_A.W3, RWS. -/
def ECC_TIER_WEAR_W3 : Field := ⟨0x18, 0x100, 47, 32, .rws, 0x5dc, .any, false⟩
/-- Table 13-6: ECC.TIER_WEAR_A.W4, RWS. -/
def ECC_TIER_WEAR_W4 : Field := ⟨0x18, 0x100, 63, 48, .rws, 0x7d0, .any, false⟩
/-- Table 13-6: ECC.TIER_WEAR_B.W5, RWS. -/
def ECC_TIER_WEAR_W5 : Field := ⟨0x18, 0x108, 15, 0, .rws, 0x9c4, .any, false⟩
/-- Table 13-6: ECC.TIER_WEAR_B.W6, RWS. -/
def ECC_TIER_WEAR_W6 : Field := ⟨0x18, 0x108, 31, 16, .rws, 0xbb8, .any, false⟩
/-- Table 13-6: ECC.TIER_WEAR_B.W7, RWS. -/
def ECC_TIER_WEAR_W7 : Field := ⟨0x18, 0x108, 47, 32, .rws, 0xdac, .any, false⟩
/-- Table 13-6: ECC.TIER_CFG.GROOM_MIN, RWS. -/
def ECC_TIER_CFG_GROOM_MIN : Field := ⟨0x18, 0x110, 18, 16, .rws, 1, .any, false⟩
/-- Table 13-6: ECC.TIER_CFG.META_MIN, RWS. -/
def ECC_TIER_CFG_META_MIN : Field := ⟨0x18, 0x110, 14, 12, .rws, 3, .any, false⟩
/-- Table 13-6: ECC.TIER_CFG.LEAF_MIN, RWS. -/
def ECC_TIER_CFG_LEAF_MIN : Field := ⟨0x18, 0x110, 10, 8, .rws, 1, .any, false⟩
/-- Table 13-6: ECC.TIER_CFG.STREAM_MIN, RWS. -/
def ECC_TIER_CFG_STREAM_MIN : Field := ⟨0x18, 0x110, 6, 4, .rws, 2, .any, false⟩
/-- Table 13-6: ECC.TIER_CFG.TRACK_BUMP, RWS. -/
def ECC_TIER_CFG_TRACK_BUMP : Field := ⟨0x18, 0x110, 3, 0, .rws, 4, .any, false⟩
/-- Table 13-6: ECC.DECODE.RECON_EN, RWS. -/
def ECC_DECODE_RECON_EN : Field := ⟨0x18, 0x118, 20, 20, .rws, 1, .any, false⟩
/-- Table 13-6: ECC.DECODE.SOFT_EN, RWS. -/
def ECC_DECODE_SOFT_EN : Field := ⟨0x18, 0x118, 16, 16, .rws, 1, .any, false⟩
/-- Table 13-6: ECC.DECODE.RETRY_MAX, RWS. -/
def ECC_DECODE_RETRY_MAX : Field := ⟨0x18, 0x118, 11, 8, .rws, 4, .any, false⟩
/-- Table 13-6: ECC.DECODE.ITER_HARD, RWS. -/
def ECC_DECODE_ITER_HARD : Field := ⟨0x18, 0x118, 4, 0, .rws, 16, .any, false⟩
/-- Table 13-6: ECC.RETRY_N.COUNT, RWS. -/
def ECC_RETRY_N_COUNT : Field := ⟨0x18, 0x120, 3, 0, .rws, 8, .any, false⟩
/-- Table 13-6: ECC.TRACK_SEL.CHANNEL, RW. -/
def ECC_TRACK_SEL_CHANNEL : Field := ⟨0x18, 0x128, 13, 8, .rw, 0, .any, false⟩
/-- Table 13-6: ECC.TRACK_SEL.LUN, RW. -/
def ECC_TRACK_SEL_LUN : Field := ⟨0x18, 0x128, 3, 0, .rw, 0, .any, false⟩
/-- Table 13-6: ECC.TRACK.CHANGES, RO. -/
def ECC_TRACK_CHANGES (i : Nat) : Field := ⟨0x18, (0x10000 + 8 * i), 47, 32, .ro, 0, .any, false⟩
/-- Table 13-6: ECC.TRACK.HITS, RO. -/
def ECC_TRACK_HITS (i : Nat) : Field := ⟨0x18, (0x10000 + 8 * i), 31, 16, .ro, 0, .any, false⟩
/-- Table 13-6: ECC.TRACK.INDEX, RO. -/
def ECC_TRACK_INDEX (i : Nat) : Field := ⟨0x18, (0x10000 + 8 * i), 3, 0, .ro, 0, .any, false⟩
/-- Table 13-6: ECC.RETRY_TBL.PARAM, RWS. -/
def ECC_RETRY_TBL_PARAM (k : Nat) : Field := ⟨0x18, (0x140 + 8 * k), 31, 0, .rws, 0, .any, false⟩
/-- Table 13-6: ECC.CW.COUNT, RO. -/
def ECC_CW_COUNT : Field := ⟨0x18, 0x1c0, 63, 0, .ro, 0, .any, false⟩
/-- Table 13-6: ECC.BITS.COUNT, RO. -/
def ECC_BITS_COUNT : Field := ⟨0x18, 0x1c8, 63, 0, .ro, 0, .any, false⟩
/-- Table 13-6: ECC.RETRIES.COUNT, RO. -/
def ECC_RETRIES_COUNT : Field := ⟨0x18, 0x1d0, 63, 0, .ro, 0, .any, false⟩
/-- Table 13-6: ECC.ESC.UNRECOVERED, RO. -/
def ECC_ESC_UNRECOVERED : Field := ⟨0x18, 0x1d8, 63, 48, .ro, 0, .any, false⟩
/-- Table 13-6: ECC.ESC.RECON_OK, RO. -/
def ECC_ESC_RECON_OK : Field := ⟨0x18, 0x1d8, 47, 32, .ro, 0, .any, false⟩
/-- Table 13-6: ECC.ESC.SOFT_OK, RO. -/
def ECC_ESC_SOFT_OK : Field := ⟨0x18, 0x1d8, 31, 16, .ro, 0, .any, false⟩
/-- Table 13-6: ECC.ESC.RETRY_OK, RO. -/
def ECC_ESC_RETRY_OK : Field := ⟨0x18, 0x1d8, 15, 0, .ro, 0, .any, false⟩
/-- Table 13-6: ECC.CHECK.MARK_BAD, RO. -/
def ECC_CHECK_MARK_BAD : Field := ⟨0x18, 0x1e0, 63, 48, .ro, 0, .any, false⟩
/-- Table 13-6: ECC.CHECK.MISPLACED, RO. -/
def ECC_CHECK_MISPLACED : Field := ⟨0x18, 0x1e0, 47, 32, .ro, 0, .any, false⟩
/-- Table 13-6: ECC.CHECK.MISCORRECT, RO. -/
def ECC_CHECK_MISCORRECT : Field := ⟨0x18, 0x1e0, 31, 16, .ro, 0, .any, false⟩
/-- Table 13-6: ECC.CHECK.WRITTEN_WRONG, RO. -/
def ECC_CHECK_WRITTEN_WRONG : Field := ⟨0x18, 0x1e0, 15, 0, .ro, 0, .any, false⟩
/-- Table 13-6: ECC.SRAM_CE.COUNTS, RO. -/
def ECC_SRAM_CE_COUNTS : Field := ⟨0x18, 0x1e8, 63, 0, .ro, 0, .any, false⟩
/-- Table 13-6: ECC.SRAM_UE.COUNTS, RO. -/
def ECC_SRAM_UE_COUNTS : Field := ⟨0x18, 0x1f0, 63, 0, .ro, 0, .any, false⟩
/-- Table 13-6: ECC.INTEG_PTR.COUNT, RO. -/
def ECC_INTEG_PTR_COUNT : Field := ⟨0x18, 0x1f8, 47, 16, .ro, 0, .any, false⟩
/-- Table 13-6: ECC.INTEG_PTR.NEXT, RO. -/
def ECC_INTEG_PTR_NEXT : Field := ⟨0x18, 0x1f8, 5, 0, .ro, 0, .any, false⟩
/-- Table 13-6: ECC.INTEG_SEL.INDEX, RW. -/
def ECC_INTEG_SEL_INDEX : Field := ⟨0x18, 0x200, 5, 0, .rw, 0, .any, false⟩
/-- Table 13-6: ECC.CLR.GO, WO. -/
def ECC_CLR_GO : Field := ⟨0x18, 0x228, 0, 0, .wo, 0, .any, false⟩
/-- Table 13-8: SCRUB.CTL.EN, RW. -/
def SCRUB_CTL_EN : Field := ⟨0x19, 0x10, 0, 0, .rw, 1, .any, false⟩
/-- Table 13-8: SCRUB.STATUS.BAND, RO. -/
def SCRUB_STATUS_BAND : Field := ⟨0x19, 0x18, 47, 16, .ro, 0, .any, false⟩
/-- Table 13-8: SCRUB.STATUS.PERMILLE, RO. -/
def SCRUB_STATUS_PERMILLE : Field := ⟨0x19, 0x18, 9, 0, .ro, 0, .any, false⟩
/-- Table 13-8: SCRUB.CFG.PASS_H, RWS. -/
def SCRUB_CFG_PASS_H : Field := ⟨0x19, 0x100, 63, 48, .rws, 168, .any, false⟩
/-- Table 13-8: SCRUB.CFG.RETAIN_DAYS, RWS. -/
def SCRUB_CFG_RETAIN_DAYS : Field := ⟨0x19, 0x100, 47, 32, .rws, 0x16d, .any, false⟩
/-- Table 13-8: SCRUB.CFG.REFRESH_PCT, RWS. -/
def SCRUB_CFG_REFRESH_PCT : Field := ⟨0x19, 0x100, 31, 24, .rws, 60, .any, false⟩
/-- Table 13-8: SCRUB.CFG.TRACK_REFRESH_S, RWS. -/
def SCRUB_CFG_TRACK_REFRESH_S : Field := ⟨0x19, 0x100, 23, 8, .rws, 60, .any, false⟩
/-- Table 13-8: SCRUB.CFG.DRAM_PATROL_H, RWS. -/
def SCRUB_CFG_DRAM_PATROL_H : Field := ⟨0x19, 0x100, 7, 0, .rws, 24, .any, false⟩
/-- Table 13-8: SCRUB.SRAM_PATROL.MS, RWS. -/
def SCRUB_SRAM_PATROL_MS : Field := ⟨0x19, 0x108, 15, 0, .rws, 100, .any, false⟩
/-- Table 13-8: SCRUB.PASSES.COUNT, RO. -/
def SCRUB_PASSES_COUNT : Field := ⟨0x19, 0x110, 31, 0, .ro, 0, .any, false⟩
/-- Table 13-8: SCRUB.LAST_PASS.SECONDS, RO. -/
def SCRUB_LAST_PASS_SECONDS : Field := ⟨0x19, 0x118, 31, 0, .ro, 0, .any, false⟩
/-- Table 13-8: SCRUB.PAGES.COUNT, RO. -/
def SCRUB_PAGES_COUNT : Field := ⟨0x19, 0x120, 63, 0, .ro, 0, .any, false⟩
/-- Table 13-8: SCRUB.ACTIONS.RETAIN_REFRESH, RO. -/
def SCRUB_ACTIONS_RETAIN_REFRESH : Field := ⟨0x19, 0x128, 63, 48, .ro, 0, .any, false⟩
/-- Table 13-8: SCRUB.ACTIONS.ERROR_REFRESH, RO. -/
def SCRUB_ACTIONS_ERROR_REFRESH : Field := ⟨0x19, 0x128, 47, 32, .ro, 0, .any, false⟩
/-- Table 13-8: SCRUB.ACTIONS.UNIT_RELOC, RO. -/
def SCRUB_ACTIONS_UNIT_RELOC : Field := ⟨0x19, 0x128, 31, 16, .ro, 0, .any, false⟩
/-- Table 13-8: SCRUB.ACTIONS.TRACK_RESETS, RO. -/
def SCRUB_ACTIONS_TRACK_RESETS : Field := ⟨0x19, 0x128, 15, 0, .ro, 0, .any, false⟩
/-- Table 13-8: SCRUB.DRAM_PASSES.COUNT, RO. -/
def SCRUB_DRAM_PASSES_COUNT : Field := ⟨0x19, 0x130, 31, 0, .ro, 0, .any, false⟩
/-- Table 13-8: SCRUB.CLR.GO, WO. -/
def SCRUB_CLR_GO : Field := ⟨0x19, 0x138, 0, 0, .wo, 0, .any, false⟩
/-- Table 14-5: GROOM.STATUS.VICTIM, RO. -/
def GROOM_STATUS_VICTIM : Field := ⟨0x1a, 0x18, 63, 32, .ro, 0, .any, false⟩
/-- Table 14-5: GROOM.STATUS.SOURCE, RO. -/
def GROOM_STATUS_SOURCE : Field := ⟨0x1a, 0x18, 10, 8, .ro, 0, .any, false⟩
/-- Table 14-5: GROOM.STATUS.ACTIVITY, RO. -/
def GROOM_STATUS_ACTIVITY : Field := ⟨0x1a, 0x18, 1, 0, .ro, 0, .any, false⟩
/-- Table 14-5: GROOM.CFG.IDLE_CLOSE_MS, RWS. -/
def GROOM_CFG_IDLE_CLOSE_MS : Field := ⟨0x1a, 0x100, 63, 48, .rws, 0x1f4, .any, false⟩
/-- Table 14-5: GROOM.CFG.RELOC_MAX, RWS. -/
def GROOM_CFG_RELOC_MAX : Field := ⟨0x1a, 0x100, 47, 36, .rws, 0x200, .any, false⟩
/-- Table 14-5: GROOM.CFG.ERASED_TARGET, RWS. -/
def GROOM_CFG_ERASED_TARGET : Field := ⟨0x1a, 0x100, 35, 32, .rws, 4, .any, false⟩
/-- Table 14-5: GROOM.CFG.RSV_PCT, RWS. -/
def GROOM_CFG_RSV_PCT : Field := ⟨0x1a, 0x100, 31, 24, .rws, 2, .any, false⟩
/-- Table 14-5: GROOM.CFG.EXIT_PCT, RWS. -/
def GROOM_CFG_EXIT_PCT : Field := ⟨0x1a, 0x100, 23, 16, .rws, 6, .any, false⟩
/-- Table 14-5: GROOM.CFG.ENTER_PCT, RWS. -/
def GROOM_CFG_ENTER_PCT : Field := ⟨0x1a, 0x100, 15, 8, .rws, 3, .any, false⟩
/-- Table 14-5: GROOM.CFG.BG_START_PCT, RWS. -/
def GROOM_CFG_BG_START_PCT : Field := ⟨0x1a, 0x100, 7, 0, .rws, 10, .any, false⟩
/-- Table 14-5: GROOM.WL.RATED, RWS. -/
def GROOM_WL_RATED : Field := ⟨0x1a, 0x108, 63, 32, .rws, 0xbb8, .any, false⟩
/-- Table 14-5: GROOM.WL.AGE_H, RWS. -/
def GROOM_WL_AGE_H : Field := ⟨0x1a, 0x108, 31, 16, .rws, 72, .any, false⟩
/-- Table 14-5: GROOM.WL.SPREAD, RWS. -/
def GROOM_WL_SPREAD : Field := ⟨0x1a, 0x108, 15, 0, .rws, 200, .any, false⟩
/-- Table 14-5: GROOM.OP.OP_PCT, RWS. -/
def GROOM_OP_OP_PCT : Field := ⟨0x1a, 0x110, 7, 0, .rws, 14, .any, false⟩
/-- Table 14-5: GROOM.BANDS.CLOSED, RO. -/
def GROOM_BANDS_CLOSED : Field := ⟨0x1a, 0x118, 63, 32, .ro, 0, .any, false⟩
/-- Table 14-5: GROOM.BANDS.TOTAL, RO, reset column "found". -/
def GROOM_BANDS_TOTAL : Field := ⟨0x1a, 0x118, 31, 0, .ro, 0, .any, false⟩
/-- Table 14-5: GROOM.FREE.F, RO. -/
def GROOM_FREE_F : Field := ⟨0x1a, 0x120, 63, 32, .ro, 0, .any, false⟩
/-- Table 14-5: GROOM.FREE.DIRTY, RO. -/
def GROOM_FREE_DIRTY : Field := ⟨0x1a, 0x120, 31, 16, .ro, 0, .any, false⟩
/-- Table 14-5: GROOM.FREE.ERASED, RO. -/
def GROOM_FREE_ERASED : Field := ⟨0x1a, 0x120, 15, 0, .ro, 0, .any, false⟩
/-- Table 14-5: GROOM.RESERVE.USED, RO. -/
def GROOM_RESERVE_USED : Field := ⟨0x1a, 0x128, 63, 32, .ro, 0, .any, false⟩
/-- Table 14-5: GROOM.RESERVE.GC_RSV, RO. -/
def GROOM_RESERVE_GC_RSV : Field := ⟨0x1a, 0x128, 31, 0, .ro, 0, .any, false⟩
/-- Table 14-5: GROOM.RELOC_PAGES.COUNT, RO. -/
def GROOM_RELOC_PAGES_COUNT : Field := ⟨0x1a, 0x130, 63, 0, .ro, 0, .any, false⟩
/-- Table 14-5: GROOM.HOST_PAGES.COUNT, RO. -/
def GROOM_HOST_PAGES_COUNT : Field := ⟨0x1a, 0x138, 63, 0, .ro, 0, .any, false⟩
/-- Table 14-5: GROOM.ERASES.SUM, RO, reset column "journal". -/
def GROOM_ERASES_SUM : Field := ⟨0x1a, 0x140, 63, 0, .ro, 0, .any, false⟩
/-- Table 14-5: GROOM.VICTIMS.COUNTS, RO. -/
def GROOM_VICTIMS_COUNTS : Field := ⟨0x1a, 0x148, 63, 0, .ro, 0, .any, false⟩
/-- Table 14-5: GROOM.EC_SEL.BLOCK_SET, RW. -/
def GROOM_EC_SEL_BLOCK_SET : Field := ⟨0x1a, 0x150, 31, 16, .rw, 0, .any, false⟩
/-- Table 14-5: GROOM.EC_SEL.LUN, RW. -/
def GROOM_EC_SEL_LUN : Field := ⟨0x1a, 0x150, 11, 8, .rw, 0, .any, false⟩
/-- Table 14-5: GROOM.EC_SEL.CHANNEL, RW. -/
def GROOM_EC_SEL_CHANNEL : Field := ⟨0x1a, 0x150, 5, 0, .rw, 0, .any, false⟩
/-- Table 14-5: GROOM.CLR.GO, WO. -/
def GROOM_CLR_GO : Field := ⟨0x1a, 0x160, 0, 0, .wo, 0, .any, false⟩
/-- Table 15-8: PAIR.CTL.EN, RW. -/
def PAIR_CTL_EN : Field := ⟨0x1b, 0x10, 0, 0, .rw, 1, .any, true⟩
/-- Table 15-8: PAIR.STATUS.REENABLE_PENDING, RO. -/
def PAIR_STATUS_REENABLE_PENDING : Field := ⟨0x1b, 0x18, 35, 35, .ro, 0, .any, false⟩
/-- Table 15-8: PAIR.STATUS.ALIGNED, RO. -/
def PAIR_STATUS_ALIGNED : Field := ⟨0x1b, 0x18, 34, 34, .ro, 0, .any, false⟩
/-- Table 15-8: PAIR.STATUS.FSTATE, RO. -/
def PAIR_STATUS_FSTATE : Field := ⟨0x1b, 0x18, 33, 32, .ro, 0, .any, false⟩
/-- Table 15-8: PAIR.STATUS.PAIR_STATE, RO. -/
def PAIR_STATUS_PAIR_STATE : Field := ⟨0x1b, 0x18, 31, 0, .ro, 0, .any, false⟩
/-- Table 15-8: PAIR.CFG.STALL_MS, RWS. -/
def PAIR_CFG_STALL_MS : Field := ⟨0x1b, 0x100, 31, 16, .rws, 50, .any, false⟩
/-- Table 15-8: PAIR.CFG.POLARITY, RWS. -/
def PAIR_CFG_POLARITY : Field := ⟨0x1b, 0x100, 15, 8, .rws, 0, .any, false⟩
/-- Table 15-8: PAIR.CFG.AUTO_CONVERGE, RWS. -/
def PAIR_CFG_AUTO_CONVERGE : Field := ⟨0x1b, 0x100, 1, 1, .rws, 1, .any, false⟩
/-- Table 15-8: PAIR.CFG.FEED, RWS. -/
def PAIR_CFG_FEED : Field := ⟨0x1b, 0x100, 0, 0, .rws, 0, .any, false⟩
/-- Table 15-8: PAIR.CREDITv.ALLOC, RO; R434. -/
def PAIR_CREDIT_ALLOC (k : Nat) : Field := ⟨0x1b, (0x108 + 8 * k), 47, 32, .ro, [1024, 256, 128].getD k 0, .any, false⟩
/-- Table 15-8: PAIR.CREDIT.RX_BUF, RO. -/
def PAIR_CREDIT_RX_BUF (k : Nat) : Field := ⟨0x1b, (0x108 + 8 * k), 31, 16, .ro, 0, .any, false⟩
/-- Table 15-8: PAIR.CREDIT.AVAIL, RO. -/
def PAIR_CREDIT_AVAIL (k : Nat) : Field := ⟨0x1b, (0x108 + 8 * k), 15, 0, .ro, 0, .any, false⟩
/-- Table 15-8: PAIR.LINKERR.CRC_ERR, RO. -/
def PAIR_LINKERR_CRC_ERR : Field := ⟨0x1b, 0x120, 63, 48, .ro, 0, .any, false⟩
/-- Table 15-8: PAIR.LINKERR.NAKS, RO. -/
def PAIR_LINKERR_NAKS : Field := ⟨0x1b, 0x120, 47, 32, .ro, 0, .any, false⟩
/-- Table 15-8: PAIR.LINKERR.RESENDS, RO. -/
def PAIR_LINKERR_RESENDS : Field := ⟨0x1b, 0x120, 31, 16, .ro, 0, .any, false⟩
/-- Table 15-8: PAIR.LINKERR.TRAINS, RO. -/
def PAIR_LINKERR_TRAINS : Field := ⟨0x1b, 0x120, 15, 0, .ro, 0, .any, false⟩
/-- Table 15-8: PAIR.BEAT.RECEIVED, RO. -/
def PAIR_BEAT_RECEIVED : Field := ⟨0x1b, 0x128, 63, 32, .ro, 0, .any, false⟩
/-- Table 15-8: PAIR.BEAT.LOSSES, RO. -/
def PAIR_BEAT_LOSSES : Field := ⟨0x1b, 0x128, 31, 16, .ro, 0, .any, false⟩
/-- Table 15-8: PAIR.BEAT.MISS_RUN, RO. -/
def PAIR_BEAT_MISS_RUN : Field := ⟨0x1b, 0x128, 7, 0, .ro, 0, .any, false⟩
/-- Table 15-8: PAIR.FAILOVER.LAST_NS, RO. -/
def PAIR_FAILOVER_LAST_NS : Field := ⟨0x1b, 0x130, 63, 32, .ro, 0, .any, false⟩
/-- Table 15-8: PAIR.FAILOVER.COUNT, RO. -/
def PAIR_FAILOVER_COUNT : Field := ⟨0x1b, 0x130, 31, 0, .ro, 0, .any, false⟩
/-- Table 15-8: PAIR.DIV.PEER_SEGS, RO. -/
def PAIR_DIV_PEER_SEGS : Field := ⟨0x1b, 0x138, 63, 32, .ro, 0, .any, false⟩
/-- Table 15-8: PAIR.DIV.OWN_SEGS, RO. -/
def PAIR_DIV_OWN_SEGS : Field := ⟨0x1b, 0x138, 31, 0, .ro, 0, .any, false⟩
/-- Table 15-8: PAIR.CONVERGE.MIB_COPIED, RO. -/
def PAIR_CONVERGE_MIB_COPIED : Field := ⟨0x1b, 0x140, 63, 32, .ro, 0, .any, false⟩
/-- Table 15-8: PAIR.CONVERGE.SEGS_LEFT, RO. -/
def PAIR_CONVERGE_SEGS_LEFT : Field := ⟨0x1b, 0x140, 31, 0, .ro, 0, .any, false⟩
/-- Table 15-8: PAIR.ARB.UNRESOLVED, RO. -/
def PAIR_ARB_UNRESOLVED : Field := ⟨0x1b, 0x148, 63, 48, .ro, 0, .any, false⟩
/-- Table 15-8: PAIR.ARB.REPAIRED, RO. -/
def PAIR_ARB_REPAIRED : Field := ⟨0x1b, 0x148, 47, 32, .ro, 0, .any, false⟩
/-- Table 15-8: PAIR.ARB.CALC_REWRITE, RO. -/
def PAIR_ARB_CALC_REWRITE : Field := ⟨0x1b, 0x148, 31, 16, .ro, 0, .any, false⟩
/-- Table 15-8: PAIR.ARB.TRAILER_REWRITE, RO. -/
def PAIR_ARB_TRAILER_REWRITE : Field := ⟨0x1b, 0x148, 15, 0, .ro, 0, .any, false⟩
/-- Table 15-8: PAIR.ACK_LAT.MAX_NS, RO. -/
def PAIR_ACK_LAT_MAX_NS : Field := ⟨0x1b, 0x150, 15, 0, .ro, 0, .any, false⟩
/-- Table 15-8: PAIR.TB_OFS.TICKS, RO. -/
def PAIR_TB_OFS_TICKS : Field := ⟨0x1b, 0x158, 63, 0, .ro, 0, .any, false⟩
/-- Table 15-8: PAIR.CLR.GO, WO. -/
def PAIR_CLR_GO : Field := ⟨0x1b, 0x160, 0, 0, .wo, 0, .any, false⟩
/-- Table 15-8: PAIR.LANE.LOGICAL, RO. -/
def PAIR_LANE_LOGICAL (k : Nat) : Field := ⟨0x1b, (0x200 + 8 * k), 63, 56, .ro, 255, .any, false⟩
/-- Table 15-8: PAIR.LANE.SKEW_UI, RO. -/
def PAIR_LANE_SKEW_UI (k : Nat) : Field := ⟨0x1b, (0x200 + 8 * k), 55, 48, .ro, 0, .any, false⟩
/-- Table 15-8: PAIR.LANE.LOCK_LOSS, RO. -/
def PAIR_LANE_LOCK_LOSS (k : Nat) : Field := ⟨0x1b, (0x200 + 8 * k), 31, 16, .ro, 0, .any, false⟩
/-- Table 15-8: PAIR.LANE.BAD_SH, RO. -/
def PAIR_LANE_BAD_SH (k : Nat) : Field := ⟨0x1b, (0x200 + 8 * k), 15, 0, .ro, 0, .any, false⟩
/-- Table 16-6: NET.CTL.EN, RW. -/
def NET_CTL_EN (p : Nat) : Field := ⟨(0x1C + p), 0x10, 0, 0, .rw, 0, .any, true⟩
/-- Table 16-6: NET.STATUS.REENABLE_PENDING, RO. -/
def NET_STATUS_REENABLE_PENDING (p : Nat) : Field := ⟨(0x1C + p), 0x18, 5, 5, .ro, 0, .any, false⟩
/-- Table 16-6: NET.STATUS.FEC_LOCK, RO. -/
def NET_STATUS_FEC_LOCK (p : Nat) : Field := ⟨(0x1C + p), 0x18, 4, 4, .ro, 0, .any, false⟩
/-- Table 16-6: NET.STATUS.LINK, RO. -/
def NET_STATUS_LINK (p : Nat) : Field := ⟨(0x1C + p), 0x18, 3, 3, .ro, 0, .any, false⟩
/-- Table 16-6: NET.STATUS.PAUSED, RO. -/
def NET_STATUS_PAUSED (p : Nat) : Field := ⟨(0x1C + p), 0x18, 2, 2, .ro, 0, .any, false⟩
/-- Table 16-6: NET.STATUS.FSTATE, RO. -/
def NET_STATUS_FSTATE (p : Nat) : Field := ⟨(0x1C + p), 0x18, 1, 0, .ro, 0, .any, false⟩
/-- Table 16-6: NET.CFG.MTU, RWS. -/
def NET_CFG_MTU (p : Nat) : Field := ⟨(0x1C + p), 0x100, 47, 32, .rws, 0x2328, .any, false⟩
/-- Table 16-6: NET.CFG.VLAN_ID, RWS. -/
def NET_CFG_VLAN_ID (p : Nat) : Field := ⟨(0x1C + p), 0x100, 27, 16, .rws, 0, .any, false⟩
/-- Table 16-6: NET.CFG.VLAN_PRI, RWS. -/
def NET_CFG_VLAN_PRI (p : Nat) : Field := ⟨(0x1C + p), 0x100, 15, 13, .rws, 0, .any, false⟩
/-- Table 16-6: NET.CFG.VLAN_EN, RWS. -/
def NET_CFG_VLAN_EN (p : Nat) : Field := ⟨(0x1C + p), 0x100, 12, 12, .rws, 0, .any, false⟩
/-- Table 16-6: NET.CFG.TX_EQ, RWS. -/
def NET_CFG_TX_EQ (p : Nat) : Field := ⟨(0x1C + p), 0x100, 11, 8, .rws, 4, .any, false⟩
/-- Table 16-6: NET.CFG.PAUSE_RX, RWS. -/
def NET_CFG_PAUSE_RX (p : Nat) : Field := ⟨(0x1C + p), 0x100, 2, 2, .rws, 1, .any, false⟩
/-- Table 16-6: NET.CFG.FEC, RWS. -/
def NET_CFG_FEC (p : Nat) : Field := ⟨(0x1C + p), 0x100, 1, 1, .rws, 1, .any, false⟩
/-- Table 16-6: NET.CFG.SPEED, RWS. -/
def NET_CFG_SPEED (p : Nat) : Field := ⟨(0x1C + p), 0x100, 0, 0, .rws, 0, .any, false⟩
/-- Table 16-6: NET.MAC.ADDR, RWS, reset column "config". -/
def NET_MAC_ADDR (p : Nat) : Field := ⟨(0x1C + p), 0x108, 47, 0, .rws, 0, .any, false⟩
/-- Table 16-6: NET.IPV4.DHCP, RWS. -/
def NET_IPV4_DHCP (p : Nat) : Field := ⟨(0x1C + p), 0x110, 40, 40, .rws, 0, .any, false⟩
/-- Table 16-6: NET.IPV4.PREFIX, RWS. -/
def NET_IPV4_PREFIX (p : Nat) : Field := ⟨(0x1C + p), 0x110, 37, 32, .rws, 24, .any, false⟩
/-- Table 16-6: NET.IPV4.ADDR, RWS. -/
def NET_IPV4_ADDR (p : Nat) : Field := ⟨(0x1C + p), 0x110, 31, 0, .rws, 0, .any, false⟩
/-- Table 16-6: NET.IPV4_GW.ADDR, RWS. -/
def NET_IPV4_GW_ADDR (p : Nat) : Field := ⟨(0x1C + p), 0x118, 31, 0, .rws, 0, .any, false⟩
/-- Table 16-6: NET.IPV4_LEASE.ADDR, RO. -/
def NET_IPV4_LEASE_ADDR (p : Nat) : Field := ⟨(0x1C + p), 0x120, 31, 0, .ro, 0, .any, false⟩
/-- Table 16-6: NET.IPV6_HI.ADDR, RWS. -/
def NET_IPV6_HI_ADDR (p : Nat) : Field := ⟨(0x1C + p), 0x128, 63, 0, .rws, 0, .any, false⟩
/-- Table 16-6: NET.IPV6_LO.ADDR, RWS. -/
def NET_IPV6_LO_ADDR (p : Nat) : Field := ⟨(0x1C + p), 0x130, 63, 0, .rws, 0, .any, false⟩
/-- Table 16-6: NET.IPV6_CFG.PREFIX, RWS. -/
def NET_IPV6_CFG_PREFIX (p : Nat) : Field := ⟨(0x1C + p), 0x138, 7, 0, .rws, 64, .any, false⟩
/-- Table 16-6: NET.RX_BYTES.COUNT, RO. -/
def NET_RX_BYTES_COUNT (p : Nat) : Field := ⟨(0x1C + p), 0x140, 63, 0, .ro, 0, .any, false⟩
/-- Table 16-6: NET.TX_BYTES.COUNT, RO. -/
def NET_TX_BYTES_COUNT (p : Nat) : Field := ⟨(0x1C + p), 0x148, 63, 0, .ro, 0, .any, false⟩
/-- Table 16-6: NET.RX_ERR.FEC_UNCORR, RO. -/
def NET_RX_ERR_FEC_UNCORR (p : Nat) : Field := ⟨(0x1C + p), 0x150, 63, 48, .ro, 0, .any, false⟩
/-- Table 16-6: NET.RX_ERR.LENGTH, RO. -/
def NET_RX_ERR_LENGTH (p : Nat) : Field := ⟨(0x1C + p), 0x150, 47, 32, .ro, 0, .any, false⟩
/-- Table 16-6: NET.RX_ERR.FCS, RO. -/
def NET_RX_ERR_FCS (p : Nat) : Field := ⟨(0x1C + p), 0x150, 31, 16, .ro, 0, .any, false⟩
/-- Table 16-6: NET.RX_ERR.DROPPED, RO. -/
def NET_RX_ERR_DROPPED (p : Nat) : Field := ⟨(0x1C + p), 0x150, 15, 0, .ro, 0, .any, false⟩
/-- Table 16-6: NET.FEC_CORR.COUNT, RO. -/
def NET_FEC_CORR_COUNT (p : Nat) : Field := ⟨(0x1C + p), 0x158, 63, 0, .ro, 0, .any, false⟩
/-- Table 16-6: NET.PAUSE.COUNT, RO. -/
def NET_PAUSE_COUNT (p : Nat) : Field := ⟨(0x1C + p), 0x160, 31, 0, .ro, 0, .any, false⟩
/-- Table 16-6: NET.CLR.GO, WO. -/
def NET_CLR_GO (p : Nat) : Field := ⟨(0x1C + p), 0x168, 0, 0, .wo, 0, .any, false⟩
/-- Table 16-7: NVTCP.CTL.EN, RW. -/
def NVTCP_CTL_EN : Field := ⟨0x1e, 0x10, 0, 0, .rw, 1, .any, true⟩
/-- Table 16-7: NVTCP.STATUS.CLOSING, RO. -/
def NVTCP_STATUS_CLOSING : Field := ⟨0x1e, 0x18, 16, 16, .ro, 0, .any, false⟩
/-- Table 16-7: NVTCP.STATUS.DISC_CTRLS, RO. -/
def NVTCP_STATUS_DISC_CTRLS : Field := ⟨0x1e, 0x18, 14, 12, .ro, 0, .any, false⟩
/-- Table 16-7: NVTCP.STATUS.IO_CTRLS, RO. -/
def NVTCP_STATUS_IO_CTRLS : Field := ⟨0x1e, 0x18, 10, 8, .ro, 0, .any, false⟩
/-- Table 16-7: NVTCP.STATUS.CONNS, RO. -/
def NVTCP_STATUS_CONNS : Field := ⟨0x1e, 0x18, 5, 0, .ro, 0, .any, false⟩
/-- Table 16-7: NVTCP.CFG.MAX_QSIZE, RWS. -/
def NVTCP_CFG_MAX_QSIZE : Field := ⟨0x1e, 0x100, 57, 48, .rws, 0x3ff, .any, false⟩
/-- Table 16-7: NVTCP.CFG.STREAM, RWS. -/
def NVTCP_CFG_STREAM : Field := ⟨0x1e, 0x100, 47, 40, .rws, 254, .any, false⟩
/-- Table 16-7: NVTCP.CFG.DDGST_OK, RWS. -/
def NVTCP_CFG_DDGST_OK : Field := ⟨0x1e, 0x100, 33, 33, .rws, 1, .any, false⟩
/-- Table 16-7: NVTCP.CFG.HDGST_OK, RWS. -/
def NVTCP_CFG_HDGST_OK : Field := ⟨0x1e, 0x100, 32, 32, .rws, 1, .any, false⟩
/-- Table 16-7: NVTCP.CFG.DISC_PORT, RWS. -/
def NVTCP_CFG_DISC_PORT : Field := ⟨0x1e, 0x100, 31, 16, .rws, 0x1f49, .any, false⟩
/-- Table 16-7: NVTCP.CFG.IO_PORT, RWS. -/
def NVTCP_CFG_IO_PORT : Field := ⟨0x1e, 0x100, 15, 0, .rws, 0x1144, .any, false⟩
/-- Table 16-7: NVTCP.WPOL.VERIFIED_ONLY, RWS. -/
def NVTCP_WPOL_VERIFIED_ONLY : Field := ⟨0x1e, 0x108, 18, 18, .rws, 0, .any, false⟩
/-- Table 16-7: NVTCP.WPOL.DOCK_EN, RWS. -/
def NVTCP_WPOL_DOCK_EN : Field := ⟨0x1e, 0x108, 17, 17, .rws, 0, .any, false⟩
/-- Table 16-7: NVTCP.WPOL.CAMERA_EN, RWS. -/
def NVTCP_WPOL_CAMERA_EN : Field := ⟨0x1e, 0x108, 16, 16, .rws, 0, .any, false⟩
/-- Table 16-7: NVTCP.WPOL.NS_MASK, RWS. -/
def NVTCP_WPOL_NS_MASK : Field := ⟨0x1e, 0x108, 15, 0, .rws, 0, .any, false⟩
/-- Table 16-7: NVTCP.VERIFY_CFG.HOLD_KIB, RWS. -/
def NVTCP_VERIFY_CFG_HOLD_KIB : Field := ⟨0x1e, 0x110, 28, 16, .rws, 0x400, .any, false⟩
/-- Table 16-7: NVTCP.VERIFY_CFG.VCMD_EN, RWS. -/
def NVTCP_VERIFY_CFG_VCMD_EN : Field := ⟨0x1e, 0x110, 1, 1, .rws, 1, .any, false⟩
/-- Table 16-7: NVTCP.VERIFY_CFG.EN, RWS. -/
def NVTCP_VERIFY_CFG_EN : Field := ⟨0x1e, 0x110, 0, 0, .rws, 1, .any, false⟩
/-- Table 16-7: NVTCP.CONN.ACCEPTED, RO. -/
def NVTCP_CONN_ACCEPTED : Field := ⟨0x1e, 0x118, 63, 32, .ro, 0, .any, false⟩
/-- Table 16-7: NVTCP.CONN.REFUSED, RO. -/
def NVTCP_CONN_REFUSED : Field := ⟨0x1e, 0x118, 31, 0, .ro, 0, .any, false⟩
/-- Table 16-7: NVTCP.DIGEST.DATA, RO. -/
def NVTCP_DIGEST_DATA : Field := ⟨0x1e, 0x120, 63, 32, .ro, 0, .any, false⟩
/-- Table 16-7: NVTCP.DIGEST.HEADER, RO. -/
def NVTCP_DIGEST_HEADER : Field := ⟨0x1e, 0x120, 31, 0, .ro, 0, .any, false⟩
/-- Table 16-7: NVTCP.OUTCOMES.INCOMPLETE, RO. -/
def NVTCP_OUTCOMES_INCOMPLETE : Field := ⟨0x1e, 0x128, 63, 48, .ro, 0, .any, false⟩
/-- Table 16-7: NVTCP.OUTCOMES.UNREADABLE, RO. -/
def NVTCP_OUTCOMES_UNREADABLE : Field := ⟨0x1e, 0x128, 47, 32, .ro, 0, .any, false⟩
/-- Table 16-7: NVTCP.OUTCOMES.MISMATCH, RO. -/
def NVTCP_OUTCOMES_MISMATCH : Field := ⟨0x1e, 0x128, 31, 16, .ro, 0, .any, false⟩
/-- Table 16-7: NVTCP.OUTCOMES.MATCH, RO. -/
def NVTCP_OUTCOMES_MATCH : Field := ⟨0x1e, 0x128, 15, 0, .ro, 0, .any, false⟩
/-- Table 16-7: NVTCP.HASHED.BYTES, RO. -/
def NVTCP_HASHED_BYTES : Field := ⟨0x1e, 0x130, 63, 0, .ro, 0, .any, false⟩
/-- Table 16-7: NVTCP.CONTEXTS.PORT1, RO. -/
def NVTCP_CONTEXTS_PORT1 : Field := ⟨0x1e, 0x138, 14, 8, .ro, 0, .any, false⟩
/-- Table 16-7: NVTCP.CONTEXTS.PORT0, RO. -/
def NVTCP_CONTEXTS_PORT0 : Field := ⟨0x1e, 0x138, 6, 0, .ro, 0, .any, false⟩
/-- Table 16-7: NVTCP.TAKES.TRACKED, RO. -/
def NVTCP_TAKES_TRACKED : Field := ⟨0x1e, 0x140, 31, 16, .ro, 0, .any, false⟩
/-- Table 16-7: NVTCP.TAKES.DECLARED, RO. -/
def NVTCP_TAKES_DECLARED : Field := ⟨0x1e, 0x140, 15, 0, .ro, 0, .any, false⟩
/-- Table 16-7: NVTCP.CLR.GO, WO. -/
def NVTCP_CLR_GO : Field := ⟨0x1e, 0x148, 0, 0, .wo, 0, .any, false⟩
/-- Table 17-8: MBX.STATUS.P_LOST, RO. -/
def MBX_STATUS_P_LOST : Field := ⟨0xd, 0x18, 63, 32, .ro, 0, .any, false⟩
/-- Table 17-8: MBX.STATUS.P_UP, RO. -/
def MBX_STATUS_P_UP : Field := ⟨0xd, 0x18, 1, 1, .ro, 0, .any, false⟩
/-- Table 17-8: MBX.STATUS.H_OWNER, RO. -/
def MBX_STATUS_H_OWNER : Field := ⟨0xd, 0x18, 0, 0, .ro, 1, .any, false⟩
/-- Table 17-9: MBX.RING, WO. -/
def MBX_RING (d : Nat) : Field := ⟨0xd, (0x100 * (d + 1) + 0x0), 31, 0, .wo, 0, .any, false⟩
/-- Table 17-9: MBX.DB, W1C. -/
def MBX_DB (d : Nat) : Field := ⟨0xd, (0x100 * (d + 1) + 0x8), 31, 0, .w1c, 0, .any, true⟩
/-- Table 17-9: MBX.MASK, RW. -/
def MBX_MASK (d : Nat) : Field := ⟨0xd, (0x100 * (d + 1) + 0x10), 31, 0, .rw, 0xffffffff, .any, false⟩
/-- Table 17-9: MBX.BLK_STATE.POSTER, RO. -/
def MBX_BLK_STATE_POSTER (d : Nat) : Field := ⟨0xd, (0x100 * (d + 1) + 0x18), 9, 8, .ro, 0, .any, false⟩
/-- Table 17-9: MBX.BLK_STATE.STATE, RO. -/
def MBX_BLK_STATE_STATE (d : Nat) : Field := ⟨0xd, (0x100 * (d + 1) + 0x18), 1, 0, .ro, 0, .any, false⟩
/-- Table 17-9: MBX.BLK_CTL.RELEASE, WO. -/
def MBX_BLK_CTL_RELEASE (d : Nat) : Field := ⟨0xd, (0x100 * (d + 1) + 0x20), 2, 2, .wo, 0, .any, false⟩
/-- Table 17-9: MBX.BLK_CTL.DONE, WO. -/
def MBX_BLK_CTL_DONE (d : Nat) : Field := ⟨0xd, (0x100 * (d + 1) + 0x20), 1, 1, .wo, 0, .any, false⟩
/-- Table 17-9: MBX.BLK_CTL.GO, WO. -/
def MBX_BLK_CTL_GO (d : Nat) : Field := ⟨0xd, (0x100 * (d + 1) + 0x20), 0, 0, .wo, 0, .any, false⟩
/-- Table 17-9: MBX.Q_PUSH.WORD, WO. -/
def MBX_Q_PUSH_WORD (d : Nat) : Field := ⟨0xd, (0x100 * (d + 1) + 0x28), 63, 0, .wo, 0, .any, false⟩
/-- Table 17-9: MBX.Q_POP.N, WO. -/
def MBX_Q_POP_N (d : Nat) : Field := ⟨0xd, (0x100 * (d + 1) + 0x30), 6, 0, .wo, 0, .any, false⟩
/-- Table 17-9: MBX.Q_HEAD.WORD, RO. -/
def MBX_Q_HEAD_WORD (d : Nat) : Field := ⟨0xd, (0x100 * (d + 1) + 0x38), 63, 0, .ro, 0, .any, false⟩
/-- Table 17-9: MBX.Q_STATE.PUSH_REFUSED, RO. -/
def MBX_Q_STATE_PUSH_REFUSED (d : Nat) : Field := ⟨0xd, (0x100 * (d + 1) + 0x40), 47, 32, .ro, 0, .any, false⟩
/-- Table 17-9: MBX.Q_STATE.COUNT, RO. -/
def MBX_Q_STATE_COUNT (d : Nat) : Field := ⟨0xd, (0x100 * (d + 1) + 0x40), 6, 0, .ro, 0, .any, false⟩
/-- Table 17-9: MBX.BUSY_CNT.COUNT, RO. -/
def MBX_BUSY_CNT_COUNT (d : Nat) : Field := ⟨0xd, (0x100 * (d + 1) + 0x48), 15, 0, .ro, 0, .any, false⟩
/-- Table 17-9: MBX.BLK.WORD, RW. -/
def MBX_BLK_WORD (d : Nat) (k : Nat) : Field := ⟨0xd, (0x100 * (d + 1) + 0x80 + 8 * k), 63, 0, .rw, 0, .any, false⟩
/-- Table 17-11: SDMA.BYTES.COUNT, RO. -/
def SDMA_BYTES_COUNT : Field := ⟨0xe, 0x100, 63, 0, .ro, 0, .any, false⟩
/-- Table 17-11: SDMA.ERRORS.COUNT, RO. -/
def SDMA_ERRORS_COUNT : Field := ⟨0xe, 0x108, 31, 0, .ro, 0, .any, false⟩
/-- Table 17-11: SDMA.CLR.GO, WO. -/
def SDMA_CLR_GO : Field := ⟨0xe, 0x110, 0, 0, .wo, 0, .any, false⟩
/-- Table 17-11: SDMA.CTL.SNOOP, RW. -/
def SDMA_CTL_SNOOP (n : Nat) : Field := ⟨0xe, (0x200 + 0x40 * n + 0x0), 4, 4, .rw, 0, .any, false⟩
/-- Table 17-11: SDMA.CTL.MODE, RW. -/
def SDMA_CTL_MODE (n : Nat) : Field := ⟨0xe, (0x200 + 0x40 * n + 0x0), 2, 2, .rw, 0, .any, false⟩
/-- Table 17-11: SDMA.CTL.PAUSE, RW. -/
def SDMA_CTL_PAUSE (n : Nat) : Field := ⟨0xe, (0x200 + 0x40 * n + 0x0), 1, 1, .rw, 0, .any, true⟩
/-- Table 17-11: SDMA.CTL.EN, RW. -/
def SDMA_CTL_EN (n : Nat) : Field := ⟨0xe, (0x200 + 0x40 * n + 0x0), 0, 0, .rw, 0, .any, true⟩
/-- Table 17-11: SDMA.STATUS.OWNER, RO. -/
def SDMA_STATUS_OWNER (n : Nat) : Field := ⟨0xe, (0x200 + 0x40 * n + 0x8), 17, 16, .ro, 0, .any, false⟩
/-- Table 17-11: SDMA.STATUS.ERR, RO. -/
def SDMA_STATUS_ERR (n : Nat) : Field := ⟨0xe, (0x200 + 0x40 * n + 0x8), 11, 8, .ro, 0, .any, false⟩
/-- Table 17-11: SDMA.STATUS.RUN, RO. -/
def SDMA_STATUS_RUN (n : Nat) : Field := ⟨0xe, (0x200 + 0x40 * n + 0x8), 6, 4, .ro, 0, .any, false⟩
/-- Table 17-11: SDMA.STATUS.REENABLE_PENDING, RO. -/
def SDMA_STATUS_REENABLE_PENDING (n : Nat) : Field := ⟨0xe, (0x200 + 0x40 * n + 0x8), 2, 2, .ro, 0, .any, false⟩
/-- Table 17-11: SDMA.STATUS.FSTATE, RO. -/
def SDMA_STATUS_FSTATE (n : Nat) : Field := ⟨0xe, (0x200 + 0x40 * n + 0x8), 1, 0, .ro, 0, .any, false⟩
/-- Table 17-11: SDMA.SRC.ADDR, RW. -/
def SDMA_SRC_ADDR (n : Nat) : Field := ⟨0xe, (0x200 + 0x40 * n + 0x10), 63, 0, .rw, 0, .any, false⟩
/-- Table 17-11: SDMA.DST.ADDR, RW. -/
def SDMA_DST_ADDR (n : Nat) : Field := ⟨0xe, (0x200 + 0x40 * n + 0x18), 63, 0, .rw, 0, .any, false⟩
/-- Table 17-11: SDMA.COUNT.BYTES, RW. -/
def SDMA_COUNT_BYTES (n : Nat) : Field := ⟨0xe, (0x200 + 0x40 * n + 0x20), 31, 0, .rw, 0, .any, false⟩
/-- Table 17-11: SDMA.START.RING_RESET, WO. -/
def SDMA_START_RING_RESET (n : Nat) : Field := ⟨0xe, (0x200 + 0x40 * n + 0x28), 2, 2, .wo, 0, .any, false⟩
/-- Table 17-11: SDMA.START.KICK, WO. -/
def SDMA_START_KICK (n : Nat) : Field := ⟨0xe, (0x200 + 0x40 * n + 0x28), 1, 1, .wo, 0, .any, false⟩
/-- Table 17-11: SDMA.START.GO, WO. -/
def SDMA_START_GO (n : Nat) : Field := ⟨0xe, (0x200 + 0x40 * n + 0x28), 0, 0, .wo, 0, .any, false⟩
/-- Table 17-11: SDMA.DESC_BASE.ADDR, RW. -/
def SDMA_DESC_BASE_ADDR (n : Nat) : Field := ⟨0xe, (0x200 + 0x40 * n + 0x30), 63, 0, .rw, 0, .any, false⟩
/-- Table 17-11: SDMA.DESC_CFG.HEAD, RO. -/
def SDMA_DESC_CFG_HEAD (n : Nat) : Field := ⟨0xe, (0x200 + 0x40 * n + 0x38), 28, 16, .ro, 0, .any, false⟩
/-- Table 17-11: SDMA.DESC_CFG.N, RW. -/
def SDMA_DESC_CFG_N (n : Nat) : Field := ⟨0xe, (0x200 + 0x40 * n + 0x38), 12, 0, .rw, 1, .rng 1 4096, false⟩
/-- Table 17-12: CRCU.CFG.CMP, RW. -/
def CRCU_CFG_CMP (n : Nat) : Field := ⟨0xf, (0x100 + 0x80 * n + 0x0), 16, 16, .rw, 0, .any, true⟩
/-- Table 17-12: CRCU.CFG.CHAN, RW. -/
def CRCU_CFG_CHAN (n : Nat) : Field := ⟨0xf, (0x100 + 0x80 * n + 0x0), 14, 12, .rw, 0, .any, true⟩
/-- Table 17-12: CRCU.CFG.SRC, RW. -/
def CRCU_CFG_SRC (n : Nat) : Field := ⟨0xf, (0x100 + 0x80 * n + 0x0), 11, 8, .rw, 0, .any, true⟩
/-- Table 17-12: CRCU.CFG.POLY, RW. -/
def CRCU_CFG_POLY (n : Nat) : Field := ⟨0xf, (0x100 + 0x80 * n + 0x0), 5, 4, .rw, 0, .any, true⟩
/-- Table 17-12: CRCU.CFG.EN, RW. -/
def CRCU_CFG_EN (n : Nat) : Field := ⟨0xf, (0x100 + 0x80 * n + 0x0), 0, 0, .rw, 0, .any, true⟩
/-- Table 17-12: CRCU.ACC, RW. -/
def CRCU_ACC (n : Nat) : Field := ⟨0xf, (0x100 + 0x80 * n + 0x8), 63, 0, .rw, 0xffffffff, .any, true⟩
/-- Table 17-12: CRCU.RESULT, RO. -/
def CRCU_RESULT (n : Nat) : Field := ⟨0xf, (0x100 + 0x80 * n + 0x10), 63, 0, .ro, 0, .any, false⟩
/-- Table 17-12: CRCU.CLEAR.GO, WO. -/
def CRCU_CLEAR_GO (n : Nat) : Field := ⟨0xf, (0x100 + 0x80 * n + 0x18), 0, 0, .wo, 0, .any, false⟩
/-- Table 17-12: CRCU.FEED.DATA, WO. -/
def CRCU_FEED_DATA (n : Nat) : Field := ⟨0xf, (0x100 + 0x80 * n + 0x20), 63, 0, .wo, 0, .any, false⟩
/-- Table 17-12: CRCU.FEED_PART.DATA, WO. -/
def CRCU_FEED_PART_DATA (n : Nat) : Field := ⟨0xf, (0x100 + 0x80 * n + 0x28), 58, 0, .wo, 0, .any, false⟩
/-- Table 17-12: CRCU.LIMIT.BYTES, RW. -/
def CRCU_LIMIT_BYTES (n : Nat) : Field := ⟨0xf, (0x100 + 0x80 * n + 0x30), 47, 0, .rw, 0, .any, false⟩
/-- Table 17-12: CRCU.EXPECT.VALUE, RW. -/
def CRCU_EXPECT_VALUE (n : Nat) : Field := ⟨0xf, (0x100 + 0x80 * n + 0x38), 63, 0, .rw, 0, .any, false⟩
/-- Table 17-12: CRCU.BYTES.COUNT, RO. -/
def CRCU_BYTES_COUNT (n : Nat) : Field := ⟨0xf, (0x100 + 0x80 * n + 0x40), 47, 0, .ro, 0, .any, false⟩
/-- Table 18-9: SEC.STATUS.SANITIZING, RO. -/
def SEC_STATUS_SANITIZING : Field := ⟨0x7, 0x18, 14, 14, .ro, 0, .any, false⟩
/-- Table 18-9: SEC.STATUS.TAMPER_LATCHED, RO. -/
def SEC_STATUS_TAMPER_LATCHED : Field := ⟨0x7, 0x18, 13, 13, .ro, 0, .any, false⟩
/-- Table 18-9: SEC.STATUS.RECOVERY_SET, RO, reset column "config". -/
def SEC_STATUS_RECOVERY_SET : Field := ⟨0x7, 0x18, 12, 12, .ro, 0, .any, false⟩
/-- Table 18-9: SEC.STATUS.CARRY_HOURS, RO, reset column "config". -/
def SEC_STATUS_CARRY_HOURS : Field := ⟨0x7, 0x18, 11, 8, .ro, 0, .any, false⟩
/-- Table 18-9: SEC.STATUS.CARRY_OK, RO, reset column "config". -/
def SEC_STATUS_CARRY_OK : Field := ⟨0x7, 0x18, 6, 6, .ro, 0, .any, false⟩
/-- Table 18-9: SEC.STATUS.CARRY_ARMED, RO. -/
def SEC_STATUS_CARRY_ARMED : Field := ⟨0x7, 0x18, 5, 5, .ro, 0, .any, false⟩
/-- Table 18-9: SEC.STATUS.OWNER_SET, RO, reset column "config". -/
def SEC_STATUS_OWNER_SET : Field := ⟨0x7, 0x18, 4, 4, .ro, 0, .any, false⟩
/-- Table 18-9: SEC.STATUS.STATE, RO. -/
def SEC_STATUS_STATE : Field := ⟨0x7, 0x18, 2, 0, .ro, 3, .any, false⟩
/-- Table 18-9: SEC.ATTEMPTS.RECOVERY_LEFT, RO, reset column "config". -/
def SEC_ATTEMPTS_RECOVERY_LEFT : Field := ⟨0x7, 0x100, 11, 8, .ro, 0, .any, false⟩
/-- Table 18-9: SEC.ATTEMPTS.OWNER_LEFT, RO, reset column "config". -/
def SEC_ATTEMPTS_OWNER_LEFT : Field := ⟨0x7, 0x100, 3, 0, .ro, 0, .any, false⟩
/-- Table 18-9: SEC.TAMPER_CFG.EN, RW, reset column "config". -/
def SEC_TAMPER_CFG_EN : Field := ⟨0x7, 0x108, 8, 8, .rw, 0, .any, false⟩
/-- Table 18-9: SEC.TAMPER_CFG.ACTION, RW, reset column "config". -/
def SEC_TAMPER_CFG_ACTION : Field := ⟨0x7, 0x108, 1, 0, .rw, 0, .rng 0 2, false⟩
/-- Table 18-9: SEC.TAMPER_LOG.KEEP_SEC, RO. -/
def SEC_TAMPER_LOG_KEEP_SEC : Field := ⟨0x7, 0x110, 63, 16, .ro, 0, .any, false⟩
/-- Table 18-9: SEC.TAMPER_LOG.COUNT, RO, reset column "config". -/
def SEC_TAMPER_LOG_COUNT : Field := ⟨0x7, 0x110, 15, 0, .ro, 0, .any, false⟩
/-- Table 18-9: SEC.CARRY.RESTORES, RO, reset column "config". -/
def SEC_CARRY_RESTORES : Field := ⟨0x7, 0x118, 47, 32, .ro, 0, .any, false⟩
/-- Table 18-9: SEC.CARRY.SECONDS_LEFT, RO. -/
def SEC_CARRY_SECONDS_LEFT : Field := ⟨0x7, 0x118, 31, 0, .ro, 0, .any, false⟩
/-- Table 18-9: SEC.LOCK_MAP0.MAP, RW, reset column "config". -/
def SEC_LOCK_MAP0_MAP : Field := ⟨0x7, 0x120, 63, 0, .rw, 0, .any, false⟩
/-- Table 18-9: SEC.LOCK_MAP1.MAP, RW, reset column "config". -/
def SEC_LOCK_MAP1_MAP : Field := ⟨0x7, 0x128, 31, 0, .rw, 0, .any, false⟩
/-- Table 18-9: SEC.LOCKED_WRITES.COUNT, RO. -/
def SEC_LOCKED_WRITES_COUNT : Field := ⟨0x7, 0x130, 31, 0, .ro, 0, .any, false⟩
/-- Table 18-9: SEC.CRED_FAILS.COUNT, RO. -/
def SEC_CRED_FAILS_COUNT : Field := ⟨0x7, 0x138, 31, 0, .ro, 0, .any, false⟩
/-- Table 18-9: SEC.KEY_LOADED.ALL, RO. -/
def SEC_KEY_LOADED_ALL : Field := ⟨0x7, 0x140, 0, 0, .ro, 0, .any, false⟩
/-- Table 18-9: SEC.CLR.GO, WO. -/
def SEC_CLR_GO : Field := ⟨0x7, 0x148, 0, 0, .wo, 0, .any, false⟩
/-- Table 18-11: DBG.STATUS.CHAL_VALID, RO. -/
def DBG_STATUS_CHAL_VALID : Field := ⟨0x8, 0x18, 8, 8, .ro, 0, .any, false⟩
/-- Table 18-11: DBG.STATUS.AUTHORITY, RO. -/
def DBG_STATUS_AUTHORITY : Field := ⟨0x8, 0x18, 3, 2, .ro, 0, .any, false⟩
/-- Table 18-11: DBG.STATUS.LEVEL, RO. -/
def DBG_STATUS_LEVEL : Field := ⟨0x8, 0x18, 1, 0, .ro, 0, .any, false⟩
/-- Table 18-11: DBG.REQ.DROP, WO. -/
def DBG_REQ_DROP : Field := ⟨0x8, 0x100, 1, 1, .wo, 0, .any, false⟩
/-- Table 18-11: DBG.REQ.NEW_CHAL, WO. -/
def DBG_REQ_NEW_CHAL : Field := ⟨0x8, 0x100, 0, 0, .wo, 0, .any, false⟩
/-- Table 18-11: DBG.CHAL, RO. -/
def DBG_CHAL (k : Nat) : Field := ⟨0x8, (0x108 + 8 * k), 63, 0, .ro, 0, .any, false⟩
/-- Table 18-11: DBG.RESP_HDR.LIFETIME_S, RW. -/
def DBG_RESP_HDR_LIFETIME_S : Field := ⟨0x8, 0x138, 63, 32, .rw, 0, .any, false⟩
/-- Table 18-11: DBG.RESP_HDR.AUTHORITY, RW. -/
def DBG_RESP_HDR_AUTHORITY : Field := ⟨0x8, 0x138, 9, 8, .rw, 0, .any, false⟩
/-- Table 18-11: DBG.RESP_HDR.LEVEL, RW. -/
def DBG_RESP_HDR_LEVEL : Field := ⟨0x8, 0x138, 1, 0, .rw, 0, .any, false⟩
/-- Table 18-11: DBG.RESP.SIG, RW. -/
def DBG_RESP_SIG (k : Nat) : Field := ⟨0x8, (0x140 + 8 * k), 63, 0, .rw, 0, .any, false⟩
/-- Table 18-11: DBG.SUBMIT.GO, WO. -/
def DBG_SUBMIT_GO : Field := ⟨0x8, 0x1a0, 0, 0, .wo, 0, .any, false⟩
/-- Table 18-11: DBG.SESSION.SECONDS_LEFT, RO. -/
def DBG_SESSION_SECONDS_LEFT : Field := ⟨0x8, 0x1a8, 31, 0, .ro, 0, .any, false⟩
/-- Table 18-11: DBG.FAILS.COUNT, RO. -/
def DBG_FAILS_COUNT : Field := ⟨0x8, 0x1b0, 15, 0, .ro, 0, .any, false⟩
/-- Table 19-8: CODE.STATUS.DEFERRING, RO. -/
def CODE_STATUS_DEFERRING : Field := ⟨0x9, 0x18, 12, 12, .ro, 0, .any, false⟩
/-- Table 19-8: CODE.STATUS.ERR, RO. -/
def CODE_STATUS_ERR : Field := ⟨0x9, 0x18, 11, 8, .ro, 0, .any, false⟩
/-- Table 19-8: CODE.STATUS.OP, RO. -/
def CODE_STATUS_OP : Field := ⟨0x9, 0x18, 6, 4, .ro, 0, .any, false⟩
/-- Table 19-8: CODE.STATUS.ARMED, RO. -/
def CODE_STATUS_ARMED : Field := ⟨0x9, 0x18, 1, 1, .ro, 0, .any, false⟩
/-- Table 19-8: CODE.STATUS.BUSY, RO. -/
def CODE_STATUS_BUSY : Field := ⟨0x9, 0x18, 0, 0, .ro, 0, .any, false⟩
/-- Table 19-8: CODE.UNLOCK_A.KEY, WO. -/
def CODE_UNLOCK_A_KEY : Field := ⟨0x9, 0x100, 15, 0, .wo, 0, .any, false⟩
/-- Table 19-8: CODE.UNLOCK_B.KEY, WO. -/
def CODE_UNLOCK_B_KEY : Field := ⟨0x9, 0x108, 15, 0, .wo, 0, .any, false⟩
/-- Table 19-8: CODE.ADDR, RW. -/
def CODE_ADDR : Field := ⟨0x9, 0x110, 24, 0, .rw, 0, .any, false⟩
/-- Table 19-8: CODE.CMD.OP, WO. -/
def CODE_CMD_OP : Field := ⟨0x9, 0x118, 2, 0, .wo, 0, .any, false⟩
/-- Table 19-8: CODE.RESULT.VALUE, RO. -/
def CODE_RESULT_VALUE : Field := ⟨0x9, 0x120, 31, 0, .ro, 0, .any, false⟩
/-- Table 19-8: CODE.EC_SEL.SECTOR, RW. -/
def CODE_EC_SEL_SECTOR : Field := ⟨0x9, 0x128, 8, 0, .rw, 0, .any, false⟩
/-- Table 19-8: CODE.OPS.ERASES, RO. -/
def CODE_OPS_ERASES : Field := ⟨0x9, 0x140, 63, 32, .ro, 0, .any, false⟩
/-- Table 19-8: CODE.OPS.PROGRAMS, RO. -/
def CODE_OPS_PROGRAMS : Field := ⟨0x9, 0x140, 31, 0, .ro, 0, .any, false⟩
/-- Table 19-8: CODE.DATA, RW. -/
def CODE_DATA (k : Nat) : Field := ⟨0x9, (0x200 + 8 * k), 63, 0, .rw, 0, .any, false⟩
/-- Table 19-10: UPD.STATUS.LAST_FAIL, RO. -/
def UPD_STATUS_LAST_FAIL : Field := ⟨0xa, 0x18, 23, 20, .ro, 0, .any, false⟩
/-- Table 19-10: UPD.STATUS.PHASE, RO. -/
def UPD_STATUS_PHASE : Field := ⟨0xa, 0x18, 13, 12, .ro, 0, .any, false⟩
/-- Table 19-10: UPD.STATUS.PENDING, RO, reset column "journal". -/
def UPD_STATUS_PENDING : Field := ⟨0xa, 0x18, 10, 8, .ro, 0, .any, false⟩
/-- Table 19-10: UPD.STATUS.REVERTED, RO. -/
def UPD_STATUS_REVERTED : Field := ⟨0xa, 0x18, 5, 5, .ro, 0, .any, false⟩
/-- Table 19-10: UPD.STATUS.TRIAL, RO, reset column "journal". -/
def UPD_STATUS_TRIAL : Field := ⟨0xa, 0x18, 4, 4, .ro, 0, .any, false⟩
/-- Table 19-10: UPD.STATUS.BOOTED, RO. -/
def UPD_STATUS_BOOTED : Field := ⟨0xa, 0x18, 3, 2, .ro, 0, .any, false⟩
/-- Table 19-10: UPD.STATUS.ACTIVE, RO, reset column "journal". -/
def UPD_STATUS_ACTIVE : Field := ⟨0xa, 0x18, 0, 0, .ro, 0, .any, false⟩
/-- Table 19-10: UPD.CFG.LOCKED_OK, RWL, reset column "config". -/
def UPD_CFG_LOCKED_OK : Field := ⟨0xa, 0x100, 32, 32, .rwl, 0, .any, false⟩
/-- Table 19-10: UPD.CFG.RESERVE_UJ, RWL, reset column "config" (unconfigured). -/
def UPD_CFG_RESERVE_UJ : Field := ⟨0xa, 0x100, 23, 0, .rwl, 0x4e20, .any, false⟩
/-- Table 19-10: UPD.SUPPLY.STATE, RW. -/
def UPD_SUPPLY_STATE : Field := ⟨0xa, 0x108, 1, 0, .rw, 0, .rng 0 2, false⟩
/-- Table 19-10: UPD.STAGED0.PRESENT, RO, reset column "found". -/
def UPD_STAGED0_PRESENT : Field := ⟨0xa, 0x110, 63, 0, .ro, 0, .any, false⟩
/-- Table 19-10: UPD.STAGED1.PRESENT, RO, reset column "found". -/
def UPD_STAGED1_PRESENT : Field := ⟨0xa, 0x118, 63, 0, .ro, 0, .any, false⟩
/-- Table 19-10: UPD.DL_ID.IMAGE_ID, RO, reset column "found". -/
def UPD_DL_ID_IMAGE_ID : Field := ⟨0xa, 0x120, 63, 0, .ro, 0, .any, false⟩
/-- Table 19-10: UPD.DL_INFO.KIND, RO, reset column "found". -/
def UPD_DL_INFO_KIND : Field := ⟨0xa, 0x128, 17, 16, .ro, 0, .any, false⟩
/-- Table 19-10: UPD.DL_INFO.COUNT, RO, reset column "found". -/
def UPD_DL_INFO_COUNT : Field := ⟨0xa, 0x128, 7, 0, .ro, 0, .any, false⟩
/-- Table 19-10: UPD.COPY.TOTAL, RO. -/
def UPD_COPY_TOTAL : Field := ⟨0xa, 0x130, 31, 16, .ro, 0, .any, false⟩
/-- Table 19-10: UPD.COPY.DONE, RO. -/
def UPD_COPY_DONE : Field := ⟨0xa, 0x130, 15, 0, .ro, 0, .any, false⟩
/-- Table 19-10: UPD.SLOT_A_ID.IMAGE_ID, RO, reset column "found". -/
def UPD_SLOT_A_ID_IMAGE_ID : Field := ⟨0xa, 0x138, 63, 0, .ro, 0, .any, false⟩
/-- Table 19-10: UPD.SLOT_B_ID.IMAGE_ID, RO, reset column "found". -/
def UPD_SLOT_B_ID_IMAGE_ID : Field := ⟨0xa, 0x140, 63, 0, .ro, 0, .any, false⟩
/-- Table 19-10: UPD.SVN.SLOT_B, RO, reset column "found". -/
def UPD_SVN_SLOT_B : Field := ⟨0xa, 0x148, 22, 16, .ro, 0, .any, false⟩
/-- Table 19-10: UPD.SVN.SLOT_A, RO, reset column "found". -/
def UPD_SVN_SLOT_A : Field := ⟨0xa, 0x148, 14, 8, .ro, 0, .any, false⟩
/-- Table 19-10: UPD.SVN.FUSED, RO, reset column "fuses". -/
def UPD_SVN_FUSED : Field := ⟨0xa, 0x148, 6, 0, .ro, 0, .any, false⟩
/-- Table 19-10: UPD.PARCEL_ERR.OFFSET, RO. -/
def UPD_PARCEL_ERR_OFFSET : Field := ⟨0xa, 0x150, 63, 32, .ro, 0, .any, false⟩
/-- Table 19-10: UPD.PARCEL_ERR.CHECK, RO. -/
def UPD_PARCEL_ERR_CHECK : Field := ⟨0xa, 0x150, 3, 0, .ro, 0, .any, false⟩
/-- Table 19-10: UPD.REFUSALS.COUNT, RO. -/
def UPD_REFUSALS_COUNT : Field := ⟨0xa, 0x158, 31, 0, .ro, 0, .any, false⟩
/-- Table 20-6: BIST.STATUS.SEG_LEFT, RO. -/
def BIST_STATUS_SEG_LEFT : Field := ⟨0xb, 0x18, 31, 16, .ro, 0, .any, false⟩
/-- Table 20-6: BIST.STATUS.FUSING, RO. -/
def BIST_STATUS_FUSING : Field := ⟨0xb, 0x18, 12, 8, .ro, 31, .any, false⟩
/-- Table 20-6: BIST.STATUS.FUSE_BUSY, RO. -/
def BIST_STATUS_FUSE_BUSY : Field := ⟨0xb, 0x18, 1, 1, .ro, 0, .any, false⟩
/-- Table 20-6: BIST.STATUS.RUN_BUSY, RO. -/
def BIST_STATUS_RUN_BUSY : Field := ⟨0xb, 0x18, 0, 0, .ro, 0, .any, false⟩
/-- Table 20-6: BIST.CMD.FUSE_ARRAY, RW. -/
def BIST_CMD_FUSE_ARRAY : Field := ⟨0xb, 0x100, 12, 8, .rw, 0, .any, false⟩
/-- Table 20-6: BIST.CMD.FUSE, WO. -/
def BIST_CMD_FUSE : Field := ⟨0xb, 0x100, 2, 2, .wo, 0, .any, false⟩
/-- Table 20-6: BIST.CMD.ABORT, WO. -/
def BIST_CMD_ABORT : Field := ⟨0xb, 0x100, 1, 1, .wo, 0, .any, false⟩
/-- Table 20-6: BIST.CMD.GO, WO. -/
def BIST_CMD_GO : Field := ⟨0xb, 0x100, 0, 0, .wo, 0, .any, false⟩
/-- Table 20-6: BIST.ARRAY_MASK.MASK, RW. -/
def BIST_ARRAY_MASK_MASK : Field := ⟨0xb, 0x108, 13, 0, .rw, 0x3fff, .any, false⟩
/-- Table 20-6: BIST.RESULT.SKIPPED, RO. -/
def BIST_RESULT_SKIPPED : Field := ⟨0xb, 0x110, 45, 32, .ro, 0, .any, false⟩
/-- Table 20-6: BIST.RESULT.REPAIRED, RO. -/
def BIST_RESULT_REPAIRED : Field := ⟨0xb, 0x110, 29, 16, .ro, 0, .any, false⟩
/-- Table 20-6: BIST.RESULT.FAILED, RO. -/
def BIST_RESULT_FAILED : Field := ⟨0xb, 0x110, 13, 0, .ro, 0, .any, false⟩
/-- Table 20-6: BIST.REPAIR_SEL.ARRAY, RW. -/
def BIST_REPAIR_SEL_ARRAY : Field := ⟨0xb, 0x118, 3, 0, .rw, 0, .any, false⟩
/-- Table 20-6: BIST.COUNTS.REPAIRS, RO. -/
def BIST_COUNTS_REPAIRS : Field := ⟨0xb, 0x128, 63, 32, .ro, 0, .any, false⟩
/-- Table 20-6: BIST.COUNTS.RUNS, RO. -/
def BIST_COUNTS_RUNS : Field := ⟨0xb, 0x128, 31, 0, .ro, 0, .any, false⟩
/-- Table 20-6: BIST.FATAL.CODE, RO, reset column "record". -/
def BIST_FATAL_CODE : Field := ⟨0xb, 0x130, 31, 24, .ro, 0, .any, false⟩
/-- Table 20-6: BIST.FATAL.DETAIL, RO, reset column "record". -/
def BIST_FATAL_DETAIL : Field := ⟨0xb, 0x130, 23, 8, .ro, 0, .any, false⟩
/-- Table 20-6: BIST.FATAL.MODE, RO, reset column "record". -/
def BIST_FATAL_MODE : Field := ⟨0xb, 0x130, 3, 0, .ro, 0, .any, false⟩
/-- Table 20-6: BIST.FATAL_TB.TB, RO, reset column "record". -/
def BIST_FATAL_TB_TB : Field := ⟨0xb, 0x138, 63, 0, .ro, 0, .any, false⟩
/-- Table 20-6: BIST.CLR.GO, WO. -/
def BIST_CLR_GO : Field := ⟨0xb, 0x140, 0, 0, .wo, 0, .any, false⟩
/-- Table 20-7: FI.CTL.EN, RW. -/
def FI_CTL_EN : Field := ⟨0xc, 0x10, 0, 0, .rw, 0, .any, true⟩
/-- Table 20-7: FI.STATUS.PERMITTED, RO. -/
def FI_STATUS_PERMITTED : Field := ⟨0xc, 0x18, 8, 8, .ro, 0, .any, false⟩
/-- Table 20-7: FI.STATUS.ARMED, RO. -/
def FI_STATUS_ARMED : Field := ⟨0xc, 0x18, 6, 0, .ro, 0, .any, false⟩
/-- Table 20-7: FI.CFG.STATE, RO. -/
def FI_CFG_STATE (i : Nat) : Field := ⟨0xc, (0x100 + 0x40 * i + 0x0), 61, 60, .ro, 0, .any, true⟩
/-- Table 20-7: FI.CFG.OPS, RW. -/
def FI_CFG_OPS (i : Nat) : Field := ⟨0xc, (0x100 + 0x40 * i + 0x0), 34, 32, .rw, 7, .any, true⟩
/-- Table 20-7: FI.CFG.TARGET, RW. -/
def FI_CFG_TARGET (i : Nat) : Field := ⟨0xc, (0x100 + 0x40 * i + 0x0), 31, 16, .rw, 0, .any, true⟩
/-- Table 20-7: FI.CFG.ARM, RW. -/
def FI_CFG_ARM (i : Nat) : Field := ⟨0xc, (0x100 + 0x40 * i + 0x0), 4, 4, .rw, 0, .any, true⟩
/-- Table 20-7: FI.CFG.FIX, RW. -/
def FI_CFG_FIX (i : Nat) : Field := ⟨0xc, (0x100 + 0x40 * i + 0x0), 3, 3, .rw, 0, .any, true⟩
/-- Table 20-7: FI.CFG.SHOT, RW. -/
def FI_CFG_SHOT (i : Nat) : Field := ⟨0xc, (0x100 + 0x40 * i + 0x0), 2, 2, .rw, 0, .any, true⟩
/-- Table 20-7: FI.CFG.ACTION, RW. -/
def FI_CFG_ACTION (i : Nat) : Field := ⟨0xc, (0x100 + 0x40 * i + 0x0), 1, 0, .rw, 0, .rng 0 2, true⟩
/-- Table 20-7: FI.EVERY.START, RW. -/
def FI_EVERY_START (i : Nat) : Field := ⟨0xc, (0x100 + 0x40 * i + 0x8), 63, 32, .rw, 0, .any, false⟩
/-- Table 20-7: FI.EVERY.N, RW. -/
def FI_EVERY_N (i : Nat) : Field := ⟨0xc, (0x100 + 0x40 * i + 0x8), 31, 0, .rw, 1, .any, false⟩
/-- Table 20-7: FI.MASK, RW. -/
def FI_MASK (i : Nat) : Field := ⟨0xc, (0x100 + 0x40 * i + 0x10), 63, 0, .rw, 0, .any, false⟩
/-- Table 20-7: FI.POS.WINDOW, RW. -/
def FI_POS_WINDOW (i : Nat) : Field := ⟨0xc, (0x100 + 0x40 * i + 0x18), 27, 24, .rw, 1, .any, false⟩
/-- Table 20-7: FI.POS.SPAN, RW. -/
def FI_POS_SPAN (i : Nat) : Field := ⟨0xc, (0x100 + 0x40 * i + 0x18), 22, 16, .rw, 1, .any, false⟩
/-- Table 20-7: FI.POS.POSITION, RW. -/
def FI_POS_POSITION (i : Nat) : Field := ⟨0xc, (0x100 + 0x40 * i + 0x18), 15, 0, .rw, 0, .any, false⟩
/-- Table 20-7: FI.UNITS.COUNT, RO. -/
def FI_UNITS_COUNT (i : Nat) : Field := ⟨0xc, (0x100 + 0x40 * i + 0x20), 63, 0, .ro, 0, .any, false⟩
/-- Table 20-7: FI.ACTED.HELD_LOST, RO. -/
def FI_ACTED_HELD_LOST (i : Nat) : Field := ⟨0xc, (0x100 + 0x40 * i + 0x28), 47, 32, .ro, 0, .any, false⟩
/-- Table 20-7: FI.ACTED.COUNT, RO. -/
def FI_ACTED_COUNT (i : Nat) : Field := ⟨0xc, (0x100 + 0x40 * i + 0x28), 31, 0, .ro, 0, .any, false⟩
/-- Table 20-7: FI.LAST_TB.TB, RO. -/
def FI_LAST_TB_TB (i : Nat) : Field := ⟨0xc, (0x100 + 0x40 * i + 0x30), 63, 0, .ro, 0, .any, false⟩
/-- Table 21-2: TIME.STATUS.LTC_RATE, RO. -/
def TIME_STATUS_LTC_RATE : Field := ⟨0x6, 0x18, 14, 12, .ro, 0, .any, false⟩
/-- Table 21-2: TIME.STATUS.GEN_FREE, RO. -/
def TIME_STATUS_GEN_FREE : Field := ⟨0x6, 0x18, 9, 9, .ro, 1, .any, false⟩
/-- Table 21-2: TIME.STATUS.LTC_LOCK, RO. -/
def TIME_STATUS_LTC_LOCK : Field := ⟨0x6, 0x18, 8, 8, .ro, 0, .any, false⟩
/-- Table 21-2: TIME.STATUS.KEEP_ON_VBAK, RO, reset column "KEEP". -/
def TIME_STATUS_KEEP_ON_VBAK : Field := ⟨0x6, 0x18, 4, 4, .ro, 0, .any, false⟩
/-- Table 21-2: TIME.STATUS.ALARM_FIRED, RO, reset column "KEEP". -/
def TIME_STATUS_ALARM_FIRED : Field := ⟨0x6, 0x18, 3, 3, .ro, 0, .any, false⟩
/-- Table 21-2: TIME.STATUS.STALE, RO, reset column "KEEP". -/
def TIME_STATUS_STALE : Field := ⟨0x6, 0x18, 2, 2, .ro, 0, .any, false⟩
/-- Table 21-2: TIME.STATUS.LOST, RO, reset column "KEEP" (KEEP starts afresh). -/
def TIME_STATUS_LOST : Field := ⟨0x6, 0x18, 1, 1, .ro, 1, .any, false⟩
/-- Table 21-2: TIME.TB, RO. -/
def TIME_TB : Field := ⟨0x6, 0x100, 63, 0, .ro, 0, .any, false⟩
/-- Table 21-2: TIME.CAL, RO, reset column "KEEP". -/
def TIME_CAL : Field := ⟨0x6, 0x108, 63, 0, .ro, 0, .any, false⟩
/-- Table 21-2: TIME.CAL_SET.VALUE, WO. -/
def TIME_CAL_SET_VALUE : Field := ⟨0x6, 0x110, 62, 0, .wo, 0, .any, false⟩
/-- Table 21-2: TIME.CAL_SET_TB.TB, RO. -/
def TIME_CAL_SET_TB_TB : Field := ⟨0x6, 0x118, 63, 0, .ro, 0, .any, false⟩
/-- Table 21-2: TIME.TRIM.COUNTS, RW, reset column "KEEP". -/
def TIME_TRIM_COUNTS : Field := ⟨0x6, 0x120, 7, 0, .rw, 0, .ne 0x80, false⟩
/-- Table 21-2: TIME.ALARM.SECONDS, RW, reset column "KEEP". -/
def TIME_ALARM_SECONDS : Field := ⟨0x6, 0x128, 62, 15, .rw, 0, .any, true⟩
/-- Table 21-2: TIME.ALARM.EN, RW, reset column "KEEP". -/
def TIME_ALARM_EN : Field := ⟨0x6, 0x128, 0, 0, .rw, 0, .any, true⟩
/-- Table 21-2: TIME.KEEP_SEC.SECONDS, RO, reset column "KEEP". -/
def TIME_KEEP_SEC_SECONDS : Field := ⟨0x6, 0x130, 31, 0, .ro, 0, .any, false⟩
/-- Table 21-2: TIME.VBAK.MV, RO. -/
def TIME_VBAK_MV : Field := ⟨0x6, 0x138, 11, 0, .ro, 0, .any, false⟩
/-- Table 21-2: TIME.VBAK_CFG.LOW_MV, RW. -/
def TIME_VBAK_CFG_LOW_MV : Field := ⟨0x6, 0x140, 11, 0, .rw, 0x898, .any, false⟩
/-- Table 21-2: TIME.SEC_TB.TB, RO. -/
def TIME_SEC_TB_TB : Field := ⟨0x6, 0x148, 63, 0, .ro, 0, .any, false⟩
/-- Table 21-2: TIME.SEC_CAL.SECONDS, RO. -/
def TIME_SEC_CAL_SECONDS : Field := ⟨0x6, 0x150, 47, 0, .ro, 0, .any, false⟩
/-- Table 21-2: TIME.TC_CFG.LOSS_FRAMES, RW. -/
def TIME_TC_CFG_LOSS_FRAMES : Field := ⟨0x6, 0x158, 11, 8, .rw, 2, .nz, false⟩
/-- Table 21-2: TIME.TC_CFG.LTC_EN, RW. -/
def TIME_TC_CFG_LTC_EN : Field := ⟨0x6, 0x158, 4, 4, .rw, 1, .any, false⟩
/-- Table 21-2: TIME.TC_CFG.GEN_RATE, RW. -/
def TIME_TC_CFG_GEN_RATE : Field := ⟨0x6, 0x158, 2, 0, .rw, 1, .rng 0 5, false⟩
/-- Table 21-2: TIME.GEN_PRESET.ADDR, WO. -/
def TIME_GEN_PRESET_ADDR : Field := ⟨0x6, 0x160, 31, 0, .wo, 0, .any, false⟩
/-- Table 21-2: TIME.GEN_ADDR.ADDR, RO. -/
def TIME_GEN_ADDR_ADDR : Field := ⟨0x6, 0x168, 31, 0, .ro, 0, .any, false⟩
/-- Table 21-2: TIME.LTC_ADDR.ADDR, RO. -/
def TIME_LTC_ADDR_ADDR : Field := ⟨0x6, 0x170, 31, 0, .ro, 0, .any, false⟩
/-- Table 21-2: TIME.LTC_USER.BITS, RO. -/
def TIME_LTC_USER_BITS : Field := ⟨0x6, 0x178, 31, 0, .ro, 0, .any, false⟩
/-- Table 21-2: TIME.LTC_TB.TB, RO. -/
def TIME_LTC_TB_TB : Field := ⟨0x6, 0x180, 63, 0, .ro, 0, .any, false⟩
/-- Table 21-2: TIME.PERIOD.TICKS_Q8, RO. -/
def TIME_PERIOD_TICKS_Q8 : Field := ⟨0x6, 0x188, 31, 0, .ro, 0, .any, false⟩
/-- Table 21-2: TIME.LTC_STAT.FRAMES_OK, RO. -/
def TIME_LTC_STAT_FRAMES_OK : Field := ⟨0x6, 0x190, 63, 48, .ro, 0, .any, false⟩
/-- Table 21-2: TIME.LTC_STAT.LOCK_LOSS, RO. -/
def TIME_LTC_STAT_LOCK_LOSS : Field := ⟨0x6, 0x190, 47, 32, .ro, 0, .any, false⟩
/-- Table 21-2: TIME.LTC_STAT.JUMPS, RO. -/
def TIME_LTC_STAT_JUMPS : Field := ⟨0x6, 0x190, 31, 16, .ro, 0, .any, false⟩
/-- Table 21-2: TIME.LTC_STAT.FRAMES_BAD, RO. -/
def TIME_LTC_STAT_FRAMES_BAD : Field := ⟨0x6, 0x190, 15, 0, .ro, 0, .any, false⟩
/-- Table 21-2: TIME.FRM_STAT.PULSES, RO. -/
def TIME_FRM_STAT_PULSES : Field := ⟨0x6, 0x198, 63, 32, .ro, 0, .any, false⟩
/-- Table 21-2: TIME.FRM_STAT.PERIOD_TICKS, RO. -/
def TIME_FRM_STAT_PERIOD_TICKS : Field := ⟨0x6, 0x198, 31, 0, .ro, 0, .any, false⟩
/-- Table 21-2: TIME.CAL_STEPS.COUNT, RO. -/
def TIME_CAL_STEPS_COUNT : Field := ⟨0x6, 0x1a0, 15, 0, .ro, 0, .any, false⟩
/-- Table 21-2: TIME.CLR.GO, WO. -/
def TIME_CLR_GO : Field := ⟨0x6, 0x1a8, 0, 0, .wo, 0, .any, false⟩
/-- Table 21-3: ASER.CTL.SEND_BREAK, RW. -/
def ASER_CTL_SEND_BREAK (n : Nat) : Field := ⟨0x1f, (0x100 + 0x80 * n + 0x0), 1, 1, .rw, 0, .any, true⟩
/-- Table 21-3: ASER.CTL.EN, RW. -/
def ASER_CTL_EN (n : Nat) : Field := ⟨0x1f, (0x100 + 0x80 * n + 0x0), 0, 0, .rw, 0, .any, true⟩
/-- Table 21-3: ASER.CFG.BREAK_BITS, RW. -/
def ASER_CFG_BREAK_BITS (n : Nat) : Field := ⟨0x1f, (0x100 + 0x80 * n + 0x8), 37, 32, .rw, 11, .any, true⟩
/-- Table 21-3: ASER.CFG.STOP2, RW. -/
def ASER_CFG_STOP2 (n : Nat) : Field := ⟨0x1f, (0x100 + 0x80 * n + 0x8), 28, 28, .rw, 0, .any, true⟩
/-- Table 21-3: ASER.CFG.PARITY, RW. -/
def ASER_CFG_PARITY (n : Nat) : Field := ⟨0x1f, (0x100 + 0x80 * n + 0x8), 27, 26, .rw, 0, .rng 0 2, true⟩
/-- Table 21-3: ASER.CFG.DATA7, RW. -/
def ASER_CFG_DATA7 (n : Nat) : Field := ⟨0x1f, (0x100 + 0x80 * n + 0x8), 24, 24, .rw, 0, .any, true⟩
/-- Table 21-3: ASER.CFG.DIVQ6, RW. -/
def ASER_CFG_DIVQ6 (n : Nat) : Field := ⟨0x1f, (0x100 + 0x80 * n + 0x8), 21, 0, .rw, 0x43d1, .any, true⟩
/-- Table 21-3: ASER.RX_HEAD.TB, RO. -/
def ASER_RX_HEAD_TB (n : Nat) : Field := ⟨0x1f, (0x100 + 0x80 * n + 0x10), 63, 16, .ro, 0, .any, false⟩
/-- Table 21-3: ASER.RX_HEAD.VALID, RO. -/
def ASER_RX_HEAD_VALID (n : Nat) : Field := ⟨0x1f, (0x100 + 0x80 * n + 0x10), 15, 15, .ro, 0, .any, false⟩
/-- Table 21-3: ASER.RX_HEAD.FLAGS, RO. -/
def ASER_RX_HEAD_FLAGS (n : Nat) : Field := ⟨0x1f, (0x100 + 0x80 * n + 0x10), 11, 8, .ro, 0, .any, false⟩
/-- Table 21-3: ASER.RX_HEAD.DATA, RO. -/
def ASER_RX_HEAD_DATA (n : Nat) : Field := ⟨0x1f, (0x100 + 0x80 * n + 0x10), 7, 0, .ro, 0, .any, false⟩
/-- Table 21-3: ASER.RX_POP.N, WO. -/
def ASER_RX_POP_N (n : Nat) : Field := ⟨0x1f, (0x100 + 0x80 * n + 0x18), 6, 0, .wo, 0, .any, false⟩
/-- Table 21-3: ASER.TX_PUSH.DATA, WO. -/
def ASER_TX_PUSH_DATA (n : Nat) : Field := ⟨0x1f, (0x100 + 0x80 * n + 0x20), 7, 0, .wo, 0, .any, false⟩
/-- Table 21-3: ASER.RX_STAT.FALSE_START, RO. -/
def ASER_RX_STAT_FALSE_START (n : Nat) : Field := ⟨0x1f, (0x100 + 0x80 * n + 0x28), 63, 48, .ro, 0, .any, false⟩
/-- Table 21-3: ASER.RX_STAT.OVERRUN, RO. -/
def ASER_RX_STAT_OVERRUN (n : Nat) : Field := ⟨0x1f, (0x100 + 0x80 * n + 0x28), 47, 32, .ro, 0, .any, false⟩
/-- Table 21-3: ASER.RX_STAT.FRAMING, RO. -/
def ASER_RX_STAT_FRAMING (n : Nat) : Field := ⟨0x1f, (0x100 + 0x80 * n + 0x28), 31, 16, .ro, 0, .any, false⟩
/-- Table 21-3: ASER.RX_STAT.COUNT, RO. -/
def ASER_RX_STAT_COUNT (n : Nat) : Field := ⟨0x1f, (0x100 + 0x80 * n + 0x28), 6, 0, .ro, 0, .any, false⟩
/-- Table 21-3: ASER.TX_STAT.REFUSED, RO. -/
def ASER_TX_STAT_REFUSED (n : Nat) : Field := ⟨0x1f, (0x100 + 0x80 * n + 0x30), 31, 16, .ro, 0, .any, false⟩
/-- Table 21-3: ASER.TX_STAT.COUNT, RO. -/
def ASER_TX_STAT_COUNT (n : Nat) : Field := ⟨0x1f, (0x100 + 0x80 * n + 0x30), 6, 0, .ro, 0, .any, false⟩
/-- Table 21-3: ASER.BREAKS.COUNT, RO. -/
def ASER_BREAKS_COUNT (n : Nat) : Field := ⟨0x1f, (0x100 + 0x80 * n + 0x38), 15, 0, .ro, 0, .any, false⟩
/-- Table 21-3: ASER.CLR.GO, WO. -/
def ASER_CLR_GO (n : Nat) : Field := ⟨0x1f, (0x100 + 0x80 * n + 0x40), 0, 0, .wo, 0, .any, false⟩

end F

/-! ### Events (EVT_RAW bits) -/
namespace E
/-- EVT_RAW bit of SYS. -/
def SYS_MODE_CHANGE : Ev := ⟨0x0, 0⟩
/-- EVT_RAW bit of SYS. -/
def SYS_MODE_REFUSED : Ev := ⟨0x0, 1⟩
/-- EVT_RAW bit of SYS. -/
def SYS_FUNC_READY_CHANGE : Ev := ⟨0x0, 2⟩
/-- EVT_RAW bit of SYS. -/
def SYS_FUNC_FAULT : Ev := ⟨0x0, 3⟩
/-- EVT_RAW bit of SYS. -/
def SYS_HALF_DROP : Ev := ⟨0x0, 4⟩
/-- EVT_RAW bit of SYS. -/
def SYS_BAD_WIDTH : Ev := ⟨0x0, 5⟩
/-- EVT_RAW bit of SYS. -/
def SYS_UNMAPPED : Ev := ⟨0x0, 6⟩
/-- EVT_RAW bit of SYS. -/
def SYS_ACCESS_DENY : Ev := ⟨0x0, 7⟩
/-- EVT_RAW bit of SYS. -/
def SYS_ISLAND_OFF : Ev := ⟨0x0, 8⟩
/-- EVT_RAW bit of SYS. -/
def SYS_GCOMMIT_DONE : Ev := ⟨0x0, 9⟩
/-- EVT_RAW bit of SYS. -/
def SYS_COMMIT_REFUSED : Ev := ⟨0x0, 10⟩
/-- EVT_RAW bit of SYS. -/
def SYS_RESET_DEFERRED : Ev := ⟨0x0, 11⟩
/-- EVT_RAW bit of PWR. -/
def PWR_RAIL_TRIP : Ev := ⟨0x1, 0⟩
/-- EVT_RAW bit of PWR. -/
def PWR_VIN_LOW : Ev := ⟨0x1, 1⟩
/-- EVT_RAW bit of PWR. -/
def PWR_ISL_CHANGE : Ev := ⟨0x1, 2⟩
/-- EVT_RAW bit of PWR. -/
def PWR_ISL_REFUSED : Ev := ⟨0x1, 3⟩
/-- EVT_RAW bit of PWR. -/
def PWR_VDDQ_INVALID : Ev := ⟨0x1, 4⟩
/-- EVT_RAW bit of PWR. -/
def PWR_IO_INVALID : Ev := ⟨0x1, 5⟩
/-- EVT_RAW bit of CLK. -/
def CLK_PLL_UNLOCK : Ev := ⟨0x2, 0⟩
/-- EVT_RAW bit of CLK. -/
def CLK_XTAL_LOSS : Ev := ⟨0x2, 1⟩
/-- EVT_RAW bit of CLK. -/
def CLK_PE_REFCLK_LOSS : Ev := ⟨0x2, 2⟩
/-- EVT_RAW bit of CLK. -/
def CLK_SD_REFCLK_LOSS : Ev := ⟨0x2, 3⟩
/-- EVT_RAW bit of CLK. -/
def CLK_REF_RESTORED : Ev := ⟨0x2, 4⟩
/-- EVT_RAW bit of LEDGER. -/
def LEDGER_REFUSE : Ev := ⟨0x4, 0⟩
/-- EVT_RAW bit of LEDGER. -/
def LEDGER_EXHAUSTED : Ev := ⟨0x4, 1⟩
/-- EVT_RAW bit of LEDGER. -/
def LEDGER_SENSE_FAULT : Ev := ⟨0x4, 2⟩
/-- EVT_RAW bit of LEDGER. -/
def LEDGER_SENSE_OK : Ev := ⟨0x4, 3⟩
/-- EVT_RAW bit of LEDGER. -/
def LEDGER_CAL_DONE : Ev := ⟨0x4, 4⟩
/-- EVT_RAW bit of LEDGER. -/
def LEDGER_CAL_FAIL : Ev := ⟨0x4, 5⟩
/-- EVT_RAW bit of LEDGER. -/
def LEDGER_HEADROOM_NEG : Ev := ⟨0x4, 6⟩
/-- EVT_RAW bit of LEDGER. -/
def LEDGER_XOFF : Ev := ⟨0x4, 7⟩
/-- EVT_RAW bit of LEDGER. -/
def LEDGER_XON : Ev := ⟨0x4, 8⟩
/-- EVT_RAW bit of BUDGET. -/
def BUDGET_TSTATE_CHANGE : Ev := ⟨0x3, 0⟩
/-- EVT_RAW bit of BUDGET. -/
def BUDGET_LSTATE_CHANGE : Ev := ⟨0x3, 1⟩
/-- EVT_RAW bit of BUDGET. -/
def BUDGET_GRANT_LOW : Ev := ⟨0x3, 2⟩
/-- EVT_RAW bit of BUDGET. -/
def BUDGET_FLOOR_MISS : Ev := ⟨0x3, 3⟩
/-- EVT_RAW bit of BUDGET. -/
def BUDGET_SENSOR_FAULT : Ev := ⟨0x3, 4⟩
/-- EVT_RAW bit of PBUF. -/
def PBUF_LOW_FREE : Ev := ⟨0x17, 0⟩
/-- EVT_RAW bit of HOSTQ. -/
def HOSTQ_DB_ERROR : Ev := ⟨0x10, 0⟩
/-- EVT_RAW bit of HOSTQ. -/
def HOSTQ_PI_ERROR : Ev := ⟨0x10, 1⟩
/-- EVT_RAW bit of HOSTQ. -/
def HOSTQ_ABORT_CAUGHT : Ev := ⟨0x10, 2⟩
/-- EVT_RAW bit of HOSTQ. -/
def HOSTQ_CMD_REFUSED : Ev := ⟨0x10, 3⟩
/-- EVT_RAW bit of HOSTQ. -/
def HOSTQ_KATO_EXPIRE : Ev := ⟨0x10, 4⟩
/-- EVT_RAW bit of HOSTQ. -/
def HOSTQ_ACK_LATE : Ev := ⟨0x10, 5⟩
/-- EVT_RAW bit of HOSTQ. -/
def HOSTQ_SELFTEST_YIELD : Ev := ⟨0x10, 6⟩
/-- EVT_RAW bit of PCIE. -/
def PCIE_LINK_UP : Ev := ⟨0x11, 0⟩
/-- EVT_RAW bit of PCIE. -/
def PCIE_LINK_DOWN : Ev := ⟨0x11, 1⟩
/-- EVT_RAW bit of PCIE. -/
def PCIE_SPEED_CHANGE : Ev := ⟨0x11, 2⟩
/-- EVT_RAW bit of PCIE. -/
def PCIE_WIDTH_CHANGE : Ev := ⟨0x11, 3⟩
/-- EVT_RAW bit of PCIE. -/
def PCIE_AER_CORRECTABLE : Ev := ⟨0x11, 4⟩
/-- EVT_RAW bit of PCIE. -/
def PCIE_AER_UNCORRECTABLE : Ev := ⟨0x11, 5⟩
/-- EVT_RAW bit of PCIE. -/
def PCIE_PERST : Ev := ⟨0x11, 6⟩
/-- EVT_RAW bit of INGEST. -/
def INGEST_ALIGNED : Ev := ⟨0x12, 0⟩
/-- EVT_RAW bit of INGEST. -/
def INGEST_ALIGN_LOST : Ev := ⟨0x12, 1⟩
/-- EVT_RAW bit of INGEST. -/
def INGEST_LOCK_LOSS : Ev := ⟨0x12, 2⟩
/-- EVT_RAW bit of INGEST. -/
def INGEST_HDR_REJECT : Ev := ⟨0x12, 3⟩
/-- EVT_RAW bit of INGEST. -/
def INGEST_DAMAGED : Ev := ⟨0x12, 4⟩
/-- EVT_RAW bit of INGEST. -/
def INGEST_CHECK_DOUBT : Ev := ⟨0x12, 5⟩
/-- EVT_RAW bit of INGEST. -/
def INGEST_GAP : Ev := ⟨0x12, 6⟩
/-- EVT_RAW bit of INGEST. -/
def INGEST_UNBOUND : Ev := ⟨0x12, 7⟩
/-- EVT_RAW bit of INGEST. -/
def INGEST_CREDIT_VIOL : Ev := ⟨0x12, 8⟩
/-- EVT_RAW bit of INGEST. -/
def INGEST_XOFF : Ev := ⟨0x12, 9⟩
/-- EVT_RAW bit of INGEST. -/
def INGEST_XON : Ev := ⟨0x12, 10⟩
/-- EVT_RAW bit of INGEST. -/
def INGEST_ALIGN_FAIL : Ev := ⟨0x12, 11⟩
/-- EVT_RAW bit of INGEST. -/
def INGEST_ORPHAN : Ev := ⟨0x12, 12⟩
/-- EVT_RAW bit of FRAME. -/
def FRAME_TAKE_OPEN : Ev := ⟨0x13, 0⟩
/-- EVT_RAW bit of FRAME. -/
def FRAME_TAKE_CLOSE : Ev := ⟨0x13, 1⟩
/-- EVT_RAW bit of FRAME. -/
def FRAME_TAKE_CLOSE_ABNORMAL : Ev := ⟨0x13, 2⟩
/-- EVT_RAW bit of FRAME. -/
def FRAME_NO_PULSE : Ev := ⟨0x13, 3⟩
/-- EVT_RAW bit of FRAME. -/
def FRAME_PULSE_SKIP : Ev := ⟨0x13, 4⟩
/-- EVT_RAW bit of FRAME. -/
def FRAME_SKETCH_SKIP : Ev := ⟨0x13, 5⟩
/-- EVT_RAW bit of FRAME. -/
def FRAME_ACAP_OVERRUN : Ev := ⟨0x13, 6⟩
/-- EVT_RAW bit of FRAME. -/
def FRAME_ORPHAN_LIMIT : Ev := ⟨0x13, 7⟩
/-- EVT_RAW bit of FRAME. -/
def FRAME_INDEX_REWRITE : Ev := ⟨0x13, 8⟩
/-- EVT_RAW bit of MAP. -/
def MAP_REGION_FULL : Ev := ⟨0x14, 0⟩
/-- EVT_RAW bit of MAP. -/
def MAP_LEAF_LOW : Ev := ⟨0x14, 1⟩
/-- EVT_RAW bit of MAP. -/
def MAP_LEAF_EMPTY : Ev := ⟨0x14, 2⟩
/-- EVT_RAW bit of MAP. -/
def MAP_JTAIL_FULL : Ev := ⟨0x14, 3⟩
/-- EVT_RAW bit of MAP. -/
def MAP_CKPT_DONE : Ev := ⟨0x14, 4⟩
/-- EVT_RAW bit of MAP. -/
def MAP_RESERVE_OUT : Ev := ⟨0x14, 5⟩
/-- EVT_RAW bit of MAP. -/
def MAP_MAP_FULL : Ev := ⟨0x14, 6⟩
/-- EVT_RAW bit of MCACHE. -/
def MCACHE_WAYS_CHANGED : Ev := ⟨0x15, 0⟩
/-- EVT_RAW bit of DRAMC. -/
def DRAMC_TRAIN_DONE : Ev := ⟨0x16, 0⟩
/-- EVT_RAW bit of DRAMC. -/
def DRAMC_TRAIN_FAIL : Ev := ⟨0x16, 1⟩
/-- EVT_RAW bit of DRAMC. -/
def DRAMC_ECC_CE : Ev := ⟨0x16, 2⟩
/-- EVT_RAW bit of DRAMC. -/
def DRAMC_ECC_UE : Ev := ⟨0x16, 3⟩
/-- EVT_RAW bit of DRAMC. -/
def DRAMC_BAD_ADDR : Ev := ⟨0x16, 4⟩
/-- EVT_RAW bit of DRAMC. -/
def DRAMC_TEMP_HIGH : Ev := ⟨0x16, 5⟩
/-- EVT_RAW bit of DRAMC. -/
def DRAMC_RETAIN_LOST : Ev := ⟨0x16, 6⟩
/-- EVT_RAW bit of DRAMC. -/
def DRAMC_INIT_DONE : Ev := ⟨0x16, 7⟩
/-- EVT_RAW bit of DRAMC. -/
def DRAMC_RETRAIN : Ev := ⟨0x16, 8⟩
/-- EVT_RAW bit of FCH. -/
def FCH_DISCOVERED (c : Nat) : Ev := ⟨0x20 + c, 0⟩
/-- EVT_RAW bit of FCH. -/
def FCH_LUN_EXCLUDED (c : Nat) : Ev := ⟨0x20 + c, 1⟩
/-- EVT_RAW bit of FCH. -/
def FCH_LUN_FAIL (c : Nat) : Ev := ⟨0x20 + c, 2⟩
/-- EVT_RAW bit of FCH. -/
def FCH_CHAN_FAIL (c : Nat) : Ev := ⟨0x20 + c, 3⟩
/-- EVT_RAW bit of FCH. -/
def FCH_TIMEOUT (c : Nat) : Ev := ⟨0x20 + c, 4⟩
/-- EVT_RAW bit of FCH. -/
def FCH_PROG_FAIL (c : Nat) : Ev := ⟨0x20 + c, 5⟩
/-- EVT_RAW bit of FCH. -/
def FCH_ERASE_FAIL (c : Nat) : Ev := ⟨0x20 + c, 6⟩
/-- EVT_RAW bit of FCH. -/
def FCH_SPARES_LOW (c : Nat) : Ev := ⟨0x20 + c, 7⟩
/-- EVT_RAW bit of FCH. -/
def FCH_RETRAIN (c : Nat) : Ev := ⟨0x20 + c, 8⟩
/-- EVT_RAW bit of ECC. -/
def ECC_TIER_CAPPED : Ev := ⟨0x18, 14⟩
/-- EVT_RAW bit of ECC. -/
def ECC_TRACK_CHANGE : Ev := ⟨0x18, 15⟩
/-- EVT_RAW bit of SCRUB. -/
def SCRUB_PASS_DONE : Ev := ⟨0x19, 0⟩
/-- EVT_RAW bit of SCRUB. -/
def SCRUB_REFRESH_QUEUED : Ev := ⟨0x19, 1⟩
/-- EVT_RAW bit of SCRUB. -/
def SCRUB_BEHIND : Ev := ⟨0x19, 2⟩
/-- EVT_RAW bit of GROOM. -/
def GROOM_SPACE_START : Ev := ⟨0x1a, 0⟩
/-- EVT_RAW bit of GROOM. -/
def GROOM_SPACE_LOW : Ev := ⟨0x1a, 1⟩
/-- EVT_RAW bit of GROOM. -/
def GROOM_SPACE_OK : Ev := ⟨0x1a, 2⟩
/-- EVT_RAW bit of GROOM. -/
def GROOM_RESERVE_USED : Ev := ⟨0x1a, 3⟩
/-- EVT_RAW bit of GROOM. -/
def GROOM_NO_SPACE : Ev := ⟨0x1a, 4⟩
/-- EVT_RAW bit of GROOM. -/
def GROOM_WEAR_MOVE : Ev := ⟨0x1a, 5⟩
/-- EVT_RAW bit of GROOM. -/
def GROOM_SPARE_OUT : Ev := ⟨0x1a, 6⟩
/-- EVT_RAW bit of PAIR. -/
def PAIR_LINK_UP : Ev := ⟨0x1b, 0⟩
/-- EVT_RAW bit of PAIR. -/
def PAIR_LINK_DOWN : Ev := ⟨0x1b, 1⟩
/-- EVT_RAW bit of PAIR. -/
def PAIR_LOSS : Ev := ⟨0x1b, 2⟩
/-- EVT_RAW bit of PAIR. -/
def PAIR_FAILOVER : Ev := ⟨0x1b, 3⟩
/-- EVT_RAW bit of PAIR. -/
def PAIR_ROLE_CHANGE : Ev := ⟨0x1b, 4⟩
/-- EVT_RAW bit of PAIR. -/
def PAIR_DIVERGED : Ev := ⟨0x1b, 5⟩
/-- EVT_RAW bit of PAIR. -/
def PAIR_CONVERGED : Ev := ⟨0x1b, 6⟩
/-- EVT_RAW bit of PAIR. -/
def PAIR_CONFLICT : Ev := ⟨0x1b, 7⟩
/-- EVT_RAW bit of PAIR. -/
def PAIR_ARBITRATION : Ev := ⟨0x1b, 8⟩
/-- EVT_RAW bit of PAIR. -/
def PAIR_STALL : Ev := ⟨0x1b, 9⟩
/-- EVT_RAW bit of PAIR. -/
def PAIR_PEER_SEAL : Ev := ⟨0x1b, 10⟩
/-- EVT_RAW bit of NET. -/
def NET_LINK_UP (p : Nat) : Ev := ⟨0x1c + p, 0⟩
/-- EVT_RAW bit of NET. -/
def NET_LINK_DOWN (p : Nat) : Ev := ⟨0x1c + p, 1⟩
/-- EVT_RAW bit of NET. -/
def NET_DHCP_BOUND (p : Nat) : Ev := ⟨0x1c + p, 2⟩
/-- EVT_RAW bit of NVTCP. -/
def NVTCP_CONNECT : Ev := ⟨0x1e, 0⟩
/-- EVT_RAW bit of NVTCP. -/
def NVTCP_DISCONNECT : Ev := ⟨0x1e, 1⟩
/-- EVT_RAW bit of NVTCP. -/
def NVTCP_REFUSED : Ev := ⟨0x1e, 2⟩
/-- EVT_RAW bit of NVTCP. -/
def NVTCP_DIGEST_ERR : Ev := ⟨0x1e, 3⟩
/-- EVT_RAW bit of NVTCP. -/
def NVTCP_VERIFIED : Ev := ⟨0x1e, 4⟩
/-- EVT_RAW bit of NVTCP. -/
def NVTCP_VERIFY_FAIL : Ev := ⟨0x1e, 5⟩
/-- EVT_RAW bit of NVTCP. -/
def NVTCP_ALTERED : Ev := ⟨0x1e, 6⟩
/-- EVT_RAW bit of MBX. -/
def MBX_HO_DOORBELL : Ev := ⟨0xd, 0⟩
/-- EVT_RAW bit of MBX. -/
def MBX_HO_BLOCK_POSTED : Ev := ⟨0xd, 1⟩
/-- EVT_RAW bit of MBX. -/
def MBX_HI_BLOCK_ANSWERED : Ev := ⟨0xd, 2⟩
/-- EVT_RAW bit of MBX. -/
def MBX_HO_QUEUE : Ev := ⟨0xd, 3⟩
/-- EVT_RAW bit of MBX. -/
def MBX_BLOCK_BUSY : Ev := ⟨0xd, 4⟩
/-- EVT_RAW bit of MBX. -/
def MBX_PUSH_REFUSED : Ev := ⟨0xd, 5⟩
/-- EVT_RAW bit of MBX. -/
def MBX_P_RESET : Ev := ⟨0xd, 6⟩
/-- EVT_RAW bit of MBX. -/
def MBX_H_OWNER : Ev := ⟨0xd, 7⟩
/-- EVT_RAW bit of SDMA. -/
def SDMA_START_IGNORED : Ev := ⟨0xe, 24⟩
/-- EVT_RAW bit of SEC. -/
def SEC_STATE_CHANGE : Ev := ⟨0x7, 0⟩
/-- EVT_RAW bit of SEC. -/
def SEC_CRED_REJECT : Ev := ⟨0x7, 1⟩
/-- EVT_RAW bit of SEC. -/
def SEC_TAMPER : Ev := ⟨0x7, 2⟩
/-- EVT_RAW bit of SEC. -/
def SEC_CARRY_RESTORED : Ev := ⟨0x7, 3⟩
/-- EVT_RAW bit of SEC. -/
def SEC_CARRY_FAIL : Ev := ⟨0x7, 4⟩
/-- EVT_RAW bit of SEC. -/
def SEC_VOID : Ev := ⟨0x7, 5⟩
/-- EVT_RAW bit of SEC. -/
def SEC_LOCKED_WRITE : Ev := ⟨0x7, 6⟩
/-- EVT_RAW bit of SEC. -/
def SEC_SANITIZE_DONE : Ev := ⟨0x7, 7⟩
/-- EVT_RAW bit of DBG. -/
def DBG_LEVEL_CHANGE : Ev := ⟨0x8, 0⟩
/-- EVT_RAW bit of DBG. -/
def DBG_AUTH_FAIL : Ev := ⟨0x8, 1⟩
/-- EVT_RAW bit of DBG. -/
def DBG_EXPIRED : Ev := ⟨0x8, 2⟩
/-- EVT_RAW bit of CODE. -/
def CODE_CMD_DONE : Ev := ⟨0x9, 0⟩
/-- EVT_RAW bit of CODE. -/
def CODE_CMD_ERR : Ev := ⟨0x9, 1⟩
/-- EVT_RAW bit of CODE. -/
def CODE_WEAR : Ev := ⟨0x9, 2⟩
/-- EVT_RAW bit of UPD. -/
def UPD_PARCEL_OK : Ev := ⟨0xa, 0⟩
/-- EVT_RAW bit of UPD. -/
def UPD_PARCEL_BAD : Ev := ⟨0xa, 1⟩
/-- EVT_RAW bit of UPD. -/
def UPD_COMMIT_OK : Ev := ⟨0xa, 2⟩
/-- EVT_RAW bit of UPD. -/
def UPD_COPY_DONE : Ev := ⟨0xa, 3⟩
/-- EVT_RAW bit of UPD. -/
def UPD_ACTIVATED : Ev := ⟨0xa, 4⟩
/-- EVT_RAW bit of UPD. -/
def UPD_CONFIRMED : Ev := ⟨0xa, 5⟩
/-- EVT_RAW bit of UPD. -/
def UPD_REVERTED : Ev := ⟨0xa, 6⟩
/-- EVT_RAW bit of UPD. -/
def UPD_FUSED : Ev := ⟨0xa, 7⟩
/-- EVT_RAW bit of BIST. -/
def BIST_RUN_DONE : Ev := ⟨0xb, 0⟩
/-- EVT_RAW bit of BIST. -/
def BIST_REPAIRED : Ev := ⟨0xb, 1⟩
/-- EVT_RAW bit of BIST. -/
def BIST_UNREPAIRABLE : Ev := ⟨0xb, 2⟩
/-- EVT_RAW bit of BIST. -/
def BIST_BUSY : Ev := ⟨0xb, 3⟩
/-- EVT_RAW bit of BIST. -/
def BIST_FUSE_DONE : Ev := ⟨0xb, 4⟩
/-- EVT_RAW bit of BIST. -/
def BIST_FUSE_REFUSED : Ev := ⟨0xb, 5⟩
/-- EVT_RAW bit of FI. -/
def FI_ARM_REFUSED : Ev := ⟨0xc, 7⟩
/-- EVT_RAW bit of FI. -/
def FI_CFG_IGNORED : Ev := ⟨0xc, 8⟩
/-- EVT_RAW bit of FI. -/
def FI_STOPPED : Ev := ⟨0xc, 9⟩
/-- EVT_RAW bit of TIME. -/
def TIME_CAL_SET : Ev := ⟨0x6, 0⟩
/-- EVT_RAW bit of TIME. -/
def TIME_ALARM : Ev := ⟨0x6, 1⟩
/-- EVT_RAW bit of TIME. -/
def TIME_VBAK_LOW : Ev := ⟨0x6, 2⟩
/-- EVT_RAW bit of TIME. -/
def TIME_RTC_LOSS : Ev := ⟨0x6, 3⟩
/-- EVT_RAW bit of TIME. -/
def TIME_LTC_LOCK : Ev := ⟨0x6, 4⟩
/-- EVT_RAW bit of TIME. -/
def TIME_LTC_UNLOCK : Ev := ⟨0x6, 5⟩
/-- EVT_RAW bit of TIME. -/
def TIME_PRESET_IGNORED : Ev := ⟨0x6, 6⟩
/-- EVT_RAW bit of SDMA. -/
def SDMA_DONE (n : Nat) : Ev := ⟨0xe, 0 + n⟩
/-- EVT_RAW bit of SDMA. -/
def SDMA_ERROR (n : Nat) : Ev := ⟨0xe, 8 + n⟩
/-- EVT_RAW bit of SDMA. -/
def SDMA_PAUSED (n : Nat) : Ev := ⟨0xe, 16 + n⟩
/-- EVT_RAW bit of CRCU. -/
def CRCU_MATCH (n : Nat) : Ev := ⟨0xf, 0 + n⟩
/-- EVT_RAW bit of CRCU. -/
def CRCU_MISMATCH (n : Nat) : Ev := ⟨0xf, 4 + n⟩
/-- EVT_RAW bit of CRCU. -/
def CRCU_CFG_IGNORED (n : Nat) : Ev := ⟨0xf, 8 + n⟩
/-- EVT_RAW bit of FI. -/
def FI_ACTED (n : Nat) : Ev := ⟨0xc, 0 + n⟩
/-- EVT_RAW bit of ECC. -/
def ECC_KIND (n : Nat) : Ev := ⟨0x18, 0 + n⟩
/-- EVT_RAW bit of ASER. -/
def ASER_RX_DATA (n : Nat) : Ev := ⟨0x1f, 8 * n + 0⟩
/-- EVT_RAW bit of ASER. -/
def ASER_FRAMING (n : Nat) : Ev := ⟨0x1f, 8 * n + 1⟩
/-- EVT_RAW bit of ASER. -/
def ASER_BREAK (n : Nat) : Ev := ⟨0x1f, 8 * n + 2⟩
/-- EVT_RAW bit of ASER. -/
def ASER_OVERRUN (n : Nat) : Ev := ⟨0x1f, 8 * n + 3⟩
/-- EVT_RAW bit of ASER. -/
def ASER_TX_EMPTY (n : Nat) : Ev := ⟨0x1f, 8 * n + 4⟩
/-- EVT_RAW bit of ASER. -/
def ASER_CFG_IGNORED (n : Nat) : Ev := ⟨0x1f, 8 * n + 5⟩
/-- R51: COMMIT_DONE is bit 63 of every page that has RWS fields. -/
def COMMIT_DONE (p : Nat) : Ev := ⟨p, 63⟩
end E

/-- A run of registers of one field: `cnt` of them from `base`, `stride` apart. -/
structure Run where
  base   : Nat
  stride : Nat
  cnt    : Nat
  fld    : Nat → Field

/-- A field at one offset. -/
def Run.one (f : Field) : Run := ⟨f.off, 8, 1, fun _ => f⟩

/-- The field of the run at an offset, if there is one. -/
def Run.at? (r : Run) (off : Nat) : Option Field :=
  if r.base ≤ off ∧ (off - r.base) % r.stride = 0 ∧ (off - r.base) / r.stride < r.cnt then
    some (r.fld ((off - r.base) / r.stride))
  else none

/-- The common header's stored fields (Table 02-2), for page `p`; SHADOW_CTL is RSV on a page without RWS fields (Table 02-7). -/
def headerRuns (p : Nat) (shadow : Bool) : List Run :=
  (if shadow then [Run.one (F.TARGET_EPOCH p)] else []) ++
  [Run.one (F.EVT_RAW p), Run.one (F.EVT_MASK p), Run.one (F.SHADOW_REASON p),
   Run.one (F.SHADOW_REFUSED p), Run.one (F.SHADOW_MIXED p), Run.one (F.PENDING_EPOCH p),
   Run.one (F.ACTIVE_EPOCH p), Run.one (F.SNAP_COMMIT_EPOCH p), Run.one (F.SNAP_SOURCE p),
   Run.one (F.SNAP_EPOCH p), Run.one (F.SNAP_TIME p), ⟨0x060, 8, 20, F.SNAP_WORD p⟩]

/-- The block-specific fields of SYS. -/
def runsSYS : List Run :=
  [Run.one F.SYS_MODE_CAUSE, Run.one F.SYS_MODE_PREV, Run.one F.SYS_MODE_CUR, Run.one F.SYS_MODE_REQ_GO, Run.one F.SYS_MODE_REQ_TARGET, Run.one F.SYS_MODE_TIME_ENTRY_TB, Run.one F.SYS_FUNC_READY_READY, Run.one F.SYS_FUNC_FAULT_FAULT, Run.one F.SYS_RESET_CTL_KEY, Run.one F.SYS_RESET_CTL_ISLAND, Run.one F.SYS_RESET_CTL_ISLAND_RESET, Run.one F.SYS_RESET_CTL_SOFT_RESET, Run.one F.SYS_RESET_CAUSE_CAUSE, Run.one F.SYS_STRAPS_ISLAND_TEST, Run.one F.SYS_STRAPS_BOOT_SEL, Run.one F.SYS_STRAPS_PAIR_RANK, Run.one F.SYS_GCOMMIT_GO, Run.one F.SYS_GCOMMIT_TARGET_EPOCH, Run.one F.SYS_GCOMMIT_STATUS_REFUSED, Run.one F.SYS_GCOMMIT_STATUS_PAGES, Run.one F.SYS_GCOMMIT_STATUS_MIXED_COUNT, Run.one F.SYS_MIXED_MAP0_MAP, Run.one F.SYS_MIXED_MAP1_MAP, Run.one F.SYS_ACCESS_LOG_KIND, Run.one F.SYS_ACCESS_LOG_WRITE, Run.one F.SYS_ACCESS_LOG_REQUESTER, Run.one F.SYS_ACCESS_LOG_OFFSET, Run.one F.SYS_SCRATCH]
/-- The block-specific fields of PWR. -/
def runsPWR : List Run :=
  [Run.one F.PWR_RAIL_STATUS_FLD_LEVEL, Run.one F.PWR_RAIL_STATUS_FLC_LEVEL, Run.one F.PWR_RAIL_STATUS_FLB_LEVEL, Run.one F.PWR_RAIL_STATUS_FLA_LEVEL, Run.one F.PWR_RAIL_STATUS_IO_LEVEL, Run.one F.PWR_RAIL_STATUS_VALID, Run.one F.PWR_RAIL_TRIP_TRIP, Run.one F.PWR_VIN_CFG_TH_MV, Run.one F.PWR_VIN_CFG_BELOW, Run.one F.PWR_VIN_CFG_EN, Run.one F.PWR_ISL_EN_EN, Run.one F.PWR_ISL_STATE_STATE, Run.one F.PWR_ISL_REEN_REENABLE_PENDING, Run.one F.PWR_ISL_REFUSE_REFUSED, Run.one F.PWR_FILT_TAMPER_N, Run.one F.PWR_FILT_ASER1_RX, Run.one F.PWR_FILT_ASER0_RX, Run.one F.PWR_FILT_PWR_FAIL_N, Run.one F.PWR_FILT_SNAP_IN, Run.one F.PWR_FILT_FRM_IN, Run.one F.PWR_FILT_TC_IN, Run.one F.PWR_FILT_WAKE, Run.one F.PWR_FILT_RESET_N, Run.one F.PWR_GPIO_PAD_PAD, Run.one F.PWR_MISC_PAD_PAD, Run.one F.PWR_GPIO_DIR_DIR, Run.one F.PWR_GPIO_OUT_OUT, Run.one F.PWR_GPIO_IN_IN, Run.one F.PWR_GPIO_PULL]
/-- The block-specific fields of CLK. -/
def runsCLK : List Run :=
  [Run.one F.CLK_PLL_LOCK_LOCK, Run.one F.CLK_REF_STATUS_RTC_OK, Run.one F.CLK_REF_STATUS_SD_REFCLK_OK, Run.one F.CLK_REF_STATUS_PE_REFCLK_OK, Run.one F.CLK_REF_STATUS_XTAL_OK, Run.one F.CLK_SSC_FLD, Run.one F.CLK_SSC_FLC, Run.one F.CLK_SSC_FLB, Run.one F.CLK_SSC_FLA, Run.one F.CLK_SSC_DR, Run.one F.CLK_SSC_CORE, Run.one F.CLK_LOSS_COUNT_SD_REFCLK, Run.one F.CLK_LOSS_COUNT_PE_REFCLK, Run.one F.CLK_LOSS_COUNT_XTAL, Run.one F.CLK_LOSS_CLR_GO, Run.one F.CLK_FOSC_MEAS_CYCLES]
/-- The block-specific fields of BUDGET. -/
def runsBUDGET : List Run :=
  [Run.one F.BUDGET_STATUS_LSTATE, Run.one F.BUDGET_STATUS_TSTATE, Run.one F.BUDGET_STATUS_GRANT_LOW, Run.one F.BUDGET_GRANT_GRANT_MW, Run.one F.BUDGET_BASE_BASE_MW, Run.one F.BUDGET_POOL_POOL_MIN_UJ, Run.one F.BUDGET_COST_A_ERASE, Run.one F.BUDGET_COST_A_PROG_SLC, Run.one F.BUDGET_COST_A_PROG, Run.one F.BUDGET_COST_A_READ, Run.one F.BUDGET_COST_B_RETRY, Run.one F.BUDGET_COST_B_XFER, Run.one F.BUDGET_THERM_TJ_HYST_C, Run.one F.BUDGET_THERM_TJ_TJ3, Run.one F.BUDGET_THERM_TJ_TJ2, Run.one F.BUDGET_THERM_TJ_TJ1, Run.one F.BUDGET_THERM_EXT_HYST_MV, Run.one F.BUDGET_THERM_EXT_EN, Run.one F.BUDGET_THERM_EXT_POL, Run.one F.BUDGET_THERM_EXT_TH3, Run.one F.BUDGET_THERM_EXT_TH2, Run.one F.BUDGET_THERM_EXT_TH1, Run.one F.BUDGET_THERM_CAP_CAP_T3_MW, Run.one F.BUDGET_THERM_CAP_CAP_T2_MW, Run.one F.BUDGET_THERM_CAP_CAP_T1_MW, Run.one F.BUDGET_LEDGER_LO_LO_UJ, Run.one F.BUDGET_TEMP_EXCLUDED, Run.one F.BUDGET_TEMP_EXT_MV, Run.one F.BUDGET_TEMP_SENSOR, Run.one F.BUDGET_TEMP_TJ_MAX] ++
  [Run.one F.BUDGET_WINDOW_COUNT, Run.one F.BUDGET_WINDOW_POOL_Q4, Run.one F.BUDGET_EXPIRED_SUM, Run.one F.BUDGET_LAPSED_SUM, Run.one F.BUDGET_CLR_GO, ⟨0x180, 8, 8, F.BUDGET_CLASS_SPENT_SUM⟩, Run.one F.BUDGET_FLOOR_MISS_COUNTS, Run.one F.BUDGET_FLOOR_M0, Run.one F.BUDGET_FLOOR_M1, Run.one F.BUDGET_FLOOR_M2, Run.one F.BUDGET_FLOOR_M3, Run.one F.BUDGET_FLOOR_M4, Run.one F.BUDGET_FLOOR_M5, Run.one F.BUDGET_FLOOR_M6, Run.one F.BUDGET_FLOOR_M7, Run.one F.BUDGET_FLOOR_M8, Run.one F.BUDGET_FLOOR_M9, Run.one F.BUDGET_FLOOR_M10, Run.one F.BUDGET_FLOOR_M11, Run.one F.BUDGET_CEIL_M0, Run.one F.BUDGET_CEIL_M1, Run.one F.BUDGET_CEIL_M2, Run.one F.BUDGET_CEIL_M3, Run.one F.BUDGET_CEIL_M4, Run.one F.BUDGET_CEIL_M5, Run.one F.BUDGET_CEIL_M6, Run.one F.BUDGET_CEIL_M7, Run.one F.BUDGET_CEIL_M8, Run.one F.BUDGET_CEIL_M9, Run.one F.BUDGET_CEIL_M10] ++
  [Run.one F.BUDGET_CEIL_M11]
/-- The block-specific fields of LEDGER. -/
def runsLEDGER : List Run :=
  [Run.one F.LEDGER_STATUS_STOPPED, Run.one F.LEDGER_STATUS_XOFF, Run.one F.LEDGER_STATUS_CALIBRATED, Run.one F.LEDGER_STATUS_SENSE_FAULT, Run.one F.LEDGER_BANK_V_FULL_MV, Run.one F.LEDGER_BANK_V_FLOOR_MV, Run.one F.LEDGER_BANK_CAP_UF, Run.one F.LEDGER_DIV_OFS_MV, Run.one F.LEDGER_DIV_RATIO, Run.one F.LEDGER_SEAL_CFG_KEEP_UJ, Run.one F.LEDGER_SEAL_CFG_MARGIN, Run.one F.LEDGER_SEAL_CFG_SEAL_PWR_MW, Run.one F.LEDGER_ADMIT_HOST_WAIT_MS, Run.one F.LEDGER_ADMIT_INGEST_RSV_UJ, Run.one F.LEDGER_ADMIT_GUARD_UJ, Run.one F.LEDGER_FLOW_XON_UJ, Run.one F.LEDGER_FLOW_XOFF_UJ, Run.one F.LEDGER_CAL_GO, Run.one F.LEDGER_CAL_RESULT_T_SLOT_PS, Run.one F.LEDGER_CAL_RESULT_COST_Q8, Run.one F.LEDGER_CAL_TIMES_SEAL_EST_US, Run.one F.LEDGER_CAL_TIMES_T_RECORD_US, Run.one F.LEDGER_CAL_TIMES_T_ABORT_US, Run.one F.LEDGER_CAL_TIMES_JTAIL_SLOTS, Run.one F.LEDGER_CAL_CHAN_EXCLUDED, Run.one F.LEDGER_SAMPLE_SEQ, Run.one F.LEDGER_SAMPLE_V_MV, Run.one F.LEDGER_SAMPLE_CODE, Run.one F.LEDGER_AVAILABLE_A, Run.one F.LEDGER_COMMITTED_C] ++
  [Run.one F.LEDGER_INFLIGHT_F, Run.one F.LEDGER_RESERVE_S, Run.one F.LEDGER_HEADROOM_H, Run.one F.LEDGER_MIN_HEADROOM_H_MIN, Run.one F.LEDGER_REFUSALS_COUNTS, Run.one F.LEDGER_EXHAUSTED_COUNT, Run.one F.LEDGER_CLR_GO, Run.one F.LEDGER_SEAL_FLAG_FLAG, Run.one F.LEDGER_LAST_SEAL_SEAL_SEQ, Run.one F.LEDGER_LAST_SEAL_DURATION_US, Run.one F.LEDGER_LAST_SEAL_FOUND, Run.one F.LEDGER_LAST_SEAL_SLOTS]
/-- The block-specific fields of SNAP. -/
def runsSNAP : List Run :=
  [Run.one F.SNAP_TRIGGER_FIRE, Run.one F.SNAP_CFG_EVT_BIT, Run.one F.SNAP_CFG_EVT_PAGE, Run.one F.SNAP_CFG_PEER_OUT, Run.one F.SNAP_CFG_PEER_IN, Run.one F.SNAP_CFG_EVT_EN, Run.one F.SNAP_CFG_SNAP_IN_EDGE, Run.one F.SNAP_CFG_SNAP_IN_EN, Run.one F.SNAP_CFG_HOLD, Run.one F.SNAP_REARM_CLR_COUNTS, Run.one F.SNAP_REARM_GO, Run.one F.SNAP_STATE_BUSY, Run.one F.SNAP_STATE_HELD, Run.one F.SNAP_LAST_EPOCH_EPOCH, Run.one F.SNAP_LAST_TIME_TIME, Run.one F.SNAP_COUNTS_MERGED, Run.one F.SNAP_COUNTS_MISSED, Run.one F.SNAP_SKEW_LATCHED, Run.one F.SNAP_SKEW_SPREAD]
/-- The block-specific fields of TIME. -/
def runsTIME : List Run :=
  [Run.one F.TIME_STATUS_LTC_RATE, Run.one F.TIME_STATUS_GEN_FREE, Run.one F.TIME_STATUS_LTC_LOCK, Run.one F.TIME_STATUS_KEEP_ON_VBAK, Run.one F.TIME_STATUS_ALARM_FIRED, Run.one F.TIME_STATUS_STALE, Run.one F.TIME_STATUS_LOST, Run.one F.TIME_TB, Run.one F.TIME_CAL, Run.one F.TIME_CAL_SET_VALUE, Run.one F.TIME_CAL_SET_TB_TB, Run.one F.TIME_TRIM_COUNTS, Run.one F.TIME_ALARM_SECONDS, Run.one F.TIME_ALARM_EN, Run.one F.TIME_KEEP_SEC_SECONDS, Run.one F.TIME_VBAK_MV, Run.one F.TIME_VBAK_CFG_LOW_MV, Run.one F.TIME_SEC_TB_TB, Run.one F.TIME_SEC_CAL_SECONDS, Run.one F.TIME_TC_CFG_LOSS_FRAMES, Run.one F.TIME_TC_CFG_LTC_EN, Run.one F.TIME_TC_CFG_GEN_RATE, Run.one F.TIME_GEN_PRESET_ADDR, Run.one F.TIME_GEN_ADDR_ADDR, Run.one F.TIME_LTC_ADDR_ADDR, Run.one F.TIME_LTC_USER_BITS, Run.one F.TIME_LTC_TB_TB, Run.one F.TIME_PERIOD_TICKS_Q8, Run.one F.TIME_LTC_STAT_FRAMES_OK, Run.one F.TIME_LTC_STAT_LOCK_LOSS] ++
  [Run.one F.TIME_LTC_STAT_JUMPS, Run.one F.TIME_LTC_STAT_FRAMES_BAD, Run.one F.TIME_FRM_STAT_PULSES, Run.one F.TIME_FRM_STAT_PERIOD_TICKS, Run.one F.TIME_CAL_STEPS_COUNT, Run.one F.TIME_CLR_GO]
/-- The block-specific fields of SEC. -/
def runsSEC : List Run :=
  [Run.one F.SEC_STATUS_SANITIZING, Run.one F.SEC_STATUS_TAMPER_LATCHED, Run.one F.SEC_STATUS_RECOVERY_SET, Run.one F.SEC_STATUS_CARRY_HOURS, Run.one F.SEC_STATUS_CARRY_OK, Run.one F.SEC_STATUS_CARRY_ARMED, Run.one F.SEC_STATUS_OWNER_SET, Run.one F.SEC_STATUS_STATE, Run.one F.SEC_ATTEMPTS_RECOVERY_LEFT, Run.one F.SEC_ATTEMPTS_OWNER_LEFT, Run.one F.SEC_TAMPER_CFG_EN, Run.one F.SEC_TAMPER_CFG_ACTION, Run.one F.SEC_TAMPER_LOG_KEEP_SEC, Run.one F.SEC_TAMPER_LOG_COUNT, Run.one F.SEC_CARRY_RESTORES, Run.one F.SEC_CARRY_SECONDS_LEFT, Run.one F.SEC_LOCK_MAP0_MAP, Run.one F.SEC_LOCK_MAP1_MAP, Run.one F.SEC_LOCKED_WRITES_COUNT, Run.one F.SEC_CRED_FAILS_COUNT, Run.one F.SEC_KEY_LOADED_ALL, Run.one F.SEC_CLR_GO]
/-- The block-specific fields of DBG. -/
def runsDBG : List Run :=
  [Run.one F.DBG_STATUS_CHAL_VALID, Run.one F.DBG_STATUS_AUTHORITY, Run.one F.DBG_STATUS_LEVEL, Run.one F.DBG_REQ_DROP, Run.one F.DBG_REQ_NEW_CHAL, ⟨0x108, 8, 6, F.DBG_CHAL⟩, Run.one F.DBG_RESP_HDR_LIFETIME_S, Run.one F.DBG_RESP_HDR_AUTHORITY, Run.one F.DBG_RESP_HDR_LEVEL, ⟨0x140, 8, 12, F.DBG_RESP_SIG⟩, Run.one F.DBG_SUBMIT_GO, Run.one F.DBG_SESSION_SECONDS_LEFT, Run.one F.DBG_FAILS_COUNT]
/-- The block-specific fields of CODE. -/
def runsCODE : List Run :=
  [Run.one F.CODE_STATUS_DEFERRING, Run.one F.CODE_STATUS_ERR, Run.one F.CODE_STATUS_OP, Run.one F.CODE_STATUS_ARMED, Run.one F.CODE_STATUS_BUSY, Run.one F.CODE_UNLOCK_A_KEY, Run.one F.CODE_UNLOCK_B_KEY, Run.one F.CODE_ADDR, Run.one F.CODE_CMD_OP, Run.one F.CODE_RESULT_VALUE, Run.one F.CODE_EC_SEL_SECTOR, Run.one F.CODE_OPS_ERASES, Run.one F.CODE_OPS_PROGRAMS, ⟨0x200, 8, 32, F.CODE_DATA⟩]
/-- The block-specific fields of UPD. -/
def runsUPD : List Run :=
  [Run.one F.UPD_STATUS_LAST_FAIL, Run.one F.UPD_STATUS_PHASE, Run.one F.UPD_STATUS_PENDING, Run.one F.UPD_STATUS_REVERTED, Run.one F.UPD_STATUS_TRIAL, Run.one F.UPD_STATUS_BOOTED, Run.one F.UPD_STATUS_ACTIVE, Run.one F.UPD_CFG_LOCKED_OK, Run.one F.UPD_CFG_RESERVE_UJ, Run.one F.UPD_SUPPLY_STATE, Run.one F.UPD_STAGED0_PRESENT, Run.one F.UPD_STAGED1_PRESENT, Run.one F.UPD_DL_ID_IMAGE_ID, Run.one F.UPD_DL_INFO_KIND, Run.one F.UPD_DL_INFO_COUNT, Run.one F.UPD_COPY_TOTAL, Run.one F.UPD_COPY_DONE, Run.one F.UPD_SLOT_A_ID_IMAGE_ID, Run.one F.UPD_SLOT_B_ID_IMAGE_ID, Run.one F.UPD_SVN_SLOT_B, Run.one F.UPD_SVN_SLOT_A, Run.one F.UPD_SVN_FUSED, Run.one F.UPD_PARCEL_ERR_OFFSET, Run.one F.UPD_PARCEL_ERR_CHECK, Run.one F.UPD_REFUSALS_COUNT]
/-- The block-specific fields of BIST. -/
def runsBIST : List Run :=
  [Run.one F.BIST_STATUS_SEG_LEFT, Run.one F.BIST_STATUS_FUSING, Run.one F.BIST_STATUS_FUSE_BUSY, Run.one F.BIST_STATUS_RUN_BUSY, Run.one F.BIST_CMD_FUSE_ARRAY, Run.one F.BIST_CMD_FUSE, Run.one F.BIST_CMD_ABORT, Run.one F.BIST_CMD_GO, Run.one F.BIST_ARRAY_MASK_MASK, Run.one F.BIST_RESULT_SKIPPED, Run.one F.BIST_RESULT_REPAIRED, Run.one F.BIST_RESULT_FAILED, Run.one F.BIST_REPAIR_SEL_ARRAY, Run.one F.BIST_COUNTS_REPAIRS, Run.one F.BIST_COUNTS_RUNS, Run.one F.BIST_FATAL_CODE, Run.one F.BIST_FATAL_DETAIL, Run.one F.BIST_FATAL_MODE, Run.one F.BIST_FATAL_TB_TB, Run.one F.BIST_CLR_GO]
/-- The block-specific fields of FI. -/
def runsFI : List Run :=
  [Run.one F.FI_CTL_EN, Run.one F.FI_STATUS_PERMITTED, Run.one F.FI_STATUS_ARMED, ⟨0x100, 0x40, 7, F.FI_CFG_STATE⟩, ⟨0x100, 0x40, 7, F.FI_CFG_OPS⟩, ⟨0x100, 0x40, 7, F.FI_CFG_TARGET⟩, ⟨0x100, 0x40, 7, F.FI_CFG_ARM⟩, ⟨0x100, 0x40, 7, F.FI_CFG_FIX⟩, ⟨0x100, 0x40, 7, F.FI_CFG_SHOT⟩, ⟨0x100, 0x40, 7, F.FI_CFG_ACTION⟩, ⟨0x108, 0x40, 7, F.FI_EVERY_START⟩, ⟨0x108, 0x40, 7, F.FI_EVERY_N⟩, ⟨0x110, 0x40, 7, F.FI_MASK⟩, ⟨0x118, 0x40, 7, F.FI_POS_WINDOW⟩, ⟨0x118, 0x40, 7, F.FI_POS_SPAN⟩, ⟨0x118, 0x40, 7, F.FI_POS_POSITION⟩, ⟨0x120, 0x40, 7, F.FI_UNITS_COUNT⟩, ⟨0x128, 0x40, 7, F.FI_ACTED_HELD_LOST⟩, ⟨0x128, 0x40, 7, F.FI_ACTED_COUNT⟩, ⟨0x130, 0x40, 7, F.FI_LAST_TB_TB⟩]
/-- The block-specific fields of MBX. -/
def runsMBX : List Run :=
  [Run.one F.MBX_STATUS_P_LOST, Run.one F.MBX_STATUS_P_UP, Run.one F.MBX_STATUS_H_OWNER, ⟨0x100, 0x100, 4, F.MBX_RING⟩, ⟨0x108, 0x100, 4, F.MBX_DB⟩, ⟨0x110, 0x100, 4, F.MBX_MASK⟩, ⟨0x118, 0x100, 4, F.MBX_BLK_STATE_POSTER⟩, ⟨0x118, 0x100, 4, F.MBX_BLK_STATE_STATE⟩, ⟨0x120, 0x100, 4, F.MBX_BLK_CTL_RELEASE⟩, ⟨0x120, 0x100, 4, F.MBX_BLK_CTL_DONE⟩, ⟨0x120, 0x100, 4, F.MBX_BLK_CTL_GO⟩, ⟨0x128, 0x100, 4, F.MBX_Q_PUSH_WORD⟩, ⟨0x130, 0x100, 4, F.MBX_Q_POP_N⟩, ⟨0x138, 0x100, 4, F.MBX_Q_HEAD_WORD⟩, ⟨0x140, 0x100, 4, F.MBX_Q_STATE_PUSH_REFUSED⟩, ⟨0x140, 0x100, 4, F.MBX_Q_STATE_COUNT⟩, ⟨0x148, 0x100, 4, F.MBX_BUSY_CNT_COUNT⟩, ⟨0x180, 8, 16, F.MBX_BLK_WORD 0⟩, ⟨0x280, 8, 16, F.MBX_BLK_WORD 1⟩, ⟨0x380, 8, 16, F.MBX_BLK_WORD 2⟩, ⟨0x480, 8, 16, F.MBX_BLK_WORD 3⟩]
/-- The block-specific fields of SDMA. -/
def runsSDMA : List Run :=
  [Run.one F.SDMA_BYTES_COUNT, Run.one F.SDMA_ERRORS_COUNT, Run.one F.SDMA_CLR_GO, ⟨0x200, 0x40, 8, F.SDMA_CTL_SNOOP⟩, ⟨0x200, 0x40, 8, F.SDMA_CTL_MODE⟩, ⟨0x200, 0x40, 8, F.SDMA_CTL_PAUSE⟩, ⟨0x200, 0x40, 8, F.SDMA_CTL_EN⟩, ⟨0x208, 0x40, 8, F.SDMA_STATUS_OWNER⟩, ⟨0x208, 0x40, 8, F.SDMA_STATUS_ERR⟩, ⟨0x208, 0x40, 8, F.SDMA_STATUS_RUN⟩, ⟨0x208, 0x40, 8, F.SDMA_STATUS_REENABLE_PENDING⟩, ⟨0x208, 0x40, 8, F.SDMA_STATUS_FSTATE⟩, ⟨0x210, 0x40, 8, F.SDMA_SRC_ADDR⟩, ⟨0x218, 0x40, 8, F.SDMA_DST_ADDR⟩, ⟨0x220, 0x40, 8, F.SDMA_COUNT_BYTES⟩, ⟨0x228, 0x40, 8, F.SDMA_START_RING_RESET⟩, ⟨0x228, 0x40, 8, F.SDMA_START_KICK⟩, ⟨0x228, 0x40, 8, F.SDMA_START_GO⟩, ⟨0x230, 0x40, 8, F.SDMA_DESC_BASE_ADDR⟩, ⟨0x238, 0x40, 8, F.SDMA_DESC_CFG_HEAD⟩, ⟨0x238, 0x40, 8, F.SDMA_DESC_CFG_N⟩]
/-- The block-specific fields of CRCU. -/
def runsCRCU : List Run :=
  [⟨0x100, 0x80, 4, F.CRCU_CFG_CMP⟩, ⟨0x100, 0x80, 4, F.CRCU_CFG_CHAN⟩, ⟨0x100, 0x80, 4, F.CRCU_CFG_SRC⟩, ⟨0x100, 0x80, 4, F.CRCU_CFG_POLY⟩, ⟨0x100, 0x80, 4, F.CRCU_CFG_EN⟩, ⟨0x108, 0x80, 4, F.CRCU_ACC⟩, ⟨0x110, 0x80, 4, F.CRCU_RESULT⟩, ⟨0x118, 0x80, 4, F.CRCU_CLEAR_GO⟩, ⟨0x120, 0x80, 4, F.CRCU_FEED_DATA⟩, ⟨0x128, 0x80, 4, F.CRCU_FEED_PART_DATA⟩, ⟨0x130, 0x80, 4, F.CRCU_LIMIT_BYTES⟩, ⟨0x138, 0x80, 4, F.CRCU_EXPECT_VALUE⟩, ⟨0x140, 0x80, 4, F.CRCU_BYTES_COUNT⟩]
/-- The block-specific fields of HOSTQ. -/
def runsHOSTQ : List Run :=
  [Run.one F.HOSTQ_STATUS_QPAIRS, Run.one F.HOSTQ_STATUS_CFS, Run.one F.HOSTQ_STATUS_RDY, Run.one F.HOSTQ_STATUS_EN, Run.one F.HOSTQ_ABORT_CFG_WIN_US, Run.one F.HOSTQ_ST_YIELD_FORCE_MS, Run.one F.HOSTQ_ST_YIELD_IDLE_US, Run.one F.HOSTQ_INFLIGHT_COUNT, Run.one F.HOSTQ_FETCH_LAT_MAX_NS, Run.one F.HOSTQ_ACK_LAT_MAX_NS, Run.one F.HOSTQ_PAGE_ROUTE0_ROUTE, Run.one F.HOSTQ_PAGE_ROUTE1_ROUTE, Run.one F.HOSTQ_PAGE_PEND0_PEND, Run.one F.HOSTQ_PAGE_PEND1_PEND, Run.one F.HOSTQ_ABORTS_NOT_CAUGHT, Run.one F.HOSTQ_ABORTS_CAUGHT, Run.one F.HOSTQ_REFUSED_COUNT, Run.one F.HOSTQ_PI_ERRORS_REF, Run.one F.HOSTQ_PI_ERRORS_APP, Run.one F.HOSTQ_PI_ERRORS_GUARD, Run.one F.HOSTQ_DB_ERRORS_VALUE, Run.one F.HOSTQ_DB_ERRORS_REG, Run.one F.HOSTQ_CLR_GO, ⟨0x400, 8, 256, F.HOSTQ_QBIND_VALID⟩, ⟨0x400, 8, 256, F.HOSTQ_QBIND_STREAM⟩, ⟨0x400, 8, 256, F.HOSTQ_QBIND_QOS⟩, ⟨0x400, 8, 256, F.HOSTQ_QBIND_OUTSTANDING⟩]
/-- The block-specific fields of PCIE. -/
def runsPCIE : List Run :=
  [Run.one F.PCIE_STATUS_L1SS, Run.one F.PCIE_STATUS_DSTATE, Run.one F.PCIE_STATUS_WIDTH, Run.one F.PCIE_STATUS_SPEED, Run.one F.PCIE_LINK_CFG_L1SS_ALLOW, Run.one F.PCIE_LINK_CFG_L1_ALLOW, Run.one F.PCIE_LINK_CFG_MAX_WIDTH, Run.one F.PCIE_LINK_CFG_MAX_SPEED, Run.one F.PCIE_RETRAIN_GO, Run.one F.PCIE_ERR_CNT_REPLAY_TO, Run.one F.PCIE_ERR_CNT_BAD_DLLP, Run.one F.PCIE_ERR_CNT_BAD_TLP, Run.one F.PCIE_ERR_CNT_RX_ERR, Run.one F.PCIE_RECOV_SPEED_CHANGES, Run.one F.PCIE_RECOV_ENTRIES, Run.one F.PCIE_EQ_STATUS_DONE, Run.one F.PCIE_CLR_GO, Run.one F.PCIE_WAKE_CTL_ON_MBX, Run.one F.PCIE_WAKE_CTL_ON_ALARM, Run.one F.PCIE_WAKE_CTL_ON_WAKE]
/-- The block-specific fields of INGEST. -/
def runsINGEST : List Run :=
  [Run.one F.INGEST_CTL_EN, Run.one F.INGEST_STATUS_LOCKED, Run.one F.INGEST_STATUS_READY, Run.one F.INGEST_STATUS_XOFF, Run.one F.INGEST_STATUS_ALIGNED, Run.one F.INGEST_STATUS_REENABLE_PENDING, Run.one F.INGEST_STATUS_FSTATE, Run.one F.INGEST_CFG_MAX_LEN_MIB, Run.one F.INGEST_CFG_ALIGN_MAX, Run.one F.INGEST_CFG_PATTERN_TOL, Run.one F.INGEST_CFG_MAX_GAP, Run.one F.INGEST_CFG_POLARITY, Run.one F.INGEST_CFG_LANES, Run.one F.INGEST_FLOW_ELASTIC_KIB, Run.one F.INGEST_FLOW_CONSUMED, Run.one F.INGEST_FLOW_CREDIT, Run.one F.INGEST_XOFF_TIME_TICKS, ⟨0x120, 8, 4, F.INGEST_STREAM_EN_EN⟩, Run.one F.INGEST_VC_STATE_ORPHAN, Run.one F.INGEST_VC_STATE_STATE, Run.one F.INGEST_VC_STREAM_STREAM, Run.one F.INGEST_FRAMES_DAMAGED, Run.one F.INGEST_FRAMES_ACCEPTED, Run.one F.INGEST_HDR_ERR_STREAM_BUSY, Run.one F.INGEST_HDR_ERR_BAD_FIELD, Run.one F.INGEST_HDR_ERR_OUT_OF_WINDOW, Run.one F.INGEST_HDR_ERR_CRC, Run.one F.INGEST_CHK_ABORTS, Run.one F.INGEST_CHK_TERM_MISMATCH, Run.one F.INGEST_CHK_TERM_MISSING] ++
  [Run.one F.INGEST_CHK_CHECK_DOUBT, Run.one F.INGEST_GAP_ORPHANS, Run.one F.INGEST_GAP_GAP_EVENTS, Run.one F.INGEST_GAP_FRAMES_SKIPPED, Run.one F.INGEST_PROTO_CREDIT_VIOL, Run.one F.INGEST_PROTO_UNBOUND_BLOCKS, Run.one F.INGEST_PROTO_UNBOUND_FRAMES, Run.one F.INGEST_PROTO_BAD_CTRL, Run.one F.INGEST_LINK_REALIGNS, Run.one F.INGEST_LINK_ALIGN_FAIL, Run.one F.INGEST_CLR_GO, ⟨0x200, 8, 8, F.INGEST_LANE_LOGICAL⟩, ⟨0x200, 8, 8, F.INGEST_LANE_SKEW_UI⟩, ⟨0x200, 8, 8, F.INGEST_LANE_SLIPS⟩, ⟨0x200, 8, 8, F.INGEST_LANE_LOCK_LOSS⟩, ⟨0x200, 8, 8, F.INGEST_LANE_BAD_SH⟩]
/-- The block-specific fields of FRAME. -/
def runsFRAME : List Run :=
  [Run.one F.FRAME_TAKE_CFG_STOP_MS, Run.one F.FRAME_PULSE_AGE_US, Run.one F.FRAME_ACAP_FLUSH_MS, Run.one F.FRAME_ACAP_RUN_US, Run.one F.FRAME_ACAP_STREAM, Run.one F.FRAME_ACAP_EN1, Run.one F.FRAME_ACAP_EN0, Run.one F.FRAME_DESC_SEL_STREAM, ⟨0x10000, 16, 256, F.FRAME_DESC_A_DESC⟩, ⟨0x10008, 16, 256, F.FRAME_DESC_B_DESC⟩, Run.one F.FRAME_TAKES_OPEN, Run.one F.FRAME_TAKES_LAST, ⟨0x148, 8, 4, F.FRAME_TAKE_MAP_MAP⟩, Run.one F.FRAME_COUNTS_SKETCHES, Run.one F.FRAME_COUNTS_ENTRIES, Run.one F.FRAME_PULSE_STAT_PULSES, Run.one F.FRAME_PULSE_STAT_NO_PULSE, Run.one F.FRAME_PULSE_STAT_PULSE_SKIP, Run.one F.FRAME_ACAP_STAT_OVERRUN, Run.one F.FRAME_ACAP_STAT_UNITS, Run.one F.FRAME_SKETCH_STAT_SKIP, Run.one F.FRAME_CLR_GO]
/-- The block-specific fields of MAP. -/
def runsMAP : List Run :=
  [Run.one F.MAP_STATUS_RESERVE_LEFT, Run.one F.MAP_STATUS_CKPT_BUSY, Run.one F.MAP_STATUS_PHASE, Run.one F.MAP_CFG_RSV_BANDS, Run.one F.MAP_CFG_JTAIL_MAX, Run.one F.MAP_CFG_CKPT_MIB, Run.one F.MAP_CFG_PAD_US, Run.one F.MAP_LEAF_INGEST_RSV, Run.one F.MAP_LEAF_POOL_MIB, Run.one F.MAP_GEOM_BAND_STRIPES, Run.one F.MAP_STREAM_SEL_STREAM, ⟨0x10000, 32, 256, F.MAP_STREAM_CFG_PG⟩, ⟨0x10000, 32, 256, F.MAP_STREAM_CFG_MODE⟩, ⟨0x10000, 32, 256, F.MAP_STREAM_CFG_NSID⟩, ⟨0x10008, 32, 256, F.MAP_STREAM_REGION_LEN_EXT⟩, ⟨0x10008, 32, 256, F.MAP_STREAM_REGION_BASE_EXT⟩, ⟨0x10010, 32, 256, F.MAP_STREAM_APPEND_LEAVES⟩, Run.one F.MAP_JOURNAL_SEQ, Run.one F.MAP_JOURNAL_TAIL, Run.one F.MAP_CKPT_NUMBER, Run.one F.MAP_CKPT_GO, Run.one F.MAP_LEAF_USED_TABLES, Run.one F.MAP_COUNTS_CONVERSIONS, Run.one F.MAP_COUNTS_PADS, Run.one F.MAP_SEGMENTS_TOTAL, Run.one F.MAP_SEGMENTS_RESIDENT, Run.one F.MAP_REBUILD_PHASE2_MS, Run.one F.MAP_REBUILD_PHASE1_MS, Run.one F.MAP_CLR_GO]
/-- The block-specific fields of MCACHE. -/
def runsMCACHE : List Run :=
  [Run.one F.MCACHE_STATUS_VBUF, Run.one F.MCACHE_STATUS_REENABLE_PENDING, Run.one F.MCACHE_STATUS_WAYS_ON, Run.one F.MCACHE_CFG_WAYS, Run.one F.MCACHE_CFG_EVICT, Run.one F.MCACHE_HITS_COUNT, Run.one F.MCACHE_MISSES_COUNT, Run.one F.MCACHE_VHITS_COUNT, Run.one F.MCACHE_WRITEBACKS_COUNT, Run.one F.MCACHE_FILL_WAIT_CYCLES, Run.one F.MCACHE_CLR_GO]
/-- The block-specific fields of DRAMC. -/
def runsDRAMC : List Run :=
  [Run.one F.DRAMC_STATUS_RETAINED, Run.one F.DRAMC_STATUS_INIT_DONE, Run.one F.DRAMC_STATUS_TRAIN, Run.one F.DRAMC_STATUS_SELF_REFRESH, Run.one F.DRAMC_STATUS_TRAINED, Run.one F.DRAMC_CFG_FINDEX_MIB, Run.one F.DRAMC_CFG_RATE, Run.one F.DRAMC_CFG_ORDER, Run.one F.DRAMC_CFG_GRAIN, Run.one F.DRAMC_PAGE_IDLE_NS, Run.one F.DRAMC_PAGE_POLICY, Run.one F.DRAMC_ORDERING_FIX0, Run.one F.DRAMC_ORDERING, Run.one F.DRAMC_ORDERING_FIX7, Run.one F.DRAMC_REFRESH_DRIFT_PS, Run.one F.DRAMC_REFRESH_RETRAIN_MS, Run.one F.DRAMC_REFRESH_MODE, Run.one F.DRAMC_GEOM_ROW_BITS, Run.one F.DRAMC_GEOM_DENSITY, Run.one F.DRAMC_GEOM_BANK_GROUPS, Run.one F.DRAMC_GEOM_RANKS2, Run.one F.DRAMC_GEOM_CHANNELS, Run.one F.DRAMC_SIZE_BYTES, Run.one F.DRAMC_REGION_A_MAP_MIB, Run.one F.DRAMC_REGION_A_JOURNAL_MIB, Run.one F.DRAMC_REGION_A_CORE_MIB, Run.one F.DRAMC_REGION_A_FINDEX_MIB, Run.one F.DRAMC_REGION_B_RCACHE_MIB, Run.one F.DRAMC_PASR_KEPT, Run.one F.DRAMC_TEMP_HIGH_COUNT] ++
  [Run.one F.DRAMC_TEMP_RATE, Run.one F.DRAMC_ECC_CE_COUNT, Run.one F.DRAMC_ECC_UE_COUNT, Run.one F.DRAMC_LAST_ERR_KIND, Run.one F.DRAMC_LAST_ERR_CLIENT, Run.one F.DRAMC_LAST_ERR_ADDR, Run.one F.DRAMC_FWD_COUNT, Run.one F.DRAMC_TRAFFIC_BYTES_64, Run.one F.DRAMC_CLR_GO]
/-- The block-specific fields of PBUF. -/
def runsPBUF : List Run :=
  [Run.one F.PBUF_FREE_COUNT, Run.one F.PBUF_FILLING_COUNT, Run.one F.PBUF_DURABLE_COUNT, Run.one F.PBUF_PROGRAMMING_COUNT, Run.one F.PBUF_MIRROR_PEND_COUNT, Run.one F.PBUF_RELOC_COUNT, Run.one F.PBUF_PARITY_COUNT, Run.one F.PBUF_HIGH_WATER_COUNT, Run.one F.PBUF_THRESH_LOW_FREE, Run.one F.PBUF_ADMIT_SEQ_SEQ, Run.one F.PBUF_CLR_GO]
/-- The block-specific fields of ECC. -/
def runsECC : List Run :=
  [Run.one F.ECC_STATUS_MAX_TIER, Run.one F.ECC_TIER_WEAR_W1, Run.one F.ECC_TIER_WEAR_W2, Run.one F.ECC_TIER_WEAR_W3, Run.one F.ECC_TIER_WEAR_W4, Run.one F.ECC_TIER_WEAR_W5, Run.one F.ECC_TIER_WEAR_W6, Run.one F.ECC_TIER_WEAR_W7, Run.one F.ECC_TIER_CFG_GROOM_MIN, Run.one F.ECC_TIER_CFG_META_MIN, Run.one F.ECC_TIER_CFG_LEAF_MIN, Run.one F.ECC_TIER_CFG_STREAM_MIN, Run.one F.ECC_TIER_CFG_TRACK_BUMP, Run.one F.ECC_DECODE_RECON_EN, Run.one F.ECC_DECODE_SOFT_EN, Run.one F.ECC_DECODE_RETRY_MAX, Run.one F.ECC_DECODE_ITER_HARD, Run.one F.ECC_RETRY_N_COUNT, Run.one F.ECC_TRACK_SEL_CHANNEL, Run.one F.ECC_TRACK_SEL_LUN, ⟨0x10000, 8, 1024, F.ECC_TRACK_CHANGES⟩, ⟨0x10000, 8, 1024, F.ECC_TRACK_HITS⟩, ⟨0x10000, 8, 1024, F.ECC_TRACK_INDEX⟩, ⟨0x140, 8, 16, F.ECC_RETRY_TBL_PARAM⟩, Run.one F.ECC_CW_COUNT, Run.one F.ECC_BITS_COUNT, Run.one F.ECC_RETRIES_COUNT, Run.one F.ECC_ESC_UNRECOVERED, Run.one F.ECC_ESC_RECON_OK, Run.one F.ECC_ESC_SOFT_OK] ++
  [Run.one F.ECC_ESC_RETRY_OK, Run.one F.ECC_CHECK_MARK_BAD, Run.one F.ECC_CHECK_MISPLACED, Run.one F.ECC_CHECK_MISCORRECT, Run.one F.ECC_CHECK_WRITTEN_WRONG, Run.one F.ECC_SRAM_CE_COUNTS, Run.one F.ECC_SRAM_UE_COUNTS, Run.one F.ECC_INTEG_PTR_COUNT, Run.one F.ECC_INTEG_PTR_NEXT, Run.one F.ECC_INTEG_SEL_INDEX, Run.one F.ECC_CLR_GO]
/-- The block-specific fields of SCRUB. -/
def runsSCRUB : List Run :=
  [Run.one F.SCRUB_CTL_EN, Run.one F.SCRUB_STATUS_BAND, Run.one F.SCRUB_STATUS_PERMILLE, Run.one F.SCRUB_CFG_PASS_H, Run.one F.SCRUB_CFG_RETAIN_DAYS, Run.one F.SCRUB_CFG_REFRESH_PCT, Run.one F.SCRUB_CFG_TRACK_REFRESH_S, Run.one F.SCRUB_CFG_DRAM_PATROL_H, Run.one F.SCRUB_SRAM_PATROL_MS, Run.one F.SCRUB_PASSES_COUNT, Run.one F.SCRUB_LAST_PASS_SECONDS, Run.one F.SCRUB_PAGES_COUNT, Run.one F.SCRUB_ACTIONS_RETAIN_REFRESH, Run.one F.SCRUB_ACTIONS_ERROR_REFRESH, Run.one F.SCRUB_ACTIONS_UNIT_RELOC, Run.one F.SCRUB_ACTIONS_TRACK_RESETS, Run.one F.SCRUB_DRAM_PASSES_COUNT, Run.one F.SCRUB_CLR_GO]
/-- The block-specific fields of GROOM. -/
def runsGROOM : List Run :=
  [Run.one F.GROOM_STATUS_VICTIM, Run.one F.GROOM_STATUS_SOURCE, Run.one F.GROOM_STATUS_ACTIVITY, Run.one F.GROOM_CFG_IDLE_CLOSE_MS, Run.one F.GROOM_CFG_RELOC_MAX, Run.one F.GROOM_CFG_ERASED_TARGET, Run.one F.GROOM_CFG_RSV_PCT, Run.one F.GROOM_CFG_EXIT_PCT, Run.one F.GROOM_CFG_ENTER_PCT, Run.one F.GROOM_CFG_BG_START_PCT, Run.one F.GROOM_WL_RATED, Run.one F.GROOM_WL_AGE_H, Run.one F.GROOM_WL_SPREAD, Run.one F.GROOM_OP_OP_PCT, Run.one F.GROOM_BANDS_CLOSED, Run.one F.GROOM_BANDS_TOTAL, Run.one F.GROOM_FREE_F, Run.one F.GROOM_FREE_DIRTY, Run.one F.GROOM_FREE_ERASED, Run.one F.GROOM_RESERVE_USED, Run.one F.GROOM_RESERVE_GC_RSV, Run.one F.GROOM_RELOC_PAGES_COUNT, Run.one F.GROOM_HOST_PAGES_COUNT, Run.one F.GROOM_ERASES_SUM, Run.one F.GROOM_VICTIMS_COUNTS, Run.one F.GROOM_EC_SEL_BLOCK_SET, Run.one F.GROOM_EC_SEL_LUN, Run.one F.GROOM_EC_SEL_CHANNEL, Run.one F.GROOM_CLR_GO]
/-- The block-specific fields of PAIR. -/
def runsPAIR : List Run :=
  [Run.one F.PAIR_CTL_EN, Run.one F.PAIR_STATUS_REENABLE_PENDING, Run.one F.PAIR_STATUS_ALIGNED, Run.one F.PAIR_STATUS_FSTATE, Run.one F.PAIR_STATUS_PAIR_STATE, Run.one F.PAIR_CFG_STALL_MS, Run.one F.PAIR_CFG_POLARITY, Run.one F.PAIR_CFG_AUTO_CONVERGE, Run.one F.PAIR_CFG_FEED, ⟨0x108, 8, 3, F.PAIR_CREDIT_ALLOC⟩, ⟨0x108, 8, 3, F.PAIR_CREDIT_RX_BUF⟩, ⟨0x108, 8, 3, F.PAIR_CREDIT_AVAIL⟩, Run.one F.PAIR_LINKERR_CRC_ERR, Run.one F.PAIR_LINKERR_NAKS, Run.one F.PAIR_LINKERR_RESENDS, Run.one F.PAIR_LINKERR_TRAINS, Run.one F.PAIR_BEAT_RECEIVED, Run.one F.PAIR_BEAT_LOSSES, Run.one F.PAIR_BEAT_MISS_RUN, Run.one F.PAIR_FAILOVER_LAST_NS, Run.one F.PAIR_FAILOVER_COUNT, Run.one F.PAIR_DIV_PEER_SEGS, Run.one F.PAIR_DIV_OWN_SEGS, Run.one F.PAIR_CONVERGE_MIB_COPIED, Run.one F.PAIR_CONVERGE_SEGS_LEFT, Run.one F.PAIR_ARB_UNRESOLVED, Run.one F.PAIR_ARB_REPAIRED, Run.one F.PAIR_ARB_CALC_REWRITE, Run.one F.PAIR_ARB_TRAILER_REWRITE, Run.one F.PAIR_ACK_LAT_MAX_NS] ++
  [Run.one F.PAIR_TB_OFS_TICKS, Run.one F.PAIR_CLR_GO, ⟨0x200, 8, 8, F.PAIR_LANE_LOGICAL⟩, ⟨0x200, 8, 8, F.PAIR_LANE_SKEW_UI⟩, ⟨0x200, 8, 8, F.PAIR_LANE_LOCK_LOSS⟩, ⟨0x200, 8, 8, F.PAIR_LANE_BAD_SH⟩]
/-- The block-specific fields of NVTCP. -/
def runsNVTCP : List Run :=
  [Run.one F.NVTCP_CTL_EN, Run.one F.NVTCP_STATUS_CLOSING, Run.one F.NVTCP_STATUS_DISC_CTRLS, Run.one F.NVTCP_STATUS_IO_CTRLS, Run.one F.NVTCP_STATUS_CONNS, Run.one F.NVTCP_CFG_MAX_QSIZE, Run.one F.NVTCP_CFG_STREAM, Run.one F.NVTCP_CFG_DDGST_OK, Run.one F.NVTCP_CFG_HDGST_OK, Run.one F.NVTCP_CFG_DISC_PORT, Run.one F.NVTCP_CFG_IO_PORT, Run.one F.NVTCP_WPOL_VERIFIED_ONLY, Run.one F.NVTCP_WPOL_DOCK_EN, Run.one F.NVTCP_WPOL_CAMERA_EN, Run.one F.NVTCP_WPOL_NS_MASK, Run.one F.NVTCP_VERIFY_CFG_HOLD_KIB, Run.one F.NVTCP_VERIFY_CFG_VCMD_EN, Run.one F.NVTCP_VERIFY_CFG_EN, Run.one F.NVTCP_CONN_ACCEPTED, Run.one F.NVTCP_CONN_REFUSED, Run.one F.NVTCP_DIGEST_DATA, Run.one F.NVTCP_DIGEST_HEADER, Run.one F.NVTCP_OUTCOMES_INCOMPLETE, Run.one F.NVTCP_OUTCOMES_UNREADABLE, Run.one F.NVTCP_OUTCOMES_MISMATCH, Run.one F.NVTCP_OUTCOMES_MATCH, Run.one F.NVTCP_HASHED_BYTES, Run.one F.NVTCP_CONTEXTS_PORT1, Run.one F.NVTCP_CONTEXTS_PORT0, Run.one F.NVTCP_TAKES_TRACKED] ++
  [Run.one F.NVTCP_TAKES_DECLARED, Run.one F.NVTCP_CLR_GO]
/-- The block-specific fields of ASER. -/
def runsASER : List Run :=
  [⟨0x100, 0x80, 2, F.ASER_CTL_SEND_BREAK⟩, ⟨0x100, 0x80, 2, F.ASER_CTL_EN⟩, ⟨0x108, 0x80, 2, F.ASER_CFG_BREAK_BITS⟩, ⟨0x108, 0x80, 2, F.ASER_CFG_STOP2⟩, ⟨0x108, 0x80, 2, F.ASER_CFG_PARITY⟩, ⟨0x108, 0x80, 2, F.ASER_CFG_DATA7⟩, ⟨0x108, 0x80, 2, F.ASER_CFG_DIVQ6⟩, ⟨0x110, 0x80, 2, F.ASER_RX_HEAD_TB⟩, ⟨0x110, 0x80, 2, F.ASER_RX_HEAD_VALID⟩, ⟨0x110, 0x80, 2, F.ASER_RX_HEAD_FLAGS⟩, ⟨0x110, 0x80, 2, F.ASER_RX_HEAD_DATA⟩, ⟨0x118, 0x80, 2, F.ASER_RX_POP_N⟩, ⟨0x120, 0x80, 2, F.ASER_TX_PUSH_DATA⟩, ⟨0x128, 0x80, 2, F.ASER_RX_STAT_FALSE_START⟩, ⟨0x128, 0x80, 2, F.ASER_RX_STAT_OVERRUN⟩, ⟨0x128, 0x80, 2, F.ASER_RX_STAT_FRAMING⟩, ⟨0x128, 0x80, 2, F.ASER_RX_STAT_COUNT⟩, ⟨0x130, 0x80, 2, F.ASER_TX_STAT_REFUSED⟩, ⟨0x130, 0x80, 2, F.ASER_TX_STAT_COUNT⟩, ⟨0x138, 0x80, 2, F.ASER_BREAKS_COUNT⟩, ⟨0x140, 0x80, 2, F.ASER_CLR_GO⟩]
/-- The block-specific fields of FCH. -/
def runsFCH (c : Nat) : List Run :=
  [Run.one (F.FCH_CTL_FAIL c), Run.one (F.FCH_STATUS_LUNS c), Run.one (F.FCH_STATUS_RATE c), Run.one (F.FCH_STATUS_IFACE c), Run.one (F.FCH_STATUS_STATE c), Run.one (F.FCH_PAD_ODT c), Run.one (F.FCH_PAD_SLEW c), Run.one (F.FCH_PAD_DRIVE c), Run.one (F.FCH_IFCFG_RATE_DIV c), Run.one (F.FCH_TIMEOUT_ERASE_US c), Run.one (F.FCH_TIMEOUT_PROG_US c), Run.one (F.FCH_TIMEOUT_READ_US c), Run.one (F.FCH_TIMEOUT_ZQ_MS c), Run.one (F.FCH_SUSP_CLASSES c), Run.one (F.FCH_SUSP_MIN_RUN_US c), Run.one (F.FCH_SUSP_MAX_ERASE c), Run.one (F.FCH_SUSP_MAX_PROG c), Run.one (F.FCH_SUSP_ERASE_EN c), Run.one (F.FCH_SUSP_PROG_EN c), Run.one (F.FCH_RETRY_FA c), Run.one (F.FCH_GEOM_PAGES_PER_BLOCK c), Run.one (F.FCH_GEOM_BLOCKS_PER_PLANE c), Run.one (F.FCH_GEOM_SPARE_BYTES c), Run.one (F.FCH_GEOM_CELL c), Run.one (F.FCH_GEOM_PLANES c), Run.one (F.FCH_GEOM_SLC_OK c), Run.one (F.FCH_LUN_STATE_STATE c), Run.one (F.FCH_SEAL_ERASED1 c), Run.one (F.FCH_SEAL_LUN1 c), Run.one (F.FCH_SEAL_BLOCK1 c)] ++
  [Run.one (F.FCH_SEAL_ERASED0 c), Run.one (F.FCH_SEAL_LUN0 c), Run.one (F.FCH_SEAL_BLOCK0 c), Run.one (F.FCH_CREDIT_IN_HANDSHAKE c), Run.one (F.FCH_CREDIT_SEQ c), Run.one (F.FCH_CREDIT_CORE c), Run.one (F.FCH_TOK_GRANTED_SUM c), Run.one (F.FCH_TOK_SPENT_SUM c), Run.one (F.FCH_TOK_EXPIRED_SUM c), Run.one (F.FCH_READS_COUNT c), Run.one (F.FCH_PROGS_COUNT c), Run.one (F.FCH_ERASES_COUNT c), Run.one (F.FCH_ERR_TIMEOUTS c), Run.one (F.FCH_ERR_PROG_FAIL c), Run.one (F.FCH_ERR_ERASE_FAIL c), Run.one (F.FCH_ERR_SUSPENDS c), Run.one (F.FCH_LAT_MAX_ERASE_US c), Run.one (F.FCH_LAT_MAX_PROG_US c), Run.one (F.FCH_SPARES_FEWEST c), Run.one (F.FCH_CLR_GO c)]
/-- The block-specific fields of NET. -/
def runsNET (p : Nat) : List Run :=
  [Run.one (F.NET_CTL_EN p), Run.one (F.NET_STATUS_REENABLE_PENDING p), Run.one (F.NET_STATUS_FEC_LOCK p), Run.one (F.NET_STATUS_LINK p), Run.one (F.NET_STATUS_PAUSED p), Run.one (F.NET_STATUS_FSTATE p), Run.one (F.NET_CFG_MTU p), Run.one (F.NET_CFG_VLAN_ID p), Run.one (F.NET_CFG_VLAN_PRI p), Run.one (F.NET_CFG_VLAN_EN p), Run.one (F.NET_CFG_TX_EQ p), Run.one (F.NET_CFG_PAUSE_RX p), Run.one (F.NET_CFG_FEC p), Run.one (F.NET_CFG_SPEED p), Run.one (F.NET_MAC_ADDR p), Run.one (F.NET_IPV4_DHCP p), Run.one (F.NET_IPV4_PREFIX p), Run.one (F.NET_IPV4_ADDR p), Run.one (F.NET_IPV4_GW_ADDR p), Run.one (F.NET_IPV4_LEASE_ADDR p), Run.one (F.NET_IPV6_HI_ADDR p), Run.one (F.NET_IPV6_LO_ADDR p), Run.one (F.NET_IPV6_CFG_PREFIX p), Run.one (F.NET_RX_BYTES_COUNT p), Run.one (F.NET_TX_BYTES_COUNT p), Run.one (F.NET_RX_ERR_FEC_UNCORR p), Run.one (F.NET_RX_ERR_LENGTH p), Run.one (F.NET_RX_ERR_FCS p), Run.one (F.NET_RX_ERR_DROPPED p), Run.one (F.NET_FEC_CORR_COUNT p)] ++
  [Run.one (F.NET_PAUSE_COUNT p), Run.one (F.NET_CLR_GO p)]

/-- The fields of page `p` (Table 02-1). -/
def pageRuns (p : Nat) : List Run :=
  match p with
  | 0 => runsSYS
  | 1 => runsPWR
  | 2 => runsCLK
  | 3 => runsBUDGET
  | 4 => runsLEDGER
  | 5 => runsSNAP
  | 6 => runsTIME
  | 7 => runsSEC
  | 8 => runsDBG
  | 9 => runsCODE
  | 10 => runsUPD
  | 11 => runsBIST
  | 12 => runsFI
  | 13 => runsMBX
  | 14 => runsSDMA
  | 15 => runsCRCU
  | 16 => runsHOSTQ
  | 17 => runsPCIE
  | 18 => runsINGEST
  | 19 => runsFRAME
  | 20 => runsMAP
  | 21 => runsMCACHE
  | 22 => runsDRAMC
  | 23 => runsPBUF
  | 24 => runsECC
  | 25 => runsSCRUB
  | 26 => runsGROOM
  | 27 => runsPAIR
  | 28 => runsNET 0
  | 29 => runsNET 1
  | 30 => runsNVTCP
  | 31 => runsASER
  | _ => if p < 0x60 then runsFCH (p - 0x20) else []

/-- Table 02-6, PAGE_CAPS.SHADOW: the page has RWS fields. -/
def hasShadow (p : Nat) : Bool := (pageRuns p).any (fun r => decide ((r.fld 0).acc = .rws))

/-- The fields at an offset of a page. -/
def fieldsAt (p off : Nat) : List Field :=
  (if off < 0x100 then headerRuns p (hasShadow p) else []).filterMap (·.at? off) ++ (pageRuns p).filterMap (·.at? off)

/-- The field a register-file key belongs to. -/
def fieldOf (k : Nat) : Option Field := (fieldsAt (keyPage k) (keyOff k)).find? (fun f => f.lo == keyLo k)

/-- Table 02-6, PAGE_CAPS.LOCKABLE: the page has RWL fields. -/
def lockable (p : Nat) : Bool := (pageRuns p).any (fun r => decide ((r.fld 0).acc = .rwl))

/-- R45: the registers whose values SNAP_0, SNAP_1, ... of page `p` latch. -/
def snapWords (p : Nat) : List Nat :=
  match p with
  | 3 => [0x18, 0x150, 0x148, 0x180, 0x188, 0x190, 0x198, 0x1a0, 0x1a8, 0x1b0, 0x1b8]
  | 4 => [0x148, 0x150, 0x158, 0x160, 0x168, 0x170, 0x118]
  | 6 => [0x108, 0x18, 0x168, 0x180]
  | 7 => [0x18, 0x100, 0x118]
  | 8 => [0x18]
  | 9 => [0x18, 0x140]
  | 10 => [0x18, 0x130]
  | 11 => [0x18, 0x128]
  | 12 => [0x128, 0x168, 0x1a8, 0x1e8, 0x228, 0x268, 0x2a8]
  | 13 => [0x140, 0x240, 0x340, 0x440]
  | 14 => [0x208, 0x248, 0x288, 0x2c8, 0x308, 0x348, 0x388, 0x3c8, 0x100]
  | 15 => [0x140, 0x1c0, 0x240, 0x2c0]
  | 16 => [0x18, 0x110, 0x148, 0x120]
  | 17 => [0x18, 0x110, 0x118]
  | 18 => [0x18, 0x108, 0x140, 0x148, 0x150, 0x158, 0x160, 0x168, 0x170]
  | 19 => [0x140, 0x168, 0x170, 0x178, 0x180]
  | 20 => [0x18, 0x138, 0x148, 0x150, 0x158]
  | 21 => [0x18, 0x108, 0x110, 0x118, 0x128]
  | 22 => [0x18, 0x150, 0x158, 0x168, 0x170]
  | 23 => [0x100, 0x108, 0x110, 0x118, 0x120, 0x128, 0x130, 0x148]
  | 24 => [0x1c0, 0x1c8, 0x1d8, 0x1e0, 0x1e8, 0x1f0]
  | 25 => [0x18, 0x120, 0x128]
  | 26 => [0x18, 0x120, 0x128, 0x130, 0x138, 0x140]
  | 27 => [0x18, 0x108, 0x110, 0x118, 0x120, 0x128, 0x138]
  | 28 => [0x18, 0x140, 0x148, 0x150]
  | 29 => [0x18, 0x140, 0x148, 0x150]
  | 30 => [0x18, 0x118, 0x128, 0x130, 0x138, 0x140]
  | 31 => [0x128, 0x1a8]
  | _ => if 0x20 ≤ p ∧ p < 0x60 then [0x18, 0x140, 0x148, 0x150, 0x158, 0x178] else []

/-- R44: the island that serves page `p`. -/
def pageIsland (p : Nat) : Nat :=
  if 0x20 ≤ p then 8 + (p - 0x20) / 4 % 16
  else match p with
    | 0x03 | 0x04 => 6
    | 0x10 | 0x11 => 2
    | 0x12 => 3
    | 0x13 | 0x14 | 0x15 | 0x17 | 0x18 | 0x19 | 0x1a => 6
    | 0x16 => 7
    | 0x1b => 4
    | 0x1c | 0x1d | 0x1e => 5
    | _ => 1

/-- Table 02-3: the management class of pages. -/
def mgmtClass (p : Nat) : Bool :=
  [0x00, 0x01, 0x02, 0x05, 0x06, 0x07, 0x08, 0x09, 0x0a, 0x0b, 0x0c, 0x0d, 0x0e, 0x0f, 0x1f].contains p

end Sys2Proof.Machine
end

