-- ==== Sys2Proof/Machine/State.lean ====
section
/-!
DEFINITION. The state of the HZB6440 as plain data: the register fields of the 96 pages (active, pending and in
adoption), and the state behind them that the spec names, grouped as the spec's chapters group it; the queue of the
commands that wait; the faults and refusals; and the state right after reset.
-/

namespace Sys2Proof.Machine

/-- A table: entries by key, keys rising. -/
abbrev Tbl (α : Type) := List (Nat × α)

/-! ### The register fabric (chapter 02) -/

/-- A held half of a register: the BAR2 offset of its low half and the value (R47, R48). -/
structure Half where
  addr : Nat
  val  : Nat
  deriving DecidableEq, Repr

/-- The holding registers of the three requesters (R47, R48), the data returned by the last read, and
the pages of each global commit that are still in adoption (R52). -/
structure Fabric where
  wCamera   : Option Half := none
  wFirmware : Option Half := none
  wSniwyn   : Option Half := none
  rCamera   : Option Half := none
  rFirmware : Option Half := none
  rSniwyn   : Option Half := none
  data      : Nat := 0
  gpages    : List (List Nat) := []
  deriving DecidableEq, Repr

/-! ### Pins, references, modes (chapters 03 and 04) -/

/-- Pins after their filters: the levels of RESET_N, WAKE_N (an output) and TAMPER_N; whether PERST_N and PWR_FAIL_N are
asserted; VIN_SENSE in mV and whether its comparator shows it low (R80); whether a peer is fitted; and whether the TAP has MBXACC
selected. -/
structure Pins where
  resetN  : Bool := true
  perstN  : Bool := false
  pwrFail : Bool := false
  vinLow  : Bool := false
  vinMv   : Nat := 1200
  wakeN   : Bool := true
  tamperN : Bool := true
  peerFitted : Bool := false
  mbxacc  : Bool := false
  deriving DecidableEq, Repr

/-- A mode transition in progress (R114): its target and its cause code. -/
structure Trans where
  target : Nat
  cause : Nat
  deriving DecidableEq, Repr

/-- A drain towards Rest or Keep (R119, R120): the target, the cause, and whether the drain has completed. -/
structure Drain where
  target : Nat
  cause : Nat
  done  : Bool
  deriving DecidableEq, Repr

/-- A request that firmware serves: where it came from (0 the HI queue, 1 the HI block, 2 the peer), its words, and the
timebase of its header. -/
structure MbxReq where
  via   : Nat
  words : List Nat
  tb    : Nat
  deriving DecidableEq, Repr

/-- The mode controller: the transition or drain in progress, the held requests of the three sources (R128), the
vendor Mode Request that waits for its transition, the reset flush's pending cause bits (R103), the resets deferred by
a code-store sector operation (R577), and the Take Starts and automatic Groom entry that wait for Idle, whether PE_REFCLK was lost in an L1 substate (R99), and the cause of
a request for Idle that closes Offload's connections (R479), the spread each spread PLL runs with (R89), and whether the reset
flush has ended, with its cause. -/
structure ModeCtl where
  trans     : Option Trans := none
  drain     : Option Drain := none
  heldReg   : Option Nat := none
  heldCmd   : Option (Nat × Cid) := none
  heldMbx   : Option (Nat × MbxReq) := none
  waiter    : Option Cid := none
  waitMbx   : Option MbxReq := none
  flushing  : Nat := 0
  l1ssRef   : Bool := false
  offCause  : Option Nat := none
  takeWait  : List (Cid × Nat × Nat × Nat) := []
  ssc       : List Nat := [0, 0, 0, 0, 0, 0]
  flushDone : Bool := false
  flushCause : Nat := 0
  islLatch  : Nat := 0
  deriving DecidableEq, Repr

/-! ### The protected buffer, the ledger and Seal (chapters 01 and 05) -/

/-- The lists a slot that is not free may stand in (Table 01-3). -/
inductive SlotList where
  | filling | mirror | durable | programming
  deriving DecidableEq, Repr

/-- What a slot holds: host data, frame data, internal data, relocated data, running parity of a stripe, or running
parity of a stripe of grooming's. -/
inductive SlotKind where
  | host | frame | internal | reloc | parity | relocParity
  deriving DecidableEq, Repr

/-- What a slot belongs to: a command, a frame, a stripe, a relocation, a peer's message, or nothing any more. -/
inductive Owner where
  | cmd (c : Cid)
  | frame (id : Nat)
  | stripe (n : Nat)
  | reloc (ua : Nat)
  | peer (n : Nat)
  | none
  deriving DecidableEq, Repr

/-- A slot of the protected buffer that is not free. `charge` is in 1/256 ledger unit (R141); `mask` has one bit per
512-byte sector of the leaf that the slot holds; `data` is the leaf's eight sectors, each a number of 4,096 bits of data with the
metadata of its logical block above them; `group` is the placement group, and
`poison` marks a poisoned slot (R395). -/
structure Slot where
  seq    : Nat
  lst    : SlotList
  kind   : SlotKind
  owner  : Owner
  charge : Nat
  stream : Nat
  nsid   : Nat
  key    : Nat
  mask   : Nat
  data   : List Nat
  group  : Nat := 0
  poison : Bool := false
  deriving DecidableEq, Repr

/-- The requesters of slots, in the order of R35's rotation. -/
inductive Who where
  | ingest | host | net | pair | groom
  deriving DecidableEq, Repr

/-- A request for slots that waits for admission (R147, R148): who asks, the QoS class and queue for HOST, whether it
has been refused once, the shortfall of the last decision, and the slots as they will be once admitted. -/
structure SlotReq where
  who     : Who
  qos     : Nat
  queue   : Nat
  refused : Bool
  short   : Option Nat
  slots   : List Slot
  deriving DecidableEq, Repr

/-- What Seal, a reset flush or a controlled entry to Keep is writing (Table 05-1): which it is, its cause, the
timebase at the trigger, its step, the slots still to be written, those written by kind, the journal slots still to be
written, the channels left out, whether a replay was interrupted, the µs to the end of the tail, and the calendar and ADMIT_SEQ at
the trigger. -/
structure Sealing where
  reset   : Bool
  keep    : Bool
  cause   : Nat
  tb      : Nat
  step    : Nat
  seq     : Nat
  todo    : List Slot
  jtail   : Nat
  counts  : List Nat
  failed  : List Nat
  replay  : Bool
  dur     : Nat := 0
  cal     : Nat := 0
  admSeq  : Nat := 0
  deriving DecidableEq, Repr

/-- The energy ledger (chapter 05): requests for slots that wait, the requester the rotation stands at, the last rail
voltage, the runs of saturated and of clean samples, whether a sample has been taken, T_SLOT as a fraction of a ns,
the record latched for Ledger Query, whether MIN_HEADROOM has been taken since a clear, T_RECORD in 1/16 ns, the weights
left of the weighted round robin (R206), and the sequence in progress. -/
structure Ledger where
  reqs     : List SlotReq := []
  turn     : Nat := 0
  hostTurn : Nat := 0
  lastV    : Nat := 0
  satRun   : Nat := 0
  cleanRun : Nat := 0
  sampled  : Bool := false
  tslotNum : Nat := 0
  tslotDen : Nat := 1
  calBusy  : Bool := false
  negative : Bool := false
  sampleTb : Nat := 0
  latched  : List Nat := []
  minSet   : Bool := false
  tRec16   : Nat := 0
  wrr      : List Nat := [0, 0, 0]
  sealing  : Option Sealing := none
  deriving DecidableEq, Repr

/-! ### The budget arbiter (chapter 06) -/

/-- What a flash operation does. -/
inductive OpKind where
  | read | prog | progSlc | erase
  deriving DecidableEq, Repr

/-- Where a flash operation stands: in its class queue, picked with tokens granted this window, issued to its LUN, or
suspended there. -/
inductive OpPhase where
  | queued | picked | running | suspended
  deriving DecidableEq, Repr

/-- Why a flash operation is made. -/
inductive OpWhy where
  | page | host | dock | reloc | scrub | track | band | sealBlock | metaWork
  deriving DecidableEq, Repr

/-- A flash operation under the arbiter (R173, R174): its class, its order within it, its cost in 1/16 unit, the windows
it has waited, its channel, LUN, block set and page row, the positions it programs (stripe and position) or the units it
reads, the command or stripe it serves, its start, its suspensions, and whether it has been reissued. -/
structure FlashOp where
  id      : Nat
  cls     : Nat
  qos     : Nat
  kind    : OpKind
  phase   : OpPhase
  cost    : Nat
  waited  : Nat
  chan    : Nat
  lun     : Nat
  block   : Nat
  page    : Nat
  items   : List Nat
  why     : OpWhy
  owner   : Owner
  started : Nat
  susp    : Nat
  retried : Bool
  deriving DecidableEq, Repr

/-- The arbiter's balances (R176), in 1/2,048 unit, the lowered ceilings of the window, the picks of the window by
class, the tokens granted and spent in the window by channel, the thermal sensors' runs (R181 to R184), the operations, and the
LUNs (16 × channel + LUN) that timed out and have completed no operation since (R370). -/
structure Budget where
  q       : Int := 0
  b       : List Int := [0, 0, 0, 0, 0, 0, 0, 0]
  c       : List Int := [0, 0, 0, 0, 0, 0, 0, 0]
  ceil    : List Nat := [0, 0, 0, 0, 0, 0, 0, 0]
  floor   : List Nat := [0, 0, 0, 0, 0, 0, 0, 0]
  picked  : List Nat := [0, 0, 0, 0, 0, 0, 0, 0]
  granted : Tbl Nat := []
  spent   : Tbl Nat := []
  tNext   : Option Nat := none
  coolRun : Nat := 0
  badRun  : List Nat := [0, 0, 0, 0, 0, 0, 0, 0]
  hotRun  : List Nat := [0, 0, 0, 0, 0, 0, 0, 0]
  fatalHeld : Bool := false
  ops     : List FlashOp := []
  nextOp  : Nat := 1
  lunOut  : List Nat := []
  deriving DecidableEq, Repr

/-! ### The camera's NVMe controller (chapter 07) -/

/-- A submission queue: its size, head and tail, and its QoS class (R198). -/
structure Sq where
  size : Nat
  head : Nat
  tail : Nat
  qos  : Nat
  deriving DecidableEq, Repr

/-- A completion queue: its size, interrupt vector and enable, the head the camera last wrote, the tail of the entries
posted, and the interrupts held by coalescing. -/
structure Cq where
  size : Nat
  vec  : Nat
  ien  : Bool
  head : Nat
  tail : Nat
  held : Nat
  deriving DecidableEq, Repr

/-- What a command in the tracker does. -/
inductive CmdOp where
  | write | writeZeroes | dsm | read | compare | verify | flush | frameIndexRead | takeStop | modeRequest
  | ownerLock | ownerUnlock | rejected | relayed | drain | snapshotTrigger | admin
  deriving DecidableEq, Repr

/-- A command the device holds (R206): its identity, what it does, its namespace, stream, first logical block and count, its QoS
class, whether it has passed its point of no return (Table 07-10), its arguments (for I/O: PRACT, PRCHK, initial reference tag,
application tag and mask), and data of it that waits. -/
structure Cmd where
  id      : Cid
  op      : CmdOp
  nsid    : Nat := 0
  stream  : Nat := 0
  slba    : Nat := 0
  nlb     : Nat := 0
  qos     : Nat := 0
  started : Bool := false
  args    : List Nat := []
  data    : List Nat := []
  deriving DecidableEq, Repr

/-- A completion as posted: the command, status code type and code, DNR, Dwords 0 and 1, and the data returned. -/
structure Cqe where
  id   : Cid
  sct  : Nat
  sc   : Nat
  dnr  : Bool
  dw0  : Nat
  dw1  : Nat
  data : List Nat
  deriving DecidableEq, Repr

/-- An Abort that stays armed for its window (R215): the queue and identifier it names, and the Abort itself, which completes when
it catches or when its window ends. -/
structure ArmedAbort where
  sq  : Nat
  cid : Nat
  by' : Cid
  deriving DecidableEq, Repr

/-- An event an Asynchronous Event Request reports: type, information and log page. -/
structure Aen where
  type : Nat
  info : Nat
  log  : Nat
  deriving DecidableEq, Repr

/-- The HOST island: the NVMe controller registers, queues, tracker, completions, asynchronous events, features and
PCIe configuration space (R193 to R227). -/
structure HostSt where
  en       : Bool := false
  ams      : Nat := 0
  shst     : Nat := 0
  asq      : Nat := 0
  acq      : Nat := 0
  sqs      : Tbl Sq := []
  cqs      : Tbl Cq := []
  cmds     : List Cmd := []
  cqes     : List Cqe := []
  irqs     : List Nat := []
  aers     : List Nat := []
  aens     : List Aen := []
  told     : List Aen := []
  routed   : Bool := false
  aborts   : List ArmedAbort := []
  arb      : Nat := 0
  psSel    : Nat := 0
  tempTh   : List Nat := [65535, 0]
  coalesce : Nat := 0
  ivCfg    : Tbl Nat := []
  wan      : Nat := 0
  aec      : Nat := 0
  kato     : Nat := 0
  streamsOn : Bool := false
  errLog   : List (List Nat) := []
  errCount : Nat := 0
  msixEn   : Bool := false
  busMaster : Bool := false
  pmeEn    : Bool := false
  pmeStatus : Bool := false
  d3       : Bool := false
  nsChanged : List Nat := []
  deriving DecidableEq, Repr

/-! ### The device self-test (R216, R217, R589) -/

/-- The self-test in progress: 0 none, 1 short, 2 extended; its segment (from 1; 0 while it has not started), whether a chunk runs,
whether I/O has suspended it, whether it is deferred to the end of Record, its first failed segment, and its namespace. -/
structure SelfTest where
  kind    : Nat := 0
  seg     : Nat := 0
  running : Bool := false
  yielded : Bool := false
  defer   : Bool := false
  failed  : Option Nat := none
  nsid    : Nat := 0
  deriving DecidableEq, Repr

/-! ### The Busaist link, frames and takes (chapters 08 and 09) -/

/-- A frame, orphan piece, sketch or capture unit that is open or not yet durable: its identity, what its header said,
its stamps, the payload blocks received (64 bits each), its flags, whether it has closed, its first leaf in its stream's
region, the leaves it has asked slots for, and whether a sketch of it is due. -/
structure FrameRec where
  id      : Nat
  take    : Nat
  stream  : Nat
  src     : Nat
  frame   : Nat
  piece   : Nat
  decl    : Nat
  flags   : Nat
  tc      : Nat
  status  : Nat
  timecode : Nat
  user    : Nat
  tbSync  : Nat
  tbPulse : Nat
  cal     : Nat
  gap     : Nat
  reason  : Nat
  crcCalc : Nat
  crcTrl  : Nat
  blocks  : List Nat
  closed  : Bool
  leaf0   : Nat
  nsid    : Nat
  asked   : Nat
  sketch  : Bool
  deriving DecidableEq, Repr

/-- A virtual channel (R237, R238): its last stream, the frame or orphan piece it carries, and the header blocks it is
collecting after a SYNC, and whether a bad sync header fell inside them. Its state stands in INGEST.VC_STATE. -/
structure Vc where
  last   : Option Nat := none
  frame  : Option Nat := none
  orphan : Option Nat := none
  hdr    : Option (List Nat) := none
  damaged : Bool := false
  deriving DecidableEq, Repr

/-- The Busaist receiver (chapter 08): the virtual channels, the current channel, the expected frame number of each
stream, the data blocks received, the credit last sent (not cut to 24 bits), the blocks discarded as unbound and not yet a
unit of 512, the sequence of the last FC block, whether the link was aligned since it left OFF, and the timebase since
which a stop shows. -/
structure IngestSt where
  vcs      : List Vc := List.replicate 8 {}
  cur      : Nat := 0
  expect   : Tbl Nat := []
  blocks   : Nat := 0
  unbound  : Nat := 0
  fcSeq    : Nat := 0
  fc       : Nat := 64
  fcSent   : List Nat := []
  wasUp    : Bool := false
  stopFrom : Option Nat := none
  deriving DecidableEq, Repr

/-- A pulse record of the ring (R266). -/
structure Pulse where
  tb   : Nat
  addr : Nat
  src  : Nat
  user : Nat
  drop : Bool
  sub  : Nat
  deriving DecidableEq, Repr

/-- A Frame Index Read that waits (R211). -/
structure IndexWait where
  id     : Cid
  stream : Nat
  take   : Nat
  first  : Nat
  count  : Nat
  deriving DecidableEq, Repr

/-- A capture record (Table 09-6): its port, timebase, flags and bytes, the timebase of its last byte, and whether bytes
may still join it. -/
structure CapRec where
  port  : Nat
  tb    : Nat
  flags : Nat
  bytes : List Nat
  lastTb : Nat
  isOpen : Bool
  deriving DecidableEq, Repr

/-- The Frame Engine (chapter 09): frames not yet durable, the pulse ring with the count of pulses ever recorded and those
of the current address, the read position of each stream, headers of each stream since the last boundary of the time
address, orphan pieces of each stream's last frame, append pointers not yet journaled, waiting index reads, Take Starts
whose open record is not yet journaled, and the capture unit that fills: its stamps, its records, bytes lost by port, and
its number. -/
structure FrameSt where
  recs    : List FrameRec := []
  nextId  : Nat := 1
  ring    : List Pulse := []
  pulses  : Nat := 0
  pulseSub : Nat := 0
  lastPulse : Option Nat := none
  readPos : Tbl Nat := []
  subCnt  : Tbl Nat := []
  pieces  : Tbl Nat := []
  ptr     : Tbl Nat := []
  waits   : List IndexWait := []
  starts  : List (Cid × Nat) := []
  capHead : Option FrameRec := none
  cap     : List CapRec := []
  capLost : List Nat := [0, 0]
  capUnit : Nat := 0
  deriving DecidableEq, Repr

/-! ### Translation, flash and grooming (chapters 10, 12 to 14) -/

/-- A unit as it lies in flash (R375, R379): what its tag says and its eight sectors. `kind` 0 is a filler, 1 data,
2 parity; `crc` is the tag's CRC. -/
structure Unit where
  kind   : Nat
  poison : Bool
  frame  : Bool
  stream : Nat
  nsid   : Nat
  key    : Nat
  seq    : Nat
  crc    : Nat
  data   : List Nat
  deriving DecidableEq, Repr

/-- Band states (Table 14-1). A band that no record names is ERASED. -/
inductive BandState where
  | erased | dirty | bootRsv | opened | closed | victim
  deriving DecidableEq, Repr

/-- A band: its state, its group, the SEQ of its close record, the block sets still to be erased, and those that failed (R371). -/
structure Band where
  state : BandState
  group : Nat := 0
  closed : Nat := 0
  toErase : List Nat := []
  bad     : List Nat := []
  deriving DecidableEq, Repr

/-- A stream's configuration (R290). -/
structure StreamCfg where
  nsid : Nat
  mode : Nat
  pg   : Nat
  base : Nat
  len  : Nat
  deriving DecidableEq, Repr

/-- Journal records (Table 10-2). -/
inductive Rec where
  | extentSet (key ua : Nat)
  | leafSet (key ua : Nat)
  | unmap (key count : Nat)
  | frameEntry (e : Entry)
  | take (t : Take)
  | append (stream leaves : Nat)
  | erase (block count : Nat)
  | band (band group event : Nat)
  | stripe (stripe event bitmap : Nat)
  | state (lastTake sealSeq : Nat)
  | checkpoint (number seq : Nat)
  | stream (s : Nat) (c : StreamCfg)
  deriving DecidableEq, Repr

/-- The persistent translation state that the journal carries: the map (key to unit address), the extents in EXTENT form
(1) or LEAF_TABLE form (2), takes, frame index, append pointers, erase counters, bands, marked stripes, stream
configurations, the last take number, the newest checkpoint, and SEQ of the next record. -/
structure TState where
  map      : Tbl Nat := []
  forms    : Tbl Nat := []
  takes    : Tbl Take := []
  entries  : List Entry := []
  appends  : Tbl Nat := []
  erases   : Tbl Nat := []
  bands    : Tbl Band := []
  marks    : Tbl Nat := []
  streams  : Tbl StreamCfg := []
  lastTake : Nat := 0
  ckpt     : Nat := 0
  seq      : Nat := 0
  deriving DecidableEq, Repr

/-- Where a page of an open stripe stands. -/
inductive PagePhase where
  | filling | ready | issued | retired | void
  deriving DecidableEq, Repr

/-- A page position taken in an open stripe: the slots placed at its quarters (`none` a filler or a place still empty),
how many quarters are taken, and where it stands. -/
structure OpenPage where
  stripe : Nat
  pos    : Nat
  seqs   : List (Option Nat)
  phase  : PagePhase
  deriving DecidableEq, Repr

/-- A run of an EXTENT-mode stream (R293): its stream, the key of its first leaf, its first data-order page, and the leaves
placed. -/
structure ExtRun where
  stream : Nat
  key    : Nat
  off    : Nat
  count  : Nat
  deriving DecidableEq, Repr

/-- A placement group: its open band, the next data-order page not given to a run or to leaf-placed data, its current
runs, the slots that wait for a place, and the timebase of its last page. -/
structure Group where
  band   : Option Nat := none
  next   : Nat := 0
  runs   : List ExtRun := []
  queue  : List Nat := []
  lastTb : Nat := 0
  deriving DecidableEq, Repr

/-- A journal page staged in DRAM (R300, R301): its records. -/
structure JPage where
  recs : List Rec
  deriving DecidableEq, Repr

/-- Why a codeword is read: for a leaf of a command, for grooming, for the scrubber, for the merge of a partial slot, for the reconstruction of another codeword, or for a self-test. -/
inductive EscFor where
  | cmd (c : Cid) (key : Nat)
  | reloc
  | scrub
  | merge (seq : Nat)
  | recon (n : Nat)
  | test
  deriving DecidableEq, Repr

/-- A codeword under read and its escalation (R382): its number, unit address and the key looked up, the work class, the step (0
being sensed, 1 hard decode, 2 retry, 3 soft decode, 4 reconstruction), the retries made, the retry entry it began at and the one
that left the fewest unsatisfied checks with their number, a payload that decoded with corrections and failed its checks (R385
item 5), what a reconstruction has XORed, the reads it still waits for and whether one failed, and who waits for the codeword. -/
structure Esc where
  n     : Nat
  ua    : Nat
  key   : Option Nat
  cls   : Nat
  step  : Nat
  tries : Nat
  base  : Nat
  best  : Nat
  unsat : Nat
  mism  : Option (List Nat)
  acc   : List Nat
  left  : Nat
  bad   : Bool
  fors  : List EscFor
  deriving DecidableEq, Repr

/-- A leaf of a command that reads: its key, the sectors wanted, those it has, the map segment it waits for (R315), the unit
address being read, whether it has been recovered, and how it counts. -/
structure RdLeaf where
  key  : Nat
  mask : Nat
  have' : List (Option Nat)
  seg  : Option Nat
  ua   : Option Nat
  bad  : Bool
  deriving DecidableEq, Repr

/-- A command that reads, with its leaves and its work class. -/
structure CmdRead where
  id     : Cid
  cls    : Nat
  leaves : List RdLeaf
  deriving DecidableEq, Repr

/-- An integrity record (Table 13-5). -/
structure Integ where
  tb     : Nat
  kind   : Nat
  cls    : Nat
  chan   : Nat
  lun    : Nat
  ua     : Nat
  key    : Nat
  detail : Nat
  deriving DecidableEq, Repr

/-- The words of an integrity record. -/
def Integ.word (r : Integ) (k : Nat) : Nat :=
  match k with
  | 0 => r.tb
  | 1 => r.kind % 256 + 256 * (r.cls % 256) + 65536 * (r.chan % 256) + 16777216 * (r.lun % 256) + 4294967296 * (r.ua % 2 ^ 36)
  | 2 => r.key % 2 ^ 64
  | _ => r.detail % 2 ^ 32 * 2 ^ 32

/-- The scrubber's pass (R389): the bands still to read in order, the next plane page of the first, when the pass began, the
plane pages it has read, and those it had to read. -/
structure Scrub where
  bands : List Nat
  page  : Nat
  start : Nat
  done  : Nat
  all   : Nat
  behind : Bool
  deriving DecidableEq, Repr

/-- The translation unit and grooming in CORE: the current translation state, the groups, the open pages, the journal
tail and the appends that wait with the slots they hold back, journal bytes since the last checkpoint, the segments
resident before MAP_FULL, demand loads outstanding, and grooming's state: bands queued for it, victims with their source
ranks, pages read of a victim, when the phase of the rebuild began,
the channels whose discovery has ended and waits for the others, and whether the channels in use have been decided. -/
structure MapSt where
  ts       : TState := {}
  groups   : Tbl Group := []
  pages    : List OpenPage := []
  tail     : List JPage := []
  waiting  : List (Rec × Option Nat) := []
  since    : Nat := 0
  replayed : Bool := false
  resident : List Nat := []
  loads    : List Nat := []
  ckptAt   : Option TState := none
  leafFree : Nat := 0
  urgent   : List Nat := []
  refresh  : List Nat := []
  victims  : List (Nat × Nat) := []
  relocRead : List Nat := []
  phaseTb  : Nat := 0
  disc     : List ChanFound := []
  sets     : Bool := false
  waysWait : Option Nat := none
  escs     : List Esc := []
  voided   : List (Nat × Nat) := []
  nextEsc  : Nat := 1
  reads    : List CmdRead := []
  relocBuf : List Slot := []
  consol   : List Nat := []
  integ    : List Integ := []
  scrub    : Option Scrub := none
  spaceLow : Nat := 0
  deriving DecidableEq, Repr

/-! ### Time (chapter 21) -/

/-- The LTC reader and the generator (R612 to R616): the last decoded frame while unlocked (address and rate), the measured
periods of the last 64 frames in 1/256 tick, the generator's rate and boundary, a preset that waits for the next boundary,
the timebase of the last FRM_IN edge, LTC_EN and GEN_RATE as the generator last took them (R616), the calendar without VALID at its
last refresh with the timebase then (R603), and each island's replica of the timebase at its last marker (R610). -/
structure TimeSt where
  cand     : Option (Nat × Nat) := none
  periods  : List Nat := []
  genRate  : Nat := 1
  genTb    : Nat := 0
  preset   : Option Nat := none
  lastFrm  : Option Nat := none
  ltcEn    : Bool := true
  genCfg   : Nat := 1
  calAt    : Option (Nat × Nat) := none
  reps     : Tbl Nat := []
  deriving DecidableEq, Repr

/-! ### Accessory serial (chapter 21) -/

/-- An entry of a receive FIFO (R623): its byte, its flags (1 FRAMING, 2 PARITY, 4 BREAK, 8 OVERRUN) and the low 48 bits of the
timebase. -/
structure RxEntry where
  data  : Nat
  flags : Nat
  tb    : Nat
  deriving DecidableEq, Repr

/-- A UART: its receive FIFO, whether a character has been lost since the last entry, its transmit FIFO, the character being sent,
and the characters sent. -/
structure AserPort where
  rx   : List RxEntry := []
  lost : Bool := false
  tx   : List Nat := []
  busy : Option Nat := none
  sent : List Nat := []
  deriving DecidableEq, Repr

/-! ### The pair link (chapter 15) -/

/-- A message this half sends on the pair link (Table 15-3). -/
inductive PairMsg where
  | slot (m : SlotMsg)
  | record (seq : Nat) (r : LRec)
  | ident (i : Ident)
  | result (r : PResult)
  | shape (seg : Nat) (keys : List Nat)
  | mailbox (kind dir idx : Nat) (words : List Nat)
  | heldSlot (n : Nat)
  | heldFrame (stream take frame piece index : Nat)
  | recAck (seq : Nat)
  | relay (n cmd : Nat) (args : List Nat)
  | relayDone (n sct sc : Nat)
  | sealing
  | leave (planned : Bool)
  | snapreq
  | beat (lead token : Bool) (rank : Nat) (div : Bool) (feed mode pstate count tb : Nat)
  | train (reason : Nat)
  | linkAck (vc seq : Nat) (nak : Bool)
  | credit (vc limit : Nat)
  | forward (tag : Nat) (words : List Nat)
  | reply (tag : Nat) (words : List Nat)
  deriving DecidableEq, Repr

/-- A command that the lead has relayed and not yet run (R438). -/
structure Relayed where
  n    : Nat
  cmd  : Nat
  id   : Cid
  args : List Nat
  deriving DecidableEq, Repr

/-- An arbitration record of the Pair State log (R454). -/
structure ArbRec where
  tb      : Nat
  take    : Nat
  frame   : Nat
  stream  : Nat
  outcome : Nat
  piece   : Nat
  own     : Nat
  peer    : Nat
  trailer : Nat
  deriving DecidableEq, Repr

/-- The pair link (chapter 15): what has been sent; PSTATE, role, tokens and divergence as R453 reports them; the peer's
IDENT and pair-state word; by virtual channel the sequence numbers, the frames not acknowledged (channel, SEQ, units, times
sent), those that wait for credit, and the units consumed and returned; records not acknowledged and
the completions that wait for them; relayed commands; slot messages that wait for admission; results not yet matched;
and convergence: whether it runs, the segments and takes left with the segments that were marked, units copied, the keys awaited of a
segment by its SHAPE, and whether this half is the target; and the beat count. -/
structure PairSt where
  sent     : List PairMsg := []
  pstate   : Nat := 0
  lead     : Bool := false
  token    : Bool := false
  peerTok  : Bool := false
  peerRank : Nat := 0
  peerDiv  : Bool := false
  ident    : Option Ident := none
  identOut : Bool := false
  peerWord : Nat := 0
  stateTb  : Nat := 0
  lossCause : Nat := 0
  failovers : Nat := 0
  txSeq    : List Nat := [0, 0, 0]
  rxSeq    : List Nat := [0, 0, 0]
  unacked  : List (Nat × Nat × Nat × Nat) := []
  txq      : List (Nat × Nat) := []
  used     : List Nat := [0, 0, 0]
  freed    : List Nat := [0, 0, 0]
  beatSeen : Bool := false
  beats    : Nat := 0
  recSeq   : Nat := 0
  recAcked : Nat := 0
  recNext  : Nat := 0
  held     : List (Nat × Cqe) := []
  relays   : List Relayed := []
  relayN   : Nat := 0
  inbox    : List (Nat × SlotMsg) := []
  inN      : Nat := 0
  mine     : List PResult := []
  theirs   : List PResult := []
  heldEarly : List (Nat × Nat × Nat × Nat × Nat) := []
  arbs     : List ArbRec := []
  converging : Bool := false
  left     : List Nat := []
  marked   : Nat := 0
  takesLeft : List Nat := []
  units    : Nat := 0
  shapes   : List (Nat × List Nat) := []
  target   : Bool := false
  beatNo   : Nat := 0
  deriving DecidableEq, Repr

/-! ### Mailboxes (chapter 17) -/

/-- The mailbox queues HI, HO, PO and PI, the link SEQs of PO's words in flight, and the requests forwarded to the peer. -/
structure MbxSt where
  qs      : List (List Nat) := [[], [], [], []]
  fly     : List Nat := []
  fwd     : List (Nat × MbxReq) := []
  fwdN    : Nat := 0
  served  : List MbxReq := []
  deriving DecidableEq, Repr

/-! ### Fault injection (chapter 20) -/

/-- A received Ethernet frame that the port itself answers or obeys (R457). -/
inductive NetRx where
  | pause (quanta : Nat)
  | resolve (addr : Nat) (v6 : Bool)
  | echo (addr : Nat) (v6 : Bool) (data : List Nat)
  deriving DecidableEq, Repr

/-- What the injectors hold: words of a corruption that runs on into following units, and the unit each holds back for
REORDER with the later units still to pass: a Busaist block (control or data, payload), a completion entry, a pair-link
frame (channel, SEQ, units, CRC), Ethernet frames by port; and whether the next SLOT arrives corrupt. -/
structure FiSt where
  carry  : List Nat := [0, 0, 0, 0, 0, 0, 0]
  block  : Option (Bool × Nat × Nat) := none
  cqe    : Option (Cqe × Nat) := none
  pair   : Option (Nat × Nat × Nat × Bool × Nat) := none
  pairHit : Bool := false
  net    : List (Nat × NetRx × Nat) := []
  deriving DecidableEq, Repr

/-! ### Offload (chapter 16) -/

/-- What a port sends: an answer to address resolution or echo, a reset segment, a FIN, or a PDU on a connection. -/
inductive NetTx where
  | resolved (port addr : Nat) (v6 : Bool)
  | echoed (port addr : Nat) (v6 : Bool) (data : List Nat)
  | rst (port : Nat) (conn : Option Nat)
  | fin (conn : Nat)
  | icResp (conn : Nat) (hdgst ddgst : Bool)
  | termReq (conn : Nat)
  | r2t (conn cid offset len : Nat)
  | corrupt (port : Nat)
  deriving DecidableEq, Repr

/-- A TCP connection of the target (R463): its port, whether it came to DISC_PORT, the digests granted once ICReq has been
answered, and once Connect has, its controller, queue and size. -/
structure Conn where
  port   : Nat
  disc   : Bool
  ic     : Option (Bool × Bool)
  ctrl   : Option Nat
  qid    : Nat
  qsize  : Nat
  deriving DecidableEq, Repr

/-- A fabric controller: whether it serves discovery, its CC and whether it is ready, its Keep Alive Timeout, its outstanding
Asynchronous Event Requests (connection, identifier), the events that wait and those reported, and its event configuration. -/
structure Ctrl where
  disc  : Bool
  host  : Nat
  cc    : Nat
  shst  : Nat
  kato  : Nat
  aers  : List (Nat × Nat)
  aens  : List Aen
  told  : List Aen
  aec   : Nat
  deriving DecidableEq, Repr

/-- An entry of the frame index by what names it: take, stream, source stream, frame and piece. -/
structure EntryId where
  take   : Nat
  stream : Nat
  src    : Nat
  frame  : Nat
  piece  : Nat
  deriving DecidableEq, Repr

/-- A verify context (R471): its port and entry, the bytes hashed in order, data held beyond them, and its last activity. -/
structure VerCtx where
  port  : Nat
  entry : EntryId
  bytes : List Nat
  held  : List (Nat × List Nat)
  act   : Nat
  deriving DecidableEq, Repr

/-- A tracked take (R474): the latest outcome of each entry, its last activity, bytes hashed, and its declaration. -/
structure Track where
  take  : Nat
  outs  : List (EntryId × Nat)
  act   : Nat
  bytes : Nat
  state : Nat
  declTb : Nat
  declCal : Nat
  deriving DecidableEq, Repr

/-- An event record of the Verify Log (Table 16-5). -/
structure VerEvent where
  tb      : Nat
  take    : Nat
  frame   : Nat
  stream  : Nat
  outcome : Nat
  piece   : Nat
  nsid    : Nat
  digest  : Nat
  deriving DecidableEq, Repr

/-- The dock side (chapter 16): what the ports have sent, the connections and controllers, verify contexts, tracked takes and
the Verify Log, the activity count, the discovery log's generation, and the
frames that an injector holds back (port, frame, frames still to pass); outcomes by code since Wake and since NVTCP.CLR, and bytes
hashed since Wake. -/
structure NetSt where
  sent   : List NetTx := []
  conns  : Tbl Conn := []
  nextConn : Nat := 1
  ctrls  : Tbl Ctrl := []
  ctxs   : List VerCtx := []
  tracks : List Track := []
  events : List VerEvent := []
  act    : Nat := 0
  gen    : Nat := 0
  heldTx : List (Nat × NetTx × Nat) := []
  outWake : List Nat := [0, 0, 0, 0]
  outReg : List Nat := [0, 0, 0, 0]
  hashed : Nat := 0
  deriving DecidableEq, Repr

/-! ### DRAM (chapter 11) -/

/-- A byte memory: cells with addresses strictly rising, none of value 0, which is what an unlisted address reads as. -/
abbrev Memory := List Host.Cell

/-- A write in the write queue of a DRAM channel: its number, client, the ordering mode it was queued under, logical address, bytes
and poison mark. -/
structure DramWrite where
  n      : Nat
  client : Nat
  fwd    : Bool
  addr   : Nat
  data   : List Nat
  poison : Bool
  deriving DecidableEq, Repr

/-- DRAM behind its controller: its contents by logical address, the poisoned 64-byte chunks, the 64 KiB regions of physical
memory with valid check bits (all below `sweep`, and those listed), the write queue and the writes that wait for an entry in it, the
next write's number, what the last read returned and whether it was poisoned, the rows left open (channel, bank, row), the channels
whose refresh window has begun since a commit, the patrol's next chunk, and the retention token with the value MGMT keeps of it
(R341). -/
structure DramSt where
  mem     : Memory := []
  poison  : List Nat := []
  sweep   : Nat := 0
  inited  : List Nat := []
  queue   : List DramWrite := []
  waiting : List DramWrite := []
  nextW   : Nat := 1
  rdata   : List Nat := []
  rpoison : Bool := false
  rows    : List (Nat × Nat × Nat) := []
  win     : List Nat := []
  patrol  : Nat := 0
  token   : Option (Nat × Nat) := none
  kept    : Option (Nat × Nat) := none
  deriving DecidableEq, Repr

/-! ### Service DMA (chapter 17) -/

/-- A transfer of a channel that is under way: its bytes at the start, its descriptor's CTRL byte in descriptor mode, whether
a check-value unit may snoop it, and whether a descriptor fetch is outstanding. -/
structure Xfer where
  total : Nat
  desc  : Option Nat
  snoop : Bool
  fetch : Bool
  deriving DecidableEq, Repr

/-- The service DMA channels: the transfers under way, and what they have written to the camera's memory (address, bytes). -/
structure SdmaSt where
  xfers : Tbl Xfer := []
  pcie  : List (Nat × List Nat) := []
  deriving DecidableEq, Repr

/-! ### Code store (chapter 19) -/

/-- The command that the code store carries out: its requester, address and data; and the unlock state of each requester (R554):
0 none, 1 UNLOCK_A written, 2 armed. -/
structure CodeSt where
  who    : Nat := 0
  addr   : Nat := 0
  data   : List Nat := []
  unlock : List Nat := [0, 0, 0]
  deriving DecidableEq, Repr

/-! ### Security (chapter 18) -/

/-- The removal of loaded keys that waits for the buffer to drain (R530, R536), as the state to come and the Owner Lock that
waits for it; rejected credentials whose completion is delayed (R528), with their Dword 0; the timebase of the last failed debug
response (R541) and of the end of the session. -/
structure SecSt where
  goal    : Option (Nat × Option Cid) := none
  rejects : List (Cid × Nat) := []
  failTb  : Option Nat := none
  endTb   : Nat := 0
  deriving DecidableEq, Repr

/-! ### Memory BIST (chapter 20) -/

/-- The repairs of an array: its soft repairs in force (spare row, failing row), the spare rows fused, and whether its FUSED fuse
is blown. -/
structure BistRep where
  soft  : List (Nat × Nat) := []
  rows  : List Nat := []
  fused : Bool := false
  deriving DecidableEq, Repr

/-- A non-destructive run: the segments left by array. -/
structure BistSt where
  run : Tbl Nat := []
  deriving DecidableEq, Repr

/-! ### KEEP (R104, R605) -/

/-- What KEEP holds across every reset: the calendar, the Seal flag, DEFERRED_RESET and the causes of a restart; its own
seconds count with how far sets and trim have moved the calendar against it, the carry secret with its hours and countdown (R532, R533), the tamper events not yet stored and the last one (R535), and
a reset that Seal left to be performed from Keep (R97), and whether its supply holds. The other values that KEEP holds stand in
their registers, which no reset touches. -/
structure Keep where
  valid      : Bool := false
  seconds    : Nat := 0
  subsec     : Nat := 0
  sealFlag   : Nat := 0
  deferred   : Bool := false
  pendCause  : Nat := 0
  controlled : Bool := false
  sealTrip   : Bool := false
  ticks      : Nat := 0
  phase      : Int := 0
  cs         : Bool := false
  carryHours : Nat := 0
  carryLeft  : Option Nat := none
  tamperAct  : Option Nat := none
  tampers    : Nat := 0
  tamperSec  : Nat := 0
  restored   : Bool := false
  resetHeld  : Bool := false
  powered    : Bool := true
  deriving DecidableEq, Repr

/-- A Seal page (R157): its SEAL_SEQ, its position in the Seal, its channel, its payloads with their kinds, the Seal blocks of its
channel, and whether recovery has used it, so that its block is a source block (R162). -/
structure SealPage where
  sealSeq : Nat
  pos     : Nat
  chan    : Nat
  slots   : List (Nat × Slot)
  blks    : List Nat
  used    : Bool
  deriving DecidableEq, Repr

/-- The Seal record (Table 05-3), and with it what recovery must know of the frames in progress (R274). -/
structure SealRec where
  sealSeq   : Nat
  cause     : Nat
  outcome   : Nat
  tbEntry   : Nat
  calendar  : Nat
  counts    : List Nat
  admitSeq  : Nat
  duration  : Nat
  journalTo : Nat
  stripes   : List (Nat × Nat × Nat)
  frames    : List FrameRec
  deriving DecidableEq, Repr

/-- A namespace (R218, R409): its size in logical blocks, its LBA format (Table 07-6), its protection settings, and whether
it is attached. -/
structure Ns where
  size : Nat
  fmt  : Nat
  dps  : Nat
  attached : Bool
  deriving DecidableEq, Repr

/-- What the code-store journal says of firmware slots and updates (Table 19-5): the active slot, whether it is on trial, the
fallback slot; the pending update (0 none, 1 COPY, 2 COPY_ACTIVATE, 3 ACTIVATE), whether its source is a delta, its target slot and
image identity; the target sectors with COPY_DONE, the failures of the sector being copied, and whether the copy has failed. -/
structure Upd where
  active   : Nat := 0
  trial    : Bool := false
  fallback : Nat := 1
  pending  : Nat := 0
  delta    : Bool := false
  target   : Nat := 1
  image    : Nat := 0
  copied   : List Nat := []
  tries    : Nat := 0
  failed   : Bool := false
  deriving DecidableEq, Repr

/-- What the flash, the code store and the fuses hold across every reset. -/
structure Nv where
  sealSeq   : Nat := 0
  sealPages : List SealPage := []
  sealRec   : Option SealRec := none
  ts        : TState := {}
  units     : Tbl Unit := []
  remap     : Tbl Nat := []
  retired   : List Nat := []
  nses      : Tbl Ns := []
  tnvmcap   : Option Nat := none
  div       : List Nat := []
  divTakes  : List Nat := []
  peer      : Option Nat := none
  serial    : Nat := 0
  owner     : Option Nat := none
  recovery  : Nat := 0
  dbgKey    : Nat := 0
  carryOk   : Bool := false
  carryHours : Nat := 0
  ownerLeft : Nat := 8
  recLeft   : Nat := 8
  voided    : Bool := false
  carryKey  : Bool := false
  tamperEn  : Bool := false
  tamperDo  : Nat := 0
  tampers   : Nat := 0
  lock0     : Nat := 0
  lock1     : Nat := 0
  restores  : Nat := 0
  vendorKey : Nat := 0
  vendorOk  : Bool := true
  fatal     : Option (Nat × Nat × Nat × Nat) := none
  smartRel  : Bool := false
  mediaErrs : Nat := 0
  moved     : Tbl Nat := []
  bandCal   : Tbl Nat := []
  bandTiers : Tbl (List Nat) := []
  sealBlk   : Tbl (Nat × Nat × Nat × Nat) := []
  chanFailed : List Nat := []
  store   : Memory := []
  storeEc : Tbl Nat := []
  stLog   : List (Nat × Nat × Nat × Nat) := []
  sanit   : Nat := 0
  sanitDw : Nat := 0
  remake  : Bool := false
  upd     : Upd := {}
  touched : List Nat := []
  fused   : Nat := 0
  wdReset : Bool := false
  updRes  : Nat := 20000
  updLock : Bool := false
  bist    : Tbl BistRep := []
  deriving DecidableEq, Repr

/-- Why the machine stops: it never does, since the spec gives every command of its table an effect. -/
inductive Fault where
  /-- Raised by no command and by no step. Safe: nothing rests on it. -/
  | never
  deriving DecidableEq, Repr

/-- Why a command has no outcome in the model. -/
inductive Refusal where
  /-- Raised by an arm of `exec` whose command has no meaning yet. Safe: the machine stops. -/
  | notModelled (mnemonic : String)
  deriving DecidableEq, Repr

/-- The state of the machine. -/
structure State where
  regs    : Tbl Nat := []
  pend    : Tbl Nat := []
  adopt   : Tbl Nat := []
  tb      : Nat := 0
  fresh   : Nat := 0
  fabric  : Fabric := {}
  pins    : Pins := {}
  mc      : ModeCtl := {}
  slots   : List Slot := []
  led     : Ledger := {}
  bud     : Budget := {}
  host    : HostSt := {}
  ing     : IngestSt := {}
  frm     : FrameSt := {}
  map     : MapSt := {}
  tim     : TimeSt := {}
  pair    : PairSt := {}
  mbx     : MbxSt := {}
  fi      : FiSt := {}
  net     : NetSt := {}
  dram    : DramSt := {}
  sdma    : SdmaSt := {}
  code    : CodeSt := {}
  tst     : SelfTest := {}
  sec     : SecSt := {}
  bist    : BistSt := {}
  aser    : List AserPort := [{}, {}]
  keep    : Keep := {}
  nv      : Nv := {}
  pending : List Instr := []
  deriving DecidableEq, Repr

/-- The machine right after a power-on reset: every register field at its reset value (an empty table says so). -/
def State.reset : State := {}

end Sys2Proof.Machine
end

