-- ==== Sys2Proof/Machine/Ops.lean ====
section
/-!
DEFINITION. The named operations over the registers, the tables and the counters of the state.
-/

namespace Sys2Proof.Machine

/-! ### Bit fields of numbers -/

/-- Bits `lo` to `lo + w - 1` of `v`. -/
def bits (v lo w : Nat) : Nat := v / 2 ^ lo % 2 ^ w

/-- Bit `n` of `v`. -/
def bit (v n : Nat) : Bool := v / 2 ^ n % 2 = 1

/-- `v` with bits `lo` to `lo + w - 1` replaced by `x`. -/
def putBits (v lo w x : Nat) : Nat := v - bits v lo w * 2 ^ lo + x % 2 ^ w * 2 ^ lo

/-- `v` with bit `n` set. -/
def setBit (v n : Nat) : Nat := if bit v n then v else v + 2 ^ n

/-- `v` with bit `n` clear. -/
def clrBit (v n : Nat) : Nat := if bit v n then v - 2 ^ n else v

/-- `v` with bit `n` equal to `b`. -/
def putBit (v n : Nat) (b : Bool) : Nat := if b then setBit v n else clrBit v n

/-- A truth value as a bit. -/
def b2n (b : Bool) : Nat := if b then 1 else 0

/-- `v` read as a signed number of `w` bits. -/
def signed (w v : Nat) : Int := if v % 2 ^ w < 2 ^ (w - 1) then (v % 2 ^ w : Nat) else (v % 2 ^ w : Nat) - (2 ^ w : Nat)

/-- An integer as a number of `w` bits, in two's complement. -/
def unsigned (w : Nat) (v : Int) : Nat := (v % ((2 ^ w : Nat) : Int)).toNat

/-- `a` divided by `b`, rounded up; 0 for a zero divisor. -/
def ceilDiv (a b : Nat) : Nat := if b = 0 then 0 else (a + b - 1) / b

/-- The bytes of a number, least significant first. -/
def bytesOf : Nat → Nat → List Nat
  | 0, _ => []
  | n + 1, v => v % 256 :: bytesOf n (v / 256)

/-- The number whose bytes are given, least significant first. -/
def ofBytes : List Nat → Nat
  | [] => 0
  | b :: bs => b % 256 + 256 * ofBytes bs

/-- One bit of a reflected CRC. -/
def crcBit (poly c : Nat) : Nat := if c % 2 = 1 then Nat.xor (c / 2) poly else c / 2

/-- One byte of a reflected CRC. -/
def crcByte (poly c b : Nat) : Nat := (List.range 8).foldl (fun c _ => crcBit poly c) (Nat.xor c (b % 256))

/-- CRC-32C (Castagnoli) of a byte string, continuing from `c`, without the final inversion. -/
def crc32cFrom (c : Nat) (bs : List Nat) : Nat := bs.foldl (crcByte 0x82F63B78) c

/-- CRC-32C of a byte string. -/
def crc32c (bs : List Nat) : Nat := Nat.xor (crc32cFrom 0xFFFFFFFF bs) 0xFFFFFFFF

/-- The sum of a list. -/
def total (l : List Nat) : Nat := l.foldl (· + ·) 0

/-- The least element of a list, or `d`. -/
def leastOr (d : Nat) : List Nat → Nat
  | [] => d
  | a :: l => l.foldl min a

/-- R50 over `w` bits: sequence number `a` comes before `b`. -/
def seqBefore (w a b : Nat) : Bool := decide (0 < (b + 2 ^ w - a % 2 ^ w) % 2 ^ w) && decide ((b + 2 ^ w - a % 2 ^ w) % 2 ^ w < 2 ^ (w - 1))

/-! ### Tables by key -/

namespace Tbl
variable {α : Type}

/-- The entry of a key. -/
def find? (t : Tbl α) (k : Nat) : Option α :=
  match t with
  | [] => none
  | (k', v) :: t => if k' = k then some v else find? t k

/-- The entry of a key, or `d`. -/
def get (t : Tbl α) (k : Nat) (d : α) : α := (t.find? k).getD d

/-- The table without the entries of a key. -/
def del (t : Tbl α) (k : Nat) : Tbl α :=
  match t with
  | [] => []
  | (k', v) :: t => if k' = k then del t k else (k', v) :: del t k

/-- Puts an entry before the first entry of a larger key. -/
def ins (t : Tbl α) (k : Nat) (v : α) : Tbl α :=
  match t with
  | [] => [(k, v)]
  | (k', v') :: t => if k < k' then (k, v) :: (k', v') :: t else (k', v') :: ins t k v

/-- The table with one entry for a key. -/
def put (t : Tbl α) (k : Nat) (v : α) : Tbl α := ins (del t k) k v

/-- The table with a key's entry changed, from `d` where it has none. -/
def modify (t : Tbl α) (k : Nat) (d : α) (f : α → α) : Tbl α := put t k (f (get t k d))

/-- The form of a table: keys rising, so that equal tables are equal lists. -/
def wf : Tbl α → Bool
  | [] => true
  | [_] => true
  | (k, _) :: (k', v') :: t => decide (k < k') && wf ((k', v') :: t)

end Tbl

/-! ### Byte memories -/

namespace Memory

/-- A byte of a memory; an unlisted address reads as 0. -/
def read (m : Memory) (a : Nat) : Nat :=
  match m with
  | [] => 0
  | (a', b) :: m => if a' = a then b.toNat else read m a

/-- The memory with one byte written: the cell stands in address order, and none stands for 0. -/
def write (m : Memory) (a v : Nat) : Memory :=
  match m with
  | [] => if v % 256 = 0 then [] else [(a, BitVec.ofNat 8 v)]
  | (a', b) :: m =>
    if a < a' then (if v % 256 = 0 then (a', b) :: m else (a, BitVec.ofNat 8 v) :: (a', b) :: m)
    else if a = a' then (if v % 256 = 0 then m else (a, BitVec.ofNat 8 v) :: m)
    else (a', b) :: write m a v

/-- `n` bytes from an address on. -/
def bytes (m : Memory) (a n : Nat) : List Nat := (List.range n).map (fun i => m.read (a + i))

/-- Writes bytes from an address on. -/
def writeBytes (m : Memory) (a : Nat) : List Nat → Memory
  | [] => m
  | b :: bs => writeBytes (write m a b) (a + 1) bs

/-- The canonical form: addresses strictly rising, and no cell of value 0. -/
def wf : Memory → Bool
  | [] => true
  | [(_, b)] => b ≠ 0
  | (a, b) :: (a', b') :: m => b ≠ 0 && decide (a < a') && wf ((a', b') :: m)

end Memory

/-! ### Register fields -/

namespace State

/-- The value of a field: for an RWS field, the active value. -/
def get (s : State) (f : Field) : Nat := s.regs.get f.key f.rst

/-- Gives a field a value, cut to its width. A field at its reset value has no entry. -/
def set (s : State) (f : Field) (v : Nat) : State :=
  { s with regs := if v % 2 ^ f.width = f.rst then s.regs.del f.key else s.regs.put f.key (v % 2 ^ f.width) }

/-- The pending value of an RWS field: an entry stands only where it differs from the active value. -/
def getP (s : State) (f : Field) : Nat := s.pend.get f.key (s.get f)

/-- Gives an RWS field a pending value. -/
def setP (s : State) (f : Field) (v : Nat) : State :=
  { s with pend := if v % 2 ^ f.width = s.get f then s.pend.del f.key else s.pend.put f.key (v % 2 ^ f.width) }

/-- A bit of a field. -/
def getBit (s : State) (f : Field) (n : Nat) : Bool := bit (s.get f) n

/-- Sets or clears a bit of a field. -/
def setBitTo (s : State) (f : Field) (n : Nat) (b : Bool) : State := s.set f (putBit (s.get f) n b)

/-- Part `n`, `w` bits wide, of a field that holds several values side by side. -/
def getPart (s : State) (f : Field) (n w : Nat) : Nat := bits (s.get f) (n * w) w

/-- Gives part `n` of a field a value. -/
def setPart (s : State) (f : Field) (n w v : Nat) : State := s.set f (putBits (s.get f) (n * w) w v)

/-- Adds `n` to a count that stops at its greatest value. -/
def addSat (s : State) (f : Field) (n : Nat) : State := s.set f (min (s.get f + n) (2 ^ f.width - 1))

/-- Adds one to a count that stops at its greatest value. -/
def inc (s : State) (f : Field) : State := s.addSat f 1

/-- Adds `n` to a count that wraps. -/
def addWrap (s : State) (f : Field) (n : Nat) : State := s.set f (s.get f + n)

/-- Adds one to part `n` of a field of saturating counts. -/
def incPart (s : State) (f : Field) (n w : Nat) : State :=
  s.setPart f n w (min (s.getPart f n w + 1) (2 ^ w - 1))

/-- Sets every field of a list to 0. -/
def clear (s : State) (fs : List Field) : State := fs.foldl (fun s f => s.set f 0) s

/-- Sets an event bit of EVT_RAW, and nothing else. -/
def setEvt (s : State) (e : Ev) : State := s.setBitTo (F.EVT_RAW e.page) e.bit true

end State

/-! ### Modes (Table 04-3) -/

namespace Md
/-- Table 04-3. -/
def KEEP : Nat := 0
/-- Table 04-3. -/
def REST : Nat := 1
/-- Table 04-3. -/
def WAKE : Nat := 2
/-- Table 04-3. -/
def IDLE : Nat := 3
/-- Table 04-3. -/
def RECORD : Nat := 4
/-- Table 04-3. -/
def REVIEW : Nat := 5
/-- Table 04-3. -/
def OFFLOAD : Nat := 6
/-- Table 04-3. -/
def GROOM : Nat := 7
/-- Table 04-3. -/
def SEAL : Nat := 8
/-- Table 04-3. -/
def UPDATE : Nat := 9
/-- Table 04-3. -/
def SERVICE : Nat := 10
/-- Table 04-3. -/
def QUARANTINE : Nat := 11
end Md

/-- SYS.MODE.CUR. -/
def State.mode (s : State) : Nat := s.get F.SYS_MODE_CUR

/-! ### Islands (R44, R94) -/

/-- PWR.ISL_STATE of an island: 0 OFF, 1 STARTING, 2 ON, 3 STOPPING. -/
def State.isl (s : State) (i : Nat) : Nat := s.getPart F.PWR_ISL_STATE_STATE i 2

/-- Gives an island a power state. -/
def State.setIsl (s : State) (i v : Nat) : State := s.setPart F.PWR_ISL_STATE_STATE i 2 v

/-- R113, Table 04-3: whether a mode lets an island be ON. -/
def islandAllowed (mode i : Nat) : Bool :=
  match mode with
  | 0 => i = 0
  | 1 => i ≤ 1
  | 8 => i ≤ 1 || i = 4 || (6 ≤ i && i ≤ 23)
  | 9 => i ≤ 2 || (6 ≤ i && i ≤ 23)
  | 11 => i ≤ 2 || (5 ≤ i && i ≤ 23)
  | _ => i ≤ 23

/-! ### Functions (Table 04-2) -/

namespace Fn
/-- Table 04-2. -/
def BOOT : Nat := 0
/-- Table 04-2. -/
def CODE : Nat := 1
/-- Table 04-2. -/
def TIMEBASE : Nat := 2
/-- Table 04-2. -/
def CALENDAR : Nat := 3
/-- Table 04-2. -/
def CONFIG : Nat := 4
/-- Table 04-2. -/
def WATCHDOG : Nat := 5
/-- Table 04-2. -/
def SEC : Nat := 6
/-- Table 04-2. -/
def BIST : Nat := 7
/-- Table 04-2. -/
def MBX_H : Nat := 8
/-- Table 04-2. -/
def SDMA : Nat := 9
/-- Table 04-2. -/
def CRCU : Nat := 10
/-- Table 04-2. -/
def ASER0 : Nat := 11
/-- Table 04-2. -/
def ASER1 : Nat := 12
/-- Table 04-2. -/
def LTC : Nat := 13
/-- Table 04-2. -/
def PCIE_LINK : Nat := 14
/-- Table 04-2. -/
def NVME_ADMIN : Nat := 15
/-- Table 04-2. -/
def DRAM : Nat := 16
/-- Table 04-2. -/
def MCACHE : Nat := 17
/-- Table 04-2. -/
def PBUF : Nat := 18
/-- Table 04-2. -/
def LEDGER_SENSE : Nat := 19
/-- Table 04-2. -/
def THERMAL : Nat := 20
/-- Table 04-2. -/
def BUDGET : Nat := 21
/-- Table 04-2: the flash quadrants A to D are functions 22 to 25. -/
def FLASH_A : Nat := 22
/-- Table 04-2. -/
def LDPC : Nat := 26
/-- Table 04-2. -/
def SEAL_BLOCKS : Nat := 27
/-- Table 04-2. -/
def LEDGER_ADMIT : Nat := 28
/-- Table 04-2. -/
def JOURNAL : Nat := 29
/-- Table 04-2. -/
def FRAME_ENGINE : Nat := 30
/-- Table 04-2. -/
def STREAM_KEYS : Nat := 31
/-- Table 04-2. -/
def NVME_IO : Nat := 32
/-- Table 04-2. -/
def BUSAIST_LINK : Nat := 33
/-- Table 04-2. -/
def INGEST : Nat := 34
/-- Table 04-2. -/
def MAP_FULL : Nat := 35
/-- Table 04-2. -/
def FRAME_INDEX : Nat := 36
/-- Table 04-2. -/
def SCRUB : Nat := 37
/-- Table 04-2. -/
def GROOM : Nat := 38
/-- Table 04-2. -/
def PAIR_LINK : Nat := 39
/-- Table 04-2. -/
def PAIR_MIRROR : Nat := 40
/-- Table 04-2. -/
def MBX_P : Nat := 41
/-- Table 04-2. -/
def NET0 : Nat := 42
/-- Table 04-2. -/
def NET1 : Nat := 43
/-- Table 04-2. -/
def NVTCP : Nat := 44
/-- Table 04-2. -/
def VERIFY : Nat := 45
/-- Table 04-2. -/
def SELFTEST : Nat := 46
/-- Table 04-2. -/
def FAULT_INJ : Nat := 47
end Fn

/-- SYS.FUNC_READY of a function. -/
def State.ready (s : State) (n : Nat) : Bool := s.getBit F.SYS_FUNC_READY_READY n

/-- PWR.RAIL_STATUS.VALID of a rail. -/
def State.railValid (s : State) (r : Nat) : Bool := s.getBit F.PWR_RAIL_STATUS_VALID r

/-- A flash quadrant whose bank was decided at a level (R73). -/
def State.quadPowered (s : State) (q : Nat) : Bool :=
  let lv := match q with
    | 0 => s.get F.PWR_RAIL_STATUS_FLA_LEVEL
    | 1 => s.get F.PWR_RAIL_STATUS_FLB_LEVEL
    | 2 => s.get F.PWR_RAIL_STATUS_FLC_LEVEL
    | _ => s.get F.PWR_RAIL_STATUS_FLD_LEVEL
  lv = 1 || lv = 2

/-- R108, the Needs column of Table 04-2; and R78: a function that needs a group D rail reports ready only once that rail is
valid. -/
def State.needsOk (s : State) (n : Nat) : Bool :=
  match n with
  | 4 => s.ready 0 && s.ready 1
  | 5 => s.ready 0
  | 6 => s.ready 0 && s.ready 1
  | 7 | 8 | 9 => s.ready 0
  | 11 | 12 => s.ready 4 && s.railValid 9
  | 13 => s.ready 4 && s.ready 2 && s.railValid 9
  | 14 => s.railValid 8
  | 15 => s.ready 14 && s.ready 0 && s.ready 6
  | 16 => s.ready 7 && s.railValid 10
  | 18 | 26 => s.ready 7
  | 17 => s.ready 7 && s.ready 16
  | 19 | 20 => s.ready 4
  | 33 | 39 | 42 | 43 => s.ready 4 && s.railValid 8
  | 21 => s.ready 20 && s.ready 19
  | 22 | 23 | 24 | 25 => s.ready 4 && s.ready 21 && s.quadPowered (n - 22) && s.railValid (11 + (n - 22))
  | 27 => (List.range 4).all (fun q => !s.quadPowered q || s.ready (22 + q))
  | 28 => s.ready 18 && s.ready 19 && s.ready 27
  | 29 => s.ready 16 && s.ready 17 && s.ready 26 && s.ready 27
  | 30 => s.ready 18 && s.ready 2
  | 31 => s.ready 6 && s.ready 29
  | 32 => s.ready 15 && s.ready 28 && s.ready 29 && s.ready 31 && s.ready 21
  | 34 => s.ready 33 && s.ready 28 && s.ready 29 && s.ready 30 && s.ready 31 && s.ready 21
  | 35 | 36 => s.ready 29
  | 37 | 38 => s.ready 35 && s.ready 21
  | 40 => s.ready 39 && s.ready 29
  | 41 => s.ready 39
  | 44 => (s.ready 42 || s.ready 43) && s.ready 29 && s.ready 36 && s.ready 6
  | 45 => s.ready 44
  | 46 => s.ready 7 && s.ready 35
  | 47 => s.ready 6
  | _ => true

/-! ### Slots of the protected buffer (Table 01-3) -/

/-- The slots of the protected buffer: exactly 16,384 (R28). -/
def slotTotal : Nat := 16384

/-- Slots in one list. -/
def State.inList (s : State) (l : SlotList) : Nat := (s.slots.filter (fun x => x.lst = l)).length

/-- Slots in the free list. -/
def State.free (s : State) : Nat := slotTotal - s.slots.length

/-- Relocation slots in any list but free; the running parity of a stripe of grooming's counts (R148). -/
def State.relocSlots (s : State) : Nat := (s.slots.filter (fun x => x.kind = .reloc || x.kind = .relocParity)).length

/-- Running-parity slots. -/
def State.paritySlots (s : State) : Nat := (s.slots.filter (fun x => x.kind = .parity || x.kind = .relocParity)).length

/-- Committed energy, in 1/256 unit: the charges of slots whose program has not been issued (R31). -/
def State.committed (s : State) : Nat :=
  ((s.slots.filter (fun x => x.lst ≠ .programming)).map (·.charge)).foldl (· + ·) 0

/-- In-flight energy, in 1/256 unit: the charges of slots whose program has been issued (R31). -/
def State.inflight (s : State) : Nat :=
  ((s.slots.filter (fun x => x.lst = .programming)).map (·.charge)).foldl (· + ·) 0

/-- R149: A − G − committed − in-flight − S, in 1/256 unit. -/
def State.headroom (s : State) : Int :=
  (s.get F.LEDGER_AVAILABLE_A : Int) - 256 * s.get F.LEDGER_ADMIT_GUARD_UJ - s.committed - s.inflight
    - s.get F.LEDGER_RESERVE_S

end Sys2Proof.Machine
end

