-- ==== Sys2Proof/Machine/Geometry.lean ====
section
/-!
DEFINITION. The flash as chapters 10, 12 and 14 lay it out: the channels in use, how stripes, bands and positions map to
LUNs and block sets, unit addresses, erase counters, and the counts of bands.
-/

namespace Sys2Proof.Machine

/-! ### Geometry (R353, R360 to R362) -/

/-- FCH.STATUS.STATE of a channel (Table 12-2): 0 ABSENT, 1 DISCOVERING, 2 READY, 3 FAILED, 4 UNUSED, 5 OFF. -/
def State.chanState (s : State) (c : Nat) : Nat := s.get (F.FCH_STATUS_STATE c)

/-- The channels in use, in ascending order (R353). -/
def State.channels (s : State) : List Nat := (List.range 64).filter (fun c => s.chanState c = 2 || s.chanState c = 3)

/-- The READY channels. -/
def State.readyChannels (s : State) : List Nat := (List.range 64).filter (fun c => s.chanState c = 2)

/-- n, the number of channels in use. -/
def State.nChan (s : State) : Nat := s.channels.length

/-- r = 64 / n, the rows of a band (R360). -/
def State.rows (s : State) : Nat := if s.nChan = 0 then 0 else 64 / s.nChan

/-- The channel whose geometry is the reference (R352). -/
def State.refChan (s : State) : Nat := s.readyChannels.headD 0

/-- L, the usable LUNs of every channel in use (R353). -/
def State.lunsPer (s : State) : Nat := s.get (F.FCH_STATUS_LUNS s.refChan)

/-- Planes of a LUN. -/
def State.planes (s : State) : Nat := 2 ^ s.get (F.FCH_GEOM_PLANES s.refChan)

/-- K, block sets of a LUN. -/
def State.blockSets (s : State) : Nat := s.get (F.FCH_GEOM_BLOCKS_PER_PLANE s.refChan)

/-- BAND_STRIPES (R361). -/
def State.bandStripes (s : State) : Nat := s.get F.MAP_GEOM_BAND_STRIPES

/-- Spares of every LUN (R362). -/
def spareSets (k : Nat) : Nat := ceilDiv k 32 + 4

/-- R362: the number of bands. -/
def State.bandTotal (s : State) : Nat :=
  if s.rows = 0 then 0 else s.lunsPer * (s.blockSets - spareSets s.blockSets) / s.rows

/-- The LUN indices in use on a channel, ascending. -/
def State.lunsOn (s : State) (c : Nat) : List Nat :=
  (List.range 16).filter (fun l => s.getPart (F.FCH_LUN_STATE_STATE c) l 2 = 1 || s.getPart (F.FCH_LUN_STATE_STATE c) l 2 = 2)

/-- The band a stripe belongs to (R361). -/
def State.bandOf (s : State) (stripe : Nat) : Nat := if s.bandStripes = 0 then 0 else stripe / s.bandStripes

/-- Where a position lies: channel, LUN index and physical block set (R360, R362, R363). -/
def blockKey (chan lun block : Nat) : Nat := (chan * 16 + lun) * 65536 + block

/-- Channel and LUN of a position of a band. -/
def State.place (s : State) (band pos : Nat) : Nat × Nat × Nat :=
  let chs := s.channels
  let n := chs.length
  let c := if n = 0 then 0 else chs.getD (pos % n) 0
  let g := band * s.rows + (if n = 0 then 0 else pos / n)
  let luns := s.lunsOn c
  let l := if s.lunsPer = 0 then 0 else luns.getD (g % s.lunsPer) 0
  let lb := if s.lunsPer = 0 then 0 else g / s.lunsPer
  (c, l, s.nv.remap.get (blockKey c l lb) lb)

/-- The block sets of a band, as block keys. -/
def State.bandBlocks (s : State) (band : Nat) : List Nat :=
  (List.range 64).map (fun p => let (c, l, b) := s.place band p; blockKey c l b)

/-- The page row of a stripe within its block set (R361). -/
def State.pageRow (s : State) (stripe : Nat) : Nat :=
  if s.planes = 0 || s.bandStripes = 0 then 0 else (stripe % s.bandStripes) / s.planes

/-- The Seal blocks of a channel, as block keys. -/
def State.sealBlocks (s : State) (c : Nat) : List Nat :=
  [blockKey c (s.get (F.FCH_SEAL_LUN0 c)) (s.get (F.FCH_SEAL_BLOCK0 c)), blockKey c (s.get (F.FCH_SEAL_LUN1 c)) (s.get (F.FCH_SEAL_BLOCK1 c))]

/-- The model's address of payload `i` of a Seal page: above every unit address of R286. -/
def sealUa (seq pos i : Nat) : Nat := 2 ^ 40 + seq * 2 ^ 20 + pos * 4 + i

/-- A unit that lies in a Seal block. -/
def isSealUa (ua : Nat) : Bool := decide (2 ^ 40 ≤ ua)

/-- The Seal page that holds a unit. -/
def State.sealPageOf (s : State) (ua : Nat) : Option SealPage :=
  s.nv.sealPages.find? (fun p => ua / 4 = sealUa p.sealSeq p.pos 0 / 4)

/-- R286: a unit address. -/
def unitAddr (stripe pos quarter : Nat) : Nat := stripe * 256 + pos * 4 + quarter

/-- The stripe of a unit address. -/
def uaStripe (ua : Nat) : Nat := ua / 256
/-- The position of a unit address. -/
def uaPos (ua : Nat) : Nat := ua / 4 % 64
/-- The quarter of a unit address. -/
def uaQuarter (ua : Nat) : Nat := ua % 4

/-- R286: the data position at index `i` of a stripe, 0 to 62, skipping the parity position. -/
def dataPos (stripe i : Nat) : Nat := if i < stripe % 64 then i else i + 1

/-- R286: page `off` of a band's data order, as stripe and position. -/
def State.orderPage (s : State) (band off : Nat) : Nat × Nat :=
  let st := band * s.bandStripes + off / 63
  (st, dataPos st (off % 63))

/-- Pages of a band's data order. -/
def State.bandPages (s : State) : Nat := 63 * s.bandStripes

/-- R373: whether a position's LUN or channel is failed. -/
def State.failedAt (s : State) (band pos : Nat) : Bool :=
  let (c, l, _) := s.place band pos
  s.chanState c ≠ 2 || s.getPart (F.FCH_LUN_STATE_STATE c) l 2 = 2

/-! ### Erase counters and retired block sets (R363, R417, R427) -/

/-- A block set's erase counter. -/
def State.eraseCount (s : State) (block : Nat) : Nat := s.map.ts.erases.get block 0

/-- R417: the sum of all counters. -/
def State.eraseSum (s : State) : Nat := total (s.map.ts.erases.map (·.2))

/-- The physical block sets that stand for a logical block set or for a Seal or calibration block. -/
def State.sparesLeft (s : State) (c l : Nat) : Nat :=
  let k := s.blockSets
  let used := (s.nv.remap.filter (fun e => e.1 / 65536 = c * 16 + l)).length
  let kept := (if s.get (F.FCH_SEAL_LUN0 c) = l then 1 else 0) + (if s.get (F.FCH_SEAL_LUN1 c) = l then 1 else 0) + 1
  spareSets k - (used + kept)

/-! ### Bands (R404 to R406) -/

/-- A band of the translation state; one that no record names is ERASED. -/
def TState.band (t : TState) (b : Nat) : Band := t.bands.get b { state := .erased }

/-- Bands in a state, ERASED excepted. -/
def State.bandsIn (s : State) (st : BandState) : Nat := (s.map.ts.bands.filter (fun e => e.2.state = st)).length

/-- ERASED bands. -/
def State.bandsErased (s : State) : Nat :=
  s.bandTotal - (s.map.ts.bands.filter (fun e => e.2.state ≠ .erased && e.1 < s.bandTotal)).length

/-- GC_RSV (R406). -/
def State.gcRsv (s : State) : Nat := ceilDiv (s.bandTotal * s.get F.GROOM_CFG_RSV_PCT) 100

/-- F, the free count of R406. -/
def State.freeBands (s : State) : Int := (s.bandsErased + s.bandsIn .dirty : Nat) - (s.gcRsv : Int)

/-- The unit addresses that the map names in a band. -/
def State.validCount (s : State) (b : Nat) : Nat := (s.map.ts.map.filter (fun e => s.bandOf (uaStripe e.2) = b)).length

/-- Leaf tables in use. -/
def TState.tables (t : TState) : Nat := (t.forms.filter (fun e => e.2 = 2)).length

/-- The map segments with mapped entries: 128 MiB of a namespace each (R289). -/
def TState.segments (t : TState) : List Nat := ((t.map.filter (fun e => 2 ^ 59 ≤ e.1)).map (fun e => e.1 / 32768)).eraseDups

end Sys2Proof.Machine
end

