-- ==== Sys2Proof/Machine/Operands.lean ====
section
/-!
DEFINITION. What a read of a register returns: the stored fields, and the fields whose one home is other state
(list lengths, sums of charges, queue heads, windows), computed here.
-/

namespace Sys2Proof.Machine

/-- Table 02-6: PAGE_CAPS of a page. BLOCK_CAPS are left 0, since no chapter defines any. -/
def pageCaps (p : Nat) : Nat :=
  pageIsland p * 2 ^ 16 + (snapWords p).length * 2 ^ 8 + 4 + b2n (lockable p) * 2 + b2n (hasShadow p)

/-- Table 02-5: PAGE_ID of a page. -/
def pageId (p : Nat) : Nat :=
  0x4D486440 * 2 ^ 32 + 0x2 * 2 ^ 24 + 0x01 * 2 ^ 16 +
    (if 0x20 ≤ p then (p - 0x20) * 2 ^ 8 + 0x20 else (if p = 0x1D then 1 else 0) * 2 ^ 8 + p)

/-- R55, Table 02-2: EVT_PEND, the events not masked. -/
def State.evtPend (s : State) (p : Nat) : Nat :=
  s.get (F.EVT_RAW p) - Nat.land (s.get (F.EVT_RAW p)) (s.get (F.EVT_MASK p))

/-- Table 02-8: some pending value of the page differs from its active value. -/
def State.dirty (s : State) (p : Nat) : Bool := s.pend.any (fun e => keyPage e.1 = p)

/-- Whether a page is MIXED (R51). -/
def State.mixed (s : State) (p : Nat) : Bool := s.get (F.SHADOW_MIXED p) = 1

/-- One bit per page of a list of pages, from page `base`. -/
def pageMap (base n : Nat) (f : Nat → Bool) : Nat :=
  ((List.range n).map (fun i => b2n (f (base + i)) * 2 ^ i)).foldl (· + ·) 0

/-- Table 05-4: the ledger query record, as eight 64-bit words. -/
def State.ledgerRecord (s : State) : List Nat :=
  [s.led.sampleTb, s.get F.LEDGER_AVAILABLE_A, s.committed, s.inflight, s.get F.LEDGER_RESERVE_S,
   256 * s.get F.LEDGER_ADMIT_GUARD_UJ, unsigned 64 s.headroom,
   s.get F.LEDGER_SAMPLE_V_MV + 2 ^ 16 * (s.get F.LEDGER_STATUS_SENSE_FAULT + 2 * s.get F.LEDGER_STATUS_CALIBRATED
     + 4 * s.get F.LEDGER_STATUS_XOFF + 8 * s.get F.LEDGER_STATUS_STOPPED) + 2 ^ 32 * s.get F.LEDGER_CAL_RESULT_COST_Q8]

/-- GROOM.STATUS.ACTIVITY: 0 none, 1 background, 2 Groom mode, 3 waiting for budget. -/
def State.groomActivity (s : State) : Nat :=
  let mine := s.bud.ops.filter (fun o => o.cls = 6)
  if s.map.victims = [] && s.map.consol = [] then 0
  else if mine ≠ [] && mine.all (fun o => o.phase = .queued) then 3
  else if s.mode = Md.GROOM then 2 else 1

/-- R354: credits of a channel held by its sequencer: one from an operation's pick until it retires. -/
def State.creditsHeld (s : State) (c : Nat) : Nat :=
  (s.bud.ops.filter (fun o => o.chan = c && o.phase ≠ .queued)).length

/-- Received blocks of a record whose leaves have no slots yet (R247). -/
def State.recWaiting (s : State) (r : FrameRec) : Nat :=
  let held := r.asked - (s.led.reqs.filter (fun q => q.slots.any (fun x => x.owner = .frame r.id))).length
  r.blocks.length - 512 * held

/-- Blocks in the elastic buffer: those of frames and orphan pieces, not of sketches or capture units. -/
def State.elasticBlocks (s : State) : Nat :=
  total ((s.frm.recs.filter (fun r => !bit r.flags 9 && !bit r.flags 10)).map s.recWaiting)

/-- R247: CREDIT, not cut to its 24 bits: 64 above the units that have left the buffer. -/
def State.creditNow (s : State) : Nat := 64 + (s.ing.blocks - s.elasticBlocks) / 512

/-- Streams 64k to 64k + 63 in a live take. -/
def State.takeMap (s : State) (k : Nat) : Nat :=
  let ts := (s.map.ts.takes.map (·.2)).filter (fun t => t.phase < 2)
  ((List.range 64).map (fun i => b2n (ts.any (fun t => t.streams.contains (64 * k + i))) * 2 ^ i)).foldl (· + ·) 0

/-- R447: a mark stands in the divergence map, or a take is listed. -/
def State.divergent (s : State) : Bool := s.nv.div ≠ [] || s.nv.divTakes ≠ []

/-- The pair-state word (R453). -/
def State.pairWord (s : State) : Nat :=
  let p := s.pair
  let progress := if p.marked = 0 then 0 else 100 * (p.marked - p.left.length) / p.marked
  p.pstate + 2 ^ 4 * b2n p.lead + 2 ^ 5 * s.get F.SYS_STRAPS_PAIR_RANK + 2 ^ 6 * p.peerRank + 2 ^ 7 * b2n p.token +
    2 ^ 8 * b2n p.peerTok + 2 ^ 9 * b2n s.divergent + 2 ^ 10 * b2n p.peerDiv + 2 ^ 11 * b2n p.converging +
    2 ^ 12 * s.get F.PAIR_CFG_FEED + 2 ^ 13 * b2n s.pins.peerFitted + 2 ^ 16 * min progress 255

/-- Table 20-1: the spare rows of an array. -/
def bistSpares (a : Nat) : Nat := [64, 8, 16, 2, 4, 4, 4, 8, 8, 8, 4, 4, 16, 2].getD a 0

/-! ### Check-value units (Table 17-7) -/

/-- Bits of a polynomial. -/
def crcuBits (poly : Nat) : Nat :=
  match poly with
  | 2 => 64
  | 3 => 16
  | _ => 32

/-- The final XOR. -/
def crcuXor (poly : Nat) : Nat := if poly < 2 then 0xFFFFFFFF else 0

/-- RESULT. -/
def State.crcuResult (s : State) (n : Nat) : Nat :=
  let p := s.get (F.CRCU_CFG_POLY n)
  Nat.xor (s.get (F.CRCU_ACC n) % 2 ^ crcuBits p) (crcuXor p)

/-! ### Queues of the camera's controller -/

/-- Commands in the tracker (R206) of the camera's queues that `p` selects. -/
def State.hostHeld (s : State) (p : Nat → Bool) : Nat :=
  (s.host.cmds.filter (fun c => match c.id.src with
    | .host q => p q
    | _ => false)).length

/-- I/O queue pairs with both queues created. -/
def State.queuePairs (s : State) : Nat :=
  (s.host.sqs.filter (fun e => e.1 ≠ 0 && s.host.cqs.any (fun c => c.1 = e.1))).length

/-! ### Computed fields -/

/-- The fields whose one home is not the register file, by page and offset; `none` for a stored field. -/
def State.computed (s : State) (f : Field) : Option Nat :=
  match f.page with
  | 0x00 =>
    match f.off with
    | 0x148 => if f.lo = 0 then some (((List.range 96).filter s.mixed).length) else none
    | 0x150 => some (pageMap 0 64 s.mixed)
    | 0x158 => some (pageMap 64 32 s.mixed)
    | _ => none
  | 0x01 =>
    if f.off = 0x160 then
      let dir := s.get F.PWR_GPIO_DIR_DIR
      let inp := if s.get F.PWR_RAIL_STATUS_IO_LEVEL = 3 then 0 else s.get F.PWR_GPIO_IN_IN
      some (Nat.land (s.get F.PWR_GPIO_OUT_OUT) dir + (inp - Nat.land inp dir))
    else none
  | 0x04 =>
    match f.off with
    | 0x158 => some s.committed
    | 0x160 => some s.inflight
    | 0x170 => some (unsigned 48 s.headroom)
    | _ => none
  | 0x06 =>
    match f.off with
    | 0x018 => if f.lo = 4 then some (b2n (!s.railValid 0)) else none
    | 0x100 => some s.tb
    | 0x130 => some (s.keep.ticks % 2 ^ 32)
    | _ => none
  | 0x17 =>
    match f.off with
    | 0x100 => some s.free
    | 0x108 => some (s.inList .filling)
    | 0x110 => some (s.inList .durable)
    | 0x118 => some (s.inList .programming)
    | 0x120 => some (s.inList .mirror)
    | 0x128 => some s.relocSlots
    | 0x130 => some s.paritySlots
    | _ => none
  | 0x14 =>
    match f.off with
    | 0x138 => if f.lo = 16 then some (s.map.ts.seq % 2 ^ 48) else some s.map.tail.length
    | 0x140 => if f.lo = 1 then some s.map.ts.ckpt else none
    | 0x148 => some s.map.ts.tables
    | 0x018 => if f.lo = 8 then some (min 255 (s.bandsIn .bootRsv)) else none
    | 0x158 => if f.lo = 32 then some s.map.ts.segments.length else
        some (if s.ready Fn.MAP_FULL then s.map.ts.segments.length else s.map.resident.length)
    | o => if 0x10000 ≤ o && o % 0x20 = 0x10 then some (s.map.ts.appends.get ((o - 0x10000) / 0x20) 0) else none
  | 0x1a =>
    match f.off with
    | 0x118 => if f.lo = 32 then some (s.bandsIn .closed + s.bandsIn .victim) else some s.bandTotal
    | 0x120 => if f.lo = 32 then some (unsigned 32 s.freeBands) else
        if f.lo = 16 then some (s.bandsIn .dirty) else some s.bandsErased
    | 0x128 => if f.lo = 32 then some (-s.freeBands).toNat else some s.gcRsv
    | 0x140 => some s.eraseSum
    | 0x018 => if f.lo = 0 then some s.groomActivity else none
    | _ => none
  | 0x12 =>
    if f.off = 0x108 then
      (if f.lo = 48 then some (min 511 (s.elasticBlocks / 128)) else if f.lo = 24 then some (s.ing.blocks / 512) else
        some (s.creditNow % 2 ^ 24))
    else none
  | 0x13 =>
    match f.off with
    | 0x140 => if f.lo = 32 then some (s.map.ts.takes.filter (fun e => e.2.phase < 2)).length else some s.map.ts.lastTake
    | 0x148 => some (s.takeMap 0)
    | 0x150 => some (s.takeMap 1)
    | 0x158 => some (s.takeMap 2)
    | 0x160 => some (s.takeMap 3)
    | _ => none
  | 0x07 =>
    match f.off with
    | 0x018 => if f.lo = 14 then some (b2n (s.nv.sanit = 2)) else none
    | 0x118 => if f.lo = 0 then some (s.keep.carryLeft.getD 0) else none
    | _ => none
  | 0x08 =>
    if f.off = 0x1A8 then some (if s.get F.DBG_STATUS_LEVEL = 0 then 0 else ceilDiv (s.sec.endTb - s.tb) 250000000) else none
  | 0x1b =>
    match f.off with
    | 0x018 => if f.lo = 0 then some s.pairWord else none
    | 0x138 => if f.lo = 32 then some ((s.pair.ident.elim 0 (fun i => i.segs.length))) else some s.nv.div.length
    | 0x140 => if f.lo = 32 then some (s.pair.units / 256) else some s.pair.left.length
    | _ => none
  | 0x1e =>
    let n := s.net
    let conns (disc : Bool) : Nat := (n.ctrls.filter (fun e => e.2.disc = disc)).length
    match f.off with
    | 0x018 => if f.lo = 12 then some (conns true) else if f.lo = 8 then some (conns false) else if f.lo = 0 then some n.conns.length else none
    | 0x128 => some (min 65535 (match f.lo with
        | 0 => n.outReg.getD 0 0 / 16
        | 16 => n.outReg.getD 1 0
        | 32 => n.outReg.getD 2 0
        | _ => n.outReg.getD 3 0))
    | 0x138 => some (n.ctxs.filter (fun c => c.port = f.lo / 8)).length
    | 0x140 => if f.lo = 16 then some n.tracks.length else none
    | _ => none
  | 0x0d =>
    if f.off = 0x018 then (if f.lo = 1 then some (b2n (s.ready Fn.MBX_P)) else none)
    else if 0x100 ≤ f.off then
      let q := s.mbx.qs.getD (f.off / 0x100 - 1) []
      if f.off % 0x100 = 0x38 then some (q.headD 0)
      else if f.off % 0x100 = 0x40 && f.lo = 0 then some q.length
      else none
    else none
  | 0x0a =>
    let u := s.nv.upd
    match f.off with
    | 0x018 => if f.lo = 8 then some u.pending else if f.lo = 4 then some (b2n u.trial) else if f.lo = 0 then some u.active else none
    | 0x130 => if f.lo = 0 then some u.copied.length else none
    | 0x148 => if f.lo = 0 then some s.nv.fused else none
    | _ => none
  | 0x0f => if 0x100 ≤ f.off && f.off % 0x80 = 0x10 then some (s.crcuResult (f.off / 0x80 - 2)) else none
  | 0x0b =>
    let r := s.nv.fatal.getD (0, 0, 0, 0)
    match f.off with
    | 0x130 => some (if f.lo = 24 then r.1 else if f.lo = 8 then r.2.1 else r.2.2.1)
    | 0x138 => some r.2.2.2
    | _ => none
  | 0x0c =>
    if f.off = 0x018 then
      (if f.lo = 8 then
        some (b2n (s.ready Fn.FAULT_INJ && s.get F.FI_CTL_EN = 1 && (s.mode = Md.SERVICE || s.get F.DBG_STATUS_LEVEL = 2)))
      else some (total ((List.range 7).map (fun i => s.get (F.FI_CFG_ARM i) * 2 ^ i))))
    else none
  | 0x1f =>
    let p := s.aser.getD (f.off / 0x80 - 2) {}
    if f.off < 0x100 then none
    else match f.off % 0x80 with
      | 0x10 => some (match p.rx with
        | [] => 0
        | e :: _ => match f.lo with
          | 16 => e.tb
          | 15 => 1
          | 8 => e.flags
          | _ => e.data)
      | 0x28 => if f.lo = 0 then some p.rx.length else none
      | 0x30 => if f.lo = 0 then some p.tx.length else none
      | _ => none
  | 0x10 =>
    match f.off with
    | 0x018 => if f.lo = 16 then some (s.queuePairs) else if f.lo = 1 then some (b2n (s.host.en && s.ready 15)) else
        if f.lo = 0 then some (b2n s.host.en) else none
    | 0x110 => some (min 4095 (s.hostHeld fun _ => true))
    | 0x138 => some (pageMap 0 64 (fun p => s.evtPend p ≠ 0))
    | 0x140 => some (pageMap 64 32 (fun p => s.evtPend p ≠ 0))
    | _ => if 0x400 ≤ f.off && f.lo = 20 then some (min 4095 (s.hostHeld fun q => q = (f.off - 0x400) / 8 + 1)) else none
  | p =>
    if 0x20 ≤ p && f.off = 0x140 then
      (if f.lo = 0 then some (32 - s.creditsHeld (p - 0x20)) else if f.lo = 8 then some (s.creditsHeld (p - 0x20)) else some 0)
    else none

/-- What a field contributes to a read (Table 00-3): pending for RWS, 0 for WO, otherwise the current value. -/
def State.readField (s : State) (f : Field) : Nat :=
  match f.acc with
  | .wo => 0
  | .rws => s.getP f
  | _ => (s.computed f).getD (s.get f)

/-- Where a register behind a selecting window lies: the offset the access reaches. -/
def State.window (s : State) (p off : Nat) : Nat :=
  if p = 0x13 then
    if off = 0x120 || off = 0x128 then 0x10000 + 0x10 * s.get F.FRAME_DESC_SEL_STREAM + (off - 0x120) else off
  else if p = 0x14 then
    if off = 0x120 || off = 0x128 || off = 0x130 then
      0x10000 + 0x20 * s.get F.MAP_STREAM_SEL_STREAM + (off - 0x120) else off
  else if p = 0x18 then
    if off = 0x130 then 0x10000 + 8 * (16 * s.get F.ECC_TRACK_SEL_CHANNEL + s.get F.ECC_TRACK_SEL_LUN) else off
  else off

/-- Registers read whole from other state, by page and offset. -/
def State.wholeReg (s : State) (p off : Nat) : Option Nat :=
  if off = 0x000 then some (pageId p)
  else if off = 0x008 then some (pageCaps p)
  else if off = 0x030 then some (s.evtPend p)
  else if p = 0x13 && (off = 0x130 || off = 0x138) then
    some (s.get (if off = 0x130 then F.FRAME_DESC_A_DESC (s.get F.FRAME_DESC_SEL_STREAM) else F.FRAME_DESC_B_DESC (s.get F.FRAME_DESC_SEL_STREAM)))
  else if p = 0x0b && off = 0x120 then
    let a := s.get F.BIST_REPAIR_SEL_ARRAY
    let r := s.nv.bist.get a {}
    some (b2n r.fused * 2 ^ 63 + r.rows.length * 2 ^ 24 + r.soft.length * 2 ^ 16 + bistSpares a)
  else if p = 0x09 && off = 0x130 then some (s.nv.storeEc.get (s.get F.CODE_EC_SEL_SECTOR) 0)
  else if p = 0x09 && off = 0x138 then
    let most := s.nv.storeEc.foldl (fun m e => if m.2 < e.2 then e else m) ((0, 0) : Nat × Nat)
    some (most.2 + 2 ^ 32 * most.1)
  else if p = 0x18 && 0x208 ≤ off && off ≤ 0x220 && off % 8 = 0 then
    some ((s.map.integ[s.get F.ECC_INTEG_SEL_INDEX]?).elim 0 (fun (r : Integ) => r.word ((off - 0x208) / 8)))
  else if p = 0x1a && off = 0x158 then
    some (s.eraseCount (blockKey (s.get F.GROOM_EC_SEL_CHANNEL) (s.get F.GROOM_EC_SEL_LUN) (s.get F.GROOM_EC_SEL_BLOCK_SET)))
  else none

/-- The 64-bit value of a register as a read returns it. -/
def State.readReg (s : State) (p off : Nat) : Nat :=
  match s.wholeReg p off with
  | some v => v
  | none =>
    ((fieldsAt p (s.window p off)).map (fun f => s.readField f * 2 ^ f.lo)).foldl (· + ·) 0 +
      (if off = 0x048 then b2n (s.dirty p) * 2 ^ 56 else 0)

end Sys2Proof.Machine
end

