-- ==== Sys2Proof/Machine/Flags.lean ====
section
/-!
DEFINITION. The event bits and what their rising causes (snapshots, asynchronous events), the completions of NVMe
commands, and the readiness of functions: the status the commands share.
-/

namespace Sys2Proof.Machine

/-- Draws the next value of the counter of free values. -/
def State.draw (s : State) : State := { s with fresh := s.fresh + 1 }

/-! ### Snapshots (R55 to R58, R65, R66) -/

/-- The delay of an island's latch, at most 12 ticks (R56, R57). -/
def State.latchDelay (s : State) (island : Nat) : Nat := Config.latchDelay s.fresh island % 13

/-- The islands that are ON and serve pages: every one but KEEP (R56). -/
def State.onIslands (s : State) : List Nat := (List.range 24).filter (fun i => i ≠ 0 && s.isl i = 2)

/-- One page latches its SNAP words, SNAP_EPOCH and SNAP_TIME (R56, R58), reading the registers of `s0`. -/
def latchPage (s0 : State) (epoch source : Nat) (s : State) (p : Nat) : State :=
  let words := snapWords p
  let s := (List.range words.length).foldl
    (fun s k => s.set (F.SNAP_WORD p k) (s0.readReg p (words.getD k 0))) s
  (((s.set (F.SNAP_COMMIT_EPOCH p) (s0.get (F.ACTIVE_EPOCH p))).set (F.SNAP_SOURCE p) source).set
    (F.SNAP_EPOCH p) epoch).set (F.SNAP_TIME p) (s0.tb + s0.latchDelay (pageIsland p))

/-- R56: the epoch after another. -/
def nextEpoch (e : Nat) : Nat := if e = 0xFFFFFFFF then 1 else e + 1

/-- A snapshot is taken: every page of every island that is ON latches. -/
def State.takeSnapshot (s : State) (source : Nat) : State :=
  let e := nextEpoch (s.get F.SNAP_LAST_EPOCH_EPOCH)
  let on := s.onIslands
  let d := on.map s.latchDelay
  let s1 := ((List.range 96).filter (fun p => on.contains (pageIsland p))).foldl (latchPage s e (2 ^ source)) s
  let s1 := ((s1.set F.SNAP_LAST_EPOCH_EPOCH e).set F.SNAP_LAST_TIME_TIME s.tb).set F.SNAP_STATE_HELD (s.get F.SNAP_CFG_HOLD)
  let s1 := (s1.set F.SNAP_SKEW_LATCHED ((on.map (fun i => 2 ^ i)).foldl (· + ·) 0)).set F.SNAP_SKEW_SPREAD
    (d.foldl max 0 - d.foldl min 12)
  { s1 with led := { s1.led with latched := s.ledgerRecord }, fresh := s1.fresh + 1 }

/-- A trigger joins the snapshot taken at most 64 ns before it (R65). -/
def State.joinSnapshot (s : State) (source : Nat) : State :=
  ((List.range 96).filter (fun p => s.get (F.SNAP_EPOCH p) = s.get F.SNAP_LAST_EPOCH_EPOCH)).foldl
    (fun s p => s.set (F.SNAP_SOURCE p) (setBit (s.get (F.SNAP_SOURCE p)) source)) (s.inc F.SNAP_COUNTS_MERGED)

/-- R55, R65: a trigger of one of the five sources is accepted, missed or joined. -/
def State.trigger (s : State) (source : Nat) : State :=
  if s.get F.SNAP_STATE_HELD = 1 then s.inc F.SNAP_COUNTS_MISSED
  else if s.get F.SNAP_LAST_EPOCH_EPOCH ≠ 0 && s.tb ≤ s.get F.SNAP_LAST_TIME_TIME + 16 then s.joinSnapshot source
  else s.takeSnapshot source

/-! ### Messages to the pair's peer (R433, R434) -/

/-- The virtual channel of a message (Table 15-3); `none` for a control block. -/
def PairMsg.vc : PairMsg → Option Nat
  | .slot _ => some 0
  | .record _ _ | .ident _ | .result _ | .shape _ _ | .mailbox _ _ _ _ | .forward _ _ | .reply _ _ => some 1
  | .heldSlot _ | .heldFrame _ _ _ _ _ | .recAck _ | .relay _ _ _ | .relayDone _ _ _ | .sealing | .leave _ | .snapreq => some 2
  | .train _ | .linkAck _ _ _ | .credit _ _ | .beat _ _ _ _ _ _ _ _ _ => none

/-- Credit units of 64 B that a message's frame takes: 4,128 B for a SLOT, 144 B for a frame index entry, else one. -/
def PairMsg.units : PairMsg → Nat
  | .slot _ => 65
  | .record _ (.frameEntry _) => 3
  | .shape _ ks => ceilDiv (ks.length + 1) 8
  | _ => 1

/-- The allocation of a virtual channel (R434). -/
def pairAlloc (v : Nat) : Nat := [1024, 256, 128].getD v 0

/-- Frames of a virtual channel leave in order while its credit lasts (R433, R434). -/
def State.pairPump : Nat → Nat → State → State
  | 0, _, s => s
  | n + 1, v, s =>
    match s.pair.txq.find? (fun x => x.1 = v) with
    | none => s
    | some (_, u) =>
      let avail := s.get (F.PAIR_CREDIT_AVAIL v)
      if avail < u then s
      else
        let seq := s.pair.txSeq.getD v 0
        let s1 := s.set (F.PAIR_CREDIT_AVAIL v) (avail - u)
        State.pairPump n v { s1 with pair := { s1.pair with
          txq := s1.pair.txq.erase (v, u)
          used := s1.pair.used.set v (s1.pair.used.getD v 0 + u)
          txSeq := s1.pair.txSeq.set v ((seq + 1) % 65536)
          unacked := s1.pair.unacked ++ [(v, seq, u, 1)] } }

/-- A message leaves for the peer: a control block at once, another in a frame of its channel; none without an aligned link. -/
def State.pairSend (s : State) (m : PairMsg) : State :=
  match m.vc with
  | none => { s with pair := { s.pair with sent := s.pair.sent ++ [m] } }
  | some v =>
    if s.get F.PAIR_STATUS_ALIGNED = 0 then s
    else
      let s1 := { s with pair := { s.pair with sent := s.pair.sent ++ [m], txq := s.pair.txq ++ [(v, m.units)] } }
      State.pairPump s1.pair.txq.length v s1

/-- A trigger, and with PEER_OUT the SNAPREQ that carries it to the peer, unless it came from there (chapter 15). -/
def State.snapshot (s : State) (source : Nat) : State :=
  let s1 := s.trigger source
  if s.get F.SNAP_CFG_PEER_OUT = 1 && source ≠ 3 then s1.pairSend .snapreq else s1

/-! ### NVMe completions and asynchronous events -/

/-- Posts one completion entry (R194): nothing is posted while HOST is not ON; entries of the dock's commands go to
their connection, and the outcome of a relayed command goes to the lead (R438). A queue or connection that is gone takes none. -/
def State.postEntry (s : State) (e : Cqe) : State :=
  match e.id.src with
  | .host q =>
    if s.isl 2 = 2 && s.host.en && (q = 0 || (s.host.cqs.find? q).isSome) then
      let cq := s.host.cqs.get q ⟨0, 0, false, 0, 0, 0⟩
      let held := cq.held + 1
      let thr := bits s.host.coalesce 0 8
      let hold := q ≠ 0 && thr ≠ 0 && !bit (s.host.ivCfg.get cq.vec 0) 0 && held ≤ thr
      let cq := { cq with tail := if cq.size = 0 then 0 else (cq.tail + 1) % cq.size, held := if hold then held else 0 }
      { s with host := { s.host with
          cqes := s.host.cqes ++ [e]
          cqs := if (s.host.cqs.find? q).isSome then s.host.cqs.put q cq else s.host.cqs
          irqs := if cq.ien && s.host.msixEn && !hold then s.host.irqs ++ [cq.vec] else s.host.irqs } }
    else s
  | .dock conn => if (s.net.conns.find? conn).isSome then { s with host := { s.host with cqes := s.host.cqes ++ [e] } } else s
  | .relay => s.pairSend (.relayDone e.id.cid e.sct e.sc)

/-! ### Fault injectors (R591, R592) -/

/-- What an injector does to a unit. -/
inductive FiDo where
  | pass | drop | corrupt | reorder
  deriving DecidableEq, Repr

/-- R592: a qualifying unit is counted, and the injector acts on it or lets it pass. -/
def State.fiUnit (s : State) (i : Nat) : FiDo × State :=
  if s.get (F.FI_CFG_STATE i) = 1 || s.get (F.FI_CFG_STATE i) = 2 then
    let c := s.get (F.FI_UNITS_COUNT i)
    let start := s.get (F.FI_EVERY_START i)
    let n := s.get (F.FI_EVERY_N i)
    let s1 := s.addSat (F.FI_UNITS_COUNT i) 1
    if start ≤ c && n ≠ 0 && (c - start) % n = 0 then
      let s1 := ((s1.inc (F.FI_ACTED_COUNT i)).set (F.FI_LAST_TB_TB i) s.tb).setEvt ⟨Pg.FI, i⟩
      let s1 := if s.get (F.FI_CFG_SHOT i) = 1 then s1.set (F.FI_CFG_STATE i) 3 else s1
      (match s.get (F.FI_CFG_ACTION i) with
        | 0 => .drop
        | 1 => .corrupt
        | _ => .reorder, s1)
    else (.pass, s1)
  else (.pass, s)

/-- XORs a mask into `n` of a unit's words from word `start` on. -/
def xorWords (ws : List Nat) (mask start n : Nat) : List Nat :=
  (ws.zip (List.range ws.length)).map (fun (w, i) => if start ≤ i && i < start + n then Nat.xor w mask else w)

/-- R592: CORRUPT on a unit's 64-bit words, or the rest of a corruption that runs on from the unit before. -/
def State.fiCorrupt (s : State) (i : Nat) (acts : Bool) (ws : List Nat) : List Nat × State :=
  let len := ws.length
  let span := if acts then s.get (F.FI_POS_SPAN i) else s.fi.carry.getD i 0
  let start := if acts && len ≠ 0 then s.get (F.FI_POS_POSITION i) % len else 0
  let n := min span (len - start)
  (xorWords ws (s.get (F.FI_MASK i)) start n, { s with fi := { s.fi with carry := s.fi.carry.set i (span - n) } })

/-- A completion entry as two 64-bit words: Dwords 0 and 1, then the command identifier and the status. -/
def Cqe.words (e : Cqe) : List Nat :=
  [e.dw0 % 2 ^ 32 + e.dw1 % 2 ^ 32 * 2 ^ 32, e.id.cid % 2 ^ 16 * 2 ^ 32 + (e.sc % 2 ^ 8 * 2 + e.sct % 8 * 2 ^ 9 + b2n e.dnr * 2 ^ 15) * 2 ^ 48]

/-- A completion entry with other words. -/
def Cqe.ofWords (e : Cqe) (ws : List Nat) : Cqe :=
  let a := ws.getD 0 0
  let b := ws.getD 1 0
  { e with
    dw0 := a % 2 ^ 32, dw1 := a / 2 ^ 32 % 2 ^ 32, id := { e.id with cid := b / 2 ^ 32 % 2 ^ 16 }
    sc := bits b 49 8, sct := bits b 57 3, dnr := bit b 63 }

/-- A completion entry passes injector 6, where it is armed for its queue (Table 20-4), and is posted. -/
def State.post (s : State) (e : Cqe) : State :=
  match e.id.src with
  | .host q =>
    let t := s.get (F.FI_CFG_TARGET 6) % 512
    if (s.get (F.FI_CFG_STATE 6) = 1 || s.get (F.FI_CFG_STATE 6) = 2) && (t = 0x1FF || t = q) then
      let (d, s1) := s.fiUnit 6
      let (e', s1) := if d = .corrupt || (d = .pass && s1.fi.carry.getD 6 0 ≠ 0) then
        let (ws, s2) := s1.fiCorrupt 6 (d = .corrupt) e.words
        (e.ofWords ws, s2) else (e, s1)
      match d with
      | .drop => s1
      | .reorder => { s1 with fi := { s1.fi with cqe := some (e', s1.get (F.FI_POS_WINDOW 6)) } }.set (F.FI_CFG_STATE 6) 2
      | _ =>
        let s2 := s1.postEntry e'
        match s2.fi.cqe with
        | some (h, n) =>
          if n ≤ 1 then (State.postEntry { s2 with fi := { s2.fi with cqe := none } } h).set (F.FI_CFG_STATE 6)
              (if s2.get (F.FI_CFG_SHOT 6) = 1 then 3 else 1)
          else { s2 with fi := { s2.fi with cqe := some (h, n - 1) } }
        | none => s2
    else s.postEntry e
  | _ => s.postEntry e

/-- A write, for the order of Flush (R26). -/
def CmdOp.isWrite (o : CmdOp) : Bool := o = .write || o = .writeZeroes || o = .dsm

/-- R26: the Flush commands with no earlier write of their queue outstanding. -/
def readyFlushes : List Src → List Cmd → List Cid
  | _, [] => []
  | ws, c :: cs =>
    if c.op.isWrite then readyFlushes (c.id.src :: ws) cs
    else if c.op = .flush && !ws.contains c.id.src then c.id :: readyFlushes ws cs
    else readyFlushes ws cs

/-- A command leaves the tracker, and with it what it was still reading. -/
def State.untrack (s : State) (id : Cid) : State :=
  { s with
    host := { s.host with cmds := s.host.cmds.filter (fun c => c.id ≠ id) }
    map := { s.map with reads := s.map.reads.filter (fun r => r.id ≠ id) } }

/-- A command of the camera's controller. -/
def cidHost (c : Cid) : Bool :=
  match c.src with
  | .host _ => true
  | _ => false

/-- R224: a normal shutdown is complete once no command of the camera is outstanding; Asynchronous Event Requests do not count. -/
def State.shutCheck (s : State) : State :=
  if s.host.shst = 1 && !s.host.cmds.any (fun c => cidHost c.id) && !s.frm.waits.any (fun w => cidHost w.id) &&
      !s.frm.starts.any (fun x => cidHost x.1) && !s.pair.held.any (fun x => cidHost x.2.id) &&
      !s.pair.relays.any (fun r => cidHost r.id) && s.mc.waiter.isNone && s.mc.heldCmd.isNone then
    { s with host := { s.host with shst := 2 } }
  else s

/-- A command completes and leaves the tracker; Flush commands that waited for it complete after it. -/
def State.complete (s : State) (id : Cid) (sct sc : Nat) (dnr : Bool) (dw0 dw1 : Nat) (data : List Nat) : State :=
  let s1 := State.post (s.untrack id) ⟨id, sct, sc, dnr, dw0, dw1, data⟩
  let s1 := (readyFlushes [] s1.host.cmds).foldl (fun s f => (s.untrack f).post ⟨f, 0, 0, false, 0, 0, []⟩) s1
  s1.shutCheck

/-- A command completes successfully. -/
def State.ok (s : State) (id : Cid) (dw0 : Nat) (dw1 : Nat) (data : List Nat) : State :=
  s.complete id 0 0 false dw0 dw1 data

/-- A command completes with a generic or command-specific status of NVMe Base 2.0. -/
def State.fail (s : State) (id : Cid) (sct sc : Nat) : State := s.complete id sct sc true 0 0 []

/-- Dword 0 of a completion that reports an asynchronous event. -/
def Aen.dw0 (a : Aen) : Nat := a.type + a.info * 2 ^ 8 + a.log * 2 ^ 16

/-- R213: an event is reported once through an Asynchronous Event Request, or waits for one. -/
def State.aen (s : State) (a : Aen) : State :=
  if s.host.told.contains a || s.host.aens.contains a || (a.type = 7 && !bit s.host.aec 31) then s
  else match s.host.aers with
    | [] => { s with host := { s.host with aens := s.host.aens ++ [a] } }
    | c :: rest =>
      State.ok { s with host := { s.host with aers := rest, told := s.host.told ++ [a] } } ⟨.host 0, c⟩ a.dw0 0 []

/-- Table 07-9: a vendor event. -/
def State.vendorEvent (s : State) (info log : Nat) : State := s.aen ⟨7, info, log⟩

/-- R213: the condition of an event without a log page has cleared, so that it may be reported again. -/
def State.rearmEvent (s : State) (info log : Nat) : State :=
  { s with host := { s.host with told := s.host.told.filter (fun a => a ≠ ⟨7, info, log⟩) } }

/-- R214: PAGE_PEND AND PAGE_ROUTE over both registers is non-zero. -/
def State.routeHit (s : State) : Bool :=
  (s.get F.HOSTQ_PAGE_ROUTE0_ROUTE ≠ 0 || s.get F.HOSTQ_PAGE_ROUTE1_ROUTE ≠ 0) &&
    (List.range 96).any (fun p =>
      bit (if p < 64 then s.get F.HOSTQ_PAGE_ROUTE0_ROUTE else s.get F.HOSTQ_PAGE_ROUTE1_ROUTE) (p % 64) && s.evtPend p ≠ 0)

/-- R214: reports event 0x06 when the routed events change from none to some. -/
def State.reroute (s : State) : State :=
  let hit := s.routeHit
  if hit && !s.host.routed then
    State.vendorEvent { s with host := { s.host with routed := true } } 0x06 0
  else if !hit && s.host.routed then
    State.rearmEvent { s with host := { s.host with routed := false } } 0x06 0
  else s

/-! ### Events -/

/-- R55: the event selected in SNAP.CFG. -/
def State.snapEvt (s : State) (e : Ev) : Bool :=
  s.get F.SNAP_CFG_EVT_EN = 1 && s.get F.SNAP_CFG_EVT_PAGE = e.page && s.get F.SNAP_CFG_EVT_BIT = e.bit

/-- An event bit sets: its rising may trigger a snapshot (R55) and reach the camera (R214). -/
def State.raise (s : State) (e : Ev) : State :=
  let rose := !s.getBit (F.EVT_RAW e.page) e.bit
  let s1 := s.setEvt e
  let s1 := if rose && s.snapEvt e then s1.snapshot 2 else s1
  s1.reroute

/-- Sets an event when a condition holds. -/
def State.raiseIf (s : State) (c : Bool) (e : Ev) : State := if c then s.raise e else s

/-- R205, Table 07-7: a command completes with a vendor status; DNR is the table's. HOSTQ.REFUSED counts 7h/0x81 (Table 07-12). -/
def State.vendor (s : State) (id : Cid) (sc dw0 : Nat) : State :=
  let s1 := s.complete id 7 sc ([0x82, 0x83, 0x85, 0x86, 0x87, 0x89, 0x8C].contains sc) dw0 0 []
  match id.src with
  | .host _ => if sc = 0x81 && s.isl 2 = 2 then (s1.inc F.HOSTQ_REFUSED_COUNT).raise E.HOSTQ_CMD_REFUSED else s1
  | _ => s1

/-! ### WAKE_N (R196) -/

/-- A wake source in Rest, while PERST_N is asserted, drives WAKE_N where PCIE.WAKE_CTL selects it. -/
def State.wakeOut (s : State) (sel : Field) : State :=
  if s.mode = Md.REST && s.pins.perstN && s.get sel = 1 && s.get F.PWR_RAIL_STATUS_IO_LEVEL ≠ 3 then
    { s with pins := { s.pins with wakeN := false } }
  else s

/-! ### Self-test yield (R216) -/

/-- An I/O arrival stops the chunk of a self-test in progress. -/
def State.ioArrival (s : State) : State :=
  if s.tst.running then
    State.raise { s with tst := { s.tst with running := false, yielded := true } } E.HOSTQ_SELFTEST_YIELD
  else s

/-! ### Function readiness (R108, R109) -/

/-- R108: clears every function whose needs no longer hold, in the order of Table 04-2, where each function needs only
earlier ones. -/
def State.cascade (s : State) : State :=
  (List.range 48).foldl
    (fun s n => if s.ready n && !s.needsOk n then s.setBitTo F.SYS_FUNC_READY_READY n false else s) s

/-- A function's bit sets: FUNC_READY_CHANGE rises. -/
def State.setReady (s : State) (n : Nat) : State :=
  if s.ready n then s else (s.setBitTo F.SYS_FUNC_READY_READY n true).raise E.SYS_FUNC_READY_CHANGE

/-- A mailbox direction is cleared: doorbells 0, block IDLE, queue empty (R486). -/
def State.clearDir (s : State) (d : Nat) : State :=
  let s1 := (s.set (F.MBX_DB d) 0).set (F.MBX_BLK_STATE_STATE d) 0
  { s1 with mbx := { s1.mbx with qs := s1.mbx.qs.set d [] } }

/-- R493: PAIR_LINK has cleared: set P is cleared and the words in flight are lost. -/
def State.resetSetP (s : State) : State :=
  let s1 := ((s.clearDir 2).clearDir 3).addSat F.MBX_STATUS_P_LOST s.mbx.fly.length
  State.raise { s1 with mbx := { s1.mbx with fly := [] } } E.MBX_P_RESET

/-- Functions stop: their bits clear, with every bit that needs one of them. -/
def State.clearReady (s : State) (ns : List Nat) : State :=
  if ns.any s.ready then
    let s1 := (State.cascade (ns.foldl (fun s n => s.setBitTo F.SYS_FUNC_READY_READY n false) s)).raise E.SYS_FUNC_READY_CHANGE
    if s.ready Fn.PAIR_LINK && !s1.ready Fn.PAIR_LINK then s1.resetSetP else s1
  else s

/-- R109: a function fails: READY clears, FAULT sets and FUNC_FAULT rises. -/
def State.faultFn (s : State) (n : Nat) : State :=
  ((s.clearReady [n]).setBitTo F.SYS_FUNC_FAULT_FAULT n true).raise E.SYS_FUNC_FAULT

/-! ### Mode changes (R114) -/

/-- A mode change completes: CUR, PREV, CAUSE and ENTRY_TB are written, MODE_CHANGE rises, and a change the camera did
not request is reported to it (Table 07-9). -/
def State.enterMode (s : State) (m cause : Nat) : State :=
  let s1 := ((s.set F.SYS_MODE_PREV s.mode).set F.SYS_MODE_CUR m).set F.SYS_MODE_CAUSE cause
  let s1 := (s1.set F.SYS_MODE_TIME_ENTRY_TB s.tb).raise E.SYS_MODE_CHANGE
  let s1 := s1.rearmEvent 0x04 0
  if [0x05, 0x06, 0x08, 0x09, 0x13].contains cause then s1 else s1.vendorEvent 0x04 0

/-- A request refused in the current mode (R115): MODE_REFUSED rises. -/
def State.modeRefused (s : State) : State := s.raise E.SYS_MODE_REFUSED

/-- The outcome of a command that the machine goes on from. -/
def done (s : State) : Host.Outcome State Fault Refusal := .next s

end Sys2Proof.Machine
end

