-- ==== Sys2Proof/Machine/Fabric.lean ====
section
/-!
DEFINITION. The register fabric in MGMT (chapter 02): who may reach a register (R67, R545), what an access of a page
that is not served does (R63), the half-access holding registers (R47, R48, R59), and the write of a register field by
field (R9 to R12), by mode (Table 04-5).
-/

namespace Sys2Proof.Machine

/-- SYS.ACCESS_LOG.REQUESTER of a requester. -/
def reqCode : Req → Nat
  | .camera => 0
  | .firmware => 1
  | .sniwyn => 2

/-- SEC.STATUS.STATE (Table 18-1): 0 BLANK, 1 OPEN, 2 LOCKED, 3 CARRY, 4 VOID. -/
def State.secState (s : State) : Nat := s.get F.SEC_STATUS_STATE

/-- DBG.STATUS.LEVEL. -/
def State.dbgLevel (s : State) : Nat := s.get F.DBG_STATUS_LEVEL

/-- Table 18-8 restricts as LOCKED does. In CARRY, which the table does not show, the model does too. -/
def State.secLocked (s : State) : Bool := s.secState = 2 || s.secState = 3

/-- Table 18-8, page reads. -/
def State.mayRead (s : State) (who : Req) (p off : Nat) : Bool :=
  who = .firmware || off < 0x10 || !s.secLocked || s.dbgLevel ≠ 0 || off < 0x100 ||
    [0x00, 0x01, 0x02, 0x05, 0x06, 0x07, 0x08, 0x0d, 0x0e, 0x0f, 0x10, 0x11, 0x03, 0x04].contains p

/-- Table 18-8, page writes; R67 for EVT_FORCE and the FI page; chapter 19 for the CODE page. -/
def State.mayWrite (s : State) (who : Req) (p off : Nat) : Bool :=
  (if off = 0x038 || p = Pg.FI then s.mode = Md.SERVICE || s.dbgLevel = 2 else true) &&
  (p ≠ Pg.CODE || who = .firmware || (s.mode = Md.SERVICE && s.dbgLevel = 2)) &&
  (who = .firmware ||
    (if s.secLocked then
      [0x00, 0x05, 0x06, 0x0d, 0x0e, 0x0f, 0x08].contains p || (p = 0x03 && off = 0x100) ||
        (p = 0x10 && [0x128, 0x130, 0x168].contains off) || (p = 0x11 && off = 0x130)
     else !(s.secState = 4 && p = Pg.SEC)))

/-- R67: SYS.ACCESS_LOG records an access. -/
def State.logAccess (s : State) (kind : Nat) (write : Bool) (who : Req) (addr : Nat) : State :=
  (((s.set F.SYS_ACCESS_LOG_KIND kind).set F.SYS_ACCESS_LOG_WRITE (b2n write)).set F.SYS_ACCESS_LOG_REQUESTER (reqCode who)).set
    F.SYS_ACCESS_LOG_OFFSET addr

/-- The BAR2 offset of a register. -/
def regAddr (p off : Nat) : Nat := p * 0x1000 + off

/-- A requester's held half-write. -/
def State.heldW (s : State) : Req → Option Half
  | .camera => s.fabric.wCamera
  | .firmware => s.fabric.wFirmware
  | .sniwyn => s.fabric.wSniwyn

/-- Gives a requester's half-write holding register a value. -/
def State.setHeldW (s : State) (who : Req) (h : Option Half) : State :=
  match who with
  | .camera => { s with fabric := { s.fabric with wCamera := h } }
  | .firmware => { s with fabric := { s.fabric with wFirmware := h } }
  | .sniwyn => { s with fabric := { s.fabric with wSniwyn := h } }

/-- A requester's captured half-read. -/
def State.heldR (s : State) : Req → Option Half
  | .camera => s.fabric.rCamera
  | .firmware => s.fabric.rFirmware
  | .sniwyn => s.fabric.rSniwyn

/-- Gives a requester's half-read holding register a value. -/
def State.setHeldR (s : State) (who : Req) (h : Option Half) : State :=
  match who with
  | .camera => { s with fabric := { s.fabric with rCamera := h } }
  | .firmware => { s with fabric := { s.fabric with rFirmware := h } }
  | .sniwyn => { s with fabric := { s.fabric with rSniwyn := h } }

/-- R48, R59: a write discards the requester's captured half-read, and its held half-write with HALF_DROP. -/
def State.dropHeld (s : State) (who : Req) : State :=
  let s := s.setHeldR who none
  match s.heldW who with
  | none => s
  | some h => ((s.setHeldW who none).raise E.SYS_HALF_DROP).logAccess 5 true who h.addr

/-- Table 04-5, the row of RW configuration fields and WO actions: whether the mode carries the write out. -/
def State.rwMode (s : State) (p : Nat) : Bool :=
  if s.mode = Md.SEAL then false
  else if s.mode = Md.REST && p = Pg.FI then false
  else if s.mode = Md.QUARANTINE then
    [Pg.SYS, Pg.SNAP, Pg.DBG, Pg.BIST, Pg.FI, Pg.MBX, Pg.SDMA, Pg.CRCU, Pg.SEC, Pg.CODE, Pg.UPD].contains p
  else true

/-- Whether a page is served: its island is ON or still stopping (R63). -/
def State.served (s : State) (p : Nat) : Bool := s.isl (pageIsland p) = 2 || s.isl (pageIsland p) = 3

/-- R546: a page's lock is in force. -/
def State.pageLocked (s : State) (p : Nat) : Bool :=
  (s.secState = 1 || s.secState = 2) &&
    bit (if p < 64 then s.get F.SEC_LOCK_MAP0_MAP else s.get F.SEC_LOCK_MAP1_MAP) (p % 64)

/-- R546: an ignored write of an RWL field is counted and logged, without ACCESS_DENY. -/
def State.lockedWrite (s : State) (who : Req) (addr : Nat) : State :=
  ((s.inc F.SEC_LOCKED_WRITES_COUNT).raise E.SEC_LOCKED_WRITE).logAccess 2 true who addr

/-- The value a field takes when the bits of `mask` are written (R60): the others keep theirs. -/
def mergeBits (f : Field) (old val mask : Nat) : Nat :=
  let m := bits mask f.lo f.width
  let v := bits val f.lo f.width
  Nat.lor (old - Nat.land old m) (Nat.land v m)

/-- Whether a write with this mask reaches a bit of the field. -/
def touches (f : Field) (mask : Nat) : Bool := bits mask f.lo f.width ≠ 0

/-- R9 to R12, Table 00-3: the effect of a write on one field that has no row of its own. -/
def State.writeField (s : State) (who : Req) (addr val mask : Nat) (f : Field) : State :=
  if f.own || !touches f mask then s
  else match f.acc with
    | .ro | .wo | .w1s => s
    | .w1c => s.set f (s.get f - Nat.land (s.get f) (Nat.land (bits val f.lo f.width) (bits mask f.lo f.width)))
    | .rws => s.setP f (mergeBits f (s.getP f) val mask)
    | .rw =>
      if f.off = 0x028 || s.rwMode f.page then
        let v := mergeBits f (s.get f) val mask
        if f.legal.ok v then s.set f v else s
      else s
    | .rwl =>
      if s.pageLocked f.page then s.lockedWrite who addr
      else if s.rwMode f.page then
        let v := mergeBits f (s.get f) val mask
        if f.legal.ok v then s.set f v else s
      else s

/-- Table 04-5: the write names an RW field or WO action that the mode ignores. -/
def State.rwIgnored (s : State) (p off : Nat) (fs : List Field) (mask : Nat) : Bool :=
  !s.rwMode p && off ≠ 0x028 && off ≠ 0x020 &&
    fs.any (fun f => touches f mask && (f.acc = .rw || f.acc = .rwl || f.acc = .wo))

/-- R63, R67: what stops a write before it reaches the register, with what it leaves; `none` lets it through. -/
def State.blocked (s : State) (who : Req) (p off : Nat) : Option State :=
  if s.mode = Md.KEEP then some s
  else if 0x60 ≤ p then some ((s.raise E.SYS_UNMAPPED).logAccess 1 true who (regAddr p off))
  else if !s.mayWrite who p off then some ((s.raise E.SYS_ACCESS_DENY).logAccess 2 true who (regAddr p off))
  else if !s.served p then some ((s.raise E.SYS_ISLAND_OFF).logAccess 3 true who (regAddr p off))
  else none

/-- A write of a register by the fields that have no row of their own: pending values of RWS fields are taken even
where the island does not serve the page (R63). -/
def State.writeFields (s : State) (who : Req) (p off val mask : Nat) : State :=
  let fs := fieldsAt p (s.window p off)
  match s.blocked who p off with
  | some s' =>
    if s.mode ≠ Md.KEEP && p < 0x60 && s.mayWrite who p off && fs.any (fun f => f.acc = .rws) then
      (fs.filter (fun f => f.acc = .rws)).foldl (fun s f => s.writeField who (regAddr p off) val mask f)
        (if fs.any (fun f => touches f mask && f.acc ≠ .rws && f.acc ≠ .ro) then s' else s)
    else s'
  | none =>
    let s1 := fs.foldl (fun s f => s.writeField who (regAddr p off) val mask f) s
    let s1 := if off = 0x020 || off = 0x028 || off = 0x128 || off = 0x130 then s1.reroute else s1
    s1.raiseIf (s.rwIgnored p off fs mask) E.SYS_MODE_REFUSED

/-- A command that is the write of one register by a requester: its gates, then its effect. -/
def State.regAction (s : State) (who : Req) (p off : Nat) (f : State → State) : State :=
  let s := s.dropHeld who
  match s.blocked who p off with
  | some s' => s'
  | none => f s

/-- As `regAction`, for an RW field or a WO action, which Table 04-5 ignores in some modes. -/
def State.rwAction (s : State) (who : Req) (p off : Nat) (f : State → State) : State :=
  s.regAction who p off (fun s => if s.rwMode p then f s else s.modeRefused)

end Sys2Proof.Machine
end

