-- ==== Sys2Proof/Machine/Sys.lean ====
section
/-!
DEFINITION. What the whole device does at once (chapters 03 to 05): commits adopted by a page, resets of islands and of
the device, entry to Seal, Keep and Quarantine, and the loss of links.
-/

namespace Sys2Proof.Machine

/-! ### Adoption (R51, R53, R62) -/

/-- One committed value becomes active; the pending value stays what it was. -/
def State.adoptOne (s : State) (e : Nat × Nat) : State :=
  match fieldOf e.1 with
  | some f => (s.set f e.2).setP f (s.getP f)
  | none => s

/-- A page's committed values become active, all at once; MIXED clears and ACTIVE_EPOCH takes the target (R51). The
last page of a global commit raises GCOMMIT_DONE. -/
def State.adoptPage (s : State) (p : Nat) : State :=
  let es := s.adopt.filter (fun e => keyPage e.1 = p)
  let s1 := es.foldl State.adoptOne { s with adopt := s.adopt.filter (fun e => keyPage e.1 ≠ p) }
  let s1 := ((s1.set (F.ACTIVE_EPOCH p) (s1.get (F.PENDING_EPOCH p))).set (F.SHADOW_MIXED p) 0).raise (E.COMMIT_DONE p)
  let gs := s1.fabric.gpages.map (fun g => g.filter (· ≠ p))
  { s1 with fabric := { s1.fabric with gpages := gs.filter (· ≠ []) } }.raiseIf (gs.contains []) E.SYS_GCOMMIT_DONE

/-! ### Islands that are reset or gated -/

/-- The functions whose island is reset or gated (Table 04-2, Island column). -/
def islandFns (i : Nat) : List Nat :=
  match i with
  | 2 => [14, 15, 32]
  | 3 => [33, 34]
  | 4 => [39, 40]
  | 5 => [42, 43, 44, 45]
  | 6 => [17, 18, 19, 20, 21, 26, 27, 28, 29, 30, 31, 35, 36, 37, 38]
  | 7 => [16]
  | _ => if 8 ≤ i && i ≤ 23 then [22 + (i - 8) / 4] else []

/-- The pages an island serves. -/
def islandPages (i : Nat) : List Nat := (List.range 96).filter (fun p => pageIsland p = i)

/-- The register-file keys a reset of an island keeps: RWS fields and the two epochs (R105). -/
def keptAtIslandReset (k : Nat) : Bool :=
  match fieldOf k with
  | some f => f.acc = .rws || f.key = (F.ACTIVE_EPOCH f.page).key || f.key = (F.PENDING_EPOCH f.page).key
  | none => false

/-- PCIE.WAKE_CTL, which selects what drives WAKE_N in Rest (R196), keeps its value while HOST is gated. -/
def wakeCtlKey (k : Nat) : Bool :=
  [F.PCIE_WAKE_CTL_ON_MBX, F.PCIE_WAKE_CTL_ON_ALARM, F.PCIE_WAKE_CTL_ON_WAKE].any (fun f => f.key = k)

/-- R105: the pages of a reset island return to their Reset values but for their RWS fields and epochs; a commit that
is MIXED on them completes. -/
def State.resetPages (s : State) (i : Nat) (gate : Bool) : State :=
  let ps := islandPages i
  let s1 := (ps.filter s.mixed).foldl State.adoptPage s
  { s1 with regs := s1.regs.filter (fun e => pageIsland (keyPage e.1) ≠ i || keptAtIslandReset e.1 || (gate && wakeCtlKey e.1)) }

/-- Slots that a predicate names leave the buffer; their charges are released (R29, R31). -/
def State.dropSlots (s : State) (p : Slot → Bool) : State := { s with slots := s.slots.filter (fun x => !p x) }

/-- A slot that still fills for a command of the dock. -/
def Slot.dockFilling (x : Slot) : Bool :=
  x.lst = .filling && (match x.owner with | .cmd c => (match c.src with | .dock _ => true | _ => false) | _ => false)

/-- Requests for slots of one requester leave the ledger. -/
def State.dropReqs (s : State) (w : Who) : State :=
  { s with led := { s.led with reqs := s.led.reqs.filter (fun r => r.who ≠ w) } }

/-- Commands that are gone: what they asked of the ledger returns (R29, R31), and what goes on without them completes to nobody. -/
def State.forget (s : State) (p : Cid → Bool) : State :=
  let own (o : Owner) : Bool := match o with
    | .cmd c => p c
    | _ => false
  let lost : Cid := ⟨.dock 0, 0⟩
  let s1 := State.dropSlots { s with
    host := { s.host with cmds := s.host.cmds.filter (fun c => !p c.id), aborts := s.host.aborts.filter (fun a => !p a.by') }
    map := { s.map with
      reads := s.map.reads.filter (fun r => !p r.id)
      ts := { s.map.ts with takes := s.map.ts.takes.map (fun (k, (t : Take)) => (k, if t.stopper.any p then { t with stopper := none } else t)) } }
    led := { s.led with reqs := s.led.reqs.filter (fun r => !r.slots.any (fun x => own x.owner)) }
    frm := { s.frm with
      waits := s.frm.waits.filter (fun w => !p w.id)
      starts := s.frm.starts.map (fun x => if p x.1 then (lost, x.2) else x) } } (fun x => x.lst = .filling && own x.owner)
  { s1 with
    mc := { s1.mc with
      waiter := if s1.mc.waiter.any p then none else s1.mc.waiter
      heldCmd := if s1.mc.heldCmd.any (fun x => p x.2) then none else s1.mc.heldCmd
      takeWait := s1.mc.takeWait.filter (fun x => !p x.1) }
    sec := { s1.sec with
      goal := s1.sec.goal.map (fun g => (g.1, g.2.filter (fun c => !p c)))
      rejects := s1.sec.rejects.filter (fun x => !p x.1) }
    pair := { s1.pair with
      held := s1.pair.held.filter (fun x => !p x.2.id)
      relays := s1.pair.relays.map (fun r => if p r.id then { r with id := lost } else r) } }

/-- What the state behind an island's pages becomes when the island is reset or loses power. -/
def State.wipeIsland (s : State) (i : Nat) : State :=
  match i with
  | 2 =>
    let s1 := s.forget cidHost
    let keep := s1.host
    State.set { s1 with host := { cmds := keep.cmds, cqes := keep.cqes, irqs := keep.irqs, errLog := keep.errLog, errCount := keep.errCount } }
      F.UPD_SUPPLY_STATE 0
  | 3 =>
    let stop (r : FrameRec) : FrameRec := if r.closed then r else
      { r with closed := true, flags := Nat.lor r.flags 1, decl := if bit r.flags 4 then 8 * r.blocks.length else r.decl }
    { s with
      ing := {}
      frm := { s.frm with
        recs := s.frm.recs.map stop
        ptr := (s.frm.recs.filter (fun r => !r.closed)).foldl (fun t r => t.put r.stream (r.leaf0 + (r.blocks.length + 511) / 512)) s.frm.ptr } }
  | 4 => { s with pair := { arbs := s.pair.arbs, failovers := s.pair.failovers, lossCause := s.pair.lossCause } }
  | 5 =>
    let n := s.net
    State.dropReqs (State.dropSlots { s with
      net := { n with conns := [], ctrls := [], ctxs := [], heldTx := [] }
      host := { s.host with cmds := s.host.cmds.filter (fun c => match c.id.src with
        | .dock _ => false
        | _ => true) } } Slot.dockFilling) .net
  | 6 => { s with slots := [], led := {}, bud := {}, frm := {}, map := {}, net := { s.net with tracks := [], events := [] } }
  | 7 =>
    let map := 1048576 * s.get F.DRAMC_REGION_A_MAP_MIB
    { s with dram := {
        token := s.dram.token, kept := s.dram.kept
        mem := if s.mode = Md.REST then s.dram.mem.filter (fun c => decide (c.1 < map)) else []
        poison := if s.mode = Md.REST then s.dram.poison.filter (fun k => decide (64 * k < map)) else [] } }
  | _ => s

/-- R486: at a change of owner of set H both its directions are cleared and H_OWNER rises. -/
def State.changeOwner (s : State) (owner : Nat) : State :=
  let s1 := ((s.clearDir 0).clearDir 1).set F.MBX_STATUS_H_OWNER owner
  State.raise { s1 with
    mc := { s1.mc with waitMbx := none, heldMbx := none }
    mbx := { s1.mbx with fwd := [] } } E.MBX_H_OWNER

/-- R87, Table 03-5: whether a PLL clocks an island that is STARTING or ON; PLL_MG runs while MGMT is ON. -/
def State.pllNeeded (s : State) (p : Nat) : Bool :=
  let up (i : Nat) : Bool := s.isl i = 1 || s.isl i = 2
  match p with
  | 0 => s.isl 1 = 2
  | 1 => up 6
  | 2 => up 7
  | 3 | 4 | 5 | 6 => (List.range 4).any (fun i => up (8 + 4 * (p - 3) + i))
  | 7 => up 3 || up 4
  | 8 => up 5
  | 9 => up 2
  | _ => false

/-- A PLL that clocks nothing stops, and its lock bit clears (R87). -/
def State.syncPlls (s : State) : State :=
  (List.range 10).foldl (fun s p => if s.pllNeeded p then s else s.setBitTo F.CLK_PLL_LOCK_LOCK p false) s

/-- An island comes to a power state; ISL_CHANGE rises, and set H follows HOST (R486). -/
def State.islandTo (s : State) (i v : Nat) : State :=
  if s.isl i = v then s
  else
    let s1 := (s.setIsl i v).syncPlls.raise E.PWR_ISL_CHANGE
    if i = 2 && (s.isl i = 2 || v = 2) then s1.changeOwner (b2n (v ≠ 2)) else s1

/-- R105, R106: an island is reset and reads STARTING until it is ON again. -/
def State.islandReset (s : State) (i : Nat) : State :=
  (((s.clearReady (islandFns i)).wipeIsland i).resetPages i false).islandTo i 1

/-- An island is gated and reads OFF. -/
def State.gateIsland (s : State) (i : Nat) : State :=
  (((s.clearReady (islandFns i)).wipeIsland i).resetPages i true).islandTo i 0

/-- R95: a stop of an island begins; its functions stop. -/
def State.stopIsland (s : State) (i : Nat) : State := (s.clearReady (islandFns i)).islandTo i 3

/-- R73, R75, R84: whether an island may be powered at all: the flash islands need their bank, and under ISLAND_TEST no
island but MGMT starts. -/
def State.powerable (s : State) (i : Nat) : Bool :=
  i ≤ 1 || (s.get F.SYS_STRAPS_ISLAND_TEST = 0 && (i < 8 || s.quadPowered ((i - 8) / 4)))

/-- R94, R113: an OFF island whose enable is set starts where the mode permits it. -/
def State.startIsland (s : State) (i : Nat) : State :=
  if s.isl i = 0 && s.getBit F.PWR_ISL_EN_EN i && islandAllowed s.mode i && s.powerable i then s.islandTo i 1 else s

/-- R368: an FL island refuses a stop unless each of its channels is ABSENT, FAILED or UNUSED. -/
def State.islRefuses (s : State) (i : Nat) : Bool :=
  8 ≤ i && i ≤ 23 && !(List.range 4).all (fun k => [0, 3, 4].contains (s.chanState (4 * (i - 8) + k)))

/-- R95: a stop that is asked of an ON island: it begins, or its owner refuses it and ISL_EN reads 1 again. -/
def State.askStop (s : State) (i : Nat) : State :=
  if s.islRefuses i then
    ((s.setBitTo F.PWR_ISL_EN_EN i true).setBitTo F.PWR_ISL_REFUSE_REFUSED i true).raise E.PWR_ISL_REFUSED
  else s.stopIsland i

/-- R95: a request for an island's power, by the state it finds. -/
def State.islReq (s : State) (i : Nat) (en : Bool) : State :=
  match s.isl i with
  | 0 => if en then s.startIsland i else s
  | 1 => { s with mc := { s.mc with islLatch := putBit s.mc.islLatch i (!en) } }
  | 2 => if en then s else s.askStop i
  | _ => s.setBitTo F.PWR_ISL_REEN_REENABLE_PENDING i en

/-- R112, R113: what a new mode does to one island: where it permits the island, a request that was held takes effect. -/
def State.applyIsland (s : State) (i : Nat) : State :=
  if islandAllowed s.mode i then
    (if s.isl i = 3 && !s.getBit F.PWR_ISL_EN_EN i then s else s.islReq i (s.getBit F.PWR_ISL_EN_EN i))
  else if s.isl i = 1 || s.isl i = 2 then s.stopIsland i
  else s

/-- The islands other than KEEP and MGMT. -/
def gatedIslands : List Nat := (List.range 22).map (· + 2)

/-- R112, R113: islands that a new mode forbids begin their stop, and those it permits and whose enable is set start. -/
def State.applyIslands (s : State) : State := gatedIslands.foldl State.applyIsland s

/-- A transition completes: the mode changes and the islands follow. -/
def State.changeMode (s : State) (m cause : Nat) : State := (s.enterMode m cause).applyIslands

/-- A transition begins (R114): it completes at MODE_TRANSITION_COMPLETE. -/
def State.beginTrans (s : State) (m cause : Nat) : State := { s with mc := { s.mc with trans := some ⟨m, cause⟩ } }

/-! ### The reset of the device (R104) -/

/-- The fields that a reset of the device keeps: measured and sensed values, RESET_CAUSE and the straps, what KEEP holds for TIME, and, but for
power-on reset, the scratch register and the decided levels. -/
def carriedFields (por : Bool) : List Field :=
  [F.PWR_RAIL_STATUS_VALID, F.CLK_REF_STATUS_XTAL_OK, F.CLK_REF_STATUS_PE_REFCLK_OK, F.CLK_REF_STATUS_SD_REFCLK_OK,
   F.CLK_REF_STATUS_RTC_OK, F.SYS_RESET_CAUSE_CAUSE, F.SYS_STRAPS_ISLAND_TEST, F.SYS_STRAPS_BOOT_SEL,
   F.SYS_STRAPS_PAIR_RANK, F.PWR_GPIO_IN_IN, F.TIME_CAL, F.TIME_TRIM_COUNTS, F.TIME_ALARM_SECONDS, F.TIME_ALARM_EN,
   F.TIME_STATUS_ALARM_FIRED, F.TIME_STATUS_STALE, F.TIME_STATUS_LOST] ++
    (if por then [] else [F.SYS_SCRATCH, F.PWR_RAIL_STATUS_IO_LEVEL, F.PWR_RAIL_STATUS_FLA_LEVEL,
      F.PWR_RAIL_STATUS_FLB_LEVEL, F.PWR_RAIL_STATUS_FLC_LEVEL, F.PWR_RAIL_STATUS_FLD_LEVEL])

/-- R104: every field takes its Reset value, but for those above; what KEEP, the flash and the code store hold stays. -/
def State.resetAll (s : State) (por : Bool) : State :=
  { regs := s.regs.filter (fun e => ((carriedFields por).map Field.key).contains e.1)
    fresh := s.fresh
    pins := s.pins
    keep := s.keep
    nv := s.nv
    pending := s.pending }

/-- The islands at the start of Wake: all but KEEP and MGMT start, the flash islands of a quadrant once its bank is
decided (R73); under ISLAND_TEST none does (R84). -/
def State.wakeIslands (s : State) : State :=
  gatedIslands.foldl (fun s i => s.setIsl i (if s.powerable i then 1 else 0)) s

/-- A reset of the device takes effect and Wake begins (Table 04-1). `causeBits` are the bits of RESET_CAUSE that set. -/
def State.fullReset (s : State) (por : Bool) (causeBits cause : Nat) : State :=
  let old := s.mode
  let s1 := s.resetAll por
  let bits := causeBits + (if s.keep.deferred then 64 else 0)
  let s1 := s1.set F.SYS_RESET_CAUSE_CAUSE (if por then bits else Nat.lor (s1.get F.SYS_RESET_CAUSE_CAUSE) bits)
  let s1 := s1.set F.SYS_MODE_CUR old
  let s1 := (s1.wakeIslands.enterMode Md.WAKE cause).set F.LEDGER_SEAL_FLAG_FLAG s1.keep.sealFlag
  { s1 with keep := { s1.keep with deferred := false }, nv := { s1.nv with wdReset := bit causeBits 3 } }

/-- The level the model takes for a strap that moves in its window: either (R81). -/
def strapValue (fresh straps unstable i : Nat) : Nat :=
  if bit unstable i then Config.strapLevel (4 * fresh + i) % 2 else b2n (bit straps i)

/-- R81: the straps as sampled; bit 0 PAIR_RANK, 1 BOOT_SEL0, 2 BOOT_SEL1, 3 ISLAND_TEST. BOOT_SEL 0b11 faults BOOT (R82). -/
def State.sampleStraps (s : State) (straps unstable : Nat) : State :=
  let v := strapValue s.fresh straps unstable
  let s1 := (((s.set F.SYS_STRAPS_PAIR_RANK (v 0)).set F.SYS_STRAPS_BOOT_SEL (v 1 + 2 * v 2)).set
    F.SYS_STRAPS_ISLAND_TEST (v 3)).draw
  if v 1 + 2 * v 2 = 3 then (s1.setBitTo F.SYS_FUNC_FAULT_FAULT Fn.BOOT true).raise E.SYS_FUNC_FAULT else s1

/-- The calendar as KEEP holds it, in the TIME format (R600). -/
def State.keepCal (s : State) : Nat :=
  b2n s.keep.valid * 2 ^ 63 + s.keep.seconds % 2 ^ 48 * 2 ^ 15 + s.keep.subsec % 2 ^ 15

/-- A restart from Keep (R121): a power-on reset of every island but KEEP, with the bits KEEP carries across it and the
straps resampled before the islands start. -/
def State.restart (s : State) (straps unstable cause : Nat) : State :=
  let bits := 1 + s.keep.pendCause + (if s.keep.deferred then 64 else 0)
  let s1 := s.resetAll true
  let s1 := s1.set F.PWR_RAIL_STATUS_VALID (Nat.land (s1.get F.PWR_RAIL_STATUS_VALID) 0x85FF)
  let s1 := (s1.set F.SYS_RESET_CAUSE_CAUSE bits).sampleStraps straps unstable
  let s1 := (s1.set F.SYS_MODE_CUR Md.KEEP).wakeIslands.enterMode Md.WAKE cause
  let s1 := (s1.set F.LEDGER_SEAL_FLAG_FLAG s1.keep.sealFlag).set F.TIME_CAL s1.keepCal
  { s1 with keep := { s1.keep with pendCause := 0, deferred := false, controlled := false, sealTrip := false, resetHeld := false } }

end Sys2Proof.Machine
end

