-- ==== Sys2Proof/Machine/Slots.lean ====
section
/-!
DEFINITION. The slots of the protected buffer and the energy ledger (chapters 01 and 05): requests for slots, the
admission decision, flow control, the terms a calibration leaves, and the moves of a slot between lists.
-/

namespace Sys2Proof.Machine

/-! ### Terms of the ledger -/

/-- The cost of a slot, in 1/256 unit. -/
def State.cost (s : State) : Nat := s.get F.LEDGER_CAL_RESULT_COST_Q8

/-- R147: X of a requester, in 1/256 unit. -/
def State.ingestRsv (s : State) (w : Who) : Nat :=
  if w = .host || w = .net then 256 * s.get F.LEDGER_ADMIT_INGEST_RSV_UJ else 0

/-- R146: the charge of one slot of a request: relocation slots cost 0. -/
def State.slotCost (s : State) (k : SlotKind) : Nat := if k = .reloc || k = .relocParity then 0 else s.cost

/-- What a request would charge. -/
def State.reqCost (s : State) (r : SlotReq) : Nat := ((r.slots.map (fun x => s.slotCost x.kind)).foldl (· + ·) 0)

/-- R147, first test. -/
def State.energyOk (s : State) (r : SlotReq) : Bool :=
  s.reqCost r = 0 || decide (s.headroom - s.ingestRsv r.who ≥ s.reqCost r)

/-- R147, second test; R408 for relocation slots. -/
def State.freeOk (s : State) (r : SlotReq) : Bool :=
  if r.who = .groom then r.slots.length ≤ s.free && s.relocSlots + 4 ≤ s.get F.GROOM_CFG_RELOC_MAX else r.slots.length + (512 - s.relocSlots) ≤ s.free

/-- R150: the energy shortfall of a request in whole ledger units, rounded up; 0 where the energy suffices. -/
def State.shortfall (s : State) (r : SlotReq) : Nat :=
  if s.energyOk r then 0
  else min (ceilDiv ((s.reqCost r : Int) - (s.headroom - s.ingestRsv r.who)).toNat 256) 0xFFFFFFFF

/-- R151: the energy a full bank leaves for a request of a requester, in 1/256 unit. -/
def State.fullHeadroom (s : State) (w : Who) : Int :=
  let vf := s.get F.LEDGER_BANK_V_FULL_MV
  let vl := s.get F.LEDGER_BANK_V_FLOOR_MV
  (256 * s.get F.LEDGER_BANK_CAP_UF * (vf * vf - vl * vl) / 2000000 : Nat) - (256 * s.get F.LEDGER_ADMIT_GUARD_UJ : Nat)
    - s.get F.LEDGER_RESERVE_S - s.ingestRsv w

/-- R145: the Seal reserve S, in 1/256 unit. -/
def State.sealReserve (s : State) : Nat :=
  ceilDiv (256 * s.get F.LEDGER_SEAL_CFG_SEAL_PWR_MW *
      ((1 + s.get F.LEDGER_CAL_TIMES_T_ABORT_US) * 16000 + s.led.tRec16)) 16000000
    + s.get F.LEDGER_CAL_TIMES_JTAIL_SLOTS * s.cost + 256 * s.get F.LEDGER_SEAL_CFG_KEEP_UJ

/-- R143 step 5: the cost per slot. -/
def State.slotCostOf (s : State) : Nat :=
  ceilDiv (256 * s.get F.LEDGER_SEAL_CFG_SEAL_PWR_MW * s.led.tslotNum) (s.led.tslotDen * 1000000)

/-- R156: SEAL_EST_US. -/
def State.sealEst (s : State) : Nat :=
  ceilDiv ((73 + s.get F.LEDGER_CAL_TIMES_T_ABORT_US) * 16000 * s.led.tslotDen + s.led.tRec16 * s.led.tslotDen +
    16 * (slotTotal + s.get F.LEDGER_CAL_TIMES_JTAIL_SLOTS) * s.led.tslotNum) (16000 * s.led.tslotDen)

/-- R143, R145: cost, reserve and estimate from the calibrated times and the active LEDGER fields. -/
def State.recost (s : State) : State :=
  if s.get F.LEDGER_STATUS_CALIBRATED = 0 then s
  else
    let s1 := s.set F.LEDGER_CAL_RESULT_COST_Q8 s.slotCostOf
    let s1 := s1.set F.LEDGER_RESERVE_S s1.sealReserve
    s1.set F.LEDGER_CAL_TIMES_SEAL_EST_US s1.sealEst

/-! ### Headroom and flow control (R149, R152, R167) -/

/-- R167: HEADROOM_NEG when the headroom first falls below zero, and MIN_HEADROOM once a sample has been taken. -/
def State.noteHeadroom (s : State) : State :=
  let h := s.headroom
  let s1 := if s.led.minSet && decide (h < signed 48 (s.get F.LEDGER_MIN_HEADROOM_H_MIN)) then
      s.set F.LEDGER_MIN_HEADROOM_H_MIN (unsigned 48 h) else s
  if h < 0 then
    if s1.led.negative then s1
    else (State.raise { s1 with led := { s1.led with negative := true } } E.LEDGER_HEADROOM_NEG).vendorEvent 0x01 0xC0
  else { s1 with led := { s1.led with negative := false } }

/-- Some request of a requester waits. -/
def State.waiting (s : State) (w : Who) : Bool := s.led.reqs.any (fun r => r.who = w)

/-- Leaves a record needs slots for. -/
def FrameRec.units (r : FrameRec) : Nat := (r.blocks.length + 511) / 512

/-- R311: data waits because its stream's region is full. -/
def State.stuck (s : State) : Bool := s.frm.recs.any (fun r => r.asked < r.units)

/-- XOFF towards the camera head comes into force. -/
def State.xoff (s : State) : State :=
  if s.get F.LEDGER_STATUS_XOFF = 1 then s else (s.set F.LEDGER_STATUS_XOFF 1).raise E.LEDGER_XOFF

/-- R152: the ledger-side XOFF after a change of the headroom. -/
def State.noteFlow (s : State) : State :=
  if s.headroom < 256 * (s.get F.LEDGER_FLOW_XOFF_UJ : Int) then s.xoff
  else if s.get F.LEDGER_STATUS_XOFF = 1 && decide (s.headroom ≥ 256 * (s.get F.LEDGER_FLOW_XON_UJ : Int))
      && !s.waiting .ingest && !s.stuck then
    (s.set F.LEDGER_STATUS_XOFF 0).raise E.LEDGER_XON
  else s

/-! ### Moves of a slot (R29) -/

/-- Changes the slots that a predicate names. -/
def State.mapSlots (s : State) (p : Slot → Bool) (f : Slot → Slot) : State :=
  { s with slots := s.slots.map (fun x => if p x then f x else x) }

/-- Mirrored acknowledgment is in force (Table 15-5): the half is SYNCING or MIRRORED. -/
def State.mirroring (s : State) : Bool := s.pair.pstate = 3 || s.pair.pstate = 4

/-- R21: the list a slot enters when its data is complete: durable, or mirror-pending in pair mode. Internal data, what
grooming moves and running parity are not mirrored. -/
def State.landed (s : State) (x : Slot) : Slot :=
  { x with lst := if s.mirroring && (x.kind = .host || x.kind = .frame) && !(match x.owner with | .peer _ => true | _ => false)
      then .mirror else .durable }

/-- Filling slots whose data is complete become durable or mirror-pending (R21). -/
def State.land (s : State) (p : Slot → Bool) : State := s.mapSlots (fun x => p x && x.lst = .filling) s.landed

/-- PBUF counts after a change of the free list: HIGH_WATER, and LOW_FREE as FREE falls below its threshold. -/
def State.notePbuf (before : Nat) (s : State) : State :=
  let s1 := s.set F.PBUF_HIGH_WATER_COUNT (max (s.get F.PBUF_HIGH_WATER_COUNT) s.slots.length)
  let t := s.get F.PBUF_THRESH_LOW_FREE
  s1.raiseIf (decide (t ≤ before) && decide (s.free < t)) E.PBUF_LOW_FREE

/-! ### Requests and decisions -/

/-- A request for slots joins the waiting requests. -/
def State.request (s : State) (r : SlotReq) : State := { s with led := { s.led with reqs := s.led.reqs ++ [r] } }

/-- A request as made: not refused yet. -/
def SlotReq.mk' (who : Who) (qos queue : Nat) (slots : List Slot) : SlotReq := ⟨who, qos, queue, false, none, slots⟩

/-- A request of running parity or of internal data alone. -/
def SlotReq.inner (r : SlotReq) : Bool :=
  r.slots.all (fun x => decide (x.kind = SlotKind.parity) || decide (x.kind = SlotKind.relocParity) || decide (x.kind = SlotKind.internal))

/-- R119, R124, R153, R103: whether admission stands, for a request of running parity or of other data. Stripes under
way get their parity while a drain or Quarantine empties the buffer. -/
def State.admitting (s : State) (r : SlotReq) : Bool :=
  s.ready Fn.LEDGER_ADMIT && s.led.sealing.isNone && s.mode ≠ Md.SEAL && s.mode ≠ Md.KEEP && s.mode ≠ Md.REST &&
    ((s.mc.drain.isNone && s.mode ≠ Md.QUARANTINE) || r.inner)

/-- Slots of an admitted request, with their admission sequence and their charge (R146). -/
def State.numbered (s : State) (slots : List Slot) : List Slot :=
  (slots.zip (List.range slots.length)).map (fun (x, i) =>
    { x with seq := (s.get F.PBUF_ADMIT_SEQ_SEQ + i) % 2 ^ 32, charge := s.slotCost x.kind })

/-- The request is admitted: its slots leave the free list and their charges join committed, in one decision. -/
def State.letIn (s : State) (r : SlotReq) : State :=
  let before := s.free
  let new := s.numbered r.slots
  let s1 := { s with slots := s.slots ++ new }
  let s1 := s1.addWrap F.PBUF_ADMIT_SEQ_SEQ new.length
  (State.notePbuf before s1).noteHeadroom.noteFlow

/-- LEDGER.REFUSALS: the 16-bit count of a requester; grooming has none. -/
def refusalIndex : Who → Option Nat
  | .ingest => some 0
  | .host => some 1
  | .net => some 2
  | .pair => some 3
  | .groom => none

/-- A request is not admitted: counted once, and INGEST asserts XOFF (R152). -/
def State.refuse (s : State) (r : SlotReq) : State :=
  let s1 := if r.refused then s
    else (match refusalIndex r.who with
      | some i => s.incPart F.LEDGER_REFUSALS_COUNTS i 16
      | none => s).raise E.LEDGER_REFUSE
  if r.who = .ingest then s1.xoff else s1

/-- The first request of a requester: for HOST, the head request of one queue. -/
def State.headReq (s : State) (w : Who) (queue : Nat) : Option SlotReq :=
  s.led.reqs.find? (fun r => r.who = w && (w ≠ .host || r.queue = queue))

/-- Removes the first request equal to `r`. -/
def State.takeReq (s : State) (r : SlotReq) : State := { s with led := { s.led with reqs := s.led.reqs.erase r } }

/-- The queues of a QoS class with a waiting request. -/
def State.waitingQueues (s : State) (qos : Option Nat) : List Nat :=
  ((s.led.reqs.filter (fun r => r.who = .host && (qos = none || qos = some r.qos))).map (·.queue)).eraseDups

/-- The next queue after the last one served, in rotation. -/
def nextQueue (last : Nat) (qs : List Nat) : Option Nat :=
  match (qs.filter (last < ·)).foldl (fun (m : Option Nat) q => some (match m with | none => q | some m => min m q)) none with
  | some q => some q
  | none => qs.foldl (fun (m : Option Nat) q => some (match m with | none => q | some m => min m q)) none

/-- The class the weighted round robin of R206 names among those with a waiting request: high 1, medium 2, low 3. -/
def wrrClass (left : List Nat) (has : Nat → Bool) : Option Nat :=
  [1, 2, 3].find? (fun c => has c && left.getD (c - 1) 0 ≠ 0)

/-- R150, R206: the I/O submission queue whose head request HOST offers next, with the ledger's rotation moved on. -/
def State.hostQueue (s : State) : Option (Nat × State) :=
  let moved (q : Nat) (w : List Nat) : State := { s with led := { s.led with hostTurn := q, wrr := w } }
  if s.host.ams = 0 then
    (nextQueue s.led.hostTurn (s.waitingQueues none)).map (fun q => (q, moved q s.led.wrr))
  else
    match nextQueue s.led.hostTurn (s.waitingQueues (some 0)) with
    | some q => some (q, moved q s.led.wrr)
    | none =>
      let has (c : Nat) : Bool := s.waitingQueues (some c) ≠ []
      let full := [bits s.host.arb 24 8 + 1, bits s.host.arb 16 8 + 1, bits s.host.arb 8 8 + 1]
      let left := if (wrrClass s.led.wrr has).isSome then s.led.wrr else full
      match wrrClass left has with
      | none => none
      | some c => (nextQueue s.led.hostTurn (s.waitingQueues (some c))).map (fun q =>
          (q, moved q (left.set (c - 1) (left.getD (c - 1) 0 - 1))))

/-- The requesters in the order the rotation reaches them from `turn` on (R35). -/
def rotation (turn : Nat) : List Who :=
  (List.range 5).map (fun i => ([Who.ingest, .host, .net, .pair, .groom].getD ((turn + i) % 5) .ingest))

/-- The place of a requester in the rotation. -/
def whoIndex : Who → Nat
  | .ingest => 0
  | .host => 1
  | .net => 2
  | .pair => 3
  | .groom => 4

/-- The request decided in this cycle, with the rotation moved past its requester. -/
def State.nextReq (s : State) : Option (SlotReq × State) :=
  let ok (r : SlotReq) : Bool := s.admitting r
  (rotation s.led.turn).findSome? (fun w =>
    let at' (s' : State) : State := { s' with led := { s'.led with turn := (whoIndex w + 1) % 5 } }
    if w = .host then
      match s.hostQueue with
      | some (q, s') => (s.headReq .host q).bind (fun r => if ok r then some (r, at' s') else none)
      | none => none
    else (s.headReq w 0).bind (fun r => if ok r then some (r, at' s) else none))

/-- Replaces a request by itself as refused, with the shortfall of the decision. -/
def State.markRefused (s : State) (r : SlotReq) : State :=
  { s with led := { s.led with
      reqs := s.led.reqs.map (fun x => if x = r then { x with refused := true, short := some (s.shortfall r) } else x) } }

end Sys2Proof.Machine
end

