-- ==== Sys2Proof/Machine/Flash.lean ====
section
/-!
DEFINITION. Flash operations (chapters 06 and 12): their cost, credits and tokens; spares and retired block sets.
-/

namespace Sys2Proof.Machine

/-! ### Spares and retired block sets (R363, R427) -/

/-- R363: SPARES.FEWEST of a channel, and SPARES_LOW as it falls below 4. -/
def State.noteSpares (s : State) (c : Nat) : State :=
  let before := s.get (F.FCH_SPARES_FEWEST c)
  let now := leastOr 0 ((s.lunsOn c).map (s.sparesLeft c))
  (s.set (F.FCH_SPARES_FEWEST c) now).raiseIf (decide (4 ≤ before) && decide (now < 4)) (E.FCH_SPARES_LOW c)

/-- The first spare of a LUN that nothing names; its last block set is its calibration block. -/
def State.freeSpare (s : State) (c l : Nat) : Option Nat :=
  let k := s.blockSets
  let taken := (s.nv.remap.filter (fun e => e.1 / 65536 = c * 16 + l)).map (·.2)
  let seals := [(s.get (F.FCH_SEAL_LUN0 c), s.get (F.FCH_SEAL_BLOCK0 c)), (s.get (F.FCH_SEAL_LUN1 c), s.get (F.FCH_SEAL_BLOCK1 c))]
  ((List.range (spareSets k)).map (fun i => k - spareSets k + i)).find? (fun b =>
    b + 1 ≠ k && !taken.contains b && !seals.contains (l, b) && !s.nv.retired.contains (blockKey c l b) &&
      !s.nv.sealPages.any (fun p => p.blks.contains (blockKey c l b)))

/-- R363, R427: a block set is retired and its logical block set takes a spare; without one, SPARE_OUT. -/
def State.retireBlock (s : State) (c l logical : Nat) : State :=
  let phys := s.nv.remap.get (blockKey c l logical) logical
  match s.freeSpare c l with
  | some b =>
    State.noteSpares { s with nv := { s.nv with
      remap := s.nv.remap.put (blockKey c l logical) b, retired := s.nv.retired ++ [blockKey c l phys] } } c
  | none => s.raise E.GROOM_SPARE_OUT

/-! ### Operations, tokens and credits (R174, R177, R178, R354) -/

/-- R174: the cost of an operation over `pages` plane pages and `units` 4 KiB transfers, in 1/16 unit. -/
def State.opCost (s : State) (k : OpKind) (pages units : Nat) : Nat :=
  (match k with
    | .read => pages * s.get F.BUDGET_COST_A_READ
    | .prog => pages * s.get F.BUDGET_COST_A_PROG
    | .progSlc => pages * s.get F.BUDGET_COST_A_PROG_SLC
    | .erase => pages * s.get F.BUDGET_COST_A_ERASE) + units * s.get F.BUDGET_COST_B_XFER

/-- An operation joins its class queue. -/
def State.addOp (s : State) (o : FlashOp) : State :=
  { s with bud := { s.bud with ops := s.bud.ops ++ [{ o with id := s.bud.nextOp, phase := .queued }], nextOp := s.bud.nextOp + 1 } }

/-- An operation of the arbiter. -/
def State.op (s : State) (id : Nat) : Option FlashOp := s.bud.ops.find? (fun o => o.id = id)

/-- Changes one operation. -/
def State.mapOp (s : State) (id : Nat) (f : FlashOp → FlashOp) : State :=
  { s with bud := { s.bud with ops := s.bud.ops.map (fun o => if o.id = id then f o else o) } }

/-- An operation leaves: its credit returns to CORE (R33). -/
def State.dropOp (s : State) (id : Nat) : State :=
  { s with bud := { s.bud with ops := s.bud.ops.filter (fun o => o.id ≠ id) } }

/-- R354: whether a channel holds a free credit for an operation: 4 are kept for reads, 2 for class 5, and programs and
erases of other classes hold at most 26. -/
def State.creditFree (s : State) (o : FlashOp) : Bool :=
  let held := s.bud.ops.filter (fun x => x.chan = o.chan && x.phase ≠ .queued)
  let isMeta (x : FlashOp) : Bool := x.cls = 5
  let isRead (x : FlashOp) : Bool := x.kind = .read && x.cls ≠ 5
  held.length < 32 &&
    (if isMeta o then (held.filter (fun x => !isRead x)).length < 28
     else if isRead o then (held.filter (fun x => !isMeta x)).length < 30
     else (held.filter (fun x => !isRead x && !isMeta x)).length < 26)

/-- An element of a list of integers has a number subtracted. -/
def subAt (l : List Int) (k : Nat) (c : Int) : List Int := l.set k (l.getD k 0 - c)

/-- R176, R178: a class pays a cost, in 1/16 unit, and tokens of it are granted to a channel; the balances count in 1/2,048 unit. -/
def State.pay (s : State) (cls chan cost : Nat) : State :=
  let c : Int := (128 * cost : Nat)
  State.addSat { s with bud := { s.bud with
      q := s.bud.q - c, b := subAt s.bud.b cls c, c := subAt s.bud.c cls c
      granted := s.bud.granted.modify chan 0 (· + cost) } } (F.BUDGET_CLASS_SPENT_SUM cls) cost

/-- Tokens of a channel are spent. -/
def State.spend (s : State) (chan cost : Nat) : State :=
  { s with bud := { s.bud with spent := s.bud.spent.modify chan 0 (· + cost) } }

/-- Operations that stand at a LUN. -/
def State.atLun (s : State) (chan lun : Nat) : List FlashOp :=
  s.bud.ops.filter (fun o => o.chan = chan && o.lun = lun && (o.phase = .running || o.phase = .suspended))

/-- R359: a suspended operation resumes once its LUN runs no read. -/
def State.resumeLun (s : State) (chan lun : Nat) : State :=
  if (s.atLun chan lun).any (fun o => o.phase = .running) then s
  else { s with bud := { s.bud with ops := s.bud.ops.map (fun o =>
      if o.chan = chan && o.lun = lun && o.phase = .suspended then { o with phase := .running, started := s.tb } else o) } }

/-- An operation retires: its credit returns, and a suspended operation of its LUN resumes. -/
def State.retireOp (s : State) (o : FlashOp) : State := (s.dropOp o.id).resumeLun o.chan o.lun

/-- A completed operation ends a LUN's run of time-outs (R370). -/
def State.lunWorked (s : State) (chan lun : Nat) : State :=
  { s with bud := { s.bud with lunOut := s.bud.lunOut.filter (· ≠ 16 * chan + lun) } }

/-- R178, R191: the FCH counters of a channel close the window. -/
def State.closeChan (s : State) (c : Nat) : State :=
  let g := s.bud.granted.get c 0
  let p := s.bud.spent.get c 0
  ((s.addSat (F.FCH_TOK_GRANTED_SUM c) g).addSat (F.FCH_TOK_SPENT_SUM c) p).addSat (F.FCH_TOK_EXPIRED_SUM c) (g - p)

/-- R178: the window closes: tokens not spent expire, and operations picked but not issued return to their queue. -/
def State.closeWindow (s : State) : State :=
  let chs := (s.bud.granted.map (·.1))
  let exp := total (chs.map (fun c => s.bud.granted.get c 0 - s.bud.spent.get c 0))
  let s1 := chs.foldl State.closeChan s
  let s1 := s1.addSat F.BUDGET_EXPIRED_SUM exp
  { s1 with bud := { s1.bud with
      granted := [], spent := []
      ops := s1.bud.ops.map (fun o => if o.phase = .picked then { o with phase := .queued } else o) } }

end Sys2Proof.Machine
end

