-- ==== Sys2Proof/Machine/Map.lean ====
section
/-!
DEFINITION. The translation unit (chapter 10) with the stripes of chapter 12: map keys, the overlay, journal records and
the journal tail, leaf tables, and the placement of slots in runs, pages and stripes up to their program operations.
-/

namespace Sys2Proof.Machine

/-! ### Keys (R285) -/

/-- The map key of a leaf of a namespace. -/
def leafKey (nsid leaf : Nat) : Nat := nsid * 2 ^ 59 + leaf

/-- The namespace of a key, 0 for the internal space. -/
def keyNs (k : Nat) : Nat := k / 2 ^ 59

/-- The logical extent of a key. -/
def keyExtent (k : Nat) : Nat := k / 64

/-! ### Records (Table 10-2) -/

/-- Units of 16 bytes of a record. -/
def Rec.units : Rec → Nat
  | .frameEntry _ => 9
  | _ => 2

/-- Two entries name the same frame or piece of one take. -/
def sameEntry (a b : Entry) : Bool :=
  a.take = b.take && a.stream = b.stream && a.src = b.src && a.frame = b.frame && a.piece = b.piece

/-- A frame index entry is written, or rewritten in place (R273). -/
def putEntry (es : List Entry) (e : Entry) : List Entry :=
  if es.any (sameEntry e) then es.map (fun x => if sameEntry x e then e else x) else es ++ [e]

/-- The leaves of one extent that the map names. -/
def TState.extentLeaves (t : TState) (ext : Nat) : Nat := (t.map.filter (fun e => keyExtent e.1 = ext)).length

/-- The effect of a journal record on the persistent translation state. -/
def TState.apply (t : TState) : Rec → TState
  | .extentSet key _ => { t with forms := t.forms.put (keyExtent key) 1 }
  | .leafSet key ua => { t with map := t.map.put key ua }
  | .unmap key count =>
    let t1 := { t with map := t.map.filter (fun e => e.1 < key || key + count ≤ e.1) }
    { t1 with forms := t1.forms.filter (fun e => t1.extentLeaves e.1 ≠ 0) }
  | .frameEntry e => { t with entries := putEntry t.entries e }
  | .take k => { t with takes := t.takes.put k.num k }
  | .append st n => { t with appends := t.appends.put st n }
  | .erase b n => { t with erases := t.erases.put b n }
  | .band b g ev =>
    let x := t.band b
    { t with bands := t.bands.put b (
        if ev = 0 then { x with state := .opened, group := g } else
        if ev = 1 then { x with state := .closed, closed := t.seq } else { x with state := .dirty }) }
  | .stripe st ev _ => if ev = 3 then t else { t with marks := t.marks.put st ev }
  | .state n _ => { t with lastTake := n }
  | .checkpoint n _ => { t with ckpt := n }
  | .stream st c => { t with streams := t.streams.put st c }

/-- R298: a record takes the next SEQ. -/
def TState.step (t : TState) (r : Rec) : TState := { t.apply r with seq := t.seq + 1 }

/-! ### The journal tail (R298 to R301) -/

/-- Units taken in a journal page; 254 fit beside its header. -/
def JPage.units (p : JPage) : Nat := total (p.recs.map Rec.units)

/-- The journal tail with a record staged: in its last page where it fits, else in a new page. -/
def stage (tail : List JPage) (r : Rec) : List JPage :=
  match tail.getLast? with
  | some p => if p.units + r.units ≤ 254 then tail.dropLast ++ [⟨p.recs ++ [r]⟩] else tail ++ [⟨[r]⟩]
  | none => [⟨[r]⟩]

/-- The bound in force on the tail: the lower of JTAIL_MAX and the bound S covers (R145). -/
def State.tailBound (s : State) : Nat :=
  let j := s.get F.LEDGER_CAL_TIMES_JTAIL_SLOTS
  if j = 0 then s.get F.MAP_CFG_JTAIL_MAX else min j (s.get F.MAP_CFG_JTAIL_MAX)

/-- A slot returns to free (R23, R296). -/
def State.freeSlot (s : State) (seq : Nat) : State := s.dropSlots (fun x => x.seq = seq)

/-- Slots that an optional number names return to free. -/
def State.freeSlot? (s : State) : Option Nat → State
  | some q => s.freeSlot q
  | none => s

/-- R301: appends a record and then frees the slot it holds back; where the tail is at its bound the append waits, and
with it the slot. -/
def State.journal (s : State) (r : Rec) (slot : Option Nat) : State :=
  let tail := stage s.map.tail r
  if s.map.waiting = [] && tail.length ≤ s.tailBound then
    State.freeSlot? { s with map := { s.map with tail := tail, ts := s.map.ts.step r, since := s.map.since + 16 * r.units } } slot
  else
    State.raise { s with map := { s.map with waiting := s.map.waiting ++ [(r, slot)] } } E.MAP_JTAIL_FULL

/-- A record that holds no slot back. -/
def State.note (s : State) (r : Rec) : State := s.journal r none

/-- Appends that wait are made while the tail has room. -/
def State.drainWaiting : Nat → State → State
  | 0, s => s
  | n + 1, s =>
    match s.map.waiting with
    | [] => s
    | (r, slot) :: rest =>
      let tail := stage s.map.tail r
      if tail.length ≤ s.tailBound then
        State.drainWaiting n (State.freeSlot? { s with map := { s.map with
          waiting := rest, tail := tail, ts := s.map.ts.step r, since := s.map.since + 16 * r.units } } slot)
      else s

/-! ### Checkpoints (R302) -/

/-- A checkpoint begins: it writes what the translation state holds now. -/
def State.startCkpt (s : State) : State :=
  if s.get F.MAP_STATUS_CKPT_BUSY = 1 then s
  else State.set { s with map := { s.map with ckptAt := some s.map.ts, since := 0 } } F.MAP_STATUS_CKPT_BUSY 1

/-- A root copy has retired: the checkpoint is complete and its CHECKPOINT record is journaled. -/
def State.endCkpt (s : State) : State :=
  match s.map.ckptAt with
  | none => s
  | some t =>
    let s1 : State := { s with
      map := { s.map with ckptAt := none }
      nv := { s.nv with ts := if s.nv.ts.seq < t.seq then t else s.nv.ts } }
    ((s1.set F.MAP_STATUS_CKPT_BUSY 0).note (.checkpoint (s1.map.ts.ckpt + 1) t.seq)).raise E.MAP_CKPT_DONE

/-- The checkpoint of a drain (R119, R120): it holds everything, and no page is left in the tail. -/
def State.drainCkpt (s : State) : State :=
  let s1 := s.startCkpt.endCkpt
  { s1 with map := { s1.map with tail := [], since := 0 }, nv := { s1.nv with ts := s1.map.ts } }

/-- The oldest page of the tail retires in flash (R301): its records that no checkpoint holds yet become persistent. -/
def State.retirePage (s : State) : State :=
  match s.map.tail with
  | [] => s
  | p :: rest =>
    let first := s.map.ts.seq - total (s.map.tail.map (fun p => p.recs.length))
    let recs := p.recs.drop (s.nv.ts.seq - first)
    { s with map := { s.map with tail := rest }, nv := { s.nv with ts := recs.foldl TState.step s.nv.ts } }

/-! ### The overlay (R295) and the newest data of a leaf (R36, R38) -/

/-- The slots that hold data of a key and are visible to lookups, newest first. -/
def State.overlay (s : State) (key : Nat) : List Slot :=
  (s.slots.filter (fun x => x.key = key && x.lst ≠ .filling && (x.kind = .host || x.kind = .frame || x.kind = .internal))).reverse

/-- A sector of a leaf as the slots hold it. -/
def State.overlaySector (s : State) (key i : Nat) : Option Nat :=
  ((s.overlay key).find? (fun x => bit x.mask i)).map (fun x => x.data.getD i 0)

/-- A unit of flash. -/
def State.unit (s : State) (ua : Nat) : Option Unit := s.nv.units.find? ua

/-- The sectors of a leaf that flash or nothing holds: zeros where the leaf is UNMAPPED (R287). -/
def State.flashData (s : State) (key : Nat) : List Nat :=
  match s.map.ts.map.find? key with
  | some ua => match s.unit ua with
    | some u => u.data
    | none => List.replicate 8 0
  | none => List.replicate 8 0

/-- The newest data of a leaf: each sector from the newest slot that holds it, else from flash. -/
def State.leafData (s : State) (key : Nat) : List Nat :=
  let old := s.flashData key
  (List.range 8).map (fun i => (s.overlaySector key i).getD (old.getD i 0))

/-- A leaf that a read of some of its sectors must fetch from flash. -/
def State.needsFlash (s : State) (key mask : Nat) : Bool :=
  (s.map.ts.map.find? key).isSome && (List.range 8).any (fun i => bit mask i && (s.overlaySector key i).isNone)

/-- The bytes of eight sectors. -/
def leafBytes (d : List Nat) : List Nat := ((List.range 8).map (fun i => bytesOf 512 (d.getD i 0))).flatten

/-- Eight sectors XORed. -/
def xorData (a b : List Nat) : List Nat := (List.range 8).map (fun i => Nat.xor (a.getD i 0) (b.getD i 0))

/-! ### Leaf tables (R293, R313, R314) -/

/-- Leaf tables of the pool. -/
def State.poolTables (s : State) : Nat := s.get F.MAP_LEAF_POOL_MIB * 2048

/-- Free leaf tables. -/
def State.freeTables (s : State) : Nat := s.poolTables - s.map.ts.tables

/-- An extent has a leaf table. -/
def State.hasTable (s : State) (key : Nat) : Bool := s.map.ts.forms.get (keyExtent key) 0 = 2

/-- An extent takes LEAF_TABLE form: a table is reserved, with LEAF_LOW and LEAF_EMPTY as the pool runs down (R314). -/
def State.makeTable (s : State) (key : Nat) : State :=
  if s.hasTable key then s
  else
    let conv := s.map.ts.forms.get (keyExtent key) 0 = 1
    let s1 := { s with map := { s.map with ts := { s.map.ts with forms := s.map.ts.forms.put (keyExtent key) 2 } } }
    let s1 := if conv then s1.inc F.MAP_COUNTS_CONVERSIONS else s1
    let f := s1.freeTables
    (s1.raiseIf (f = s.get F.MAP_LEAF_INGEST_RSV) E.MAP_LEAF_LOW).raiseIf (f = 0) E.MAP_LEAF_EMPTY

/-- R313, R314: whether the leaves of a host or dock write can have the leaf tables they need. -/
def State.tablesFor (s : State) (keys : List Nat) : Bool :=
  let need := ((keys.filter (fun k => !s.hasTable k)).map keyExtent).eraseDups
  need = [] || decide (s.get F.MAP_LEAF_INGEST_RSV + need.length ≤ s.freeTables)

/-! ### Streams (R290 to R292) -/

/-- A stream's active configuration. -/
def State.streamCfg (s : State) (st : Nat) : StreamCfg :=
  ⟨s.get (F.MAP_STREAM_CFG_NSID st), s.get (F.MAP_STREAM_CFG_MODE st), s.get (F.MAP_STREAM_CFG_PG st),
   s.get (F.MAP_STREAM_REGION_BASE_EXT st), s.get (F.MAP_STREAM_REGION_LEN_EXT st)⟩

/-- The append pointer of a stream, in leaves. -/
def State.appendPtr (s : State) (st : Nat) : Nat := s.map.ts.appends.get st 0

/-- The key of a leaf of a stream's region. -/
def State.streamKey (s : State) (st leaf : Nat) : Nat :=
  leafKey (s.streamCfg st).nsid ((s.streamCfg st).base * 64 + leaf)

/-- The placement group of a slot when it becomes durable: extent groups 0 to 15, 16 for leaf-placed data, 17 for
internal data; relocated slots carry theirs (R412). -/
def State.groupOf (s : State) (x : Slot) : Nat :=
  match x.kind with
  | .host | .frame => if (s.streamCfg x.stream).mode = 0 then (s.streamCfg x.stream).pg else 16
  | .internal => 17
  | _ => x.group

/-! ### Stripes (R360, R364) -/

/-- A placement group. -/
def State.group (s : State) (g : Nat) : Group := s.map.groups.get g {}

/-- Gives a placement group a value. -/
def State.setGroup (s : State) (g : Nat) (x : Group) : State := { s with map := { s.map with groups := s.map.groups.put g x } }

/-- A page position of an open stripe. -/
def State.pageAt (s : State) (stripe pos : Nat) : Option OpenPage :=
  s.map.pages.find? (fun p => p.stripe = stripe && p.pos = pos)

/-- Gives a page position a value. -/
def State.putPage (s : State) (p : OpenPage) : State :=
  { s with map := { s.map with pages :=
      if (s.pageAt p.stripe p.pos).isSome then s.map.pages.map (fun x => if x.stripe = p.stripe && x.pos = p.pos then p else x)
      else s.map.pages ++ [p] } }

/-- The running-parity slots of a stripe. -/
def State.paritySlotsOf (s : State) (stripe : Nat) : List Slot :=
  s.slots.filter (fun x => (x.kind = .parity || x.kind = .relocParity) && x.key = stripe)

/-- A request for a stripe's running parity waits. -/
def State.parityAsked (s : State) (stripe : Nat) : Bool :=
  s.led.reqs.any (fun r => r.slots.any (fun x => (x.kind = .parity || x.kind = .relocParity) && x.key = stripe))

/-- R148: who asks for the running parity of a stripe whose first page comes from a slot. -/
def parityWho (x : Slot) : Who :=
  match x.kind, x.owner with
  | .reloc, _ => .groom
  | .internal, _ => .ingest
  | _, .peer _ => .pair
  | .frame, _ => .ingest
  | _, .cmd c => match c.src with
    | .host _ => .host
    | .dock _ => .net
    | .relay => .host
  | _, _ => .ingest

/-- The four running-parity slots of a stripe as requested. -/
def parityReq (x : Slot) (stripe g : Nat) : SlotReq :=
  SlotReq.mk' (parityWho x) 0 0 (List.replicate 4 ⟨0, .durable, if x.kind = .reloc then .relocParity else .parity,
    .stripe stripe, 0, 0, 0, stripe, 0xFF, List.replicate 8 0, g, false⟩)

/-- The class of a slot's program (Table 06-1). -/
def slotClass (x : Slot) : Nat :=
  match x.kind, x.owner with
  | .reloc, _ | .relocParity, _ => 6
  | .internal, _ => 5
  | _, .peer _ => 1
  | .frame, _ => 0
  | .host, _ => 2
  | .parity, _ => if x.group < 16 then 0 else 2

/-- A slot of the buffer by its admission sequence. -/
def State.slot (s : State) (seq : Nat) : Option Slot := s.slots.find? (fun x => x.seq = seq)

/-- The stripes that fill the planes of one page row together (R361). -/
def State.rowStripes (s : State) (stripe : Nat) : List Nat :=
  if s.planes = 0 then [] else (List.range s.planes).map (fun i => stripe / s.planes * s.planes + i)

/-- Every data position of a stripe has been issued, or is void. -/
def State.dataIssued (s : State) (stripe : Nat) : Bool :=
  (List.range 63).all (fun i => match s.pageAt stripe (dataPos stripe i) with
    | some p => p.phase = .issued || p.phase = .retired || p.phase = .void
    | none => false)

/-- The program of one position of a page row, once every plane's page is ready: a data page when its four quarters are
durable, the parity page when the stripe's data pages have been issued (R361); for the pages that are ready alone where `part` says so (R310). -/
def State.programRow (part : Bool) (s : State) (stripe pos : Nat) : State :=
  let ps := (s.rowStripes stripe).map (fun st => s.pageAt st pos)
  if ps ≠ [] && ps.all (fun p => match p with
      | some p => part || p.phase ≠ .filling
      | none => part) && ps.any (fun p => match p with
      | some p => p.phase = .ready
      | none => false) then
    let made (p : OpenPage) : Bool := s.bud.ops.any (fun o => o.why = .page && o.items.contains (p.stripe * 64 + p.pos))
    let ready := (ps.filterMap id).filter (fun p => p.phase = .ready && !made p)
    let band := s.bandOf stripe
    let (c, l, b) := s.place band pos
    let seqs := (ready.map (fun p => p.seqs.filterMap id)).flatten
    let cls := match seqs.findSome? (fun q => s.slot q) with
      | some x => slotClass x
      | none => 5
    let why : OpWhy := .page
    if ready = [] then s
    else
      State.addOp s ⟨0, cls, 0, .prog, .queued, s.opCost .prog s.planes (4 * s.planes), 0, c, l, b, s.pageRow stripe,
        ready.map (fun p => p.stripe * 64 + p.pos), why, .stripe stripe, 0, 0, false⟩
  else s

/-- The program of a page row whose planes are all there. -/
def State.makeProgram (s : State) (stripe pos : Nat) : State := s.programRow false stripe pos

/-! ### Stripes and bands that close (R364, R371, R404) -/

/-- A position whose block set has failed in this band (R371), or whose LUN or channel has (R373), is void. -/
def State.voidAt (s : State) (band pos : Nat) : Bool :=
  s.failedAt band pos || (let (c, l, b) := s.place band pos; (s.map.ts.band band).bad.contains (blockKey c l b))

/-- The bitmap of a stripe's positions in some phases. -/
def State.posBits (s : State) (stripe : Nat) (p : PagePhase → Bool) : Nat :=
  ((s.map.pages.filter (fun x => x.stripe = stripe && p x.phase)).map (fun x => 2 ^ x.pos)).foldl (· + ·) 0

/-- A band closes once no group holds it open and no stripe of it is open: its BAND record is journaled. -/
def State.closeBand (s : State) (b : Nat) : State :=
  if (s.map.ts.band b).state = .opened && !s.map.groups.any (fun g => g.2.band = some b) &&
      !s.map.pages.any (fun p => s.bandOf p.stripe = b) then
    s.note (.band b (s.map.ts.band b).group 1)
  else s

/-- A stripe closes once every position of it, parity included, has retired or is void; it closes short where pages are void. -/
def State.closeStripe (s : State) (stripe : Nat) : State :=
  if (List.range 64).all (fun p => (s.pageAt stripe p).any (fun x => x.phase = .retired || x.phase = .void)) then
    let void := s.posBits stripe (· = .void)
    let s1 := s.note (.stripe stripe (if void = 0 then 0 else 1) void)
    let s1 := { s1 with map := { s1.map with pages := s1.map.pages.filter (fun x => x.stripe ≠ stripe) } }
    s1.closeBand (s.bandOf stripe)
  else s

/-- R361: a stripe whose data pages have been issued gets its parity page. -/
def State.parityReady (s : State) (stripe : Nat) : State :=
  let pos := stripe % 64
  if s.dataIssued stripe && (s.pageAt stripe pos).isNone then
    let void := s.voidAt (s.bandOf stripe) pos
    let s1 := s.putPage ⟨stripe, pos, [none, none, none, none], if void then .void else .ready⟩
    if void then
      (s1.dropSlots (fun x => (x.kind = .parity || x.kind = .relocParity) && x.key = stripe)).closeStripe stripe
    else s1.makeProgram stripe pos
  else s

/-! ### Placement (R291 to R294) -/

/-- The page of a data-order position becomes void if its LUN has failed. -/
def State.voidPage (s : State) (band off : Nat) : State :=
  let (st, pos) := s.orderPage band off
  if (s.pageAt st pos).isNone && s.voidAt band pos then
    (s.putPage ⟨st, pos, [none, none, none, none], .void⟩).parityReady st else s

/-- Whether a data-order page is void. -/
def State.isVoid (s : State) (band off : Nat) : Bool :=
  let (st, pos) := s.orderPage band off
  s.voidAt band pos || (match s.pageAt st pos with
    | some p => p.phase = .void
    | none => false)

/-- Puts a slot at a quarter of a data-order page; the page is ready when `full` says that it takes no more. -/
def State.putSlot (s : State) (band off quarter seq : Nat) : State :=
  let (st, pos) := s.orderPage band off
  let p := (s.pageAt st pos).getD ⟨st, pos, [none, none, none, none], .filling⟩
  let p := { p with seqs := p.seqs.set quarter (some seq), phase := if quarter = 3 then .ready else p.phase }
  let s1 := s.putPage p
  if quarter = 3 then s1.makeProgram st pos else s1

/-- The parity of a stripe is held, so that its first page may be placed (R148). -/
def State.parityHeld (s : State) (stripe : Nat) : Bool := (s.paritySlotsOf stripe).length = 4

/-- Asks for the running parity of a stripe. -/
def State.askParity (s : State) (x : Slot) (stripe g : Nat) : State :=
  if s.parityAsked stripe then s else s.request (parityReq x stripe g)

/-- The run of a stream in a group. -/
def Group.run (g : Group) (stream : Nat) : Option ExtRun := g.runs.find? (fun r => r.stream = stream)

/-- The first data-order page at or after `off` that starts a run (R288). -/
def align16 (off : Nat) : Nat := (off + 15) / 16 * 16

/-- Filler takes the rest of some data-order pages of a band. -/
def State.fillPages (s : State) (band off n : Nat) : State :=
  (List.range n).foldl (fun s i =>
    let (st, pos) := s.orderPage band (off + i)
    match s.pageAt st pos with
    | some p => if p.phase = .filling then (s.putPage { p with phase := .ready }).makeProgram st pos else s
    | none =>
      if s.voidAt band pos then s.voidPage band (off + i)
      else (s.putPage ⟨st, pos, [none, none, none, none], .ready⟩).makeProgram st pos) s

/-- R314: with the leaf pool empty a run of INGEST that would close short stays open: filler takes the rest of its page, and the
stream's next leaf continues it. -/
def ExtRun.skip (r : ExtRun) : ExtRun :=
  let f := (4 - r.count % 4) % 4
  { r with key := r.key - f, count := r.count + f }

/-- A run closes: with fewer than 64 leaves its extent takes LEAF_TABLE form, and its remaining positions are filler (R293). -/
def State.closeRun (s : State) (g : Nat) (r : ExtRun) : State :=
  let x := s.group g
  let keep := g < 16 && r.count ≠ 64 && !s.hasTable r.key && s.freeTables = 0
  let s1 := s.setGroup g { x with runs := if keep && r.skip.count < 64 then x.runs.map (fun y => if y = r then r.skip else y)
                                   else x.runs.filter (fun y => y ≠ r) }
  if r.count = 64 then s1
  else
    let s1 := if keep then s1 else s1.makeTable r.key
    match x.band with
    | none => s1
    | some band => if keep then (if r.count % 4 = 0 then s1 else s1.fillPages band (r.off + r.count / 4) 1) else s1.fillPages band r.off 16

/-- One slot at the head of a group's queue is placed, if its band, its stripe's parity and its place allow; `none` where
the group must wait. -/
def State.placeOne (s : State) (g : Nat) : Option State :=
  let x := s.group g
  match x.queue with
  | [] => none
  | seq :: rest =>
    match s.slot seq with
    | none => some (s.setGroup g { x with queue := rest })
    | some sl =>
      let again := sl.lst = .programming
      if (g < 16 && !again && sl.kind ≠ .reloc) || (g = 32 && !again) then
        let stream := if g = 32 then 257 else sl.stream
        match x.run stream with
        | some r =>
          if sl.key = r.key + r.count && r.count < 64 then
            match x.band with
            | none => none
            | some band =>
              let off := r.off + r.count / 4
              let (st, _) := s.orderPage band off
              let r' := { r with count := r.count + 1 }
              if s.isVoid band off then
                let g' := if g = 32 then 33 else 16
                let s1 := ((s.voidPage band off).makeTable sl.key).setGroup g { x with
                  queue := rest, runs := if r'.count = 64 then x.runs.filter (fun y => y ≠ r) else x.runs.map (fun y => if y = r then r' else y) }
                let y := s1.group g'
                some (s1.setGroup g' { y with queue := y.queue ++ [seq] })
              else if !s.parityHeld st then some (s.askParity sl st g) else
              let runs := if r'.count = 64 then x.runs.filter (fun y => y ≠ r) else x.runs.map (fun y => if y = r then r' else y)
              some ((s.setGroup g { x with queue := rest, runs := runs, lastTb := s.tb }).putSlot band off (r.count % 4) seq)
          else if g < 16 && r.count < 64 && !s.hasTable r.key && s.freeTables = 0 then
            some (s.setGroup g { x with runs := x.runs.map (fun y => if y = r then { r with key := sl.key - r.count } else y) })
          else some (s.closeRun g r)
        | none =>
          if sl.key % 64 = 0 && (g = 32 || !s.hasTable sl.key) then
            match x.band with
            | none => none
            | some band =>
              let off := align16 x.next
              if s.bandPages < off + 16 then
                some ((s.setGroup g { x with band := none, next := 0 }).fillPages band x.next (s.bandPages - x.next))
              else
                some (s.setGroup g { x with next := off + 16, runs := x.runs ++ [⟨stream, sl.key, off, 0⟩] })
          else
            let g' := if g = 32 then 33 else 16
            let y := s.group g'
            some ((s.setGroup g { x with queue := rest }).setGroup g' { y with queue := y.queue ++ [seq] })
      else
        match x.band with
        | none => none
        | some band =>
          match x.runs.find? (fun r => r.stream = 256) with
          | some r =>
            let (st, _) := s.orderPage band r.off
            if s.isVoid band r.off then some (s.setGroup g { x with runs := x.runs.filter (fun y => y ≠ r) })
            else if !s.parityHeld st then some (s.askParity sl st g) else
            let r' := { r with count := r.count + 1 }
            let runs := if r'.count = 4 then x.runs.filter (fun y => y ≠ r) else x.runs.map (fun y => if y = r then r' else y)
            some ((s.setGroup g { x with queue := rest, runs := runs, lastTb := s.tb }).putSlot band r.off r.count seq)
          | none =>
            if s.bandPages ≤ x.next then some (s.setGroup g { x with band := none, next := 0 })
            else if s.isVoid band x.next then some ((s.voidPage band x.next).setGroup g { x with next := x.next + 1 })
            else some (s.setGroup g { x with next := x.next + 1, runs := x.runs ++ [⟨256, sl.key, x.next, 0⟩] })

/-- Places the slots of a group's queue as far as they go. -/
def State.pumpGroup : Nat → Nat → State → State
  | 0, _, s => s
  | n + 1, g, s =>
    match s.placeOne g with
    | none => s
    | some s' => if s' = s then s else State.pumpGroup n g s'

/-- R304, R406, R426: a group that needs a band and may not open one waits; NO_SPACE or RESERVE_OUT says so. -/
def State.noteNoBand (s : State) (g : Nat) : State :=
  let x := s.group g
  if x.band.isNone && x.queue ≠ [] then
    if !s.ready Fn.MAP_FULL then s.raiseIf (s.ready Fn.JOURNAL && s.bandsIn .bootRsv = 0) E.MAP_RESERVE_OUT
    else s.raiseIf (g < 32 && decide (s.freeBands < 1) && s.bandTotal ≠ 0) E.GROOM_NO_SPACE
  else s

/-- Places what waits in every group: the extent groups first, since they hand slots to the leaf group. -/
def State.pump (s : State) : State :=
  let gs := (s.map.groups.map (·.1))
  let run (s : State) (g : Nat) : State := State.pumpGroup (4 * (s.group g).queue.length + 8) g s
  let s1 := run (run ((gs.filter (fun g => g ≠ 16 && g ≠ 33)).foldl run s) 16) 33
  (s1.map.groups.map (·.1)).foldl State.noteNoBand s1

/-- Slots that have become durable wait for their place, in admission order. -/
def State.enqueue (s : State) (seqs : List Nat) : State :=
  seqs.foldl (fun s q =>
    match s.slot q with
    | some x =>
      if x.lst = .durable && x.kind ≠ .parity && x.kind ≠ .relocParity then
        let g := s.groupOf x
        let y := s.group g
        (s.mapSlots (fun z => z.seq = q) (fun z => { z with group := g })).setGroup g { y with queue := y.queue ++ [q] }
      else s
    | none => s) s

/-- R447: the 128 MiB segment of a key. -/
def keySeg (k : Nat) : Nat := k / 32768

/-- Segments and takes are marked divergent; the first mark raises DIVERGED. -/
def State.diverge (s : State) (segs takes : List Nat) : State :=
  let s1 : State := { s with nv := { s.nv with
    div := (s.nv.div ++ segs).eraseDups, divTakes := (s.nv.divTakes ++ takes).eraseDups } }
  s1.raiseIf (s1.divergent && !s.divergent) E.PAIR_DIVERGED

/-- R446, R447: marks segments divergent: while a peer of record exists and the half is not mirrored. -/
def State.markSegs (s : State) (ks : List Nat) : State :=
  if s.mirroring || s.nv.peer = none then s
  else s.diverge (ks.map keySeg) []

/-- R21: filling slots whose data is complete land, and those that are durable are placed. -/
def State.store (s : State) (p : Slot → Bool) : State :=
  let new := s.slots.filter (fun x => p x && x.lst = .filling)
  let s1 := s.markSegs ((new.filter (fun x => x.kind = .host || x.kind = .frame)).map (·.key))
  ((s1.land p).enqueue (new.map (·.seq))).pump

end Sys2Proof.Machine
end

