-- ==== Sys2Proof/Machine/Peers.lean ====
section
/-!
DEFINITION. The pair (chapter 15), as the other units need it: messages to the peer, pair states, divergence, logical
journal records and the completions that wait for their acknowledgment.
-/

namespace Sys2Proof.Machine

/-- PSTATE takes a value (Table 15-5): PAIR_MIRROR follows it (R437), and a change is reported (Table 07-9). -/
def State.setPstate (s : State) (v : Nat) : State :=
  if s.pair.pstate = v then s
  else
    let s1 := { s with pair := { s.pair with pstate := v, stateTb := s.tb } }
    let s1 := if v = 3 || v = 4 then (if s1.needsOk Fn.PAIR_MIRROR then s1.setReady Fn.PAIR_MIRROR else s1)
      else s1.clearReady [Fn.PAIR_MIRROR]
    s1.vendorEvent 0x03 0xC3

/-- The link becomes aligned: every channel has its whole allocation (R434). -/
def State.pairAlign (s : State) : State :=
  let s1 := ((s.set F.PAIR_STATUS_ALIGNED 1).set F.PAIR_STATUS_FSTATE 2).raise E.PAIR_LINK_UP
  (List.range 3).foldl (fun s v => (s.set (F.PAIR_CREDIT_AVAIL v) (pairAlloc v)).set (F.PAIR_CREDIT_RX_BUF v) 0) s1

/-- The pair link stops being up: its functions clear, and set P with them (R493). -/
def State.pairLinkDown (s : State) (fstate : Nat) : State :=
  let s1 := if s.get F.PAIR_STATUS_ALIGNED = 1 then s.raise E.PAIR_LINK_DOWN else s
  let s1 := ((s1.set F.PAIR_STATUS_ALIGNED 0).set F.PAIR_STATUS_FSTATE fstate).clearReady [Fn.PAIR_LINK]
  { s1 with pair := { s1.pair with
      ident := none, identOut := false, unacked := [], txq := []
      txSeq := [0, 0, 0], rxSeq := [0, 0, 0], used := [0, 0, 0], freed := [0, 0, 0] } }

/-- This half is the lead of a pair that mirrors. -/
def State.leads (s : State) : Bool := s.mirroring && s.pair.lead

/-- This half is the follow of a pair that mirrors (R437). -/
def State.follows (s : State) : Bool := s.mirroring && !s.pair.lead

/-- R442: the lead sends a logical record. -/
def State.sendRecord (s : State) (r : LRec) : State :=
  if s.leads then
    State.pairSend { s with pair := { s.pair with recSeq := s.pair.recSeq + 1 } } (.record (s.pair.recSeq + 1) r)
  else s

/-- R447: while the half is not mirrored, a take that opens, closes or grows is listed. -/
def State.listTake (s : State) (num : Nat) : State :=
  if s.mirroring || s.nv.peer = none then s
  else s.diverge [] [num]

/-- A record of a take's state is journaled and sent. -/
def State.noteTake (s : State) (t : Take) : State := ((s.note (.take t)).sendRecord (.take t)).listTake t.num

/-- A range of leaves is unmapped: journaled, sent and marked. -/
def State.noteUnmap (s : State) (key count : Nat) : State :=
  ((s.note (.unmap key count)).sendRecord (.unmap key count)).markSegs ((List.range (count / 32768 + 2)).map
    (fun i => min (key + 32768 * i) (key + count - 1)))

/-- An append pointer is journaled and sent. -/
def State.noteAppend (s : State) (st n : Nat) : State := (s.note (.append st n)).sendRecord (.append st n)

/-- A frame index entry is journaled, and under FEED LEAD sent. -/
def State.noteEntry (s : State) (e : Entry) : State :=
  let s1 := (s.note (.frameEntry e)).listTake e.take
  if s.get F.PAIR_CFG_FEED = 0 then s1.sendRecord (.frameEntry e) else s1

/-- R442: a completion that waits, where the pair mirrors, for the peer's acknowledgment of every record sent. -/
def State.okRec (s : State) (id : Cid) (dw0 dw1 : Nat) (data : List Nat) : State :=
  if s.leads && s.pair.recAcked < s.pair.recSeq then
    { s with pair := { s.pair with held := s.pair.held ++ [(s.pair.recSeq, ⟨id, 0, 0, false, dw0, dw1, data⟩)] } }
  else s.ok id dw0 dw1 data

/-- Held completions whose records are acknowledged, or every one of them, are posted. -/
def State.releaseHeld (s : State) (all : Bool) : State :=
  let due := s.pair.held.filter (fun x => all || decide (x.1 ≤ s.pair.recAcked))
  due.foldl (fun s x => s.complete x.2.id x.2.sct x.2.sc x.2.dnr x.2.dw0 x.2.dw1 x.2.data)
    { s with pair := { s.pair with held := s.pair.held.filter (fun x => !(all || decide (x.1 ≤ s.pair.recAcked))) } }

/-- R445: whether a SLOT message for a slot goes to the peer: host and NVMe/TCP data, and under FEED LEAD frame data. -/
def State.mirrors (s : State) (x : Slot) : Bool :=
  s.leads && (x.kind = .host || (x.kind = .frame && s.get F.PAIR_CFG_FEED = 0))

/-- Table 15-4: the descriptor of a slot: its place in its frame, and whether it is the last of its frame or command. -/
def State.slotMsg (s : State) (x : Slot) : SlotMsg :=
  let (index, frame, take, last) : Nat × Nat × Nat × Bool := match x.owner with
    | .frame id => match s.frm.recs.find? (fun r => r.id = id) with
      | some r =>
        let u := x.key - s.streamKey r.stream r.leaf0
        (u, r.frame, r.take, r.closed && u + 1 = r.asked)
      | none => (0, 0, 0, false)
    | _ => (0, 0, 0, !s.slots.any (fun y => y.owner = x.owner && x.key < y.key) &&
        !s.led.reqs.any (fun r => r.slots.any (fun y => y.owner = x.owner && x.key < y.key)))
  ⟨if x.kind = .host then 1 else 2, b2n (x.mask ≠ 0xFF) + 2 * b2n last, x.seq, x.nsid, x.stream, index, x.key, x.mask, frame, take, x.data⟩

/-- R439: SLOT messages for slots whose data is complete. -/
def State.mirrorSlots (s : State) (seqs : List Nat) : State :=
  seqs.foldl (fun s q => match s.slot q with
    | some x => if s.mirrors x && x.lst = .mirror then s.pairSend (.slot (s.slotMsg x)) else s
    | none => s) s

/-- A write's slots. -/
def Slot.ofCmd (x : Slot) (id : Cid) : Bool := x.owner = .cmd id

/-- Every slot of a command has been admitted. -/
def State.allAdmitted (s : State) (id : Cid) : Bool := !s.led.reqs.any (fun r => r.slots.any (fun x => x.ofCmd id))

/-- R25, R439: a write completes once each of its slots is durable and, in a pair, held by the peer. -/
def State.writesDone (s : State) : State :=
  let due := s.host.cmds.filter (fun c => c.op.isWrite && c.started && s.allAdmitted c.id &&
    !s.slots.any (fun x => x.ofCmd c.id && (x.lst = .filling || x.lst = .mirror)))
  due.foldl (fun s c => s.okRec c.id 0 0 []) (due.foldl (fun s c => s.untrack c.id) s)

/-- A mirror-pending slot becomes durable and is placed (R439, R446), and the writes that waited for it complete. -/
def State.release (s : State) (p : Slot → Bool) : State :=
  let seqs := (s.slots.filter (fun x => p x && x.lst = .mirror)).map (·.seq)
  ((s.mapSlots (fun x => seqs.contains x.seq) (fun x => { x with lst := .durable })).enqueue seqs).pump.writesDone

end Sys2Proof.Machine
end

