-- ==== Sys2Proof/Machine/Frames.lean ====
section
/-!
DEFINITION. The Frame Engine's and the receiver's shared operations (chapters 08 and 09): takes, descriptors, the time
address, frames as they open, grow, close and take their slots, sketches, pulses, the capture path and the frame index.
-/

namespace Sys2Proof.Machine

/-! ### Takes (R258, R259) -/

/-- The take in OPEN or CLOSING that holds a stream. -/
def State.takeOf (s : State) (st : Nat) : Option Take :=
  (s.map.ts.takes.map (·.2)).find? (fun t => t.phase < 2 && t.streams.contains st)

/-- The takes OPEN or CLOSING. -/
def State.liveTakes (s : State) : List Take := (s.map.ts.takes.map (·.2)).filter (fun t => t.phase < 2)

/-- A take changes its phase in the translation state. -/
def State.setTake (s : State) (t : Take) : State :=
  { s with map := { s.map with ts := { s.map.ts with takes := s.map.ts.takes.put t.num t } } }

/-! ### Descriptors (Table 09-2) -/

/-- SKETCH_STREAM of a stream's active descriptor. -/
def State.sketchStream (s : State) (st : Nat) : Nat := bits (s.get (F.FRAME_DESC_A_DESC st)) 0 8
/-- SKETCH_EN. -/
def State.sketchEn (s : State) (st : Nat) : Bool := bit (s.get (F.FRAME_DESC_A_DESC st)) 8
/-- The divisor D of SKETCH_DIV. -/
def State.sketchDiv (s : State) (st : Nat) : Nat := if bit (s.get (F.FRAME_DESC_A_DESC st)) 9 then 8 else 4
/-- Bits per site of DEPTH. -/
def State.siteBits (s : State) (st : Nat) : Nat := 10 + 2 * bits (s.get (F.FRAME_DESC_A_DESC st)) 12 2
/-- TC_SRC. -/
def State.tcSrc (s : State) (st : Nat) : Nat := bits (s.get (F.FRAME_DESC_A_DESC st)) 16 2
/-- PULSE_EN. -/
def State.pulseEn (s : State) (st : Nat) : Bool := bit (s.get (F.FRAME_DESC_A_DESC st)) 18
/-- WIDTH. -/
def State.siteWidth (s : State) (st : Nat) : Nat := bits (s.get (F.FRAME_DESC_B_DESC st)) 0 16
/-- HEIGHT. -/
def State.siteHeight (s : State) (st : Nat) : Nat := bits (s.get (F.FRAME_DESC_B_DESC st)) 16 16

/-- The active DESC of FRAME.ACAP.STREAM. -/
def State.capStream (s : State) : Nat := s.get F.FRAME_ACAP_STREAM

/-- R242, R261: a stream of a live take that is generated inside the device: a sketch companion of one of the take's
streams, or the capture stream. -/
def State.generated (s : State) (st : Nat) : Bool :=
  st = s.capStream || (match s.takeOf st with
    | some t => t.streams.any (fun x => s.sketchEn x && s.sketchStream x = st)
    | none => false)

/-! ### Time addresses (R264, R265, R612 to R615) -/

/-- A number of two BCD digits. -/
def bcdVal (b : Nat) : Nat := b / 16 * 10 + b % 16
/-- A number below 100 as two BCD digits. -/
def bcdOf (n : Nat) : Nat := n / 10 * 16 + n % 10

/-- Frames in a second of a rate (Table 21-1). -/
def rateFps (rate : Nat) : Nat := if rate ≤ 1 then 24 else if rate = 2 then 25 else 30

/-- Every BCD digit in range, every field in its range at the rate, and not an address that drop-frame counting omits. -/
def tcValid (rate addr : Nat) : Bool :=
  let b (i : Nat) : Nat := addr / 256 ^ i % 256
  (List.range 4).all (fun i => b i % 16 < 10 && b i / 16 < 10) && bcdVal (b 0) < rateFps rate && bcdVal (b 1) < 60 &&
    bcdVal (b 2) < 60 && bcdVal (b 3) < 24 && rate < 6 &&
    !(rate = 5 && bcdVal (b 0) < 2 && b 1 = 0 && bcdVal (b 2) % 10 ≠ 0)

/-- The address after another, in a rate's counting. -/
def tcNext (rate addr : Nat) : Nat :=
  let b (i : Nat) : Nat := bcdVal (addr / 256 ^ i % 256)
  let f := b 0 + 1
  let sec := if f < rateFps rate then b 1 else b 1 + 1
  let min := if sec < 60 then b 2 else b 2 + 1
  let hr := if min < 60 then b 3 else b 3 + 1
  let f := if f < rateFps rate then f else 0
  let f := if rate = 5 && f = 0 && sec = 60 && min % 60 % 10 ≠ 0 then 2 else f
  bcdOf f + 256 * bcdOf (sec % 60) + 65536 * bcdOf (min % 60) + 16777216 * bcdOf (hr % 24)

/-- A time address as a stamp takes it: the source (2 LTC, 3 generator), the address, the user bits and drop-frame. -/
structure TcNow where
  used : Nat
  addr : Nat
  user : Nat
  drop : Bool
  deriving DecidableEq, Repr

/-- R614, R615: the LTC reader's predicted address while it is locked, otherwise the generator's. -/
def State.tcNow (s : State) (src : Nat) : TcNow :=
  let rate := s.get F.TIME_STATUS_LTC_RATE
  if s.get F.TIME_STATUS_LTC_LOCK = 1 && src ≠ 2 then
    ⟨2, tcNext rate (s.get F.TIME_LTC_ADDR_ADDR), s.get F.TIME_LTC_USER_BITS, rate = 5⟩
  else ⟨3, s.get F.TIME_GEN_ADDR_ADDR, 0, s.tim.genRate = 5⟩

/-- R265: SUBFRAME of a stream's header, and the count moved on. -/
def State.takeSub (s : State) (st : Nat) : Nat × State :=
  let n := s.frm.subCnt.get st 0
  (min n 15, { s with frm := { s.frm with subCnt := s.frm.subCnt.put st (n + 1) } })

/-- A boundary of the time address in use: the counts of SUBFRAME start again (R265, R281). -/
def State.tcBoundary (s : State) : State := { s with frm := { s.frm with subCnt := [], pulseSub := 0 } }

/-! ### Frames -/

/-- Frame index flags (Table 09-4). -/
def FLAG_DAMAGED : Nat := 1
/-- Table 09-4. -/
def FLAG_DOUBT : Nat := 2
/-- Table 09-4. -/
def FLAG_SEALED : Nat := 4
/-- Table 09-4. -/
def FLAG_RESYNC : Nat := 8
/-- Table 09-4. -/
def FLAG_NO_HEADER : Nat := 16
/-- Table 09-4. -/
def FLAG_HEAD_ERROR : Nat := 32
/-- Table 09-4. -/
def FLAG_HDR_TC : Nat := 64
/-- Table 09-4. -/
def FLAG_DROP : Nat := 128
/-- Table 09-4. -/
def FLAG_GAP : Nat := 256
/-- Table 09-4. -/
def FLAG_SKETCH : Nat := 512
/-- Table 09-4. -/
def FLAG_CAPTURE : Nat := 1024
/-- Table 09-4. -/
def FLAG_NO_PULSE : Nat := 2048
/-- Table 09-4. -/
def FLAG_REWRITTEN : Nat := 4096
/-- Table 09-4. -/
def FLAG_SHORT : Nat := 8192
/-- Table 09-4. -/
def FLAG_RECOMPUTED : Nat := 16384
/-- Table 09-4. -/
def FLAG_ABORTED : Nat := 32768

/-- A frame's record. -/
def State.rec? (s : State) (id : Nat) : Option FrameRec := s.frm.recs.find? (fun r => r.id = id)

/-- Changes one record. -/
def State.mapRec (s : State) (id : Nat) (f : FrameRec → FrameRec) : State :=
  { s with frm := { s.frm with recs := s.frm.recs.map (fun r => if r.id = id then f r else r) } }

/-- The append pointer of a stream as open frames move it (R291), in leaves. -/
def State.nextLeaf (s : State) (st : Nat) : Nat := s.frm.ptr.get st (s.appendPtr st)

/-- The payload bytes of a list of blocks. -/
def blockBytes (bs : List Nat) : List Nat := (bs.map (bytesOf 8)).flatten

/-- Sector `k` (512 bytes) of leaf `u` of a payload; bytes beyond it are 0 (R291). -/
def payloadSector (bs : List Nat) (u k : Nat) : Nat := ofBytes (blockBytes ((bs.drop (512 * u + 64 * k)).take 64))

/-- The eight sectors of leaf `u` of a payload. -/
def payloadLeaf (bs : List Nat) (u : Nat) : List Nat := (List.range 8).map (payloadSector bs u)

/-- R290: the map key of leaf `u` of a record. -/
def State.recKey (s : State) (r : FrameRec) (u : Nat) : Nat := s.streamKey r.stream (r.leaf0 + u)

/-- R311: leaves of a stream's region. -/
def State.regionLeaves (s : State) (st : Nat) : Nat := if (s.streamCfg st).nsid = 0 then 0 else 64 * (s.streamCfg st).len

/-- Asks for the slots of the leaves that a record has begun, one request a leaf, as far as its region reaches; data that
would pass its end waits, with XOFF and REGION_FULL (R311). -/
def State.askUnits : Nat → Nat → State → State
  | 0, _, s => s
  | n + 1, id, s =>
    match s.rec? id with
    | none => s
    | some r =>
      if r.units ≤ r.asked then s
      else if r.leaf0 + r.asked < s.regionLeaves r.stream then
        let slot : Slot := ⟨0, .filling, .frame, .frame id, 0, r.stream, r.nsid, s.recKey r r.asked, 0, List.replicate 8 0, 0, false⟩
        State.askUnits n id ((s.request (SlotReq.mk' .ingest 0 0 [slot])).mapRec id (fun r => { r with asked := r.asked + 1 }))
      else s.xoff.raise E.MAP_REGION_FULL

/-- Whether a leaf of a record holds all its data. -/
def FrameRec.unitFull (r : FrameRec) (u : Nat) : Bool := 512 * (u + 1) ≤ r.blocks.length || (r.closed && u < r.units)

/-- The filling slot holds a leaf of this record that is complete. -/
def State.recSlotFull (s : State) (r : FrameRec) (x : Slot) : Bool :=
  x.owner = .frame r.id && x.lst = .filling && (List.range r.asked).any (fun u => s.recKey r u = x.key && r.unitFull u)

/-- The leaf of a record that a key names. -/
def State.recLeafOf (s : State) (r : FrameRec) (key : Nat) : Nat := key - s.recKey r 0

/-- R441: under FEED BOTH a half tells the peer of each of its frame slots that is complete, and a slot the peer has told of
becomes durable. -/
def State.heldOut (s : State) (r : FrameRec) (seqs : List Nat) : State :=
  if s.mirroring && s.get F.PAIR_CFG_FEED = 1 then
    seqs.foldl (fun s q => match s.slot q with
      | some x =>
        let u := s.recLeafOf r x.key
        let s1 := s.pairSend (.heldFrame r.stream r.take r.frame r.piece u)
        if s.pair.heldEarly.contains (r.stream, r.take, r.frame, r.piece, u) then s1.release (fun y => y.seq = q) else s1
      | none => s) s
  else s

/-- R21, R22: the complete leaves of a record whose slots are admitted take their data and land. -/
def State.settle (s : State) (id : Nat) : State :=
  match s.rec? id with
  | none => s
  | some r =>
    let p (x : Slot) : Bool := s.recSlotFull r x
    if s.slots.any p then
      let full := (s.slots.filter p).map (·.seq)
      ((s.mapSlots p (fun x => { x with mask := 0xFF, data := payloadLeaf r.blocks (s.recLeafOf r x.key) })).store
        (fun x => full.contains x.seq)).mirrorSlots full |>.heldOut r full
    else s

/-- Every record settles, and leaves that waited for their region are asked for. -/
def State.settleAll (s : State) : State :=
  (s.frm.recs.map (·.id)).foldl (fun s id => (State.askUnits 70000 id s).settle id) s

/-- Opens a record. -/
def State.openRec (s : State) (r : FrameRec) : State :=
  { s with frm := { s.frm with
      recs := s.frm.recs ++ [{ r with id := s.frm.nextId, leaf0 := s.nextLeaf r.stream, nsid := (s.streamCfg r.stream).nsid }]
      nextId := s.frm.nextId + 1 } }

/-- A payload block joins a record; its leaf asks for a slot at its first block and lands with its last. -/
def State.addBlock (s : State) (id b : Nat) : State :=
  State.settle (State.askUnits 2 id (s.mapRec id (fun r => { r with blocks := r.blocks ++ [b % 2 ^ 64] }))) id

/-! ### Sketches (R269 to R271) -/

/-- A payload as one number, bit 0 of byte 0 first. -/
def payloadNum (bs : List Nat) : Nat := ofBytes (blockBytes bs)

/-- R270: one site of a sketch: the mean of the sites of its own colour in its source block. -/
def sketchSite (src w d dv x y : Nat) : Nat :=
  let bx := x / 2 * 2 * dv
  let y0 := y / 2 * 2 * dv
  let sum := total ((List.range dv).map (fun j => total ((List.range dv).map (fun i =>
    bits src (((y0 + 2 * j + y % 2) * w + bx + 2 * i + x % 2) * d) d))))
  (sum + dv * dv / 2) / (dv * dv)

/-- Rows of a sketch whose source rows arrived whole: two for each complete cell block (R271). -/
def sketchRows (bitsGot w d dv : Nat) : Nat := if w * d = 0 then 0 else bitsGot / (w * d) / (2 * dv) * 2

/-- The sites of a sketch packed under R269, as blocks of 64 bits. -/
def sketchBlocks (bs : List Nat) (w h d dv : Nat) : List Nat :=
  let sw := w / dv
  let sh := h / dv
  let src := payloadNum bs
  let rows := min sh (sketchRows (64 * bs.length) w d dv)
  let num := total ((List.range rows).map (fun y => total ((List.range sw).map (fun x =>
    sketchSite src w d dv x y * 2 ^ ((y * sw + x) * d)))))
  (List.range (ceilDiv (sw * sh * d) 64)).map (fun i => bits num (64 * i) 64)

/-- R269: the LENGTH a frame must have for a sketch of it. -/
def State.sketchLen (s : State) (st : Nat) : Nat := ceilDiv (s.siteWidth st * s.siteHeight st * s.siteBits st) 64 * 8

/-- R270: the record of the sketch of a closed frame. -/
def State.sketchOf (s : State) (r : FrameRec) : FrameRec :=
  let bs := sketchBlocks r.blocks (s.siteWidth r.stream) (s.siteHeight r.stream) (s.siteBits r.stream) (s.sketchDiv r.stream)
  let crc := crc32c (blockBytes bs)
  { r with
    stream := s.sketchStream r.stream, src := r.stream, decl := 8 * bs.length
    flags := Nat.lor FLAG_SKETCH (Nat.land r.flags (FLAG_DAMAGED + FLAG_RESYNC + FLAG_GAP + FLAG_DROP + FLAG_HDR_TC + FLAG_NO_PULSE))
    reason := 0, status := 0, crcCalc := crc, crcTrl := crc, blocks := bs, closed := true, asked := 0, sketch := false }

/-! ### Closing a frame (R243, R244, R251 to R254) -/

/-- A record that is complete: its leaves take the stream's append pointer with them. -/
def State.closeRec (s : State) (id : Nat) : State :=
  match s.rec? id with
  | none => s
  | some r =>
    let s1 := s.mapRec id (fun r => { r with closed := true })
    let s1 := { s1 with frm := { s1.frm with ptr := s1.frm.ptr.put r.stream (r.leaf0 + r.units) } }
    (State.askUnits 70000 id s1).settle id

/-- A frame or orphan piece closes: `flags` join those it carries, a trailer's CRC-32C is stored, and the sketch of its
source begins. -/
def State.closeFrame (s : State) (id flags : Nat) (trailer : Option Nat) : State :=
  match s.rec? id with
  | none => s
  | some r =>
    if r.closed then s
    else
      let len := 8 * r.blocks.length
      let crc := crc32c (blockBytes r.blocks)
      let headed := Nat.land r.flags FLAG_NO_HEADER = 0
      let decl := if headed then r.decl else len
      let fl := Nat.lor (Nat.lor r.flags flags) (if len < decl then FLAG_SHORT else 0)
      let r' := { r with decl := decl, flags := fl, crcCalc := crc, crcTrl := trailer.getD crc }
      let s1 := (s.mapRec id (fun _ => r')).closeRec id
      let s1 := if Nat.land fl FLAG_DAMAGED ≠ 0 then (s1.inc F.INGEST_FRAMES_DAMAGED).raise E.INGEST_DAMAGED else s1
      if r.sketch then
        let s2 := s1.openRec (s1.sketchOf r')
        s2.closeRec (s2.frm.nextId - 1)
      else s1

/-! ### Virtual channels (Table 08-2) -/

namespace VcS
/-- Table 08-2. -/
def IDLE : Nat := 0
/-- Table 08-2. -/
def IN_FRAME : Nat := 1
/-- Table 08-2. -/
def SEEKING : Nat := 2
/-- Table 08-2. -/
def PROVISIONAL : Nat := 3
end VcS

/-- A virtual channel. -/
def State.vc (s : State) (v : Nat) : Vc := s.ing.vcs.getD v {}

/-- Changes a virtual channel. -/
def State.setVc (s : State) (v : Nat) (x : Vc) : State := { s with ing := { s.ing with vcs := s.ing.vcs.set v x } }

/-- A virtual channel's state. -/
def State.vcState (s : State) (v : Nat) : Nat := s.getPart F.INGEST_VC_STATE_STATE v 2

/-- Gives a virtual channel a state. -/
def State.setVcState (s : State) (v x : Nat) : State := s.setPart F.INGEST_VC_STATE_STATE v 2 x

/-- The orphan piece of a virtual channel closes (R245). -/
def State.closeOrphan (s : State) (v : Nat) (trailer : Option Nat) : State :=
  match (s.vc v).orphan with
  | none => s
  | some id =>
    ((s.setVc v { s.vc v with orphan := none }).setBitTo F.INGEST_VC_STATE_ORPHAN v false).closeFrame id FLAG_DAMAGED trailer

/-- The frame in progress of a virtual channel closes. -/
def State.closeVc (s : State) (v flags : Nat) (trailer : Option Nat) : State :=
  match (s.vc v).frame with
  | none => s
  | some id => (s.setVc v { s.vc v with frame := none }).closeFrame id flags trailer

/-- R253: the link stops being aligned: READY clears, frames in progress close DAMAGED and every VC enters SEEKING. -/
def State.unalign (s : State) : State :=
  if s.get F.INGEST_STATUS_ALIGNED = 0 then s
  else
    let s1 := ((s.set F.INGEST_STATUS_ALIGNED 0).set F.INGEST_STATUS_READY 0).raise E.INGEST_ALIGN_LOST
    let s1 := (List.range 8).foldl (fun s v =>
      let s := (s.closeVc v FLAG_DAMAGED none).setVcState v VcS.SEEKING
      s.setVc v { s.vc v with hdr := none }) s1
    { s1 with ing := { s1.ing with cur := 0 } }

/-! ### Takes close (R262, R263) -/

/-- The frames of a take that are not durable yet. -/
def State.takeRecs (s : State) (num : Nat) : List FrameRec := s.frm.recs.filter (fun r => r.take = num)

/-- Entries of a take in the index. -/
def State.takeEntries (s : State) (num : Nat) : List Entry := s.map.ts.entries.filter (fun e => e.take = num)

/-- Orphan pieces of a take close on every VC (R245). -/
def State.closeTakeOrphans (s : State) (num : Nat) : State :=
  (List.range 8).foldl (fun s v => match (s.vc v).orphan with
    | some id => if (s.rec? id).any (fun r => r.take = num) then s.closeOrphan v none else s
    | none => s) s

/-- Frames in progress of a take close DAMAGED (R250, R262): later blocks are orphans. -/
def State.closeTakeFrames (s : State) (num : Nat) : State :=
  (List.range 8).foldl (fun s v => match (s.vc v).frame with
    | some id => if (s.rec? id).any (fun r => r.take = num) then (s.closeVc v FLAG_DAMAGED none).setVcState v VcS.SEEKING else s
    | none => s) s

/-- A take becomes CLOSED: its record is journaled, TAKE_CLOSE rises, and an abnormal end is reported (Table 09-1). -/
def State.takeClosed (s : State) (t : Take) (reason : Nat) : State :=
  let t' := { t with phase := 2, reason := reason, tbClose := s.tb, stopper := none }
  let s1 := (s.noteTake t').raise E.FRAME_TAKE_CLOSE
  if reason = 1 then s1 else (s1.raise E.FRAME_TAKE_CLOSE_ABNORMAL).vendorEvent 0x02 0xC1

/-! ### The frame index (R272, R275) -/

/-- The entry of a record (Table 09-3). -/
def State.entryOf (s : State) (r : FrameRec) : Entry :=
  let per := match s.nv.nses.find? r.nsid with
    | some n => if 3 ≤ n.fmt then 8 else 1
    | none => 1
  { frame := r.frame, take := r.take, stream := r.stream, src := r.src, flags := r.flags, piece := r.piece, tc := r.tc
    status := r.status, timecode := r.timecode, user := r.user, tbSync := r.tbSync, tbPulse := r.tbPulse, cal := r.cal
    startLba := per * ((s.streamCfg r.stream).base * 64 + r.leaf0), nsid := r.nsid, reason := r.reason, gap := r.gap
    length := 8 * r.blocks.length, decl := r.decl, crcCalc := r.crcCalc, crcTrl := r.crcTrl
    sha := Config.sha256 (blockBytes r.blocks) % 2 ^ 256 }

/-- The 128 bytes of an entry, ENTRY_CRC last. -/
def entryBytes (e : Entry) : List Nat :=
  let b := bytesOf 4 e.frame ++ bytesOf 4 e.take ++ [e.stream % 256, e.src % 256] ++ bytesOf 2 e.flags ++ bytesOf 2 e.piece ++
    [e.tc % 256, e.status % 32] ++ bytesOf 4 e.timecode ++ bytesOf 4 e.user ++ bytesOf 8 e.tbSync ++ bytesOf 8 e.tbPulse ++
    bytesOf 8 e.cal ++ bytesOf 8 e.startLba ++ [e.nsid % 256, e.reason % 256, 0, 0] ++ bytesOf 4 e.gap ++ bytesOf 4 e.length ++
    bytesOf 4 e.decl ++ bytesOf 4 e.crcCalc ++ bytesOf 4 e.crcTrl ++ (bytesOf 32 e.sha).reverse ++ List.replicate 12 0
  b ++ bytesOf 4 (crc32c b)

/-- The entries of a stream in a take, in index order. -/
def State.streamEntries (s : State) (take st : Nat) : List Entry :=
  s.map.ts.entries.filter (fun e => e.take = take && e.stream = st)

/-- R275: whole groups while they fit in `count`. -/
def takeGroups : Nat → Nat → List Entry → List Entry
  | 0, _, _ => []
  | n + 1, room, es =>
    match es with
    | [] => []
    | e :: _ =>
      let g := es.takeWhile (fun x => x.frame = e.frame)
      if g.length ≤ room then g ++ takeGroups n (room - g.length) (es.dropWhile (fun x => x.frame = e.frame)) else []

/-- R275: the entries a Frame Index Read returns and the next frame number. -/
def State.indexRead (s : State) (take st first count : Nat) : List Entry × Nat :=
  let es := s.streamEntries take st
  match es with
  | [] => ([], first)
  | e0 :: _ =>
    let d (f : Nat) : Nat := (f + 2 ^ 32 - e0.frame) % 2 ^ 32
    let from' := es.dropWhile (fun e => d e.frame < d first)
    let got := takeGroups from'.length count from'
    match got.getLast? with
    | some e => (got, (e.frame + 1) % 2 ^ 32)
    | none => match from' with
      | [] => ([], first)
      | e :: _ => ((from'.takeWhile (fun x => x.frame = e.frame)).take count, first)

/-- R211: a waiting Frame Index Read completes once an entry it names is there. -/
def State.serveWaits (s : State) : State :=
  s.frm.waits.foldl (fun s w =>
    let (es, next) := s.indexRead w.take w.stream w.first w.count
    if es = [] then s
    else
      State.okRec { s with frm := { s.frm with waits := s.frm.waits.filter (fun x => x.id ≠ w.id) } } w.id es.length next
        (es.map entryBytes).flatten) s

/-- R211: the waits on a take that is no longer live complete with 0 entries. -/
def State.dropWaits (s : State) (num : Nat) : State :=
  (s.frm.waits.filter (fun w => w.take = num)).foldl (fun s w =>
    State.ok { s with frm := { s.frm with waits := s.frm.waits.filter (fun x => x.id ≠ w.id) } } w.id 0 0xFFFFFFFF []) s

/-- R258: Take Starts complete whose open record has been journaled. -/
def State.takesOpened (s : State) : State :=
  s.frm.starts.foldl (fun s (c, num) =>
    match s.map.ts.takes.find? num with
    | some t =>
      let s1 := { s with frm := { s.frm with
        starts := s.frm.starts.filter (fun x => x.2 ≠ num)
        readPos := t.streams.foldl (fun p st => p.put st s.frm.pulses) s.frm.readPos
        pieces := t.streams.foldl (fun p st => p.del st) s.frm.pieces
        subCnt := t.streams.foldl (fun p st => p.del st) s.frm.subCnt
        capUnit := if t.streams.contains s.capStream then 0 else s.frm.capUnit } }
      let s1 := { s1 with ing := { s1.ing with
        expect := t.streams.foldl (fun p st => p.del st) s1.ing.expect
        vcs := s1.ing.vcs.map (fun (v : Vc) => if v.last.any t.streams.contains then { v with last := none } else v) } }
      (s1.raise E.FRAME_TAKE_OPEN).okRec c num 0 []
    | none => s) s

/-- What follows appends to the journal that had waited: index reads, opened takes, and appended entries. -/
def State.journaled (s : State) : State := s.takesOpened.serveWaits

/-! ### FRM_IN pulses (R266) -/

/-- A pulse joins the ring; streams that had not read an overwritten record move on, and the loss counts. -/
def State.addPulse (s : State) (p : Pulse) : State :=
  let ring := s.frm.ring ++ [p]
  let ring' := ring.drop (ring.length - 64)
  let total' := s.frm.pulses + 1
  let oldest := total' - ring'.length
  let late := s.frm.readPos.filter (fun e => e.2 < oldest && s.pulseEn e.1 && (s.takeOf e.1).isSome)
  let lost := total (late.map (fun e => oldest - e.2))
  let s1 := { s with frm := { s.frm with ring := ring', pulses := total', readPos := s.frm.readPos.map (fun (e : Nat × Nat) => (e.1, max e.2 oldest)) } }
  (s1.addSat F.FRAME_PULSE_STAT_PULSE_SKIP lost).raiseIf (lost ≠ 0) E.FRAME_PULSE_SKIP

/-- A pulse by its count. -/
def State.pulseAt (s : State) (n : Nat) : Option Pulse :=
  let oldest := s.frm.pulses - s.frm.ring.length
  if n < oldest then none else s.frm.ring[n - oldest]?

/-- R266 step 2: skips the pulses too old at `tb`. -/
def State.skipOld : Nat → Nat → State → State
  | 0, _, s => s
  | n + 1, st, s =>
    let pos := s.frm.readPos.get st s.frm.pulses
    match s.pulseAt pos with
    | some p =>
      if p.tb + 250 * s.get F.FRAME_PULSE_AGE_US < s.tb then
        State.skipOld n st ((State.inc { s with frm := { s.frm with readPos := s.frm.readPos.put st (pos + 1) } }
          F.FRAME_PULSE_STAT_PULSE_SKIP).raise E.FRAME_PULSE_SKIP)
      else s
    | none => s

/-- R266: pairs a header with a pulse. -/
def State.pairPulse (s : State) (st gap : Nat) : Option Pulse × State :=
  let pos := s.frm.readPos.get st s.frm.pulses + gap
  let s1 := State.skipOld 64 st { s with frm := { s.frm with readPos := s.frm.readPos.put st pos } }
  let pos := s1.frm.readPos.get st s1.frm.pulses
  match s1.pulseAt pos with
  | some p => (some p, { s1 with frm := { s1.frm with readPos := s1.frm.readPos.put st (pos + 1) } })
  | none => (none, (s1.inc F.FRAME_PULSE_STAT_NO_PULSE).raise E.FRAME_NO_PULSE)

/-! ### Accessory-serial capture (R277, R278, R284) -/

/-- The 32 bytes of a capture record (Table 09-6). -/
def CapRec.bytes32 (c : CapRec) : List Nat :=
  bytesOf 8 c.tb ++ [c.port, c.bytes.length, c.flags, 0] ++ (c.bytes ++ List.replicate (20 - c.bytes.length) 0)

/-- The blocks of 64 bits of a byte string. -/
def blocksOf (bs : List Nat) : List Nat := (List.range ((bs.length + 7) / 8)).map (fun i => ofBytes ((bs.drop (8 * i)).take 8))

/-- Capture units that wait for admission. -/
def State.capWaiting (s : State) : Nat :=
  (s.frm.recs.filter (fun r => Nat.land r.flags FLAG_CAPTURE ≠ 0 && s.led.reqs.any (fun q => q.slots.any (fun x => x.owner = .frame r.id)))).length

/-- R278: the capture unit closes and becomes a frame of the capture stream. -/
def State.closeCapture (s : State) : State :=
  match s.frm.capHead with
  | none => s
  | some h =>
    let bs := (s.frm.cap.map CapRec.bytes32).flatten
    let blocks := blocksOf (bs ++ List.replicate (4096 - bs.length) 0)
    let crc := crc32c (blockBytes blocks)
    let s1 := { s with frm := { s.frm with capHead := none, cap := [], capUnit := s.frm.capUnit + 1 } }
    let s1 := s1.openRec { h with frame := s.frm.capUnit % 2 ^ 32, blocks := blocks, crcCalc := crc, crcTrl := crc, closed := false }
    s1.closeRec (s1.frm.nextId - 1)

/-- The stamps of a capture unit at its first record (R278). -/
def State.capStart (s : State) (take tb : Nat) : FrameRec :=
  let st := s.capStream
  let n := s.tcNow (s.tcSrc st)
  { id := 0, take := take, stream := st, src := st, frame := 0, piece := 0, decl := 4096
    flags := FLAG_CAPTURE + (if n.drop then FLAG_DROP else 0), tc := n.used, status := 0, timecode := n.addr, user := n.user
    tbSync := tb, tbPulse := 0, cal := s.get F.TIME_CAL, gap := 0, reason := 0, crcCalc := 0, crcTrl := 0, blocks := []
    closed := false, leaf0 := 0, nsid := 0, asked := 0, sketch := false }

/-- The open capture record of a port takes another byte. -/
def State.capJoin (s : State) (port tb : Nat) (b : Nat) (fl : Nat) : State :=
  { s with frm := { s.frm with cap := s.frm.cap.map (fun c => if c.port = port && c.isOpen then
      { c with bytes := c.bytes ++ [b], flags := Nat.lor c.flags fl, lastTb := tb } else c) } }

/-- A new capture record of a port. -/
def State.capNew (s : State) (port tb : Nat) (bytes : List Nat) (fl : Nat) (more : Bool) : State :=
  let lostFlag := if s.frm.capLost.getD port 0 = 1 then 4 else 0
  let cap := s.frm.cap.map (fun c => if c.port = port then { c with isOpen := false } else c)
  let s1 := { s with frm := { s.frm with cap := cap ++ [⟨port, tb, fl + lostFlag, bytes, tb, more⟩], capLost := s.frm.capLost.set port 0 } }
  if s1.frm.cap.length = 128 && !more then s1.closeCapture else s1

/-- R277: what a port receives while the capture stream is in a live take: a byte (`some`) or a break. -/
def State.capture (s : State) (port tb : Nat) (b : Option Nat) (framing : Bool) : State :=
  match s.takeOf s.capStream with
  | none => s
  | some t =>
    if s.get (if port = 0 then F.FRAME_ACAP_EN0 else F.FRAME_ACAP_EN1) = 0 then s
    else
      let fl := if framing then 1 else 0
      let joins := match b, s.frm.cap.find? (fun c => c.port = port && c.isOpen) with
        | some _, some c => c.bytes.length < 20 && decide (tb ≤ c.lastTb + 250 * s.get F.FRAME_ACAP_RUN_US)
        | _, _ => false
      if joins then s.capJoin port tb (b.getD 0) fl
      else
        let s1 := if s.frm.cap.length = 128 then s.closeCapture else s
        if 2 ≤ s1.capWaiting then
          (State.inc { s1 with frm := { s1.frm with capLost := s1.frm.capLost.set port 1 } } F.FRAME_ACAP_STAT_OVERRUN).raise
            E.FRAME_ACAP_OVERRUN
        else
          let s2 := if s1.frm.capHead.isNone then { s1 with frm := { s1.frm with capHead := some (s1.capStart t.num tb) } } else s1
          match b with
          | some x => s2.capNew port tb [x] fl true
          | none => s2.capNew port tb [] 2 false

end Sys2Proof.Machine
end

