-- ==== Sys2Proof/Machine/Ingest.lean ====
section
/-!
DEFINITION. The Busaist link (chapter 08): lanes and alignment, logical blocks, frames on virtual channels, the back
channel, and the enable of the link.
-/

namespace Sys2Proof.Machine

/-! ### Headers (R239 to R242) -/

/-- One bit of the CRC-16 of T10-DIF, most significant bit first. -/
def crc16Bit (c : Nat) : Nat := if c / 32768 % 2 = 1 then Nat.xor (c * 2 % 65536) 0x8BB7 else c * 2 % 65536

/-- The CRC-16 of T10-DIF over a byte string (R239). -/
def crc16 (bs : List Nat) : Nat := bs.foldl (fun c b => (List.range 8).foldl (fun c _ => crc16Bit c) (Nat.xor c (b % 256 * 256))) 0

/-- A frame header (Table 08-3). -/
structure FrameHdr where
  version : Nat
  flags   : Nat
  stream  : Nat
  frame   : Nat
  length  : Nat
  timecode : Nat
  crcOk   : Bool
  deriving DecidableEq, Repr

/-- The header in two data blocks. -/
def parseHdr (h0 h1 : Nat) : FrameHdr :=
  let w := h0 % 2 ^ 64 + h1 % 2 ^ 64 * 2 ^ 64
  ⟨bits w 6 2, bits w 0 6, bits w 8 8, bits w 16 32, bits w 48 32, bits w 80 32, crc16 (bytesOf 14 w) = bits w 112 16⟩

/-- MAX_LEN_MIB in bytes. -/
def State.maxLen (s : State) : Nat := s.get F.INGEST_CFG_MAX_LEN_MIB * 2 ^ 20

/-- R242: a stream is bound: enabled, in an OPEN take, and not generated inside the device. -/
def State.bound (s : State) (st : Nat) : Bool :=
  s.getBit (F.INGEST_STREAM_EN_EN (st / 64)) (st % 64) && (s.takeOf st).any (fun t => t.phase = 0) && !s.generated st

/-- A VC other than `v` has a frame or an orphan piece of a stream in progress. -/
def State.busyElsewhere (s : State) (v st : Nat) : Bool :=
  (List.range 8).any (fun w => w ≠ v &&
    [(s.vc w).frame, (s.vc w).orphan].any (fun o => o.any (fun id => (s.rec? id).any (fun r => r.stream = st))))

/-- R240: FRAME lies in the stream's expected window; in PROVISIONAL the window is E alone. -/
def State.inWindow (s : State) (v st frame : Nat) : Bool :=
  match s.ing.expect.find? st with
  | none => true
  | some e => (frame + 2 ^ 32 - e) % 2 ^ 32 ≤ (if s.vcState v = VcS.PROVISIONAL then 0 else s.get F.INGEST_CFG_MAX_GAP)

/-- What the check of a header finds first (R240). -/
inductive HdrErr where
  | crc | field | unbound | busy | window | ok
  deriving DecidableEq, Repr

/-- R240, in the order listed. -/
def State.judgeHdr (s : State) (v : Nat) (h : FrameHdr) : HdrErr :=
  if !h.crcOk then .crc
  else if h.version ≠ 1 || h.length % 8 ≠ 0 || h.length < 8 || s.maxLen < h.length then .field
  else if !s.bound h.stream then .unbound
  else if s.busyElsewhere v h.stream then .busy
  else if !s.inWindow v h.stream h.frame then .window
  else .ok

/-! ### Data of a virtual channel (R244, R245, R251) -/

/-- A data block that nothing captures is discarded and counted in units of 512 (R245, R255). -/
def State.unboundBlock (s : State) : State :=
  let n := s.ing.unbound + 1
  let s1 := { s with ing := { s.ing with unbound := n % 512 } }
  if n = 512 then s1.inc F.INGEST_PROTO_UNBOUND_BLOCKS else s1

/-- The state of a VC after a frame of it has closed: a DAMAGED close takes PROVISIONAL back to SEEKING (R252). -/
def State.vcAfter (s : State) (v : Nat) (damaged : Bool) : State :=
  if s.vcState v = VcS.IN_FRAME then s.setVcState v VcS.IDLE
  else if s.vcState v = VcS.PROVISIONAL && damaged then s.setVcState v VcS.SEEKING
  else s

/-- The frame of a VC closes, and the VC with it. -/
def State.endFrame (s : State) (v flags : Nat) (trailer : Option Nat) : State :=
  let fl := Nat.lor flags (if (s.vc v).damaged then FLAG_DAMAGED else 0)
  (((s.closeVc v fl trailer).setVc v { (s.vc v) with frame := none, damaged := false })).vcAfter v (Nat.land fl FLAG_DAMAGED ≠ 0)

/-- The stamps of a record that opens now without a header: an orphan piece (R245). -/
def State.orphanRec (s : State) (t : Take) (st piece : Nat) : FrameRec :=
  let n := s.tcNow (s.tcSrc st)
  { id := 0, take := t.num, stream := st, src := st, frame := (s.ing.expect.get st 0 + 2 ^ 32 - 1) % 2 ^ 32, piece := piece, decl := 0
    flags := FLAG_DAMAGED + FLAG_NO_HEADER + (if n.drop then FLAG_DROP else 0), tc := n.used, status := 0, timecode := n.addr
    user := n.user, tbSync := s.tb, tbPulse := 0, cal := s.get F.TIME_CAL, gap := 0, reason := 0, crcCalc := 0, crcTrl := 0
    blocks := [], closed := false, leaf0 := 0, nsid := 0, asked := 0, sketch := false }

/-- R245, R283: a data block that no frame takes joins the VC's orphan piece, opens one, or is discarded. -/
def State.orphanBlock (s : State) (v b : Nat) : State :=
  match (s.vc v).orphan with
  | some id =>
    let s1 := s.addBlock id b
    if (s1.rec? id).any (fun r => s1.maxLen ≤ 8 * r.blocks.length) then s1.closeOrphan v none else s1
  | none =>
    match (s.vc v).last with
    | none => s.unboundBlock
    | some st =>
      match s.takeOf st with
      | none => s.unboundBlock
      | some t =>
        if s.busyElsewhere v st then s.unboundBlock
        else
          let piece := s.frm.pieces.get st 0 + 1
          if 4095 < piece then s.unboundBlock.raise E.FRAME_ORPHAN_LIMIT
          else
            let s1 := s.openRec (s.orphanRec t st piece)
            let id := s1.frm.nextId - 1
            let s1 := { s1 with frm := { s1.frm with pieces := s1.frm.pieces.put st piece } }
            let s1 := ((s1.setVc v { s1.vc v with orphan := some id }).setBitTo F.INGEST_VC_STATE_ORPHAN v true)
            ((s1.inc F.INGEST_GAP_ORPHANS).raise E.INGEST_ORPHAN).addBlock id b

/-- A data block of a VC outside a header. -/
def State.vcData (s : State) (v b : Nat) : State :=
  match (s.vc v).frame with
  | some id =>
    if (s.rec? id).any (fun r => 8 * r.blocks.length < r.decl) then s.addBlock id b
    else
      (((s.inc F.INGEST_CHK_TERM_MISSING).endFrame v FLAG_DAMAGED none).setVcState v VcS.SEEKING).orphanBlock v b
  | none => s.orphanBlock v b

/-- R240, R252: a header is rejected: its count, HDR_REJECT, and PROVISIONAL returns to SEEKING; its blocks are data. -/
def State.rejectHdr (s : State) (v : Nat) (f : Option Field) (blocks : List Nat) : State :=
  let s1 := match f with
    | some f => s.inc f
    | none => s
  let s1 := s1.raise E.INGEST_HDR_REJECT
  let s1 := if s1.vcState v = VcS.PROVISIONAL then s1.setVcState v VcS.SEEKING else s1
  blocks.foldl (fun s b => s.vcData v b) s1

/-- R264 to R266: the record of an accepted header, with its stamps. -/
def State.acceptRec (s : State) (v : Nat) (h : FrameHdr) (t : Take) (gap : Nat) : FrameRec × State :=
  let (pulse, s1) := if s.pulseEn h.stream then s.pairPulse h.stream gap else (none, s)
  let noPulse := s.pulseEn h.stream && pulse.isNone
  let (sub, s1) := s1.takeSub h.stream
  let src := s.tcSrc h.stream
  let now := s1.tcNow src
  let useHdr := src = 0 && bit h.flags 0
  let (used, addr, user, drop, sub) :=
    if useHdr then (1, h.timecode, 0, bit h.flags 1, sub)
    else match pulse with
      | some p => (p.src, p.addr, p.user, p.drop, min p.sub 15)
      | none => (now.used, now.addr, now.user, now.drop, sub)
  let re := s.vcState v = VcS.SEEKING || s.vcState v = VcS.PROVISIONAL
  let want := s.sketchEn h.stream
  let fits := h.length = s.sketchLen h.stream
  let s1 := if want && !fits then (s1.inc F.FRAME_SKETCH_STAT_SKIP).raise E.FRAME_SKETCH_SKIP else s1
  ({ id := 0, take := t.num, stream := h.stream, src := h.stream, frame := h.frame, piece := 0, decl := h.length
     flags := (if re then FLAG_RESYNC else 0) + (if bit h.flags 2 then FLAG_HEAD_ERROR else 0) +
       (if bit h.flags 0 then FLAG_HDR_TC else 0) + (if drop then FLAG_DROP else 0) + (if gap ≠ 0 then FLAG_GAP else 0) +
       (if noPulse then FLAG_NO_PULSE else 0)
     tc := used + 4 * sub, status := 0, timecode := addr, user := user, tbSync := s.tb
     tbPulse := match pulse with
       | some p => p.tb
       | none => 0
     cal := s.get F.TIME_CAL, gap := gap, reason := 0, crcCalc := 0, crcTrl := 0, blocks := [], closed := false, leaf0 := 0
     nsid := 0, asked := 0, sketch := want && fits }, s1)

/-- R240 to R242: a header is accepted. -/
def State.acceptHdr (s : State) (v : Nat) (h : FrameHdr) : State :=
  match s.takeOf h.stream with
  | none => s
  | some t =>
    let gap := match s.ing.expect.find? h.stream with
      | some e => (h.frame + 2 ^ 32 - e) % 2 ^ 32
      | none => 0
    let s1 := s.closeOrphan v none
    let (r, s1) := s1.acceptRec v h t gap
    let s1 := if gap ≠ 0 then ((s1.inc F.INGEST_GAP_GAP_EVENTS).addSat F.INGEST_GAP_FRAMES_SKIPPED gap).raise E.INGEST_GAP else s1
    let s1 := (s1.openRec r).inc F.INGEST_FRAMES_ACCEPTED
    let id := s1.frm.nextId - 1
    let s1 := { s1 with
      ing := { s1.ing with expect := s1.ing.expect.put h.stream ((h.frame + 1) % 2 ^ 32) }
      frm := { s1.frm with pieces := s1.frm.pieces.put h.stream 0 } }
    let s1 := (s1.setVc v { s1.vc v with frame := some id, last := some h.stream, damaged := false }).setPart
      F.INGEST_VC_STREAM_STREAM v 8 h.stream
    s1.setVcState v (if s.vcState v = VcS.SEEKING then VcS.PROVISIONAL else VcS.IN_FRAME)

/-- What a complete header of a VC does, by what its check finds first (R240, R252, R255). -/
def State.headerAs (s : State) (v h0 h1 : Nat) (j : HdrErr) : State :=
  match j with
  | .crc => s.rejectHdr v (some F.INGEST_HDR_ERR_CRC) [h0, h1]
  | .field => s.rejectHdr v (some F.INGEST_HDR_ERR_BAD_FIELD) [h0, h1]
  | .busy => s.rejectHdr v (some F.INGEST_HDR_ERR_STREAM_BUSY) [h0, h1]
  | .window => s.rejectHdr v (some F.INGEST_HDR_ERR_OUT_OF_WINDOW) [h0, h1]
  | .unbound =>
    let s1 := (((s.closeOrphan v none).inc F.INGEST_PROTO_UNBOUND_FRAMES).raise E.INGEST_UNBOUND).raise E.INGEST_HDR_REJECT
    ((s1.setVcState v VcS.SEEKING).setVc v { s1.vc v with last := none }).unboundBlock.unboundBlock
  | .ok => s.acceptHdr v (parseHdr h0 h1)

/-- The header of a VC is complete: it is judged and acted upon (R240, R241). -/
def State.header (s : State) (v h0 h1 : Nat) : State := s.headerAs v h0 h1 (s.judgeHdr v (parseHdr h0 h1))

/-- R239: header collection of the current VC is cut short: the blocks it holds are data. -/
def State.cutHeader (s : State) (v : Nat) : State :=
  match (s.vc v).hdr with
  | none => s
  | some bs => State.rejectHdr (s.setVc v { s.vc v with hdr := none }) v none bs

/-! ### Logical blocks (Table 08-1) -/

/-- The fixed pattern of a SYNC, bytes 2 to 7. -/
def syncPattern : Nat := 0x3C0FE196C35A

/-- Bits in which two numbers of 48 bits differ. -/
def hamming48 (a b : Nat) : Nat := total ((List.range 48).map (fun i => b2n (bit a i != bit b i)))

/-- R236: a malformed or unknown control block is counted and treated as IDLE. -/
def State.badCtrl (s : State) : State := s.inc F.INGEST_PROTO_BAD_CTRL

/-- A SYNC candidate selects its VC, closes a frame in progress there, and opens header collection (R240, R254). -/
def State.syncBlock (s : State) (v : Nat) : State :=
  let s1 := s.cutHeader s.ing.cur
  let s1 := { s1 with ing := { s1.ing with cur := v } }
  let s1 := match (s1.vc v).frame with
    | some id =>
      let full := (s1.rec? id).any (fun (r : FrameRec) => r.decl ≤ 8 * r.blocks.length)
      let s2 := (s1.inc F.INGEST_CHK_TERM_MISSING).endFrame v FLAG_DAMAGED none
      if full then s2.setVcState v VcS.SEEKING else s2
    | none => s1
  s1.setVc v { s1.vc v with hdr := some [] }

/-- A TERM closes its VC's frame (R243, R254). -/
def State.termBlock (s : State) (named status crc frame : Nat) : State :=
  let v := s.ing.cur
  let s1 := s.cutHeader v
  match (s1.vc v).frame with
  | some id =>
    match s1.rec? id with
    | none => s1
    | some r =>
      let s2 := s1.mapRec id (fun r => { r with status := status })
      if r.decl ≤ 8 * r.blocks.length then
        if named = v && frame = r.frame % 65536 then
          if crc32c (blockBytes r.blocks) = crc then s2.endFrame v 0 (some crc)
          else ((s2.inc F.INGEST_CHK_CHECK_DOUBT).raise E.INGEST_CHECK_DOUBT).endFrame v FLAG_DOUBT (some crc)
        else (s2.inc F.INGEST_CHK_TERM_MISMATCH).endFrame v FLAG_DAMAGED (some crc)
      else s2.endFrame v FLAG_DAMAGED (some crc)
  | none => if (s1.vc v).orphan.isSome then s1.closeOrphan v (some crc) else s1.badCtrl

/-- An ABORT closes its VC's frame DAMAGED with the reason and returns the VC to IDLE (R254). -/
def State.abortBlock (s : State) (v reason : Nat) : State :=
  let s1 := s.cutHeader v
  match (s1.vc v).frame with
  | some id =>
    (((s1.mapRec id (fun r => { r with reason := reason })).inc F.INGEST_CHK_ABORTS).endFrame v
      (FLAG_DAMAGED + FLAG_ABORTED) none).setVcState v VcS.IDLE
  | none => if (s1.vc v).orphan.isSome then s1.closeOrphan v none else s1.badCtrl

/-- A control block of the logical stream, as its 64-bit payload (Table 08-1). -/
def State.controlBlock (s : State) (p : Nat) : State :=
  let b (i : Nat) : Nat := p / 256 ^ i % 256
  if b 0 = 0x1E then (if p / 256 = 0 then s else s.badCtrl)
  else if b 0 = 0x33 then
    (if b 1 < 8 && hamming48 (p / 65536) syncPattern ≤ s.get F.INGEST_CFG_PATTERN_TOL then s.syncBlock (b 1) else s.badCtrl)
  else if b 0 = 0x4B then
    (if b 1 < 8 && p / 65536 = 0 then
      let s1 := s.cutHeader s.ing.cur
      { s1 with ing := { s1.ing with cur := b 1 } }
    else s.badCtrl)
  else if b 0 = 0x55 then s.termBlock (b 1 % 8) (b 1 / 8) (bits p 16 32) (bits p 48 16)
  else if b 0 = 0x66 then (if b 1 < 8 && p / 2 ^ 24 = 0 then s.abortBlock (b 1) (b 2) else s.badCtrl)
  else s.badCtrl

/-- A data block of the logical stream: it joins the header the current VC collects, or the VC's data. -/
def State.dataBlock (s : State) (b : Nat) : State :=
  let v := s.ing.cur
  match (s.vc v).hdr with
  | some [] => s.setVc v { s.vc v with hdr := some [b] }
  | some (h0 :: _) => State.header (s.setVc v { s.vc v with hdr := none }) v h0 b
  | none => s.vcData v b

/-- R256: a data block beyond CREDIT is counted; one that finds the overflow area full is lost, and its frame closes. -/
def State.receiveData (s : State) (b : Nat) : State :=
  let beyond := s.ing.fc ≤ s.ing.blocks / 512
  let full := 64 * 512 + 2048 ≤ s.elasticBlocks
  let s1 := { s with ing := { s.ing with blocks := s.ing.blocks + 1 } }
  let s1 := if beyond then (s1.inc F.INGEST_PROTO_CREDIT_VIOL).raise E.INGEST_CREDIT_VIOL else s1
  if beyond && full then
    (if ((s1.vc s1.ing.cur).frame).isSome then (s1.endFrame s1.ing.cur FLAG_DAMAGED none).setVcState s1.ing.cur VcS.SEEKING else s1)
  else s1.dataBlock b

/-- The stop of the link completes once no frame is in progress and the elastic buffer has drained (R250). -/
def State.ingestStopCheck (s : State) : State :=
  if s.get F.INGEST_STATUS_FSTATE = 3 && (List.range 8).all (fun v => (s.vc v).frame.isNone) && s.elasticBlocks = 0 then
    let s1 := (((s.unalign.clearReady [Fn.BUSAIST_LINK]).set F.INGEST_STATUS_FSTATE 0).set F.INGEST_STATUS_LOCKED 0)
    let s1 := { s1 with ing := { s1.ing with wasUp := false } }
    if s.get F.INGEST_STATUS_REENABLE_PENDING = 1 then
      (s1.set F.INGEST_STATUS_REENABLE_PENDING 0).set F.INGEST_STATUS_FSTATE 1
    else s1
  else s

/-- One block of the logical stream after the injector (R233, R236, R591). -/
def State.block (s : State) (control : Bool) (payload : Nat) : State :=
  (if control then s.controlBlock payload else s.receiveData payload).ingestStopCheck

/-- The block that injector 0 holds back is delivered once its window has passed. -/
def State.passHeld (s : State) : State :=
  match s.fi.block with
  | some (c, p, n) =>
    if n ≤ 1 then
      (State.block { s with fi := { s.fi with block := none } } c p).set (F.FI_CFG_STATE 0)
        (if s.get (F.FI_CFG_SHOT 0) = 1 then 3 else 1)
    else { s with fi := { s.fi with block := some (c, p, n - 1) } }
  | none => s

/-- A logical block as it comes from the lanes: formed while the link is aligned (R235), through injector 0 (Table 20-4). A
data block of a link that is not aligned counts as received and as having left. -/
def State.logical (s : State) (control : Bool) (payload : Nat) : State :=
  if s.get F.INGEST_STATUS_ALIGNED = 0 then
    (if control then s else { s with ing := { s.ing with blocks := s.ing.blocks + 1 } })
  else
    let (d, s1) := s.fiUnit 0
    match d with
    | .drop => (if control then s1 else { s1 with ing := { s1.ing with blocks := s1.ing.blocks + 1 } }).passHeld
    | .reorder => { s1 with fi := { s1.fi with block := some (control, payload, s1.get (F.FI_POS_WINDOW 0)) } }.set (F.FI_CFG_STATE 0) 2
    | .corrupt =>
      let (ws, s2) := s1.fiCorrupt 0 true [payload]
      (s2.block control (ws.getD 0 payload)).passHeld
    | .pass =>
      if s1.fi.carry.getD 0 0 ≠ 0 then
        let (ws, s2) := s1.fiCorrupt 0 false [payload]
        (s2.block control (ws.getD 0 payload)).passHeld
      else (s1.block control payload).passHeld

/-! ### Lanes and alignment (R232 to R235) -/

/-- A lane acquires block lock after slipping. -/
def execLaneBlockLock (lane slips : Nat) (s : State) : Host.Outcome State Fault Refusal :=
  done (if lane < 8 && s.get F.INGEST_STATUS_FSTATE ≠ 0 then
    (s.addSat (F.INGEST_LANE_SLIPS lane) slips).setBitTo F.INGEST_STATUS_LOCKED lane true
  else s)

/-- A lane in use: it carries a logical lane below the configured count (R230). -/
def State.laneUsed (s : State) (lane : Nat) : Bool := s.get (F.INGEST_LANE_LOGICAL lane) < s.get F.INGEST_CFG_LANES

/-- A locked lane loses lock; a logical lane takes the link out of alignment (R232, R235). -/
def execLockLoss (lane : Nat) (s : State) : Host.Outcome State Fault Refusal :=
  done (if lane < 8 && s.getBit F.INGEST_STATUS_LOCKED lane then
    let s1 := ((s.setBitTo F.INGEST_STATUS_LOCKED lane false).inc (F.INGEST_LANE_LOCK_LOSS lane)).raise E.INGEST_LOCK_LOSS
    if s.laneUsed lane then s1.unalign.ingestStopCheck else s1
  else s)

/-- A block with an invalid sync header stays as eight zero bytes and damages what it falls in (R233). -/
def execBadSyncHeader (lane : Nat) (s : State) : Host.Outcome State Fault Refusal :=
  done (if lane < 8 && s.getBit F.INGEST_STATUS_LOCKED lane then
    let s1 := s.inc (F.INGEST_LANE_BAD_SH lane)
    if s.laneUsed lane && s.get F.INGEST_STATUS_ALIGNED = 1 then
      let v := s.ing.cur
      let s1 := if (s1.vc v).frame.isSome then s1.setVc v { s1.vc v with damaged := true } else s1
      s1.logical false 0
    else s1
  else s)

/-- The ALIGN blocks of one position that count: on locked lanes, naming a logical lane below the count (R230). -/
def State.alignsUsed (s : State) (bs : List AlignBlk) : List AlignBlk :=
  bs.filter (fun b => s.getBit F.INGEST_STATUS_LOCKED b.lane && b.logical < s.get F.INGEST_CFG_LANES)

/-- R234, R235: the ALIGN blocks of one position match. -/
def State.alignOk (s : State) (bs : List AlignBlk) : Bool :=
  let n := s.get F.INGEST_CFG_LANES
  bs.length = n && (List.range n).all (fun l => bs.any (fun b => b.logical = l)) &&
    bs.all (fun b => b.seq = (bs.headD ⟨0, 0, 0, 0, 0⟩).seq && b.count = n && b.skew ≤ 64)

/-- ALIGN blocks of one position align the lanes, or take the link out of alignment (R234, R235). -/
def execBusaistAlign (blks : List AlignBlk) (s : State) : Host.Outcome State Fault Refusal :=
  done (
    if s.get F.INGEST_STATUS_FSTATE = 0 then s
    else
      let bs := s.alignsUsed blks
      let s1 := bs.foldl (fun s b => (s.set (F.INGEST_LANE_LOGICAL b.lane) b.logical).set (F.INGEST_LANE_SKEW_UI b.lane) b.skew) s
      if s.alignOk bs then
        if s.get F.INGEST_STATUS_ALIGNED = 1 then s1
        else
          let s2 := (s1.set F.INGEST_STATUS_ALIGNED 1).raise E.INGEST_ALIGNED
          let s2 := if s.ing.wasUp then s2.inc F.INGEST_LINK_REALIGNS
            else { s2 with ing := { s2.ing with wasUp := true, fc := 64 + s.ing.blocks / 512 } }
          let s2 : State := { s2 with ing := { s2.ing with cur := 0 } }
          let s2 := if s2.get F.INGEST_STATUS_FSTATE = 1 then
            (if s2.get F.INGEST_CTL_EN = 1 then s2.set F.INGEST_STATUS_FSTATE 2 else s2.set F.INGEST_STATUS_FSTATE 3) else s2
          (if s2.needsOk Fn.BUSAIST_LINK then s2.setReady Fn.BUSAIST_LINK else s2).ingestStopCheck
      else if s.get F.INGEST_STATUS_ALIGNED = 1 then
        ((s1.inc F.INGEST_LINK_ALIGN_FAIL).raise E.INGEST_ALIGN_FAIL).unalign.ingestStopCheck
      else s1)

/-- No ALIGN arrives within the interval: the link leaves alignment (R235). -/
def execAlignTimeout (s : State) : Host.Outcome State Fault Refusal :=
  done (if s.get F.INGEST_STATUS_ALIGNED = 1 then
    ((s.inc F.INGEST_LINK_ALIGN_FAIL).raise E.INGEST_ALIGN_FAIL).unalign.ingestStopCheck else s)

/-! ### Logical blocks -/

/-- A SYNC candidate (R240): its byte 1 and its pattern. -/
def execBusaistSync (b1 pattern : Nat) (s : State) : Host.Outcome State Fault Refusal :=
  done (s.logical true (0x33 + b1 % 256 * 2 ^ 8 + pattern % 2 ^ 48 * 2 ^ 16))

/-- The two header blocks after a SYNC (R239, R240). -/
def execFrameHeader (h0 h1 : Nat) (s : State) : Host.Outcome State Fault Refusal :=
  done (State.logical (s.ioArrival.logical false (h0 % 2 ^ 64)) false (h1 % 2 ^ 64))

/-- A SWITCH selects the VC of the following data (R237). -/
def execBusaistSwitch (vc : Nat) (s : State) : Host.Outcome State Fault Refusal :=
  done (s.logical true (0x4B + vc % 8 * 2 ^ 8))

/-- A data block (R244, R245). -/
def execFrameDataBlock (payload : Nat) (s : State) : Host.Outcome State Fault Refusal :=
  done (s.logical false (payload % 2 ^ 64))

/-- A TERM (R243). -/
def execBusaistTerm (vc status crc frame : Nat) (s : State) : Host.Outcome State Fault Refusal :=
  done (s.logical true (0x55 + (vc % 8 + status % 32 * 8) * 2 ^ 8 + crc % 2 ^ 32 * 2 ^ 16 + frame % 2 ^ 16 * 2 ^ 48))

/-- An ABORT (R254). -/
def execBusaistAbort (vc reason : Nat) (s : State) : Host.Outcome State Fault Refusal :=
  done (s.logical true (0x66 + vc % 8 * 2 ^ 8 + reason % 256 * 2 ^ 16))

/-- A control block as received: one that Table 08-1 does not list, or malformed, is counted and treated as IDLE (R236). -/
def execBadCtrl (payload : Nat) (s : State) : Host.Outcome State Fault Refusal := done (s.logical true (payload % 2 ^ 64))

/-! ### Back channel (R246 to R249) -/

/-- READY: the link is aligned and INGEST is set (R248). -/
def State.ingestReady (s : State) : Bool := s.get F.INGEST_STATUS_ALIGNED = 1 && s.ready Fn.INGEST

/-- XOFF: under R152, or while the link stops (R250). -/
def State.ingestXoff (s : State) : Bool := s.get F.LEDGER_STATUS_XOFF = 1 || s.get F.INGEST_STATUS_FSTATE = 3

/-- LOCKED of an FC block: the logical lanes that hold block lock (Table 08-4). -/
def State.logicalLocked (s : State) : Nat :=
  total ((List.range 8).map (fun l => if s.laneUsed l && s.getBit F.INGEST_STATUS_LOCKED l then 2 ^ (s.get (F.INGEST_LANE_LOGICAL l) % 8) else 0))

/-- An FC block leaves: XOFF, READY and CREDIT as they stand, with the time a stop has shown (R246 to R249). -/
def execFcBlock (s : State) : Host.Outcome State Fault Refusal :=
  done (
    if s.get F.INGEST_STATUS_FSTATE = 0 then s
    else
      let rdy := s.ingestReady
      let xof := s.ingestXoff
      let cr := max s.ing.fc s.creditNow
      let seq := (s.ing.fcSeq + 1) % 256
      let b := [0x78, b2n xof + 2 * b2n rdy] ++ bytesOf 3 cr ++ [s.logicalLocked, seq]
      let stop := xof || !rdy
      let s1 := match s.ing.stopFrom with
        | some t => s.addWrap F.INGEST_XOFF_TIME_TICKS (s.tb - t)
        | none => s
      let s1 := (s1.set F.INGEST_STATUS_READY (b2n rdy)).set F.INGEST_STATUS_XOFF (b2n xof)
      let s1 := s1.raiseIf (xof && s.get F.INGEST_STATUS_XOFF = 0) E.INGEST_XOFF
      let s1 := s1.raiseIf (!xof && s.get F.INGEST_STATUS_XOFF = 1) E.INGEST_XON
      { s1 with ing := { s1.ing with
          fc := cr, fcSeq := seq, fcSent := b ++ [crc32c b % 256], stopFrom := if stop then some s.tb else none } })

/-! ### Enable and stop of the link (R111, R250) -/

/-- The link starts where its enable is set, INGEST is ON and CONFIG has set. -/
def State.startIngest (s : State) : State :=
  if s.get F.INGEST_STATUS_FSTATE = 0 && s.get F.INGEST_CTL_EN = 1 && s.isl 3 = 2 && s.ready Fn.CONFIG then
    s.set F.INGEST_STATUS_FSTATE 1 else s

/-- R250: a stop of the link begins. -/
def State.stopIngest (s : State) : State :=
  if s.get F.INGEST_STATUS_FSTATE = 2 then (s.set F.INGEST_STATUS_FSTATE 3).ingestStopCheck else s

/-- INGEST.CTL.EN (R111, Table R95): starts the link, latches a stop, begins one, or sets or clears REENABLE_PENDING. -/
def State.enIngest (s : State) (en : Bool) : State :=
  let s1 := s.set F.INGEST_CTL_EN (b2n en)
  match s.get F.INGEST_STATUS_FSTATE with
  | 2 => if en then s1 else s1.stopIngest
  | 3 => s1.set F.INGEST_STATUS_REENABLE_PENDING (b2n en)
  | _ => s1.startIngest

/-- A write of INGEST.CTL.EN. -/
def execIngestCtlEn (who : Req) (en : Bool) (s : State) : Host.Outcome State Fault Refusal :=
  done (s.rwAction who Pg.INGEST 0x010 (fun s => s.enIngest en))

/-- One millisecond into a stop, frames still in progress close DAMAGED (R250). -/
def execIngestStopTimeout (s : State) : Host.Outcome State Fault Refusal :=
  done (if s.get F.INGEST_STATUS_FSTATE = 3 then
    State.ingestStopCheck ((List.range 8).foldl (fun s v =>
      if (s.vc v).frame.isSome then (s.endFrame v FLAG_DAMAGED none).setVcState v VcS.SEEKING else s) s)
  else s)

/-- The receiver goes down with its island: frames in progress close DAMAGED. -/
def State.ingestDown (s : State) : State :=
  let s1 := s.unalign
  (List.range 8).foldl (fun s v => s.closeOrphan v none) s1

/-- The counts that INGEST.CLR.GO clears: 0x150 to 0x178 and those of every lane (Table 08-6). -/
def ingestCounts : List Field :=
  [F.INGEST_FRAMES_DAMAGED, F.INGEST_FRAMES_ACCEPTED, F.INGEST_HDR_ERR_STREAM_BUSY, F.INGEST_HDR_ERR_BAD_FIELD,
   F.INGEST_HDR_ERR_OUT_OF_WINDOW, F.INGEST_HDR_ERR_CRC, F.INGEST_CHK_ABORTS, F.INGEST_CHK_TERM_MISMATCH, F.INGEST_CHK_TERM_MISSING,
   F.INGEST_CHK_CHECK_DOUBT, F.INGEST_GAP_ORPHANS, F.INGEST_GAP_GAP_EVENTS, F.INGEST_GAP_FRAMES_SKIPPED, F.INGEST_PROTO_CREDIT_VIOL,
   F.INGEST_PROTO_UNBOUND_BLOCKS, F.INGEST_PROTO_UNBOUND_FRAMES, F.INGEST_PROTO_BAD_CTRL, F.INGEST_LINK_REALIGNS,
   F.INGEST_LINK_ALIGN_FAIL] ++
  ((List.range 8).map (fun l => [F.INGEST_LANE_SLIPS l, F.INGEST_LANE_LOCK_LOSS l, F.INGEST_LANE_BAD_SH l])).flatten

/-- INGEST.CLR.GO (R256). -/
def execIngestClr (who : Req) (s : State) : Host.Outcome State Fault Refusal :=
  done (s.rwAction who Pg.INGEST 0x180 (fun s => s.clear ingestCounts))

end Sys2Proof.Machine
end

