-- ==== Sys2Proof/Machine/Takes.lean ====
section
/-!
DEFINITION. The Frame Engine's own steps (chapter 09): takes that close, durable frames and their index entries, FRM_IN
pulses and capture units; and the arbitration of a frame's check values in a pair (R443).
-/

namespace Sys2Proof.Machine

/-! ### Check arbitration (R443, Table 15-7) -/

/-- The RESULT of an entry. -/
def State.resultOf (s : State) (e : Entry) : PResult :=
  ⟨e.stream, e.take, e.frame, e.piece, e.length, e.flags, e.crcCalc, e.crcTrl, e.sha, s.nextLeaf e.stream⟩

/-- Two results name one frame. -/
def sameFrame (a b : PResult) : Bool := a.stream = b.stream && a.take = b.take && a.frame = b.frame && a.piece = b.piece

/-- Table 15-7, judged in order: own result, peer's result. -/
def arbOutcome (feed : Nat) (a b : PResult) : Nat :=
  let ok1 := a.crcCalc = a.crcTrl
  let ok2 := b.crcCalc = b.crcTrl
  let eqL := a.crcCalc = b.crcCalc
  if a.sha = b.sha then
    if eqL && ok1 && ok2 then 0
    else if eqL then (if feed = 1 then 1 else 2)
    else if ok1 ≠ ok2 then 3
    else 5
  else if a.length = b.length && ok1 ≠ ok2 then 4
  else 5

/-- A frame's entry after arbitration (Table 15-7). -/
def arbEntry (outcome : Nat) (e : Entry) (a b : PResult) : Entry :=
  let clr (f m : Nat) : Nat := f - Nat.land f m
  match outcome with
  | 1 => if a.crcTrl ≠ a.crcCalc then { e with crcTrl := a.crcCalc, flags := clr e.flags FLAG_DOUBT } else e
  | 3 => if a.crcCalc ≠ a.crcTrl then
      { e with crcCalc := b.crcCalc, flags := if b.crcCalc = a.crcTrl then clr e.flags FLAG_DOUBT else e.flags } else e
  | 4 => if a.crcCalc ≠ a.crcTrl then
      { e with crcCalc := b.crcCalc, sha := b.sha, flags := clr e.flags (FLAG_DOUBT + FLAG_DAMAGED) } else e
  | 5 => { e with flags := Nat.lor e.flags FLAG_DOUBT }
  | _ => e

/-- An entry is rewritten and journaled (R273). -/
def State.rewriteEntry (s : State) (e : Entry) : State :=
  (s.noteEntry { e with flags := Nat.lor e.flags FLAG_REWRITTEN }).raise E.FRAME_INDEX_REWRITE

/-- The leaves of an entry's payload, as map keys. -/
def State.entryKeys (s : State) (e : Entry) : List Nat :=
  let per := match s.nv.nses.find? e.nsid with
    | some n => if 3 ≤ n.fmt then 8 else 1
    | none => 1
  (List.range (ceilDiv e.length 4096)).map (fun i => leafKey e.nsid (e.startLba / per + i))

/-- The outcome's action, its count, its record in the Pair State log and ARBITRATION. -/
def State.arbitrate (s : State) (e : Entry) (a b : PResult) : State :=
  let o := arbOutcome (s.get F.PAIR_CFG_FEED) a b
  if o = 0 then s
  else
    let e' := arbEntry o e a b
    let s1 := if e' = e then s else s.rewriteEntry e'
    let s1 := if o = 4 && a.crcCalc = a.crcTrl then
        (s.entryKeys e).foldl (fun s k => s.pairSend (.slot ⟨3, 0, 0, e.nsid, e.stream, 0, k, 0xFF, e.frame, e.take, s.leafData k⟩)) s1
      else s1
    let s1 := s1.inc (match o with
      | 1 => F.PAIR_ARB_TRAILER_REWRITE
      | 3 => F.PAIR_ARB_CALC_REWRITE
      | 4 => F.PAIR_ARB_REPAIRED
      | _ => F.PAIR_ARB_UNRESOLVED)
    let s1 := { s1 with pair := { s1.pair with
      arbs := (ArbRec.mk s.tb e.take e.frame e.stream o e.piece a.crcCalc b.crcCalc a.crcTrl :: s1.pair.arbs).take 16 } }
    s1.raise E.PAIR_ARBITRATION

/-- R443, R444: both results of a frame are there: the follow marks divergent what it writes for a stream whose layouts
differ, and the entry is arbitrated. -/
def State.matchResults (s : State) : State :=
  s.pair.mine.foldl (fun s a =>
    match s.pair.theirs.find? (sameFrame a) with
    | none => s
    | some b =>
      let s1 := { s with pair := { s.pair with
        mine := s.pair.mine.filter (fun x => !sameFrame a x), theirs := s.pair.theirs.filter (fun x => !sameFrame a x) } }
      match s1.map.ts.entries.find? (fun e => e.take = a.take && e.stream = a.stream && e.frame = a.frame && e.piece = a.piece) with
      | none => s1
      | some e =>
        let s2 := if (a.length ≠ b.length || a.append ≠ b.append) && s1.follows then
          s1.diverge ((s1.entryKeys e).map keySeg) [] else s1
        s2.arbitrate e a b) s

/-! ### Durable frames (R22, R271, R272) -/

/-- Every slot a record asked for has been admitted and its data is durable or beyond. -/
def State.recDurable (s : State) (r : FrameRec) : Bool :=
  r.closed && r.units ≤ r.asked &&
    !s.led.reqs.any (fun q => q.slots.any (fun x => x.owner = .frame r.id)) &&
    !s.slots.any (fun x => x.owner = .frame r.id && (x.lst = .filling || x.lst = .mirror))

/-- A record may become durable now: it is the oldest closed one of its stream, and a sketch follows its source (R271). -/
def State.recNext (s : State) (r : FrameRec) : Bool :=
  (s.frm.recs.find? (fun x => x.closed && x.stream = r.stream)).any (fun x => x.id = r.id) &&
    (!bit r.flags 9 || !s.frm.recs.any (fun x => x.stream = r.src && x.take = r.take && x.frame = r.frame && x.piece = r.piece && x.id < r.id))

/-- A frame becomes durable: its entry and append pointer are journaled, its result goes to the peer, and waiting index
reads are served. -/
def execFrameDurable (id : Nat) (s : State) : Host.Outcome State Fault Refusal :=
  done (match s.rec? id with
    | none => s
    | some r =>
      if s.recDurable r && s.recNext r then
        let e := s.entryOf r
        let s1 := (s.noteEntry e).noteAppend r.stream (r.leaf0 + r.units)
        let s1 := { s1 with frm := { s1.frm with recs := s1.frm.recs.filter (fun x => x.id ≠ id) } }
        let s1 := s1.mapSlots (fun x => x.owner = .frame id) (fun x => { x with owner := .none })
        let s1 := s1.inc F.FRAME_COUNTS_ENTRIES
        let s1 := if bit r.flags 9 then s1.inc F.FRAME_COUNTS_SKETCHES else s1
        let s1 := if bit r.flags 10 then s1.inc F.FRAME_ACAP_STAT_UNITS else s1
        let s1 := if s1.mirroring then
            let a := s1.resultOf e
            State.matchResults (State.pairSend { s1 with pair := { s1.pair with mine := s1.pair.mine ++ [a] } } (.result a))
          else s1
        s1.serveWaits
      else s)

/-! ### Takes (R262) -/

/-- Entries of a take that a Take Stop reports: those of stream FIRST, and all. -/
def State.stopCounts (s : State) (t : Take) : Nat × Nat :=
  let es := s.takeEntries t.num
  ((es.filter (fun e => e.stream = t.first)).length, es.length)

/-- A CLOSING take whose frames are all durable closes; the last open take ends Record (Table 04-4). -/
def execTakeClose (take : Nat) (s : State) : Host.Outcome State Fault Refusal :=
  done (match s.map.ts.takes.find? take with
    | none => s
    | some t =>
      if t.phase ≠ 1 then s
      else
        let s1 := if (s.takeRecs take).all (fun r => !r.closed && bit r.flags 4) then s.closeTakeOrphans take else s
        if s1.takeRecs take ≠ [] || (s.frm.capHead).any (fun h => h.take = take) then s1
        else
          let s2 := s1.takeClosed t 1
          let s2 := match t.stopper with
            | some c => s2.okRec c (s2.stopCounts t).1 (s2.stopCounts t).2 []
            | none => s2
          let s2 := s2.dropWaits take
          if s2.mode = Md.RECORD && s2.liveTakes = [] then s2.beginTrans Md.IDLE 0x09 else s2)

/-- STOP_MS after Take Stop, a frame still in progress closes DAMAGED (R262). -/
def execTakeStopTimeout (take : Nat) (s : State) : Host.Outcome State Fault Refusal :=
  done (match s.map.ts.takes.find? take with
    | some t => if t.phase = 1 then (s.closeTakeFrames take).ingestStopCheck else s
    | none => s)

/-! ### Pulses and capture (R266, R278) -/

/-- A filtered FRM_IN edge: counted with its period (R617), and recorded in the ring with its address (R266). Ignored in
Keep, Rest and Seal, before LTC sets (Table 04-6), and without its bank (R74). -/
def execFrmInPulse (s : State) : Host.Outcome State Fault Refusal :=
  done (
    if s.mode = Md.KEEP || s.mode = Md.REST || s.mode = Md.SEAL || !s.ready Fn.LTC || s.get F.PWR_RAIL_STATUS_IO_LEVEL = 3 then s
    else
      let s1 := s.inc F.TIME_FRM_STAT_PULSES
      let s1 := match s.tim.lastFrm with
        | some t => s1.set F.TIME_FRM_STAT_PERIOD_TICKS (s.tb - t)
        | none => s1
      let n := s.tcNow 1
      let s1 := { s1 with
        tim := { s1.tim with lastFrm := some s.tb }
        frm := { s1.frm with pulseSub := s.frm.pulseSub + 1 } }
      State.addPulse (s1.inc F.FRAME_PULSE_STAT_PULSES) ⟨s.tb, n.addr, n.used, n.user, n.drop, s.frm.pulseSub⟩)

/-- FLUSH_MS after its first record, the capture unit closes (R278). -/
def execCaptureUnitFlush (s : State) : Host.Outcome State Fault Refusal := done s.closeCapture

/-- The counts that FRAME.CLR.GO clears: 0x168 to 0x180. -/
def frameCounts : List Field :=
  [F.FRAME_COUNTS_SKETCHES, F.FRAME_COUNTS_ENTRIES, F.FRAME_PULSE_STAT_PULSES, F.FRAME_PULSE_STAT_NO_PULSE,
   F.FRAME_PULSE_STAT_PULSE_SKIP, F.FRAME_ACAP_STAT_OVERRUN, F.FRAME_ACAP_STAT_UNITS, F.FRAME_SKETCH_STAT_SKIP]

/-- FRAME.CLR.GO. -/
def execFrameClr (who : Req) (s : State) : Host.Outcome State Fault Refusal :=
  done (s.rwAction who Pg.FRAME 0x188 (fun s => s.clear frameCounts))

end Sys2Proof.Machine
end

