-- ==== Sys2Proof/Machine/Links.lean ====
section
/-!
DEFINITION. Frames of the pair link and of the Ethernet ports as they arrive, through their injectors (chapters 15, 16 and
20): acceptance, acknowledgment, resending and credit of pair frames; PAUSE, address resolution and echo.
-/

namespace Sys2Proof.Machine

/-! ### Pair-link frames (R433, R434) -/

/-- Units of a virtual channel leave the receive buffer and return to the peer as cumulative credit. -/
def State.returnUnits (s : State) (v u : Nat) : State :=
  let f := s.pair.freed.getD v 0 + u
  let s1 := s.set (F.PAIR_CREDIT_RX_BUF v) (s.get (F.PAIR_CREDIT_RX_BUF v) - u)
  State.pairSend { s1 with pair := { s1.pair with freed := s1.pair.freed.set v f } } (.credit v ((pairAlloc v + f) % 2 ^ 24))

/-- A frame that is not accepted: its units return, and one NAK names the expected SEQ. -/
def State.refuseFrame (s : State) (v u : Nat) : State :=
  let s1 := s.set (F.PAIR_CREDIT_RX_BUF v) (s.get (F.PAIR_CREDIT_RX_BUF v) + u)
  (((s1.returnUnits v u).inc F.PAIR_LINKERR_NAKS)).pairSend (.linkAck v (s.pair.rxSeq.getD v 0) true)

/-- A frame of the pair link at its FEND: accepted in sequence with a good CRC, otherwise discarded. The units of VC0 stay in
the receive buffer until their slot is admitted (R439). -/
def State.linkFrame (s : State) (v seq u : Nat) (crcOk : Bool) : State :=
  if s.get F.PAIR_STATUS_ALIGNED = 0 then s
  else if crcOk && seq % 65536 = s.pair.rxSeq.getD v 0 then
    let s1 := s.set (F.PAIR_CREDIT_RX_BUF v) (s.get (F.PAIR_CREDIT_RX_BUF v) + u)
    let s1 := { s1 with pair := { s1.pair with rxSeq := s1.pair.rxSeq.set v ((seq + 1) % 65536) } }
    let s1 := s1.pairSend (.linkAck v (seq % 65536) false)
    if v = 0 then s1 else s1.returnUnits v u
  else
    (if crcOk then s else s.inc F.PAIR_LINKERR_CRC_ERR).refuseFrame v u

/-- The pair frame that injector 1 holds back is delivered once its window has passed. -/
def State.passPair (s : State) (v : Nat) : State :=
  match s.fi.pair with
  | some (v', q, u, ok, n) =>
    if v' ≠ v then s
    else if n ≤ 1 then
      (State.linkFrame { s with fi := { s.fi with pair := none } } v' q u ok).set (F.FI_CFG_STATE 1)
        (if s.get (F.FI_CFG_SHOT 1) = 1 then 3 else 1)
    else { s with fi := { s.fi with pair := some (v', q, u, ok, n - 1) } }
  | none => s

/-- A frame of the pair link through injector 1 (Table 20-4). -/
def State.pairFrame (s : State) (v seq u : Nat) (crcOk : Bool) : State :=
  if s.get F.PAIR_STATUS_ALIGNED = 0 then s
  else if bit (s.get (F.FI_CFG_TARGET 1)) v then
    let (d, s1) := s.fiUnit 1
    match d with
    | .drop => (s1.refuseFrame v u).passPair v
    | .corrupt =>
      if s1.get (F.FI_CFG_FIX 1) = 0 then (s1.linkFrame v seq u false).passPair v
      else (State.linkFrame { s1 with fi := { s1.fi with pairHit := v = 0 } } v seq u crcOk).passPair v
    | .reorder => { s1 with fi := { s1.fi with pair := some (v, seq, u, crcOk, s1.get (F.FI_POS_WINDOW 1)) } }.set (F.FI_CFG_STATE 1) 2
    | .pass => (s1.linkFrame v seq u crcOk).passPair v
  else s.linkFrame v seq u crcOk

/-- The link goes down and realigns: TRAINS counts, and where this side begins it TRAIN goes out. -/
def State.takeDown (s : State) (reason : Option Nat) : State :=
  let s1 := match reason with
    | some r => s.pairSend (.train r)
    | none => s
  (s1.inc F.PAIR_LINKERR_TRAINS).pairLinkDown (if s.get F.PAIR_CTL_EN = 1 then 1 else 0)

/-- R433: every unacknowledged frame of a channel is sent again, in order; a frame sent four times takes the link down. -/
def State.resendAll (s : State) (v : Nat) : State :=
  let mine := s.pair.unacked.filter (fun f => f.1 = v)
  if mine = [] then s
  else if mine.any (fun f => 4 ≤ f.2.2.2) then s.takeDown (some 2)
  else
    let u := total (mine.map (fun f => f.2.2.1))
    let s1 := (s.addSat F.PAIR_LINKERR_RESENDS mine.length).set (F.PAIR_CREDIT_AVAIL v) (s.get (F.PAIR_CREDIT_AVAIL v) - u)
    { s1 with pair := { s1.pair with
        used := s1.pair.used.set v (s1.pair.used.getD v 0 + u)
        unacked := s1.pair.unacked.map (fun f => if f.1 = v then (f.1, f.2.1, f.2.2.1, f.2.2.2 + 1) else f) } }

/-- Frames of a channel up to and including a SEQ are acknowledged. -/
def State.ackFrames (s : State) (v seq : Nat) : State :=
  { s with pair := { s.pair with
      unacked := s.pair.unacked.filter (fun f => f.1 ≠ v || !(f.2.1 = seq % 65536 || seqBefore 16 f.2.1 seq)) } }

/-! ### Ethernet frames (R457, Table 20-4) -/

/-- The port's IPv6 link-local address, by EUI-64 of its MAC address. -/
def State.linkLocal (s : State) (p : Nat) : Nat :=
  let m := s.get (F.NET_MAC_ADDR p)
  0xFE80 * 2 ^ 112 + Nat.xor (m / 2 ^ 24) 0x20000 * 2 ^ 40 + 0xFFFE * 2 ^ 24 + m % 2 ^ 24

/-- An address is one of the port's own. -/
def State.ownAddr (s : State) (p addr : Nat) (v6 : Bool) : Bool :=
  if v6 then addr = s.linkLocal p || (addr ≠ 0 && addr = s.get (F.NET_IPV6_HI_ADDR p) * 2 ^ 64 + s.get (F.NET_IPV6_LO_ADDR p))
  else addr ≠ 0 && addr = s.get (F.NET_IPV4_LEASE_ADDR p)

/-- Bytes of a received frame, FCS included. -/
def NetRx.bytes : NetRx → Nat
  | .pause _ => 64
  | .resolve _ v6 => if v6 then 90 else 64
  | .echo _ v6 d => max 64 ((if v6 then 66 else 46) + d.length)

/-- Bytes of a frame that a port sends, FCS included; a TCP segment without data counts as one of the least size. -/
def NetTx.bytes : NetTx → Nat
  | .resolved _ _ v6 => if v6 then 90 else 64
  | .echoed _ _ v6 d => max 64 ((if v6 then 66 else 46) + d.length)
  | _ => 64

/-- A port sends a frame. -/
def State.netOut (s : State) (p : Nat) (m : NetTx) : State :=
  State.addSat { s with net := { s.net with sent := s.net.sent ++ [m] } } (F.NET_TX_BYTES_COUNT p) m.bytes

/-- A frame that a transmit injector holds back goes out once its window has passed. -/
def State.passTx (s : State) (p : Nat) : State :=
  match s.net.heldTx.find? (fun x => x.1 = p) with
  | some (_, m, n) =>
    let rest := s.net.heldTx.filter (fun x => x.1 ≠ p)
    if n ≤ 1 then
      (State.netOut { s with net := { s.net with heldTx := rest } } p m).set (F.FI_CFG_STATE (2 + p))
        (if s.get (F.FI_CFG_SHOT (2 + p)) = 1 then 3 else 1)
    else { s with net := { s.net with heldTx := rest ++ [(p, m, n - 1)] } }
  | none => s

/-- A frame for a port to send, through its injector where TARGET names the direction. -/
def State.netSend (s : State) (p : Nat) (m : NetTx) : State :=
  if bit (s.get (F.FI_CFG_TARGET (2 + p))) 0 then
    let (d, s1) := s.fiUnit (2 + p)
    match d with
    | .drop => s1.passTx p
    | .corrupt => (s1.netOut p (.corrupt p)).passTx p
    | .reorder => { s1 with net := { s1.net with heldTx := s1.net.heldTx ++ [(p, m, s1.get (F.FI_POS_WINDOW (2 + p)))] } }.set
        (F.FI_CFG_STATE (2 + p)) 2
    | .pass => (s1.netOut p m).passTx p
  else s.netOut p m

/-- A received frame takes its effect. -/
def State.netFrame (s : State) (p : Nat) (m : NetRx) : State :=
  let s1 := s.addSat (F.NET_RX_BYTES_COUNT p) m.bytes
  match m with
  | .pause q =>
    let s2 := s1.inc (F.NET_PAUSE_COUNT p)
    if s.get (F.NET_CFG_PAUSE_RX p) = 1 then s2.set (F.NET_STATUS_PAUSED p) (b2n (q ≠ 0)) else s2
  | .resolve a v6 => if s.ownAddr p a v6 then s1.netSend p (.resolved p a v6) else s1
  | .echo a v6 d => if s.ownAddr p a v6 then s1.netSend p (.echoed p a v6 d) else s1

/-- The frame that a receive injector holds back is delivered once its window has passed. -/
def State.passNet (s : State) (p : Nat) : State :=
  match s.fi.net.find? (fun x => x.1 = p) with
  | some (_, m, n) =>
    let rest := s.fi.net.filter (fun x => x.1 ≠ p)
    if n ≤ 1 then
      (State.netFrame { s with fi := { s.fi with net := rest } } p m).set (F.FI_CFG_STATE (2 + p))
        (if s.get (F.FI_CFG_SHOT (2 + p)) = 1 then 3 else 1)
    else { s with fi := { s.fi with net := rest ++ [(p, m, n - 1)] } }
  | none => s

/-- What a corrupted frame with a good FCS still is: PAUSE has no check of its own, and its quanta stand in bytes 16 and 17;
an address resolution or echo that fails its checks is not answered. -/
def State.corruptRx (s : State) (p : Nat) (m : NetRx) : Option NetRx :=
  match m with
  | .pause q =>
    let span := s.get (F.FI_POS_SPAN (2 + p))
    let start := s.get (F.FI_POS_POSITION (2 + p)) % 8
    let mask := s.get (F.FI_MASK (2 + p))
    let hit (i : Nat) : Bool := start ≤ i && decide (i < start + span) && mask ≠ 0
    if hit 0 || hit 1 then none
    else if hit 2 then some (.pause (Nat.xor q (bits mask 0 8 * 256 + bits mask 8 8))) else some m
  | _ => none

/-- A frame arrives on a port whose link is up, through its injector (Table 20-4). `none` stands for a TCP segment, whose
effect its own command has: an injector that acts on it leaves TCP to restore it. -/
def State.netRx (s : State) (p : Nat) (m : NetRx) : State :=
  if s.get (F.NET_STATUS_LINK p) = 0 then s
  else if !bit (s.get (F.FI_CFG_TARGET (2 + p))) 0 then
    let (d, s1) := s.fiUnit (2 + p)
    match d with
    | .drop => s1.passNet p
    | .corrupt =>
      (if s1.get (F.FI_CFG_FIX (2 + p)) = 0 then s1.inc (F.NET_RX_ERR_FCS p) else
        match s1.corruptRx p m with
        | some m' => s1.netFrame p m'
        | none => s1.addSat (F.NET_RX_BYTES_COUNT p) m.bytes).passNet p
    | .reorder => { s1 with fi := { s1.fi with net := s1.fi.net ++ [(p, m, s1.get (F.FI_POS_WINDOW (2 + p)))] } }.set
        (F.FI_CFG_STATE (2 + p)) 2
    | .pass => (s1.netFrame p m).passNet p
  else s.netFrame p m

end Sys2Proof.Machine
end

