-- ==== Sys2Proof/Machine/Verify.lean ====
section
/-!
DEFINITION. Verify-on-read (chapter 16, R470 to R478): contexts of the two hashers, outcomes, tracked takes, the declaration of
a take and its end.
-/

namespace Sys2Proof.Machine

/-- What names an entry. -/
def entryId (e : Entry) : EntryId := ⟨e.take, e.stream, e.src, e.frame, e.piece⟩

/-- The entry that an identity names. -/
def State.entryBy (s : State) (i : EntryId) : Option Entry := s.map.ts.entries.find? (fun e => (entryId e) = i)

/-! ### Events of the fabric controllers (R478) -/

/-- One fabric controller reports an event, or keeps it for its next request (R213). -/
def State.ctrlAen (s : State) (a : Aen) (id : Nat) : State :=
  match s.net.ctrls.find? id with
  | none => s
  | some c =>
    if c.disc || c.told.contains a || c.aens.contains a || !bit c.aec 31 then s
    else match c.aers with
      | [] => { s with net := { s.net with ctrls := s.net.ctrls.put id { c with aens := c.aens ++ [a] } } }
      | (conn, cid) :: rest =>
        State.ok { s with net := { s.net with ctrls := s.net.ctrls.put id { c with aers := rest, told := c.told ++ [a] } } }
          ⟨.dock conn, cid⟩ a.dw0 0 []

/-- R478: event 0x05 on the camera's controller and on every fabric admin queue. -/
def State.verifyEvent (s : State) : State :=
  let s1 := s.vendorEvent 0x05 0xC2
  (s1.net.ctrls.map (·.1)).foldl (fun s id => s.ctrlAen ⟨7, 0x05, 0xC2⟩ id) s1

/-! ### Tracked takes (R474 to R476) -/

/-- The record of a tracked take. -/
def State.track? (s : State) (take : Nat) : Option Track := s.net.tracks.find? (fun t => t.take = take)

/-- Changes the record of a tracked take. -/
def State.mapTrack (s : State) (take : Nat) (f : Track → Track) : State :=
  { s with net := { s.net with tracks := s.net.tracks.map (fun t => if t.take = take then f t else t) } }

/-- A take whose latest record declares it verified. -/
def State.declared (s : State) (take : Nat) : Bool := (s.map.ts.takes.find? take).any (fun t => t.verified = 3)

/-- A take is tracked from its first outcome; when 64 are, the one with the oldest activity that is not declared is dropped. -/
def State.trackTake (s : State) (take : Nat) : State :=
  let act := s.net.act + 1
  let s := { s with net := { s.net with act := act } }
  if (s.track? take).isSome then s.mapTrack take (fun t => { t with act := act })
  else
    let new : Track := ⟨take, [], act, 0, b2n (s.declared take), 0, 0⟩
    let old := s.net.tracks.filter (fun t => !s.declared t.take)
    let least := leastOr 0 (old.map (·.act))
    let keep := if s.net.tracks.length < 64 then s.net.tracks else s.net.tracks.filter (fun t => s.declared t.take || t.act ≠ least)
    if keep.length < 64 then { s with net := { s.net with tracks := keep ++ [new] } } else s

/-- A tracked take with a latest outcome of MISMATCH or UNREADABLE. -/
def Track.failed (t : Track) : Bool := t.outs.any (fun o => o.2 = 2 || o.2 = 3)

/-- STATE of a take record of the Verify Log. -/
def Track.show (t : Track) : Nat := if t.failed then 2 else t.state

/-- An event record of the Verify Log: the newest 32 are kept. -/
def State.verRecord (s : State) (i : EntryId) (outcome nsid digest : Nat) : State :=
  State.verifyEvent { s with net := { s.net with
    events := (⟨s.tb, i.take, i.frame, i.stream, outcome, i.piece, nsid, digest⟩ :: s.net.events).take 32 } }

/-- R475: a closed take is declared verified once every one of its entries has MATCH as its latest outcome. -/
def State.tryDeclare (s : State) (take : Nat) : State :=
  match s.map.ts.takes.find? take, s.track? take with
  | some t, some k =>
    let es := s.takeEntries take
    if t.phase = 2 && t.verified ≠ 3 && es ≠ [] && es.all (fun e => k.outs.any (fun o => o.1 = (entryId e) && o.2 = 1)) then
      let s1 := s.noteTake { t with verified := 3 }
      let s1 := s1.mapTrack take (fun k => { k with state := 1, declTb := s.tb, declCal := s.get F.TIME_CAL })
      ((s1.inc F.NVTCP_TAKES_DECLARED).raise E.NVTCP_VERIFIED).verifyEvent
    else s
  | _, _ => s

/-- R472, R474: an outcome of an entry. -/
def State.verOutcome (s : State) (i : EntryId) (o digest : Nat) : State :=
  let n (l : List Nat) : List Nat := l.set (o - 1) (l.getD (o - 1) 0 + 1)
  let s1 := State.trackTake { s with net := { s.net with outWake := n s.net.outWake, outReg := n s.net.outReg } } i.take
  let was := (s1.track? i.take).any Track.failed
  let s1 := s1.mapTrack i.take (fun t => { t with outs := t.outs.filter (fun x => x.1 ≠ i) ++ [(i, o)] })
  let nsid := match s.entryBy i with
    | some e => e.nsid
    | none => 0
  let s1 := if o = 2 || o = 3 then (s1.raise E.NVTCP_VERIFY_FAIL).verRecord i o nsid (if o = 2 then digest / 2 ^ 192 else 0) else s1
  let s1 := if (s1.track? i.take).any Track.failed && !was then s1.verifyEvent else s1
  s1.tryDeclare i.take

/-! ### Contexts (R471, R472) -/

/-- The context of an entry on a port. -/
def State.ctx? (s : State) (p : Nat) (i : EntryId) : Option VerCtx := s.net.ctxs.find? (fun c => c.port = p && c.entry = i)

/-- A context closes with an outcome. -/
def State.closeCtx (s : State) (c : VerCtx) (o : Nat) : State :=
  let d := Config.sha256 c.bytes % 2 ^ 256
  State.verOutcome { s with net := { s.net with ctxs := s.net.ctxs.filter (fun x => !(x.port = c.port && x.entry = c.entry)) } }
    c.entry o d

/-- Every context of a port closes INCOMPLETE (R482). -/
def State.closePort (s : State) (p : Nat) : State :=
  (s.net.ctxs.filter (fun c => c.port = p)).foldl (fun s c => s.closeCtx c 4) s

/-- A context opens; the port's 64 being in use, the one that advanced least recently closes INCOMPLETE. -/
def State.openCtx (s : State) (p : Nat) (i : EntryId) : State :=
  let mine := s.net.ctxs.filter (fun c => c.port = p)
  let s1 := if mine.length < 64 then s
    else match mine.find? (fun c => c.act = leastOr 0 (mine.map (·.act))) with
      | some c => s.closeCtx c 4
      | none => s
  { s1 with net := { s1.net with ctxs := s1.net.ctxs ++ [⟨p, i, [], [], s1.net.act + 1⟩], act := s1.net.act + 1 } }

/-- Held data that has become next in order joins a context. -/
def VerCtx.drain : Nat → VerCtx → VerCtx
  | 0, c => c
  | n + 1, c =>
    match c.held.find? (fun h => h.1 ≤ c.bytes.length && decide (c.bytes.length < h.1 + h.2.length)) with
    | some h => VerCtx.drain n { c with bytes := c.bytes ++ h.2.drop (c.bytes.length - h.1), held := c.held.erase h }
    | none => { c with held := c.held.filter (fun h => c.bytes.length < h.1 + h.2.length) }

/-- Data of an entry reaches its port's hasher at a byte offset. -/
def State.feedCtx (s : State) (p : Nat) (e : Entry) (off : Nat) (bs : List Nat) : State :=
  let bs := bs.take (e.length - off)
  if bs = [] then s
  else
    let i := (entryId e)
    let s1 := if (s.ctx? p i).isNone && off = 0 then s.openCtx p i else s
    match s1.ctx? p i with
    | none => s1
    | some c =>
      let c1 := VerCtx.drain (c.held.length + 1) { c with held := c.held ++ [(off, bs)], act := s1.net.act + 1 }
      let got := c1.bytes.length - c.bytes.length
      let s2 : State := { s1 with net := { s1.net with
          ctxs := s1.net.ctxs.map (fun x => if x.port = p && x.entry = i then c1 else x)
          act := s1.net.act + 1, hashed := s1.net.hashed + got
          tracks := s1.net.tracks.map (fun t => if t.take = i.take then { t with bytes := t.bytes + got } else t) } }
      let s2 := s2.addSat F.NVTCP_HASHED_BYTES got
      if e.length ≤ c1.bytes.length then
        s2.closeCtx c1 (if Config.sha256 c1.bytes % 2 ^ 256 = e.sha then 1 else 2)
      else if s.get F.NVTCP_VERIFY_CFG_HOLD_KIB * 1024 < total (c1.held.map (fun h => h.2.length)) then s2.closeCtx c1 4
      else s2

/-- R470: the entry that a leaf of a namespace belongs to. -/
def State.entryOfLeaf (s : State) (nsid leaf : Nat) : Option Entry :=
  let per := match s.nv.nses.find? nsid with
    | some n => if 3 ≤ n.fmt then 8 else 1
    | none => 1
  let holds (e : Entry) : Bool :=
    let c := s.streamCfg e.stream
    e.nsid = nsid && e.startLba ≤ per * leaf && c.nsid = nsid && 64 * c.base ≤ leaf && decide (leaf < 64 * (c.base + c.len))
  let es := s.map.ts.entries.filter holds
  es.find? (fun e => e.startLba = (es.map (·.startLba)).foldl max 0)

/-- R471: data of a leaf, from a sector on, is served to a port and hashed; `none` where it could not be recovered. -/
def State.feedLeaf (s : State) (p nsid leaf sector : Nat) (bs : Option (List Nat)) : State :=
  if s.get F.NVTCP_VERIFY_CFG_EN = 0 || !s.ready Fn.VERIFY then s
  else match s.entryOfLeaf nsid leaf with
    | none => s
    | some e =>
      let per := match s.nv.nses.find? nsid with
        | some n => if 3 ≤ n.fmt then 8 else 1
        | none => 1
      match bs with
      | some bs => s.feedCtx p e ((leaf - e.startLba / per) * 4096 + 512 * sector) bs
      | none => match s.ctx? p (entryId e) with
        | some c => s.closeCtx c 3
        | none => s.verOutcome (entryId e) 3 0

/-! ### Writes over entries (R476, R481) -/

/-- A permitted write or deallocate touches leaves: contexts of their entries close INCOMPLETE, the takes' outcomes are
discarded, and a declaration ends with ALTERED. -/
def State.verAlter (s : State) (nsid : Nat) (leaves : List Nat) : State :=
  let es := (leaves.filterMap (s.entryOfLeaf nsid)).eraseDups
  let es := es.filter (fun e => leaves.any (fun l =>
    let per := match s.nv.nses.find? nsid with
      | some n => if 3 ≤ n.fmt then 8 else 1
      | none => 1
    decide (l < e.startLba / per + ceilDiv e.length 4096)))
  es.foldl (fun s e =>
    let s1 := (s.net.ctxs.filter (fun c => c.entry = (entryId e))).foldl (fun s c => s.closeCtx c 4) s
    let s1 := s1.mapTrack e.take (fun t => { t with outs := [] })
    match s1.map.ts.takes.find? e.take with
    | some t =>
      if t.verified = 3 then
        let s2 := s1.noteTake { t with verified := 4 }
        let s2 := (s2.trackTake e.take).mapTrack e.take (fun k => { k with state := 3 })
        (s2.raise E.NVTCP_ALTERED).verRecord (entryId e) 5 nsid 0
      else s1
    | none => s1) s

end Sys2Proof.Machine
end

