-- ==== Sys2Proof/Machine/Crcu.lean ====
section
/-!
DEFINITION. The check-value units (chapter 17, R509 to R513): their polynomials, what they take in, and their commands.
-/

namespace Sys2Proof.Machine

/-! ### Polynomials (Table 17-7) -/

/-- The initial value. -/
def crcuInit (poly : Nat) : Nat := if poly < 2 then 0xFFFFFFFF else 0

/-- One bit of a CRC that is not reflected, of `w` bits. -/
def crcTopBit (w poly c : Nat) : Nat :=
  if c / 2 ^ (w - 1) % 2 = 1 then Nat.xor (c * 2 % 2 ^ w) poly else c * 2 % 2 ^ w

/-- One byte of a CRC that is not reflected. -/
def crcTopByte (w poly c b : Nat) : Nat :=
  (List.range 8).foldl (fun c _ => crcTopBit w poly c) (Nat.xor c (b % 256 * 2 ^ (w - 8)))

/-- One byte taken into the running register. -/
def crcuByte (poly acc b : Nat) : Nat :=
  match poly with
  | 0 => crcByte 0x82F63B78 (acc % 2 ^ 32) b
  | 1 => crcByte 0xEDB88320 (acc % 2 ^ 32) b
  | 2 => crcTopByte 64 0x42F0E1EBA9EA3693 (acc % 2 ^ 64) b
  | _ => crcTopByte 16 0x8BB7 (acc % 2 ^ 16) b

/-! ### Taking bytes in (R511, R512) -/

/-- R512: a unit that has reached its LIMIT compares. -/
def State.crcuCompare (s : State) (n : Nat) : State :=
  if s.get (F.CRCU_CFG_CMP n) = 1 then
    s.raise (if s.crcuResult n = s.get (F.CRCU_EXPECT_VALUE n) % 2 ^ crcuBits (s.get (F.CRCU_CFG_POLY n)) then E.CRCU_MATCH n
      else E.CRCU_MISMATCH n)
  else s

/-- A unit takes bytes, up to its LIMIT. -/
def State.crcuTake (s : State) (n : Nat) (bs : List Nat) : State :=
  if s.get (F.CRCU_CFG_EN n) = 0 || bs = [] then s
  else
    let lim := s.get (F.CRCU_LIMIT_BYTES n)
    let have' := s.get (F.CRCU_BYTES_COUNT n)
    let mine := if lim = 0 then bs else bs.take (lim - have')
    if mine = [] then s
    else
      let s1 := (s.set (F.CRCU_ACC n) (mine.foldl (crcuByte (s.get (F.CRCU_CFG_POLY n))) (s.get (F.CRCU_ACC n)))).addWrap
        (F.CRCU_BYTES_COUNT n) mine.length
      if lim ≠ 0 && lim ≤ have' + mine.length then s1.crcuCompare n else s1

/-- Every unit that takes a source in: 1 a service DMA channel (`chan`), 2 and 3 the UARTs, 4 and 5 the HI and HO queues. -/
def State.crcuFeed (s : State) (src chan : Nat) (bs : List Nat) : State :=
  (List.range 4).foldl (fun s n =>
    if s.get (F.CRCU_CFG_SRC n) = src && (src ≠ 1 || s.get (F.CRCU_CFG_CHAN n) = chan) then s.crcuTake n bs else s) s

/-! ### Their registers (R510, R511, R513) -/

/-- The offset of a unit's block. -/
def crcuBase (n : Nat) : Nat := 0x100 + 0x80 * n

/-- CLEAR. -/
def State.crcuClear (s : State) (n : Nat) : State :=
  (s.set (F.CRCU_ACC n) (crcuInit (s.get (F.CRCU_CFG_POLY n)))).set (F.CRCU_BYTES_COUNT n) 0

/-- CLEAR.GO. -/
def execCrcuClear (who : Req) (unit : Nat) (s : State) : Host.Outcome State Fault Refusal :=
  done (if unit < 4 then s.rwAction who Pg.CRCU (crcuBase unit + 0x18) (fun s => s.crcuClear unit) else s)

/-- A unit that software feeds takes bytes. -/
def State.crcuSoft (s : State) (n : Nat) (bs : List Nat) : State :=
  if s.get (F.CRCU_CFG_SRC n) = 0 then s.crcuTake n bs else s

/-- FEED: eight bytes, byte 0 first. -/
def execFeed (who : Req) (unit val : Nat) (s : State) : Host.Outcome State Fault Refusal :=
  done (if unit < 4 then s.rwAction who Pg.CRCU (crcuBase unit + 0x20) (fun s => s.crcuSoft unit (bytesOf 8 val)) else s)

/-- FEED_PART: as many bytes as bits 58 to 56 say. -/
def execFeedPart (who : Req) (unit val : Nat) (s : State) : Host.Outcome State Fault Refusal :=
  done (if unit < 4 then
    s.rwAction who Pg.CRCU (crcuBase unit + 0x28) (fun s => s.crcuSoft unit (bytesOf (bits val 56 3) val)) else s)

/-- A write of ACC. -/
def execCrcuAccWrite (who : Req) (unit val : Nat) (s : State) : Host.Outcome State Fault Refusal :=
  done (if unit < 4 then s.rwAction who Pg.CRCU (crcuBase unit + 0x08) (fun s => s.set (F.CRCU_ACC unit) val) else s)

/-- A write of CFG while EN is 0, or that clears EN. A reserved SRC leaves SRC as it was (R12). -/
def State.crcuCfg (s : State) (n val : Nat) : State :=
  if s.get (F.CRCU_CFG_EN n) = 0 || !bit val 0 then
    let s1 := ((s.set (F.CRCU_CFG_CMP n) (bits val 16 1)).set (F.CRCU_CFG_CHAN n) (bits val 12 3)).set (F.CRCU_CFG_POLY n) (bits val 4 2)
    let s1 := if bits val 8 4 < 6 then s1.set (F.CRCU_CFG_SRC n) (bits val 8 4) else s1
    s1.set (F.CRCU_CFG_EN n) (bits val 0 1)
  else s.raise (E.CRCU_CFG_IGNORED n)

/-- A write of CFG. -/
def execCrcuCfgWrite (who : Req) (unit val : Nat) (s : State) : Host.Outcome State Fault Refusal :=
  done (if unit < 4 then s.rwAction who Pg.CRCU (crcuBase unit) (fun s => s.crcuCfg unit val) else s)

end Sys2Proof.Machine
end

