-- ==== Sys2Proof/Machine/Keys.lean ====
section
/-!
DEFINITION. Security, debug level and what stops with them (chapters 17, 18 and 20): fault injectors, the highest debug level
of an authority, the security state and what it takes with it at Keep, SDMA channels that are disabled.
-/

namespace Sys2Proof.Machine

/-! ### Fault injectors stop (R594) -/

/-- R594: an injector's held unit is released at once, or lost with its link. -/
def State.fiRelease (s : State) (i : Nat) : State :=
  let lost (s : State) : State := s.inc (F.FI_ACTED_HELD_LOST i)
  if i = 0 then
    match s.fi.block with
    | some (c, p, _) =>
      let s1 := { s with fi := { s.fi with block := none } }
      if s.get F.INGEST_STATUS_ALIGNED = 1 then s1.block c p else lost s1
    | none => s
  else if i = 1 then
    match s.fi.pair with
    | some (v, q, u, ok, _) =>
      let s1 := { s with fi := { s.fi with pair := none } }
      if s.get F.PAIR_STATUS_ALIGNED = 1 then s1.linkFrame v q u ok else lost s1
    | none => s
  else if i = 2 || i = 3 then
    let p := i - 2
    let up := s.get (F.NET_STATUS_LINK p) = 1
    let s1 := match s.fi.net.find? (fun x => x.1 = p) with
      | some (_, m, _) =>
        let s1 := { s with fi := { s.fi with net := s.fi.net.filter (fun x => x.1 ≠ p) } }
        if up then s1.netFrame p m else lost s1
      | none => s
    match s1.net.heldTx.find? (fun x => x.1 = p) with
    | some (_, m, _) =>
      let s2 := { s1 with net := { s1.net with heldTx := s1.net.heldTx.filter (fun x => x.1 ≠ p) } }
      if up then s2.netOut p m else lost s2
    | none => s1
  else if i = 6 then
    match s.fi.cqe with
    | some (e, _) =>
      let s1 := { s with fi := { s.fi with cqe := none } }
      if s.isl 2 = 2 then s1.postEntry e else lost s1
    | none => s
  else s

/-- An injector stops: it acts on no further unit, ARM clears and STATE reads IDLE. -/
def State.fiStopOne (s : State) (i : Nat) : State :=
  if s.get (F.FI_CFG_STATE i) = 0 && s.get (F.FI_CFG_ARM i) = 0 then s
  else
    let act := s.get (F.FI_CFG_STATE i) = 1 || s.get (F.FI_CFG_STATE i) = 2
    let s1 := ((s.set (F.FI_CFG_ARM i) 0).set (F.FI_CFG_STATE i) 0)
    let s1 := { s1 with fi := { s1.fi with carry := s1.fi.carry.set i 0, pairHit := s1.fi.pairHit && i ≠ 1 } }
    (s1.fiRelease i).raiseIf act E.FI_STOPPED

/-- Every injector stops. -/
def State.fiStop (s : State) : State := (List.range 7).foldl State.fiStopOne s

/-- R593: arming is permitted. -/
def State.fiPermitted (s : State) : Bool :=
  s.ready Fn.FAULT_INJ && s.get F.FI_CTL_EN = 1 && (s.mode = Md.SERVICE || s.dbgLevel = 2)

/-- R594: the injectors stop once the condition of R593 no longer holds. -/
def State.fiCheck (s : State) : State := if s.fiPermitted then s else s.fiStop

/-! ### The debug level (R539 to R542) -/

/-- Table 18-6: the highest level an authority (1 vendor, 2 owner) can grant in a state. -/
def levelCap (auth st : Nat) : Nat :=
  match auth, st with
  | 1, 0 => 2
  | 1, 1 => 1
  | 1, 2 => 1
  | 1, 4 => 2
  | 2, 1 => 2
  | 2, 2 => 1
  | _, _ => 0

/-- The debug level takes a value: LEVEL_CHANGE rises, and what D2 allowed stops when it is lost (R542). -/
def State.setLevel (s : State) (lv auth : Nat) : State :=
  if s.dbgLevel = lv then s
  else
    let old := s.dbgLevel
    let s1 := (s.set F.DBG_STATUS_LEVEL lv).set F.DBG_STATUS_AUTHORITY (if lv = 0 then 0 else auth)
    let s1 := if lv = 0 then s1.set F.DBG_SESSION_SECONDS_LEFT 0 else s1
    let s1 := s1.raise E.DBG_LEVEL_CHANGE
    if old = 2 && lv ≠ 2 then s1.fiStop else s1

/-- The level returns to D0. -/
def State.toD0 (s : State) : State := s.setLevel 0 0

/-! ### Security states (R520, R527, R530 to R535, R542) -/

/-- R532: carry is disarmed: KEEP zeroises CS. -/
def State.disarm (s : State) : State :=
  { s.set F.SEC_STATUS_CARRY_ARMED 0 with
    keep := { s.keep with cs := false, carryHours := 0, carryLeft := none }
    nv := { s.nv with carryKey := false } }

/-- The registers that show the configuration region's security fields. -/
def State.showSec (s : State) : State :=
  let s1 := (s.set F.SEC_STATUS_OWNER_SET (b2n s.nv.owner.isSome)).set F.SEC_STATUS_RECOVERY_SET (b2n s.nv.owner.isSome)
  let s1 := (s1.set F.SEC_STATUS_CARRY_OK (b2n s.nv.carryOk)).set F.SEC_STATUS_CARRY_HOURS s.nv.carryHours
  (s1.set F.SEC_ATTEMPTS_OWNER_LEFT s.nv.ownerLeft).set F.SEC_ATTEMPTS_RECOVERY_LEFT s.nv.recLeft

/-- A state change: STATE, the keys loaded, carry disarmed on LOCKED and VOID, INGEST not set there (R545), the debug level
dropped to what its authority grants (R542), and the pair left by a half that locks (R548). -/
def State.setSec (s : State) (v : Nat) : State :=
  if s.secState = v then s
  else
    let s1 := ((s.set F.SEC_STATUS_STATE v).set F.SEC_KEY_LOADED_ALL (b2n (v = 0 || v = 1))).raise E.SEC_STATE_CHANGE
    let s1 := if v = 4 then s1.raise E.SEC_VOID else s1
    let s1 := if v = 2 || v = 4 then s1.disarm.clearReady [Fn.INGEST] else s1
    let cap := levelCap (s1.get F.DBG_STATUS_AUTHORITY) v
    let s1 := if cap < s1.dbgLevel then s1.setLevel cap (s1.get F.DBG_STATUS_AUTHORITY) else s1
    s1.showSec

/-- R533: at Keep entry the countdown starts where carry is armed; an OPEN state without carry becomes LOCKED, as the key is
lost with MGMT. -/
def State.secToKeep (s : State) : State :=
  if s.secState = 1 && s.get F.SEC_STATUS_CARRY_ARMED = 1 && s.keep.cs then
    { s with keep := { s.keep with carryLeft := some (3600 * s.keep.carryHours) } }
  else s

/-! ### SDMA channels (R508, R519) -/

/-- A channel is disabled: it issues nothing more, and its registers and the bytes of its transfer have no defined value. -/
def State.sdmaKill (s : State) (n : Nat) : State :=
  match s.sdma.xfers.find? n with
  | none => s
  | some x =>
    let dst := s.get (F.SDMA_DST_ADDR n)
    let cnt := s.get (F.SDMA_COUNT_BYTES n)
    let free (i : Nat) : Nat := Config.undefinedValue (s.fresh + i)
    let start := dst - (x.total - cnt)
    let s1 := if x.fetch || dst / 2 ^ 60 ≠ 0 then s
      else { s with dram := { s.dram with mem := s.dram.mem.writeBytes start ((List.range x.total).map (fun i => free (8 + i) % 256)) } }
    let s1 := ((s1.set (F.SDMA_SRC_ADDR n) (free 0)).set (F.SDMA_DST_ADDR n) (free 1)).set (F.SDMA_COUNT_BYTES n) (free 2)
    let s1 := if x.desc.isSome then s1.set (F.SDMA_DESC_CFG_HEAD n) (free 3) else s1
    { s1 with sdma := { s1.sdma with xfers := s1.sdma.xfers.del n }, fresh := s.fresh + 8 + x.total }

/-- Bytes written to a space by a channel: DRAM as its SDMA client, or the camera's memory. -/
def State.sdmaPut (s : State) (addr : Nat) (bs : List Nat) : State :=
  if addr / 2 ^ 60 = 1 then { s with sdma := { s.sdma with pcie := s.sdma.pcie ++ [(addr % 2 ^ 60, bs)] } }
  else { s with dram := { s.dram with
    mem := s.dram.mem.writeBytes addr bs
    poison := s.dram.poison.filter (fun k => !(decide (addr ≤ 64 * k) && decide (64 * k + 64 ≤ addr + bs.length))) } }

/-- The address of a channel's descriptor in progress. -/
def State.descAddr (s : State) (n : Nat) : Nat := s.get (F.SDMA_DESC_BASE_ADDR n) + 32 * s.get (F.SDMA_DESC_CFG_HEAD n)

/-- R505: the status and DONE_BYTES are written, then CTRL with OWN clear. -/
def State.writeBack (s : State) (n : Nat) (x : Xfer) (status : Nat) : State :=
  match x.desc with
  | none => s
  | some ctrl =>
    let a := s.descAddr n
    (s.sdmaPut (a + 24) ([status, 0, 0, 0] ++ bytesOf 4 (x.total - s.get (F.SDMA_COUNT_BYTES n)))).sdmaPut (a + 20) [clrBit ctrl 0]

/-- R506: a channel meets an error. -/
def State.sdmaError (s : State) (n code : Nat) : State :=
  let s1 := match s.sdma.xfers.find? n with
    | some x =>
      let s1 := s.writeBack n x (0x80 + code)
      { s1 with sdma := { s1.sdma with xfers := s1.sdma.xfers.del n } }
    | none => s
  (((s1.set (F.SDMA_STATUS_RUN n) 5).set (F.SDMA_STATUS_ERR n) code).inc F.SDMA_ERRORS_COUNT).raise (E.SDMA_ERROR n)

/-- A transfer or a descriptor fetch of a channel reaches the camera's memory. -/
def State.sdmaPcie (s : State) (n : Nat) : Bool :=
  match s.sdma.xfers.find? n with
  | none => false
  | some x =>
    (!x.fetch && (s.get (F.SDMA_SRC_ADDR n) / 2 ^ 60 = 1 || s.get (F.SDMA_DST_ADDR n) / 2 ^ 60 = 1)) ||
      ((x.fetch || x.desc.isSome) && s.get (F.SDMA_DESC_BASE_ADDR n) / 2 ^ 60 = 1)

/-- HOST goes down: the camera's channels that use PCIE stop with UNAVAIL. -/
def State.sdmaHostDown (s : State) : State :=
  (List.range 8).foldl (fun s n =>
    if s.sdmaPcie n && s.get (F.SDMA_STATUS_OWNER n) = 0 then s.sdmaError n 6 else s) s

/-- A channel's stop begins (R508). -/
def State.sdmaStop (s : State) (n : Nat) : State :=
  if s.get (F.SDMA_STATUS_FSTATE n) = 2 || s.get (F.SDMA_STATUS_FSTATE n) = 1 then
    ((s.sdmaKill n).set (F.SDMA_STATUS_FSTATE n) 3).set (F.SDMA_STATUS_RUN n) 0
  else s

/-- R519: every channel is disabled. -/
def State.sdmaStopAll (s : State) : State := (List.range 8).foldl (fun s n => (s.sdmaStop n).set (F.SDMA_CTL_EN n) 0) s

end Sys2Proof.Machine
end

