-- ==== Sys2Proof/Machine/Mail.lean ====
section
/-!
DEFINITION. The mailboxes (chapter 17, R485 to R498): doorbells, blocks and queues of the four directions, set P's traffic
with the peer, and the replies of firmware.
-/

namespace Sys2Proof.Machine

/-! ### Who may write (R486, R492) -/

/-- Directions: 0 HI, 1 HO, 2 PO, 3 PI. The owner of set H. -/
def State.hOwner (s : State) : Req := if s.get F.MBX_STATUS_H_OWNER = 0 then .camera else .sniwyn

/-- Whether a requester is the sender of a direction. -/
def State.mbxSender (s : State) (d : Nat) (who : Req) : Bool :=
  match d with
  | 0 => who = s.hOwner
  | 1 | 2 => who = .firmware
  | _ => false

/-- Whether a requester is the receiver of a direction. -/
def State.mbxReceiver (s : State) (d : Nat) (who : Req) : Bool :=
  match d with
  | 1 => who = s.hOwner
  | 0 | 3 => who = .firmware
  | _ => false

/-- A queue. -/
def State.queue (s : State) (d : Nat) : List Nat := s.mbx.qs.getD d []

/-- Gives a queue its words. -/
def State.setQueue (s : State) (d : Nat) (ws : List Nat) : State := { s with mbx := { s.mbx with qs := s.mbx.qs.set d ws } }

/-- R490, R491: a write that a block or queue does not take. -/
def State.mbxBusy (s : State) (d : Nat) : State := (s.inc (F.MBX_BUSY_CNT_COUNT d)).raise E.MBX_BLOCK_BUSY

/-! ### Set P (R492) -/

/-- Kinds of MAILBOX messages. -/
def MB_RING : Nat := 0
/-- A block word. -/
def MB_WORD : Nat := 1
/-- BLK_CTL.GO. -/
def MB_GO : Nat := 2
/-- BLK_CTL.RELEASE. -/
def MB_RELEASE : Nat := 3
/-- Q_PUSH. -/
def MB_PUSH : Nat := 4
/-- A clear of DB. -/
def MB_CLEAR : Nat := 5
/-- BLK_CTL.DONE with its words. -/
def MB_DONE : Nat := 6
/-- Q_POP. -/
def MB_POP : Nat := 7

/-- A change of set P travels to the peer: sender-side of PO, receiver-side of PI. -/
def State.mbxTravel (s : State) (d kind idx : Nat) (ws : List Nat) : State :=
  if d = 2 || d = 3 then s.pairSend (.mailbox kind d idx ws) else s

/-- The SEQ that the next message on VC1 takes. -/
def State.nextVc1 (s : State) : Nat := (s.pair.txSeq.getD 1 0 + (s.pair.txq.filter (fun x => x.1 = 1)).length) % 65536

/-! ### Doorbells (R488, R489) -/

/-- Doorbell bits set; HO_DOORBELL rises for those newly set that are not masked. -/
def State.mbxRing (s : State) (d b : Nat) : State :=
  let old := s.get (F.MBX_DB d)
  let s1 := s.set (F.MBX_DB d) (Nat.lor old (b % 2 ^ 32))
  let fresh := (List.range 32).any (fun i => bit b i && !bit old i && !bit (s.get (F.MBX_MASK d)) i)
  let s1 := s1.raiseIf (d = 1 && fresh) E.MBX_HO_DOORBELL
  let s1 := if d = 2 then s1.mbxTravel 2 MB_RING 0 [b % 2 ^ 32] else s1
  if d = 0 && s1.ready Fn.MBX_H then
    let s2 := s1.set (F.MBX_DB 0) (Nat.land (s1.get (F.MBX_DB 0)) 1)
    if bit b 1 && s.mode = Md.REST && s.mc.trans.isNone then (s2.wakeOut F.PCIE_WAKE_CTL_ON_MBX).beginTrans Md.WAKE 0x07 else s2
  else s1

/-- The receiver clears doorbell bits. -/
def State.mbxClear (s : State) (d b : Nat) : State :=
  (s.set (F.MBX_DB d) (s.get (F.MBX_DB d) - Nat.land (s.get (F.MBX_DB d)) (b % 2 ^ 32))).mbxTravel d MB_CLEAR 0 [b % 2 ^ 32]

/-! ### Queues (R491) -/

/-- A word is pushed, or refused where the queue is full. -/
def State.mbxPush (s : State) (d w : Nat) : State :=
  let q := s.queue d
  if q.length < 64 then
    let s1 := s.setQueue d (q ++ [w % 2 ^ 64])
    let s1 := if d < 2 then s1.crcuFeed (4 + d) 0 (bytesOf 8 w) else s1
    let s1 := s1.raiseIf (d = 1 && q = []) E.MBX_HO_QUEUE
    if d = 2 then
      State.mbxTravel { s1 with mbx := { s1.mbx with fly := s1.mbx.fly ++ [s1.nextVc1] } } 2 MB_PUSH 0 [w % 2 ^ 64]
    else s1
  else (s.inc (F.MBX_Q_STATE_PUSH_REFUSED d)).raise E.MBX_PUSH_REFUSED

/-- Words are removed from the front. -/
def State.mbxPop (s : State) (d n : Nat) : State :=
  let q := s.queue d
  if n = 0 || q.length < n then s.mbxBusy d
  else (s.setQueue d (q.drop n)).mbxTravel d MB_POP 0 [n]

/-! ### Blocks (R490, R498) -/

/-- The words of a block. -/
def State.blkWords (s : State) (d : Nat) : List Nat := (List.range 16).map (fun i => s.get (F.MBX_BLK_WORD d i))

/-- Gives a block its words from the front on. -/
def State.setBlk (s : State) (d : Nat) (ws : List Nat) : State :=
  (List.range (min 16 ws.length)).foldl (fun s i => s.set (F.MBX_BLK_WORD d i) (ws.getD i 0)) s

/-- R498: in set P a half that answers a block posts none of its own, unless it is the lead. -/
def State.mayPost (s : State) (d : Nat) : Bool :=
  d ≠ 2 || s.get (F.MBX_BLK_STATE_STATE 3) ≠ 1 || s.pair.lead || (s.pair.pstate = 6 && s.get F.SYS_STRAPS_PAIR_RANK = 0)

/-- GO. -/
def State.mbxGo (s : State) (d poster : Nat) : State :=
  if s.get (F.MBX_BLK_STATE_STATE d) ≠ 0 then s.mbxBusy d
  else
    let s1 := (s.set (F.MBX_BLK_STATE_STATE d) 1).set (F.MBX_BLK_STATE_POSTER d) poster
    let s1 := s1.raiseIf (d = 1) E.MBX_HO_BLOCK_POSTED
    if d = 2 then s1.mbxTravel 2 MB_GO 0 (s1.blkWords 2) else s1

/-- DONE. -/
def State.mbxDone (s : State) (d : Nat) : State :=
  if s.get (F.MBX_BLK_STATE_STATE d) ≠ 1 then s.mbxBusy d
  else
    let s1 := (s.set (F.MBX_BLK_STATE_STATE d) 2).raiseIf (d = 0) E.MBX_HI_BLOCK_ANSWERED
    if d = 3 then s1.mbxTravel 3 MB_DONE 0 (s1.blkWords 3) else s1

/-- RELEASE. -/
def State.mbxRelease (s : State) (d : Nat) : State :=
  if s.get (F.MBX_BLK_STATE_STATE d) ≠ 2 then s.mbxBusy d
  else (s.set (F.MBX_BLK_STATE_STATE d) 0).mbxTravel d MB_RELEASE 0 []

/-! ### Messages (R495 to R497) -/

/-- Body words that a header announces. -/
def hdrWords (h : Nat) : Nat := h % 256
/-- TYPE of a header. -/
def hdrType (h : Nat) : Nat := h / 256 % 256
/-- SEQ of a header. -/
def hdrSeq (h : Nat) : Nat := h / 65536 % 65536

/-- The header of a reply. -/
def replyHdr (h status n : Nat) : Nat := n + (hdrType h + 0x80) % 256 * 256 + hdrSeq h * 65536 + status * 2 ^ 32

/-- Firmware answers a request: in HO with its doorbell bit 0, in the block, or to the peer that forwarded it. -/
def State.mbxReply (s : State) (r : MbxReq) (status : Nat) (body : List Nat) : State :=
  let h := r.words.headD 0
  match r.via with
  | 0 => ((replyHdr h status body.length :: body).foldl (fun s w => s.mbxPush 1 w) s).mbxRing 1 1
  | 1 =>
    (if body.length ≤ 15 then s.setBlk 0 (replyHdr h status body.length :: body) else s.setBlk 0 [replyHdr h 2 0]).mbxDone 0
  | _ => s.pairSend (.reply r.tb (replyHdr h status body.length :: body))

/-- The outcome of a mode request that came through set H: its reply, and HO bit 1 (R497); one that the peer forwarded has its
reply. -/
def State.mbxModeOutcome (s : State) (r : MbxReq) (status : Nat) : State :=
  let s1 := s.mbxReply r status [s.mode]
  if r.via = 2 then s1 else s1.mbxRing 1 2

/-- The outcome of a mode request that may have come through set H. -/
def State.mbxModeOutcome? (s : State) (r : Option MbxReq) (status : Nat) : State :=
  match r with
  | some r => s.mbxModeOutcome r status
  | none => s

/-- The request at the front of the HI queue, once all its words are there. -/
def State.hiFront (s : State) : Option MbxReq :=
  match s.queue 0 with
  | [] => none
  | h :: rest => if hdrWords h ≤ rest.length && hdrWords h ≤ 63 then some ⟨0, h :: rest.take (hdrWords h), s.tb⟩ else none

/-- The request in the HI block. -/
def State.hiBlock (s : State) : Option MbxReq :=
  if s.get (F.MBX_BLK_STATE_STATE 0) = 1 then
    let ws := s.blkWords 0
    some ⟨1, ws.take (1 + min 15 (hdrWords (ws.headD 0))), s.tb⟩
  else none

/-- The request that firmware serves next from a source: 0 the HI queue, 1 the HI block, 2 the peer. -/
def State.mbxFront (s : State) (via : Nat) : Option MbxReq :=
  if !s.ready Fn.MBX_H then none
  else match via with
    | 0 => s.hiFront
    | 1 => s.hiBlock
    | _ => s.mbx.served.find? (fun r => r.via = 2)

/-- Firmware takes a request: its words leave the queue, or the peer's list. -/
def State.mbxTake (s : State) (r : MbxReq) : State :=
  match r.via with
  | 0 => s.setQueue 0 ((s.queue 0).drop r.words.length)
  | 1 => s
  | _ => { s with mbx := { s.mbx with served := s.mbx.served.erase r } }

/-- Table 17-3. -/
def mbxKnown (t : Nat) : Bool := 1 ≤ t && decide (t ≤ 7)

/-- R496: requests of an unknown TYPE at the front of the HI queue or in the HI block are answered at once. -/
def State.mbxUnknown : Nat → State → State
  | 0, s => s
  | n + 1, s =>
    match [s.mbxFront 0, s.mbxFront 1, s.mbxFront 2].findSome? (fun o => match o with
      | some r => if mbxKnown (hdrType (r.words.headD 0)) then none else some r
      | none => none) with
    | some r => State.mbxUnknown n ((s.mbxTake r).mbxReply r 1 [])
    | none => s

end Sys2Proof.Machine
end

