-- ==== Sys2Proof/Machine/Fatal.lean ====
section
/-!
DEFINITION. Entry to Seal, to Keep and to Quarantine, and the start of a reset flush (chapters 04, 05 and 20).
-/

namespace Sys2Proof.Machine

/-! ### What Seal writes (R153, R154, R157) -/

/-- Whether a slot holds acknowledged data, to be written first. -/
def Slot.acked (x : Slot) : Bool :=
  (x.lst = .durable || x.lst = .programming) && (x.kind = .host || x.kind = .frame || x.kind = .internal)

/-- The KIND of a slot in its Seal descriptor (Table 05-2). -/
def Slot.sealKind (x : Slot) : Nat :=
  if x.kind = .parity then 2 else if x.lst = .mirror then 3 else if x.lst = .filling then 4 else 1

/-- A filling slot with whatever data it holds: SECTOR_MASK counts the bytes received. -/
def State.partialSlot (s : State) (x : Slot) : Slot :=
  match x.owner with
  | .frame id => match s.rec? id with
    | some r =>
      let u := s.recLeafOf r x.key
      { x with mask := min 4096 (8 * (r.blocks.length - 512 * u)), data := payloadLeaf r.blocks u }
    | none => { x with mask := 0 }
  | _ => { x with mask := 0 }

/-- R154: the slots that Seal writes, in order. -/
def State.sealTodo (s : State) : List Slot :=
  s.slots.filter Slot.acked ++ s.slots.filter (fun x => x.kind = .parity) ++
    s.slots.filter (fun x => x.lst = .mirror) ++ (s.slots.filter (fun x => x.lst = .filling)).map s.partialSlot

/-- A record that joins the journal tail whatever its bound: a trigger's own records are covered by the reserve. -/
def State.forceNote (s : State) (r : Rec) : State :=
  { s with map := { s.map with tail := stage s.map.tail r, ts := s.map.ts.step r } }

/-- R32: a running erase that a Reset interrupts counts as done; its block set's counter is journaled. -/
def State.countErases (s : State) : State :=
  (s.bud.ops.filter (fun o => o.kind = .erase && (o.phase = .running || o.phase = .suspended))).foldl
    (fun s o => let k := blockKey o.chan o.lun o.block; s.forceNote (.erase k (s.eraseCount k + 1))) s

/-- The arbiter issues no more: its operations are dropped and the window closes. -/
def State.stopOps (s : State) : State :=
  let s1 := s.closeWindow
  { s1 with bud := { s1.bud with ops := [] }, map := { s1.map with escs := [], relocBuf := [] } }

/-- The sequence that writes the buffer starts: Seal, a reset flush or a controlled entry to Keep. -/
def State.startSealing (s : State) (reset keep : Bool) (cause : Nat) : State :=
  let todo := s.sealTodo
  let s1 := s.countErases.stopOps
  { s1 with led := { s1.led with
      reqs := []
      sealing := some ⟨reset, keep, cause, s.tb, 1, 0, todo, s1.map.tail.length, [0, 0, 0, 0, 0, 0], [], !s.ready Fn.JOURNAL, 0,
        s.get F.TIME_CAL, s.get F.PBUF_ADMIT_SEQ_SEQ⟩ } }.set
    F.LEDGER_STATUS_STOPPED 1

/-! ### Requests that a precedence abandons (R116, R128) -/

/-- Every held mode request, and the request whose transition is abandoned, is refused. -/
def State.refuseHeld (s : State) : State :=
  let s1 := s.raiseIf s.mc.heldReg.isSome E.SYS_MODE_REFUSED
  let s1 := match s1.mc.heldCmd with
    | some (_, c) => s1.modeRefused.vendor c 0x81 s1.mode
    | none => s1
  let s1 := match s1.mc.heldMbx with
    | some (_, r) => s1.modeRefused.mbxModeOutcome r 4
    | none => s1
  let s1 := match s1.mc.waiter with
    | some c => s1.vendor c 0x81 s1.mode
    | none => s1
  let s1 := s1.mbxModeOutcome? s1.mc.waitMbx 4
  let s1 := s1.mc.takeWait.foldl (fun s t => s.vendor t.1 0x81 s.mode) s1
  { s1 with mc := { s1.mc with heldReg := none, heldCmd := none, heldMbx := none, waiter := none, waitMbx := none, takeWait := []
                               trans := none, drain := none } }

/-! ### Keep -/

/-- Keep is entered: every island but KEEP is off; what KEEP, flash and the code store hold stays, but for the
calendar's VALID where it is stale (R626). -/
def State.toKeep (s : State) (cause : Nat) : State :=
  let old := s.mode
  let s1 := s.secToKeep.resetAll true
  let s1 := if s1.get F.TIME_STATUS_STALE = 1 then { s1 with keep := { s1.keep with valid := false } } else s1
  let s1 := (s1.set F.SYS_MODE_PREV old).set F.SYS_MODE_CAUSE cause
  (s1.set F.PWR_ISL_STATE_STATE 2).set F.SYS_MODE_CUR Md.KEEP

/-! ### Seal (R116, R153, R165) -/

/-- The functions of a non-destructive BIST run and of the service DMA end at the trigger (R519, R597). -/
def State.stopServices (s : State) : State :=
  let s1 := s.sdmaStopAll
  State.set { s1.set F.BIST_STATUS_RUN_BUSY 0 with bist := { run := [] } } F.BIST_STATUS_SEG_LEFT 0

/-- The trigger of Seal, from any mode that Table 04-4 names: from Rest the device goes to Keep; a reset flush under way
continues as Seal (R130). -/
def State.sealEntry (s : State) (cause : Nat) : State :=
  if s.mode = Md.KEEP || s.mode = Md.SEAL then s
  else if s.mode = Md.REST then (s.refuseHeld.toD0).toKeep cause
  else
    let s1 := if s.leads || s.follows || s.get F.PAIR_STATUS_ALIGNED = 1 then s.pairSend .sealing else s
    let s1 := match s1.led.sealing with
      | some z => { s1 with led := { s1.led with sealing := some { z with reset := false, keep := false } } }
      | none => s1.startSealing false false cause
    let s1 := s1.refuseHeld.toD0.fiStop.stopServices
    let keepSlots := s1.slots
    let s1 := (s1.set F.PWR_ISL_REEN_REENABLE_PENDING 0).enterMode Md.SEAL cause
    let s1 := [2, 3, 5].foldl State.gateIsland s1
    { s1 with slots := keepSlots }

/-! ### The reset flush (R103) -/

/-- R555, R577: a sector operation of the code store is in progress. -/
def State.codeBusy (s : State) : Bool :=
  s.get F.CODE_STATUS_BUSY = 1 && (s.get F.CODE_STATUS_OP = 2 || s.get F.CODE_STATUS_OP = 3)

/-- Sectors that hold something as the part leaves manufacture: slot A, the recovery loader and the configuration. -/
def factorySector (sec : Nat) : Bool := sec < 128 || (384 ≤ sec && decide (sec < 416))

/-- A sector that still holds what it held at manufacture. -/
def State.factory (s : State) (sec : Nat) : Bool := factorySector sec && !s.nv.touched.contains sec

/-- A byte of the code store. The memory holds the complement, so that what nothing has written reads as erased, 0xFF. -/
def State.norByte (s : State) (a : Nat) : Nat :=
  if s.factory (a / 65536) then Config.factoryByte a % 256 else 255 - s.nv.store.read a

/-- Bytes of the code store. -/
def State.norBytes (s : State) (a n : Nat) : List Nat := (List.range n).map (fun i => s.norByte (a + i))

/-- A sector is erased. -/
def State.norErase (s : State) (sec : Nat) : State :=
  { s with nv := { s.nv with
    touched := if factorySector sec && !s.nv.touched.contains sec then sec :: s.nv.touched else s.nv.touched
    store := s.nv.store.filter (fun c => c.1 / 65536 ≠ sec) } }

/-- Bytes of one sector written to the code store. -/
def State.norWrite (s : State) (a : Nat) (bs : List Nat) : State :=
  let sec := a / 65536
  let old := s.norBytes (65536 * sec) 65536
  let s1 := if s.factory sec then
      let s2 := s.norErase sec
      { s2 with nv := { s2.nv with store := s2.nv.store.writeBytes (65536 * sec) (old.map (fun b => 255 - b % 256)) } }
    else s
  { s1 with nv := { s1.nv with store := s1.nv.store.writeBytes a (bs.map (fun b => 255 - b % 256)) } }

/-- R578: a sector operation that is cut off leaves its sector's contents unknown. -/
def State.cutCode (s : State) : State :=
  if s.codeBusy then
    let sec := s.code.addr / 65536
    let s1 := (s.norErase sec).norWrite (sec * 65536) ((List.range 65536).map (fun i => Config.undefinedValue (s.fresh + i) % 256))
    (((State.set { s1 with fresh := s.fresh + 65536 } F.CODE_STATUS_BUSY 0).set F.CODE_STATUS_OP 0).set F.CODE_STATUS_ERR 6).raise
      E.CODE_CMD_ERR
  else s

/-- The pending reset takes effect once its flush and a sector operation have ended, and RESET_N has risen where it is one of
its causes (R103, R577, Table 22-6). -/
def State.resetDue (s : State) : State :=
  if s.mc.flushing ≠ 0 && s.mc.flushDone && !s.codeBusy && (s.pins.resetN || !bit s.mc.flushing 1) then
    s.toD0.fullReset false s.mc.flushing s.mc.flushCause
  else s

/-- A RESET_N, watchdog or soft reset (bits 1, 3 and 4 of RESET_CAUSE): its flush begins, or it merges with the one under way;
in Rest there is nothing to flush; a sector operation defers it. -/
def State.resetTrigger (s : State) (bit' cause : Nat) : State :=
  if s.mode = Md.KEEP || s.mode = Md.SEAL then s
  else if s.mc.flushing ≠ 0 then { s with mc := { s.mc with flushing := setBit s.mc.flushing bit' } }
  else
    let s1 := if s.mode = Md.REST then { s with mc := { s.mc with flushDone := true } }
      else match s.led.sealing with
        | some z => { s with led := { s.led with sealing := some { z with reset := true, keep := false, cause := cause } } }
        | none => s.startSealing true false cause
    let s1 := { s1 with mc := { s1.mc with flushing := 2 ^ bit', flushCause := cause } }
    let s1 := if s1.codeBusy then
        (State.set { s1 with keep := { s1.keep with deferred := true } } F.CODE_STATUS_DEFERRING 1).raise E.SYS_RESET_DEFERRED
      else s1
    s1.resetDue

/-! ### Quarantine (R116, R124, R595) -/

/-- The half leaves the pair (R448): LEAVE goes out, mirror-pending slots become durable and held completions post; commands
relayed to the peer and not yet run complete here as `refused` says. -/
def State.pairLeave (s : State) (planned : Bool) (pstate : Nat) : State :=
  if s.pair.pstate = 0 then s
  else
    let s1 := (s.pairSend (.leave planned))
    let marks := (s1.slots.filter (fun x => x.lst = .mirror)).map (·.key)
    let s1 := (s1.release (fun _ => true)).releaseHeld true
    let s1 := s1.pair.relays.foldl (fun s r => s.vendor r.id 0x81 s.mode) s1
    let s1 := { s1 with pair := { s1.pair with relays := [], mine := [], theirs := [], inbox := [], heldEarly := [] } }
    let s1 := s1.setPstate pstate
    if planned then s1 else s1.markSegs marks

/-- Requests that the ledger has not admitted are dropped: writes of the camera and the dock complete with 7h/0x81 (R221), and
a frame whose data would need them is never reported durable. -/
def State.dropWrites (s : State) : State :=
  let owners := (s.led.reqs.flatMap (fun r => r.slots.map (·.owner))).eraseDups
  let s1 := { s with led := { s.led with reqs := s.led.reqs.filter SlotReq.inner } }
  let s1 := { s1 with frm := { s1.frm with recs := s1.frm.recs.filter (fun r => !owners.contains (.frame r.id) && r.units ≤ r.asked) } }
  owners.foldl (fun s o => match o with
    | .cmd c => (s.dropSlots (fun x => x.owner = .cmd c && x.lst = .filling)).vendor c 0x81 s.mode
    | _ => s) s1

/-- R263, R280: every take that is open or closing closes with reason 3; Take Stops that wait complete with 7h/0x87. -/
def State.abandonTakes (s : State) : State :=
  let s1 := s.frm.starts.foldl (fun s x => State.vendor { s with
      frm := { s.frm with starts := s.frm.starts.filter (fun y => y.2 ≠ x.2) }
      map := { s.map with waiting := s.map.waiting.filter (fun w => match w.1 with
        | .take t => t.num ≠ x.2
        | _ => true) } } x.1 0x81 s.mode) s
  s1.liveTakes.foldl (fun s t =>
    let s1 := (s.closeTakeFrames t.num).closeTakeOrphans t.num
    let s1 := match t.stopper with
      | some c => s1.vendor c 0x87 0
      | none => s1
    (s1.takeClosed t 3).dropWaits t.num) s1

/-- A fatal fault: its TYPE 3 record, the SMART warning and the change to Quarantine, from the modes of Table 04-4. -/
def State.quarantine (s : State) (code detail cause : Nat) : State :=
  let s1 := { s with nv := { s.nv with fatal := some (code, detail, s.mode, s.tb), smartRel := true } }
  if [Md.WAKE, Md.IDLE, Md.RECORD, Md.REVIEW, Md.OFFLOAD, Md.GROOM, Md.UPDATE, Md.SERVICE].contains s.mode
      && !(s.mode = Md.WAKE && s.get F.SYS_STRAPS_ISLAND_TEST = 1) then
    let s1 := s1.refuseHeld.abandonTakes.dropWrites.fiStop
    let s1 := if s1.led.sealing.any (fun z => z.keep) then
        State.set { s1 with led := { s1.led with sealing := none } } F.LEDGER_STATUS_STOPPED 0 else s1
    let s1 := s1.pairLeave false 0
    let s1 := s1.rearmEvent 0x04 0
    s1.changeMode Md.QUARANTINE cause
  else s1

end Sys2Proof.Machine
end

