-- ==== Sys2Proof/Machine/Down.lean ====
section
/-!
DEFINITION. What goes down with a port, a link or an island: connections of the target (chapter 16), the SerDes links, and what an
island leaves behind as it stops (R95, R250, R448, R458).
-/

namespace Sys2Proof.Machine

/-! ### Connections of the target -/

/-- A command of a connection. -/
def Cmd.onConn (c : Cmd) (conn : Nat) : Bool := c.id.src = .dock conn

/-- A connection is gone: its commands never complete, and what they had asked of the ledger returns (R29, R467). -/
def State.dropConn (s : State) (conn : Nat) : State :=
  let mine (o : Owner) : Bool := match o with
    | .cmd c => c.src = .dock conn
    | _ => false
  let s1 := { s with
    net := { s.net with
      conns := s.net.conns.del conn
      ctrls := s.net.ctrls.map (fun (k, (c : Ctrl)) => (k, { c with aers := c.aers.filter (fun a => a.1 ≠ conn) })) }
    host := { s.host with cmds := s.host.cmds.filter (fun c => !c.onConn conn) }
    led := { s.led with reqs := s.led.reqs.filter (fun (r : SlotReq) => !r.slots.any (fun (x : Slot) => mine x.owner)) } }
  (s1.dropSlots (fun x => x.lst = .filling && mine x.owner)).raise E.NVTCP_DISCONNECT

/-- A connection closes; with its admin queue's connection a controller and its other connections go (NVMe over Fabrics). -/
def State.closeConn (s : State) (conn : Nat) : State :=
  match s.net.conns.find? conn with
  | none => s
  | some c =>
    let s1 := s.dropConn conn
    match c.ctrl with
    | some k =>
      if c.qid = 0 then
        let rest := (s1.net.conns.filter (fun e => e.2.ctrl = some k)).map (·.1)
        rest.foldl State.dropConn { s1 with net := { s1.net with ctrls := s1.net.ctrls.del k } }
      else s1
    | none => s1

/-- Every connection of a port closes with a reset segment (R458). -/
def State.resetConns (s : State) (p : Nat) : State :=
  ((s.net.conns.filter (fun e => e.2.port = p)).map (·.1)).foldl (fun s id =>
    (if s.get (F.NET_STATUS_LINK p) = 1 then s.netSend p (.rst p (some id)) else s).closeConn id) s

/-- R479, R123: the closing of Offload ends with its last connection. -/
def State.offloadCheck (s : State) : State :=
  match s.mc.offCause with
  | some c =>
    if s.net.conns = [] && s.mode = Md.OFFLOAD && s.mc.trans.isNone then
      State.beginTrans { (s.set F.NVTCP_STATUS_CLOSING 0) with mc := { s.mc with offCause := none } } Md.IDLE c
    else s
  | none => s

/-- The closing of Offload (R479): every connection is closed with a FIN and open contexts close INCOMPLETE. -/
def State.closeOffload (s : State) : State :=
  let s1 := (s.net.conns.map (·.1)).foldl (fun s id => match s.net.conns.find? id with
    | some c => (s.netSend c.port (.fin id)).closeConn id
    | none => s) s
  ((s1.closePort 0).closePort 1).offloadCheck

/-- No command of the dock is outstanding. -/
def State.dockIdle (s : State) : Bool := !s.host.cmds.any (fun c => match c.id.src with
  | .dock _ => true
  | _ => false)

/-! ### Links -/

/-- R458, R482: a port's link goes down: its function clears and its hasher's contexts close INCOMPLETE. -/
def State.netLinkDown (s : State) (p : Nat) : State :=
  if s.get (F.NET_STATUS_LINK p) = 0 then s
  else
    let s1 := ((s.set (F.NET_STATUS_LINK p) 0).set (F.NET_STATUS_FEC_LOCK p) 0).set (F.NET_STATUS_PAUSED p) 0
    ((s1.raise (E.NET_LINK_DOWN p)).clearReady [42 + p]).closePort p

/-- The Busaist lanes lose lock and the link its alignment (R253). -/
def State.busaistDown (s : State) : State :=
  let s1 := (s.unalign.set F.INGEST_STATUS_LOCKED 0).clearReady [Fn.BUSAIST_LINK]
  s1.ingestStopCheck

/-- The Busaist, pair and Ethernet links go down with their functions (R79, R99). -/
def State.serdesDown (s : State) : State :=
  let s1 := s.busaistDown
  let s1 := if s1.get F.PAIR_STATUS_ALIGNED = 1 then s1.pairLinkDown (if s1.get F.PAIR_CTL_EN = 1 then 1 else 0)
    else s1.clearReady [Fn.PAIR_LINK]
  let s1 := [0, 1].foldl State.netLinkDown s1
  s1.clearReady [Fn.NET0, Fn.NET1]

/-- The PCIe link goes down: its function clears with those that need it (R108). -/
def State.pcieDown (s : State) : State := s.clearReady [Fn.PCIE_LINK]

/-! ### Starts of the controllable functions (R111) -/

/-- The pair link starts once its island is ON, PAIR.CTL.EN and CONFIG are set and a peer is fitted; without one the half is
ABSENT (Table 15-5). -/
def State.startPair (s : State) : State :=
  if s.get F.PAIR_STATUS_FSTATE = 0 && s.get F.PAIR_CTL_EN = 1 && s.isl 4 = 2 && s.ready Fn.CONFIG then
    (if s.pins.peerFitted then s.set F.PAIR_STATUS_FSTATE 1 else s.setPstate 1) else s

/-- A port starts once its island is ON and NETp.CTL.EN and CONFIG are set (R458). -/
def State.startNet (s : State) (p : Nat) : State :=
  if s.get (F.NET_STATUS_FSTATE p) = 0 && s.get (F.NET_CTL_EN p) = 1 && s.isl 5 = 2 && s.ready Fn.CONFIG then
    s.set (F.NET_STATUS_FSTATE p) 1 else s

/-- Whether discovery may run on a channel: CONFIG and BUDGET are set, its bank is valid and its island is STARTING or ON. -/
def State.mayDiscover (s : State) (c : Nat) : Bool :=
  s.ready Fn.CONFIG && s.ready Fn.BUDGET && s.quadPowered (c / 16) && s.railValid (11 + c / 16) &&
    (s.isl (8 + c / 4) = 1 || s.isl (8 + c / 4) = 2)

/-- Channels that may discover and read OFF begin. -/
def State.startDiscovery (s : State) : State :=
  (List.range 64).foldl (fun s c => if s.chanState c = 5 && s.mayDiscover c then s.set (F.FCH_STATUS_STATE c) 1 else s) s

/-- The controllable functions whose conditions hold start. -/
def State.startFns (s : State) : State := (((s.startIngest.startPair).startNet 0).startNet 1).startDiscovery

/-! ### Islands -/

/-- What an island leaves behind as its clock goes: frames close on INGEST, the pair is left, ports reset their connections. -/
def State.quiesce (s : State) (i : Nat) : State :=
  match i with
  | 3 => s.ingestDown
  | 4 => (s.pairLeave false 0).pairLinkDown 0
  | 5 => State.offloadCheck ([0, 1].foldl (fun s p => (s.resetConns p).netLinkDown p) s)
  | _ => s

/-- An island of those that are not KEEP or MGMT is reset (R105, R106). -/
def State.resetIsland (s : State) (i : Nat) : State := (s.quiesce i).islandReset i

/-- An island goes to OFF (R95). -/
def State.offIsland (s : State) (i : Nat) : State := (s.quiesce i).gateIsland i

end Sys2Proof.Machine
end

