-- ==== Sys2Proof/Machine/Power.lean ====
section
/-!
DEFINITION. Supplies, references, clocks, island power and resets (chapters 03 and 04): the commands and pin events of rails,
banks, references, PLLs, islands and reset inputs.
-/

namespace Sys2Proof.Machine

/-! ### Power-on reset and rails (R73 to R81) -/

/-- R78: the rails of groups A, B and C. -/
def State.railsAtoC (s : State) : Bool := (List.range 8).all s.railValid

/-- R78, R121: what must hold, besides the time that the event itself says has passed, for a power-on reset to release. -/
def State.porHolds (s : State) : Bool :=
  s.railsAtoC && s.pins.resetN && !s.pins.pwrFail && s.get F.CLK_REF_STATUS_XTAL_OK = 1

/-- Power-on reset releases: the straps are sampled and Wake begins with cause 0x00. The device is held in reset only while it is
in Keep; after a Seal or a controlled entry with its rails kept, R121's other restarts apply. -/
def execPowerOnResetRelease (straps unstable : Nat) (s : State) : Host.Outcome State Fault Refusal :=
  done (if s.mode = Md.KEEP && s.porHolds then s.restart straps unstable 0x00 else s)

/-- The level field of a bank: 0 VDDIO_A, 1 to 4 VDDQ_FLA to VDDQ_FLD. -/
def bankField : Nat → Field
  | 0 => F.PWR_RAIL_STATUS_IO_LEVEL
  | 1 => F.PWR_RAIL_STATUS_FLA_LEVEL
  | 2 => F.PWR_RAIL_STATUS_FLB_LEVEL
  | 3 => F.PWR_RAIL_STATUS_FLC_LEVEL
  | _ => F.PWR_RAIL_STATUS_FLD_LEVEL

/-- The rail of a bank (RAIL_STATUS.VALID). -/
def bankRail (b : Nat) : Nat := if b = 0 then 9 else 10 + b

/-- R74: the slow I/O bank is INVALID: ASER0, ASER1 and LTC fault, and PERST_N counts as asserted. -/
def State.ioInvalid (s : State) : State :=
  let s1 := ((s.faultFn Fn.ASER0).faultFn Fn.ASER1).faultFn Fn.LTC
  let s1 := if s1.isl 2 = 1 || s1.isl 2 = 2 then s1.resetIsland 2 else s1
  s1.raise E.PWR_IO_INVALID

/-- R73: a bank is decided, once after each power-on reset, at level 1 or 2, or INVALID (3). -/
def execBankLevelDecided (bank level : Nat) (s : State) : Host.Outcome State Fault Refusal :=
  done (
    if s.mode = Md.KEEP || 4 < bank || level = 0 || 3 < level || s.get (bankField bank) ≠ 0 then s
    else
      let s1 := s.set (bankField bank) level
      if level = 3 then (if bank = 0 then s1.ioInvalid else s1.raise E.PWR_VDDQ_INVALID)
      else
        let s1 := s1.setBitTo F.PWR_RAIL_STATUS_VALID (bankRail bank) true
        if bank = 0 then s1
        else (List.range 4).foldl (fun s i => s.startIsland (8 + 4 * (bank - 1) + i)) s1)

/-- R80: VIN_CFG.BELOW, which reads 1 while VDDA_SNS stands tripped. VIN_LOW reports a change to below. -/
def State.noteVin (s : State) : State :=
  let low := s.pins.vinLow || !s.railValid 1
  let was := s.get F.PWR_VIN_CFG_BELOW = 1
  (s.set F.PWR_VIN_CFG_BELOW (b2n low)).raiseIf (low && !was) E.PWR_VIN_LOW

/-- R79: A becomes the last sample less the guard band. -/
def State.guardSample (s : State) : State :=
  let s1 := s.set F.LEDGER_AVAILABLE_A (s.get F.LEDGER_AVAILABLE_A - 256 * s.get F.LEDGER_ADMIT_GUARD_UJ)
  s1.noteHeadroom.noteFlow

/-- R79: the consequence of a trip, by rail. -/
def State.tripEffect (s : State) (rail : Nat) : State :=
  match rail with
  | 0 => s.toD0.toKeep 0x00
  | 1 => s.guardSample.noteVin.sealEntry 0x10
  | 6 | 8 => s.serdesDown.pcieDown
  | 9 => s.clearReady [Fn.ASER0, Fn.ASER1, Fn.LTC]
  | 15 => s
  | _ => s.sealEntry 0x10

/-- A monitor trips: RAIL_TRIP, the rail's VALID bit, and the consequence of R79. Only rails that are valid can trip; in Keep a
rail that goes only ceases to be valid. -/
def execRailTrip (rail : Nat) (s : State) : Host.Outcome State Fault Refusal :=
  done (
    if 14 < rail || !s.railValid rail then s
    else
      let s1 := s.setBitTo F.PWR_RAIL_STATUS_VALID rail false
      if s.mode = Md.KEEP then s1
      else ((s1.setBitTo F.PWR_RAIL_TRIP_TRIP rail true).raise E.PWR_RAIL_TRIP).tripEffect rail)

/-- A rail becomes valid (again): its VALID bit sets, for a decided bank only at a level that can be used (R73). -/
def execRailValid (rail : Nat) (s : State) : Host.Outcome State Fault Refusal :=
  done (
    let usable := if rail = 9 then s.get (bankField 0) = 1 || s.get (bankField 0) = 2
      else if 11 ≤ rail && rail ≤ 14 then s.quadPowered (rail - 11) else rail ≤ 10
    if usable then
      let s1 := s.setBitTo F.PWR_RAIL_STATUS_VALID rail true
      if rail = 1 && s.mode ≠ Md.KEEP then s1.noteVin else s1
    else s)

/-- R80: the comparator looks at VIN_SENSE: below the threshold, or at TH_MV + 20 mV or more; between the two it keeps its state. -/
def State.compareVin (s : State) : State :=
  let th := s.get F.PWR_VIN_CFG_TH_MV
  let mv := s.pins.vinMv
  let low := if mv < th then true else if th + 20 ≤ mv then false else s.pins.vinLow
  let s1 := State.noteVin { s with pins := { s.pins with vinLow := low } }
  if low && s1.get F.PWR_VIN_CFG_EN = 1 then s1.sealEntry 0x0F else s1

/-- VIN_SENSE comes to a voltage, in mV. In Keep it is not monitored. -/
def execVinSenseLow (mv : Nat) (s : State) : Host.Outcome State Fault Refusal :=
  done (
    let s1 : State := { s with pins := { s.pins with vinMv := mv } }
    if s.mode = Md.KEEP then s1 else s1.compareVin)

/-- PWR_FAIL_N after its filter: asserted it starts Seal, or Keep from Rest (Table 04-6). -/
def execPwrFailN (low : Bool) (s : State) : Host.Outcome State Fault Refusal :=
  done (
    let s1 := { s with pins := { s.pins with pwrFail := low } }
    if low && !s.pins.pwrFail then s1.sealEntry 0x0E else s1)

/-! ### References and PLLs (R87, R89, R98, R99) -/

/-- Clears the lock bits of PLLs that have lost their reference. -/
def State.unlockPlls (s : State) (ps : List Nat) : State := ps.foldl (fun s p => s.setBitTo F.CLK_PLL_LOCK_LOCK p false) s

/-- R98: XTAL_IN is lost: the PLLs that it feeds enter holdover and Seal begins. -/
def execXtalLoss (s : State) : Host.Outcome State Fault Refusal :=
  done (
    if s.get F.CLK_REF_STATUS_XTAL_OK = 0 then s
    else
      let s1 := s.set F.CLK_REF_STATUS_XTAL_OK 0
      if s.mode = Md.KEEP then s1
      else
        let s1 := (s1.unlockPlls [0, 1, 2, 3, 4, 5, 6]).inc F.CLK_LOSS_COUNT_XTAL
        (s1.raise E.CLK_XTAL_LOSS).sealEntry 0x11)

/-- R99: PE_REFCLK (1) or SD_REFCLK (2) is lost. The loss of PE_REFCLK in an L1 substate is neither counted nor signalled. -/
def execRefClockLoss (ref : Nat) (inL1ss : Bool) (s : State) : Host.Outcome State Fault Refusal :=
  done (
    if ref = 1 then
      if s.get F.CLK_REF_STATUS_PE_REFCLK_OK = 0 then s
      else
        let s1 := s.set F.CLK_REF_STATUS_PE_REFCLK_OK 0
        if s.mode = Md.KEEP then s1
        else if inL1ss then (State.unlockPlls { s1 with mc := { s1.mc with l1ssRef := true } } [9]).set F.PCIE_STATUS_L1SS 1
        else
          let s1 := (s1.inc F.CLK_LOSS_COUNT_PE_REFCLK).raise E.CLK_PE_REFCLK_LOSS
          ((s1.unlockPlls [9]).raise E.CLK_PLL_UNLOCK).pcieDown
    else if ref = 2 then
      if s.get F.CLK_REF_STATUS_SD_REFCLK_OK = 0 then s
      else
        let s1 := s.set F.CLK_REF_STATUS_SD_REFCLK_OK 0
        if s.mode = Md.KEEP then s1
        else
          let s1 := (s1.inc F.CLK_LOSS_COUNT_SD_REFCLK).raise E.CLK_SD_REFCLK_LOSS
          ((s1.unlockPlls [7, 8]).raise E.CLK_PLL_UNLOCK).serdesDown
    else s)

/-- The REF_STATUS bit of a reference: 0 XTAL_IN, 1 PE_REFCLK, 2 SD_REFCLK. -/
def refField : Nat → Field
  | 0 => F.CLK_REF_STATUS_XTAL_OK
  | 1 => F.CLK_REF_STATUS_PE_REFCLK_OK
  | _ => F.CLK_REF_STATUS_SD_REFCLK_OK

/-- R99: a lost reference has been present for 100 µs. The return of PE_REFCLK from an L1 substate raises nothing. -/
def execRefRestored (ref : Nat) (s : State) : Host.Outcome State Fault Refusal :=
  done (
    if 2 < ref || s.get (refField ref) = 1 then s
    else
      let s1 := s.set (refField ref) 1
      if s.mode = Md.KEEP then s1
      else if ref = 1 && s.mc.l1ssRef then State.set { s1 with mc := { s1.mc with l1ssRef := false } } F.PCIE_STATUS_L1SS 0
      else s1.raise E.CLK_REF_RESTORED)

/-- The reference of a PLL is present (Table 03-5). -/
def State.pllRef (s : State) (p : Nat) : Bool :=
  s.get (if p ≤ 6 then F.CLK_REF_STATUS_XTAL_OK else if p ≤ 8 then F.CLK_REF_STATUS_SD_REFCLK_OK else F.CLK_REF_STATUS_PE_REFCLK_OK) = 1

/-- The active spread of PLL `p` of CLK.SSC: 1 PLL_CORE, 2 PLL_DR, 3 to 6 PLL_FLA to PLL_FLD. -/
def State.sscActive (s : State) (p : Nat) : Nat :=
  match p with
  | 1 => s.get F.CLK_SSC_CORE
  | 2 => s.get F.CLK_SSC_DR
  | 3 => s.get F.CLK_SSC_FLA
  | 4 => s.get F.CLK_SSC_FLB
  | 5 => s.get F.CLK_SSC_FLC
  | _ => s.get F.CLK_SSC_FLD

/-- A spread PLL takes the profile last adopted. -/
def State.takeSsc (s : State) (p : Nat) : State :=
  if 1 ≤ p && p ≤ 6 then { s with mc := { s.mc with ssc := s.mc.ssc.set (p - 1) (s.sscActive p) } } else s

/-- R87: a PLL that runs locks. -/
def execPllLock (pll : Nat) (s : State) : Host.Outcome State Fault Refusal :=
  done (if s.mode ≠ Md.KEEP && pll ≤ 9 && s.pllRef pll && s.pllNeeded pll then
    (s.setBitTo F.CLK_PLL_LOCK_LOCK pll true).takeSsc pll else s)

/-- R89: a spread PLL moves to the profile last adopted. -/
def execSscProfileChange (pll : Nat) (s : State) : Host.Outcome State Fault Refusal :=
  done (if s.getBit F.CLK_PLL_LOCK_LOCK pll then s.takeSsc pll else s)

/-- CLK.LOSS_CLR.GO. -/
def execLossClr (who : Req) (s : State) : Host.Outcome State Fault Refusal :=
  done (s.rwAction who Pg.CLK 0x120 (fun s => s.clear [F.CLK_LOSS_COUNT_XTAL, F.CLK_LOSS_COUNT_PE_REFCLK, F.CLK_LOSS_COUNT_SD_REFCLK]))

/-! ### Islands (R94, R95, R106) -/

/-- R94: the islands whose ISL_EN bit software may write. -/
def islWritable (i : Nat) : Bool := [3, 4, 5].contains i || (8 ≤ i && i ≤ 23)

/-- Table 04-5, the row of PWR.ISL_EN: the mode holds the request. -/
def State.islHeld (s : State) (i : Nat) : Bool :=
  s.mode = Md.REST || (s.mode = Md.UPDATE && [3, 4, 5].contains i) || (s.mode = Md.QUARANTINE && i ≠ 5)

/-- R95: what a carried-out write of one ISL_EN bit does: the bit takes the value, and the request acts or is held (R112). -/
def State.writeIslEn (s : State) (i : Nat) (en : Bool) : State :=
  let s1 := s.setBitTo F.PWR_ISL_EN_EN i en
  if s.islHeld i then s1 else s1.islReq i en

/-- A write of an island's ISL_EN bit. -/
def execIslEnWrite (who : Req) (island : Nat) (en : Bool) (s : State) : Host.Outcome State Fault Refusal :=
  done (s.regAction who Pg.PWR 0x118 (fun s =>
    if s.mode = Md.SEAL then s.modeRefused
    else if islWritable island then s.writeIslEn island en else s))

/-- R95, R132: a stop completes, and the island starts again where REENABLE_PENDING is set and the mode permits it. -/
def execIslandStopComplete (island : Nat) (s : State) : Host.Outcome State Fault Refusal :=
  done (
    if island < 2 || 23 < island || s.isl island ≠ 3 then s
    else
      let re := s.getBit F.PWR_ISL_REEN_REENABLE_PENDING island
      let s1 := (s.offIsland island).setBitTo F.PWR_ISL_REEN_REENABLE_PENDING island false
      if re then s1.startIsland island else s1)

/-- R105, R74: HOST stays in reset while PERST_N is asserted or its bank is INVALID. -/
def State.heldInReset (s : State) (i : Nat) : Bool := i = 2 && (s.pins.perstN || s.get F.PWR_RAIL_STATUS_IO_LEVEL = 3)

/-- An island that starts comes ON; a stop latched meanwhile begins (R95), and its functions start (R111). -/
def execIslandStarted (island : Nat) (s : State) : Host.Outcome State Fault Refusal :=
  done (
    if island < 2 || 23 < island || s.isl island ≠ 1 || s.heldInReset island || !s.powerable island then s
    else
      let s1 := s.islandTo island 2
      if bit s1.mc.islLatch island then
        State.askStop { s1 with mc := { s1.mc with islLatch := clrBit s1.mc.islLatch island } } island
      else s1.startFns)

/-! ### Resets (R102 to R107, R577) -/

/-- RESET_N asserted after its filter (Table 04-6). -/
def execResetNAssert (s : State) : Host.Outcome State Fault Refusal :=
  done (if s.pins.resetN then State.resetTrigger { s with pins := { s.pins with resetN := false } } 1 0x01 else s)

/-- RESET_N released: a reset whose flush has ended takes effect, and in Keep it restarts the device after a controlled entry
(R121), or after a Seal that found it asserted (R97). -/
def execResetNRelease (straps unstable : Nat) (s : State) : Host.Outcome State Fault Refusal :=
  done (
    if s.pins.resetN then s
    else
      let s1 := { s with pins := { s.pins with resetN := true } }
      if s.mode = Md.KEEP then
        (if (s1.keep.controlled || s1.keep.resetHeld) && s1.porHolds then s1.restart straps unstable 0x01 else s1)
      else s1.resetDue)

/-- PERST_N asserted: HOST is reset in every mode but Keep, Rest and Seal; UPD.SUPPLY returns to UNKNOWN with it (R570). -/
def execPerstNAssert (s : State) : Host.Outcome State Fault Refusal :=
  done (
    let s1 := { s with pins := { s.pins with perstN := true } }
    if s.mode = Md.KEEP || s.mode = Md.REST || s.mode = Md.SEAL then s1
    else if s.isl 2 = 1 || s.isl 2 = 2 then ((s1.setBitTo F.SYS_RESET_CAUSE_CAUSE 2 true).resetIsland 2).sdmaHostDown
    else s1)

/-- PERST_N deasserted: from Rest, Wake begins; elsewhere HOST may leave its reset. -/
def execPerstNDeassert (s : State) : Host.Outcome State Fault Refusal :=
  done (
    let s1 := { s with pins := { s.pins with perstN := false, wakeN := true } }
    if s.mode = Md.REST && s.pins.perstN && s.mc.trans.isNone && s.mc.drain.isNone then s1.beginTrans Md.WAKE 0x15 else s1)

/-- The watchdog expires (R107); it is suspended in Keep, in Seal and during a reset flush. -/
def execWatchdogExpiry (s : State) : Host.Outcome State Fault Refusal :=
  done (if s.ready Fn.WATCHDOG && s.mc.flushing = 0 then s.resetTrigger 3 0x02 else s)

/-- The key of SYS.RESET_CTL. -/
def resetKey : Nat := 0xA5C3

/-- SYS.RESET_CTL.SOFT_RESET. -/
def execSoftReset (who : Req) (key : Nat) (s : State) : Host.Outcome State Fault Refusal :=
  done (s.regAction who Pg.SYS 0x128 (fun s =>
    if key ≠ resetKey then s else if s.mode = Md.SEAL then s.modeRefused else s.resetTrigger 4 0x03))

/-- R106: whether a write of ISLAND_RESET is carried out. -/
def State.mayResetIsland (s : State) (i : Nat) : Bool :=
  s.mode ≠ Md.REST && s.mode ≠ Md.SEAL &&
    (if i = 6 || i = 7 then s.mode = Md.SERVICE && s.slots = []
     else 2 ≤ i && i ≤ 23)

/-- SYS.RESET_CTL.ISLAND_RESET: a gated island has nothing to reset; the reset of any other holds it for 1 µs, after which it
starts. -/
def execIslandReset (who : Req) (key island : Nat) (s : State) : Host.Outcome State Fault Refusal :=
  done (s.regAction who Pg.SYS 0x128 (fun s =>
    if key ≠ resetKey then s
    else if !s.mayResetIsland island then s.modeRefused
    else if s.isl island = 1 || s.isl island = 2 then s.resetIsland island
    else s))

/-- The reset flush ends, its record written (R103): the seal flag reads SEALED (R159), and the reset takes effect unless it waits (R577). -/
def execResetFlushEnd (s : State) : Host.Outcome State Fault Refusal :=
  done (
    if s.mc.flushing ≠ 0 && s.led.sealing.any (fun z => z.reset && z.step = 7) then
      State.resetDue { s with mc := { s.mc with flushDone := true }, keep := { s.keep with sealFlag := 2 } }
    else s)

/-- R577: a deferred reset takes effect once the flush and the sector operation have both ended. -/
def execDeferredResetRelease (s : State) : Host.Outcome State Fault Refusal := done s.resetDue

end Sys2Proof.Machine
end

