-- ==== Sys2Proof/Machine/Modes.lean ====
section
/-!
DEFINITION. Mode requests (chapter 04): how they are judged, held, granted and refused; drains towards Rest and Keep; the entries
and exits of Groom and Offload; restarts from Keep.
-/

namespace Sys2Proof.Machine

/-! ### Requests (R115 to R123, R128, R544) -/

/-- Who asks for a mode: a write of SYS.MODE_REQ, a vendor Mode Request (or one that the pair's lead relays), or set H. -/
inductive ModeBy where
  | reg
  | cmd (c : Cid)
  | mbx (r : MbxReq)
  deriving DecidableEq, Repr

/-- The cause code of a request (Table 04-7); a transition that a relayed request causes carries 0x18 (R438). -/
def modeCause : ModeBy → Nat
  | .reg => 0x05
  | .cmd c => if c.src = .relay then 0x18 else 0x06
  | .mbx _ => 0x07

/-- A request is refused: MODE_REFUSED, and the outcome of the command or message; `locked` where R544 refuses it. -/
def State.denyMode (s : State) (by' : ModeBy) (locked : Bool) : State :=
  let s1 := s.modeRefused
  match by' with
  | .reg => s1
  | .cmd c => if locked then s1.vendor c 0x83 0 else s1.vendor c 0x81 s.mode
  | .mbx r => s1.mbxModeOutcome r (if locked then 3 else 4)

/-- A request completes. -/
def State.grantMode (s : State) (by' : ModeBy) : State :=
  match by' with
  | .reg => s
  | .cmd c => s.ok c s.mode 0 []
  | .mbx r => s.mbxModeOutcome r 0

/-- A command of an I/O queue, of the camera or of the dock. -/
def cidIo (c : Cid) : Bool :=
  match c.src with
  | .host q => q ≠ 0
  | .dock _ => true
  | .relay => false

/-- R119: an I/O command is outstanding. -/
def State.ioBusy (s : State) : Bool :=
  s.host.cmds.any (fun c => (cidIo c.id)) || s.pair.held.any (fun x => (cidIo x.2.id)) || s.pair.relays.any (fun r => (cidIo r.id)) ||
    s.frm.waits.any (fun w => (cidIo w.id))

/-- R119, R120: what a request for Rest or Keep needs. -/
def State.restOk (s : State) : Bool :=
  s.liveTakes = [] && s.frm.starts = [] && s.mc.takeWait = [] && s.net.conns = [] && !s.ioBusy

/-- R115: the modes that can be requested. -/
def requestable (t : Nat) : Bool := [Md.KEEP, Md.REST, Md.IDLE, Md.REVIEW, Md.OFFLOAD, Md.GROOM, Md.SERVICE].contains t

/-- What becomes of a request. -/
inductive Verdict where
  | refuse | deny | same | go
  deriving DecidableEq, Repr

/-- R115, R119, R120, R544, Table 04-4: a request judged in the current mode. -/
def State.judgeMode (s : State) (t : Nat) : Verdict :=
  let m := s.mode
  if !requestable t then .refuse
  else if t = m then .same
  else if m = Md.IDLE && (t = Md.REVIEW || t = Md.GROOM || t = Md.OFFLOAD) then .go
  else if m = Md.IDLE && t = Md.SERVICE then (if s.secState ≤ 1 || s.dbgLevel = 2 then .go else .deny)
  else if (m = Md.IDLE && (t = Md.REST || t = Md.KEEP)) || (m = Md.REST && t = Md.KEEP) then (if s.restOk then .go else .refuse)
  else if (m = Md.REVIEW || m = Md.GROOM || m = Md.SERVICE || m = Md.OFFLOAD) && t = Md.IDLE then .go
  else if m = Md.QUARANTINE && t = Md.SERVICE then (if s.dbgLevel = 2 then .go else .deny)
  else .refuse

/-- The request whose transition is under way waits for its end. -/
def State.awaitMode (s : State) (by' : ModeBy) : State :=
  match by' with
  | .reg => s
  | .cmd c => { s with mc := { s.mc with waiter := some c } }
  | .mbx r => { s with mc := { s.mc with waitMbx := some r } }

/-- R438: the modes whose accepted requests the lead relays. -/
def relayedMode (t : Nat) : Bool := [Md.IDLE, Md.REVIEW, Md.GROOM, Md.REST, Md.KEEP].contains t

/-- An accepted request begins: a drain towards Rest or Keep, the closing of Offload, or a transition. A request for Keep in Rest
completes at once, since there is nothing to drain. -/
def State.beginMode (s : State) (by' : ModeBy) (t : Nat) : State :=
  let cause := modeCause by'
  if s.mode = Md.REST then (s.grantMode by').beginTrans t cause
  else if t = Md.REST || t = Md.KEEP then
    State.awaitMode { s with mc := { s.mc with drain := some ⟨t, cause, false⟩ } } by'
  else if s.mode = Md.OFFLOAD then
    let s1 := (State.set { s with mc := { s.mc with offCause := some cause } } F.NVTCP_STATUS_CLOSING 1).awaitMode by'
    if s1.dockIdle then s1.closeOffload else s1
  else (s.awaitMode by').beginTrans t cause

/-- The command codes of RELAY messages (R438). -/
def RL_TAKE_START : Nat := 1
/-- Take Stop. -/
def RL_TAKE_STOP : Nat := 2
/-- Format NVM. -/
def RL_FORMAT : Nat := 3
/-- Sanitize. -/
def RL_SANITIZE : Nat := 4
/-- Namespace Management. -/
def RL_NS_MGMT : Nat := 5
/-- Namespace Attachment. -/
def RL_NS_ATTACH : Nat := 6
/-- An accepted mode request, of a register write, a command, or set H. -/
def RL_MODE : Nat := 7

/-- A request that the lead has relayed, by who made it. -/
def modeArgs (by' : ModeBy) (t : Nat) : List Nat :=
  match by' with
  | .reg => [t, 0]
  | .cmd _ => [t, 1]
  | .mbx r => [t, 2, r.via, r.tb] ++ r.words

/-- Who made a relayed request. -/
def modeByOf (c : Cid) : List Nat → ModeBy
  | _ :: 0 :: _ => .reg
  | _ :: 2 :: via :: tb :: ws => .mbx ⟨via, ws, tb⟩
  | _ => .cmd c

/-- R438: the lead sends a command to the follow and keeps it until RELAY_DONE. -/
def State.relay (s : State) (cmd : Nat) (id : Cid) (args : List Nat) : State :=
  let n := s.pair.relayN + 1
  State.pairSend { s with pair := { s.pair with relayN := n, relays := s.pair.relays ++ [⟨n, cmd, id, args⟩] } } (.relay n cmd args)

/-- A request is judged; `local'` for one that runs here without being relayed. -/
def State.runMode (s : State) (local' : Bool) (by' : ModeBy) (t : Nat) : State :=
  match s.judgeMode t with
  | .refuse => s.denyMode by' false
  | .deny => s.denyMode by' true
  | .same => s.grantMode by'
  | .go =>
    if !local' && s.leads && relayedMode t then
      s.relay RL_MODE (match by' with
        | .cmd c => c
        | _ => ⟨.host 0, 0⟩) (modeArgs by' t)
    else s.beginMode by' t

/-- R128: a transition or a drain is in progress. -/
def State.inTransition (s : State) : Bool := s.mc.trans.isSome || s.mc.drain.isSome || s.mc.offCause.isSome

/-- R128: the request is held; a newer one from the same source replaces it, and the older is refused. -/
def State.holdMode (s : State) (by' : ModeBy) (t : Nat) : State :=
  match by' with
  | .reg =>
    let s1 := if s.mc.heldReg.isSome then s.denyMode .reg false else s
    { s1 with mc := { s1.mc with heldReg := some t } }
  | .cmd c =>
    let s1 := match s.mc.heldCmd with
      | some (_, c') => s.denyMode (.cmd c') false
      | none => s
    { s1 with mc := { s1.mc with heldCmd := some (t, c) } }
  | .mbx r =>
    let s1 := match s.mc.heldMbx with
      | some (_, r') => s.denyMode (.mbx r') false
      | none => s
    { s1 with mc := { s1.mc with heldMbx := some (t, r) } }

/-- A mode request from any source. -/
def State.requestMode (s : State) (by' : ModeBy) (t : Nat) : State :=
  if s.inTransition then s.holdMode by' t else s.runMode false by' t

/-- R128: held requests are judged in the rotation order of R43, each against the mode that the one before it left. -/
def State.judgeHeld (s : State) : State :=
  let s1 := match s.mc.heldReg with
    | some t => if s.inTransition then s else State.runMode { s with mc := { s.mc with heldReg := none } } false .reg t
    | none => s
  let s1 := match s1.mc.heldCmd with
    | some (t, c) => if s1.inTransition then s1 else State.runMode { s1 with mc := { s1.mc with heldCmd := none } } false (.cmd c) t
    | none => s1
  match s1.mc.heldMbx with
  | some (t, r) => if s1.inTransition then s1 else State.runMode { s1 with mc := { s1.mc with heldMbx := none } } false (.mbx r) t
  | none => s1

/-- A write of SYS.MODE_REQ with GO (Table 04-5: ignored in Seal and Update). TARGET is stored. -/
def execModeReq (who : Req) (target : Nat) (s : State) : Host.Outcome State Fault Refusal :=
  done (s.regAction who Pg.SYS 0x108 (fun s =>
    if s.mode = Md.SEAL || s.mode = Md.UPDATE then s.modeRefused
    else (s.set F.SYS_MODE_REQ_TARGET target).requestMode .reg (target % 16)))

/-! ### Groom (R122, R422, R423) -/

/-- R122, R422: the automatic entry to Groom, and the exit of one entered so. -/
def State.groomCheck (s : State) : State :=
  let f := s.freeBands * 100
  if s.inTransition || s.bandTotal = 0 || !s.ready Fn.MAP_FULL then s
  else if (s.mode = Md.IDLE || s.mode = Md.REVIEW) && decide (f < (s.get F.GROOM_CFG_ENTER_PCT * s.bandTotal : Nat)) then
    s.beginTrans Md.GROOM 0x0C
  else if s.mode = Md.GROOM && s.get F.SYS_MODE_CAUSE = 0x0C && decide ((s.get F.GROOM_CFG_EXIT_PCT * s.bandTotal : Nat) ≤ f) then
    s.beginTrans Md.IDLE 0x0D
  else s

/-! ### Rest and Keep (R119, R120, R341) -/

/-- Everything that a drain waits for has left the buffer. -/
def State.drained (s : State) : Bool := s.slots = [] && s.led.reqs = [] && s.map.waiting = []

/-- The request whose transition ends completes. -/
def State.endWait (s : State) : State :=
  let s1 := match s.mc.waiter with
    | some c => State.ok { s with mc := { s.mc with waiter := none } } c s.mode 0 []
    | none => s
  State.mbxModeOutcome? { s1 with mc := { s1.mc with waitMbx := none } } s1.mc.waitMbx 0

/-- The drain of a request for Rest or Keep ends: the checkpoint is written and the request completes; for Keep the clean Seal
record follows. -/
def execDrainComplete (s : State) : Host.Outcome State Fault Refusal :=
  done (match s.mc.drain with
    | some d =>
      if d.done || !s.drained then s
      else
        let s1 := State.drainCkpt { s with mc := { s.mc with drain := some { d with done := true } } }
        let s1 := s1.endWait
        if d.target = Md.KEEP then s1.startSealing false true d.cause else s1
    | none => s)

/-- R341: the retention token is written, MGMT keeps its random value, and the sweep has ended. -/
def State.retain (s : State) : State :=
  let s1 := s.draw
  let tok := (s.map.ts.ckpt, Config.random s.fresh)
  { s1 with dram := { s1.dram with token := some tok, kept := some tok, queue := [], waiting := [] } }

/-- No earlier than 1 ms after the completion, the stop of HOST begins and the mode is Rest. A half of a pair leaves it first, as
planned (R448). -/
def execRestEntry (s : State) : Host.Outcome State Fault Refusal :=
  done (match s.mc.drain with
    | some d =>
      if d.target = Md.REST && d.done then
        let s1 := State.pairLeave { s with mc := { s.mc with drain := none } } true 0
        ((s1.retain.changeMode Md.REST d.cause).fiCheck).judgeHeld
      else s
    | none => s)

/-- R121: after a Seal, main power valid and PWR_FAIL_N high for 100 ms: the device restarts from Keep with cause 0x19. -/
def execRestartAfterSeal (straps unstable : Nat) (s : State) : Host.Outcome State Fault Refusal :=
  done (if s.mode = Md.KEEP && s.keep.sealTrip && s.porHolds then s.restart straps unstable 0x19 else s)

/-- WAKE rising: Wake from Rest, or a restart after a controlled entry to Keep; ignored in every other mode (Table 04-6). -/
def execWakeRising (straps unstable : Nat) (s : State) : Host.Outcome State Fault Refusal :=
  done (
    if s.mode = Md.KEEP then (if s.keep.controlled && s.porHolds then s.restart straps unstable 0x15 else s)
    else if s.mode = Md.REST && !s.inTransition then (s.wakeOut F.PCIE_WAKE_CTL_ON_WAKE).beginTrans Md.WAKE 0x15
    else s)

/-! ### Wake and Offload (R118, R123) -/

/-- R118: the functions of the Wake exit set. -/
def State.exitSet (s : State) : List Nat :=
  [0, 1, 2, 4, 5, 6, 7, 16, 17, 18, 19, 20, 21, 26, 27, 28, 29, 30] ++ ((List.range 4).filter s.quadPowered).map (22 + ·)

/-- A function fails to start: one of the exit set in Wake leads to Quarantine (R109, R118). -/
def State.failFn (s : State) (n : Nat) : State :=
  let s1 := s.faultFn n
  if s1.mode = Md.WAKE && s1.get F.SYS_STRAPS_ISLAND_TEST = 0 && s1.exitSet.contains n then s1.quarantine 1 n 0x16 else s1

/-- A function fails. -/
def execFunctionFault (fn : Nat) (s : State) : Host.Outcome State Fault Refusal :=
  done (if fn < 48 && s.mode ≠ Md.KEEP then s.failFn fn else s)

/-- R118: 5 s after Wake began, its exit set is not complete: Quarantine. Under ISLAND_TEST the limit does not apply. -/
def execWakeExitTimeout (s : State) : Host.Outcome State Fault Refusal :=
  done (if s.mode = Md.WAKE && s.get F.SYS_STRAPS_ISLAND_TEST = 0 && !s.exitSet.all s.ready then
    s.quarantine 1 ((s.exitSet.find? (fun n => !s.ready n)).getD 0) 0x16 else s)

/-- R123: 2 s in Offload without an NVMe/TCP connection. -/
def execOffloadNoConnectionTimeout (s : State) : Host.Outcome State Fault Refusal :=
  done (if s.mode = Md.OFFLOAD && s.net.conns = [] && !s.inTransition then s.beginTrans Md.IDLE 0x0B else s)

end Sys2Proof.Machine
end

