-- ==== Sys2Proof/Machine/Aser.lean ====
section
/-!
DEFINITION. The accessory UARTs (chapter 21, R618 to R625).
-/

namespace Sys2Proof.Machine

/-- The offset of an instance. -/
def aserBase (n : Nat) : Nat := 0x100 + 0x80 * n

/-- A UART. -/
def State.uart (s : State) (n : Nat) : AserPort := s.aser.getD n {}

/-- Changes a UART. -/
def State.setUart (s : State) (n : Nat) (p : AserPort) : State := { s with aser := s.aser.set n p }

/-- A UART that runs: in every mode but Keep, once its function has set, with EN. -/
def State.uartOn (s : State) (n : Nat) : Bool :=
  n < 2 && s.mode ≠ Md.KEEP && s.ready (Fn.ASER0 + n) && s.get (F.ASER_CTL_EN n) = 1

/-- R277: capture takes a port. -/
def State.captures (s : State) (n : Nat) : Bool :=
  (s.takeOf s.capStream).isSome && s.get (if n = 0 then F.FRAME_ACAP_EN0 else F.FRAME_ACAP_EN1) = 1

/-- R623: an entry arrives in the receive FIFO, or is lost where it is full; capture removes it at once. -/
def State.rxEntry (s : State) (n : Nat) (data flags : Nat) : State :=
  let p := s.uart n
  if s.captures n then s.capture n s.tb (if bit flags 2 then none else some data) (bit flags 0)
  else if 64 ≤ p.rx.length then
    ((s.setUart n { p with lost := true }).inc (F.ASER_RX_STAT_OVERRUN n)).raise (E.ASER_OVERRUN n)
  else
    (s.setUart n { p with rx := p.rx ++ [⟨data, flags + (if p.lost then 8 else 0), s.tb % 2 ^ 48⟩], lost := false }).raiseIf
      (p.rx = []) (E.ASER_RX_DATA n)

/-- A character is received, with its stop bit low (`framing`) or its parity bit wrong. -/
def execUartCharacter (port data : Nat) (framing parity : Bool) (s : State) : Host.Outcome State Fault Refusal :=
  done (if !s.uartOn port then s
    else
      let d := data % (if s.get (F.ASER_CFG_DATA7 port) = 1 then 128 else 256)
      let fl := b2n framing + 2 * b2n (parity && s.get (F.ASER_CFG_PARITY port) ≠ 0)
      let s1 := if framing then (s.inc (F.ASER_RX_STAT_FRAMING port)).raise (E.ASER_FRAMING port) else s
      (s1.crcuFeed (2 + port) 0 [d]).rxEntry port d fl)

/-- A low line has lasted BREAK_BITS. -/
def execBreak (port : Nat) (s : State) : Host.Outcome State Fault Refusal :=
  done (if !s.uartOn port then s else ((s.inc (F.ASER_BREAKS_COUNT port)).raise (E.ASER_BREAK port)).rxEntry port 0 4)

/-- The next character is sent, where the UART is enabled, free, and not asked for a break. -/
def State.txStart (s : State) (n : Nat) : State :=
  let p := s.uart n
  match p.busy, p.tx with
  | none, b :: rest =>
    if s.get (F.ASER_CTL_EN n) = 1 && s.get (F.ASER_CTL_SEND_BREAK n) = 0 then s.setUart n { p with busy := some b, tx := rest } else s
  | _, _ => s

/-- TX_PUSH. -/
def State.txPush (s : State) (n data : Nat) : State :=
  let p := s.uart n
  if p.tx.length < 64 then (s.setUart n { p with tx := p.tx ++ [data % 256] }).txStart n else s.inc (F.ASER_TX_STAT_REFUSED n)

/-- TX_PUSH. -/
def execTxPush (who : Req) (port data : Nat) (s : State) : Host.Outcome State Fault Refusal :=
  done (if port < 2 then s.rwAction who Pg.ASER (aserBase port + 0x20) (fun s => s.txPush port data) else s)

/-- The character being sent is complete. TX_EMPTY sets where none follows. -/
def execUartTxCharacterSent (port : Nat) (s : State) : Host.Outcome State Fault Refusal :=
  done (match (s.uart port).busy with
    | some b =>
      let p := s.uart port
      let s1 := (s.setUart port { p with busy := none, sent := p.sent ++ [b] }).txStart port
      s1.raiseIf (p.tx = []) (E.ASER_TX_EMPTY port)
    | none => s)

/-- RX_POP. -/
def State.rxPop (s : State) (n k : Nat) : State := s.setUart n { s.uart n with rx := (s.uart n).rx.drop (k % 128) }

/-- RX_POP. -/
def execRxPop (who : Req) (port n : Nat) (s : State) : Host.Outcome State Fault Refusal :=
  done (if port < 2 then s.rwAction who Pg.ASER (aserBase port + 0x18) (fun s => s.rxPop port n) else s)

/-- CTL.SEND_BREAK: TX is low once the character in progress has been sent; clearing it lets the next one start. -/
def State.sendBreak (s : State) (n : Nat) (on : Bool) : State := (s.set (F.ASER_CTL_SEND_BREAK n) (b2n on)).txStart n

/-- CTL.SEND_BREAK. -/
def execSendBreak (who : Req) (port : Nat) (on : Bool) (s : State) : Host.Outcome State Fault Refusal :=
  done (if port < 2 then s.rwAction who Pg.ASER (aserBase port) (fun s => s.sendBreak port on) else s)

/-- CTL.EN. Clearing it keeps both FIFOs, and the character being sent completes. -/
def State.uartEn (s : State) (n : Nat) (en : Bool) : State := (s.set (F.ASER_CTL_EN n) (b2n en)).txStart n

/-- CTL.EN. -/
def execUartCtlEn (who : Req) (port : Nat) (en : Bool) (s : State) : Host.Outcome State Fault Refusal :=
  done (if port < 2 then s.rwAction who Pg.ASER (aserBase port) (fun s => s.uartEn port en) else s)

/-- A frame's length in bits under a value of CFG. -/
def frameBits (v : Nat) : Nat := 1 + (if bit v 24 then 7 else 8) + (if bits v 26 2 = 0 then 0 else 1) + (if bit v 28 then 2 else 1)

/-- A write of CFG while EN is 0. Reserved values leave their fields (R12). -/
def State.uartCfg (s : State) (n v : Nat) : State :=
  if s.get (F.ASER_CTL_EN n) = 1 then s.raise (E.ASER_CFG_IGNORED n)
  else
    let s1 := (s.set (F.ASER_CFG_STOP2 n) (bits v 28 1)).set (F.ASER_CFG_DATA7 n) (bits v 24 1)
    let s1 := if bits v 26 2 < 3 then s1.set (F.ASER_CFG_PARITY n) (bits v 26 2) else s1
    let s1 := if 333 ≤ bits v 0 22 && bits v 0 22 ≤ 208334 then s1.set (F.ASER_CFG_DIVQ6 n) (bits v 0 22) else s1
    if frameBits v < bits v 32 6 then s1.set (F.ASER_CFG_BREAK_BITS n) (bits v 32 6) else s1

/-- A write of CFG. -/
def execUartCfgWrite (who : Req) (port val : Nat) (s : State) : Host.Outcome State Fault Refusal :=
  done (if port < 2 then s.rwAction who Pg.ASER (aserBase port + 0x08) (fun s => s.uartCfg port val) else s)

/-- CLR.GO. -/
def State.aserClr (s : State) (n : Nat) : State :=
  s.clear [F.ASER_RX_STAT_FALSE_START n, F.ASER_RX_STAT_OVERRUN n, F.ASER_RX_STAT_FRAMING n, F.ASER_TX_STAT_REFUSED n, F.ASER_BREAKS_COUNT n]

/-- CLR.GO. -/
def execAserClr (who : Req) (port : Nat) (s : State) : Host.Outcome State Fault Refusal :=
  done (if port < 2 then s.rwAction who Pg.ASER (aserBase port + 0x40) (fun s => s.aserClr port) else s)

end Sys2Proof.Machine
end

