-- ==== Sys2Proof/Machine/Ledger.lean ====
section
/-!
DEFINITION. The energy ledger and the Seal sequence (chapters 01 and 05): samples, admission, calibration, waits, and what Seal, a
reset flush and a controlled entry to Keep write.
-/

namespace Sys2Proof.Machine

/-! ### Samples (R135 to R140, R167) -/

/-- R137: the rail voltage in mV for a converter code; a negative result counts as 0. -/
def State.railMv (s : State) (code : Nat) : Nat :=
  ((code * 1200 * s.get F.LEDGER_DIV_RATIO / (4096 * 65536) : Nat) + signed 16 (s.get F.LEDGER_DIV_OFS_MV)).toNat

/-- R138, R140: available energy, in 1/256 unit, at a voltage. -/
def State.energyAt (s : State) (v : Nat) : Nat :=
  let vf := s.get F.LEDGER_BANK_V_FLOOR_MV
  if v ≤ vf then 0 else 256 * s.get F.LEDGER_BANK_CAP_UF * (v * v - vf * vf) / 2000000

/-- R139: the runs of saturated and of clean samples, with the fault they declare or clear. -/
def State.senseRuns (s : State) (code v : Nat) : State :=
  let sat := code = 0 || code = 4095
  let jump := s.led.sampled && decide (s.get F.LEDGER_BANK_V_FULL_MV < 10 * (max v s.led.lastV - min v s.led.lastV))
  let satRun := if sat then s.led.satRun + 1 else 0
  let clean := if sat || jump then 0 else s.led.cleanRun + 1
  let s1 : State := { s with led := { s.led with satRun := satRun, cleanRun := clean } }
  if s.get F.LEDGER_STATUS_SENSE_FAULT = 0 then
    (if 4 ≤ satRun || jump then ((s1.set F.LEDGER_STATUS_SENSE_FAULT 1).raise E.LEDGER_SENSE_FAULT).vendorEvent 0x01 0xC0 else s1)
  else if 16 ≤ clean then (s1.set F.LEDGER_STATUS_SENSE_FAULT 0).raise E.LEDGER_SENSE_OK
  else s1

/-- R145: a changed bound of the journal tail enters S at the first sample after its adoption. -/
def State.noteJtail (s : State) : State :=
  if s.get F.LEDGER_STATUS_CALIBRATED = 1 && s.get F.LEDGER_CAL_TIMES_JTAIL_SLOTS ≠ s.get F.MAP_CFG_JTAIL_MAX then
    (s.set F.LEDGER_CAL_TIMES_JTAIL_SLOTS (s.get F.MAP_CFG_JTAIL_MAX)).recost
  else s

/-- R167: the first sample after a clear gives MIN_HEADROOM a value. -/
def State.startMin (s : State) : State :=
  if s.led.minSet then s
  else State.set { s with led := { s.led with minSet := true } } F.LEDGER_MIN_HEADROOM_H_MIN (unsigned 48 s.headroom)

/-- A sample of HOLD_SENSE by its calibrated converter code. The converter runs from LEDGER_SENSE to Keep; while VDDA_SNS stands
tripped the ledger keeps the energy that R79 gave it. -/
def execHoldSample (code : Nat) (s : State) : Host.Outcome State Fault Refusal :=
  done (
    if !s.ready Fn.LEDGER_SENSE || !s.railValid 1 then s
    else
      let code := code % 4096
      let v := s.railMv code
      let vUse := min (min v (if s.led.sampled then s.led.lastV else v)) (s.get F.LEDGER_BANK_V_FULL_MV)
      let s1 := s.senseRuns code v
      let s1 := (s1.set F.LEDGER_SAMPLE_CODE code).set F.LEDGER_SAMPLE_V_MV (min v 65535)
      let s1 := s1.addWrap F.LEDGER_SAMPLE_SEQ 1
      let s1 : State := { s1 with led := { s1.led with lastV := v, sampled := true, sampleTb := s.tb } }
      let a := if s1.get F.LEDGER_STATUS_SENSE_FAULT = 1 then 0 else s1.energyAt vUse
      ((s1.set F.LEDGER_AVAILABLE_A a).noteJtail.startMin).noteHeadroom.noteFlow)

/-! ### Admission (R35, R147 to R152) -/

/-- R439: the slot of a SLOT message is admitted: its data, which waited in the receive buffer, is there, so the slot is durable,
HELD goes out and its units return. A convergence copy is confirmed by its source's RESULT of the segment, not by HELD. -/
def State.peerSlot (s : State) (seq n : Nat) : State :=
  match s.pair.inbox.find? (fun x => x.1 = n) with
  | none => s
  | some (_, m) =>
    let s1 : State := { s with pair := { s.pair with inbox := s.pair.inbox.filter (fun x => x.1 ≠ n) } }
    let s1 := s1.store (fun x => x.seq = seq)
    let s1 := if m.kind = 3 then s1 else s1.pairSend (.heldSlot m.slot)
    s1.returnUnits 0 65

/-- R460: the target asks for the data of a write that is more than a capsule holds, once all of its slots are admitted. -/
def State.askData (s : State) (c : Cid) : State :=
  match c.src with
  | .dock conn =>
    match s.host.cmds.find? (fun x => x.id = c), s.net.conns.find? conn with
    | some x, some k =>
      let fmt := ((s.nv.nses.find? x.nsid).map (·.fmt)).getD 0
      let bytes := x.nlb * (if 3 ≤ fmt then 512 else 4096)
      if x.op = .write && 8192 < bytes && s.allAdmitted c then s.netSend k.port (.r2t conn c.cid 0 bytes) else s
    | _, _ => s
  | _ => s

/-- What follows the admission of a request, by what its slots hold. -/
def State.admitted (s : State) (r : SlotReq) (first : Nat) : State :=
  let seqs := (List.range r.slots.length).map (fun i => (first + i) % 2 ^ 32)
  match r.slots.head? with
  | none => s
  | some x =>
    match x.kind, x.owner with
    | .parity, _ | .relocParity, _ => s.pump
    | .reloc, _ => (s.enqueue seqs).pump
    | .internal, _ => s.store (fun y => seqs.contains y.seq)
    | _, .frame _ => s.settleAll.ingestStopCheck
    | _, .peer n => s.peerSlot first n
    | .host, .cmd c => ((r.slots.filter (fun y => s.map.ts.forms.get (keyExtent y.key) 0 = 1)).foldl (fun s y => s.makeTable y.key) s).askData c
    | _, _ => s

/-- One decision: the request whose turn it is is admitted if both tests of R147 hold, and otherwise waits. -/
def execAdmissionDecision (s : State) : Host.Outcome State Fault Refusal :=
  done (match s.nextReq with
    | none => s
    | some (r, s1) =>
      if s1.energyOk r && s1.freeOk r then
        let first := s1.get F.PBUF_ADMIT_SEQ_SEQ
        ((s1.takeReq r).letIn r).admitted r first
      else (s1.refuse r).markRefused r)

/-- R150, R151, R467: a write that the ledger turns away completes with 7h/0x80 and its shortfall; what it holds returns. -/
def State.exhaust (s : State) (c : Cid) (short : Nat) : State :=
  let mine (x : Slot) : Bool := x.owner = .cmd c
  let s1 := State.dropSlots { s with led := { s.led with reqs := s.led.reqs.filter (fun r => !r.slots.any mine) } }
    (fun x => mine x && x.lst = .filling)
  ((s1.vendor c 0x80 short).inc F.LEDGER_EXHAUSTED_COUNT).raise E.LEDGER_EXHAUSTED

/-- HOST_WAIT_MS has passed since a write asked for its slots (R150). -/
def execHostWaitExpired (cid : Cid) (s : State) : Host.Outcome State Fault Refusal :=
  done (match s.led.reqs.find? (fun r => r.slots.any (fun x => x.owner = .cmd cid)) with
    | some r => s.exhaust cid (r.short.getD (s.shortfall r))
    | none => s)

/-! ### Calibration (R143 to R145) -/

/-- LEDGER.CAL.GO. -/
def execLedgerCalGo (who : Req) (s : State) : Host.Outcome State Fault Refusal :=
  done (s.rwAction who Pg.LEDGER 0x128 (fun s =>
    if s.mode = Md.IDLE || s.mode = Md.SERVICE then { s with led := { s.led with calBusy := true } } else s.modeRefused))

/-- R143: T of a channel with its margin, in 1/16 ns. -/
def State.calTime (s : State) (c : CalChan) : Nat := c.progNs * (16 + s.get F.LEDGER_SEAL_CFG_MARGIN)

/-- R143 step 3: slots per ns of a channel, as a fraction. -/
def State.calRate (s : State) (c : CalChan) : Nat × Nat :=
  let l := if 2 ≤ c.luns then 2 else 1
  (16 * l * (4 * c.planes), max 1 (max (s.calTime c) (16 * l * c.busNs)))

/-- The sum of two fractions. -/
def addRate (a b : Nat × Nat) : Nat × Nat := (a.1 * b.2 + b.1 * a.2, a.2 * b.2)

/-- R159: LEDGER_ADMIT sets, and the KEEP flag reads RUNNING from the first time after a Wake. -/
def State.setAdmit (s : State) : State :=
  if s.needsOk Fn.LEDGER_ADMIT then State.setReady { s with keep := { s.keep with sealFlag := 3 } } Fn.LEDGER_ADMIT else s

/-- R144: after a recalibration that follows a failed one, the functions that need LEDGER_ADMIT set again. -/
def State.admitAgain (s : State) (was : Bool) : State :=
  if was then s
  else
    let s1 := if s.needsOk Fn.NVME_IO && s.isl 2 = 2 then s.setReady Fn.NVME_IO else s
    if s1.needsOk Fn.INGEST && s1.isl 3 = 2 && s1.secState ≤ 1 then s1.setReady Fn.INGEST else s1

/-- Calibration ends (R143), in Wake before LEDGER_ADMIT sets, or after CAL.GO. -/
def execCalDone (tAbortUs : Nat) (chans : List CalChan) (s : State) : Host.Outcome State Fault Refusal :=
  done (
    if !(s.led.calBusy || (s.mode = Md.WAKE && s.ready Fn.SEAL_BLOCKS && !s.ready Fn.LEDGER_ADMIT)) then s
    else
      let again := s.led.calBusy
      let was := s.ready Fn.LEDGER_ADMIT
      let s1 : State := { s with led := { s.led with calBusy := false } }
      let ok := chans.filter (fun c => !c.failed && c.progNs ≤ 2000000 && c.chan < 64 && c.planes ≠ 0)
      if ok = [] then (s1.raise E.LEDGER_CAL_FAIL).failFn Fn.LEDGER_ADMIT
      else
        let out := ((chans.filter (fun c => !ok.contains c)).map (fun c => c.chan % 64)).foldl setBit 0
        let sum := (ok.map s.calRate).foldl addRate (0, 1)
        let s1 : State := { s1 with led := { s1.led with
          tslotNum := sum.2, tslotDen := sum.1, tRec16 := (ok.map s.calTime).foldl max 0 } }
        let s1 := (s1.set F.LEDGER_STATUS_CALIBRATED 1).set F.LEDGER_CAL_CHAN_EXCLUDED out
        let s1 := (s1.set F.LEDGER_CAL_RESULT_T_SLOT_PS (ceilDiv (1000 * sum.2) sum.1)).set F.LEDGER_CAL_TIMES_T_ABORT_US tAbortUs
        let s1 := (s1.set F.LEDGER_CAL_TIMES_T_RECORD_US (ceilDiv s1.led.tRec16 16000)).set F.LEDGER_CAL_TIMES_JTAIL_SLOTS
          (s1.get F.MAP_CFG_JTAIL_MAX)
        let s1 := ((s1.recost).raise E.LEDGER_CAL_DONE).noteHeadroom.noteFlow
        let s1 := s1.setAdmit
        if again then s1.admitAgain was else s1)

/-! ### Clears (R30, R167) -/

/-- LEDGER.CLR.GO. -/
def execLedgerClr (who : Req) (s : State) : Host.Outcome State Fault Refusal :=
  done (s.rwAction who Pg.LEDGER 0x190 (fun s =>
    State.clear { s with led := { s.led with minSet := false } }
      [F.LEDGER_MIN_HEADROOM_H_MIN, F.LEDGER_REFUSALS_COUNTS, F.LEDGER_EXHAUSTED_COUNT]))

/-- PBUF.CLR.GO. -/
def execPbufClr (who : Req) (s : State) : Host.Outcome State Fault Refusal :=
  done (s.rwAction who Pg.PBUF 0x150 (fun s => s.set F.PBUF_HIGH_WATER_COUNT s.slots.length))

/-! ### The Seal sequence (R153 to R159) -/

/-- Changes the sequence in progress. -/
def State.mapSeal (s : State) (f : Sealing → Sealing) : State :=
  { s with led := { s.led with sealing := s.led.sealing.map f } }

/-- Step 4 follows when data is left to write, step 5 the journal tail, step 6 the record; DURATION runs to the end of step 5. -/
def State.nextSealStep (s : State) (z : Sealing) : Sealing :=
  if z.todo ≠ [] then { z with step := 3 }
  else if z.jtail ≠ 0 then { z with step := 5 }
  else { z with step := 6, dur := (s.tb - z.tb) / 250 }

/-- Step 3: every LUN is ready after its Reset, and the flush begins. -/
def execSealLunsReady (s : State) : Host.Outcome State Fault Refusal :=
  done (match s.led.sealing with
    | some z => if z.step = 1 then s.mapSeal (fun z => s.nextSealStep z) else s
    | none => s)

/-- A count of the Seal record goes up. -/
def bumpKind (counts : List Nat) (k n : Nat) : List Nat := counts.set (k - 1) (counts.getD (k - 1) 0 + n)

/-- R155: whether Seal writes to a channel. -/
def State.sealChan (s : State) (z : Sealing) (c : Nat) : Bool :=
  s.chanState c = 2 && !s.getBit F.LEDGER_CAL_CHAN_EXCLUDED c && !z.failed.contains c

/-- A page of four slots, or of four journal pages, retires in a Seal block; a program that fails leaves its channel out and its
page is written again. -/
def execSealPageProgramDone (chan : Nat) (ok : Bool) (s : State) : Host.Outcome State Fault Refusal :=
  done (match s.led.sealing with
    | none => s
    | some z =>
      if !s.sealChan z chan || (z.step ≠ 3 && z.step ≠ 5) then s
      else if !ok then s.mapSeal (fun z => { z with failed := z.failed ++ [chan] })
      else if z.step = 3 then
        let now := (z.todo.take 4).map (fun x => (x.sealKind, x))
        let s1 : State := { s with nv := { s.nv with sealPages := s.nv.sealPages ++ [⟨(s.nv.sealSeq + 1) % 2 ^ 32, z.seq, chan, now, s.sealBlocks chan, false⟩] } }
        let s1 := (s1.set (F.FCH_SEAL_ERASED0 chan) 0).set (F.FCH_SEAL_ERASED1 chan) 0
        s1.mapSeal (fun z => s1.nextSealStep { z with
          todo := z.todo.drop 4, seq := z.seq + 1, counts := now.foldl (fun c x => bumpKind c x.1 1) z.counts })
      else
        let n := min 4 z.jtail
        let s1 := (List.range n).foldl (fun s _ => s.retirePage) s
        s1.mapSeal (fun z => s1.nextSealStep { z with jtail := z.jtail - n, seq := z.seq + 1, counts := bumpKind z.counts 5 n }))

/-- The bitmap of a stripe's positions whose pages stand in some phases. -/
def State.pageBits (s : State) (stripe : Nat) (p : PagePhase → Bool) : Nat :=
  ((s.map.pages.filter (fun x => x.stripe = stripe && p x.phase)).map (fun x => 2 ^ x.pos)).foldl (· + ·) 0

/-- R158: the open stripes of a Seal record: number, pages issued, pages retired. -/
def State.sealStripes (s : State) : List (Nat × Nat × Nat) :=
  ((s.map.pages.map (·.stripe)).eraseDups).map (fun st =>
    (st, s.pageBits st (fun p => p = .issued || p = .retired), s.pageBits st (fun p => p = .retired)))

/-- The Seal record of a sequence; a frame in it stands with the number of its payload blocks. -/
def State.sealRecord (s : State) (z : Sealing) : SealRec :=
  ⟨(s.nv.sealSeq + 1) % 2 ^ 32, z.cause, 3 + (if z.replay then 4 else 0), z.tb, z.cal, z.counts, z.admSeq, z.dur,
   s.map.ts.seq - 1, s.sealStripes, s.frm.recs.map (fun r => { r with blocks := [r.blocks.length] })⟩

/-- Steps 6 and 7: the record has retired on its copies; after a trigger of Seal or a controlled entry to Keep every island but
MGMT and KEEP is gated, and a sector operation of the code store is cut off (R578). -/
def execSealRecordRetired (s : State) : Host.Outcome State Fault Refusal :=
  done (match s.led.sealing with
    | none => s
    | some z =>
      if z.step ≠ 6 then s
      else
        let z' := { z with step := 7, counts := bumpKind z.counts 6 4 }
        let s1 : State := { s with
          led := { s.led with sealing := some z' }
          nv := { s.nv with sealRec := some (s.sealRecord z'), sealSeq := (s.nv.sealSeq + 1) % 2 ^ 32 } }
        if z.reset then s1
        else
          let s2 := gatedIslands.foldl State.gateIsland s1.cutCode
          { s2 with led := { s2.led with sealing := some z' } })

/-- Step 8: the flag and the causes that a restart must show are written to KEEP, and Keep is entered. -/
def execSealKeepEntry (s : State) : Host.Outcome State Fault Refusal :=
  done (match s.led.sealing with
    | none => s
    | some z =>
      if z.step ≠ 7 || z.reset then s
      else
        let s1 : State := { s with keep := { s.keep with
          sealFlag := if z.keep then 1 else 2
          controlled := z.keep
          sealTrip := !z.keep
          pendCause := s.mc.flushing
          resetHeld := !s.pins.resetN && !z.keep } }
        s1.toKeep (if z.keep then z.cause else 0x12))

end Sys2Proof.Machine
end

