-- ==== Sys2Proof/Machine/Reads.lean ====
section
/-!
DEFINITION. Flash reads (chapters 12 and 13): the codewords that are wanted, the escalation of R382 with the checks of R385,
reconstruction, integrity records, the tracker, and what each reader does with its codeword: commands, grooming, the scrubber and
the merge of partial slots.
-/

namespace Sys2Proof.Machine

/-! ### Integrity records (R397, R398) -/

/-- An integrity record is written and its event sets; UNRECOVERED, MISPLACED and SEAL_POISON set the SMART warning. -/
def State.integrity (s : State) (i : Integ) : State :=
  let ring := if s.map.integ.length < 64 then s.map.integ ++ [i]
    else s.map.integ.set (s.get F.ECC_INTEG_PTR_NEXT) i
  let s1 := State.addSat { s with map := { s.map with integ := ring } } F.ECC_INTEG_PTR_COUNT 1
  let s1 := (s1.set F.ECC_INTEG_PTR_NEXT ((s.get F.ECC_INTEG_PTR_NEXT + 1) % 64)).raise (E.ECC_KIND i.kind)
  if i.kind = 3 || i.kind = 6 || i.kind = 11 then { s1 with nv := { s1.nv with smartRel := true } } else s1

/-- Channel, LUN, physical block set and page row of a unit address. -/
def State.uaPlace (s : State) (ua : Nat) : Nat × Nat × Nat × Nat :=
  if isSealUa ua then
    match s.sealPageOf ua with
    | some p => let k := p.blks.headD 0
                (p.chan, k / 65536 % 16, k % 65536, p.pos)
    | none => (0, 0, 0, 0)
  else
    let st := uaStripe ua
    let (c, l, b) := s.place (s.bandOf st) (uaPos ua)
    (c, l, b, s.pageRow st)

/-- An integrity record about a unit. -/
def State.unitRecord (s : State) (e : Esc) (kind detail : Nat) : State :=
  let (c, l, _, _) := s.uaPlace e.ua
  s.integrity ⟨s.tb, kind, e.cls, c, l, e.ua, e.key.getD 0, detail⟩

/-! ### Codewords wanted -/

/-- The escalations change. -/
def State.mapEsc (s : State) (n : Nat) (f : Esc → Esc) : State :=
  { s with map := { s.map with escs := s.map.escs.map (fun e => if e.n = n then f e else e) } }

/-- An escalation by its number. -/
def State.esc? (s : State) (n : Nat) : Option Esc := s.map.escs.find? (fun e => e.n = n)

/-- A read operation of one plane page for some of its units (R174). -/
def State.addRead (s : State) (cls qos : Nat) (why : OpWhy) (uas : List Nat) : State :=
  match uas with
  | [] => s
  | ua :: _ =>
    let (c, l, b, row) := s.uaPlace ua
    s.addOp ⟨0, cls, qos, .read, .queued, s.opCost .read 1 uas.length, 0, c, l, b, row, uas, why, .none, 0, 0, false⟩

/-- The tracker's index of a LUN. -/
def State.track (s : State) (c l : Nat) : Nat := s.get (F.ECC_TRACK_INDEX (16 * c + l))

/-- A codeword joins the escalations, or its reader joins one that is under way (R401). The second value says whether it must
still be sensed. -/
def State.wantUnit (s : State) (cls ua : Nat) (key : Option Nat) (w : EscFor) : State × Bool :=
  match s.map.escs.find? (fun e => e.ua = ua) with
  | some e => (s.mapEsc e.n (fun e => { e with fors := e.fors ++ [w], key := e.key.or key }), false)
  | none =>
    let (c, l, _, _) := s.uaPlace ua
    ({ s with map := { s.map with
        escs := s.map.escs ++ [⟨s.map.nextEsc, ua, key, cls, 0, 0, s.track c l, s.track c l, 0, none, List.replicate 8 0, 0, false, [w]⟩]
        nextEsc := s.map.nextEsc + 1 } }, true)

/-! ### What a decoder finds -/

/-- What becomes of a codeword: its data, or none where it could not be recovered. -/
inductive Got where
  | data (d : List Nat) (poison : Bool)
  | lost
  deriving DecidableEq, Repr

/-- R377: typical hard limits of the tiers, in bits. -/
def hardLimit (tier : Nat) : Nat := 96 + 24 * tier + (if tier = 7 then 8 else 0)

/-- A band joins a queue of grooming, once. -/
def State.queueRefresh (s : State) (band : Nat) : State :=
  if s.bandTotal ≤ band || s.map.refresh.contains band || s.map.urgent.contains band then s
  else State.raise { s with map := { s.map with refresh := s.map.refresh ++ [band] } } E.SCRUB_REFRESH_QUEUED

/-- A band is queued ahead of all others. -/
def State.queueUrgent (s : State) (band : Nat) : State :=
  if s.bandTotal ≤ band || s.map.urgent.contains band then s
  else { s with map := { s.map with urgent := s.map.urgent ++ [band], refresh := s.map.refresh.filter (· ≠ band) } }

/-- R383: the index of a LUN becomes another. -/
def State.setTrack (s : State) (c l j : Nat) : State :=
  let i := 16 * c + l
  if s.get (F.ECC_TRACK_INDEX i) = j % 16 then s
  else ((((s.set (F.ECC_TRACK_INDEX i) j).set (F.ECC_TRACK_HITS i) 0).inc (F.ECC_TRACK_CHANGES i)).raise E.ECC_TRACK_CHANGE)

/-- R380: the tier minimum of a group. -/
def State.groupTier (s : State) (g : Nat) : Nat :=
  if g < 16 then s.get F.ECC_TIER_CFG_STREAM_MIN else if g = 16 then s.get F.ECC_TIER_CFG_LEAF_MIN
  else if g = 17 then s.get F.ECC_TIER_CFG_META_MIN else s.get F.ECC_TIER_CFG_GROOM_MIN

/-! ### Relocation of units (R412) -/

/-- The grooming group of a unit: 35 under WEAR, 34 for internal data, 33 for the others; a whole extent goes to 32. -/
def relocGroup (wear : Bool) (key : Nat) : Nat := if wear then 35 else if keyNs key = 0 then 34 else 33

/-- The slot of a unit that moves. -/
def State.relocSlot (s : State) (ua key group : Nat) (d : List Nat) (poison : Bool) : Slot :=
  let u := s.unit ua
  ⟨0, .durable, .reloc, .reloc ua, 0, (u.map (·.stream)).getD 0, keyNs key, key, 0xFF, d, group, poison⟩

/-- The leaves of an extent that wait in grooming's buffer for group 32, in leaf order. -/
def State.relocExtent (s : State) (ext : Nat) : List Slot :=
  (List.range 64).filterMap (fun i => s.map.relocBuf.find? (fun x => x.group = 32 && x.key = 64 * ext + i))

/-- Sixty-four slots as sixteen requests. -/
def quads (xs : List Slot) : List (List Slot) := (List.range 16).map (fun i => (xs.drop (4 * i)).take 4)

/-- Extents that have been read whole ask for their sixteen pages (R412). -/
def State.askWhole (s : State) : State :=
  let exts := ((s.map.relocBuf.filter (fun x => x.group = 32)).map (fun x => keyExtent x.key)).eraseDups
  exts.foldl (fun s ext =>
    let xs := s.relocExtent ext
    if xs.length = 64 then
      (quads xs).foldl (fun s q => s.request (SlotReq.mk' .groom 0 0 q))
        { s with map := { s.map with relocBuf := s.map.relocBuf.filter (fun x => !(x.group = 32 && keyExtent x.key = ext))
                                     consol := s.map.consol.filter (· ≠ ext) } }
    else s) s

/-- Nothing more is to be read: what is left of an extent that is not whole any more moves leaf by leaf. -/
def State.looseExtents (s : State) : State :=
  { s with map := { s.map with relocBuf := s.map.relocBuf.map (fun x => if x.group = 32 then { x with group := 33 } else x) } }

/-- Grooming asks for the slots of units it has read, four at a time by group (R408); the rest of a group when `rest` says so. -/
def State.askReloc : Nat → Bool → State → State
  | 0, _, s => s
  | n + 1, rest, s =>
    let buf := s.map.relocBuf
    match buf.find? (fun x => x.group ≠ 32 && (rest || decide (4 ≤ (buf.filter (fun y => y.group = x.group)).length))) with
    | none => s
    | some x =>
      let four := (buf.filter (fun y => y.group = x.group)).take 4
      State.askReloc n rest (State.request { s with map := { s.map with relocBuf := buf.filter (fun y => !four.contains y) } }
        (SlotReq.mk' .groom 0 0 four))

/-- A unit that must move at once: relocated by itself (R388). -/
def State.relocNow (s : State) (ua key : Nat) (d : List Nat) : State :=
  if s.map.ts.map.find? key = some ua then
    s.request (SlotReq.mk' .groom 0 0 [s.relocSlot ua key (relocGroup false key) d false])
  else s

/-! ### Commands that read (R36, R211, R218, R315, R398, R471) -/

/-- The sectors of a leaf that slots of the overlay hold, newest first. -/
def State.leafHave (s : State) (key : Nat) : List (Option Nat) := (List.range 8).map (s.overlaySector key)

/-- Every sector wanted is there. -/
def RdLeaf.full (r : RdLeaf) : Bool := (List.range 8).all (fun i => !bit r.mask i || (r.have'.getD i none).isSome)

/-- A leaf waits for nothing. -/
def RdLeaf.done (r : RdLeaf) : Bool := r.seg = none && r.ua = none

/-- A leaf takes data for the sectors it has not. -/
def RdLeaf.fill (r : RdLeaf) (d : List Nat) : RdLeaf :=
  { r with ua := none, have' := (List.range 8).map (fun i => some ((r.have'.getD i none).getD (d.getD i 0))) }

/-- R315: a lookup must wait for its segment. -/
def State.segAbsent (s : State) (key : Nat) : Bool :=
  !s.ready Fn.MAP_FULL && s.map.ts.segments.contains (keySeg key) && !s.map.resident.contains (keySeg key)

/-- A segment is asked for ahead of the background order; at most 32 loads are outstanding. -/
def State.askSeg (s : State) (seg : Nat) : State :=
  if s.map.loads.contains seg || 32 ≤ s.map.loads.length then s else { s with map := { s.map with loads := s.map.loads ++ [seg] } }

/-- A leaf is looked up: from the overlay, as zeros where it is UNMAPPED, or at its unit, which is then wanted. -/
def State.lookLeaf (s : State) (cls qos : Nat) (id : Cid) (key mask : Nat) : State × RdLeaf :=
  let r : RdLeaf := ⟨key, mask, s.leafHave key, none, none, false⟩
  if r.full then (s, r)
  else if s.segAbsent key then (s.askSeg (keySeg key), { r with seg := some (keySeg key) })
  else match s.map.ts.map.find? key with
    | none => (s, r.fill (List.replicate 8 0))
    | some ua =>
      let (s1, sense) := s.wantUnit cls ua (some key) (.cmd id key)
      (if sense then s1.addRead cls qos (if cls = 4 then .dock else .host) [ua] else s1, { r with ua := some ua })

/-- Looks a list of leaves up in order. -/
def State.lookLeaves (s : State) (cls qos : Nat) (id : Cid) : List (Nat × Nat) → State × List RdLeaf
  | [] => (s, [])
  | (k, m) :: rest =>
    let (s1, r) := s.lookLeaf cls qos id k m
    let (s2, rs) := s1.lookLeaves cls qos id rest
    (s2, r :: rs)

/-- A read record of a command. -/
def State.read? (s : State) (id : Cid) : Option CmdRead := s.map.reads.find? (fun r => r.id = id)

/-- Changes the leaves of a command's read. -/
def State.mapRead (s : State) (id : Cid) (f : RdLeaf → RdLeaf) : State :=
  { s with map := { s.map with reads := s.map.reads.map (fun r => if r.id = id then { r with leaves := r.leaves.map f } else r) } }

/-- Result of a codeword for a command's leaf; the SMART count takes an unrecovered unit of a camera or dock read. -/
def State.gotCmd (s : State) (id : Cid) (key : Nat) : Got → State
  | .data d _ => s.mapRead id (fun r => if r.key = key && r.ua.isSome then r.fill d else r)
  | .lost =>
    State.mapRead { s with nv := { s.nv with mediaErrs := s.nv.mediaErrs + 1 } } id
      (fun r => if r.key = key && r.ua.isSome then { (r.fill (List.replicate 8 0)) with bad := true } else r)

/-! ### Merge (R297) -/

/-- The invalid sectors of a slot take older data, and the mask clears. -/
def mergeSlot (x : Slot) (old : List Nat) : Slot :=
  { x with mask := 0xFF, data := (List.range 8).map (fun i => if bit x.mask i then x.data.getD i 0 else old.getD i 0) }

/-- The sectors of a leaf as older slots hold them, newest of those first. -/
def State.olderSector (s : State) (x : Slot) (i : Nat) : Option Nat :=
  ((s.overlay x.key).find? (fun y => seqBefore 32 y.seq x.seq && bit y.mask i)).map (fun y => y.data.getD i 0)

/-- The older data of a slot's leaf, over data of its unit. -/
def State.olderData (s : State) (x : Slot) (d : List Nat) : List Nat :=
  (List.range 8).map (fun i => (s.olderSector x i).getD (d.getD i 0))

/-- Every invalid sector of a slot is held by older slots. -/
def State.olderFull (s : State) (x : Slot) : Bool := (List.range 8).all (fun i => bit x.mask i || (s.olderSector x i).isSome)

/-- A merge takes the unit it read. A unit that could not be recovered leaves the slot unmerged: its program is not issued. -/
def State.gotMerge (s : State) (seq : Nat) : Got → State
  | .data d _ =>
    match s.slot seq with
    | some x => s.mapSlots (fun y => y.seq = seq) (fun y => mergeSlot y (s.olderData x d))
    | none => s
  | .lost => s

/-! ### Grooming reads (R412, R413) -/

/-- Grooming asks for what it can: whole extents, pages of four, and once nothing more is being read all that is left. -/
def State.relocAsk (s : State) : State :=
  let last := s.map.relocRead = []
  let s1 := s.askWhole
  let s1 := if last then s1.looseExtents else s1
  s1.askReloc s1.map.relocBuf.length last

/-- A unit of a victim has been read: it waits for its slot; an unrecovered unit moves poisoned. A unit that the map no longer
names is not read into a slot. -/
def State.gotReloc (s : State) (ua : Nat) (g : Got) : State :=
  match s.unit ua with
  | none => s
  | some u =>
    let s1 := { s with map := { s.map with relocRead := s.map.relocRead.filter (· ≠ ua) } }
    if s1.map.ts.map.find? u.key = some ua then
      let wear := s1.map.victims.any (fun v => v.1 = s1.bandOf (uaStripe ua) && v.2 = 6)
      let whole := !wear && (s1.map.ts.forms.get (keyExtent u.key) 0 = 1 || s1.map.consol.contains (keyExtent u.key))
      let grp := if whole then 32 else relocGroup wear u.key
      let x := match g with
        | .data d p => s1.relocSlot ua u.key grp d p
        | .lost => s1.relocSlot ua u.key grp u.data true
      State.relocAsk { s1 with map := { s1.map with relocBuf := s1.map.relocBuf ++ [x] } }
    else s1.relocAsk

end Sys2Proof.Machine
end

