-- ==== Sys2Proof/Machine/HostIo.lean ====
section
/-!
DEFINITION. Commands on namespaces (chapters 07 and 16): how a command is fetched, the order of its checks, protection
information, leaves of a range, and the end of the commands that read and that write.
-/

namespace Sys2Proof.Machine

/-! ### Namespaces (R203, R218, Table 07-6) -/

/-- Logical blocks of 512 bytes. -/
def fmt512 (fmt : Nat) : Bool := 3 ≤ fmt

/-- Bytes of metadata of an LBA format. -/
def fmtMeta (fmt : Nat) : Nat := 8 * (fmt % 3)

/-- Logical blocks in a leaf. -/
def fmtPer (fmt : Nat) : Nat := if fmt512 fmt then 8 else 1

/-- An active namespace: created and attached. -/
def State.ns? (s : State) (nsid : Nat) : Option Ns := (s.nv.nses.find? nsid).bind (fun n => if n.attached then some n else none)

/-- The leaves of a range of blocks, each with the sectors that the range takes of it. -/
def leavesOf (fmt slba nlb : Nat) : List (Nat × Nat) :=
  if fmt512 fmt then
    let first := slba / 8
    let last := (slba + nlb - 1) / 8
    (List.range (last + 1 - first)).map (fun i =>
      let leaf := first + i
      (leaf, total ((List.range 8).map (fun k =>
        if slba ≤ 8 * leaf + k && decide (8 * leaf + k < slba + nlb) then 2 ^ k else 0))))
  else (List.range nlb).map (fun i => (slba + i, 0xFF))

/-! ### Sectors: data below, metadata above -/

/-- The 4,096 bits of data of a sector. -/
def secData (w : Nat) : Nat := w % 2 ^ 4096

/-- The metadata that stands with a sector. -/
def secMeta (w : Nat) : Nat := w / 2 ^ 4096

/-- A sector with its metadata. -/
def secOf (d m : Nat) : Nat := d % 2 ^ 4096 + m * 2 ^ 4096

/-! ### Protection information (R203, R204) -/

/-- One bit of the reflected CRC of the 64b Guard. -/
def crc64Byte (c b : Nat) : Nat := (List.range 8).foldl (fun c _ => crcBit 0x9A6C9329AC4BC9B5 c) (Nat.xor c (b % 256))

/-- The 64b Guard of the NVM Command Set. -/
def crc64 (bs : List Nat) : Nat := Nat.xor (bs.foldl crc64Byte (2 ^ 64 - 1)) (2 ^ 64 - 1)

/-- What a protection check found first. -/
inductive PiErr where
  | guard | app | ref
  deriving DecidableEq, Repr

/-- The guard of a logical block's data. -/
def guardOf (fmt : Nat) (d : List Nat) : Nat :=
  let bs := (d.map (fun w => bytesOf 512 (secData w))).flatten
  if fmt % 3 = 1 then crc16 bs else crc64 bs

/-- Guard, application tag and reference tag of stored metadata. -/
def piFields (fmt m : Nat) : Nat × Nat × Nat :=
  if fmt % 3 = 1 then (bits m 48 16, bits m 32 16, bits m 0 32) else (bits m 64 64, bits m 48 16, bits m 0 48)

/-- Metadata from its fields. -/
def piMeta (fmt g a r : Nat) : Nat :=
  if fmt % 3 = 1 then g % 2 ^ 16 * 2 ^ 48 + a % 2 ^ 16 * 2 ^ 32 + r % 2 ^ 32
  else g % 2 ^ 64 * 2 ^ 64 + a % 2 ^ 16 * 2 ^ 48 + r % 2 ^ 48

/-- Bits of a reference tag. -/
def refBits (fmt : Nat) : Nat := if fmt % 3 = 1 then 32 else 48

/-- The protection information type of a namespace: 0 none, 1 or 3. -/
def Ns.piType (n : Ns) : Nat := if n.fmt % 3 = 0 then 0 else n.dps % 8

/-- The reference tag of block `i` of a command. -/
def piRef (n : Ns) (ref i : Nat) : Nat := (if n.piType = 1 then ref + i else ref) % 2 ^ refBits n.fmt

/-- One block is checked as PRCHK selects (R204); an application tag of all ones, for type 3 with a reference tag of all ones,
disables the checks. -/
def piCheck (n : Ns) (prchk ref app mask i : Nat) (d : List Nat) (m : Nat) : Option PiErr :=
  let (g, a, r) := piFields n.fmt m
  if n.piType = 0 then none
  else if a = 0xFFFF && (n.piType = 1 || r = 2 ^ refBits n.fmt - 1) then none
  else if bit prchk 2 && g ≠ guardOf n.fmt d then some .guard
  else if bit prchk 1 && Nat.land a mask ≠ Nat.land (app % 65536) mask then some .app
  else if bit prchk 0 && n.piType = 1 && r ≠ piRef n ref i then some .ref
  else none

/-- The sectors of a command cut into logical blocks. -/
def cutBlocks (fmt : Nat) : Nat → List Nat → List (List Nat)
  | 0, _ => []
  | n + 1, ws => if fmt512 fmt then ws.take 1 :: cutBlocks fmt n (ws.drop 1) else ws.take 8 :: cutBlocks fmt n (ws.drop 8)

/-- The first block that fails, with what failed. -/
def piFirst (n : Ns) (prchk ref app mask : Nat) (blocks : List (List Nat)) : Option (Nat × PiErr) :=
  ((List.range blocks.length).zip blocks).findSome? (fun (i, b) =>
    (piCheck n prchk ref app mask i b (secMeta (b.headD 0))).map (fun e => (i, e)))

/-- PRACT 1: every block gets its protection information. -/
def piMake (n : Ns) (ref app : Nat) (blocks : List (List Nat)) : List Nat :=
  (((List.range blocks.length).zip blocks).map (fun (i, b) =>
    match b with
    | [] => []
    | w :: ws => secOf (secData w) (piMeta n.fmt (guardOf n.fmt b) app (piRef n ref i)) :: ws.map secData)).flatten

/-! ### Fetching (R199, R206, R215, R220) -/

/-- Commands of the camera in the tracker (R206). -/
def State.tracked (s : State) : List Cmd := s.host.cmds.filter (fun c => match c.id.src with
  | .host _ => true
  | _ => false)

/-- Whether an entry of a source may be fetched: the admin queue once NVME_ADMIN is set and the controller enabled, an I/O queue
once NVME_IO is (R195, R199), with Bus Master Enable set in D0, no fatal status, room in the tracker (R206) and a new entry in the queue; a capsule of a connection that has its
queue. -/
def State.mayFetch (s : State) (c : Src) : Bool :=
  match c with
  | .host q =>
    s.isl 2 = 2 && s.host.en && s.host.busMaster && !s.host.d3 && s.get F.HOSTQ_STATUS_CFS = 0 && s.ready (if q = 0 then Fn.NVME_ADMIN else Fn.NVME_IO) && s.tracked.length < 2048 &&
      (s.host.sqs.find? q).any (fun x => x.head ≠ x.tail)
  | .dock conn => s.ready Fn.NVTCP && (s.net.conns.find? conn).any (fun x => x.ctrl.isSome)
  | .relay => true

/-- The entry at the head of a queue is fetched. -/
def State.popSq (s : State) (c : Src) : State :=
  match c with
  | .host q => match s.host.sqs.find? q with
    | some x => { s with host := { s.host with sqs := s.host.sqs.put q { x with head := if x.size = 0 then 0 else (x.head + 1) % x.size } } }
    | none => s
  | _ => s

/-- A command is caught by an Abort. -/
def State.caught (s : State) (id : Cid) : State :=
  ((s.fail id 0 0x07).inc F.HOSTQ_ABORTS_CAUGHT).raise E.HOSTQ_ABORT_CAUGHT

/-- A command of which no Abort catches the arrival. -/
def State.arriveFree (s : State) (id : Cid) (f : State → State) : State :=
  if !s.mayFetch id.src then s
  else
    let s1 := s.popSq id.src
    match id.src with
    | .dock _ => f s1.ioArrival
    | _ => f s1

/-- A command arrives: where its source may be fetched its entry leaves the queue, and an armed Abort marks it before it is
decoded (R215, R220); that Abort completes with bit 0 of its Dword 0 clear. -/
def State.arrive (s : State) (id : Cid) (f : State → State) : State :=
  s.arriveFree id (fun s =>
    match id.src with
    | .host q =>
      match s.host.aborts.find? (fun a => a.sq = q && a.cid = id.cid) with
      | some a =>
        (State.caught { s with host := { s.host with aborts := s.host.aborts.filter (fun x => x.by' ≠ a.by') } } id).ok a.by' 0 0 []
      | none => f s
    | _ => f s)

/-- The queue a command came from is an admin queue. -/
def State.onAdmin (s : State) (c : Src) : Bool :=
  match c with
  | .host q => q = 0
  | .dock conn => (s.net.conns.find? conn).any (fun x => x.qid = 0)
  | .relay => true

/-- A command came from the discovery controller. -/
def State.onDisc (s : State) (c : Src) : Bool :=
  match c with
  | .dock conn => (s.net.conns.find? conn).any (fun x => x.disc)
  | _ => false

/-- A command came from the dock. -/
def isDock (c : Src) : Bool :=
  match c with
  | .dock _ => true
  | _ => false

/-- Why a command is turned away: its status code type, code, and Dword 0. -/
abbrev Why := Nat × Nat × Nat

/-- A command completes with the status of its first failing check. -/
def State.reject (s : State) (id : Cid) (w : Why) : State :=
  if w.1 = 7 then s.vendor id w.2.1 w.2.2 else s.fail id w.1 w.2.1

/-- The first failing check of a list, or the command runs. -/
def State.judge (s : State) (id : Cid) (ws : List (Bool × Why)) (f : State → State) : State :=
  match ws.find? (fun w => w.1) with
  | some w => s.reject id w.2
  | none => f s

/-- The error log takes an entry for a command: its queue, identifier, status, logical block and namespace. -/
def State.logError (s : State) (id : Cid) (sct sc lba nsid : Nat) : State :=
  let q := match id.src with
    | .host q => q
    | .dock c => ((s.net.conns.find? c).map (·.qid)).getD 0
    | .relay => 0
  { s with host := { s.host with
      errCount := s.host.errCount + 1
      errLog := ([s.host.errCount + 1, q, id.cid, sct * 256 + sc, lba, nsid] :: s.host.errLog).take 64 } }

/-- What stands for QID in the Dword 0 of 7h/0x82. -/
def State.qidOf (s : State) (c : Src) : Nat :=
  match c with
  | .host q => q
  | .dock conn => ((s.net.conns.find? conn).map (·.qid)).getD 0
  | .relay => 0

/-! ### The order of checks for I/O (R218) -/

/-- The stream an I/O command acts for (R207, R466). -/
def State.cmdStream (s : State) (c : Src) : Nat :=
  match c with
  | .host q => s.get (F.HOSTQ_QBIND_STREAM (q - 1))
  | _ => s.get F.NVTCP_CFG_STREAM

/-- Check 5: the binding is not valid. -/
def State.unbound (s : State) (c : Src) : Bool :=
  match c with
  | .host q => s.get (F.HOSTQ_QBIND_VALID (q - 1)) = 0
  | .dock _ => (s.takeOf (s.get F.NVTCP_CFG_STREAM)).any (fun t => t.phase = 0)
  | .relay => false

/-- R530, R545: the state permits no namespace I/O, or the keys are about to go. -/
def State.ioLocked (s : State) : Bool := s.secLocked || s.secState = 4 || s.sec.goal.isSome

/-- R451: the half is a convergence target and a segment of the namespace has not converged. -/
def State.unconverged (s : State) (nsid : Nat) : Bool :=
  s.pair.target && s.pair.left.any (fun seg => seg / 2 ^ 44 = nsid)

/-- R469: whether a write in a namespace is permitted; `verified` says that every leaf lies in entries of verified takes and that
it is a deallocate. -/
def State.writeAllowed (s : State) (dock : Bool) (nsid : Nat) (verified : Bool) : Bool :=
  let mask := bit (s.get F.NVTCP_WPOL_NS_MASK) (nsid - 1)
  if s.mode = Md.OFFLOAD then
    s.get (if dock then F.NVTCP_WPOL_DOCK_EN else F.NVTCP_WPOL_CAMERA_EN) = 1 && mask &&
      (s.get F.NVTCP_WPOL_VERIFIED_ONLY = 0 || verified)
  else if dock then s.get F.NVTCP_WPOL_DOCK_EN = 1 && mask
  else true

/-- R479: Offload's connections are closing. -/
def State.dockClosing (s : State) (c : Src) : Bool := isDock c && s.get F.NVTCP_STATUS_CLOSING = 1

/-- Checks 1 to 6 of R218 for an I/O command on blocks; none runs while a Sanitize is in progress (NVMe Base 2.0). `dealloc` is what R469 needs to know of a deallocate. -/
def State.ioChecks (s : State) (id : Cid) (c : IoCmd) (write verified : Bool) : List (Bool × Why) :=
  let n := s.ns? c.nsid
  let size := (n.map (·.size)).getD 0
  let fmt := (n.map (·.fmt)).getD 0
  [(s.onAdmin id.src || s.onDisc id.src, (0, 0x01, 0)),
   (n.isNone, (0, 0x0B, 0)),
   (c.bad || c.nlb = 0 || 2048 < c.nlb * (if fmt512 fmt then 1 else 8), (0, 0x02, 0)),
   (size < c.slba + c.nlb, (0, 0x80, 0)),
   (s.dockClosing id.src || (write && (s.mode = Md.UPDATE || s.mode = Md.QUARANTINE ||
      !s.writeAllowed (isDock id.src) c.nsid verified)), (7, 0x81, s.mode)),
   (s.ioLocked, (7, 0x83, 0)),
   (s.nv.sanit = 2, (0, 0x1D, 0)),
   (s.unbound id.src, (7, 0x82, s.qidOf id.src)),
   (c.dspec.any (fun d => d ≠ s.cmdStream id.src + 1), (0, 0x02, 0)),
   (s.unconverged c.nsid, (7, 0x84, c.nsid)),
   (write && s.follows, (0, 0x20, 0))]

/-- The QoS class of a command's queue. -/
def State.qosOf (s : State) (c : Src) : Nat :=
  match c with
  | .host q => ((s.host.sqs.find? q).map (·.qos)).getD 0
  | _ => 0

/-- A command joins the tracker. -/
def State.trackCmd (s : State) (c : Cmd) : State := { s with host := { s.host with cmds := s.host.cmds ++ [c] } }

/-- The tracker's record of an I/O command. -/
def State.ioRecord (s : State) (id : Cid) (op : CmdOp) (c : IoCmd) (data : List Nat) : Cmd :=
  { id := id, op := op, nsid := c.nsid, stream := s.cmdStream id.src, slba := c.slba, nlb := c.nlb, qos := s.qosOf id.src,
    args := [b2n c.pract, c.prchk, c.ref, c.app, c.mask], data := data }

/-- A command of the tracker. -/
def State.cmd? (s : State) (id : Cid) : Option Cmd := s.host.cmds.find? (fun c => c.id = id)

/-! ### Commands that read -/

/-- The port of a dock command. -/
def State.portOf (s : State) (c : Src) : Nat :=
  match c with
  | .dock conn => ((s.net.conns.find? conn).map (·.port)).getD 0
  | _ => 0

/-- The first sector of a leaf that a mask takes. -/
def firstBit (m : Nat) : Nat := ((List.range 8).find? (bit m)).getD 0

/-- The sectors of a leaf that a mask takes, in order. -/
def maskSectors (m : Nat) (d : List Nat) : List Nat := ((List.range 8).filter (bit m)).map (fun i => d.getD i 0)

/-- A read leaf's data. -/
def RdLeaf.data (r : RdLeaf) : List Nat := (List.range 8).map (fun i => (r.have'.getD i none).getD 0)

/-- R471, R473: what a dock command has read passes its port's hasher, in order. -/
def State.feedRead (s : State) (c : Cmd) (leaves : List RdLeaf) : State :=
  if isDock c.id.src && (c.op = .read || (c.op = .verify && s.get F.NVTCP_VERIFY_CFG_VCMD_EN = 1)) then
    let p := s.portOf c.id.src
    leaves.foldl (fun s r => s.feedLeaf p c.nsid (r.key % 2 ^ 59) (firstBit r.mask)
      (if r.bad then none else some ((maskSectors r.mask r.data).map (fun w => bytesOf 512 (secData w))).flatten)) s
  else s

/-- The first CHECK_DOUBT entry that the leaves of a command touch. -/
def State.doubtIn (s : State) (nsid : Nat) (leaves : List RdLeaf) : Option Nat :=
  leaves.findSome? (fun r => (s.entryOfLeaf nsid (r.key % 2 ^ 59)).bind (fun e =>
    if bit e.flags 1 && decide (r.key % 2 ^ 59 < e.startLba / fmtPer (((s.ns? nsid).map (·.fmt)).getD 0) + ceilDiv e.length 4096)
    then some e.frame else none))

/-- The status code of a protection check (R222, R223), with its count. -/
def State.piFail (s : State) (e : PiErr) : State × Nat :=
  let (f, sc) := match e with
    | .guard => (F.HOSTQ_PI_ERRORS_GUARD, 0x82)
    | .app => (F.HOSTQ_PI_ERRORS_APP, 0x83)
    | .ref => (F.HOSTQ_PI_ERRORS_REF, 0x84)
  (if s.isl 2 = 2 then (s.inc f).raise E.HOSTQ_PI_ERROR else s, sc)

/-- The command has read all its leaves (R36, R204, R218, R223, R398). -/
def State.endRead (s : State) (c : Cmd) (leaves : List RdLeaf) : State :=
  let s := s.feedRead c leaves
  match s.nv.nses.find? c.nsid with
  | none => s.fail c.id 0 0x0B
  | some n =>
    let sectors := (leaves.map (fun r => maskSectors r.mask r.data)).flatten
    let blocks := cutBlocks n.fmt c.nlb sectors
    let strip := c.args.getD 0 0 = 1 && fmtMeta n.fmt = 8
    let out := if c.op = .read then (if strip then sectors.map secData else sectors) else []
    match leaves.find? (·.bad) with
    | some r =>
      let s1 := s.logError c.id 2 0x81 (max c.slba (r.key % 2 ^ 59 * fmtPer n.fmt)) c.nsid
      s1.complete c.id 2 0x81 true 0 0 out
    | none =>
      match piFirst n (c.args.getD 1 0) (c.args.getD 2 0) (c.args.getD 3 0) (c.args.getD 4 0) blocks with
      | some (i, e) =>
        let (s1, sc) := s.piFail e
        (s1.logError c.id 2 sc (c.slba + i) c.nsid).complete c.id 2 sc true 0 0 out
      | none =>
        if c.op = .compare && sectors ≠ c.data then s.fail c.id 2 0x85
        else match (if c.op = .read then none else s.doubtIn c.nsid leaves) with
          | some f => s.vendor c.id 0x85 f
          | none => s.ok c.id 0 0 out

/-- A command whose every leaf is there ends. -/
def State.serveRead (s : State) (id : Cid) : State :=
  match s.read? id, s.cmd? id with
  | some r, some c => if r.leaves.all RdLeaf.done then s.endRead c r.leaves else s
  | _, _ => s

/-- A command that reads begins: its leaves are looked up. -/
def State.startRead (s : State) (id : Cid) (op : CmdOp) (c : IoCmd) (data : List Nat) : State :=
  let cls := if isDock id.src then 4 else 3
  let fmt := ((s.ns? c.nsid).map (·.fmt)).getD 0
  let s1 := s.trackCmd (s.ioRecord id op c data)
  let (s2, rs) := s1.lookLeaves cls (s.qosOf id.src) id ((leavesOf fmt c.slba c.nlb).map (fun (l, m) => (leafKey c.nsid l, m)))
  State.serveRead { s2 with map := { s2.map with reads := s2.map.reads ++ [⟨id, cls, rs⟩] } } id

/-! ### Commands that write (R25, R27, R204, R222, R312 to R314) -/

/-- R312: a leaf at or beyond the append pointer of a stream of a live take. -/
def State.inIngest (s : State) (nsid leaf : Nat) : Bool :=
  (List.range 256).any (fun st =>
    let c := s.streamCfg st
    c.nsid = nsid && (s.takeOf st).isSome && 64 * c.base + s.appendPtr st ≤ leaf && decide (leaf < 64 * (c.base + c.len)))

/-- R314: whether a leaf of a stream's write needs a new leaf table: its extent lies in one run (R313), or it is leaf-placed. -/
def State.needsTable (s : State) (stream : Nat) (keys : List Nat) (k : Nat) : Bool :=
  !s.hasTable k &&
    (s.map.ts.forms.get (keyExtent k) 0 = 1 || (s.streamCfg stream).mode = 1 ||
      !(k % 64 = 0 || keys.contains (64 * keyExtent k) ||
        ((s.group (s.streamCfg stream).pg).run stream).any (fun r => keyExtent r.key = keyExtent k)))

/-- Check 7 for a write: the regions of live takes, leaf tables, and what the bank could ever hold (R151). -/
def State.writeChecks (s : State) (id : Cid) (nsid : Nat) (leaves : List Nat) : List (Bool × Why) :=
  let keys := leaves.map (leafKey nsid)
  [(leaves.any (s.inIngest nsid), (0, 0x15, 0)),
   (!s.tablesFor (keys.filter (s.needsTable (s.cmdStream id.src) keys)), (0, 0x81, 0))]

/-- The filling slots of a write. -/
def writeSlots (id : Cid) (stream nsid : Nat) (leaves : List (Nat × Nat)) : List Slot :=
  leaves.map (fun (l, m) => ⟨0, .filling, .host, .cmd id, 0, stream, nsid, leafKey nsid l, m, List.replicate 8 0, 0, false⟩)

/-- A write asks for its slots: the camera's for all at once, the dock's for one at a time (R148, R467). -/
def State.askWrite (s : State) (id : Cid) (slots : List Slot) : State :=
  match id.src with
  | .host q => s.request (SlotReq.mk' .host (s.qosOf id.src) q slots)
  | _ => slots.foldl (fun s x => s.request (SlotReq.mk' .net 0 0 [x])) s

/-- The command has begun: a slot of it was admitted (Table 07-10). -/
def State.begun (s : State) (id : Cid) : Bool := s.slots.any (fun x => x.ofCmd id)

/-- A write leaves without having stored anything: its slots and requests return. -/
def State.dropWrite (s : State) (id : Cid) : State :=
  State.dropSlots { s with led := { s.led with reqs := s.led.reqs.filter (fun r => !r.slots.any (fun x => x.ofCmd id)) } }
    (fun x => x.ofCmd id && x.lst = .filling)

/-- The sectors of a command as the slot of one of its leaves takes them. -/
def takeSectors : List (Nat × Nat) → List Nat → List (Nat × List Nat)
  | [], _ => []
  | (l, m) :: rest, ws =>
    let n := ((List.range 8).filter (bit m)).length
    let mine := ws.take n
    let idx := (List.range 8).filter (bit m)
    (l, (List.range 8).map (fun i => if bit m i then mine.getD (idx.findIdx (· = i)) 0 else 0)) :: takeSectors rest (ws.drop n)

/-- The data of a write is complete: checked or given its protection information, stored in its slots, and the slots land. -/
def State.storeWrite (s : State) (c : Cmd) (sectors : List Nat) : State :=
  match s.nv.nses.find? c.nsid with
  | none => (s.dropWrite c.id).fail c.id 0 0x0B
  | some n =>
    let blocks := cutBlocks n.fmt c.nlb sectors
    let pract := c.args.getD 0 0 = 1 && n.piType ≠ 0
    match (if pract then none else piFirst n (c.args.getD 1 0) (c.args.getD 2 0) (c.args.getD 3 0) (c.args.getD 4 0) blocks) with
    | some (i, e) =>
      let (s1, sc) := (s.dropWrite c.id).piFail e
      (s1.logError c.id 2 sc (c.slba + i) c.nsid).fail c.id 2 sc
    | none =>
      let ws := if pract then piMake n (c.args.getD 2 0) (c.args.getD 3 0) blocks else sectors
      let leaves := leavesOf n.fmt c.slba c.nlb
      let parts := takeSectors leaves ws
      let s1 := s.verAlter c.nsid (leaves.map (·.1))
      let s1 := s1.mapSlots (fun x => x.ofCmd c.id && x.lst = .filling) (fun x =>
        match parts.find? (fun p => leafKey c.nsid p.1 = x.key) with
        | some p => { x with data := p.2 }
        | none => x)
      let seqs := (s1.slots.filter (fun x => x.ofCmd c.id && x.lst = .filling)).map (·.seq)
      let s1 := { s1 with host := { s1.host with cmds := s1.host.cmds.map (fun (x : Cmd) => if x.id = c.id then { x with started := true } else x) } }
      ((s1.store (fun x => x.ofCmd c.id)).mirrorSlots seqs).writesDone

end Sys2Proof.Machine
end

