-- ==== Sys2Proof/Machine/Escal.lean ====
section
/-!
DEFINITION. The escalation of a codeword that is read (chapter 13, R381 to R388, R400, R401): decodes, retries, soft decodes,
reconstruction of a stripe, the outcome and who receives it.
-/

namespace Sys2Proof.Machine

/-! ### Outcomes -/

/-- The codeword's result reaches those that read it for themselves. -/
def State.giveOne (s : State) (ua : Nat) (g : Got) : EscFor → State
  | .cmd c key => (s.gotCmd c key g).serveRead c
  | .reloc => s.gotReloc ua g
  | .merge seq => s.gotMerge seq g
  | .scrub | .recon _ => s
  | .test => match g with
    | .lost => if s.tst.kind ≠ 0 && s.tst.failed.isNone then { s with tst := { s.tst with failed := some s.tst.seg } } else s
    | .data _ _ => s

/-- The escalation ends: it leaves, and its readers take the result. -/
def State.give (s : State) (e : Esc) (g : Got) : State :=
  e.fors.foldl (fun s w => s.giveOne e.ua g w) { s with map := { s.map with escs := s.map.escs.filter (fun x => x.n ≠ e.n) } }

/-- A payload that failed only its stored check is returned as written, and the unit moves (R385 items 4 and 5, R388). -/
def State.writtenWrong (s : State) (e : Esc) (d : List Nat) : State :=
  let s1 := ((s.inc F.ECC_CHECK_WRITTEN_WRONG).unitRecord e 4 0).relocNow e.ua (e.key.getD 0) d
  if e.fors.contains .scrub then s1.inc F.SCRUB_ACTIONS_UNIT_RELOC else s1

/-- The unit is unrecovered: the map is unchanged. -/
def State.unrecovered (s : State) (e : Esc) : State := (s.inc F.ECC_ESC_UNRECOVERED).unitRecord e 3 0

/-- R388: a parity page cannot be recovered: its stripe is UNPROTECTED and its band is queued ahead of all others. -/
def State.parityLost (s : State) (e : Esc) : State :=
  let st := uaStripe e.ua
  let s1 := ((s.unitRecord e 8 0).unitRecord e 12 0).note (.stripe st 2 0)
  s1.queueUrgent (s1.bandOf st)

/-- The end of every step: a payload held back by its check is WRITTEN_WRONG, otherwise the unit is lost. -/
def State.lastResort (s : State) (e : Esc) : State × Got :=
  match e.mism with
  | some d => (s.writtenWrong e d, .data d false)
  | none =>
    if (s.unit e.ua).any (fun u => u.kind = 2) then (s.parityLost e, .lost) else (s.unrecovered e, .lost)

/-- The parents of a reconstruction that waits for a codeword take it. -/
def Esc.add (e : Esc) : Got → Esc
  | .data d _ => { e with acc := xorData e.acc d, left := e.left - 1 }
  | .lost => { e with left := e.left - 1, bad := true }

/-- R386: every other unit of the stripe has been read: the rebuilt payload passes only if it matches the rebuilt tag. -/
def State.endRecon (s : State) (e : Esc) : State :=
  match s.unit e.ua with
  | some u =>
    if !e.bad && u.kind = 1 && u.crc = crc32c (leafBytes e.acc) && e.key.all (· = u.key) then
      let s1 := ((s.inc F.ECC_ESC_RECON_OK).unitRecord e 2 0).relocNow e.ua u.key e.acc
      let s1 := if e.fors.contains .scrub then s1.inc F.SCRUB_ACTIONS_UNIT_RELOC else s1
      (s1.queueUrgent (s1.bandOf (uaStripe e.ua))).give e (.data e.acc u.poison)
    else
      let (s1, g) := s.lastResort e
      s1.give e g
  | none =>
    let (s1, g) := s.lastResort e
    s1.give e g

/-- An escalation ends with a result, which reaches its own readers and the reconstructions that wait for it. -/
def State.endEsc (s : State) (e : Esc) (g : Got) : State :=
  e.fors.foldl (fun s w =>
    match w with
    | .recon n =>
      match s.esc? n with
      | some p =>
        let p' := p.add g
        let s1 := s.mapEsc n (fun _ => p')
        if p'.left = 0 then s1.endRecon p' else s1
      | none => s
    | _ => s) (s.give e g)

/-! ### Reconstruction (R386, R387) -/

/-- What another position of a stripe contributes without a read, or the unit that must be read. -/
def State.contribution (s : State) (st pos q : Nat) : Sum (List Nat) Nat :=
  let ua := unitAddr st pos q
  let zero : List Nat := List.replicate 8 0
  match s.unit ua with
  | some _ => .inr ua
  | none =>
    match s.nv.moved.find? ua with
    | some ua' => .inr ua'
    | none =>
      match s.pageAt st pos with
      | some p => match (p.seqs.getD q none).bind s.slot with
        | some x => .inl (if p.phase = .issued || x.lst = .programming then x.data else zero)
        | none => .inl zero
      | none => .inl zero

/-- The positions whose units rebuild another: in a stripe without its parity page those issued, and the running parity. -/
def State.startRecon (s : State) (e : Esc) : State :=
  let st := uaStripe e.ua
  let q := uaQuarter e.ua
  let held := s.paritySlotsOf st
  let others := (List.range 64).filter (fun p => p ≠ uaPos e.ua && !(held ≠ [] && p = st % 64))
  let cs := others.map (fun p => s.contribution st p q)
  let acc0 := (held.getD q ⟨0, .durable, .parity, .none, 0, 0, 0, 0, 0, List.replicate 8 0, 0, false⟩).data
  let acc := cs.foldl (fun a c => match c with
    | .inl d => xorData a d
    | .inr _ => a) acc0
  let uas := cs.filterMap (fun c => match c with
    | .inl _ => none
    | .inr u => some u)
  let blocked (u : Nat) : Bool := s.failedAt (s.bandOf (uaStripe u)) (uaPos u) ||
    s.map.escs.any (fun x => x.ua = u && x.step = 4)
  let bad := uas.any blocked
  let e' := { e with step := 4, acc := acc, left := if bad then 0 else uas.length, bad := bad }
  let s1 := s.mapEsc e.n (fun _ => e')
  if e'.left = 0 then s1.endRecon e'
  else uas.foldl (fun s u =>
    let (s2, sense) := s.wantUnit e.cls u none (.recon e.n)
    if sense then s2.addRead e.cls 0 (if e.cls = 4 then .dock else .host) [u] else s2) s1

/-! ### Steps (R382) -/

/-- Only reconstructions wait for a codeword: it stops at step 3 (R386). -/
def Esc.reconOnly (e : Esc) : Bool := e.fors.all (fun w => match w with
  | .recon _ => true
  | _ => false)

/-- A sense beyond the first is charged to the class that began the escalation (R174). -/
def State.chargeRetry (s : State) (e : Esc) (n : Nat) : State :=
  let (c, _, _, _) := s.uaPlace e.ua
  let cost := n * s.get F.BUDGET_COST_B_RETRY
  (s.pay e.cls c cost).spend c cost

/-- A codeword goes to reconstruction, or ends. -/
def State.toRecon (s : State) (e : Esc) : State :=
  if s.get F.ECC_DECODE_RECON_EN = 1 && !e.reconOnly && !isSealUa e.ua then s.startRecon e
  else
    let (s1, g) := s.lastResort e
    s1.endEsc e g

/-- The step in hand has failed: the next one begins. -/
def State.nextStep (s : State) (e : Esc) : State :=
  if e.step ≤ 2 && e.tries < s.get F.ECC_DECODE_RETRY_MAX then
    ((s.chargeRetry e 1).inc F.ECC_RETRIES_COUNT).mapEsc e.n (fun _ => { e with step := 2, tries := e.tries + 1 })
  else if e.step ≤ 2 && s.get F.ECC_DECODE_SOFT_EN = 1 then
    (s.chargeRetry e 2).mapEsc e.n (fun _ => { e with step := 3 })
  else s.toRecon e

/-- The retry entry of the sense in hand. -/
def State.escEntry (s : State) (e : Esc) : Nat :=
  if e.step = 3 then e.best else (e.base + e.tries) % max 1 (s.get F.ECC_RETRY_N_COUNT)

/-- R391: the scrubber's read of a unit asks for a refresh of its band. -/
def State.scrubFind (s : State) (e : Esc) (bits : Nat) : State :=
  let band := s.bandOf (uaStripe e.ua)
  let tier := (s.nv.bandTiers.get band []).getD (uaPos e.ua) 0
  if e.fors.contains .scrub && (1 < e.step || s.get F.SCRUB_CFG_REFRESH_PCT * hardLimit tier ≤ 100 * bits) then
    (s.queueRefresh band).inc F.SCRUB_ACTIONS_ERROR_REFRESH else s

/-- A step has passed: the tracker, its counts, and the result. -/
def State.passStep (s : State) (e : Esc) (bits : Nat) (d : List Nat) (poison : Bool) : State :=
  let (c, l, _, _) := s.uaPlace e.ua
  let j := s.escEntry e
  let s1 := match e.step with
    | 1 => s.inc (F.ECC_TRACK_HITS (16 * c + l))
    | 2 => (s.inc F.ECC_ESC_RETRY_OK).setTrack c l j
    | _ => (((s.inc F.ECC_ESC_SOFT_OK).setTrack c l j).unitRecord e 1 j).queueRefresh (s.bandOf (uaStripe e.ua))
  let s1 := if e.mism.isSome then (s1.inc F.ECC_CHECK_MISCORRECT).unitRecord e 5 bits else s1
  (s1.scrubFind e bits).endEsc e (.data d poison)

/-- R385: a satisfied codeword is judged: poison, key, CRC. -/
def State.judgeWord (s : State) (e : Esc) (bits : Nat) (u : Unit) (key : Nat) (d : List Nat) : State :=
  let keyOk := e.key.all (· = key) || u.kind = 2
  let crcOk := u.crc = crc32c (leafBytes d) || u.kind = 2
  if u.poison then
    let s1 := s.unrecovered e
    s1.endEsc e .lost
  else if !keyOk && bits = 0 then ((s.inc F.ECC_CHECK_MISPLACED).unitRecord e 6 0).endEsc e .lost
  else if keyOk && crcOk then s.passStep e bits d u.poison
  else if bits = 0 then (s.writtenWrong e d).endEsc e (.data d false)
  else s.nextStep { e with mism := some (e.mism.getD d) }

/-- A decoder finishes a codeword, and its escalation passes, continues or ends. -/
def execCodewordDecoded (n : Nat) (r : DecRes) (s : State) : Host.Outcome State Fault Refusal :=
  done (match s.esc? n with
    | none => s
    | some e =>
      if e.step = 0 || e.step = 4 || !s.ready Fn.LDPC then s
      else
        let s1 := s.addSat F.ECC_CW_COUNT 1
        let s1 := if r.markBad then s1.inc F.ECC_CHECK_MARK_BAD else s1
        let e := if e.step = 1 || r.unsat < e.unsat then { e with best := s.escEntry e, unsat := r.unsat } else e
        match s.unit e.ua with
        | none => s1.endEsc e (.data (List.replicate 8 0) false)
        | some u =>
          if r.erased then (s1.unitRecord e 7 0).toRecon e
          else if r.ok then
            let (k, d) := r.wrong.getD (u.key, u.data)
            (s1.addSat F.ECC_BITS_COUNT r.bits).judgeWord e r.bits u k d
          else s1.nextStep e)

/-! ### Senses (R355, R386) -/

/-- The codewords of an operation pass to the decoders. -/
def State.sensed (s : State) (uas : List Nat) : State :=
  { s with map := { s.map with escs := s.map.escs.map (fun e => if e.step = 0 && uas.contains e.ua then { e with step := 1 } else e) } }

/-- The codewords of an operation cannot be sensed: they are rebuilt (R386). -/
def State.unsensed (s : State) (uas : List Nat) : State :=
  uas.foldl (fun s ua => match s.map.escs.find? (fun e => e.ua = ua && e.step = 0) with
    | some e => s.toRecon e
    | none => s) s

/-- A flash read completes and its codewords pass to the LDPC pool. -/
def execFlashReadComplete (op : Nat) (s : State) : Host.Outcome State Fault Refusal :=
  done (match s.op op with
    | some o =>
      if o.kind = .read && o.phase = .running then
        (((s.retireOp o).lunWorked o.chan o.lun).addSat (F.FCH_READS_COUNT o.chan) 1).sensed o.items
      else s
    | none => s)

end Sys2Proof.Machine
end

