-- ==== Sys2Proof/Machine/Programs.lean ====
section
/-!
DEFINITION. Programs and erases (chapters 10, 12 and 14): what a retired page makes of the map, the journal and the slots; stripes
and bands that close; failures, time-outs, failed LUNs and channels.
-/

namespace Sys2Proof.Machine

/-! ### Map changes at retirement (R287, R293, R296, R413) -/

/-- The data-order page of a unit within its band. -/
def State.orderOff (s : State) (ua : Nat) : Nat :=
  let st := uaStripe ua
  let pos := uaPos ua
  (st - s.bandOf st * s.bandStripes) * 63 + (if pos < st % 64 then pos else pos - 1)

/-- R287: the leaves of an extent lie in one run, in leaf order. -/
def State.inRun (s : State) (ext : Nat) : Option Nat :=
  (s.map.ts.map.find? (64 * ext)).bind (fun ua0 =>
    let off := s.orderOff ua0
    let band := s.bandOf (uaStripe ua0)
    if off % 16 = 0 && uaQuarter ua0 = 0 && (List.range 64).all (fun i =>
        (s.map.ts.map.find? (64 * ext + i)).any (fun ua =>
          s.bandOf (uaStripe ua) = band && s.orderOff ua = off + i / 4 && uaQuarter ua = i % 4))
    then some ua0 else none)

/-- An extent whose run is complete takes EXTENT form: a run of ingest or host data where it has no leaf table, a run of grooming
always. Data placed by leaves takes LEAF_TABLE form. -/
def State.formAfter (s : State) (g key : Nat) : State :=
  if keyNs key = 0 then s
  else
    let ext := keyExtent key
    let form := s.map.ts.forms.get ext 0
    if g < 16 || g = 32 then
      match s.inRun ext with
      | some ua => if form = 0 || (form = 2 && g = 32) then s.note (.extentSet (64 * ext) ua) else s
      | none => s
    else if form = 2 then s else s.makeTable key

/-- R296, R413: one slot of a retired page: the map entry where nothing newer is durable, its record, and the slot returns. -/
def State.retireSlot (s : State) (ua seq : Nat) : State :=
  match s.slot seq with
  | none => s
  | some x =>
    let newer := (s.slots.any (fun y => y.key = x.key && y.seq ≠ x.seq && (y.kind = .host || y.kind = .frame || y.kind = .internal) &&
      y.lst ≠ .filling && seqBefore 32 x.seq y.seq))
    let current := match x.kind, x.owner with
      | .reloc, .reloc src => s.map.ts.map.find? x.key = some src && s.overlay x.key = []
      | _, _ => !newer
    if current then (s.journal (.leafSet x.key ua) (some seq)).formAfter x.group x.key
    else s.freeSlot seq

/-- The unit that a slot leaves in flash. -/
def unitOf (x : Slot) : Unit :=
  ⟨1, x.poison, x.kind = .frame, x.stream, x.nsid, x.key, x.seq, crc32c (leafBytes x.data), x.data⟩

/-- A page of data retires. -/
def State.retirePageAt (s : State) (stripe pos : Nat) : State :=
  match s.pageAt stripe pos with
  | none => s
  | some p =>
    let s1 := s.putPage { p with phase := .retired }
    let s1 := (List.range 4).foldl (fun s q =>
      match p.seqs.getD q none with
      | none => s
      | some seq =>
        match s.slot seq with
        | none => s
        | some x =>
          let ua := unitAddr stripe pos q
          let olds := (s.map.voided.filter (fun v => v.1 = seq)).map (·.2)
          let s2 : State := { s with
            nv := { s.nv with units := s.nv.units.put ua (unitOf x), moved := olds.foldl (fun t o => t.put o ua) s.nv.moved }
            map := { s.map with voided := s.map.voided.filter (fun v => v.1 ≠ seq) } }
          s2.retireSlot ua seq) s1
    let g := (s.map.ts.band (s.bandOf stripe)).group
    if g < 17 then s1.addSat F.GROOM_HOST_PAGES_COUNT 1
    else if 32 ≤ g && g ≤ 35 then s1.addSat F.GROOM_RELOC_PAGES_COUNT 1 else s1

/-- A parity page retires: the stripe's running parity returns to free. -/
def State.retireParity (s : State) (stripe : Nat) : State :=
  let held := s.paritySlotsOf stripe
  let pos := stripe % 64
  let us := (List.range 4).map (fun q =>
    let d := (held.getD q ⟨0, .durable, .parity, .none, 0, 0, 0, 0, 0, List.replicate 8 0, 0, false⟩).data
    (unitAddr stripe pos q, (⟨2, false, false, 0, 0, 0, 0, 0, d⟩ : Unit)))
  let s1 : State := { s with nv := { s.nv with units := us.foldl (fun t (ua, u) => t.put ua u) s.nv.units } }
  let s1 := match s1.pageAt stripe pos with
    | some p => s1.putPage { p with phase := .retired }
    | none => s1
  (s1.dropSlots (fun x => (x.kind = .parity || x.kind = .relocParity) && x.key = stripe))

/-- One position of an operation retires. -/
def State.retireItem (s : State) (item : Nat) : State :=
  let stripe := item / 64
  let pos := item % 64
  (if pos = stripe % 64 then s.retireParity stripe else s.retirePageAt stripe pos).closeStripe stripe

/-! ### Failures (R363, R371 to R373) -/

/-- Slots of a page that must be placed again keep their list and join their group's queue (R371). -/
def State.replaceSlots (s : State) (seqs : List Nat) : State :=
  seqs.foldl (fun s q => match s.slot q with
    | some x =>
      let y := s.group x.group
      let s1 := if (x.group < 16 || x.group = 32) && keyNs x.key ≠ 0 then s.makeTable x.key else s
      s1.setGroup x.group { y with queue := y.queue ++ [q] }
    | none => s) s

/-- A position becomes void: what it held is placed again; a lost parity page leaves its stripe UNPROTECTED. -/
def State.voidItem (s : State) (item : Nat) : State :=
  let stripe := item / 64
  let pos := item % 64
  match s.pageAt stripe pos with
  | none => s
  | some p =>
    let s1 := s.putPage { p with phase := .void }
    if pos = stripe % 64 then
      let s2 := (s1.dropSlots (fun x => (x.kind = .parity || x.kind = .relocParity) && x.key = stripe)).note (.stripe stripe 2 0)
      s2.queueUrgent (s2.bandOf stripe)
    else
      let was := if p.phase = .issued then
          (List.range 4).filterMap (fun q => (p.seqs.getD q none).map (fun seq => (seq, unitAddr stripe pos q)))
        else []
      State.replaceSlots { s1 with map := { s1.map with voided := s1.map.voided ++ was } } (p.seqs.filterMap id)

/-- A program has failed (R371). -/
def State.progFail (s : State) (o : FlashOp) : State :=
  let s1 := ((s.dropOp o.id).inc (F.FCH_ERR_PROG_FAIL o.chan)).raise (E.FCH_PROG_FAIL o.chan)
  let key := blockKey o.chan o.lun o.block
  let bands := (o.items.map (fun i => s.bandOf (i / 64))).eraseDups
  let s1 := bands.foldl (fun s b =>
    let x := s.map.ts.band b
    { s with map := { s.map with ts := { s.map.ts with bands := s.map.ts.bands.put b { x with bad := (x.bad ++ [key]).eraseDups } } } }) s1
  let s1 := o.items.foldl (fun s i => (s.voidItem i).note (.stripe (i / 64) 3 (2 ^ (i % 64)))) s1
  let s1 := o.items.foldl (fun s i => (s.parityReady (i / 64)).closeStripe (i / 64)) s1
  (s1.resumeLun o.chan o.lun).pump

/-- Counters of an erase that has ended, well or not: it counts, and is journaled (R372, R417). -/
def State.countErase (s : State) (key : Nat) : State := s.note (.erase key (min (s.eraseCount key + 1) 0xFFFFFFFF))

/-- A block set of a band has been erased: the band is ERASED with its last one (R405). -/
def State.bandErased (s : State) (band key : Nat) : State :=
  let x := s.map.ts.band band
  let left := x.toErase.filter (· ≠ key)
  let units := s.nv.units.filter (fun e => s.bandOf (uaStripe e.1) ≠ band)
  if x.state ≠ .dirty then s
  else if left = [] then
    let last := s.nv.sanit = 2 && !s.map.ts.bands.any (fun e => e.1 ≠ band && e.2.state = .dirty)
    let marks := s.map.ts.marks.filter (fun m => s.bandOf m.1 ≠ band)
    let moved := s.nv.moved.filter (fun m => s.bandOf (uaStripe m.1) ≠ band)
    let s1 : State := { s with
      map := { s.map with ts := { s.map.ts with bands := s.map.ts.bands.del band, marks := marks } }
      nv := { s.nv with
        units := units, bandCal := s.nv.bandCal.del band, bandTiers := s.nv.bandTiers.del band, moved := moved
        sanit := if last then 1 else s.nv.sanit } }
    if last then (s1.raise E.SEC_SANITIZE_DONE).aen ⟨6, 1, 0x81⟩ else s1
  else { s with map := { s.map with ts := { s.map.ts with bands := s.map.ts.bands.put band { x with toErase := left } } } }

/-- The logical block set that stands at a physical one of a LUN. -/
def State.logicalOf (s : State) (c l phys : Nat) : Nat :=
  match List.find? (fun (e : Nat × Nat) => e.1 / 65536 = c * 16 + l && e.2 = phys) s.nv.remap with
  | some e => e.1 % 65536
  | none => phys

/-- A Seal block of a channel has been erased (R365); one that an earlier Seal used returns to the spares (R411). -/
def State.sealErased (s : State) (c l b : Nat) : State :=
  if s.get (F.FCH_SEAL_LUN0 c) = l && s.get (F.FCH_SEAL_BLOCK0 c) = b then s.set (F.FCH_SEAL_ERASED0 c) 1
  else if s.get (F.FCH_SEAL_LUN1 c) = l && s.get (F.FCH_SEAL_BLOCK1 c) = b then s.set (F.FCH_SEAL_ERASED1 c) 1
  else
    let k := blockKey c l b
    let pages := s.nv.sealPages.map (fun p => if p.used then { p with blks := p.blks.filter (· ≠ k) } else p)
    let gone := pages.filter (fun p => p.blks = [])
    { s with nv := { s.nv with
      sealPages := pages.filter (fun p => p.blks ≠ [])
      units := s.nv.units.filter (fun e => !gone.any (fun p => e.1 / 4 = sealUa p.sealSeq p.pos 0 / 4)) } }

/-- What an erase leaves, by why it was made. -/
def State.erased (s : State) (o : FlashOp) : State :=
  let key := blockKey o.chan o.lun o.block
  match o.why with
  | .band => s.bandErased (o.items.headD 0) key
  | .sealBlock => s.sealErased o.chan o.lun o.block
  | _ => s

/-- An erase ends; one that failed has its block set retired at once (R372). -/
def State.endErase (s : State) (o : FlashOp) (ok : Bool) : State :=
  let key := blockKey o.chan o.lun o.block
  let us := if s.tb < o.started then 0 else (s.tb - o.started) / 250
  let s1 := (s.retireOp o).countErase key
  if ok then
    let s1 := ((s1.lunWorked o.chan o.lun).addSat (F.FCH_ERASES_COUNT o.chan) 1)
    (s1.set (F.FCH_LAT_MAX_ERASE_US o.chan) (max (s1.get (F.FCH_LAT_MAX_ERASE_US o.chan)) (min us 65535))).erased o
  else
    let s1 := (s1.inc (F.FCH_ERR_ERASE_FAIL o.chan)).raise (E.FCH_ERASE_FAIL o.chan)
    (s1.retireBlock o.chan o.lun (s1.logicalOf o.chan o.lun o.block)).erased o

/-- A block-set erase completes or fails. -/
def execEraseComplete (op : Nat) (ok : Bool) (s : State) : Host.Outcome State Fault Refusal :=
  done (match s.op op with
    | some o => if o.kind = .erase && o.phase = .running then s.endErase o ok else s
    | none => s)

/-- A page program retires, or reports failure. -/
def execProgramRetire (op : Nat) (ok : Bool) (s : State) : Host.Outcome State Fault Refusal :=
  done (match s.op op with
    | some o =>
      if (o.kind = .prog || o.kind = .progSlc) && o.phase = .running then
        if ok then
          let us := if s.tb < o.started then 0 else (s.tb - o.started) / 250
          let s1 := (s.retireOp o).lunWorked o.chan o.lun
          let s1 := s1.addSat (F.FCH_PROGS_COUNT o.chan) o.items.length
          let s1 := s1.set (F.FCH_LAT_MAX_PROG_US o.chan) (max (s1.get (F.FCH_LAT_MAX_PROG_US o.chan)) (min us 65535))
          (o.items.foldl State.retireItem s1).pump.journaled
        else s.progFail o
      else s
    | none => s)

/-- A read cannot be carried out: its codewords go to reconstruction. -/
def State.readFail (s : State) (o : FlashOp) : State := ((s.dropOp o.id).resumeLun o.chan o.lun).unsensed o.items

/-- An operation that cannot be carried out fails by its kind. -/
def State.opFail (s : State) (o : FlashOp) : State :=
  match o.kind with
  | .read => s.readFail o
  | .erase => s.endErase o false
  | _ => s.progFail o

/-- Pages of open stripes on a LUN that have not been issued become void (R364, R373). -/
def State.voidLun (s : State) (c l : Nat) : State :=
  let mine := s.map.pages.filter (fun p =>
    let (c', l', _) := s.place (s.bandOf p.stripe) p.pos
    c' = c && l' = l && (p.phase = .filling || p.phase = .ready))
  let s1 := mine.foldl (fun s p => s.voidItem (p.stripe * 64 + p.pos)) s
  mine.foldl (fun s p => s.parityReady p.stripe) s1

/-- R39, R40: an operation that was never issued is reported not executed: a read is rebuilt, a block set need not be erased, and
what a program carried is placed again. -/
def State.unexecuted (s : State) (o : FlashOp) : State :=
  match o.kind with
  | .read => s.readFail o
  | .erase => (s.dropOp o.id).erased o
  | _ =>
    let s1 := o.items.foldl State.voidItem (s.dropOp o.id)
    (o.items.foldl (fun s i => (s.parityReady (i / 64)).closeStripe (i / 64)) s1)

/-- Operations at a place fail. -/
def State.failOps (s : State) (p : FlashOp → Bool) : State :=
  (s.bud.ops.filter p).foldl (fun s o => if o.phase = .queued || o.phase = .picked then s.unexecuted o else s.opFail o) s

/-- Table 20-5: every channel in use is FAILED. -/
def State.allFailed (s : State) : State := if s.channels ≠ [] && s.readyChannels = [] then s.quarantine 6 0 0x16 else s

/-- A channel is FAILED (R373), and stays so across resets (Table 12-2). -/
def State.failChan (s : State) (c : Nat) : State :=
  let s1 := (s.set (F.FCH_STATUS_STATE c) 3).raise (E.FCH_CHAN_FAIL c)
  let s1 := { s1 with nv := { s1.nv with chanFailed := (s1.nv.chanFailed ++ [c]).eraseDups } }
  let s1 := (List.range 16).foldl (fun s l => s.voidLun c l) s1
  ((s1.failOps (fun o => o.chan = c)).pump).allFailed

/-- A LUN is FAILED (R370, R373); with the last of its channel the channel is. -/
def State.failLun (s : State) (c l : Nat) : State :=
  let s1 := (s.setPart (F.FCH_LUN_STATE_STATE c) l 2 2).raise (E.FCH_LUN_FAIL c)
  let s1 := ((s1.voidLun c l).failOps (fun o => o.chan = c && o.lun = l)).pump
  if (s1.lunsOn c).all (fun k => s1.getPart (F.FCH_LUN_STATE_STATE c) k 2 = 2) && s1.chanState c = 2 then s1.failChan c else s1

/-- R370: an operation exceeds its time-out: its LUN is Reset and it is reported failed; a read is reissued once; the second
time-out of a LUN without a completed operation between them marks it FAILED. -/
def State.timeOut (s : State) (o : FlashOp) : State :=
  let i := 16 * o.chan + o.lun
  let s1 := (s.inc (F.FCH_ERR_TIMEOUTS o.chan)).raise (E.FCH_TIMEOUT o.chan)
  let second := s1.bud.lunOut.contains i
  let s1 := { s1 with bud := { s1.bud with lunOut := if second then s1.bud.lunOut else s1.bud.lunOut ++ [i] } }
  let s1 := if o.kind = .read && !o.retried && !second then
      { s1 with bud := { s1.bud with ops := s1.bud.ops.map (fun (x : FlashOp) =>
          if x.id = o.id then { x with phase := .queued, retried := true, waited := 0 } else x) } }
    else s1.opFail o
  if second then s1.failLun o.chan o.lun else s1

/-- An operation exceeds its time-out. -/
def execFlashOpTimeout (op : Nat) (s : State) : Host.Outcome State Fault Refusal :=
  done (match s.op op with
    | some o => if o.phase = .running then s.timeOut o else s
    | none => s)

/-! ### Merge (R297) -/

/-- A slot with a sector mask is prepared for its program: merged from older slots, with zeros where the leaf is UNMAPPED, or once
its unit has been read. -/
def execPartialLeafMerge (seq : Nat) (s : State) : Host.Outcome State Fault Refusal :=
  done (match s.slot seq with
    | none => s
    | some x =>
      if x.mask = 0xFF || x.lst ≠ .durable || x.kind = .parity || x.kind = .relocParity || x.kind = .reloc then s
      else if s.olderFull x then s.mapSlots (fun y => y.seq = seq) (fun y => mergeSlot y (s.olderData x (List.replicate 8 0)))
      else match s.map.ts.map.find? x.key with
        | none => s.mapSlots (fun y => y.seq = seq) (fun y => mergeSlot y (s.olderData x (List.replicate 8 0)))
        | some ua =>
          if s.map.escs.any (fun e => e.fors.contains (.merge seq)) then s
          else
            let (s1, sense) := s.wantUnit (slotClass x) ua (some x.key) (.merge seq)
            if sense then s1.addRead (slotClass x) 0 .metaWork [ua] else s1)

end Sys2Proof.Machine
end

