-- ==== Sys2Proof/Machine/Budget.lean ====
section
/-!
DEFINITION. The budget arbiter (chapter 06) and the sequencers' issue (R354 to R359): windows, balances, picks, thermal states, the
grant, and the issue of an operation to its LUN, with the flash injectors (Table 20-4).
-/

namespace Sys2Proof.Machine

/-! ### Windows (R172 to R180, R183, R188, R190, R192) -/

/-- R175: P in 1/16 unit. -/
def State.refill (s : State) : Nat :=
  let cap := match s.get F.BUDGET_STATUS_TSTATE with
    | 1 => s.get F.BUDGET_THERM_CAP_CAP_T1_MW
    | 2 => s.get F.BUDGET_THERM_CAP_CAP_T2_MW
    | 3 => s.get F.BUDGET_THERM_CAP_CAP_T3_MW
    | _ => s.get F.BUDGET_GRANT_GRANT_MW
  let pmw := min (s.get F.BUDGET_GRANT_GRANT_MW) cap - s.get F.BUDGET_BASE_BASE_MW
  max (16 * s.get F.BUDGET_POOL_POOL_MIN_UJ) (16 * pmw / 100)

/-- The floor of a class in the current mode, in 1/128 of P. While a Sanitize erases, class 6 has the whole pool (R537). -/
def State.classFloor (s : State) (k : Nat) : Nat :=
  if s.nv.sanit = 2 then (if k = 6 then 128 else 0) else s.getPart (F.BUDGET_FLOOR_M_FLOOR s.mode) k 8

/-- The classes whose ceilings a ledger state lowers (R180) and those that a rung lowers (Table 06-4). -/
def lowered (ledger thermal k : Nat) : Bool :=
  (1 ≤ ledger && [3, 4, 6, 7].contains k) ||
    (match thermal with
      | 1 => k = 6 || k = 7
      | 2 => k = 3 || k = 4 || k = 6 || k = 7
      | 3 => 2 ≤ k
      | _ => false)

/-- The ceiling of a class for the window, in 1/128 of P; a rung never lowers it below its floor. -/
def State.classCeil (s : State) (k : Nat) : Nat :=
  let f := s.classFloor k
  let c := if s.nv.sanit = 2 then (if k = 6 then 128 else 0) else s.getPart (F.BUDGET_CEIL_M_CEIL s.mode) k 8
  if lowered (s.get F.BUDGET_STATUS_LSTATE) (s.get F.BUDGET_STATUS_TSTATE) k then min c f else c

/-- R180: the ledger state at the headroom. -/
def State.ledgerState (s : State) : Nat :=
  if s.headroom < 0 then 2 else if s.headroom < 256 * (s.get F.BUDGET_LEDGER_LO_LO_UJ : Int) then 1 else 0

/-- R182: a new thermal state takes effect. -/
def State.applyThermal (s : State) : State :=
  match s.bud.tNext with
  | some t =>
    let s1 : State := { s with bud := { s.bud with tNext := none } }
    if s.get F.BUDGET_STATUS_TSTATE = t then s1
    else (((s1.set F.BUDGET_STATUS_TSTATE t).raise E.BUDGET_TSTATE_CHANGE).rearmEvent 0x00 0x02).vendorEvent 0x00 0x02
  | none => s

/-- R192: the classes that had a pickable operation throughout, budget left and no pick. -/
def State.floorMisses (s : State) (throughout : List Nat) : State :=
  let ks := (List.range 8).filter (fun k => throughout.contains k && decide (0 < s.bud.b.getD k 0) && s.bud.picked.getD k 0 = 0)
  ks.foldl (fun s k => (s.incPart F.BUDGET_FLOOR_MISS_COUNTS k 8).raise E.BUDGET_FLOOR_MISS) s

/-- A balance after a refill, at most the refill itself (R176). -/
def topUp (b p : Int) : Int := min (b + p) p

/-- R176: Q, the floors and the ceilings are refilled; what of Q stood above zero lapses as far as the cap takes it. -/
def State.refillAll (s : State) : State :=
  let p := s.refill
  let pq : Int := (128 * p : Nat)
  let lost : Int := max 0 (s.bud.q + pq) - max 0 (topUp s.bud.q pq)
  let fl := (List.range 8).map s.classFloor
  let ce := (List.range 8).map s.classCeil
  let s1 : State := { s with bud := { s.bud with
      q := topUp s.bud.q pq
      b := (List.range 8).map (fun k => topUp (s.bud.b.getD k 0) (fl.getD k 0 * p : Nat))
      c := (List.range 8).map (fun k => topUp (s.bud.c.getD k 0) (ce.getD k 0 * p : Nat))
      floor := fl, ceil := ce, picked := List.replicate 8 0 } }
  (s1.addSat F.BUDGET_LAPSED_SUM (lost / 128).toNat).set F.BUDGET_WINDOW_POOL_Q4 p

/-- R188: the grant at or below BASE_MW. -/
def State.noteGrant (s : State) : State :=
  let low := s.get F.BUDGET_GRANT_GRANT_MW ≤ s.get F.BUDGET_BASE_BASE_MW
  let was := s.get F.BUDGET_STATUS_GRANT_LOW = 1
  (s.set F.BUDGET_STATUS_GRANT_LOW (b2n low)).raiseIf (low && !was) E.BUDGET_GRANT_LOW

/-- R177: every operation that still waits has waited one window more. -/
def State.ageOps (s : State) : State :=
  { s with bud := { s.bud with ops := s.bud.ops.map (fun (o : FlashOp) => if o.phase = .queued then { o with waited := o.waited + 1 } else o) } }

/-! ### Picking (R177, R354, R386) -/

/-- R407: a group waits for a band and none is ERASED. -/
def State.wantsErased (s : State) : Bool :=
  s.bandsErased = 0 && s.map.groups.any (fun g => g.2.band.isNone && g.2.queue ≠ [])

/-- The operation of a class that is picked: in class 6 the erase that a group waits for (R407); an aged one before the others, higher QoS first, then the oldest. -/
def State.bestOp (s : State) (can : FlashOp → Bool) (k : Nat) : Option FlashOp :=
  let all := s.bud.ops.filter (fun o => o.phase = .queued && o.cls = k && can o)
  let erases := all.filter (fun o => o.kind = .erase)
  let mine := if k = 6 && s.wantsErased && erases ≠ [] then erases else all
  let aged := mine.filter (fun o => 4 ≤ o.waited)
  let pool := if aged = [] then mine else aged
  let q := leastOr 0 (pool.map (·.qos))
  let top := if aged = [] then pool.filter (fun o => o.qos = q) else pool
  top.find? (fun o => o.id = leastOr 0 (top.map (·.id)))

/-- R177: the class that the arbiter picks from, in the order of its three steps. -/
def State.pickClass (s : State) (has : Nat → Bool) : Option Nat :=
  let q := s.bud.q
  let b (k : Nat) : Int := s.bud.b.getD k 0
  let c (k : Nat) : Int := s.bud.c.getD k 0
  let open' (k : Nat) : Bool := s.bud.ceil.getD k 0 ≠ 0
  let r (k : Nat) : Int := ((List.range 8).map (fun j => if j ≠ k && has j then max 0 (b j) else 0)).foldl (· + ·) 0
  let first := if s.get F.BUDGET_STATUS_LSTATE = 2 then
      [0, 1, 2, 5].find? (fun k => has k && open' k && decide (0 < q) && decide (0 < c k)) else none
  let second := (List.range 8).find? (fun k => has k && open' k && decide (0 < b k) && decide (0 < q))
  let third := (List.range 8).find? (fun k => has k && open' k && decide (0 < c k) && decide (0 < q - r k))
  first.or (second.or third)

/-- The arbiter makes a pick, from the instant BUDGET sets and outside Seal (R172, R191). `pickable` names the operations whose
LUN can accept them without waiting; an operation whose LUN or channel is failed is reported at once. -/
def execArbiterPick (pickable : List Nat) (s : State) : Host.Outcome State Fault Refusal :=
  done (
    if !s.ready Fn.BUDGET || s.mode = Md.SEAL || s.mode = Md.REST || s.mode = Md.KEEP || s.led.sealing.isSome then s
    else
      let gone (o : FlashOp) : Bool := s.chanState o.chan ≠ 2 || s.getPart (F.FCH_LUN_STATE_STATE o.chan) o.lun 2 = 2
      match s.bud.ops.find? (fun o => o.phase = .queued && gone o) with
      | some o => s.opFail o
      | none =>
        let can (o : FlashOp) : Bool := pickable.contains o.id && s.creditFree o
        match s.pickClass (fun k => (s.bestOp can k).isSome) with
        | none => s
        | some k =>
          match s.bestOp can k with
          | none => s
          | some o =>
            let s1 := (s.pay k o.chan o.cost).mapOp o.id (fun o => { o with phase := .picked })
            { s1 with bud := { s1.bud with picked := s1.bud.picked.set k (s1.bud.picked.getD k 0 + 1) } })

/-! ### Issue (R354 to R359, Table 20-4) -/

/-- Kinds of operations in FI.CFG.OPS: bit 0 read, bit 1 program, bit 2 erase. -/
def opBit : OpKind → Nat
  | .read => 0
  | .erase => 2
  | _ => 1

/-- The flash injector that an operation qualifies for. -/
def State.flashInjector (s : State) (o : FlashOp) : Option Nat :=
  [4, 5].find? (fun i =>
    (s.get (F.FI_CFG_STATE i) = 1 || s.get (F.FI_CFG_STATE i) = 2) &&
      s.get (F.FI_CFG_TARGET i) % 64 = o.chan && (bits (s.get (F.FI_CFG_TARGET i)) 8 4 = 15 || bits (s.get (F.FI_CFG_TARGET i)) 8 4 = o.lun) &&
      bit (s.get (F.FI_CFG_OPS i)) (opBit o.kind))

/-- R358: a running operation of the LUN may be suspended for a read. -/
def State.maySuspend (s : State) (rd o : FlashOp) : Bool :=
  let c := o.chan
  bit (s.get (F.FCH_SUSP_CLASSES c)) rd.cls &&
    (if o.kind = .erase then s.get (F.FCH_SUSP_ERASE_EN c) = 1 && decide (o.susp < s.get (F.FCH_SUSP_MAX_ERASE c))
     else o.kind ≠ .read && s.get (F.FCH_SUSP_PROG_EN c) = 1 && decide (o.susp < s.get (F.FCH_SUSP_MAX_PROG c))) &&
    decide (o.started + 250 * s.get (F.FCH_SUSP_MIN_RUN_US c) ≤ s.tb)

/-- R355: whether an operation may join what stands at its LUN: nothing, or one cached operation before it for the page before. -/
def State.lunAccepts (s : State) (o : FlashOp) : Bool :=
  match s.atLun o.chan o.lun with
  | [] => true
  | [x] => (x.phase = .running && x.kind = o.kind && o.kind ≠ .erase && x.block = o.block && o.page = x.page + 1) ||
      (o.kind = .read && (x.phase = .suspended || s.maySuspend o x))
  | xs => o.kind = .read && xs.all (fun x => x.phase = .suspended || x.kind = .read) &&
      (xs.filter (fun x => x.phase = .running)).length < 2

/-- R358: the operations that a read suspends. -/
def State.suspendFor (s : State) (rd : FlashOp) : State :=
  let hit := s.bud.ops.filter (fun o => o.chan = rd.chan && o.lun = rd.lun && o.phase = .running && o.kind ≠ .read)
  if rd.kind ≠ .read || hit = [] then s
  else
    let s1 := s.addSat (F.FCH_ERR_SUSPENDS rd.chan) hit.length
    { s1 with bud := { s1.bud with ops := s1.bud.ops.map (fun (o : FlashOp) =>
        if hit.any (fun h => h.id = o.id) then { o with phase := .suspended, susp := o.susp + 1 } else o) } }

/-- The slots of an operation's pages, and whether every one is whole (R297). -/
def State.opReady (s : State) (o : FlashOp) : Bool :=
  o.items.all (fun i => match s.pageAt (i / 64) (i % 64) with
    | some p => (p.seqs.filterMap id).all (fun q => (s.slot q).all (fun x => x.mask = 0xFF))
    | none => true)

/-- R356: an earlier page of the band on this channel has not been sent. -/
def State.earlierUnsent (s : State) (o : FlashOp) : Bool :=
  match o.items.head? with
  | none => false
  | some i =>
    let band := s.bandOf (i / 64)
    s.map.pages.any (fun p => s.bandOf p.stripe = band && (p.phase = .filling || p.phase = .ready) &&
      (s.place band p.pos).1 = o.chan && decide (p.stripe < i / 64))

/-- A page of slots is issued: its slots are programming, and its data joins the running parity of its stripe. -/
def State.issuePage (s : State) (stripe pos : Nat) : State :=
  match s.pageAt stripe pos with
  | none => s
  | some p =>
    let s1 := s.putPage { p with phase := .issued }
    let s1 := if stripe % s.bandStripes = 0 && (s.nv.bandCal.find? (s.bandOf stripe)).isNone then
        { s1 with nv := { s1.nv with bandCal := s1.nv.bandCal.put (s.bandOf stripe) (s.get F.TIME_CAL) } } else s1
    if pos = stripe % 64 then
      s1.mapSlots (fun x => (x.kind = .parity || x.kind = .relocParity) && x.key = stripe) (fun x => { x with lst := .programming })
    else
      let parity := (s1.paritySlotsOf stripe).map (·.seq)
      let s2 := (List.range 4).foldl (fun s q => match (p.seqs.getD q none).bind s.slot with
        | none => s
        | some x => s.mapSlots (fun y => some y.seq = parity[q]?) (fun y => { y with data := xorData y.data x.data })) s1
      (s2.mapSlots (fun x => p.seqs.contains (some x.seq)) (fun x => { x with lst := .programming })).parityReady stripe

/-- An operation is issued to its LUN: its tokens are spent, what it must suspend is suspended, and its pages are under way. -/
def State.issueOp (s : State) (o : FlashOp) : State :=
  let s1 := ((s.spend o.chan o.cost).suspendFor o).mapOp o.id (fun o => { o with phase := .running, started := s.tb })
  if o.kind = .prog then (o.items.foldl (fun s i => s.issuePage (i / 64) (i % 64)) s1).noteHeadroom.noteFlow else s1

/-- A sequencer issues a picked operation, where its LUN accepts it; an armed injector may drop it instead, which is reported as
its kind's failure. -/
def execSequencerIssue (op : Nat) (s : State) : Host.Outcome State Fault Refusal :=
  done (match s.op op with
    | none => s
    | some o =>
      if o.phase ≠ .picked || !s.lunAccepts o || (o.kind = .prog && (!s.opReady o || s.earlierUnsent o)) || s.chanState o.chan ≠ 2 then s
      else match s.flashInjector o with
        | none => s.issueOp o
        | some i =>
          let (d, s1) := s.fiUnit i
          if d = .drop then (if o.kind = .read then (s1.issueOp o).timeOut o else (s1.issueOp o).opFail o) else s1.issueOp o)

/-! ### Thermal states (R181, R182, R184) -/

/-- A reading in range. -/
def inRange (t : Int) : Bool := decide (-50 ≤ t) && decide (t ≤ 150)

/-- R182: THERM_IN at or beyond a threshold. -/
def State.extBeyond (s : State) (mv th : Nat) : Bool :=
  s.get F.BUDGET_THERM_EXT_EN = 1 && (if s.get F.BUDGET_THERM_EXT_POL = 0 then mv ≤ th else th ≤ mv)

/-- R182: THERM_IN lies clear of a threshold by the hysteresis. -/
def State.extClear (s : State) (mv th : Nat) : Bool :=
  s.get F.BUDGET_THERM_EXT_EN = 0 ||
    (if s.get F.BUDGET_THERM_EXT_POL = 0 then th + s.get F.BUDGET_THERM_EXT_HYST_MV ≤ mv else mv + s.get F.BUDGET_THERM_EXT_HYST_MV ≤ th)

/-- TJ and TH of a thermal state. -/
def State.thermAt (s : State) (n : Nat) : Int × Nat :=
  match n with
  | 1 => (signed 8 (s.get F.BUDGET_THERM_TJ_TJ1), s.get F.BUDGET_THERM_EXT_TH1)
  | 2 => (signed 8 (s.get F.BUDGET_THERM_TJ_TJ2), s.get F.BUDGET_THERM_EXT_TH2)
  | _ => (signed 8 (s.get F.BUDGET_THERM_TJ_TJ3), s.get F.BUDGET_THERM_EXT_TH3)

/-- R181: runs of readings out of range, and the sensors they exclude. -/
def State.noteSensors (s : State) (tj : List Int) : State :=
  let runs := (List.range 8).map (fun i => if inRange (tj.getD i 0) then 0 else s.bud.badRun.getD i 0 + 1)
  let s1 : State := { s with bud := { s.bud with badRun := runs } }
  (List.range 8).foldl (fun s i =>
    if 2 ≤ runs.getD i 0 && !bit (s.get F.BUDGET_TEMP_EXCLUDED) i then
      (s.setBitTo F.BUDGET_TEMP_EXCLUDED i true).raise E.BUDGET_SENSOR_FAULT else s) s1

/-- The hottest of the sensors that count, with its number. -/
def hottest (tj : List Int) (ok : Nat → Bool) : Option (Nat × Int) :=
  (List.range 8).foldl (fun m i => if ok i then
    match m with
    | none => some (i, tj.getD i 0)
    | some (_, t) => if t < tj.getD i 0 then some (i, tj.getD i 0) else m else m) none

/-- R182: the state that a sample asks for. -/
def State.thermalAsk (s : State) (hot : Option (Nat × Int)) (mv : Nat) : State :=
  let cur := s.bud.tNext.getD (s.get F.BUDGET_STATUS_TSTATE)
  let all := s.get F.BUDGET_TEMP_EXCLUDED = 0xFF
  let up (n : Nat) : Bool := let (tj, th) := s.thermAt n
    hot.any (fun h => decide (tj ≤ h.2)) || s.extBeyond mv th
  let want := if all || s.bud.fatalHeld then 3 else if up 3 then 3 else if up 2 then 2 else if up 1 then 1 else 0
  if cur < want then { s with bud := { s.bud with tNext := some want, coolRun := 0 } }
  else if cur = 0 || all || s.bud.fatalHeld then { s with bud := { s.bud with coolRun := 0 } }
  else
    let (tj, th) := s.thermAt cur
    let cool := hot.all (fun h => decide (h.2 < tj - (s.get F.BUDGET_THERM_TJ_HYST_C : Int))) && s.extClear mv th
    if !cool then { s with bud := { s.bud with coolRun := 0 } }
    else if s.bud.coolRun + 1 < 10 then { s with bud := { s.bud with coolRun := s.bud.coolRun + 1 } }
    else { s with bud := { s.bud with tNext := some (cur - 1), coolRun := 0 } }

/-- R184: the first sensor at 120 °C on two consecutive samples. -/
def State.noteHot (s : State) (tj : List Int) : State :=
  let ok (i : Nat) : Bool := inRange (tj.getD i 0) && !bit (s.get F.BUDGET_TEMP_EXCLUDED) i
  let runs := (List.range 8).map (fun i => if ok i && decide (120 ≤ tj.getD i 0) then s.bud.hotRun.getD i 0 + 1 else 0)
  let s1 : State := { s with bud := { s.bud with hotRun := runs } }
  match (List.range 8).find? (fun i => 2 ≤ runs.getD i 0) with
  | some i =>
    if s1.mode = Md.QUARANTINE then s1
    else State.quarantine { s1 with bud := { s1.bud with fatalHeld := true, tNext := some 3 } } 2 i 0x16
  | none => s1

/-- A sample of the eight sensors, in °C, and of THERM_IN, in mV, once THERMAL is set. -/
def execThermalSample (tj : List Int) (extMv : Nat) (s : State) : Host.Outcome State Fault Refusal :=
  done (
    if !s.ready Fn.THERMAL then s
    else
      let held := s.bud.fatalHeld && s.mode = Md.QUARANTINE
      let s1 := State.noteSensors { s with bud := { s.bud with fatalHeld := held } } tj
      let ok (i : Nat) : Bool := inRange (tj.getD i 0) && !bit (s1.get F.BUDGET_TEMP_EXCLUDED) i
      let hot := hottest tj ok
      let s1 := match hot with
        | some (i, t) => (s1.set F.BUDGET_TEMP_SENSOR i).set F.BUDGET_TEMP_TJ_MAX (unsigned 8 t)
        | none => s1
      let s1 := if s1.get F.BUDGET_THERM_EXT_EN = 1 then s1.set F.BUDGET_TEMP_EXT_MV (min extMv 1200) else s1
      (s1.thermalAsk hot (min extMv 1200)).noteHot tj)

/-! ### The grant and clears (R185, R192, R201) -/

/-- A write of BUDGET.GRANT.GRANT_MW. -/
def execGrantWrite (who : Req) (mw : Nat) (s : State) : Host.Outcome State Fault Refusal :=
  done (s.rwAction who Pg.BUDGET 0x100 (fun s => s.set F.BUDGET_GRANT_GRANT_MW mw))

/-- BUDGET.CLR.GO. -/
def execBudgetClr (who : Req) (s : State) : Host.Outcome State Fault Refusal :=
  done (s.rwAction who Pg.BUDGET 0x168 (fun s =>
    s.clear ([F.BUDGET_EXPIRED_SUM, F.BUDGET_LAPSED_SUM, F.BUDGET_FLOOR_MISS_COUNTS] ++ (List.range 8).map F.BUDGET_CLASS_SPENT_SUM)))

end Sys2Proof.Machine
end

