-- ==== Sys2Proof/Machine/Rebuild.lean ====
section
/-!
DEFINITION. The journal, checkpoints and the rebuild at Wake (chapters 05 and 10): recovery from Seal pages, journal pages that
retire, bands that are freed, pads, segments, and the map cache.
-/

namespace Sys2Proof.Machine

/-! ### Seal pages (R160, R161) -/

/-- The Seal pages that no recovery has used. -/
def State.freshPages (s : State) : List SealPage := s.nv.sealPages.filter (fun p => !p.used)

/-- The highest SEAL_SEQ among pages, and the record's. -/
def State.foundSeq (s : State) : Option Nat :=
  (s.freshPages.map (·.sealSeq)).foldl (fun (m : Option Nat) q => match m with
    | some x => some (if seqBefore 32 x q then q else x)
    | none => some q) (s.nv.sealRec.map (·.sealSeq))

/-- A payload of a Seal page with the unit address it has there. -/
def SealPage.units (p : SealPage) : List (Nat × Nat × Slot) :=
  (p.slots.zip (List.range p.slots.length)).map (fun ((k, x), i) => (k, sealUa p.sealSeq p.pos i, x))

/-- Puts a payload among others in ascending order of admission (R161). -/
def putBySeq (x : Nat × Nat × Slot) : List (Nat × Nat × Slot) → List (Nat × Nat × Slot)
  | [] => [x]
  | y :: ys => if seqBefore 32 x.2.2.seq y.2.2.seq then x :: y :: ys else y :: putBySeq x ys

/-- R161: what recovery keeps, in ascending ADMIT_SEQ: kind 1, and frame data of kinds 3 and 4. -/
def State.sealFound (s : State) : List (Nat × Nat × Slot) :=
  let ps := s.freshPages.filter (fun p => some p.sealSeq = s.foundSeq)
  let us := (ps.map SealPage.units).flatten
  (us.filter (fun (k, _, x) => k = 1 || ((k = 3 || k = 4) && x.kind = .frame && x.mask ≠ 0))).foldl (fun l x => putBySeq x l) []

/-- Running parity among the pages (kind 2). -/
def State.sealParity (s : State) : List Slot :=
  let ps := s.freshPages.filter (fun p => some p.sealSeq = s.foundSeq)
  (((ps.map SealPage.units).flatten).filter (fun u => u.1 = 2)).map (fun u => u.2.2)

/-- The data of a payload whose sectors may be partial: older data stands where it holds none. -/
def State.sealData (s : State) (kind : Nat) (x : Slot) : List Nat :=
  if kind = 4 || x.mask = 0xFF then x.data
  else
    let old := s.flashData x.key
    (List.range 8).map (fun i => if bit x.mask i then x.data.getD i 0 else old.getD i 0)

/-- R162: recovered data stays mapped where it lies, and its segment is marked divergent (R447). A poisoned payload keeps its mark
(R395). -/
def State.applySeal (s : State) (u : Nat × Nat × Slot) : State :=
  let (kind, ua, x) := u
  let d := s.sealData kind x
  let s1 : State := { s with nv := { s.nv with units := s.nv.units.put ua (unitOf { x with data := d }) } }
  let s1 := if keyNs x.key = 0 then s1 else (s1.makeTable x.key).markSegs [x.key]
  let s1 := s1.note (.leafSet x.key ua)
  if x.poison then s1.integrity ⟨s.tb, 11, 8, (s1.uaPlace ua).1, (s1.uaPlace ua).2.1, ua, x.key, 0⟩ else s1

/-! ### Entry forms, takes and frames (R161, R274) -/

/-- R287: each extent with mapped leaves is in EXTENT form where one run holds it and the journal says so, else in LEAF_TABLE form. -/
def State.formsAfter (s : State) : State :=
  let exts := ((s.map.ts.map.filter (fun e => keyNs e.1 ≠ 0)).map (fun e => keyExtent e.1)).eraseDups
  let forms : Tbl Nat := exts.foldl (fun t x => t.put x (if s.nv.ts.forms.get x 0 = 1 && (s.inRun x).isSome then 1 else 2)) []
  { s with map := { s.map with ts := { s.map.ts with forms := forms } } }

/-- The blocks of one leaf. -/
def leafBlocks (d : List Nat) : List Nat := blocksOf (leafBytes d)

/-- What recovery has of a frame's payload: its leaves in order up to the first that is missing, and the bytes of a leaf cut short. -/
def State.recovered (s : State) (found : List (Nat × Nat × Slot)) (r : FrameRec) : Nat → Nat → List Nat
  | 0, _ => []
  | n + 1, u =>
    let key := s.recKey r u
    let left := r.blocks.headD 0 - 512 * u
    match s.map.ts.map.find? key with
    | none => []
    | some ua =>
      match s.unit ua with
      | none => []
      | some x =>
        let got := match found.find? (fun f => f.2.1 = ua) with
          | some (4, _, y) => y.mask / 8
          | _ => 512
        let k := min got left
        (leafBlocks x.data).take k ++ (if k = 512 then s.recovered found r n (u + 1) else [])

/-- R161, R274: the entry of a frame that was not durable at the trigger. -/
def State.sealFrame (s : State) (found : List (Nat × Nat × Slot)) (r : FrameRec) : State :=
  let bs := s.recovered found r (r.blocks.headD 0 / 512 + 1) 0
  if bs = [] then s
  else
    let crc := crc32c (blockBytes bs)
    let whole := r.closed && bs.length = r.blocks.headD 0
    let len := 8 * bs.length
    let decl := if Nat.land r.flags FLAG_NO_HEADER = 0 then r.decl else len
    let fl := Nat.lor (Nat.lor r.flags (FLAG_DAMAGED + FLAG_SEALED)) ((if whole then 0 else FLAG_RECOMPUTED))
    let r' := { r with
      blocks := bs, decl := decl, flags := Nat.lor fl (if len < decl then FLAG_SHORT else 0)
      crcCalc := if whole then r.crcCalc else crc, crcTrl := if r.closed then r.crcTrl else crc }
    ((s.noteEntry (s.entryOf r')).noteAppend r.stream (max (s.appendPtr r.stream) (r.leaf0 + (bs.length + 511) / 512))).inc
      F.FRAME_COUNTS_ENTRIES

/-- R161: an entry whose frame's keys stand on Seal pages gains SEALED (R273). -/
def State.sealEntries (s : State) (found : List (Nat × Nat × Slot)) : State :=
  let keys := (found.filter (fun f => f.2.2.kind = .frame)).map (fun f => f.2.2.key)
  (s.map.ts.entries.filter (fun e => !bit e.flags 2 && (s.entryKeys e).any keys.contains)).foldl
    (fun s e => s.rewriteEntry { e with flags := Nat.lor e.flags FLAG_SEALED }) s

/-- R161: takes that were open close with end reason "sealed". -/
def State.sealTakes (s : State) (tbEnd : Nat) : State :=
  s.liveTakes.foldl (fun s t => s.noteTake { t with phase := 2, reason := 2, tbClose := tbEnd, stopper := none }) s

/-! ### Stripes of the Seal record (R154, R170) -/

/-- The parity of a stripe over its data pages that have retired. -/
def State.writeParity (s : State) (st : Nat) : State :=
  let one (q : Nat) : List Nat := (List.range 63).foldl (fun a i =>
    match s.unit (unitAddr st (dataPos st i) q) with
    | some u => xorData a u.data
    | none => a) (List.replicate 8 0)
  { s with nv := { s.nv with units := (List.range 4).foldl (fun t q =>
      t.put (unitAddr st (st % 64) q) ⟨2, false, false, 0, 0, 0, 0, 0, one q⟩) s.nv.units } }

/-- R170: a stripe of the record is closed short; one whose comparison fails on one page that does not decode is rebuilt and
UNPROTECTED. -/
def State.sealStripe (s : State) (bad : List Nat) (e : Nat × Nat × Nat) : State :=
  let (st, _, retired) := e
  if bad.contains st then
    let s1 := s.integrity ⟨s.tb, 12, 8, 0xFF, 0xFF, unitAddr st 0 0, 0, 0⟩
    (s1.note (.stripe st 2 0)).queueUrgent (s.bandOf st)
  else (s.writeParity st).note (.stripe st 1 (2 ^ 64 - 1 - setBit retired (st % 64)))

/-! ### Free bands (R406, R422) -/

/-- Where F stands: bit 0 below BG_START_PCT, bit 1 below ENTER_PCT, bit 2 below EXIT_PCT, bit 3 below 0. -/
def State.spaceMark (s : State) : Nat :=
  let below (p : Nat) : Bool := decide (s.freeBands * 100 < (p * s.bandTotal : Nat))
  b2n (below (s.get F.GROOM_CFG_BG_START_PCT)) + 2 * b2n (below (s.get F.GROOM_CFG_ENTER_PCT)) +
    4 * b2n (below (s.get F.GROOM_CFG_EXIT_PCT)) + 8 * b2n (decide (s.freeBands < 0))

/-- Table 14-6: events of a changed free count, and the automatic entry to and exit from Groom. -/
def State.noteSpace (s : State) : State :=
  if !s.ready Fn.MAP_FULL || s.bandTotal = 0 then s
  else
    let old := s.map.spaceLow
    let new := s.spaceMark
    let s1 : State := { s with map := { s.map with spaceLow := new } }
    let s1 := s1.raiseIf (!bit old 0 && bit new 0) E.GROOM_SPACE_START
    let s1 := s1.raiseIf (!bit old 1 && bit new 1) E.GROOM_SPACE_LOW
    let s1 := s1.raiseIf (bit old 2 && !bit new 2) E.GROOM_SPACE_OK
    (s1.raiseIf (!bit old 3 && bit new 3) E.GROOM_RESERVE_USED).groomCheck

/-! ### Bands (R303, R404, R425) -/

/-- A band that was open is closed: nothing more is placed in it. -/
def State.closeOpenBands (s : State) : State :=
  (s.map.ts.bands.filter (fun e => e.2.state = .opened)).foldl (fun s e => s.note (.band e.1 e.2.group 1)) s

/-- Erases of a DIRTY band's block sets that are not yet asked for; those marked for retirement take a spare first (R405). -/
def State.askErase (s : State) (band : Nat) : State :=
  let x := s.map.ts.band band
  if x.state ≠ .dirty || s.bud.ops.any (fun o => o.why = .band && o.items = [band]) then s
  else
    let s1 := (List.range 64).foldl (fun s p =>
      let (c, l, b) := s.place band p
      if x.bad.contains (blockKey c l b) then s.retireBlock c l (s.logicalOf c l b) else s) s
    let keys := (List.range 64).filterMap (fun p =>
      let (c, l, b) := s1.place band p
      if s1.failedAt band p || s1.nv.retired.contains (blockKey c l b) then none else some (blockKey c l b))
    let s1 : State := { s1 with map := { s1.map with ts := { s1.map.ts with
      bands := s1.map.ts.bands.put band { x with toErase := keys, bad := [] } } } }
    let s1 := keys.foldl (fun s k => s.addOp ⟨0, 6, 0, .erase, .queued, s.opCost .erase s.planes 0, 0, k / 1048576, k / 65536 % 16,
      k % 65536, 0, [band], .band, .none, 0, 0, false⟩) s1
    if keys = [] then s1.bandErased band 0 else s1

/-- R407: while fewer bands than ERASED_TARGET are ERASED or on their way to it, grooming erases further DIRTY bands. -/
def State.eraseAhead (s : State) : State :=
  if !s.ready Fn.GROOM then s
  else
    let asked (b : Nat) : Bool := s.bud.ops.any (fun o => o.why = .band && o.items = [b])
    let ds := (s.map.ts.bands.filter (fun e => e.2.state = .dirty)).map (·.1)
    let want := s.get F.GROOM_CFG_ERASED_TARGET - (s.bandsErased + (ds.filter asked).length)
    ((ds.filter (fun b => !asked b)).take want).foldl State.askErase s

/-- A unit of a band is still named by the map, by the map as it stands in flash, or on its way to another place. -/
def State.bandHeld (s : State) (b : Nat) : Bool :=
  s.validCount b ≠ 0 || s.nv.ts.map.any (fun e => s.bandOf (uaStripe e.2) = b) ||
    s.map.relocRead.any (fun ua => s.bandOf (uaStripe ua) = b)

/-- A unit of a used Seal block of a channel is still named. -/
def State.sealHeld (s : State) (k : Nat) : Bool :=
  let inBlk (ua : Nat) : Bool := isSealUa ua && (s.sealPageOf ua).any (fun p => p.blks.contains k)
  s.map.ts.map.any (fun e => inBlk e.2) || s.nv.ts.map.any (fun e => inBlk e.2) || s.map.relocRead.any inBlk

/-- R162, R411: used Seal blocks without a valid unit are erased in class 6. -/
def State.freeSeals (s : State) : State :=
  let ks := (((s.nv.sealPages.filter (·.used)).map (·.blks)).flatten).eraseDups
  (ks.filter (fun k => !s.sealHeld k && !s.bud.ops.any (fun o => o.why = .sealBlock && blockKey o.chan o.lun o.block = k))).foldl
    (fun s k => s.addOp ⟨0, 6, 0, .erase, .queued, s.opCost .erase s.planes 0, 0, k / 1048576, k / 65536 % 16, k % 65536, 0, [],
      .sealBlock, .none, 0, 0, false⟩) s

/-- R405: bands without a valid unit leave CLOSED or VICTIM for DIRTY. -/
def State.freeBandsNow (s : State) : State :=
  if !s.ready Fn.GROOM || s.map.waiting ≠ [] then s
  else
    let s := s.freeSeals
    let due := (s.map.ts.bands.filter (fun e => (e.2.state = .closed || e.2.state = .victim) && !s.bandHeld e.1)).map (·.1)
    due.foldl (fun s b =>
      let s1 := s.note (.band b (s.map.ts.band b).group 2)
      { s1 with map := { s1.map with
        victims := s1.map.victims.filter (fun v => v.1 ≠ b)
        urgent := s1.map.urgent.filter (· ≠ b), refresh := s1.map.refresh.filter (· ≠ b) } }) s |>.eraseAhead.noteSpace

/-! ### Recovery (R160 to R163, R169, R303) -/

/-- R290: stream configurations of the journal take force. -/
def State.loadStreams (s : State) : State :=
  s.map.ts.streams.foldl (fun s (st, c) =>
    let put (s : State) (f : Field) (v : Nat) : State := (s.set f v).setP f v
    put (put (put (put (put s (F.MAP_STREAM_CFG_NSID st) c.nsid) (F.MAP_STREAM_CFG_MODE st) c.mode) (F.MAP_STREAM_CFG_PG st) c.pg)
      (F.MAP_STREAM_REGION_BASE_EXT st) c.base) (F.MAP_STREAM_REGION_LEN_EXT st) c.len) s

/-- R163: what was found is reported, and recovery is over. -/
def State.sealFoundRegs (s : State) (seq : Option Nat) (n : Nat) : State :=
  let s1 := match s.nv.sealRec, seq with
    | some r, some q => ((s.set F.LEDGER_LAST_SEAL_SEAL_SEQ q).set F.LEDGER_LAST_SEAL_DURATION_US
        (if r.sealSeq = q then min r.duration 65535 else 0)).set F.LEDGER_LAST_SEAL_FOUND (b2n (decide (r.sealSeq = q)))
    | none, some q => s.set F.LEDGER_LAST_SEAL_SEAL_SEQ q
    | _, none => s
  let s1 := s1.set F.LEDGER_LAST_SEAL_SLOTS n
  if n ≠ 0 || s.nv.sealRec.any (fun r => r.cause < 5 || 7 < r.cause) then s1.setBitTo F.SYS_RESET_CAUSE_CAUSE 5 true else s1

/-- R303 phase 1: the root, the journal and the Seal pages give the translation state; `bad` names the stripes of the record whose
comparison fails. R169: with the flag RUNNING and no record, acknowledged data may be lost. -/
def State.replay (s : State) (bad : List Nat) : State :=
  let seq := s.foundSeq
  let found := s.sealFound
  let rec? := s.nv.sealRec.filter (fun r => some r.sealSeq = seq)
  let slots := ((s.freshPages.filter (fun p => some p.sealSeq = seq)).map (fun p => p.slots.length))
  let s1 : State := { s with map := { s.map with ts := s.nv.ts, replayed := true } }
  let s1 := s1.loadStreams.formsAfter
  let s1 := found.foldl State.applySeal s1
  let s1 := (s1.sealEntries found)
  let s1 := (rec?.map (·.frames)).getD [] |>.foldl (fun s r => s.sealFrame found r) s1
  let s1 := s1.sealTakes ((rec?.map (·.tbEntry)).getD 0)
  let s1 := (rec?.map (·.stripes)).getD [] |>.foldl (fun s e => s.sealStripe bad e) s1
  let s1 := s1.closeOpenBands
  let s1 := s1.sealFoundRegs seq (total slots)
  let lost := s.get F.LEDGER_SEAL_FLAG_FLAG = 3 && rec?.isNone
  (State.set { s1 with nv := { s1.nv with
      sealPages := s1.nv.sealPages.map (fun p => { p with used := true })
      sealRec := none
      sealSeq := seq.getD s1.nv.sealSeq
      smartRel := s1.nv.smartRel || lost } } F.MAP_STATUS_PHASE 1)

/-- Phase 1 of the rebuild ends its work; JOURNAL may set. -/
def execJournalReplay (bad : List Nat) (s : State) : Host.Outcome State Fault Refusal :=
  done (if s.mode = Md.WAKE && s.needsOk Fn.JOURNAL && !s.map.replayed && s.led.sealing.isNone then s.replay bad else s)

/-! ### The journal and checkpoints (R301, R302) -/

/-- What follows a journal page that has retired: appends that waited, bands, and a checkpoint that is due. -/
def State.afterPage (s : State) : State :=
  let s1 := State.drainWaiting s.map.waiting.length s
  let s1 := s1.journaled.freeBandsNow.pump
  if s.get F.MAP_CFG_CKPT_MIB * 1048576 ≤ s1.map.since then s1.startCkpt else s1

/-- The oldest journal page of the tail retires in flash. -/
def execJournalPageRetire (s : State) : Host.Outcome State Fault Refusal :=
  done (if s.ready Fn.JOURNAL && s.led.sealing.isNone && s.map.tail ≠ [] then s.retirePage.afterPage else s)

/-- MAP.CKPT.GO. -/
def execMapCkptGo (who : Req) (s : State) : Host.Outcome State Fault Refusal :=
  done (s.rwAction who Pg.MAP 0x140 (fun s => if s.ready Fn.JOURNAL then s.startCkpt else s))

/-- A root copy of the checkpoint retires. -/
def execCheckpointComplete (s : State) : Host.Outcome State Fault Refusal :=
  done (if s.map.ckptAt.isSome && s.led.sealing.isNone then s.endCkpt.freeBandsNow else s)

/-! ### Pads (R310) -/

/-- A page that holds data takes filler in its other quarters and is issued. -/
def State.padPage (s : State) (band off : Nat) : State :=
  let (st, pos) := s.orderPage band off
  match s.pageAt st pos with
  | some p =>
    if p.phase = .filling then ((s.putPage { p with phase := .ready }).programRow true st pos).inc F.MAP_COUNTS_PADS
    else if p.phase = .ready then s.programRow true st pos else s
  | none => s

/-- The pages of a group's runs that have data and are not full are padded, and their runs close. -/
def State.padGroup (s : State) (g : Nat) : State :=
  match (s.group g).band with
  | none => s
  | some band =>
    (s.group g).runs.foldl (fun s r =>
      if r.stream = 256 then
        let x := s.group g
        (s.setGroup g { x with runs := x.runs.filter (· ≠ r) }).padPage band r.off
      else if r.count % 4 = 0 then s
      else (s.padPage band (r.off + r.count / 4)).closeRun g r) s

/-- PAD_US has passed since data of a group's unfilled page became durable. Pages that are ready but wait for the other planes of
their row are issued with it, since their slots wait as long. -/
def execPadTimeout (group : Nat) (s : State) : Host.Outcome State Fault Refusal :=
  done (if (s.map.groups.find? group).isNone || s.led.sealing.isSome then s
    else
      let s1 := s.padGroup group
      let mine := s1.map.pages.filter (fun p => p.phase = .ready && (s1.map.ts.band (s1.bandOf p.stripe)).group = group &&
        p.seqs.any Option.isSome)
      (mine.foldl (fun s p => s.programRow true p.stripe p.pos) s1).pump)

/-! ### Segments (R303, R315) -/

/-- The leaves of a command that waited for a segment are looked up. -/
def State.lookAgain (s : State) (id : Cid) (cls seg : Nat) : List RdLeaf → State × List RdLeaf
  | [] => (s, [])
  | r :: rest =>
    if r.seg = some seg then
      let (s1, r1) := s.lookLeaf cls 0 id r.key r.mask
      let (s2, rs) := s1.lookAgain id cls seg rest
      (s2, r1 :: rs)
    else
      let (s2, rs) := s.lookAgain id cls seg rest
      (s2, r :: rs)

/-- A command's reads go on. -/
def State.resumeReads (s : State) (seg : Nat) (r : CmdRead) : State :=
  if r.leaves.any (fun l => l.seg = some seg) then
    let (s1, ls) := s.lookAgain r.id r.cls seg r.leaves
    State.serveRead { s1 with map := { s1.map with reads := s1.map.reads.map (fun x => if x.id = r.id then { x with leaves := ls } else x) } } r.id
  else s

/-- Segments that leaves wait for and that are not being loaded are asked for, in order. -/
def State.askNextSegs (s : State) : State :=
  (((s.map.reads.map (fun r => r.leaves.filterMap (·.seg))).flatten).eraseDups).foldl State.askSeg s

/-- A map segment becomes resident, with its delta applied. -/
def execSegmentLoaded (seg : Nat) (s : State) : Host.Outcome State Fault Refusal :=
  done (if !s.ready Fn.JOURNAL || s.ready Fn.MAP_FULL || !s.map.ts.segments.contains seg || s.map.resident.contains seg then s
    else
      let s1 : State := { s with map := { s.map with resident := s.map.resident ++ [seg], loads := s.map.loads.filter (· ≠ seg) } }
      (s1.map.reads.foldl (fun s r => s.resumeReads seg r) s1).askNextSegs)

/-! ### Clears and the map cache (R307, R309, R319) -/

/-- MAP.CLR.GO. -/
def execMapClr (who : Req) (s : State) : Host.Outcome State Fault Refusal :=
  done (s.rwAction who Pg.MAP 0x168 (fun s => s.clear [F.MAP_COUNTS_CONVERSIONS, F.MAP_COUNTS_PADS]))

/-- The clean of the ways switched off completes; a raise latched meanwhile is then performed. -/
def execWaysChanged (s : State) : Host.Outcome State Fault Refusal :=
  done (match s.map.waysWait with
    | none => s
    | some n =>
      let s1 := (State.set { s with map := { s.map with waysWait := none } } F.MCACHE_STATUS_WAYS_ON n).raise E.MCACHE_WAYS_CHANGED
      if s1.get F.MCACHE_STATUS_REENABLE_PENDING = 1 then
        (s1.set F.MCACHE_STATUS_REENABLE_PENDING 0).set F.MCACHE_STATUS_WAYS_ON (s1.get F.MCACHE_CFG_WAYS)
      else s1)

/-- MCACHE.CLR.GO. -/
def execMcacheClr (who : Req) (s : State) : Host.Outcome State Fault Refusal :=
  done (s.rwAction who Pg.MCACHE 0x130 (fun s =>
    s.clear [F.MCACHE_HITS_COUNT, F.MCACHE_MISSES_COUNT, F.MCACHE_VHITS_COUNT, F.MCACHE_WRITEBACKS_COUNT, F.MCACHE_FILL_WAIT_CYCLES]))

end Sys2Proof.Machine
end

