-- ==== Sys2Proof/Machine/FlashCmds.lean ====
section
/-!
DEFINITION. Flash channels as they are found, calibrated and taken out of use (chapter 12, R350 to R353, R363, R365 to R367, R373).
-/

namespace Sys2Proof.Machine

/-! ### Discovery (R351 to R353, Table 12-3) -/

/-- FCH.GEOM.PLANES of a number of planes. -/
def planesCode (n : Nat) : Nat := if n = 4 then 2 else if n = 2 then 1 else 0

/-- What discovery found on a channel. -/
def State.found? (s : State) (c : Nat) : Option ChanFound := s.map.disc.find? (fun r => r.chan = c)

/-- R352: the reference geometry: the first LUN found on the lowest-numbered populated channel. -/
def State.reference (s : State) : Option LunFound :=
  ((List.range 64).findSome? s.found?).bind (fun _ =>
    (List.range 64).findSome? (fun c => (s.found? c).bind (fun r => r.luns.head?)))

/-- R352: whether a LUN is usable. -/
def lunUsable (ref l : LunFound) : Bool :=
  !l.beyond && l.crcOk && l.dataB = 16384 && decide (2048 ≤ l.spare) && [1, 2, 4].contains l.planes && l.index < 16 &&
    l.spare = ref.spare && l.planes = ref.planes && l.pages = ref.pages && l.blocks = ref.blocks && l.cell = ref.cell

/-- The usable LUNs of a channel, as indices in ascending order. -/
def State.usable (s : State) (c : Nat) : List Nat :=
  match s.found? c, s.reference with
  | some r, some ref => (List.range 16).filter (fun i => r.luns.any (fun l => l.index = i && lunUsable ref l))
  | _, _ => []

/-- A channel is populated: some LUN answered Read ID. -/
def State.populated (s : State) (c : Nat) : Bool := (s.found? c).any (fun r => r.luns ≠ [])

/-- A channel failed: it was marked, its training failed, or it has no usable LUN. -/
def State.chanBad (s : State) (c : Nat) : Bool :=
  s.nv.chanFailed.contains c || (s.found? c).any (fun r => !r.trained) || s.usable c = []

/-- R353: the channels to be in use: every channel of the usable quadrants, an odd third quadrant left out. -/
def State.useSet (s : State) : List Nat :=
  let qs := (List.range 4).filter (fun q => s.quadPowered q && s.railValid (11 + q) && (List.range 16).all (fun i => s.populated (16 * q + i)))
  let qs := if qs.length = 3 then qs.take 2 else qs
  (qs.map (fun q => (List.range 16).map (fun i => 16 * q + i))).flatten

/-- R353: L. -/
def State.useLuns (s : State) (chs : List Nat) : Nat :=
  match (chs.filter (fun c => !s.chanBad c)).map (fun c => (s.usable c).length) with
  | [] => 0
  | a :: l => l.foldl min a

/-- R350: the interface of a channel, by its bank's level: NV-DDR3 at 1.2 V, NV-LPDDR4 at 0.6 V. -/
def State.flashIface (s : State) (c : Nat) : Nat :=
  let lv := match c / 16 with
    | 0 => s.get F.PWR_RAIL_STATUS_FLA_LEVEL
    | 1 => s.get F.PWR_RAIL_STATUS_FLB_LEVEL
    | 2 => s.get F.PWR_RAIL_STATUS_FLC_LEVEL
    | _ => s.get F.PWR_RAIL_STATUS_FLD_LEVEL
  if lv = 2 then 1 else if lv = 1 then 2 else 0

/-- R352, R353: the geometry registers of a populated channel, and the states of its LUNs. -/
def State.writeGeom (s : State) (c luns : Nat) (inUse : Bool) : State :=
  match s.found? c, s.reference with
  | some r, some ref =>
    let us := s.usable c
    let st (i : Nat) : Nat := if !r.luns.any (fun l => l.index = i) then 0
      else if us.contains i && (!inUse || decide (us.idxOf i < luns)) then 1 else 3
    let s1 := (((s.set (F.FCH_GEOM_PAGES_PER_BLOCK c) ref.pages).set (F.FCH_GEOM_BLOCKS_PER_PLANE c) ref.blocks).set
      (F.FCH_GEOM_SPARE_BYTES c) ref.spare).set (F.FCH_GEOM_CELL c) ref.cell
    let s1 := ((s1.set (F.FCH_GEOM_PLANES c) (planesCode ref.planes)).set (F.FCH_GEOM_SLC_OK c) (b2n (r.luns.all (·.slc)))).set
      (F.FCH_STATUS_IFACE c) (s.flashIface c)
    let s1 := (s1.set (F.FCH_STATUS_RATE c) r.rate).set (F.FCH_STATUS_LUNS c) (if inUse && !s.chanBad c then luns else 0)
    let s1 := (List.range 16).foldl (fun s i => s.setPart (F.FCH_LUN_STATE_STATE c) i 2 (st i)) s1
    s1.raiseIf ((List.range 16).any (fun i => st i = 3)) (E.FCH_LUN_EXCLUDED c)
  | _, _ => s

/-- The Seal blocks that a channel keeps: those it has, unless a Seal has used them, else fresh spares (R162, R365). -/
def State.nameSeals (s : State) (c luns : Nat) : State :=
  let l1 := if 2 ≤ luns then 1 else 0
  let lun (i : Nat) : Nat := (s.lunsOn c).getD i 0
  let used (l b : Nat) : Bool := s.nv.sealPages.any (fun p => p.blks.contains (blockKey c l b))
  let put (s : State) (a b e d : Nat) : State :=
    let s1 : State := { s with nv := { s.nv with sealBlk := s.nv.sealBlk.put c (a, b, e, d) } }
    (((s1.set (F.FCH_SEAL_LUN0 c) a).set (F.FCH_SEAL_BLOCK0 c) b).set (F.FCH_SEAL_LUN1 c) e).set (F.FCH_SEAL_BLOCK1 c) d
  let keep := match s.nv.sealBlk.find? c with
    | some (a, b, e, d) => if used a b || used e d then none else some (a, b, e, d)
    | none => none
  match keep with
  | some (a, b, e, d) => put s a b e d
  | none =>
    let b0 := (s.freeSpare c (lun 0)).getD 0
    let s1 := put s (lun 0) b0 (lun 0) b0
    put s1 (lun 0) b0 (lun l1) ((s1.freeSpare c (lun l1)).getD 0)

/-- R365: a Seal block that does not read as erased is erased in class 5. -/
def State.checkSeal (s : State) (c : Nat) (r : ChanFound) : State :=
  let one (s : State) (ok : Bool) (l b : Nat) : State :=
    if ok then s else s.addOp ⟨0, 5, 0, .erase, .queued, s.opCost .erase s.planes 0, 0, c, l, b, 0, [], .sealBlock, .none, 0, 0, false⟩
  let s1 := (s.set (F.FCH_SEAL_ERASED0 c) (b2n r.erased0)).set (F.FCH_SEAL_ERASED1 c) (b2n r.erased1)
  one (one s1 r.erased0 (s.get (F.FCH_SEAL_LUN0 c)) (s.get (F.FCH_SEAL_BLOCK0 c))) r.erased1
    (s.get (F.FCH_SEAL_LUN1 c)) (s.get (F.FCH_SEAL_BLOCK1 c))

/-- A channel's discovery ends (step 8): READY, ABSENT, FAILED or UNUSED. -/
def State.endChan (s : State) (use : List Nat) (luns c : Nat) : State :=
  match s.found? c with
  | none => s
  | some r =>
    if r.luns = [] then (s.set (F.FCH_STATUS_STATE c) 0).raise (E.FCH_DISCOVERED c)
    else
      let inUse := use.contains c
      let s1 := s.writeGeom c luns inUse
      let partQuad := !(List.range 16).all (fun i => s.populated (16 * (c / 16) + i))
      let s1 := s1.raiseIf partQuad (E.FCH_LUN_EXCLUDED c)
      let v := if s.chanBad c then 3 else if inUse then 2 else 4
      let s1 := (s1.set (F.FCH_STATUS_STATE c) v).raise (E.FCH_DISCOVERED c)
      let s1 := if v = 3 then { (s1.raise (E.FCH_CHAN_FAIL c)) with nv := { s1.nv with chanFailed := (s1.nv.chanFailed ++ [c]).eraseDups } } else s1
      if v = 2 then (((s1.nameSeals c luns).checkSeal c r).noteSpares c) else s1

/-- R377: the highest tier that spare bytes permit. -/
def maxTier (spare : Nat) : Nat := if 3056 ≤ spare then 7 else if 2736 ≤ spare then 6 else if 2480 ≤ spare then 5
  else if 2224 ≤ spare then 4 else if 1968 ≤ spare then 3 else if 1712 ≤ spare then 2 else if 1456 ≤ spare then 1 else 0

/-- R353: the FLASH functions of powered quadrants whose channels have all ended; every one faults where no channel is READY. -/
def State.flashFns (s : State) : State :=
  let ended (q : Nat) : Bool := (List.range 16).all (fun i => [0, 2, 3, 4].contains (s.chanState (16 * q + i)))
  let qs := (List.range 4).filter (fun q => s.quadPowered q && ended q)
  if s.readyChannels = [] then qs.foldl (fun s q => s.failFn (22 + q)) s
  else qs.foldl (fun s q => if s.needsOk (22 + q) then s.setReady (22 + q) else s) s

/-- Every channel of every powered quadrant has been heard: the channels in use are decided and each channel ends. A channel that is
discovered again later joins none of them. -/
def State.settleDiscovery (s : State) : State :=
  let waiting := (List.range 64).any (fun c => s.quadPowered (c / 16) && s.chanState c ≠ 0 && (s.chanState c = 1 || s.chanState c = 5) && (s.found? c).isNone)
  if waiting then s
  else
    let use := if s.map.sets then s.channels else s.useSet
    let luns := if s.map.sets then s.lunsPer else s.useLuns use
    let s1 := (s.map.disc.map (·.chan)).foldl (fun s c => s.endChan use luns c) s
    let s1 := match s1.reference with
      | some ref => if s1.map.sets then s1 else
          (s1.set F.MAP_GEOM_BAND_STRIPES (ref.planes * ref.pages)).set F.ECC_STATUS_MAX_TIER (maxTier ref.spare)
      | none => s1
    State.flashFns { s1 with map := { s1.map with disc := [], sets := true } }

/-- Discovery of a channel ends. -/
def execChannelDiscoveryDone (r : ChanFound) (s : State) : Host.Outcome State Fault Refusal :=
  done (
    let s0 := s.startDiscovery
    if 64 ≤ r.chan || s0.chanState r.chan ≠ 1 || (s0.found? r.chan).isSome then s
    else State.settleDiscovery { s0 with map := { s0.map with disc := s0.map.disc ++ [r] } })

/-! ### Calibration, failure by command, and clears -/

/-- R357, R366: a short ZQ calibration of each idle LUN of a channel, priced at one XFER in class 5. -/
def execZqCalibration (chan : Nat) (s : State) : Host.Outcome State Fault Refusal :=
  done (
    if 64 ≤ chan || s.chanState chan ≠ 2 || s.get (F.FCH_TIMEOUT_ZQ_MS chan) = 0 || !s.ready Fn.BUDGET || s.led.sealing.isSome then s
    else
      let idle := (List.range 16).filter (fun l => s.getPart (F.FCH_LUN_STATE_STATE chan) l 2 = 1 && s.atLun chan l = [])
      idle.foldl (fun s _ =>
        let cost := s.get F.BUDGET_COST_B_XFER
        (s.pay 5 chan cost).spend chan cost) s)

/-- FCH.CTL.FAIL of a channel: in Service or at D2 only (R373); elsewhere the write is ignored and logged as denied. -/
def execFchCtlFail (who : Req) (chan : Nat) (s : State) : Host.Outcome State Fault Refusal :=
  done (if 64 ≤ chan then s else
    s.regAction who (0x20 + chan) 0x010 (fun s =>
      if s.mode ≠ Md.SERVICE && s.dbgLevel ≠ 2 then
        (s.raise E.SYS_ACCESS_DENY).logAccess 2 true who (regAddr (0x20 + chan) 0x010)
      else
        let s1 := s.set (F.FCH_CTL_FAIL chan) 1
        if s1.chanState chan = 2 then s1.failChan chan else s1))

/-- FCH.CLR.GO of a channel. -/
def execFchClr (who : Req) (chan : Nat) (s : State) : Host.Outcome State Fault Refusal :=
  done (if 64 ≤ chan then s else
    s.rwAction who (0x20 + chan) 0x190 (fun s =>
      s.clear [F.FCH_READS_COUNT chan, F.FCH_PROGS_COUNT chan, F.FCH_ERASES_COUNT chan, F.FCH_ERR_TIMEOUTS chan, F.FCH_ERR_PROG_FAIL chan,
        F.FCH_ERR_ERASE_FAIL chan, F.FCH_ERR_SUSPENDS chan, F.FCH_LAT_MAX_ERASE_US chan, F.FCH_LAT_MAX_PROG_US chan]))

end Sys2Proof.Machine
end

