-- ==== Sys2Proof/Machine/Ecc.lean ====
section
/-!
DEFINITION. The tracker's refresh, the scrubber and the SRAM patrol (chapter 13, R384, R389 to R391, R394).
-/

namespace Sys2Proof.Machine

/-! ### The tracker (R384) -/

/-- Two senses of a page of a LUN are charged to class 7. -/
def State.chargeTrack (s : State) (c : Nat) : State :=
  let cost := 2 * s.opCost .read 1 1
  (((s.pay 7 c cost).spend c cost).addSat (F.FCH_READS_COUNT c) 2).addSat F.ECC_CW_COUNT 2

/-- A LUN whose page decodes no worse at index 0 returns to it. -/
def State.refreshTrack (s : State) (r : TrackRes) : State :=
  if 64 ≤ r.chan || 16 ≤ r.lun || s.track r.chan r.lun = 0 || s.chanState r.chan ≠ 2 ||
      s.getPart (F.FCH_LUN_STATE_STATE r.chan) r.lun 2 ≠ 1 then s
  else
    let s1 := s.chargeTrack r.chan
    if r.ok && r.bits0 ≤ r.bits then (s1.setTrack r.chan r.lun 0).inc F.SCRUB_ACTIONS_TRACK_RESETS else s1

/-- TRACK_REFRESH_S has passed: what the reads of each LUN with an index other than 0 find. -/
def execTrackerRefresh (rs : List TrackRes) (s : State) : Host.Outcome State Fault Refusal :=
  done (if s.ready Fn.SCRUB && s.get F.SCRUB_CFG_TRACK_REFRESH_S ≠ 0 && s.get F.SCRUB_CTL_EN = 1 && s.led.sealing.isNone then
    rs.foldl State.refreshTrack s else s)

/-! ### The scrubber (R389 to R391) -/

/-- A band's age in days by the calendar of its first page; 0 while either is not valid. -/
def State.bandDays (s : State) (b : Nat) : Nat :=
  match s.nv.bandCal.find? b with
  | some c => if bit c 63 && bit (s.get F.TIME_CAL) 63 then (bits (s.get F.TIME_CAL) 15 48 - bits c 15 48) / 86400 else 0
  | none => 0

/-- Whether band `a` is older than band `b`: by calendar, then by number. -/
def State.olderBand (s : State) (a b : Nat) : Bool :=
  let t (x : Nat) : Nat := bits (s.nv.bandCal.get x 0) 15 48
  t a < t b || (t a = t b && a < b)

/-- Puts a band among others, oldest first. -/
def State.putOldest (s : State) (b : Nat) : List Nat → List Nat
  | [] => [b]
  | x :: xs => if s.olderBand b x then b :: x :: xs else x :: s.putOldest b xs

/-- R389: the bands of a pass. -/
def State.passBands (s : State) : List Nat :=
  let bs := (s.map.ts.bands.filter (fun e => (e.2.state = .closed || e.2.state = .victim) && s.validCount e.1 ≠ 0)).map (·.1)
  bs.foldl (fun l b => s.putOldest b l) []

/-- A pass begins. -/
def State.newPass (s : State) : State :=
  let bs := s.passBands
  { s with map := { s.map with scrub := some ⟨bs, 0, s.tb, 0, bs.length * 64 * s.bandStripes, false⟩ } }

/-- The units of plane page `i` of a band, in stripe and position order. -/
def State.planePage (s : State) (band i : Nat) : List Nat :=
  ((List.range 4).map (fun q => unitAddr (band * s.bandStripes + i / 64) (i % 64) q)).filter (fun ua => (s.unit ua).isSome)

/-- R391: a band that has been read is queued for refresh if its age exceeds RETAIN_DAYS. -/
def State.bandRead (s : State) (band : Nat) : State :=
  let d := s.get F.SCRUB_CFG_RETAIN_DAYS
  if d ≠ 0 && d < s.bandDays band then (s.queueRefresh band).inc F.SCRUB_ACTIONS_RETAIN_REFRESH else s

/-- A pass ends. -/
def State.endPass (s : State) (p : Scrub) : State :=
  (((State.inc { s with map := { s.map with scrub := none } } F.SCRUB_PASSES_COUNT).set F.SCRUB_LAST_PASS_SECONDS
    ((s.tb - p.start) / 250000000)).raise E.SCRUB_PASS_DONE).set F.SCRUB_STATUS_PERMILLE 1000

/-- The scrubber's place and its progress. -/
def State.showPass (s : State) (p : Scrub) : State :=
  (s.set F.SCRUB_STATUS_BAND (p.bands.headD 0)).set F.SCRUB_STATUS_PERMILLE (if p.all = 0 then 0 else 1000 * p.done / p.all)

/-- The next plane page that was programmed; bands read whole leave the pass. -/
def State.nextPage : Nat → State → Scrub → State × Scrub × List Nat
  | 0, s, p => (s, p, [])
  | n + 1, s, p =>
    match p.bands with
    | [] => (s, p, [])
    | b :: rest =>
      if 64 * s.bandStripes ≤ p.page || s.validCount b = 0 then
        State.nextPage n (if s.validCount b = 0 then s else s.bandRead b) { p with bands := rest, page := 0 }
      else
        let us := s.planePage b p.page
        let p' := { p with page := p.page + 1, done := p.done + 1 }
        if us = [] then State.nextPage n s p' else (s, p', us)

/-- R390: the pass runs longer than PASS_H. -/
def State.noteBehind (s : State) (p : Scrub) : State × Scrub :=
  if !p.behind && s.get F.SCRUB_CFG_PASS_H * 3600 * 250000000 < s.tb - p.start then (s.raise E.SCRUB_BEHIND, { p with behind := true })
  else (s, p)

/-- The reads of one plane page. -/
def State.scrubPage (s : State) (us : List Nat) : State :=
  let (s1, need) := us.foldl (fun (x : State × List Nat) ua =>
    let (s2, sense) := x.1.wantUnit 7 ua ((x.1.unit ua).bind (fun u => if u.kind = 1 then some u.key else none)) .scrub
    (s2, if sense then x.2 ++ [ua] else x.2)) (s, [])
  (s1.addRead 7 0 .scrub need).addSat F.SCRUB_PAGES_COUNT 1

/-- The scrubber's next read falls due. -/
def execScrubRead (s : State) : Host.Outcome State Fault Refusal :=
  done (
    if !s.ready Fn.SCRUB || s.get F.SCRUB_CTL_EN = 0 || s.led.sealing.isSome || s.mode = Md.REST || s.mode = Md.SEAL then s
    else
      let s0 := if s.map.scrub.isNone then s.newPass else s
      match s0.map.scrub with
      | none => s
      | some p =>
        let (s1, p1) := s0.noteBehind p
        let (s2, p2, us) := State.nextPage (p1.bands.length * (64 * s0.bandStripes + 1) + 1) s1 p1
        if us = [] then s2.endPass p2
        else (State.showPass { s2 with map := { s2.map with scrub := some p2 } } p2).scrubPage us)

/-! ### The SRAM patrol (R394) -/

/-- The patrol of the map cache: the words corrected, uncorrectable words of clean lines, and whether a dirty line or the victim
buffer holds one, which is fatal. Array 1 of SRAM_CE and SRAM_UE is the map cache. -/
def execSramPatrol (ce clean : Nat) (dirty : Bool) (s : State) : Host.Outcome State Fault Refusal :=
  done (
    if s.isl 6 ≠ 2 || !s.ready Fn.MCACHE then s
    else
      let add (s : State) (f : Field) (n : Nat) : State := s.setPart f 1 16 (min (s.getPart f 1 16 + n) 65535)
      let s1 := add (add s F.ECC_SRAM_CE_COUNTS ce) F.ECC_SRAM_UE_COUNTS (clean + b2n dirty)
      let s1 := (List.range (min 64 (clean + b2n dirty))).foldl (fun s _ => s.integrity ⟨s.tb, 9, 8, 0xFF, 0xFF, 0, 0, 1⟩) s1
      if dirty then s1.quarantine 3 1 0x16 else s1)

/-! ### Clears -/

/-- ECC.CLR.GO. -/
def execEccClr (who : Req) (s : State) : Host.Outcome State Fault Refusal :=
  done (s.rwAction who Pg.ECC 0x228 (fun s =>
    s.clear [F.ECC_CW_COUNT, F.ECC_BITS_COUNT, F.ECC_RETRIES_COUNT, F.ECC_ESC_UNRECOVERED, F.ECC_ESC_RECON_OK, F.ECC_ESC_SOFT_OK,
      F.ECC_ESC_RETRY_OK, F.ECC_CHECK_MARK_BAD, F.ECC_CHECK_MISPLACED, F.ECC_CHECK_MISCORRECT, F.ECC_CHECK_WRITTEN_WRONG,
      F.ECC_SRAM_CE_COUNTS, F.ECC_SRAM_UE_COUNTS]))

/-- SCRUB.CLR.GO. -/
def execScrubClr (who : Req) (s : State) : Host.Outcome State Fault Refusal :=
  done (s.rwAction who Pg.SCRUB 0x138 (fun s =>
    s.clear [F.SCRUB_PAGES_COUNT, F.SCRUB_ACTIONS_RETAIN_REFRESH, F.SCRUB_ACTIONS_ERROR_REFRESH, F.SCRUB_ACTIONS_UNIT_RELOC,
      F.SCRUB_ACTIONS_TRACK_RESETS]))

end Sys2Proof.Machine
end

