-- ==== Sys2Proof/Machine/Groom.lean ====
section
/-!
DEFINITION. Grooming (chapter 14): bands that open, victims and their sources, bands closed for idleness.
-/

namespace Sys2Proof.Machine

/-! ### Bands that open (R303, R304, R380, R406, R407, R416) -/

/-- R415: a band's wear figure. -/
def State.wearOf (s : State) (b : Nat) : Nat := ((s.bandBlocks b).map s.eraseCount).foldl max 0

/-- A band of a list with the least wear, or for `high` the most; ties go to the lower number. -/
def State.byWear (s : State) (high : Bool) : List Nat → Option Nat
  | [] => none
  | b :: bs => some (bs.foldl (fun m x =>
      if (if high then decide (s.wearOf m < s.wearOf x) else decide (s.wearOf x < s.wearOf m)) || (s.wearOf x = s.wearOf m && x < m) then x else m) b)

/-- The ERASED bands. -/
def State.erasedBands (s : State) : List Nat := (List.range s.bandTotal).filter (fun b => (s.map.ts.band b).state = .erased)

/-- The BOOT_RSV bands. -/
def State.bootBands (s : State) : List Nat := (s.map.ts.bands.filter (fun e => e.2.state = .bootRsv)).map (·.1)

/-- R304: used reserve bands are replaced from the free pool before any other band is allocated. -/
def State.fillReserve : Nat → State → State
  | 0, s => s
  | n + 1, s =>
    if s.get F.MAP_CFG_RSV_BANDS ≤ s.bandsIn .bootRsv then s
    else match s.byWear false s.erasedBands with
      | none => s
      | some b => State.fillReserve n { s with map := { s.map with ts := { s.map.ts with bands := s.map.ts.bands.put b ⟨.bootRsv, 0, 0, [], []⟩ } } }

/-- R380: the tier of a block set when its band opens for a group. -/
def State.tierFor (s : State) (g key : Nat) : Nat :=
  let n := s.eraseCount key
  let ws := [F.ECC_TIER_WEAR_W1, F.ECC_TIER_WEAR_W2, F.ECC_TIER_WEAR_W3, F.ECC_TIER_WEAR_W4, F.ECC_TIER_WEAR_W5, F.ECC_TIER_WEAR_W6,
    F.ECC_TIER_WEAR_W7]
  let wear := ((List.range 7).filter (fun i => (ws[i]?).any (fun f => s.get f ≤ n))).foldl (fun m i => max m (i + 1)) 0
  let bump := s.get F.ECC_TIER_CFG_TRACK_BUMP
  max wear (s.groupTier g) + b2n (bump ≠ 0 && decide (bump ≤ s.track (key / 1048576) (key / 65536 % 16)))

/-- A band opens for a group: its block sets take their tiers and its open record is journaled. -/
def State.openBand (s : State) (g b : Nat) : State :=
  let cap := s.get F.ECC_STATUS_MAX_TIER
  let ts := (s.bandBlocks b).map (s.tierFor g)
  let s1 : State := { s with nv := { s.nv with bandTiers := s.nv.bandTiers.put b (ts.map (min cap)) } }
  let s1 := (s1.raiseIf (ts.any (cap < ·)) E.ECC_TIER_CAPPED).note (.band b g 0)
  (s1.setGroup g { s1.group g with band := some b, next := 0, runs := [] }).eraseAhead.pump.noteSpace

/-- A placement group that waits for a band opens one. -/
def execBandOpen (group : Nat) (s : State) : Host.Outcome State Fault Refusal :=
  done (
    let x := s.group group
    if 36 ≤ group || x.band.isSome || x.queue = [] || !s.ready Fn.JOURNAL || s.led.sealing.isSome then s
    else if !s.ready Fn.MAP_FULL then
      match s.byWear (group = 35) s.bootBands with
      | some b => s.openBand group b
      | none => s.raise E.MAP_RESERVE_OUT
    else
      let s1 := s.fillReserve 32
      let s1 := s1.eraseAhead
      let ok := if 32 ≤ group then s1.bandsErased + s1.bandsIn .dirty ≠ 0 else decide (1 ≤ s1.freeBands)
      if !ok then s1.raiseIf (group < 32) E.GROOM_NO_SPACE
      else match s1.byWear (group = 35) s1.erasedBands with
        | some b => s1.openBand group b
        | none => s1)

/-! ### Victims (R410 to R412, R415) -/

/-- The valid units of a band in data order. -/
def State.validUnits (s : State) (b : Nat) : List Nat :=
  let us := (s.map.ts.map.filter (fun e => s.bandOf (uaStripe e.2) = b)).map (·.2)
  us.foldl (fun l u => putAsc u l) []
where
  /-- Puts a number among others, ascending. -/
  putAsc (u : Nat) : List Nat → List Nat
    | [] => [u]
    | x :: xs => if u < x then u :: x :: xs else x :: putAsc u xs

/-- R410: bands queued ahead of all others, and those with a stripe UNPROTECTED, that are CLOSED. -/
def State.urgentBands (s : State) : List Nat :=
  ((s.map.urgent ++ (s.map.ts.marks.filter (fun m => m.2 = 2)).map (fun m => s.bandOf m.1)).eraseDups).filter
    (fun b => (s.map.ts.band b).state = .closed && s.validCount b ≠ 0)

/-- R411: the greedy choice. -/
def State.greedy (s : State) : Option Nat :=
  let cs := (s.map.ts.bands.filter (fun e => e.2.state = .closed && s.validCount e.1 ≠ 0))
  match cs with
  | [] => none
  | c :: rest => some (rest.foldl (fun m x =>
      let a := s.validCount x.1
      let b := s.validCount m.1
      if a < b || (a = b && x.2.closed < m.2.closed) then x else m) c).1

/-- Every LUN in use, as 16 × channel + LUN. -/
def State.allLuns (s : State) : List Nat := (s.channels.map (fun c => (s.lunsOn c).map (fun l => 16 * c + l))).flatten

/-- A block set that stands for a logical one. -/
def State.setInUse (s : State) (block : Nat) : Bool :=
  let log := s.blockSets - spareSets s.blockSets
  s.allLuns.contains (block / 65536) &&
    ((decide (block % 65536 < log) && (s.nv.remap.find? block).isNone) ||
      s.nv.remap.any (fun e => e.1 / 65536 = block / 65536 && e.2 = block % 65536))

/-- R415: the lowest-worn CLOSED band older than AGE_H, where the spread calls for it. -/
def State.wearVictim (s : State) : Option Nat :=
  let hours (b : Nat) : Nat := match s.nv.bandCal.find? b with
    | some c => if bit c 63 && bit (s.get F.TIME_CAL) 63 then (bits (s.get F.TIME_CAL) 15 48 - bits c 15 48) / 3600 else 0
    | none => 0
  let cs := (s.map.ts.bands.filter (fun e => e.2.state = .closed && s.get F.GROOM_WL_AGE_H < hours e.1)).map (·.1)
  match s.byWear false cs with
  | some b =>
    let top := ((s.map.ts.erases.filter (fun e => s.setInUse e.1)).map (·.2)).foldl max 0
    if s.get F.GROOM_WL_SPREAD ≤ top - s.wearOf b && s.validCount b ≠ 0 then some b else none
  | none => none

/-- Rank 7: an extent in LEAF_TABLE form whose 64 leaves are all mapped, in flash, and not yet under way. -/
def State.consolVictim (s : State) : Option Nat :=
  if s.mode ≠ Md.IDLE && s.mode ≠ Md.GROOM then none
  else (List.find? (fun (e : Nat × Nat) => e.2 = 2 && !s.map.consol.contains e.1 && s.map.ts.extentLeaves e.1 = 64 &&
      !s.slots.any (fun x => keyExtent x.key = e.1 && x.kind ≠ .parity && x.kind ≠ .relocParity)) s.map.ts.forms).map (·.1)

/-- A used Seal block of the oldest SEAL_SEQ that holds a valid unit. -/
def State.sealVictim (s : State) : Option SealPage :=
  let ps := s.nv.sealPages.filter (fun p => p.used && s.map.ts.map.any (fun e => e.2 / 4 = sealUa p.sealSeq p.pos 0 / 4) &&
    !s.map.victims.any (fun v => v.1 = 2 ^ 40 + p.sealSeq * 64 + p.chan))
  match ps with
  | [] => none
  | p :: rest => some (rest.foldl (fun m x => if seqBefore 32 x.sealSeq m.sealSeq then x else m) p)

/-- What grooming may take next: its rank, and a band, a Seal block or an extent. -/
inductive Victim where
  | band (rank b : Nat)
  | sealed (p : SealPage)
  | extent (e : Nat)
  deriving DecidableEq, Repr

/-- R410: the next victim, from the highest source with a candidate. -/
def State.nextVictim (s : State) : Option Victim :=
  let below (p : Nat) : Bool := decide (s.freeBands * 100 < (p * s.bandTotal : Nat))
  let band (r : Nat) (b : Option Nat) : Option Victim := b.map (Victim.band r)
  (band 1 s.urgentBands.head?).or
    ((s.sealVictim.map Victim.sealed).or
      ((if below (s.get F.GROOM_CFG_ENTER_PCT) then band 3 s.greedy else none).or
        ((band 4 ((s.map.refresh.filter (fun b => (s.map.ts.band b).state = .closed && s.validCount b ≠ 0)).head?)).or
          ((if below (s.get F.GROOM_CFG_BG_START_PCT) || s.mode = Md.GROOM then band 5 s.greedy else none).or
            ((band 6 s.wearVictim).or (s.consolVictim.map Victim.extent))))))

/-- The rank of a victim (Table 14-2). -/
def Victim.rank : Victim → Nat
  | .band r _ => r
  | .sealed _ => 2
  | .extent _ => 7

/-- R412: the units of a victim are read, one operation for the units of a plane page. -/
def State.readVictim (s : State) (us : List Nat) : State :=
  let pages := (us.map (· / 4)).eraseDups
  let s1 : State := { s with map := { s.map with relocRead := s.map.relocRead ++ us } }
  pages.foldl (fun s p =>
    let (s2, need) := (us.filter (fun u => u / 4 = p)).foldl (fun (x : State × List Nat) ua =>
      let (s3, sense) := x.1.wantUnit 6 ua ((x.1.unit ua).map (·.key)) .reloc
      (s3, if sense then x.2 ++ [ua] else x.2)) (s, [])
    s2.addRead 6 0 .reloc need) s1

/-- A victim is counted and shown. -/
def State.showVictim (s : State) (rank n : Nat) : State :=
  ((s.incPart F.GROOM_VICTIMS_COUNTS rank 8).set F.GROOM_STATUS_VICTIM n).set F.GROOM_STATUS_SOURCE rank

/-- A victim is taken. VICTIM reads an unstated value for a victim that is no band. -/
def State.takeVictim (s : State) (v : Victim) : State :=
  match v with
  | .band r b =>
    let s1 : State := { s with map := { s.map with
      ts := { s.map.ts with bands := s.map.ts.bands.put b { s.map.ts.band b with state := .victim } }
      victims := s.map.victims ++ [(b, r)], urgent := s.map.urgent.filter (· ≠ b), refresh := s.map.refresh.filter (· ≠ b) } }
    ((s1.showVictim r b).raiseIf (r = 6) E.GROOM_WEAR_MOVE).readVictim (s1.validUnits b)
  | .sealed p =>
    let us := ((s.map.ts.map.filter (fun e => isSealUa e.2 && (s.sealPageOf e.2).any (fun x => x.sealSeq = p.sealSeq && x.chan = p.chan))).map (·.2))
    let s1 : State := { s with map := { s.map with victims := s.map.victims ++ [(2 ^ 40 + p.sealSeq * 64 + p.chan, 2)] } }
    ((s1.showVictim 2 (Config.undefinedValue s.fresh)).draw).readVictim us
  | .extent e =>
    let us := (List.range 64).filterMap (fun i => s.map.ts.map.find? (64 * e + i))
    let s1 : State := { s with map := { s.map with consol := s.map.consol ++ [e] } }
    ((s1.showVictim 7 (Config.undefinedValue s.fresh)).draw).readVictim us

/-- Victims whose valid units have all left stand no longer among the two. -/
def State.dropVictims (s : State) : State :=
  { s with map := { s.map with victims := s.map.victims.filter (fun v =>
      if isSealUa v.1 then s.map.ts.map.any (fun e => isSealUa e.2 && (s.sealPageOf e.2).any (fun x => 2 ^ 40 + x.sealSeq * 64 + x.chan = v.1))
      else (s.map.ts.band v.1).state = .victim) } }

/-- Grooming takes its next victim. A second one is taken only when every valid unit of the first has been read, or when its source
ranks above the first's. -/
def execGroomVictimSelect (s : State) : Host.Outcome State Fault Refusal :=
  done (
    if !s.ready Fn.GROOM || s.led.sealing.isSome || s.mode = Md.SEAL || s.mode = Md.REST then s
    else
      let s1 := s.dropVictims
      match s1.nextVictim with
      | none => s1
      | some v =>
        let ok := match s1.map.victims with
          | [] => true
          | [a] => s1.map.relocRead = [] || decide (v.rank < a.2)
          | _ => false
        if ok then s1.takeVictim v else s1)

/-! ### Bands closed for idleness, and clears (R414) -/

/-- The band of a group is completed with filler units and closed (R310). -/
def State.idleClose (s : State) (group band : Nat) : State :=
  let s1 := s.padGroup group
  let x := s1.group group
  let rest := s1.bandPages - x.next
  let s2 := (s1.setGroup group { x with band := none, next := 0, runs := [] }).fillPages band x.next rest
  let open' := s2.map.pages.filter (fun p => s2.bandOf p.stripe = band && p.phase = .ready)
  ((open'.foldl (fun s p => s.programRow true p.stripe p.pos) s2).closeBand band).pump

/-- A grooming band without a page for IDLE_CLOSE_MS is completed with filler and closed. -/
def execGroomIdleClose (group : Nat) (s : State) : Host.Outcome State Fault Refusal :=
  done (
    if group < 32 || 36 ≤ group || s.led.sealing.isSome then s
    else match (s.group group).band with
      | none => s
      | some band => s.idleClose group band)

/-- GROOM.CLR.GO. -/
def execGroomClr (who : Req) (s : State) : Host.Outcome State Fault Refusal :=
  done (s.rwAction who Pg.GROOM 0x160 (fun s => s.clear [F.GROOM_RELOC_PAGES_COUNT, F.GROOM_HOST_PAGES_COUNT, F.GROOM_VICTIMS_COUNTS]))

end Sys2Proof.Machine
end

