-- ==== Sys2Proof/Machine/HostCmds.lean ====
section
/-!
DEFINITION. The commands of the NVM Command Set (chapter 07, R200, R218; chapter 16, R467 to R473), from the camera's queues and
from the dock's.
-/

namespace Sys2Proof.Machine

/-! ### Flush (R26) -/

/-- Flush commands with no earlier write of their queue outstanding complete. -/
def State.flushReady (s : State) : State :=
  (readyFlushes [] s.host.cmds).foldl (fun s f => (s.untrack f).post ⟨f, 0, 0, false, 0, 0, []⟩) s

/-- Flush of a namespace, or of all for NSID 0xFFFFFFFF. -/
def execFlush (id : Cid) (nsid : Nat) (bad : Bool) (s : State) : Host.Outcome State Fault Refusal :=
  done (s.arrive id (fun s =>
    s.judge id
      [(s.onAdmin id.src || s.onDisc id.src, (0, 0x01, 0)),
       (nsid ≠ 0xFFFFFFFF && (s.ns? nsid).isNone, (0, 0x0B, 0)),
       (bad, (0, 0x02, 0)),
       (s.dockClosing id.src, (7, 0x81, s.mode)),
       (s.ioLocked, (7, 0x83, 0)),
       (s.unbound id.src, (7, 0x82, s.qidOf id.src)),
       (s.unconverged nsid, (7, 0x84, nsid))]
      (fun s => (s.trackCmd { id := id, op := .flush, nsid := nsid, stream := s.cmdStream id.src }).flushReady)))

/-! ### Commands that read -/

/-- Read. -/
def execRead (id : Cid) (c : IoCmd) (s : State) : Host.Outcome State Fault Refusal :=
  done (s.arrive id (fun s => s.judge id (s.ioChecks id c false false) (fun s => s.startRead id .read c [])))

/-- Compare, with the data to compare as sectors. -/
def execCompare (id : Cid) (c : IoCmd) (data : List Nat) (s : State) : Host.Outcome State Fault Refusal :=
  done (s.arrive id (fun s => s.judge id (s.ioChecks id c false false) (fun s => s.startRead id .compare c data)))

/-- Verify: nothing is transferred. -/
def execVerify (id : Cid) (c : IoCmd) (s : State) : Host.Outcome State Fault Refusal :=
  done (s.arrive id (fun s => s.judge id (s.ioChecks id c false false) (fun s => s.startRead id .verify c [])))

/-! ### Commands that write (R25, R148, R151, R200) -/

/-- A write that its checks let through asks for its slots; one that even a full bank has no room for completes at once (R151). -/
def State.startWrite (s : State) (id : Cid) (op : CmdOp) (c : IoCmd) : State :=
  let fmt := ((s.ns? c.nsid).map (·.fmt)).getD 0
  let slots := writeSlots id (s.cmdStream id.src) c.nsid (leavesOf fmt c.slba c.nlb)
  let who : Who := if isDock id.src then .net else .host
  let r := SlotReq.mk' who (s.qosOf id.src) 0 (if isDock id.src then slots.take 1 else slots)
  if s.get F.LEDGER_STATUS_CALIBRATED = 1 && decide (s.fullHeadroom who < s.reqCost r) then s.exhaust id (s.shortfall r)
  else (s.trackCmd (s.ioRecord id op c [])).askWrite id slots

/-- The leaves of a command's range. -/
def State.cmdLeaves (s : State) (c : IoCmd) : List Nat :=
  (leavesOf (((s.ns? c.nsid).map (·.fmt)).getD 0) c.slba c.nlb).map (·.1)

/-- Write. -/
def execWrite (id : Cid) (c : IoCmd) (s : State) : Host.Outcome State Fault Refusal :=
  done (s.arrive id (fun s => s.judge id (s.ioChecks id c true false ++ s.writeChecks id c.nsid (s.cmdLeaves c))
    (fun s => s.startWrite id .write c)))

/-- Write Zeroes: a write whose data the controller supplies. -/
def execWriteZeroes (id : Cid) (c : IoCmd) (s : State) : Host.Outcome State Fault Refusal :=
  done (s.arrive id (fun s => s.judge id (s.ioChecks id c true false ++ s.writeChecks id c.nsid (s.cmdLeaves c))
    (fun s => s.startWrite id .writeZeroes c)))

/-- Sectors of a command's range in its namespace's format. -/
def sectorsOf (fmt nlb : Nat) : Nat := if fmt512 fmt then nlb else 8 * nlb

/-- The longest time from last data to the completion's eligibility, and whether it exceeded R25. -/
def State.noteAck (s : State) (ns : Nat) : State :=
  if s.isl 2 = 2 then
    (s.set F.HOSTQ_ACK_LAT_MAX_NS (max (s.get F.HOSTQ_ACK_LAT_MAX_NS) (min ns 65535))).raiseIf
      (decide ((if s.mirroring then 240 else 190) < ns)) E.HOSTQ_ACK_LATE
  else s

/-- The last data word of a write stands in its slots. `ackNs` is what passes until its completion is eligible. -/
def execHostWriteDataComplete (id : Cid) (sectors : List Nat) (ackNs : Nat) (s : State) : Host.Outcome State Fault Refusal :=
  done (match s.cmd? id with
    | none => s
    | some c =>
      if (c.op ≠ .write && c.op ≠ .writeZeroes) || c.started || !s.allAdmitted id || !s.begun id || s.led.sealing.isSome then s
      else
        let fmt := ((s.ns? c.nsid).map (·.fmt)).getD 0
        let n := sectorsOf fmt c.nlb
        let ws := if c.op = .write then (List.range n).map (fun i => sectors.getD i 0) else List.replicate n 0
        let s1 := s.storeWrite c ws
        if isDock id.src then s1 else s1.noteAck ackNs)

/-! ### Dataset Management -/

/-- The whole leaves of a list of ranges. -/
def wholeLeaves (fmt : Nat) (ranges : List (Nat × Nat)) : List Nat :=
  (ranges.map (fun (a, n) => ((leavesOf fmt a n).filter (fun l => l.2 = 0xFF && n ≠ 0)).map (·.1))).flatten

/-- R469: every leaf lies within entries of takes declared verified. -/
def State.allVerified (s : State) (nsid : Nat) (leaves : List Nat) : Bool :=
  leaves.all (fun l => (s.entryOfLeaf nsid l).any (fun e => s.declared e.take &&
    decide (l < e.startLba / fmtPer (((s.ns? nsid).map (·.fmt)).getD 0) + ceilDiv e.length 4096)))

/-- Leaves become UNMAPPED; what slots still hold of them becomes zeros. An extent in one run of which leaves remain takes a table. -/
def State.dropLeaves (s : State) (key count : Nat) : State :=
  let hit (k : Nat) : Bool := decide (key ≤ k) && decide (k < key + count)
  let exts := ((s.map.ts.forms.filter (fun e => e.2 = 1 && decide (64 * e.1 < key + count) && decide (key < 64 * e.1 + 64) &&
    !(decide (key ≤ 64 * e.1) && decide (64 * e.1 + 64 ≤ key + count)))).map (·.1))
  let s1 := exts.foldl (fun s e => s.makeTable (64 * e)) s
  let s1 := s1.mapSlots (fun x => hit x.key && x.lst ≠ .filling && (x.kind = .host || x.kind = .frame)) (fun x =>
    { x with mask := 0xFF, data := List.replicate 8 0 })
  s1.noteUnmap key count

/-- Ranges are deallocated. -/
def State.deallocate (s : State) (nsid : Nat) (fmt : Nat) (ranges : List (Nat × Nat)) : State :=
  let s1 := s.verAlter nsid (wholeLeaves fmt ranges)
  ranges.foldl (fun s r =>
    match wholeLeaves fmt [r] with
    | [] => s
    | l :: ls => s.dropLeaves (leafKey nsid l) (ls.length + 1)) s1

/-- Dataset Management of up to 256 ranges; only the deallocate attribute acts. -/
def execDatasetManagement (id : Cid) (nsid : Nat) (ranges : List (Nat × Nat)) (ad bad : Bool) (s : State) :
    Host.Outcome State Fault Refusal :=
  done (s.arrive id (fun s =>
    let n := s.ns? nsid
    let fmt := (n.map (·.fmt)).getD 0
    let size := (n.map (·.size)).getD 0
    let whole := wholeLeaves fmt ranges
    let all := (ranges.map (fun (a, k) => (leavesOf fmt a k).map (·.1))).flatten
    let io : IoCmd := ⟨nsid, 0, 1, false, 0, 0, 0, 0, none, bad || ranges = [] || decide (256 < ranges.length)⟩
    s.judge id
      ((s.ioChecks id io ad (s.allVerified nsid all)).map (fun w => if w.2 = (0, 0x80, 0) then
          (ranges.any (fun r => decide (size < r.1 + r.2)), (0, 0x80, 0)) else w) ++
        [(ad && whole.any (s.inIngest nsid), (0, 0x15, 0))])
      (fun s => if ad then (s.deallocate nsid fmt ranges).freeBandsNow.okRec id 0 0 [] else s.ok id 0 0 [])))

end Sys2Proof.Machine
end

