-- ==== Sys2Proof/Machine/HostAdmin.lean ====
section
/-!
DEFINITION. The camera's controller as a whole (chapter 07): its doorbells and queues, enabling and shutdown, Abort, asynchronous
events, features, directives, Keep Alive and the PCIe link.
-/

namespace Sys2Proof.Machine

/-! ### The checks of an admin command (R218) -/

/-- Check 1 for a command that only the camera's admin queue takes (Table 16-3). -/
def hostAdminOnly (id : Cid) : Bool × Why :=
  ((match id.src with
    | .host q => q ≠ 0
    | .dock _ => true
    | .relay => false), (0, 0x01, 0))

/-- Check 1 for a command of an admin queue; `disc` for one that the Discovery queue takes too. -/
def State.adminOnly (s : State) (id : Cid) (disc : Bool) : Bool × Why :=
  (!(s.onAdmin id.src) || (s.onDisc id.src && !disc), (0, 0x01, 0))

/-- Check 2: the fields are not valid. -/
def badField (b : Bool) : Bool × Why := (b, (0, 0x02, 0))

/-- R210: the data buffer is too short or too long; admin commands use PRPs (Table 07-2). -/
def badLength (b : Bool) : Bool × Why := (b, (0, 0x02, 0))

/-- Check 3: Table 07-11 does not accept it in the current mode. -/
def State.modeCheck (s : State) (ms : List Nat) : Bool × Why := (!ms.contains s.mode, (7, 0x81, s.mode))

/-- A Sanitize is in progress (R538, NVMe Base 2.0). -/
def State.sanitCheck (s : State) : Bool × Why := (s.nv.sanit = 2, (0, 0x1D, 0))

/-! ### Doorbells (R24, R194, R199, R226) -/

/-- An error that asynchronous event requests report, with the Error Information log (NVMe Base 2.0). -/
def State.errorEvent (s : State) (info : Nat) : State := s.aen ⟨0, info, 0x01⟩

/-- R226: an invalid doorbell: `info` 0 the register, 1 the value. -/
def State.badDoorbell (s : State) (info : Nat) : State :=
  ((s.inc (if info = 0 then F.HOSTQ_DB_ERRORS_REG else F.HOSTQ_DB_ERRORS_VALUE)).raise E.HOSTQ_DB_ERROR).errorEvent info

/-- BAR0 is reached: HOST is ON, the link is up and the function is in D0. -/
def State.bar0 (s : State) : Bool := s.isl 2 = 2 && s.ready Fn.PCIE_LINK && !s.host.d3

/-- A write of a submission queue's tail doorbell; `fetchNs` is what passes until the fetch is issued. -/
def execSqTailDoorbell (q value fetchNs : Nat) (s : State) : Host.Outcome State Fault Refusal :=
  done (if !s.bar0 then s
    else match s.host.sqs.find? q with
    | none => s.badDoorbell 0
    | some x =>
      if x.size ≤ value then s.badDoorbell 1
      else
        let s1 : State := { s with host := { s.host with sqs := s.host.sqs.put q { x with tail := value } } }
        let s1 := if q ≠ 0 && x.tail ≠ value then s1.ioArrival else s1
        if s1.mayFetch (.host q) then s1.set F.HOSTQ_FETCH_LAT_MAX_NS (max (s1.get F.HOSTQ_FETCH_LAT_MAX_NS) (min fetchNs 65535)) else s1)

/-- A write of a completion queue's head doorbell. -/
def execCqHeadDoorbell (q value : Nat) (s : State) : Host.Outcome State Fault Refusal :=
  done (if !s.bar0 then s
    else match s.host.cqs.find? q with
    | none => s.badDoorbell 0
    | some x =>
      if x.size ≤ value then s.badDoorbell 1
      else { s with host := { s.host with cqs := s.host.cqs.put q { x with head := value } } })

/-- The aggregation time of Interrupt Coalescing has passed: the interrupt held for a completion queue is sent. -/
def execInterruptCoalescingTimeout (q : Nat) (s : State) : Host.Outcome State Fault Refusal :=
  done (match s.host.cqs.find? q with
    | some x =>
      if x.held = 0 then s
      else { s with host := { s.host with
        cqs := s.host.cqs.put q { x with held := 0 }
        irqs := if x.ien && s.host.msixEn then s.host.irqs ++ [x.vec] else s.host.irqs } }
    | none => s)

/-! ### Enabling and shutdown (R195, R224) -/

/-- A result joins the Device Self-test log: the newest 20 are kept. -/
def State.logTest (s : State) (result : Nat) : State :=
  { s with
    tst := {}
    nv := { s.nv with stLog := ((s.tst.kind, result, s.tst.failed.getD 0, s.tst.nsid) :: s.nv.stLog).take 20 } }

/-- The self-test in progress is given up. -/
def State.dropTest (s : State) (result : Nat) : State := if s.tst.kind = 0 then s else s.logTest result

/-- R224: the controller is reset: its queues, commands and features are gone; ingest, takes and QBIND stay. -/
def State.hostReset (s : State) : State :=
  let s1 := if s.tst.kind = 1 then s.dropTest 2 else s
  let s1 := s1.forget cidHost
  let h := s1.host
  let s1 : State := { s1 with host := {
    cmds := h.cmds, cqes := h.cqes, irqs := h.irqs, errLog := h.errLog, errCount := h.errCount, nsChanged := h.nsChanged
    msixEn := h.msixEn, busMaster := h.busMaster, pmeEn := h.pmeEn, pmeStatus := h.pmeStatus, d3 := h.d3 } }
  s1.clear ((List.range 256).map F.HOSTQ_QBIND_QOS ++ [F.HOSTQ_STATUS_CFS])

/-- A write of CC.EN with CC.AMS; the sizes are those of AQA, from 0. -/
def execCcEnable (en : Bool) (ams asqs acqs : Nat) (s : State) : Host.Outcome State Fault Refusal :=
  done (if !s.bar0 then s
    else if en then
      (if s.host.en then s
       else { s with host := { s.host with
        en := true, ams := ams % 8, shst := 0
        sqs := s.host.sqs.put 0 ⟨asqs % 4096 + 1, 0, 0, 0⟩
        cqs := s.host.cqs.put 0 ⟨acqs % 4096 + 1, 0, true, 0, 0, 0⟩ } })
    else if s.host.en then s.hostReset
    else s)

/-- CC.SHN 01b: complete at once, or with the last outstanding command. -/
def execCcShutdown (s : State) : Host.Outcome State Fault Refusal :=
  done (if s.bar0 && s.host.en && s.host.shst = 0 then State.shutCheck { s with host := { s.host with shst := 1 } } else s)

/-! ### I/O queues (R198, R224) -/

/-- A queue size, from 0, that Table 07-2 permits. -/
def badQueueSize (size : Nat) : Bool := size = 0 || 4095 < size

/-- Create I/O Completion Queue. -/
def execCreateIoCq (id : Cid) (qid size vec : Nat) (ien bad : Bool) (s : State) : Host.Outcome State Fault Refusal :=
  done (s.arrive id (fun s => s.judge id
    [hostAdminOnly id, badField bad, (qid = 0 || 256 < qid || (s.host.cqs.find? qid).isSome, (1, 0x01, 0)),
     (badQueueSize size, (1, 0x02, 0)), (256 < vec, (1, 0x08, 0))]
    (fun s => State.ok { s with host := { s.host with cqs := s.host.cqs.put qid ⟨size + 1, vec, ien, 0, 0, 0⟩ } } id 0 0 [])))

/-- Create I/O Submission Queue: it must name the completion queue of its own number. -/
def execCreateIoSq (id : Cid) (qid size cqid prio : Nat) (bad : Bool) (s : State) : Host.Outcome State Fault Refusal :=
  done (s.arrive id (fun s => s.judge id
    [hostAdminOnly id, badField bad, (qid = 0 || 256 < qid || (s.host.sqs.find? qid).isSome, (1, 0x01, 0)),
     (badQueueSize size, (1, 0x02, 0)), (cqid ≠ qid || (s.host.cqs.find? qid).isNone, (1, 0x00, 0))]
    (fun s => State.ok (State.set { s with host := { s.host with sqs := s.host.sqs.put qid ⟨size + 1, 0, 0, prio % 4⟩ } }
      (F.HOSTQ_QBIND_QOS (qid - 1)) (prio % 4)) id 0 0 [])))

/-- A tracked command has passed its point of no return (Table 07-10). -/
def Cmd.past (c : Cmd) : Bool :=
  match c.op with
  | .write | .writeZeroes | .dsm => c.started
  | .read | .compare | .verify | .flush => false
  | _ => true

/-- R224: the commands of a queue that goes: those not past their point of no return are aborted, the others end without a
completion. -/
def State.dropQueue (s : State) (q : Nat) : State :=
  let mine := s.host.cmds.filter (fun c => c.id.src = .host q)
  let s1 := (mine.filter (fun c => !c.past)).foldl (fun s c => (s.forget (fun x => x = c.id)).fail c.id 0 0x08) s
  s1.forget (fun x => x.src = .host q)

/-- Delete I/O Submission Queue. -/
def execDeleteIoSq (id : Cid) (qid : Nat) (s : State) : Host.Outcome State Fault Refusal :=
  done (s.arrive id (fun s => s.judge id
    [hostAdminOnly id, (qid = 0 || (s.host.sqs.find? qid).isNone, (1, 0x01, 0))]
    (fun s =>
      let s1 := s.dropQueue qid
      State.ok (State.set { s1 with host := { s1.host with sqs := s1.host.sqs.del qid, aborts := s1.host.aborts.filter (fun a => a.sq ≠ qid) } }
        (F.HOSTQ_QBIND_QOS (qid - 1)) 0) id 0 0 [])))

/-- Delete I/O Completion Queue: not while its submission queue is there. -/
def execDeleteIoCq (id : Cid) (qid : Nat) (s : State) : Host.Outcome State Fault Refusal :=
  done (s.arrive id (fun s => s.judge id
    [hostAdminOnly id, (qid = 0 || (s.host.cqs.find? qid).isNone, (1, 0x01, 0)), ((s.host.sqs.find? qid).isSome, (1, 0x0C, 0))]
    (fun s => State.ok { s with host := { s.host with cqs := s.host.cqs.del qid } } id 0 0 [])))

/-! ### Abort (R215, R220) -/

/-- The command that an Abort names. -/
def State.abortTarget (s : State) (by' : Src) (sqid cid : Nat) : Option Cid :=
  match by' with
  | .host _ => some ⟨.host sqid, cid⟩
  | .dock conn =>
    let ctrl := (s.net.conns.find? conn).bind (·.ctrl)
    (s.net.conns.find? conn).bind (fun _ =>
      (List.find? (fun e => e.2.ctrl = ctrl && e.2.qid = sqid) s.net.conns).map (fun e => ⟨.dock e.1, cid⟩))
  | .relay => none

/-- The command is there and not past its point of no return (Table 07-10). -/
def State.catchable (s : State) (t : Cid) : Bool :=
  s.host.cmds.any (fun c => c.id = t && !c.past) || s.frm.waits.any (fun w => w.id = t) || s.mc.takeWait.any (fun x => x.1 = t) ||
    s.mc.heldCmd.any (fun x => x.2 = t)

/-- The command is there. -/
def State.outstanding (s : State) (t : Cid) : Bool :=
  s.catchable t || s.host.cmds.any (fun c => c.id = t) || s.frm.starts.any (fun x => x.1 = t) || s.mc.waiter = some t ||
    s.pair.held.any (fun x => x.2.id = t) || s.pair.relays.any (fun r => r.id = t) ||
    s.map.ts.takes.any (fun e => e.2.stopper = some t) || s.host.aborts.any (fun a => a.by' = t) ||
    (t.src = .host 0 && s.host.aers.contains t.cid)

/-- An Abort that caught nothing completes with bit 0 of its Dword 0 set. -/
def State.notCaught (s : State) (id : Cid) : State :=
  (if cidHost id then s.inc F.HOSTQ_ABORTS_NOT_CAUGHT else s).ok id 1 0 []

/-- Abort: it catches what the tracker holds, or stays armed for its window against entries still to arrive. -/
def execAbort (id : Cid) (sqid cid : Nat) (bad : Bool) (s : State) : Host.Outcome State Fault Refusal :=
  done (s.arriveFree id (fun s => s.judge id
    [s.adminOnly id false, badField bad, (8 ≤ s.host.aborts.length, (1, 0x03, 0))]
    (fun s => match s.abortTarget id.src sqid cid with
      | none => s.notCaught id
      | some t =>
        if s.catchable t then
          let s1 := s.forget (fun x => x = t)
          (if cidHost t then s1.caught t else s1.fail t 0 0x07).ok id 0 0 []
        else if s.outstanding t || !cidHost id then s.notCaught id
        else { s with host := { s.host with aborts := s.host.aborts ++ [⟨sqid, cid, id⟩] } })))

/-- The window of an Abort has passed. -/
def execAbortWindowExpired (id : Cid) (s : State) : Host.Outcome State Fault Refusal :=
  done (if s.host.aborts.any (fun a => a.by' = id) then
    State.notCaught { s with host := { s.host with aborts := s.host.aborts.filter (fun a => a.by' ≠ id) } } id else s)

/-! ### Asynchronous events (R213, R478) -/

/-- A request of a fabric admin or discovery queue: an event that waits completes it, else it waits. -/
def State.ctrlAer (s : State) (id : Cid) (conn k : Nat) (c : Ctrl) : State :=
  match c.aens with
  | a :: rest =>
    State.ok { s with net := { s.net with ctrls := s.net.ctrls.put k { c with aens := rest, told := c.told ++ [a] } } } id a.dw0 0 []
  | [] =>
    if 8 ≤ c.aers.length then s.fail id 1 0x05
    else { s with net := { s.net with ctrls := s.net.ctrls.put k { c with aers := c.aers ++ [(conn, id.cid)] } } }

/-- Asynchronous Event Request: at most eight are outstanding. -/
def execAsynchronousEventRequest (id : Cid) (s : State) : Host.Outcome State Fault Refusal :=
  done (s.arriveFree id (fun s => s.judge id [s.adminOnly id true] (fun s =>
    match id.src with
    | .dock conn =>
      match (s.net.conns.find? conn).bind (·.ctrl) with
      | some k => match s.net.ctrls.find? k with
        | some c => s.ctrlAer id conn k c
        | none => s
      | none => s
    | _ =>
      match s.host.aens with
      | a :: rest => State.ok { s with host := { s.host with aens := rest, told := s.host.told ++ [a] } } id a.dw0 0 []
      | [] =>
        if 8 ≤ s.host.aers.length then s.fail id 1 0x05
        else { s with host := { s.host with aers := s.host.aers ++ [id.cid] } })))

/-! ### Keep Alive (R227) -/

/-- Keep Alive: the timer starts afresh. -/
def execKeepAlive (id : Cid) (s : State) : Host.Outcome State Fault Refusal :=
  done (s.arrive id (fun s => s.judge id [s.adminOnly id true] (fun s => s.ok id 0 0 [])))

/-- The Keep Alive timer of a controller expires: 0 the camera's, which stops with CSTS.CFS set (NVMe Base 2.0); otherwise a fabric
controller, whose connections close. -/
def execKeepAliveExpired (ctrl : Nat) (s : State) : Host.Outcome State Fault Refusal :=
  done (
    if ctrl = 0 then
      (if s.isl 2 = 2 && s.host.en && s.host.kato ≠ 0 then
        ((s.logError ⟨.host 0, 0xFFFF⟩ 0 0x14 0 0).set F.HOSTQ_STATUS_CFS 1).raise E.HOSTQ_KATO_EXPIRE
       else s)
    else match s.net.ctrls.find? ctrl with
      | some c =>
        if c.kato = 0 then s
        else
          let s1 := ((s.net.conns.filter (fun e => e.2.ctrl = some ctrl)).map (·.1)).foldl State.dropConn s
          State.offloadCheck { s1 with net := { s1.net with ctrls := s1.net.ctrls.del ctrl } }
      | none => s)

/-! ### Features (Table 07-4, R201) -/

/-- The features of Table 07-4. -/
def knownFid (fid : Nat) : Bool := [0x01, 0x02, 0x04, 0x07, 0x08, 0x09, 0x0A, 0x0B, 0x0F, 0xC0].contains fid

/-- The features that the dock may set (Table 16-3). -/
def dockFid (fid : Nat) : Bool := [0x07, 0x08, 0x0B, 0x0F].contains fid

/-- The features that may be set in Quarantine (Table 07-11). -/
def quarFid (fid : Nat) : Bool := [0x08, 0x0B, 0x0F, 0xC0].contains fid

/-- Power of a power state, in mW (R201). -/
def psPower (ps : Nat) : Nat := [25000, 20000, 15000, 12000].getD ps 0

/-- A field of Set Features that is not valid. -/
def badFeature (fid v : Nat) : Bool :=
  match fid with
  | 0x02 => 3 < v % 32
  | 0x09 => 256 < v % 65536
  | 0xC0 => 2 ^ 20 ≤ v
  | _ => false

/-- The fabric controller of a connection. -/
def State.ctrlOf (s : State) (conn : Nat) : Option (Nat × Ctrl) :=
  ((s.net.conns.find? conn).bind (·.ctrl)).bind (fun k => (s.net.ctrls.find? k).map (fun c => (k, c)))

/-- Changes a fabric controller. -/
def State.putCtrl (s : State) (k : Nat) (c : Ctrl) : State := { s with net := { s.net with ctrls := s.net.ctrls.put k c } }

/-- A feature of the camera's controller takes a value. -/
def State.setFeature (s : State) (fid v : Nat) : State :=
  let h := s.host
  match fid with
  | 0x01 => { s with host := { h with arb := v } }
  | 0x02 => State.set { s with host := { h with psSel := v % 4 } } F.BUDGET_GRANT_GRANT_MW (psPower (v % 32))
  | 0x04 => { s with host := { h with tempTh := h.tempTh.set (bits v 20 1) (v % 65536) } }
  | 0x08 => { s with host := { h with coalesce := v % 65536 } }
  | 0x09 => { s with host := { h with ivCfg := h.ivCfg.put (v % 65536) (bits v 16 1) } }
  | 0x0A => { s with host := { h with wan := v % 2 } }
  | 0x0B => { s with host := { h with aec := v } }
  | 0x0F => { s with host := { h with kato := v } }
  | 0xC0 => s.set F.BUDGET_GRANT_GRANT_MW v
  | _ => s

/-- The value of a feature of the camera's controller. -/
def State.getFeature (s : State) (fid v : Nat) : Nat :=
  let h := s.host
  match fid with
  | 0x01 => h.arb
  | 0x02 => h.psSel
  | 0x04 => h.tempTh.getD (bits v 20 1) 0
  | 0x07 => 0x00FF00FF
  | 0x08 => h.coalesce
  | 0x09 => v % 65536 + h.ivCfg.get (v % 65536) 0 * 65536
  | 0x0A => h.wan
  | 0x0B => h.aec
  | 0x0F => h.kato
  | _ => s.get F.BUDGET_GRANT_GRANT_MW

/-- Set Features. Save is not supported. -/
def execSetFeatures (id : Cid) (fid cdw11 : Nat) (save bad : Bool) (s : State) : Host.Outcome State Fault Refusal :=
  done (s.arrive id (fun s => s.judge id
    [s.adminOnly id false, (save, (1, 0x0D, 0)), badField (bad || !knownFid fid || (isDock id.src && !dockFid fid) || badFeature fid cdw11),
     (s.mode = Md.QUARANTINE && !quarFid fid, (7, 0x81, s.mode))]
    (fun s =>
      let dw0 := if fid = 0x07 then 0x00FF00FF else 0
      match id.src with
      | .dock conn =>
        (match s.ctrlOf conn with
          | some (k, c) =>
            if fid = 0x0B then s.putCtrl k { c with aec := cdw11 } else if fid = 0x0F then s.putCtrl k { c with kato := cdw11 } else s
          | none => s).ok id dw0 0 []
      | _ => (s.setFeature fid cdw11).ok id dw0 0 [])))

/-- Get Features. Select is not supported. -/
def execGetFeatures (id : Cid) (fid cdw11 sel : Nat) (bad : Bool) (s : State) : Host.Outcome State Fault Refusal :=
  done (s.arrive id (fun s => s.judge id
    [s.adminOnly id false, badField (bad || sel ≠ 0 || !knownFid fid)]
    (fun s =>
      let v := match id.src with
        | .dock conn =>
          (match s.ctrlOf conn with
            | some (_, c) => if fid = 0x0B then c.aec else if fid = 0x0F then c.kato else s.getFeature fid cdw11
            | none => 0)
        | _ => s.getFeature fid cdw11
      s.ok id v 0 [])))

/-! ### Directives (R207) -/

/-- Directive Send: the Streams directive is enabled or disabled, or its identifiers are released. -/
def execDirectiveSend (id : Cid) (dtype doper cdw12 : Nat) (bad : Bool) (s : State) : Host.Outcome State Fault Refusal :=
  done (s.arrive id (fun s => s.judge id
    [hostAdminOnly id,
     badField (bad || !((dtype = 0 && doper = 1 && bits cdw12 8 8 = 1) || (dtype = 1 && (doper = 1 || doper = 2)))),
     (s.mode = Md.QUARANTINE, (7, 0x81, s.mode))]
    (fun s => State.ok (if dtype = 0 then { s with host := { s.host with streamsOn := bit cdw12 0 } } else s) id 0 0 [])))

/-- The parameters that Directive Receive returns: of the Identify directive, which are supported and enabled; of the Streams
directive, MSL, NSSA and NSSO, with what R207 does not state left free. -/
def State.directiveData (s : State) (dtype : Nat) : List Nat :=
  if dtype = 0 then [3] ++ List.replicate 31 0 ++ [1 + 2 * b2n s.host.streamsOn] ++ List.replicate 4063 0
  else bytesOf 2 256 ++ bytesOf 2 256 ++ bytesOf 2 0 ++ bytesOf 26 (Config.undefinedValue s.fresh)

/-- Directive Receive. The status of streams, and what an allocation answers, R207 does not state. -/
def execDirectiveReceive (id : Cid) (dtype doper bytes : Nat) (bad : Bool) (s : State) : Host.Outcome State Fault Refusal :=
  done (s.arrive id (fun s => s.judge id
    [hostAdminOnly id, badField (bad || 1 < dtype || doper = 0 || (dtype = 0 && 1 < doper) || 3 < doper)]
    (fun s =>
      if doper = 1 then s.draw.ok id 0 0 ((s.directiveData dtype).take bytes)
      else if doper = 2 then s.draw.ok id 0 0 (bytesOf bytes (Config.undefinedValue s.fresh))
      else s.draw.ok id (Config.undefinedValue s.fresh % 2 ^ 32) 0 [])))

/-! ### Register actions -/

/-- HOSTQ.CLR.GO: FETCH_LAT to DB_ERRORS. -/
def execHostqClr (who : Req) (s : State) : Host.Outcome State Fault Refusal :=
  done (s.rwAction who Pg.HOSTQ 0x168 (fun s => s.clear
    [F.HOSTQ_FETCH_LAT_MAX_NS, F.HOSTQ_ACK_LAT_MAX_NS, F.HOSTQ_ABORTS_CAUGHT, F.HOSTQ_ABORTS_NOT_CAUGHT, F.HOSTQ_REFUSED_COUNT,
     F.HOSTQ_PI_ERRORS_GUARD, F.HOSTQ_PI_ERRORS_APP, F.HOSTQ_PI_ERRORS_REF, F.HOSTQ_DB_ERRORS_REG, F.HOSTQ_DB_ERRORS_VALUE]))

/-- PCIE.CLR.GO: ERR_CNT and RECOV. -/
def execPcieClr (who : Req) (s : State) : Host.Outcome State Fault Refusal :=
  done (s.rwAction who Pg.PCIE 0x128 (fun s => s.clear
    [F.PCIE_ERR_CNT_REPLAY_TO, F.PCIE_ERR_CNT_BAD_DLLP, F.PCIE_ERR_CNT_BAD_TLP, F.PCIE_ERR_CNT_RX_ERR,
     F.PCIE_RECOV_SPEED_CHANGES, F.PCIE_RECOV_ENTRIES]))

/-! ### The PCIe link (R193 to R196) -/

/-- A width the link can train to. -/
def linkWidth (w : Nat) : Nat := if 4 ≤ w then 4 else if 2 ≤ w then 2 else 1

/-- The link runs at a speed and width within LINK_CFG. -/
def State.trainPcie (s : State) (speed width : Nat) : State :=
  let sp := max 1 (min speed (s.get F.PCIE_LINK_CFG_MAX_SPEED))
  let w := linkWidth (min width (s.get F.PCIE_LINK_CFG_MAX_WIDTH))
  let s1 := s.raiseIf (s.get F.PCIE_STATUS_SPEED ≠ sp) E.PCIE_SPEED_CHANGE
  let s1 := s1.raiseIf (s.get F.PCIE_STATUS_WIDTH ≠ w) E.PCIE_WIDTH_CHANGE
  let s1 := if s.get F.PCIE_STATUS_SPEED ≠ sp then s1.inc F.PCIE_RECOV_SPEED_CHANGES else s1
  (s1.set F.PCIE_STATUS_SPEED sp).set F.PCIE_STATUS_WIDTH w

/-- Link training completes: configuration space and BAR0 are served (R195), and WAKE_N is released (R196). -/
def execPcieLinkUp (speed width eq : Nat) (s : State) : Host.Outcome State Fault Refusal :=
  done (if s.isl 2 = 2 && !s.pins.perstN && s.get F.PWR_RAIL_STATUS_IO_LEVEL ≠ 3 && s.needsOk Fn.PCIE_LINK && !s.ready Fn.PCIE_LINK then
    let s1 := ((s.trainPcie speed width).set F.PCIE_EQ_STATUS_DONE (eq % 8)).raise E.PCIE_LINK_UP
    State.setReady { s1 with pins := { s1.pins with wakeN := true } } Fn.PCIE_LINK
  else s)

/-- The link drops without PERST_N. -/
def execPcieLinkDown (s : State) : Host.Outcome State Fault Refusal :=
  done (if s.ready Fn.PCIE_LINK then
    (((s.set F.PCIE_STATUS_SPEED 0).set F.PCIE_STATUS_WIDTH 0).raise E.PCIE_LINK_DOWN).pcieDown
  else s)

/-- PCIE.RETRAIN.GO: the link recovers at what it trains to within LINK_CFG. -/
def execPcieRetrain (who : Req) (speed width : Nat) (s : State) : Host.Outcome State Fault Refusal :=
  done (s.rwAction who Pg.PCIE 0x108 (fun s =>
    if s.ready Fn.PCIE_LINK then (s.inc F.PCIE_RECOV_ENTRIES).trainPcie speed width else s))

/-- A write of configuration space: the power state, MSI-X Enable, Bus Master Enable and PME Enable. -/
def execConfigSpaceWrite (d3 msix busMaster pme : Bool) (s : State) : Host.Outcome State Fault Refusal :=
  done (if s.isl 2 = 2 && s.ready Fn.PCIE_LINK then
    State.set { s with host := { s.host with d3 := d3, msixEn := msix, busMaster := busMaster, pmeEn := pme } }
      F.PCIE_STATUS_DSTATE (if d3 then 3 else 0)
  else s)

end Sys2Proof.Machine
end

