-- ==== Sys2Proof/Machine/HostTakes.lean ====
section
/-!
DEFINITION. Takes, the frame index, namespaces, erasure and the other vendor commands as the camera and the dock issue them
(chapters 07, 09, 14, 17 and 18).
-/

namespace Sys2Proof.Machine

/-! ### Take Start (R117, R258 to R261, R290) -/

/-- Takes whose records wait to be journaled. -/
def State.takesWaiting (s : State) : List Take :=
  s.map.waiting.filterMap (fun w => match w.1 with
    | .take t => if t.phase = 0 then some t else none
    | _ => none)

/-- Takes that are open, closing or about to open. -/
def State.takesNow (s : State) : List Take :=
  s.liveTakes ++ s.takesWaiting.filter (fun t => !s.liveTakes.any (fun x => x.num = t.num))

/-- R260: the last take number used. -/
def State.lastTakeUsed (s : State) : Nat := (s.takesNow.map (·.num)).foldl max s.map.ts.lastTake

/-- A stream belongs to a take that is not closed. -/
def State.streamTaken (s : State) (st : Nat) : Bool := s.takesNow.any (fun t => t.streams.contains st)

/-- The capture stream may join a new take. -/
def State.captureFree (s : State) : Bool :=
  (s.get F.FRAME_ACAP_EN0 = 1 || s.get F.FRAME_ACAP_EN1 = 1) && !s.streamTaken s.capStream

/-- R258: the streams of a new take, ascending; a capture stream that another take holds is left out. -/
def State.newStreams (s : State) (first last : Nat) : List Nat :=
  let named (st : Nat) : Bool := decide (first ≤ st) && decide (st ≤ last)
  (List.range 256).filter (fun st =>
    if st = s.capStream && s.streamTaken st then false
    else named st || (List.range 256).any (fun x => named x && s.sketchEn x && s.sketchStream x = st) ||
      (st = s.capStream && s.captureFree))

/-- R290: a stream of the command that frames of the Busaist link would fill, but that has no region. -/
def State.noRegion (s : State) (first last : Nat) : Bool :=
  (List.range 256).any (fun st => decide (first ≤ st) && decide (st ≤ last) && st ≠ s.capStream &&
    !(List.range 256).any (fun x => decide (first ≤ x) && decide (x ≤ last) && s.sketchEn x && s.sketchStream x = st) &&
    (s.streamCfg st).nsid = 0)

/-- Check 7 of a Take Start. -/
def State.takeRefusal (s : State) (id : Cid) (first last : Nat) : List (Bool × Why) :=
  let hit := (s.newStreams first last).find? s.streamTaken
  [(s.follows && id.src ≠ .relay, (0, 0x0C, 0)), (hit.isSome, (7, 0x86, hit.getD 0)), (16 ≤ s.takesNow.length, (7, 0x88, 16))]

/-- A take opens: its record is journaled, and the device goes to Record unless it is there. -/
def State.openTake (s : State) (id : Cid) (num first last : Nat) : State :=
  let t : Take := ⟨num, first, last, s.newStreams first last, 0, 0, s.tb, 0, s.get F.TIME_CAL, 0, none, 0⟩
  let s1 : State := { s with frm := { s.frm with starts := s.frm.starts ++ [(id, num)] } }
  let s1 := (s1.noteTake t).note (.state num s1.nv.sealSeq)
  let s1 := if s1.mode = Md.RECORD || s1.mc.trans.any (fun x => x.target = Md.RECORD) then s1
    else s1.beginTrans Md.RECORD (if id.src = .relay then 0x18 else 0x08)
  s1.takesOpened

/-- The number that a Take Start takes. -/
def State.takeNumber (s : State) (take : Nat) : Nat := if take = 0 then s.lastTakeUsed + 1 else take

/-- A Take Start that its earlier checks let through; the lead relays it first. -/
def State.startTake (s : State) (local' : Bool) (id : Cid) (take first last : Nat) : State :=
  s.judge id (s.takeRefusal id first last) (fun s =>
    if s.leads && !local' then s.relay RL_TAKE_START id [s.takeNumber take, first, last]
    else s.openTake id (s.takeNumber take) first last)

/-- R117: Take Start is accepted in the mode. -/
def State.takeMode (s : State) : Bool :=
  [Md.IDLE, Md.RECORD, Md.REVIEW, Md.GROOM].contains s.mode || (s.mode = Md.WAKE && s.ready Fn.JOURNAL && s.ready Fn.LEDGER_ADMIT)

/-- Checks 2 to 7 of a Take Start. One that arrives while a transition other than to Record is in progress is held, and judged at its
end. -/
def State.judgeTake (s : State) (id : Cid) (take first last : Nat) : State :=
  if s.mc.trans.any (fun t => t.target ≠ Md.RECORD) && s.mode ≠ Md.REST then
    { s with mc := { s.mc with takeWait := s.mc.takeWait ++ [(id, take, first, last)] } }
  else s.judge id
    [(!s.takeMode || s.mc.drain.isSome, (7, 0x81, s.mode)), (s.ioLocked, (7, 0x83, 0)), s.sanitCheck]
    (fun s => s.startTake false id take first last)

/-- Take Start. -/
def execTakeStart (id : Cid) (take first last : Nat) (bad : Bool) (s : State) : Host.Outcome State Fault Refusal :=
  done (s.arrive id (fun s => s.judge id
    [hostAdminOnly id,
     badField (bad || last < first || 255 < last || (take ≠ 0 && take ≤ s.lastTakeUsed) || 0xFFFFFFFF < take ||
       (take = 0 && 0xFFFFFFFF ≤ s.lastTakeUsed) || s.noRegion first last)]
    (fun s => s.judgeTake id take first last)))

/-! ### Take Stop (R262) -/

/-- The take moves to CLOSING; its capture unit closes with it. -/
def State.stopTake (s : State) (id : Cid) (t : Take) : State :=
  let s1 := s.setTake { t with phase := 1, tbStop := s.tb, stopper := some id }
  let s1 := if (s1.frm.capHead).any (fun h => h.take = t.num) then s1.closeCapture else s1
  s1.ingestStopCheck

/-- A Take Stop that its earlier checks let through. -/
def State.askStopTake (s : State) (local' : Bool) (id : Cid) (take : Nat) : State :=
  match s.liveTakes.find? (fun t => t.num = take && t.phase = 0) with
  | none => s.vendor id 0x87 0
  | some t =>
    if s.follows && id.src ≠ .relay then s.fail id 0 0x0C
    else if s.leads && !local' then s.relay RL_TAKE_STOP id [take]
    else s.stopTake id t

/-- Take Stop. -/
def execTakeStop (id : Cid) (take : Nat) (bad : Bool) (s : State) : Host.Outcome State Fault Refusal :=
  done (s.arrive id (fun s => s.judge id [hostAdminOnly id, badField bad] (fun s => s.askStopTake false id take)))

/-! ### Frame Index Read (R211, R272, R275) -/

/-- Frame Index Read. -/
def execFrameIndexRead (id : Cid) (stream : Nat) (wait : Bool) (take first count : Nat) (bad short : Bool) (s : State) :
    Host.Outcome State Fault Refusal :=
  done (s.arrive id (fun s => s.judge id
    [s.adminOnly id false, badField (bad || count = 0 || 4096 < count || 255 < stream), badLength short,
     (s.ioLocked, (7, 0x83, 0)), (!s.ready Fn.FRAME_INDEX, (7, 0x8E, 0)),
     badField (wait && 4 ≤ (s.frm.waits.filter (fun w => w.stream = stream)).length)]
    (fun s =>
      let (es, next) := s.indexRead take stream first count
      if es = [] && wait then
        (if s.liveTakes.any (fun t => t.num = take) then
          { s with frm := { s.frm with waits := s.frm.waits ++ [⟨id, stream, take, first, count⟩] } }
         else s.ok id 0 0xFFFFFFFF [])
      else s.ok id es.length next (es.map entryBytes).flatten)))

/-! ### Ledger Query, Mode Request, Mailbox Post, Snapshot Trigger (R209 to R212, R494) -/

/-- The bytes of a ledger query record (Table 05-4). -/
def recordBytes (ws : List Nat) : List Nat :=
  ((ws.take 7).map (bytesOf 8)).flatten ++ bytesOf 8 (ws.getD 7 0)

/-- Ledger Query; before the first snapshot since Wake nothing is latched, and what is returned is open. -/
def execLedgerQuery (id : Cid) (snap bad short : Bool) (s : State) : Host.Outcome State Fault Refusal :=
  done (s.arriveFree id (fun s => s.judge id [s.adminOnly id false, badField bad, badLength short] (fun s =>
    if snap && s.led.latched = [] then s.draw.ok id 0 0 (bytesOf 64 (Config.undefinedValue s.fresh))
    else s.ok id 0 0 (recordBytes (if snap then s.led.latched else s.ledgerRecord)))))

/-- Mode Request: judged under R115; held while a transition is in progress (R128). -/
def execModeRequest (id : Cid) (target : Nat) (bad : Bool) (s : State) : Host.Outcome State Fault Refusal :=
  done (s.arrive id (fun s => s.judge id [hostAdminOnly id, badField (bad || 15 < target)] (fun s => s.requestMode (.cmd id) target)))

/-- Mailbox Post: the words and the doorbell reach firmware as one step. -/
def execMailboxPost (id : Cid) (words : List Nat) (doorbell : Nat) (bad short : Bool) (s : State) : Host.Outcome State Fault Refusal :=
  done (s.arriveFree id (fun s => s.judge id
    [hostAdminOnly id, badField (bad || words = [] || 64 < words.length), badLength short,
     (64 < (s.queue 0).length + words.length, (7, 0x8A, 64 - (s.queue 0).length))]
    (fun s =>
      let s1 := (s.setQueue 0 (s.queue 0 ++ words.map (· % 2 ^ 64))).crcuFeed 4 0 (words.map (bytesOf 8)).flatten
      (State.mbxUnknown 66 (s1.mbxRing 0 doorbell)).ok id words.length 0 [])))

/-- The Snapshot log page (R202). -/
def State.snapshotLog (s : State) : List Nat :=
  let head := bytesOf 4 (s.readReg Pg.SNAP 0x120) ++ List.replicate 4 0 ++ bytesOf 8 (s.readReg Pg.SNAP 0x128) ++
    bytesOf 8 (s.readReg Pg.SNAP 0x138) ++ List.replicate 40 0
  let page (p : Nat) : List Nat :=
    bytesOf 8 (s.readReg p 0x050) ++ bytesOf 8 (s.readReg p 0x058) ++
      ((List.range 20).map (fun k => bytesOf 8 (s.readReg p (0x060 + 8 * k)))).flatten
  head ++ ((List.range 96).map page).flatten

/-- Snapshot Trigger. -/
def execSnapshotTrigger (id : Cid) (ret rearm bad short : Bool) (s : State) : Host.Outcome State Fault Refusal :=
  done (s.arriveFree id (fun s => s.judge id
    [hostAdminOnly id, badField bad, badLength short,
     (s.get F.SNAP_STATE_HELD = 1 && !rearm, (7, 0x8B, s.get F.SNAP_LAST_EPOCH_EPOCH))]
    (fun s =>
      let s1 := (if rearm then s.set F.SNAP_STATE_HELD 0 else s).snapshot 4
      s1.ok id (s1.get F.SNAP_LAST_EPOCH_EPOCH) 0 (if ret then s1.snapshotLog else []))))

/-! ### Namespaces (R218, R409) -/

/-- Bytes of a logical block. -/
def fmtBytes (fmt : Nat) : Nat := if fmt512 fmt then 512 else 4096

/-- Leaves of a namespace. -/
def Ns.leaves (n : Ns) : Nat := ceilDiv n.size (fmtPer n.fmt)

/-- Streams appended in a namespace begin anew (R291). -/
def State.resetAppends (s : State) (nsid : Nat) : State :=
  ((List.range 256).filter (fun st => (s.streamCfg st).nsid = nsid && s.nextLeaf st ≠ 0)).foldl
    (fun s st => State.noteAppend { s with frm := { s.frm with ptr := s.frm.ptr.del st } } st 0) s

/-- Every leaf of a namespace becomes UNMAPPED. -/
def State.unmapNs (s : State) (nsid : Nat) : State :=
  match s.nv.nses.find? nsid with
  | some n =>
    let s1 := s.verAlter nsid (s.map.ts.entries.filterMap (fun e => if e.nsid = nsid then some (e.startLba / fmtPer n.fmt) else none))
    if n.leaves = 0 then s1 else s1.dropLeaves (leafKey nsid 0) n.leaves
  | none => s

/-- What of a namespace the camera has to look at again (log page 0x04). -/
def State.nsNote (s : State) (nsid : Nat) : State :=
  { s with host := { s.host with nsChanged := (s.host.nsChanged ++ [nsid]).eraseDups } }

/-- Bytes of all namespaces. -/
def State.nsBytes (s : State) : Nat := total (s.nv.nses.map (fun e => e.2.size * fmtBytes e.2.fmt))

/-- A format and its protection settings that Table 07-6 and R203 permit. -/
def badFormat (fmt pi : Nat) (first : Bool) : Bool := 5 < fmt || first || (pi ≠ 0 && pi ≠ 1 && pi ≠ 3) || (pi ≠ 0 && fmt % 3 = 0)

/-- The lowest NSID that is free. -/
def State.freeNsid (s : State) : Option Nat := ((List.range 16).map (· + 1)).find? (fun n => (s.nv.nses.find? n).isNone)

/-- Namespace Management runs: `sel` 0 creates, 1 deletes. -/
def State.manageNs (s : State) (id : Cid) (sel nsid size fmt dps : Nat) : State :=
  if sel = 0 then
    match s.freeNsid with
    | none => s.fail id 1 0x16
    | some n =>
      if s.nv.tnvmcap.getD 0 < s.nsBytes + size * fmtBytes fmt then s.fail id 1 0x15
      else State.okRec { s with nv := { s.nv with nses := s.nv.nses.put n ⟨size, fmt, dps, false⟩ } } id n 0 []
  else
    let ks := if nsid = 0xFFFFFFFF then s.nv.nses.map (·.1) else [nsid]
    let s1 := ks.foldl (fun s k =>
      let s1 := ((s.unmapNs k).resetAppends k).nsNote k
      { s1 with nv := { s1.nv with nses := s1.nv.nses.del k } }) s
    s1.freeBandsNow.okRec id 0 0 []

/-- Checks of Namespace Management and its run. -/
def State.askManageNs (s : State) (local' : Bool) (id : Cid) (sel nsid size cap fmt dps : Nat) : State :=
  s.judge id
    [(s.follows && id.src ≠ .relay, (0, 0x0C, 0)),
     (sel = 0 && badFormat fmt (dps % 8) (bit dps 3), (1, 0x0A, 0)), (sel = 0 && size ≠ cap, (1, 0x1B, 0)),
     (sel = 1 && nsid ≠ 0xFFFFFFFF && (s.nv.nses.find? nsid).isNone, (0, 0x0B, 0))]
    (fun s => if s.leads && !local' then s.relay RL_NS_MGMT id [sel, nsid, size, cap, fmt, dps] else s.manageNs id sel nsid size fmt dps)

/-- Namespace Management. -/
def execNamespaceManagement (id : Cid) (sel nsid size cap fmt dps : Nat) (bad : Bool) (s : State) : Host.Outcome State Fault Refusal :=
  done (s.arrive id (fun s => s.judge id
    [hostAdminOnly id, badField (bad || 1 < sel || (sel = 0 && size = 0)), s.modeCheck [Md.IDLE, Md.SERVICE],
     (s.secLocked, (7, 0x83, 0)), s.sanitCheck]
    (fun s => s.askManageNs false id sel nsid size cap fmt dps)))

/-- Namespace Attachment runs: `sel` 0 attaches, 1 detaches. -/
def State.attachNs (s : State) (id : Cid) (sel nsid : Nat) : State :=
  match s.nv.nses.find? nsid with
  | none => s.fail id 0 0x0B
  | some n =>
    if sel = 0 && n.attached then s.fail id 1 0x18
    else if sel = 1 && !n.attached then s.fail id 1 0x1A
    else State.ok (State.nsNote { s with nv := { s.nv with nses := s.nv.nses.put nsid { n with attached := sel = 0 } } } nsid) id 0 0 []

/-- Checks of Namespace Attachment and its run. -/
def State.askAttachNs (s : State) (local' : Bool) (id : Cid) (sel nsid : Nat) : State :=
  if s.follows && id.src ≠ .relay then s.fail id 0 0x0C
  else if s.leads && !local' then s.relay RL_NS_ATTACH id [sel, nsid]
  else s.attachNs id sel nsid

/-- Namespace Attachment to the one controller. -/
def execNamespaceAttachment (id : Cid) (sel nsid : Nat) (bad : Bool) (s : State) : Host.Outcome State Fault Refusal :=
  done (s.arrive id (fun s => s.judge id
    [hostAdminOnly id, badField (bad || 1 < sel), ((s.nv.nses.find? nsid).isNone, (0, 0x0B, 0)), s.modeCheck [Md.IDLE, Md.SERVICE],
     s.sanitCheck]
    (fun s => s.askAttachNs false id sel nsid)))

/-! ### Format NVM and Sanitize (R537, R538) -/

/-- A crypto erase: new stream keys, every namespace unmapped, every take and entry gone but the last take number. -/
def State.cryptoErase (s : State) : State :=
  let ks := s.nv.nses.map (·.1)
  let s1 := ks.foldl (fun s k => (s.unmapNs k).resetAppends k) s
  let s1 : State := { s1 with
    map := { s1.map with ts := { s1.map.ts with takes := [], entries := [] } }
    net := { s1.net with tracks := [] } }
  { s1 with nv := { s1.nv with ts := { s1.map.ts with seq := s1.nv.ts.seq }, divTakes := [] } }

/-- R538: in VOID, a new magazine key: the device is BLANK. -/
def State.leaveVoid (s : State) : State :=
  if s.secState = 4 then
    State.setSec { s with nv := { s.nv with
      voided := false, owner := none, recovery := 0, dbgKey := 0, carryOk := false, carryHours := 0, ownerLeft := 8, recLeft := 8 } } 0
  else s

/-- A format that a Format NVM gives a namespace; its bytes stay the same. -/
def Ns.reformat (n : Ns) (fmt pi : Nat) : Ns := { n with size := n.size * fmtBytes n.fmt / fmtBytes fmt, fmt := fmt, dps := pi }

/-- Format NVM runs. -/
def State.formatNs (s : State) (id : Cid) (nsid fmt ses pi : Nat) : State :=
  let ks := if nsid = 0xFFFFFFFF then s.nv.nses.map (·.1) else [nsid]
  let s1 := s.dropTest 4
  let s1 := if ses = 1 then s1.cryptoErase.leaveVoid else (ks.foldl (fun s k => (s.unmapNs k).resetAppends k) s1).leaveVoid
  let s1 := ks.foldl (fun s k => match s.nv.nses.find? k with
    | some n => State.nsNote { s with nv := { s.nv with nses := s.nv.nses.put k (n.reformat fmt pi) } } k
    | none => s) s1
  let all := s1.nv.nses.all (fun e => ks.contains e.1)
  State.okRec (State.freeBandsNow { s1 with nv := { s1.nv with remake := s1.nv.remake || all } }) id 0 0 []

/-- Checks of Format NVM that concern the pair, and its run. -/
def State.askFormat (s : State) (local' : Bool) (id : Cid) (nsid fmt ses pi : Nat) : State :=
  if s.follows && id.src ≠ .relay then s.fail id 0 0x0C
  else if s.leads && !local' then s.relay RL_FORMAT id [nsid, fmt, ses, pi]
  else s.formatNs id nsid fmt ses pi

/-- Format NVM. -/
def execFormatNvm (id : Cid) (nsid lbaf ses pi : Nat) (first bad : Bool) (s : State) : Host.Outcome State Fault Refusal :=
  done (s.arrive id (fun s => s.judge id
    [hostAdminOnly id, (nsid ≠ 0xFFFFFFFF && (s.ns? nsid).isNone, (0, 0x0B, 0)), badField (bad || 1 < ses),
     (badFormat lbaf pi first, (1, 0x0A, 0)), s.modeCheck [Md.IDLE, Md.SERVICE], (s.secLocked, (7, 0x83, 0)), s.sanitCheck]
    (fun s => s.askFormat false id nsid lbaf ses pi)))

/-- Every band is erased in class 6: its records are journaled, and what the buffer and the arbiter hold of it is dropped. -/
def State.eraseBands (s : State) : State :=
  let bs := (s.map.ts.bands.filter (fun e => e.2.state ≠ .bootRsv)).map (·.1)
  let s1 : State := { s with
    slots := s.slots.filter (fun x => x.lst = .filling || x.lst = .mirror)
    bud := { s.bud with ops := s.bud.ops.filter (fun o => o.kind = .erase || o.why = .sealBlock || o.phase = .running || o.phase = .suspended) }
    map := { s.map with groups := [], pages := [], victims := [], relocRead := [], relocBuf := [], urgent := [], refresh := [], consol := [] } }
  let s1 := bs.foldl (fun s b => s.forceNote (.band b (s.map.ts.band b).group 2)) s1
  let s1 := bs.foldl State.askErase s1
  State.freeSeals { s1 with nv := { s1.nv with sealPages := s1.nv.sealPages.map (fun p => { p with used := true }) } }

/-- Sanitize runs: `act` 2 block erase, 4 crypto erase; 1 leaves a failed state. A crypto erase is complete at once. -/
def State.sanitize (s : State) (id : Cid) (act cdw10 : Nat) : State :=
  if act = 1 then s.ok id 0 0 []
  else
    let s1 := (s.dropTest 4).cryptoErase.leaveVoid
    let s1 : State := { s1 with nv := { s1.nv with remake := true, sanitDw := cdw10, sanit := if act = 2 then 2 else 1 } }
    let s1 := s1.okRec id 0 0 []
    if act = 2 then
      let s2 := s1.eraseBands
      if s2.map.ts.bands.any (fun e => e.2.state = .dirty) then s2
      else (State.raise { s2 with nv := { s2.nv with sanit := 1 } } E.SEC_SANITIZE_DONE).aen ⟨6, 1, 0x81⟩
    else (s1.freeBandsNow.raise E.SEC_SANITIZE_DONE).aen ⟨6, 1, 0x81⟩

/-- Checks of Sanitize that concern the pair, and its run. -/
def State.askSanitize (s : State) (local' : Bool) (id : Cid) (act cdw10 : Nat) : State :=
  if s.follows && id.src ≠ .relay then s.fail id 0 0x0C
  else if s.leads && !local' then s.relay RL_SANITIZE id [act, cdw10]
  else s.sanitize id act cdw10

/-- Sanitize; overwrite is not supported (Table 07-2). -/
def execSanitize (id : Cid) (act cdw10 : Nat) (bad : Bool) (s : State) : Host.Outcome State Fault Refusal :=
  done (s.arrive id (fun s => s.judge id
    [hostAdminOnly id, badField (bad || (act ≠ 1 && act ≠ 2 && act ≠ 4)), s.modeCheck [Md.IDLE, Md.SERVICE],
     (s.secLocked, (7, 0x83, 0)), s.sanitCheck]
    (fun s => s.askSanitize false id act cdw10)))

/-! ### Device Self-test (R216, R217, R589, R590) -/

/-- Device Self-test: 1 short, 2 extended, 15 abort. -/
def execDeviceSelfTest (id : Cid) (nsid stc : Nat) (s : State) : Host.Outcome State Fault Refusal :=
  done (s.arrive id (fun s => s.judge id
    [hostAdminOnly id, badField (stc ≠ 1 && stc ≠ 2 && stc ≠ 15),
     (nsid ≠ 0 && nsid ≠ 0xFFFFFFFF && (s.ns? nsid).isNone, (0, 0x0B, 0)),
     (stc ≠ 15 && (!s.ready Fn.SELFTEST || s.mode = Md.WAKE || s.mode = Md.UPDATE), (7, 0x81, s.mode)),
     (stc ≠ 15 && s.nv.sanit = 2, (0, 0x1D, 0)),
     (stc ≠ 15 && s.tst.kind ≠ 0, (1, 0x1D, 0))]
    (fun s =>
      if stc = 15 then (s.dropTest 1).ok id 0 0 []
      else State.ok { s with tst := { kind := stc, seg := 1, defer := stc = 2 && s.mode = Md.RECORD, nsid := nsid } } id 0 0 [])))

end Sys2Proof.Machine
end

