-- ==== Sys2Proof/Machine/Dram.lean ====
section
/-!
DEFINITION. The DRAM controller (chapter 11): the address path, initialisation on demand and by the sweep, the write queue with its
two ordering modes, the open rows, refresh, periodic training, error handling and the patrol.
-/

namespace Sys2Proof.Machine

/-! ### The address path (R324, R326, R327) -/

/-- Populated channels. -/
def State.dramChans (s : State) : Nat := ((List.range 4).filter (s.getBit F.DRAMC_GEOM_CHANNELS)).length

/-- Bytes of the data space. -/
def State.dramSize (s : State) : Nat := s.get F.DRAMC_SIZE_BYTES

/-- Physical 64 KiB regions of all channels. -/
def State.dramRegions (s : State) : Nat := s.dramSize * 8 / 7 / 65536

/-- Where a logical address lies: its channel and its channel-local physical address (R326). -/
def State.dramPlace (s : State) (l : Nat) : Nat × Nat :=
  let g := 256 * 2 ^ s.get F.DRAMC_CFG_GRAIN
  let c := max 1 s.dramChans
  let lc := l / (c * g) * g + l % g
  let k := lc / 64
  (l / g % c, k / 7 * 512 + k % 7 * 64 + lc % 64)

/-- The region of physical memory that a logical address lies in, counted over the channels in turn. -/
def State.dramRegion (s : State) (l : Nat) : Nat :=
  let (c, p) := s.dramPlace l
  p / 65536 * max 1 s.dramChans + c

/-- The bank (with its rank) and the row of a physical address (Table 11-3). -/
def State.bankRow (s : State) (p : Nat) : Nat × Nat :=
  let rk := s.get F.DRAMC_GEOM_RANKS2
  let rw := s.get F.DRAMC_GEOM_ROW_BITS
  match s.get F.DRAMC_CFG_ORDER with
  | 0 => (bits p 11 4 + 16 * bits p 15 rk, bits p (15 + rk) rw)
  | 1 => (bits p 8 4 + 16 * bits p 15 rk, bits p (15 + rk) rw)
  | _ => (bits p (11 + rw) 4 + 16 * bits p (15 + rw) rk, bits p 11 rw)

/-! ### Initialisation (R339, R348) -/

/-- A region holds valid check bits. -/
def State.dramInited (s : State) (r : Nat) : Bool := decide (r < s.dram.sweep) || s.dram.inited.contains r

/-- Every region has been initialised. -/
def State.sweepEnd (s : State) : State :=
  if s.get F.DRAMC_STATUS_INIT_DONE = 0 && s.dramRegions ≤ s.dram.sweep then
    (s.set F.DRAMC_STATUS_INIT_DONE 1).raise E.DRAMC_INIT_DONE
  else s

/-- The sweep passes the regions that requests have initialised. -/
def State.sweepOn : Nat → State → State
  | 0, s => s
  | n + 1, s =>
    if s.dram.inited.contains s.dram.sweep then
      State.sweepOn n { s with dram := { s.dram with sweep := s.dram.sweep + 1, inited := s.dram.inited.filter (· ≠ s.dram.sweep) } }
    else s

/-- A request reaches a region: one that is not initialised is, first, with zeros. -/
def State.touchRegion (s : State) (l : Nat) : State :=
  let r := s.dramRegion l
  if s.dramInited r then s
  else
    let s1 : State := { s with dram := { s.dram with inited := s.dram.inited ++ [r] } }
    (State.sweepOn s1.dram.inited.length s1).sweepEnd

/-- DRAM serves requests. -/
def State.dramOn (s : State) : Bool := s.ready Fn.DRAM && s.isl 7 = 2

/-- The sweep initialises the next region; it ends at Rest and stops in Seal. -/
def execDramInitSweep (s : State) : Host.Outcome State Fault Refusal :=
  done (if s.dramOn && s.mode ≠ Md.SEAL && s.mode ≠ Md.REST && s.dram.sweep < s.dramRegions then
    let s1 : State := { s with dram := { s.dram with sweep := s.dram.sweep + 1 } }
    (State.sweepOn s1.dram.inited.length s1).sweepEnd
  else s)

/-- The regions that hold the read cache, and what lies beyond them, lose their check bits (R530). -/
def State.dropReadCache (s : State) : State :=
  let base := 1048576 * (s.get F.DRAMC_REGION_A_MAP_MIB + s.get F.DRAMC_REGION_A_JOURNAL_MIB + s.get F.DRAMC_REGION_A_CORE_MIB +
    s.get F.DRAMC_REGION_A_FINDEX_MIB)
  let first := ceilDiv (s.dramRegion base) (max 1 s.dramChans) * max 1 s.dramChans
  let s1 : State := { s with dram := { s.dram with
    sweep := min s.dram.sweep first, inited := s.dram.inited.filter (fun r => decide (r < first))
    mem := s.dram.mem.filter (fun c => decide (c.1 < base)), poison := s.dram.poison.filter (fun k => decide (64 * k < base)) } }
  if s1.dram.sweep < s1.dramRegions then s1.set F.DRAMC_STATUS_INIT_DONE 0 else s1

/-! ### Rows (R334) -/

/-- The clients whose accesses carry the page hint (Table 11-5). -/
def hinted (client : Nat) : Bool := [1, 3, 4, 5, 6].contains client

/-- An access reaches a row: under HINT an access with the hint leaves it open, every other access closes it after. -/
def State.touchRow (s : State) (client l : Nat) : State :=
  let (c, p) := s.dramPlace l
  let (b, r) := s.bankRow p
  let rest := s.dram.rows.filter (fun x => !(x.1 = c && x.2.1 = b))
  { s with dram := { s.dram with rows := if s.getBit F.DRAMC_PAGE_POLICY c && hinted client then rest ++ [(c, b, r)] else rest } }

/-- IDLE_NS have passed without an access: the open row of a bank is closed. -/
def execPageIdleTimeout (chan bank : Nat) (s : State) : Host.Outcome State Fault Refusal :=
  done { s with dram := { s.dram with rows := s.dram.rows.filter (fun x => !(x.1 = chan && x.2.1 = bank)) } }

/-! ### Errors (R328, R340, R393) -/

/-- DRAMC.LAST_ERR. -/
def State.dramErr (s : State) (kind client addr : Nat) : State :=
  ((s.set F.DRAMC_LAST_ERR_KIND kind).set F.DRAMC_LAST_ERR_CLIENT client).set F.DRAMC_LAST_ERR_ADDR addr

/-- R328: an address at or beyond SIZE. -/
def State.badAddr (s : State) (client addr : Nat) : State := (s.dramErr 3 client addr).raise E.DRAMC_BAD_ADDR

/-- R393: poisoned data reaches its client: a fatal fault for JOURNAL and CORES, and an integrity record in every case. INTERNAL
writes it back poisoned. -/
def State.poisoned (s : State) (client addr : Nat) : State :=
  let s1 := s.integrity ⟨s.tb, 10, 8, 0xFF, 0xFF, addr, 0, 0⟩
  let s1 := if client = 7 then { s1 with dram := { s1.dram with poison := (s1.dram.poison ++ [addr / 64]).eraseDups } } else s1
  if client = 1 || client = 5 then s1.quarantine 4 client 0x16 else s1

/-! ### Requests (R330 to R333, R345, R346) -/

/-- The channel of a logical address. -/
def State.dramChan (s : State) (l : Nat) : Nat := (s.dramPlace l).1

/-- A client is served in FORWARD mode. -/
def State.forwards (s : State) (client : Nat) : Bool :=
  client = 0 || client = 7 || (1 ≤ client && client ≤ 6 && s.getBit F.DRAMC_ORDERING (client - 1))

/-- R333: a write finds an entry: eight are reserved for MCACHE. -/
def State.queueRoom (s : State) (w : DramWrite) : Bool :=
  let q := s.dram.queue.filter (fun x => s.dramChan x.addr = s.dramChan w.addr)
  let other := (q.filter (fun x => x.client ≠ 0)).length
  q.length < 64 && (w.client = 0 || other < 56)

/-- Writes that wait are accepted in order while there is room; a SOURCE client's later writes wait behind its first. -/
def State.acceptWrites (s : State) : State :=
  s.dram.waiting.foldl (fun s w =>
    let held := s.dram.waiting.any (fun x => x.n < w.n && x.client = w.client && !w.fwd)
    if s.queueRoom w && !held then
      { s with dram := { s.dram with queue := s.dram.queue ++ [w], waiting := s.dram.waiting.filter (fun x => x.n ≠ w.n) } }
    else s) s

/-- A client's write of up to 64 bytes within one chunk. -/
def execDramWrite (client addr : Nat) (data : List Nat) (poison : Bool) (s : State) : Host.Outcome State Fault Refusal :=
  done (if !s.dramOn || 7 < client then s
    else if s.dramSize ≤ addr then s.badAddr client addr
    else
      let s1 := s.touchRegion addr
      let w : DramWrite := ⟨s1.dram.nextW, client, s1.forwards client, addr, data.take (64 - addr % 64), poison⟩
      State.acceptWrites { s1 with dram := { s1.dram with nextW := s1.dram.nextW + 1, waiting := s1.dram.waiting ++ [w] } })

/-- R331, R332: the queued writes that a read of a chunk by a client is served from, oldest first. -/
def State.visibleWrites (s : State) (client addr : Nat) : List DramWrite :=
  s.dram.queue.filter (fun w => w.addr / 64 = addr / 64 && (w.fwd || (w.client = client && !s.forwards client)))

/-- The bytes of a chunk as a read sees them: DRAM with the writes it is served from merged (R346). -/
def State.chunkBytes (s : State) (client addr n : Nat) : List Nat :=
  let m := (s.visibleWrites client addr).foldl (fun m w => m.writeBytes w.addr w.data) s.dram.mem
  m.bytes addr (min n (64 - addr % 64))

/-- A chunk that a read finds poisoned: in the newest write it is served from, or in DRAM. -/
def State.chunkPoison (s : State) (client addr : Nat) : Bool :=
  (s.visibleWrites client addr).any (·.poison) || s.dram.poison.contains (addr / 64)

/-- A read served from DRAM meets errors: 1 corrected, 2 or more uncorrectable (3 the address tag or its check). -/
def State.dramReadErr (s : State) (client addr err : Nat) (bad : Bool) : State :=
  let c := s.dramChan addr
  if bad || 2 ≤ err then
    ((((s.incPart F.DRAMC_ECC_UE_COUNT c 16).dramErr 2 client addr).raise E.DRAMC_ECC_UE)).poisoned client addr
  else if err = 1 then ((s.incPart F.DRAMC_ECC_CE_COUNT c 16).dramErr 1 client addr).raise E.DRAMC_ECC_CE
  else s

/-- A read of up to 64 bytes within one chunk, by a client; `err` is what the check finds where DRAM serves it. -/
def State.dramRead (s : State) (client addr n err : Nat) : State :=
  if s.dramSize ≤ addr then State.badAddr { s with dram := { s.dram with rdata := List.replicate n 0, rpoison := false } } client addr
  else
    let s1 := s.touchRegion addr
    let hit := s1.visibleWrites client addr ≠ []
    let bad := s1.chunkPoison client addr || (!hit && 2 ≤ err)
    let s1 : State := { s1 with dram := { s1.dram with rdata := s1.chunkBytes client addr n, rpoison := bad } }
    if hit then
      let s2 := s1.addWrap F.DRAMC_FWD_COUNT 1
      if bad then s2.dramReadErr client addr 0 true else s2
    else ((s1.touchRow client addr).addWrap F.DRAMC_TRAFFIC_BYTES_64 1).dramReadErr client addr err bad

/-- A client's read. -/
def execDramRead (client addr n err : Nat) (s : State) : Host.Outcome State Fault Refusal :=
  done (if s.dramOn && client ≤ 7 then s.dramRead client addr n err else s)

/-- R331, R332: a queued write may be issued: no older one for its chunk is queued, and a SOURCE client's are issued in order. -/
def State.mayIssue (s : State) (w : DramWrite) : Bool :=
  !s.dram.queue.any (fun x => x.n < w.n && (x.addr / 64 = w.addr / 64 || (!w.fwd && x.client = w.client)))

/-- A queued write is issued to DRAM. -/
def execDramWriteIssued (n : Nat) (s : State) : Host.Outcome State Fault Refusal :=
  done (match s.dram.queue.find? (fun w => w.n = n) with
    | none => s
    | some w =>
      if !s.dramOn || !s.mayIssue w then s
      else
        let k := w.addr / 64
        let whole := w.data.length = 64
        let bad := w.poison || (!whole && s.dram.poison.contains k)
        let rest := s.dram.poison.filter (· ≠ k)
        let s1 : State := { s with dram := { s.dram with
          mem := s.dram.mem.writeBytes w.addr w.data
          poison := if bad then rest ++ [k] else rest
          queue := s.dram.queue.filter (fun x => x.n ≠ n) } }
        ((s1.touchRow w.client w.addr).addWrap F.DRAMC_TRAFFIC_BYTES_64 1).acceptWrites)

/-! ### Refresh, training and the patrol (R335 to R338, R344, R347, R392) -/

/-- R344: the page's commit can be adopted on every channel: the windows of all have begun, and no client whose mode changes has a
write queued. -/
def State.dramAdopts (s : State) : Bool :=
  (List.range s.dramChans).all s.dram.win.contains &&
    !(s.adopt.any (fun e => e.1 = F.DRAMC_ORDERING.key && s.dram.queue.any (fun w => 1 ≤ w.client && w.client ≤ 6 &&
      bit e.2 (w.client - 1) ≠ s.getBit F.DRAMC_ORDERING (w.client - 1))))

/-- A refresh window of a channel begins: its rows are closed, and a live commit is adopted once every channel's has (R344); none in
Seal (R64). -/
def execDramRefreshWindow (chan : Nat) (s : State) : Host.Outcome State Fault Refusal :=
  done (if !s.dramOn then s
    else
      let s1 : State := { s with dram := { s.dram with
        rows := s.dram.rows.filter (fun x => x.1 ≠ chan)
        win := if s.mixed Pg.DRAMC && chan < s.dramChans then (s.dram.win ++ [chan]).eraseDups else [] } }
      if s1.mixed Pg.DRAMC && s1.mode ≠ Md.SEAL && s1.dramAdopts then
        State.adoptPage { s1 with dram := { s1.dram with win := [] } } Pg.DRAMC
      else s1)

/-- MR4 of every rank: 0 ×1, 1 ×0.5, 2 ×0.25, 3 above the operating limit. -/
def execMr4Poll (rates : List Nat) (s : State) : Host.Outcome State Fault Refusal :=
  done (if !s.dramOn then s
    else (List.range (min 8 rates.length)).foldl (fun s i =>
      let r := rates.getD i 0
      let s1 := s.setPart F.DRAMC_TEMP_RATE i 2 (min r 2)
      if 3 ≤ r then (s1.inc F.DRAMC_TEMP_HIGH_COUNT).raise E.DRAMC_TEMP_HIGH else s1) s)

/-- Periodic training of a channel: its delays are nudged where the drift exceeds DRIFT_PS. -/
def execPeriodicTraining (chan driftPs : Nat) (s : State) : Host.Outcome State Fault Refusal :=
  done (if s.dramOn && s.mode ≠ Md.SEAL && s.get F.DRAMC_REFRESH_RETRAIN_MS ≠ 0 && chan < s.dramChans then
    s.raiseIf (decide (s.get F.DRAMC_REFRESH_DRIFT_PS < driftPs)) E.DRAMC_RETRAIN
  else s)

/-- The modes in which the patrol runs (R392). -/
def State.patrols (s : State) : Bool :=
  s.dramOn && s.get F.SCRUB_CFG_DRAM_PATROL_H ≠ 0 && s.mode ≠ Md.REST && s.mode ≠ Md.SEAL && s.mode ≠ Md.KEEP &&
    (s.mode ≠ Md.WAKE || s.get F.DRAMC_STATUS_INIT_DONE = 1)

/-- The patrol reads its next chunk as INTERNAL. -/
def execDramPatrol (err : Nat) (s : State) : Host.Outcome State Fault Refusal :=
  done (if !s.patrols || s.dramSize = 0 then s
    else
      let addr := if s.dramSize ≤ s.dram.patrol then 0 else s.dram.patrol
      let s1 := s.dramRead 7 addr 64 err
      let s1 := { s1 with dram := { s1.dram with rdata := s.dram.rdata, rpoison := s.dram.rpoison } }
      if s.dramSize ≤ addr + 64 then State.addSat { s1 with dram := { s1.dram with patrol := 0 } } F.SCRUB_DRAM_PASSES_COUNT 1
      else { s1 with dram := { s1.dram with patrol := addr + 64 } })

/-- DRAMC.CLR.GO: 0x148 to 0x170. -/
def execDramcClr (who : Req) (s : State) : Host.Outcome State Fault Refusal :=
  done (s.rwAction who Pg.DRAMC 0x178 (fun s => s.clear
    [F.DRAMC_TEMP_HIGH_COUNT, F.DRAMC_TEMP_RATE, F.DRAMC_ECC_CE_COUNT, F.DRAMC_ECC_UE_COUNT, F.DRAMC_LAST_ERR_KIND,
     F.DRAMC_LAST_ERR_CLIENT, F.DRAMC_LAST_ERR_ADDR, F.DRAMC_FWD_COUNT, F.DRAMC_TRAFFIC_BYTES_64]))

end Sys2Proof.Machine
end

