-- ==== Sys2Proof/Machine/Sec.lean ====
section
/-!
DEFINITION. Security, owners and debug (chapter 18): the owner commands with their attempts, carry, tamper, the removal of keys, and
the debug level. Wrapping a key is modelled by the secret it takes to unwrap it.
-/

namespace Sys2Proof.Machine

/-! ### Changes of state (R520, R530, R536, R548) -/

/-- A state is entered with what it takes with it: VOID destroys every wrapped copy of the magazine key; a half of a pair that loses
its keys leaves it, and one that regains them pairs again; INGEST follows the keys (R545). -/
def State.toSec (s : State) (v : Nat) : State :=
  let s1 : State := if v = 4 then { s with nv := { s.nv with
      voided := true, owner := none, recovery := 0, dbgKey := 0, carryOk := false, carryHours := 0, carryKey := false } } else s
  let s1 := s1.setSec v
  if v = 2 || v = 4 then
    (if s1.get F.PAIR_STATUS_ALIGNED = 1 then s1.pairLeave false 2 else s1)
  else
    let s1 := if s1.needsOk Fn.INGEST && s1.isl 3 = 2 && !s1.ready Fn.INGEST then s1.setReady Fn.INGEST else s1
    if s1.get F.PAIR_STATUS_ALIGNED = 1 && s1.pair.pstate = 2 then s1.pairLinkDown 1 else s1

/-- The keys are about to go: the state to come waits for the buffer to drain (R530). -/
def State.lockTo (s : State) (v : Nat) (id : Option Cid) : State :=
  { s with sec := { s.sec with goal := some (v, match s.sec.goal with
    | some (_, some c) => some c
    | _ => id) } }

/-- What R530 waits for: no I/O command is outstanding, and the lists of the buffer are empty. -/
def State.keysIdle (s : State) : Bool := !s.ioBusy && s.slots = [] && s.led.reqs = []

/-- The key slots and the magazine key are zeroised, and the read cache with them; the state changes, and the Owner Lock that
waited completes. -/
def execKeyZeroise (s : State) : Host.Outcome State Fault Refusal :=
  done (match s.sec.goal with
    | some (v, id) =>
      if s.keysIdle then
        let s1 := (State.toSec { s with sec := { s.sec with goal := none } } v).dropReadCache
        match id with
        | some c => s1.ok c 0 0 []
        | none => s1
      else s
    | none => s)

/-! ### The credential block (R526, Table 18-3) -/

/-- Bytes of a credential block as a number. -/
def credField (b : List Nat) (lo n : Nat) : Nat := ofBytes ((b.drop lo).take n)

/-- OP. -/
def credOp (b : List Nat) : Nat := b.getD 1 0
/-- SECRET. -/
def credSecret (b : List Nat) : Nat := credField b 4 64
/-- NEW_SECRET. -/
def credNew (b : List Nat) : Nat := credField b 68 64
/-- RECOVERY. -/
def credRecovery (b : List Nat) : Nat := credField b 132 32
/-- DBG_KEY. -/
def credDbg (b : List Nat) : Nat := credField b 164 97

/-- R526: the block is malformed. -/
def badCred (b : List Nat) : Bool :=
  let op := credOp b
  b.length ≠ 512 || b.getD 0 0 ≠ 1 || 3 < op || credField b 2 2 ≠ 0 || credField b 261 247 ≠ 0 ||
    credField b 508 4 ≠ crc32c (b.take 508) ||
    (if op = 3 then credSecret b ≠ 0 else credSecret b = 0) ||
    (op < 2 && credNew b ≠ 0) || (op = 0 && credRecovery b ≠ 0) || ((op = 1 || op = 3) && credRecovery b = 0) ||
    ((op = 0 || op = 3) && credDbg b ≠ 0) || (credDbg b ≠ 0 && b.getD 164 0 ≠ 4)

/-! ### Attempts (R528) -/

/-- A credential is rejected: counted, and completed 1 s after the command was received. -/
def State.credReject (s : State) (id : Cid) (left : Nat) : State :=
  State.raise (State.inc { s with sec := { s.sec with rejects := s.sec.rejects ++ [(id, left)] } } F.SEC_CRED_FAILS_COUNT) E.SEC_CRED_REJECT

/-- A check of the owner's secret. -/
def State.tryOwner (s : State) (id : Cid) (secret : Nat) (f : State → State) : State :=
  if s.nv.ownerLeft = 0 then s.vendor id 0x8C 0
  else if s.nv.owner = some secret then f (State.showSec { s with nv := { s.nv with ownerLeft := 8 } })
  else
    let left := s.nv.ownerLeft - 1
    State.credReject (State.showSec { s with nv := { s.nv with ownerLeft := left } }) id left

/-- A check of the recovery key; the last failed one destroys the keys. -/
def State.tryRecovery (s : State) (id : Cid) (key : Nat) (f : State → State) : State :=
  if s.nv.recovery = key && s.nv.owner.isSome then
    f (State.showSec { s with nv := { s.nv with ownerLeft := 8, recLeft := 8 } })
  else
    let left := s.nv.recLeft - 1
    let s1 := State.credReject (State.showSec { s with nv := { s.nv with recLeft := left } }) id left
    if left = 0 then s1.toSec 4 else s1

/-- One second after its command was received, a rejection completes with the attempts left. -/
def execCredentialRejectionDelay (id : Cid) (s : State) : Host.Outcome State Fault Refusal :=
  done (match s.sec.rejects.find? (fun x => x.1 = id) with
    | some (_, left) => State.vendor { s with sec := { s.sec with rejects := s.sec.rejects.filter (fun x => x.1 ≠ id) } } id 0x8C left
    | none => s)

/-! ### Owner Lock and Owner Unlock (R527, R532, Table 18-4) -/

/-- The carry policy of an Owner Lock. -/
def State.setPolicy (s : State) (ok : Bool) (hours : Nat) : State :=
  State.showSec { s with nv := { s.nv with carryOk := ok, carryHours := hours % 16 } }

/-- Owner Lock in the states that take it. -/
def State.ownerLock (s : State) (id : Cid) (ok : Bool) (hours : Nat) (b : List Nat) : State :=
  match s.secState, credOp b with
  | 0, 1 =>
    (State.setPolicy { s with nv := { s.nv with
      owner := some (credSecret b), recovery := credRecovery b, dbgKey := credDbg b, ownerLeft := 8, recLeft := 8 } } ok hours).lockTo 2 (some id)
  | 1, 0 => s.tryOwner id (credSecret b) (fun s => (s.setPolicy ok hours).lockTo 2 (some id))
  | 1, 2 => s.tryOwner id (credSecret b) (fun s =>
      (State.setPolicy { s with nv := { s.nv with
        owner := some (credNew b)
        recovery := if credRecovery b = 0 then s.nv.recovery else credRecovery b
        dbgKey := if credDbg b = 0 then s.nv.dbgKey else credDbg b } } ok hours).lockTo 2 (some id))
  | _, _ => s.vendor id 0x83 0

/-- Owner Lock. -/
def execOwnerLock (id : Cid) (carryOk : Bool) (hours : Nat) (cred : List Nat) (bad short : Bool) (s : State) :
    Host.Outcome State Fault Refusal :=
  done (s.arrive id (fun s => s.judge id
    [hostAdminOnly id, badField (bad || badCred cred || (carryOk && (hours = 0 || 8 < hours))), badLength short,
     s.modeCheck [Md.IDLE, Md.SERVICE], (s.sec.goal.isSome, (7, 0x83, 0)), s.sanitCheck]
    (fun s => s.ownerLock id carryOk hours cred)))

/-- Carry is armed (R532). -/
def State.armCarry (s : State) : State :=
  (State.set { s with keep := { s.keep with cs := true, carryHours := s.nv.carryHours }, nv := { s.nv with carryKey := true } }
    F.SEC_STATUS_CARRY_ARMED 1).draw

/-- Owner Unlock in the states that take it. -/
def State.ownerUnlock (s : State) (id : Cid) (arm : Bool) (b : List Nat) : State :=
  let carry (s : State) : State := if arm then s.armCarry else s
  match s.secState, credOp b with
  | 2, 0 => s.tryOwner id (credSecret b) (fun s => (carry (s.toSec 1)).ok id 0 0 [])
  | 2, 3 => s.tryRecovery id (credRecovery b) (fun s =>
      (carry (State.toSec { s with nv := { s.nv with owner := some (credNew b) } } 1)).ok id 0 0 [])
  | 1, 0 => s.tryOwner id (credSecret b) (fun s => (if arm then s.armCarry else s.disarm).ok id 0 0 [])
  | _, _ => s.vendor id 0x83 0

/-- Owner Unlock. -/
def execOwnerUnlock (id : Cid) (arm : Bool) (cred : List Nat) (bad short : Bool) (s : State) : Host.Outcome State Fault Refusal :=
  done (s.arrive id (fun s => s.judge id
    [hostAdminOnly id, badField (bad || badCred cred), badLength short,
     s.modeCheck [Md.WAKE, Md.IDLE, Md.RECORD, Md.REVIEW, Md.OFFLOAD, Md.GROOM, Md.SERVICE],
     (s.secState = 0, (0, 0x0C, 0)), (s.sec.goal.isSome || (arm && !s.nv.carryOk), (7, 0x83, 0))]
    (fun s => s.ownerUnlock id arm cred)))

/-! ### Carry and tamper (R532 to R536) -/

/-- The countdown reaches 0: KEEP zeroises CS. -/
def execCarryExpired (s : State) : Host.Outcome State Fault Refusal :=
  done (if s.keep.carryLeft.isSome then { s with keep := { s.keep with cs := false, carryLeft := none } } else s)

/-- R535: what a tamper action makes of a state; `none` for nothing. -/
def tamperGoal (action st : Nat) : Option Nat :=
  match action, st with
  | 1, 1 => some 2
  | 2, 0 => some 4
  | 2, 1 => some 4
  | 2, 2 => some 4
  | _, _ => none

/-- The action of a tamper event, where SEC is set: one that removes loaded keys goes through Quarantine (R536). -/
def State.tamperAct (s : State) (action : Nat) : State :=
  match tamperGoal action s.secState with
  | none => s
  | some v =>
    if s.secState = 2 then s.toSec v
    else if s.mode = Md.REST then s.toSec v
    else (s.quarantine 7 action 0x17).lockTo v none

/-- SEC.TAMPER_LOG after tamper events. -/
def State.showTamper (s : State) : State :=
  (((s.set F.SEC_TAMPER_LOG_COUNT s.nv.tampers).set F.SEC_TAMPER_LOG_KEEP_SEC s.keep.tamperSec).set F.SEC_STATUS_TAMPER_LATCHED 1).raise
    E.SEC_TAMPER

/-- TAMPER_N at its filter. A falling edge is a tamper event where it is enabled; in Keep, in Seal and before SEC sets, KEEP holds the
action and the events not yet stored. -/
def execTamperN (low : Bool) (s : State) : Host.Outcome State Fault Refusal :=
  done (
    let s1 : State := { s with pins := { s.pins with tamperN := !low } }
    if !low || !s.pins.tamperN || !s.nv.tamperEn then s1
    else
      let later := s.mode = Md.KEEP || s.mode = Md.SEAL || !s.ready Fn.SEC
      let s1 := s1.disarm
      let s1 : State := { s1 with keep := { s1.keep with tamperSec := s1.keep.ticks } }
      if later then { s1 with keep := { s1.keep with tampers := min (s1.keep.tampers + 1) 65535, tamperAct := some s1.nv.tamperDo } }
      else
        let s1 : State := { s1 with nv := { s1.nv with tampers := min (s1.nv.tampers + 1) 65535 } }
        s1.showTamper.tamperAct s1.nv.tamperDo)

/-- SEC.CLR.GO. -/
def execSecClr (who : Req) (s : State) : Host.Outcome State Fault Refusal :=
  done (s.rwAction who Pg.SEC 0x148 (fun s => s.clear [F.SEC_STATUS_TAMPER_LATCHED, F.SEC_LOCKED_WRITES_COUNT, F.SEC_CRED_FAILS_COUNT]))

/-! ### The debug level (R539 to R542, R550) -/

/-- DBG.REQ.NEW_CHAL: a fresh challenge, but for 1 s after a failed response. -/
def execNewChal (who : Req) (s : State) : Host.Outcome State Fault Refusal :=
  done (s.rwAction who Pg.DBG 0x100 (fun s =>
    if s.sec.failTb.any (fun t => decide (s.tb < t + 250000000)) then s
    else
      let r := Config.random s.fresh
      (((List.range 6).foldl (fun s i => s.set (F.DBG_CHAL i) (bits r (64 * i) 64)) s).set F.DBG_STATUS_CHAL_VALID 1).draw))

/-- The message that a response signs (R541). -/
def State.dbgMessage (s : State) : List Nat :=
  ((List.range 6).map (fun i => bytesOf 8 (s.get (F.DBG_CHAL i)))).flatten ++ bytesOf 8 s.nv.serial ++
    [s.get F.DBG_RESP_HDR_LEVEL, s.get F.DBG_RESP_HDR_AUTHORITY] ++ bytesOf 4 (s.get F.DBG_RESP_HDR_LIFETIME_S)

/-- The signature of a response. -/
def State.dbgSig (s : State) : List Nat := ((List.range 12).map (fun i => bytesOf 8 (s.get (F.DBG_RESP_SIG i)))).flatten

/-- R540, R541: the response is good. -/
def State.dbgGood (s : State) : Bool :=
  let lv := s.get F.DBG_RESP_HDR_LEVEL
  let au := s.get F.DBG_RESP_HDR_AUTHORITY
  let key := if au = 1 then (if s.nv.vendorOk then some s.nv.vendorKey else none) else if s.nv.dbgKey ≠ 0 then some s.nv.dbgKey else none
  s.get F.DBG_STATUS_CHAL_VALID = 1 && 1 ≤ lv && lv ≤ levelCap au s.secState && 1 ≤ s.get F.DBG_RESP_HDR_LIFETIME_S &&
    s.get F.DBG_RESP_HDR_LIFETIME_S ≤ 86400 && key.any (fun k => Config.ecdsaOk k s.dbgMessage s.dbgSig)

/-- DBG.SUBMIT.GO. -/
def execDbgSubmit (who : Req) (s : State) : Host.Outcome State Fault Refusal :=
  done (s.rwAction who Pg.DBG 0x1A0 (fun s =>
    let s1 := s.set F.DBG_STATUS_CHAL_VALID 0
    if s.dbgGood then
      let au := s.get F.DBG_RESP_HDR_AUTHORITY
      let s1 := (s1.setLevel (s.get F.DBG_RESP_HDR_LEVEL) au).set F.DBG_STATUS_AUTHORITY au
      { s1 with sec := { s1.sec with endTb := s.tb + 250000000 * s.get F.DBG_RESP_HDR_LIFETIME_S } }
    else (State.inc { s1 with sec := { s1.sec with failTb := some s.tb } } F.DBG_FAILS_COUNT).raise E.DBG_AUTH_FAIL))

/-- DBG.REQ.DROP. -/
def execDbgDrop (who : Req) (s : State) : Host.Outcome State Fault Refusal :=
  done (s.rwAction who Pg.DBG 0x100 (fun s => s.toD0))

/-- LIFETIME_S have passed since the grant. -/
def execDebugLifetimeExpired (s : State) : Host.Outcome State Fault Refusal :=
  done (if s.dbgLevel = 0 then s else (s.toD0).raise E.DBG_EXPIRED)

/-- 60 s after its issue a challenge is no longer valid. -/
def execChallengeExpired (s : State) : Host.Outcome State Fault Refusal := done (s.set F.DBG_STATUS_CHAL_VALID 0)

end Sys2Proof.Machine
end

