-- ==== Sys2Proof/Machine/Pair.lean ====
section
/-!
DEFINITION. The pair (chapter 15): its link, roles and states, mirrored slots and records, relayed commands, heartbeat and loss,
convergence, Pair Control; and the arbitration windows (R172), at whose starts beats are counted.
-/

namespace Sys2Proof.Machine

/-! ### Small helpers -/

/-- Puts a number into a list that rises. -/
def insertNat (a : Nat) : List Nat → List Nat
  | [] => [a]
  | b :: l => if a < b then a :: b :: l else if a = b then b :: l else b :: insertNat a l

/-- A list of numbers as one that rises, each number once. -/
def sortNat (l : List Nat) : List Nat := l.foldl (fun l a => insertNat a l) []

/-- The link is aligned. -/
def State.pairUp (s : State) : Bool := s.get F.PAIR_STATUS_ALIGNED = 1 && s.isl 4 = 2

/-! ### Relayed commands (R438) -/

/-- The checks that a relayed command passes on the follow, as a command of its own would (R218). -/
def State.relayChecks (s : State) (cmd : Nat) (args : List Nat) : List (Bool × Why) :=
  if cmd = RL_TAKE_START then
    [badField (args.getD 0 0 ≤ s.lastTakeUsed), (!s.takeMode || s.mc.drain.isSome, (7, 0x81, s.mode)), (s.ioLocked, (7, 0x83, 0)), s.sanitCheck]
  else if cmd = RL_FORMAT || cmd = RL_SANITIZE || cmd = RL_NS_MGMT then
    [s.modeCheck [Md.IDLE, Md.SERVICE], (s.secLocked, (7, 0x83, 0)), s.sanitCheck]
  else if cmd = RL_NS_ATTACH then [s.modeCheck [Md.IDLE, Md.SERVICE], s.sanitCheck]
  else []

/-- A command runs on this half, without being relayed. -/
def State.runHere (s : State) (id : Cid) (cmd : Nat) (args : List Nat) : State :=
  let a (k : Nat) : Nat := args.getD k 0
  if cmd = RL_TAKE_START then s.startTake true id (a 0) (a 1) (a 2)
  else if cmd = RL_TAKE_STOP then s.askStopTake true id (a 0)
  else if cmd = RL_FORMAT then s.askFormat true id (a 0) (a 1) (a 2) (a 3)
  else if cmd = RL_SANITIZE then s.askSanitize true id (a 0) (a 1)
  else if cmd = RL_NS_MGMT then s.askManageNs true id (a 0) (a 1) (a 2) (a 3) (a 4) (a 5)
  else if cmd = RL_NS_ATTACH then s.askAttachNs true id (a 0) (a 1)
  else if cmd = RL_MODE then
    (if s.inTransition then s.holdMode (modeByOf id args) (a 0) else s.runMode true (modeByOf id args) (a 0))
  else s

/-- RELAY: the follow runs the command; its completion goes back as RELAY_DONE. -/
def execRelay (n cmd : Nat) (args : List Nat) (s : State) : Host.Outcome State Fault Refusal :=
  done (if s.pairUp && s.follows then
    let id : Cid := ⟨.relay, n⟩
    if cmd = RL_MODE then s.requestMode (.cmd id) (args.getD 0 0)
    else s.judge id (s.relayChecks cmd args) (fun s => s.runHere id cmd args)
  else s)

/-- RELAY_DONE: the lead runs the command too, or completes it with the follow's status. -/
def execRelayDone (n sct sc : Nat) (s : State) : Host.Outcome State Fault Refusal :=
  done (match (if s.pairUp then s.pair.relays.find? (fun r => r.n = n) else none) with
    | none => s
    | some r =>
      let s1 : State := { s with pair := { s.pair with relays := s.pair.relays.filter (fun x => x.n ≠ n) } }
      if sct = 0 && sc = 0 then s1.runHere r.id r.cmd r.args
      else if r.cmd = RL_MODE then
        match modeByOf r.id r.args with
        | .cmd c => s1.modeRefused.complete c sct sc true 0 0 []
        | b => s1.denyMode b false
      else s1.complete r.id sct sc true 0 0 [])

/-! ### Loss and failover (R445, R446) -/

/-- Mirroring ends without the peer: mirror-pending slots become durable, held completions post, relayed commands run here, what the
peer has not confirmed is marked, and slots that the peer sent but the ledger has not admitted are gone. -/
def State.mirrorEnds (s : State) (pstate : Nat) : State :=
  let keys := (s.slots.filter (fun x => x.lst = .mirror)).map (·.key)
  let relays := s.pair.relays
  let s1 := s.setPstate pstate
  let s1 := (s1.release (fun _ => true)).releaseHeld true
  let s1 : State := State.dropReqs { s1 with pair := { s1.pair with
    relays := [], mine := [], theirs := [], inbox := [], heldEarly := [], lead := true, converging := false, left := []
    takesLeft := [], shapes := [], marked := 0, target := false } } .pair
  let s1 := relays.foldl (fun s r => s.runHere r.id r.cmd r.args) s1
  s1.markSegs keys

/-- R446: loss is declared. The time that failover takes is within 2 µs and not otherwise stated. -/
def State.pairLoss (s : State) (cause : Nat) : State :=
  if s.pair.pstate < 2 then s
  else
    let s1 : State := if s.get F.PAIR_STATUS_ALIGNED = 1 then s.takeDown (some 3) else s
    let s1 := ((s1.inc F.PAIR_BEAT_LOSSES).raise E.PAIR_LOSS)
    let s1 : State := { s1 with pair := { s1.pair with lossCause := cause, failovers := s1.pair.failovers + 1, beats := 0 } }
    let s1 := s1.mirrorEnds 2
    let s1 := ((s1.inc F.PAIR_FAILOVER_COUNT).set F.PAIR_FAILOVER_LAST_NS (Config.undefinedValue s1.fresh % 2001)).draw
    s1.raise E.PAIR_FAILOVER

/-- R445: a mirror-pending slot has waited STALL_MS. -/
def execMirrorStallTimeout (s : State) : Host.Outcome State Fault Refusal :=
  done (if s.mirroring && s.slots.any (fun x => x.lst = .mirror) then s.pairLoss 5 else s)

/-- A mirror-pending slot has waited half of STALL_MS. -/
def execPairStallWarning (s : State) : Host.Outcome State Fault Refusal :=
  done (if s.mirroring && s.slots.any (fun x => x.lst = .mirror) then s.raise E.PAIR_STALL else s)

/-- PR_DET_N is high on two samples: the peer is gone; a half without a pair is ABSENT (Table 15-5). -/
def execPrDetNHigh (s : State) : Host.Outcome State Fault Refusal :=
  done (
    let s1 : State := { s with pins := { s.pins with peerFitted := false } }
    if s.isl 4 = 2 then
      let s2 := s1.pairLoss 4
      let s2 := if s2.get F.PAIR_STATUS_ALIGNED = 1 then s2.takeDown (some 3) else s2
      let s2 := if s2.get F.PAIR_STATUS_FSTATE = 3 then s2 else s2.set F.PAIR_STATUS_FSTATE 0
      if s2.pair.pstate = 0 && s2.get F.PAIR_CTL_EN = 1 then s2.setPstate 1 else s2
    else s1)

/-- PR_DET_N is low: a peer is fitted, and bring-up starts once CONFIG has set. -/
def execPrDetNLow (s : State) : Host.Outcome State Fault Refusal :=
  done (
    let s1 : State := { s with pins := { s.pins with peerFitted := true } }
    let s1 := if s1.pair.pstate = 1 then s1.setPstate 0 else s1
    s1.startPair)

/-- SEAL from the peer. -/
def execPeerSeal (s : State) : Host.Outcome State Fault Refusal :=
  done (if s.pairUp then (s.raise E.PAIR_PEER_SEAL).pairLoss 2 else s)

/-- LEAVE from the peer: a planned one marks nothing. -/
def execLeave (planned : Bool) (s : State) : Host.Outcome State Fault Refusal :=
  done (if !s.pairUp then s
    else if planned then
      let s1 := (s.release (fun _ => true)).releaseHeld true
      (s1.mirrorEnds 0).pairLinkDown (if s.get F.PAIR_CTL_EN = 1 then 1 else 0)
    else s.pairLoss 3)

/-! ### Roles and states (R435, R436, R449) -/

/-- The mapped segments of this half, and its IDENT. -/
def State.ownIdent (s : State) : Ident :=
  { serial := s.nv.serial, peer := s.nv.peer, rank := s.get F.SYS_STRAPS_PAIR_RANK, token := s.pair.token
    feed := s.get F.PAIR_CFG_FEED, nses := s.nv.nses.map (fun e => (e.1, e.2.size, e.2.fmt))
    segs := s.nv.div, takes := s.nv.divTakes, mapped := s.map.ts.segments }

/-- R435: whether this half leads. -/
def State.leadRule (s : State) : Bool :=
  if s.pair.token ≠ s.pair.peerTok then s.pair.token
  else if s.divergent ≠ s.pair.peerDiv then s.divergent
  else s.get F.SYS_STRAPS_PAIR_RANK = 0

/-- R435: both halves hold the token: the rank-1 half clears its own. -/
def State.oneToken (s : State) : State :=
  if s.pair.token && s.pair.peerTok && s.get F.SYS_STRAPS_PAIR_RANK ≠ s.pair.peerRank then
    (if s.get F.SYS_STRAPS_PAIR_RANK = 1 then
      State.raise { s with pair := { s.pair with token := false } } E.PAIR_ROLE_CHANGE
     else { s with pair := { s.pair with peerTok := false } })
  else s

/-- Roles are decided; a change of role sets ROLE_CHANGE, and the target of a convergence is the half that follows. -/
def State.decideRoles (s : State) : State :=
  let s1 := s.oneToken
  let l := s1.leadRule
  let s2 : State := { s1 with pair := { s1.pair with lead := l, target := s1.pair.pstate = 3 && !l } }
  s2.raiseIf (l ≠ s.pair.lead && s.mirroring) E.PAIR_ROLE_CHANGE

/-- Roles are decided again while the pair mirrors. -/
def State.rolesAgain (s : State) : State := if s.mirroring then s.decideRoles else s

/-- R436: the halves cannot mirror. -/
def State.pairConflict (s : State) (i : Ident) : Bool :=
  (s.get F.SYS_STRAPS_PAIR_RANK = i.rank && s.pair.token = i.token) || s.get F.PAIR_CFG_FEED ≠ i.feed ||
    s.nv.nses.map (fun e => (e.1, e.2.size, e.2.fmt)) ≠ i.nses

/-- R447: the peer becomes the peer of record. -/
def State.recordPeer (s : State) (serial : Nat) : State := { s with nv := { s.nv with peer := some serial } }

/-- The pair is MIRRORED: nothing is divergent. -/
def State.mirrored (s : State) : State :=
  let s1 : State := { s with
    nv := { s.nv with div := [], divTakes := [], peer := (s.pair.ident.map (·.serial)).or s.nv.peer }
    pair := { s.pair with
      converging := false, left := [], takesLeft := [], shapes := [], target := false, peerDiv := false
      ident := s.pair.ident.map (fun i => { i with segs := [], takes := [] }) } }
  s1.setPstate 4

/-- R435, R436, R449, R548: what the halves do once each has the other's IDENT. -/
def State.judgePair (s : State) (i : Ident) : State :=
  let s1 : State := { s with pair := { s.pair with
    ident := some i, peerTok := i.token, peerRank := i.rank, peerDiv := i.segs ≠ [] || i.takes ≠ [] } }
  if s1.pairConflict i then (s1.setPstate 6).raise E.PAIR_CONFLICT
  else if 2 ≤ s1.secState then (s1.pairSend (.leave false)).setPstate 2
  else
    let s2 := s1.decideRoles
    let known := s2.nv.peer = some i.serial && i.peer = some s2.nv.serial
    let s3 := match s2.nv.peer with
      | some q => if q = i.serial then s2 else s2.recordPeer i.serial
      | none => s2
    if known && !s3.divergent && !s3.pair.peerDiv then s3.mirrored
    else
      let left := sortNat (s3.nv.div ++ i.segs ++ (if known then [] else if s3.pair.lead then s3.map.ts.segments else i.mapped))
      let takes := sortNat (if s3.pair.lead then s3.nv.divTakes ++ i.takes else i.takes)
      let s4 : State := { s3 with pair := { s3.pair with
        left := left, takesLeft := takes, marked := left.length, units := 0, shapes := [], target := !s3.pair.lead
        converging := s3.get F.PAIR_CFG_AUTO_CONVERGE = 1 } }
      s4.setPstate 3

/-- The end of a stop of the link (R111, R448): once nothing is unacknowledged, and a latched enable starts it again. -/
def State.pairStopCheck (s : State) : State :=
  if s.get F.PAIR_STATUS_FSTATE = 3 && s.pair.unacked = [] && s.pair.txq = [] then
    let s1 := (s.pairSend (.train 3)).pairLinkDown 0
    State.startPair (s1.set F.PAIR_STATUS_REENABLE_PENDING 0)
  else s

/-- IDENT, once the link is aligned: `lanes` are the ALIGN blocks of the lanes. This half answers with its own. -/
def execIdent (i : Ident) (lanes : List AlignBlk) (s : State) : Host.Outcome State Fault Refusal :=
  done (
    let fs := s.get F.PAIR_STATUS_FSTATE
    if s.isl 4 = 2 && s.pins.peerFitted && fs = 1 && s.get F.PAIR_CTL_EN = 0 then
      State.pairStopCheck (s.pairAlign.set F.PAIR_STATUS_FSTATE 3)
    else if s.isl 4 = 2 && s.pins.peerFitted && (fs = 1 || fs = 2) then
      let s1 := if fs = 1 then
          (lanes.filter (fun b => b.lane < 8)).foldl (fun s b =>
            (s.set (F.PAIR_LANE_LOGICAL b.lane) b.logical).set (F.PAIR_LANE_SKEW_UI b.lane) b.skew) s.pairAlign
        else s
      let s1 := if s1.pair.identOut then s1
        else State.pairSend { s1 with pair := { s1.pair with identOut := true } } (.ident s1.ownIdent)
      let s1 := if s1.needsOk Fn.PAIR_LINK && s1.get F.SYS_FUNC_FAULT_FAULT / 2 ^ Fn.PAIR_LINK % 2 = 0 then s1.setReady Fn.PAIR_LINK else s1
      s1.judgePair i
    else s)

/-! ### Convergence (R449 to R451) -/

/-- A segment of the target is converged: its SHAPE has come, its units have, and nothing of it is left in the buffer. -/
def State.segDone (s : State) (seg : Nat) : Bool :=
  s.pair.shapes.any (fun x => x.1 = seg && x.2 = []) && !s.slots.any (fun x => keySeg x.key = seg) &&
    !s.pair.inbox.any (fun x => keySeg x.2.key = seg)

/-- The target: segments that are converged leave the list; with the last of them and the last take the pair is MIRRORED. -/
def State.convergeCheck (s : State) : State :=
  if s.pair.pstate = 3 && s.pair.target then
    let gone := s.pair.left.filter s.segDone
    let s1 : State := { s with pair := { s.pair with
      left := s.pair.left.filter (fun g => !gone.contains g), shapes := s.pair.shapes.filter (fun x => !gone.contains x.1) } }
    if s1.pair.left = [] && s1.pair.takesLeft = [] then s1.mirrored.raise E.PAIR_CONVERGED else s1
  else s

/-- The source has sent everything, and the peer says that it is MIRRORED. -/
def State.sourceDone (s : State) (peerState : Nat) : State :=
  if s.pair.pstate = 3 && !s.pair.target && s.pair.left = [] && s.pair.takesLeft = [] && peerState = 4 then
    s.mirrored.raise E.PAIR_CONVERGED
  else s

/-- The reads of a segment's units are paid for in class 1. -/
def State.payCopy (s : State) (uas : List Nat) : State :=
  ((uas.map (· / 4)).eraseDups).foldl (fun s p =>
    let n := (uas.filter (fun u => u / 4 = p)).length
    s.pay 1 (s.uaPlace (4 * p)).1 (s.opCost .read 1 n)) s

/-- The records of a listed take: its own, its streams' append pointers and its frame-index entries. -/
def State.sendTake (s : State) (num : Nat) : State :=
  match s.map.ts.takes.find? num with
  | none => s
  | some t =>
    let s1 := s.sendRecord (.take t)
    let s1 := t.streams.foldl (fun s st => s.sendRecord (.append st (s.appendPtr st))) s1
    (s.map.ts.entries.filter (fun e => e.take = num)).foldl (fun s e => s.sendRecord (.frameEntry e)) s1

/-- The source sends its next segment: SHAPE and each mapped unit, once the buffer holds nothing of the segment; after the last
segment, the listed takes. -/
def execConvergenceCopy (s : State) : Host.Outcome State Fault Refusal :=
  done (if s.pairUp && s.leads && s.pair.pstate = 3 && s.pair.converging && (s.mode = Md.IDLE || s.mode = Md.GROOM) then
    match s.pair.left with
    | [] =>
      let s1 := s.pair.takesLeft.foldl State.sendTake s
      { s1 with pair := { s1.pair with takesLeft := [] } }
    | seg :: rest =>
      if s.slots.any (fun x => keySeg x.key = seg) then s
      else
        let es := s.map.ts.map.filter (fun e => keySeg e.1 = seg)
        let s1 := (s.pairSend (.shape seg (es.map (·.1)))).payCopy (es.map (·.2))
        let s1 := es.foldl (fun s e => s.pairSend (.slot ⟨3, 0, 0, keyNs e.1, 0, 0, e.1, 0xFF, 0, 0, s.flashData e.1⟩)) s1
        { s1 with pair := { s1.pair with left := rest, units := s1.pair.units + es.length } }
  else s)

/-- SHAPE: the target unmaps what it does not name, and awaits the units that it does. -/
def execShape (seg : Nat) (keys : List Nat) (s : State) : Host.Outcome State Fault Refusal :=
  done (if s.pairUp && s.pair.pstate = 3 && s.pair.target then
    let old := (s.map.ts.map.map (·.1)).filter (fun k => keySeg k = seg && !keys.contains k)
    let s1 := old.foldl (fun s k => s.dropLeaves k 1) s
    let await := keys.filter (fun k => !s1.slots.any (fun x => x.key = k) && !s1.pair.inbox.any (fun x => x.2.key = k))
    State.convergeCheck { s1 with pair := { s1.pair with
      left := sortNat (seg :: s1.pair.left), shapes := s1.pair.shapes.filter (fun x => x.1 ≠ seg) ++ [(seg, await)] } }
  else s)

/-! ### The link (R433, R434) -/

/-- A frame of the link ends. -/
def execPairLinkFrame (v seq units : Nat) (crcOk : Bool) (s : State) : Host.Outcome State Fault Refusal :=
  done (if v < 3 && s.isl 4 = 2 then s.pairFrame v seq units crcOk else s)

/-- LINKACK: frames up to SEQ are acknowledged; a NAK names the expected SEQ, and what is left is sent again. -/
def execLinkack (v seq : Nat) (nak : Bool) (s : State) : Host.Outcome State Fault Refusal :=
  done (if s.pairUp && v < 3 then
    let upTo := if nak then (seq + 65535) % 65536 else seq % 65536
    let s1 := s.ackFrames v upTo
    let s1 : State := if v = 1 then { s1 with mbx := { s1.mbx with fly := s1.mbx.fly.filter (fun q => !(q = upTo || seqBefore 16 q upTo)) } } else s1
    let s1 := if nak then s1.resendAll v else s1
    s1.pairStopCheck
  else s)

/-- 2 µs without progress. -/
def execPairResendTimeout (v : Nat) (s : State) : Host.Outcome State Fault Refusal :=
  done (if s.pairUp && v < 3 then s.resendAll v else s)

/-- CREDIT: the cumulative limit of a channel less what has been used of it. -/
def execCredit (v limit : Nat) (s : State) : Host.Outcome State Fault Refusal :=
  done (if s.pairUp && v < 3 then
    let s1 := s.set (F.PAIR_CREDIT_AVAIL v) ((limit + 2 ^ 24 - s.pair.used.getD v 0 % 2 ^ 24) % 2 ^ 24)
    State.pairPump s1.pair.txq.length v s1
  else s)

/-- TRAIN: the receiver's side goes down too; a stop that was under way is over. -/
def execTrain (reason : Nat) (s : State) : Host.Outcome State Fault Refusal :=
  done (if s.pairUp && reason < 256 then
    let stop := s.get F.PAIR_STATUS_FSTATE = 3
    let s1 := s.takeDown none
    if stop then State.startPair ((s1.set F.PAIR_STATUS_FSTATE 0).set F.PAIR_STATUS_REENABLE_PENDING 0) else s1
  else s)

/-! ### Mirrored slots and records (R439, R441, R442) -/

/-- A SLOT message: the follow asks its own ledger for the slot. A copy may come to either half. One whose payload fails its CRC is
dropped, and its units return. -/
def execSlot (m : SlotMsg) (s : State) : Host.Outcome State Fault Refusal :=
  done (if !s.pairUp then s
    else if s.fi.pairHit then State.returnUnits { s with fi := { s.fi with pairHit := false } } 0 65
    else if s.mirroring && (m.kind = 3 || ((m.kind = 1 || m.kind = 2) && !s.pair.lead)) then
      let n := s.pair.inN + 1
      let x : Slot := {
        seq := 0, lst := .filling, kind := if m.kind = 2 then .frame else .host, owner := .peer n, charge := 0
        stream := m.stream % 256, nsid := keyNs m.key, key := m.key, mask := if bit m.flags 0 then m.mask % 256 else 0xFF
        data := (List.range 8).map (fun k => m.data.getD k 0) }
      let s1 : State := { s with pair := { s.pair with
        inN := n, inbox := s.pair.inbox ++ [(n, m)]
        shapes := if m.kind = 3 then s.pair.shapes.map (fun e => (e.1, e.2.filter (· ≠ m.key))) else s.pair.shapes } }
      s1.request (SlotReq.mk' .pair 0 0 [x])
    else s.returnUnits 0 65)

/-- HELD: a slot becomes durable; `ns` is the time of Table 15-6 that it took. -/
def execHeld (h : HeldMsg) (ns : Nat) (s : State) : Host.Outcome State Fault Refusal :=
  done (if s.pairUp && s.mirroring then
    let s0 := s.set F.PAIR_ACK_LAT_MAX_NS (max (s.get F.PAIR_ACK_LAT_MAX_NS) (min ns 65535))
    match h with
    | .slot n => if s.slots.any (fun x => x.seq = n && x.lst = .mirror) then s0.release (fun x => x.seq = n) else s
    | .frame st take frame piece index =>
      match s.frm.recs.find? (fun r => r.stream = st && r.take = take && r.frame = frame && r.piece = piece) with
      | some r =>
        if s.slots.any (fun x => x.lst = .mirror && x.owner = .frame r.id && x.key = s.recKey r index) then
          s0.release (fun x => x.owner = .frame r.id && x.key = s.recKey r index)
        else { s with pair := { s.pair with heldEarly := s.pair.heldEarly ++ [(st, take, frame, piece, index)] } }
      | none => { s with pair := { s.pair with heldEarly := s.pair.heldEarly ++ [(st, take, frame, piece, index)] } }
  else s)

/-- R441: a frame that has closed on both halves waits no longer for the peer's slots; the follow marks their segments. -/
def State.closedBoth (s : State) : State :=
  let rs := s.frm.recs.filter (fun r => r.closed && s.pair.theirs.any (fun p => p.stream = r.stream && p.take = r.take && p.frame = r.frame &&
    p.piece = r.piece))
  rs.foldl (fun s r =>
    let keys := (s.slots.filter (fun x => x.lst = .mirror && x.owner = .frame r.id)).map (·.key)
    if keys = [] then s
    else
      let s1 := s.release (fun x => x.owner = .frame r.id)
      if s1.follows then s1.diverge (keys.map keySeg) [] else s1) s

/-- RESULT: what the peer found when a frame closed there. -/
def execResult (r : PResult) (s : State) : Host.Outcome State Fault Refusal :=
  done (if s.pairUp && s.mirroring then
    (State.closedBoth { s with pair := { s.pair with theirs := s.pair.theirs ++ [r] } }).matchResults
  else s)

/-- R430: the check values that the follow computes over its own copy of a frame. -/
def State.ownChecks (s : State) (e : Entry) : Entry :=
  let bs := (((s.entryKeys e).map (fun k => leafBytes (s.leafData k))).flatten).take e.length
  { e with crcCalc := crc32c bs, sha := Config.sha256 bs % 2 ^ 256 }

/-- A logical record of the lead takes effect on the follow. A take that this half still closes itself keeps its phase. -/
def State.applyRecord (s : State) (r : LRec) : State :=
  match r with
  | .unmap key count => s.dropLeaves key count
  | .append st n => s.note (.append st n)
  | .take t =>
    let s1 := match s.map.ts.takes.find? t.num with
      | some own => if own.phase < 2 then s.note (.take { t with phase := own.phase, stopper := own.stopper })
          else s.note (.take { t with stopper := none })
      | none => s.note (.take { t with stopper := none })
    { s1 with pair := { s1.pair with takesLeft := s1.pair.takesLeft.filter (· ≠ t.num) } }
  | .frameEntry e =>
    if s.pair.target && s.pair.left ≠ [] then s.note (.frameEntry e)
    else
      let own := if s.get F.PAIR_CFG_FEED = 0 then s.ownChecks e else e
      let s1 := s.note (.frameEntry own)
      if s.get F.PAIR_CFG_FEED = 0 then
        let a := s1.resultOf own
        State.matchResults (State.pairSend { s1 with pair := { s1.pair with mine := s1.pair.mine ++ [a] } } (.result a))
      else s1

/-- RECORD, in SEQ order. -/
def execRecord (seq : Nat) (r : LRec) (s : State) : Host.Outcome State Fault Refusal :=
  done (if s.pairUp && s.follows && seq = s.pair.recNext + 1 then
    let s1 := State.applyRecord { s with pair := { s.pair with recNext := seq } } r
    (s1.pairSend (.recAck seq)).convergeCheck
  else s)

/-- REC_ACK: completions that waited for the record post. -/
def execRecAck (seq : Nat) (s : State) : Host.Outcome State Fault Refusal :=
  done (if s.pairUp && s.pair.recAcked < seq && seq ≤ s.pair.recSeq then
    State.releaseHeld { s with pair := { s.pair with recAcked := seq } } false
  else s)

/-- SNAPREQ. -/
def execSnapreq (s : State) : Host.Outcome State Fault Refusal :=
  done (if s.pairUp && s.get F.SNAP_CFG_PEER_IN = 1 then s.snapshot 3 else s)

/-! ### Heartbeat (R445) -/

/-- The pair stops mirroring on both halves (R452, ACTION 4); the link stays up. -/
def State.pairStop (s : State) : State :=
  let s1 : State := { s with pair := { s.pair with lossCause := 6, identOut := false } }
  s1.mirrorEnds 5

/-- The peer's pair-state word as far as its BEAT carries it (Table 15-2, R453). -/
def beatWord (b : BeatMsg) : Nat :=
  b.pstate % 16 + 2 ^ 4 * b2n b.lead + 2 ^ 5 * (b.rank % 2) + 2 ^ 7 * b2n b.token + 2 ^ 9 * b2n b.div + 2 ^ 12 * (b.feed % 2)

/-- The difference of two values of timebase bits 31 to 0, as a signed number. -/
def tbDiff (a b : Nat) : Int := signed 32 ((a % 2 ^ 32 + 2 ^ 32 - b % 2 ^ 32) % 2 ^ 32)

/-- BEAT. A token that the peer has just taken is no longer this half's; a changed token decides the roles again; a peer that has
stopped mirroring stops this half. -/
def execBeat (b : BeatMsg) (s : State) : Host.Outcome State Fault Refusal :=
  done (if !s.pairUp then s
    else
      let s1 : State := { s with pair := { s.pair with
        beatSeen := true, peerWord := beatWord b, peerRank := b.rank % 2, peerDiv := b.div, peerTok := b.token
        token := s.pair.token && !(b.token && !s.pair.peerTok) } }
      let s1 := (s1.inc F.PAIR_BEAT_RECEIVED).set F.PAIR_TB_OFS_TICKS
        (unsigned 64 (if s.pair.lead then tbDiff b.tb s.tb else tbDiff s.tb b.tb))
      let s1 := if b.token ≠ s.pair.peerTok || s1.pair.token ≠ s.pair.token then s1.rolesAgain else s1
      if b.pstate = 5 && s1.mirroring then s1.pairStop else (s1.sourceDone b.pstate).convergeCheck)

/-- This half's BEAT at the start of a window. -/
def State.sendBeat (s : State) : State :=
  if s.pairUp then
    State.pairSend { s with pair := { s.pair with beatNo := (s.pair.beatNo + 1) % 256 } }
      (.beat s.pair.lead s.pair.token (s.get F.SYS_STRAPS_PAIR_RANK) s.divergent (s.get F.PAIR_CFG_FEED) s.mode s.pair.pstate
        ((s.pair.beatNo + 1) % 256) (s.tb % 2 ^ 32))
  else s

/-- R445: windows without the peer's BEAT are counted; the eighth in a row declares loss. -/
def State.countBeat (s : State) : State :=
  if 3 ≤ s.pair.pstate || (s.pair.pstate = 2 && s.pairUp) then
    let n := if s.pair.beatSeen then 0 else s.pair.beats + 1
    let s1 : State := State.set { s with pair := { s.pair with beats := n, beatSeen := false } } F.PAIR_BEAT_MISS_RUN n
    if 8 ≤ n then s1.pairLoss 1 else s1
  else { s with pair := { s.pair with beats := 0, beatSeen := false } }

/-! ### Arbitration windows (R172, R176, R180, R182, R192) -/

/-- The arbiter's part of a window start: the closing window's counters, then the thermal state, the ledger state, the refills, the
grant, and the ages of what waits. -/
def State.newWindow (s : State) (throughout : List Nat) : State :=
  let s1 := (s.closeWindow.floorMisses throughout).applyThermal
  let l := s1.ledgerState
  let s1 := (s1.set F.BUDGET_STATUS_LSTATE l).raiseIf (l ≠ s1.get F.BUDGET_STATUS_LSTATE) E.BUDGET_LSTATE_CHANGE
  s1.refillAll.noteGrant.ageOps.addWrap F.BUDGET_WINDOW_COUNT 1

/-- A window of 10 µs begins; `throughout` are the classes that had a pickable operation throughout the one that ends. -/
def execArbitrationWindowStart (throughout : List Nat) (s : State) : Host.Outcome State Fault Refusal :=
  done (if s.mode = Md.KEEP then s
    else
      let s1 := if s.ready Fn.BUDGET then s.newWindow throughout else s
      if s1.isl 4 = 2 then s1.sendBeat.countBeat.closedBoth.convergeCheck else s1)

/-! ### PAIR.CTL.EN, PAIR.CLR and Pair Control (R448, R452) -/

/-- PAIR.CTL.EN: LEAVE goes out before the link stops; commands relayed and not yet run have their local outcome. -/
def execPairCtlEn (who : Req) (en : Bool) (s : State) : Host.Outcome State Fault Refusal :=
  done (s.rwAction who Pg.PAIR 0x010 (fun s =>
    let s1 := s.set F.PAIR_CTL_EN (b2n en)
    match s.get F.PAIR_STATUS_FSTATE with
    | 3 => s1.set F.PAIR_STATUS_REENABLE_PENDING (b2n en)
    | 2 =>
      if en then s1
      else
        let rs := s1.pair.relays
        let s2 : State := { s1 with pair := { s1.pair with relays := [] } }
        let s2 := (State.set (s2.pairLeave false 0) F.PAIR_STATUS_FSTATE 3)
        (rs.foldl (fun s r => s.runHere r.id r.cmd r.args) s2).pairStopCheck
    | 1 => s1
    | _ => if en then s1.startPair else if s1.pair.pstate = 1 then s1.setPstate 0 else s1))

/-- The counts that PAIR.CLR clears. -/
def pairCounts : List Field :=
  [F.PAIR_LINKERR_CRC_ERR, F.PAIR_LINKERR_NAKS, F.PAIR_LINKERR_RESENDS, F.PAIR_LINKERR_TRAINS, F.PAIR_BEAT_RECEIVED,
   F.PAIR_BEAT_LOSSES, F.PAIR_BEAT_MISS_RUN, F.PAIR_FAILOVER_LAST_NS, F.PAIR_FAILOVER_COUNT, F.PAIR_ARB_UNRESOLVED,
   F.PAIR_ARB_REPAIRED, F.PAIR_ARB_CALC_REWRITE, F.PAIR_ARB_TRAILER_REWRITE, F.PAIR_ACK_LAT_MAX_NS] ++
    (List.range 8).map F.PAIR_LANE_LOCK_LOSS ++ (List.range 8).map F.PAIR_LANE_BAD_SH

/-- PAIR.CLR.GO. DIV and SEGS_LEFT show what is there, not counts; MIB_COPIED starts again. -/
def execPairClr (who : Req) (s : State) : Host.Outcome State Fault Refusal :=
  done (s.rwAction who Pg.PAIR 0x160 (fun s =>
    State.clear { s with pair := { s.pair with units := 0, beats := 0 } } pairCounts))

/-- ACTION 3: convergence starts; from STOPPED, the halves exchange IDENT again. -/
def State.resumePair (s : State) : State :=
  if s.pair.pstate = 5 then State.pairSend { s with pair := { s.pair with identOut := true } } (.ident s.ownIdent)
  else if s.pair.pstate = 3 then { s with pair := { s.pair with converging := true } }
  else s

/-- Pair Control. -/
def execPairControl (id : Cid) (action : Nat) (bad : Bool) (s : State) : Host.Outcome State Fault Refusal :=
  done (s.arrive id (fun s => s.judge id
    [hostAdminOnly id, badField (bad || 4 < action),
     (action ≠ 0 && (s.mode = Md.UPDATE || s.mode = Md.QUARANTINE), (7, 0x81, s.mode)),
     (!s.ready Fn.PAIR_LINK, (7, 0x89, 0))]
    (fun s =>
      let s1 := match action with
        | 1 => State.rolesAgain { s with pair := { s.pair with token := true, peerTok := false } }
        | 2 => State.rolesAgain { s with pair := { s.pair with token := false } }
        | 3 => s.resumePair
        | 4 => if s.mirroring then s.pairStop else s
        | _ => s
      s1.ok id s1.pairWord 0 [])))

end Sys2Proof.Machine
end

