-- ==== Sys2Proof/Machine/Net.lean ====
section
/-!
DEFINITION. Dock offload (chapter 16): the two Ethernet ports, the NVMe/TCP target with its connections and fabric controllers, and
the data of the dock's writes.
-/

namespace Sys2Proof.Machine

/-! ### Ports (R457 to R459, R462, R482) -/

/-- The entries of the discovery log page (R462): port, whether IPv6, and address. -/
def State.discEntries (s : State) : List (Nat × Bool × Nat) :=
  (([0, 1].filter (fun p => s.get (F.NET_STATUS_FSTATE p) = 2)).map (fun p =>
    let v6 := s.get (F.NET_IPV6_HI_ADDR p) * 2 ^ 64 + s.get (F.NET_IPV6_LO_ADDR p)
    (if s.get (F.NET_IPV4_LEASE_ADDR p) = 0 then [] else [(p, false, s.get (F.NET_IPV4_LEASE_ADDR p))]) ++
      (if v6 = 0 then [] else [(p, true, v6)]))).flatten

/-- R462: the generation counter follows the entries of the discovery log. -/
def State.noteGen (s : State) (before : List (Nat × Bool × Nat)) : State :=
  if s.discEntries = before then s else { s with net := { s.net with gen := s.net.gen + 1 } }

/-- R459: without DHCP, the configured IPv4 address is the one in use. -/
def State.staticAddr (s : State) (p : Nat) : State :=
  if s.get (F.NET_IPV4_DHCP p) = 0 then s.set (F.NET_IPV4_LEASE_ADDR p) (s.get (F.NET_IPV4_ADDR p)) else s

/-- A stop of a port: its connections close with a reset segment, its link goes down, and it is OFF. -/
def State.stopNet (s : State) (p : Nat) : State :=
  ((((s.resetConns p).netLinkDown p).set (F.NET_STATUS_FSTATE p) 0).offloadCheck).noteGen s.discEntries

/-- NETp.CTL.EN (R111, R458). -/
def execNetCtlEn (who : Req) (port : Nat) (en : Bool) (s : State) : Host.Outcome State Fault Refusal :=
  done (if 1 < port then s
    else s.rwAction who (Pg.NET0 + port) 0x010 (fun s =>
      let s1 := s.set (F.NET_CTL_EN port) (b2n en)
      match s.get (F.NET_STATUS_FSTATE port) with
      | 2 => if en then s1 else s1.stopNet port
      | 1 => s1
      | _ => s1.startNet port))

/-- A port has block or codeword lock: it is ON, and its function sets. -/
def execLinkUp (port : Nat) (s : State) : Host.Outcome State Fault Refusal :=
  done (
    let fs := s.get (F.NET_STATUS_FSTATE port)
    if port < 2 && s.isl 5 = 2 && (fs = 1 || fs = 2) && s.get (F.NET_STATUS_LINK port) = 0 then
      let s1 := (s.set (F.NET_STATUS_FSTATE port) 2).set (F.NET_STATUS_LINK port) 1
      let s1 := (s1.set (F.NET_STATUS_FEC_LOCK port) (b2n (s.get (F.NET_CFG_FEC port) = 1 && s.get (F.NET_CFG_SPEED port) = 0))).staticAddr port
      let s1 := (s1.raise (E.NET_LINK_UP port)).noteGen s.discEntries
      if s1.get (F.NET_CTL_EN port) = 0 then s1.stopNet port
      else if s1.needsOk (42 + port) then s1.setReady (42 + port) else s1
    else s)

/-- A port's link drops. -/
def execLinkDown (port : Nat) (s : State) : Host.Outcome State Fault Refusal :=
  done (if port < 2 then s.netLinkDown port else s)

/-- DHCPv4 has obtained an address. -/
def execDhcpBound (port addr : Nat) (s : State) : Host.Outcome State Fault Refusal :=
  done (if port < 2 && s.get (F.NET_STATUS_LINK port) = 1 && s.get (F.NET_IPV4_DHCP port) = 1 then
    ((s.set (F.NET_IPV4_LEASE_ADDR port) addr).raise (E.NET_DHCP_BOUND port)).noteGen s.discEntries else s)

/-- A PAUSE frame. -/
def execPauseFrame (port quanta : Nat) (s : State) : Host.Outcome State Fault Refusal :=
  done (if port < 2 then s.netRx port (.pause quanta) else s)

/-- The pause time has run out. -/
def execPauseTimeExpired (port : Nat) (s : State) : Host.Outcome State Fault Refusal :=
  done (if port < 2 then s.set (F.NET_STATUS_PAUSED port) 0 else s)

/-- ARP, or neighbour solicitation. -/
def execAddressResolutionRequest (port addr : Nat) (v6 : Bool) (s : State) : Host.Outcome State Fault Refusal :=
  done (if port < 2 then s.netRx port (.resolve addr v6) else s)

/-- An echo request. -/
def execIcmpEchoRequest (port addr : Nat) (v6 : Bool) (data : List Nat) (s : State) : Host.Outcome State Fault Refusal :=
  done (if port < 2 then s.netRx port (.echo addr v6 data) else s)

/-- NETp.CLR.GO. -/
def execNetClr (who : Req) (port : Nat) (s : State) : Host.Outcome State Fault Refusal :=
  done (if 1 < port then s
    else s.rwAction who (Pg.NET0 + port) 0x168 (fun s => s.clear
      [F.NET_RX_BYTES_COUNT port, F.NET_TX_BYTES_COUNT port, F.NET_RX_ERR_FEC_UNCORR port, F.NET_RX_ERR_LENGTH port,
       F.NET_RX_ERR_FCS port, F.NET_RX_ERR_DROPPED port, F.NET_FEC_CORR_COUNT port, F.NET_PAUSE_COUNT port]))

/-! ### Connections (R460, R463, R465) -/

/-- A TCP segment arrives on a port and counts as a frame of the least size; an injector that acts on it leaves TCP to restore it. -/
def State.tcpRx (s : State) (p : Nat) : State :=
  let s1 := s.addSat (F.NET_RX_BYTES_COUNT p) 64
  if !bit (s.get (F.FI_CFG_TARGET (2 + p))) 0 then
    match s1.fiUnit (2 + p) with
    | (.corrupt, s2) => (if s2.get (F.FI_CFG_FIX (2 + p)) = 0 then s2.inc (F.NET_RX_ERR_FCS p) else s2).passNet p
    | (_, s2) => s2.passNet p
  else s1

/-- R465: the modes in which the target accepts connections. -/
def State.dockMode (s : State) : Bool :=
  [Md.IDLE, Md.OFFLOAD, Md.RECORD, Md.REVIEW, Md.GROOM, Md.SERVICE, Md.QUARANTINE].contains s.mode

/-- R459: a port has an address of its own beside its link-local one. -/
def State.hasAddr (s : State) (p : Nat) : Bool :=
  s.get (F.NET_IPV4_LEASE_ADDR p) ≠ 0 || s.get (F.NET_IPV6_HI_ADDR p) ≠ 0 || s.get (F.NET_IPV6_LO_ADDR p) ≠ 0

/-- A TCP connection request for one of the port's addresses. -/
def execTcpConnectionRequest (port addr : Nat) (v6 : Bool) (dport : Nat) (s : State) : Host.Outcome State Fault Refusal :=
  done (if 1 < port || s.get (F.NET_STATUS_LINK port) = 0 || !s.hasAddr port || !s.ownAddr port addr v6 then s
    else
      let s1 := s.tcpRx port
      let disc := dport = s.get F.NVTCP_CFG_DISC_PORT
      if 32 ≤ s1.net.conns.length || (dport ≠ s.get F.NVTCP_CFG_IO_PORT && !disc) then
        (((s1.netSend port (.rst port none)).inc F.NVTCP_CONN_REFUSED).raise E.NVTCP_REFUSED)
      else if !s1.ready Fn.NVTCP || !s1.dockMode then s1.netSend port (.rst port none)
      else
        let n := s1.net.nextConn
        (State.inc { s1 with net := { s1.net with nextConn := n + 1, conns := s1.net.conns.put n ⟨port, disc, none, none, 0, 0⟩ } }
          F.NVTCP_CONN_ACCEPTED).raise E.NVTCP_CONNECT)

/-- A connection is closed or reset by the dock, or ended by TCP. -/
def execTcpConnectionClose (conn : Nat) (s : State) : Host.Outcome State Fault Refusal :=
  done (match s.net.conns.find? conn with
    | some c => ((s.tcpRx c.port).closeConn conn).offloadCheck
    | none => s)

/-- A connection whose PDUs cannot be followed ends with a C2HTermReq. -/
def State.termConn (s : State) (conn : Nat) : State :=
  match s.net.conns.find? conn with
  | some c => ((s.netSend c.port (.termReq conn)).closeConn conn).offloadCheck
  | none => s

/-- ICReq: digests are granted where they are asked for and configured. -/
def execIcreq (conn : Nat) (hdgst ddgst : Bool) (s : State) : Host.Outcome State Fault Refusal :=
  done (match s.net.conns.find? conn with
    | none => s
    | some c =>
      let s1 := s.tcpRx c.port
      if c.ic.isSome then s1.termConn conn
      else
        let h := hdgst && s.get F.NVTCP_CFG_HDGST_OK = 1
        let d := ddgst && s.get F.NVTCP_CFG_DDGST_OK = 1
        State.netSend { s1 with net := { s1.net with conns := s1.net.conns.put conn { c with ic := some (h, d) } } } c.port
          (.icResp conn h d))

/-- The controller identifiers of a kind: 1 to 4 for I/O; the model numbers discovery controllers from 5. -/
def ctrlIds (disc : Bool) : List Nat := if disc then [5, 6, 7, 8] else [1, 2, 3, 4]

/-- R465, R123: a Connect accepted in Idle enters Offload. -/
def State.enterOffload (s : State) : State :=
  if s.mode = Md.IDLE && !s.inTransition then s.beginTrans Md.OFFLOAD 0x0A else s

/-- A Connect of an admin or discovery queue creates a controller. -/
def State.connectAdmin (s : State) (id : Cid) (conn : Nat) (c : Conn) (sqsize cntlid host kato : Nat) : State :=
  if sqsize = 0 || 31 < sqsize || cntlid ≠ 0xFFFF then s.fail id 1 0x82
  else
    match (ctrlIds c.disc).find? (fun k => (s.net.ctrls.find? k).isNone) with
    | none => s.fail id 1 0x81
    | some k =>
      let s1 : State := { s with net := { s.net with
        ctrls := s.net.ctrls.put k ⟨c.disc, host, 0, 0, kato, [], [], [], 0⟩
        conns := s.net.conns.put conn { c with ctrl := some k, qid := 0, qsize := sqsize } } }
      (s1.ok id k 0 []).enterOffload

/-- A Connect of an I/O queue joins a controller that is enabled. -/
def State.connectIo (s : State) (id : Cid) (conn : Nat) (c : Conn) (qid sqsize cntlid host : Nat) : State :=
  match s.net.ctrls.find? cntlid with
  | none => s.fail id 1 0x82
  | some k =>
    if c.disc || k.disc || 256 < qid || sqsize = 0 || s.get F.NVTCP_CFG_MAX_QSIZE < sqsize ||
        s.net.conns.any (fun e => e.2.ctrl = some cntlid && e.2.qid = qid) then s.fail id 1 0x82
    else if k.host ≠ host then s.fail id 1 0x84
    else if !bit k.cc 0 then s.fail id 0 0x0C
    else
      (State.ok { s with net := { s.net with
        conns := s.net.conns.put conn { c with ctrl := some cntlid, qid := qid, qsize := sqsize } } } id cntlid 0 []).enterOffload

/-- Connect; one that arrives while Offload's connections are closing finds the target busy (R479). -/
def execConnect (id : Cid) (qid sqsize cntlid host kato : Nat) (s : State) : Host.Outcome State Fault Refusal :=
  done (match id.src with
    | .dock conn =>
      match s.net.conns.find? conn with
      | none => s
      | some c =>
        let s1 := s.tcpRx c.port
        if c.ic.isNone then s1.termConn conn
        else if !s1.ready Fn.NVTCP || !s1.dockMode then s1
        else if c.ctrl.isSome then s1.fail id 0 0x0C
        else if s1.get F.NVTCP_STATUS_CLOSING = 1 then s1.fail id 1 0x81
        else if qid = 0 then s1.connectAdmin id conn c sqsize cntlid host kato
        else s1.connectIo id conn c qid sqsize cntlid host
    | _ => s)

/-! ### Properties (R464) -/

/-- The fabric controller that an admin or discovery queue's capsule reaches, once its connection has its queue. -/
def State.propCtrl (s : State) (id : Cid) : Option (Nat × Nat × Ctrl) :=
  match id.src with
  | .dock conn =>
    match s.net.conns.find? conn with
    | some c => if c.qid = 0 && s.ready Fn.NVTCP then (s.ctrlOf conn).map (fun x => (c.port, x)) else none
    | none => none
  | _ => none

/-- CAP of a fabric controller (Table 07-2), with CAP.TO free. -/
def State.fabricCap (s : State) : Nat :=
  s.get F.NVTCP_CFG_MAX_QSIZE + 2 ^ 16 + 2 ^ 24 * (Config.undefinedValue s.fresh % 256) + 2 ^ 37 + 4 * 2 ^ 52

/-- Property Get: CAP is of eight bytes; VS, CC and CSTS are of four. -/
def execPropertyGet (id : Cid) (ofst : Nat) (eight : Bool) (s : State) : Host.Outcome State Fault Refusal :=
  done (match s.propCtrl id with
    | none => s
    | some (p, _, c) =>
      let s1 := s.tcpRx p
      match ofst, eight with
      | 0x00, true => let v := s1.fabricCap
                      s1.draw.ok id (v % 2 ^ 32) (v / 2 ^ 32) []
      | 0x08, false => s1.ok id 0x00020000 0 []
      | 0x14, false => s1.ok id c.cc 0 []
      | 0x1C, false => s1.ok id (b2n (bit c.cc 0) + 4 * c.shst) 0 []
      | _, _ => s1.fail id 0 0x02)

/-- A fabric controller is disabled: its I/O queues and what they held are gone, and its requests for events with them. -/
def State.resetCtrl (s : State) (k : Nat) : State :=
  let s1 := ((s.net.conns.filter (fun e => e.2.ctrl = some k && e.2.qid ≠ 0)).map (·.1)).foldl State.dropConn s
  match s1.net.ctrls.find? k with
  | some c => s1.putCtrl k { c with aers := [], aens := [], told := [], shst := 0 }
  | none => s1

/-- Property Set of CC, the one property that can be written: it enables, disables or shuts down the controller. -/
def execPropertySet (id : Cid) (ofst : Nat) (eight : Bool) (value : Nat) (s : State) : Host.Outcome State Fault Refusal :=
  done (match s.propCtrl id with
    | none => s
    | some (p, k, c) =>
      let s1 := s.tcpRx p
      if ofst ≠ 0x14 || eight then s1.fail id 0 0x02
      else
        let v := value % 2 ^ 32
        let s1 := if bit c.cc 0 && !bit v 0 then s1.resetCtrl k else s1
        let s1 := match s1.net.ctrls.find? k with
          | some c => s1.putCtrl k { c with cc := v, shst := if bits v 14 2 ≠ 0 then 2 else c.shst }
          | none => s1
        s1.ok id 0 0 [])

/-! ### Data of the dock's writes (R467, R484) -/

/-- H2CData for a write whose slots are admitted: sectors in order, from the first that has not come. A digest error of its header
ends the connection; one of its data fails the command. -/
def execH2cData (id : Cid) (off : Nat) (sectors : List Nat) (hdrOk dataOk : Bool) (s : State) : Host.Outcome State Fault Refusal :=
  done (match id.src with
    | .dock conn =>
      match s.net.conns.find? conn with
      | none => s
      | some k =>
        let s1 := s.tcpRx k.port
        if !hdrOk then ((s1.inc F.NVTCP_DIGEST_HEADER).raise E.NVTCP_DIGEST_ERR).termConn conn
        else match s1.cmd? id with
          | none => s1.termConn conn
          | some c =>
            if !dataOk then (State.dropWrite ((s1.inc F.NVTCP_DIGEST_DATA).raise E.NVTCP_DIGEST_ERR) id).fail id 0 0x22
            else if c.op ≠ .write || c.started || !s1.allAdmitted id || !s1.begun id || s1.led.sealing.isSome || off ≠ c.data.length then
              s1.termConn conn
            else
              let n := sectorsOf (((s1.ns? c.nsid).map (·.fmt)).getD 0) c.nlb
              let all := (c.data ++ sectors).take n
              if all.length < n then
                { s1 with host := { s1.host with cmds := s1.host.cmds.map (fun (x : Cmd) => if x.id = id then { x with data := all } else x) } }
              else s1.storeWrite c all
    | _ => s)

/-! ### Offload's closing, and the target's controls (R465, R479, R484) -/

/-- The wait for outstanding commands ends: they have completed, or 100 ms have passed; the connections close. -/
def execOffloadCloseTimeout (s : State) : Host.Outcome State Fault Refusal :=
  done (if s.mode = Md.OFFLOAD && s.mc.offCause.isSome then s.closeOffload else s)

/-- NVTCP.CTL.EN: a target that is disabled closes its connections and its function stops. -/
def execNvtcpCtlEn (who : Req) (en : Bool) (s : State) : Host.Outcome State Fault Refusal :=
  done (s.rwAction who Pg.NVTCP 0x010 (fun s =>
    let s1 := s.set F.NVTCP_CTL_EN (b2n en)
    if en then s1 else s1.closeOffload.clearReady [Fn.NVTCP]))

/-- NVTCP.CLR.GO. -/
def execNvtcpClr (who : Req) (s : State) : Host.Outcome State Fault Refusal :=
  done (s.rwAction who Pg.NVTCP 0x148 (fun s =>
    State.clear { s with net := { s.net with outReg := [0, 0, 0, 0] } }
      [F.NVTCP_CONN_ACCEPTED, F.NVTCP_CONN_REFUSED, F.NVTCP_DIGEST_DATA, F.NVTCP_DIGEST_HEADER, F.NVTCP_HASHED_BYTES]))

end Sys2Proof.Machine
end

