-- ==== Sys2Proof/Machine/LogPages.lean ====
section
/-!
DEFINITION. Log pages and Identify data (chapter 07, Tables 07-2, 07-5; Tables 05-4, 09-5, 14-3, 16-5; R202, R419, R454). The
layouts of the standard pages are those of NVMe Base 2.0.
-/

namespace Sys2Proof.Machine

/-! ### Pages from parts -/

/-- A page with bytes put at an offset. -/
def putAt (page : List Nat) (off : Nat) (bs : List Nat) : List Nat :=
  page.take off ++ bs ++ page.drop (off + bs.length)

/-- A page of `n` bytes with its parts at their offsets and 0 elsewhere. -/
def layout (n : Nat) (parts : List (Nat × List Nat)) : List Nat :=
  (parts.foldl (fun p x => putAt p x.1 x.2) (List.replicate n 0)).take n

/-- Records of a fixed size, cut and padded to a count. -/
def records (size count : Nat) (rs : List (List Nat)) : List Nat :=
  let all := (rs.take count).flatten
  all ++ List.replicate (size * count - all.length) 0

/-- Decimal digits, in ASCII. -/
def digits : Nat → Nat → List Nat
  | 0, _ => []
  | n + 1, v => (if v < 10 then [] else digits n (v / 10)) ++ [48 + v % 10]

/-- A hexadecimal digit, in ASCII. -/
def hexDigit (v : Nat) : Nat := if v < 10 then 48 + v else 87 + v

/-- An IPv4 address as text. -/
def textV4 (a : Nat) : List Nat :=
  digits 3 (bits a 24 8) ++ [46] ++ digits 3 (bits a 16 8) ++ [46] ++ digits 3 (bits a 8 8) ++ [46] ++ digits 3 (bits a 0 8)

/-- An IPv6 address as text, in eight groups of four digits. -/
def textV6 (a : Nat) : List Nat :=
  (((List.range 8).map (fun i =>
    let g := bits a (16 * (7 - i)) 16
    (if i = 0 then [] else [58]) ++ [hexDigit (bits g 12 4), hexDigit (bits g 8 4), hexDigit (bits g 4 4), hexDigit (bits g 0 4)])).flatten)

/-- Text padded with spaces. -/
def padText (n : Nat) (t : List Nat) : List Nat := t ++ List.replicate (n - t.length) 32

/-! ### Wear (R417 to R419) -/

/-- Counts of the block sets in use that are not 0. -/
def State.usedCounts (s : State) : List Nat :=
  ((s.map.ts.erases.filter (fun e => s.setInUse e.1 && e.2 ≠ 0)).map (·.2))

/-- Block sets in use. -/
def State.setsInUse (s : State) : Nat := s.allLuns.length * (s.blockSets - spareSets s.blockSets)

/-- MEAN. -/
def State.meanWear (s : State) : Nat := total s.usedCounts / s.setsInUse

/-- SPARES_MIN. -/
def State.sparesMin (s : State) : Nat :=
  leastOr (spareSets s.blockSets) (s.allLuns.map (fun l => s.sparesLeft (l / 16) (l % 16)))

/-- R419: Percentage Used. -/
def State.percentUsed (s : State) : Nat := min 255 (s.meanWear * 100 / s.get F.GROOM_WL_RATED)

/-- R419: Available Spare. -/
def State.availSpare (s : State) : Nat := s.sparesMin * 100 / spareSets s.blockSets

/-- Table 14-3. -/
def State.eraseHistogram (s : State) : List Nat :=
  let used := s.usedCounts
  let n := s.setsInUse
  let rated := s.get F.GROOM_WL_RATED
  let w := max 1 (ceilDiv rated 64)
  let bin (i : Nat) : Nat :=
    (used.filter (fun c => decide (i * w ≤ c) && (i = 63 || decide (c < (i + 1) * w)))).length + (if i = 0 then n - used.length else 0)
  bytesOf 8 s.eraseSum ++ bytesOf 4 (s.allLuns.length * s.blockSets) ++
    bytesOf 4 (if used.length < n then 0 else leastOr 0 used) ++ bytesOf 4 (used.foldl max 0) ++ bytesOf 4 s.meanWear ++ bytesOf 4 w ++
    bytesOf 4 rated ++ bytesOf 4 s.nv.retired.length ++ bytesOf 4 s.sparesMin ++ List.replicate 24 0 ++
    ((List.range 64).map (fun i => bytesOf 4 (bin i))).flatten

/-! ### Standard log pages (Table 07-5) -/

/-- The composite temperature, in kelvin (Table 07-4). -/
def State.kelvin (s : State) : Nat := (signed 8 (s.get F.BUDGET_TEMP_TJ_MAX) + 273).toNat

/-- The critical warning: spare below its threshold, temperature beyond one, and reliability (R169, R398, R419). -/
def State.critical (s : State) : Nat :=
  b2n (decide (s.availSpare < 10)) +
    2 * b2n (decide (s.host.tempTh.getD 0 0 ≤ s.kelvin) || decide (s.kelvin ≤ s.host.tempTh.getD 1 0)) + 4 * b2n s.nv.smartRel

/-- SMART / Health Information. What the spec does not state is left free. -/
def State.smartPage (s : State) : List Nat :=
  layout 512 [(0, [s.critical]), (1, bytesOf 2 s.kelvin), (3, [s.availSpare % 256]), (4, [10]), (5, [s.percentUsed]),
    (32, bytesOf 128 (Config.undefinedValue s.fresh)), (160, bytesOf 16 s.nv.mediaErrs), (176, bytesOf 16 s.host.errCount),
    (192, bytesOf 40 (Config.undefinedValue (s.fresh + 1)))]

/-- An entry of the Error Information log. -/
def errorEntry (e : List Nat) : List Nat :=
  layout 64 [(0, bytesOf 8 (e.getD 0 0)), (8, bytesOf 2 (e.getD 1 0)), (10, bytesOf 2 (e.getD 2 0)), (12, bytesOf 2 (2 * e.getD 3 0)),
    (14, [255, 255]), (16, bytesOf 8 (e.getD 4 0)), (24, bytesOf 4 (e.getD 5 0))]

/-- Error Information, 64 entries. -/
def State.errorPage (s : State) : List Nat := records 64 64 (s.host.errLog.map errorEntry)

/-- Firmware Slot Information: the slot in use, the one of the next reset where an activation is pending, and each slot's
REVISION. -/
def State.firmwarePage (s : State) : List Nat :=
  let u := s.nv.upd
  layout 512 [(0, [u.active + 1 + 16 * (if 2 ≤ u.pending then u.target + 1 else 0)]),
    (8, s.norBytes 168 8), (16, s.norBytes (0x800000 + 168) 8)]

/-- Changed Namespace List. -/
def State.changedPage (s : State) : List Nat := records 4 1024 (s.host.nsChanged.map (bytesOf 4))

/-- Table 07-3: supported admin opcodes. -/
def adminOps : List Nat :=
  [0x00, 0x01, 0x02, 0x04, 0x05, 0x06, 0x08, 0x09, 0x0A, 0x0C, 0x0D, 0x10, 0x11, 0x14, 0x15, 0x18, 0x19, 0x1A, 0x80, 0x84, 0xC0, 0xC1, 0xC2,
   0xC4, 0xC5, 0xC6, 0xC8, 0xC9, 0xCA, 0xCC]

/-- R200: supported I/O opcodes. -/
def ioOps : List Nat := [0x00, 0x01, 0x02, 0x05, 0x08, 0x09, 0x0C]

/-- Commands Supported and Effects: which are supported, and which change logical blocks or the inventory of namespaces. -/
def effectsPage : List Nat :=
  let word (ops lbcc nic : List Nat) (o : Nat) : List Nat :=
    bytesOf 4 (b2n (ops.contains o) + 2 * b2n (lbcc.contains o) + 8 * b2n (nic.contains o))
  layout 4096 [(0, ((List.range 256).map (word adminOps [0x80, 0x84] [0x0D, 0x15, 0x80])).flatten),
    (1024, ((List.range 256).map (word ioOps [0x01, 0x08, 0x09] [])).flatten)]

/-- Device Self-test: the operation in progress with a completion that is left free, and the newest 20 results. -/
def State.selfTestPage (s : State) : List Nat :=
  let one (r : Nat × Nat × Nat × Nat) : List Nat :=
    layout 28 [(0, [r.2.1 % 16 + 16 * (r.1 % 16)]), (1, [r.2.2.1 % 256]), (2, [1]), (4, bytesOf 8 (Config.undefinedValue s.fresh)),
      (12, bytesOf 4 r.2.2.2)]
  layout 564 ([(0, [s.tst.kind, if s.tst.kind = 0 then 0 else Config.undefinedValue s.fresh % 100])] ++
    (List.range 20).map (fun i => (4 + 28 * i, match s.nv.stLog[i]? with
      | some r => one r
      | none => [15])))

/-- Sanitize Status. -/
def State.sanitizePage (s : State) : List Nat :=
  layout 512 [(0, bytesOf 2 (if s.nv.sanit = 2 then Config.undefinedValue s.fresh else 65535)), (2, bytesOf 2 s.nv.sanit),
    (4, bytesOf 4 s.nv.sanitDw), (8, List.replicate 24 255)]

/-! ### Vendor log pages -/

/-- Entries of a take with a flag. -/
def flagged (es : List Entry) (flag : Nat) : Nat := (es.filter (fun e => Nat.land e.flags flag ≠ 0)).length

/-- The closed takes, the most recently closed first. -/
def newestClosed (ts : List Take) : List Take := ts.foldl (fun l t => (l.takeWhile (fun x => decide (t.tbClose < x.tbClose))) ++ [t] ++
  (l.dropWhile (fun x => decide (t.tbClose < x.tbClose)))) []

/-- A take record of Table 09-5. -/
def State.takeRecord (s : State) (t : Take) : List Nat :=
  let es := s.takeEntries t.num
  let fs := (es.filter (fun e => e.stream = t.first)).map (·.frame)
  bytesOf 4 t.num ++ [t.phase % 256, t.reason % 256, t.first % 256, t.last % 256] ++ bytesOf 8 t.tbOpen ++
    bytesOf 8 (if t.phase = 2 then t.tbClose else 0) ++ bytesOf 8 t.calOpen ++ bytesOf 4 es.length ++ bytesOf 4 (flagged es FLAG_DAMAGED) ++
    bytesOf 4 (flagged es FLAG_DOUBT) ++ bytesOf 4 (flagged es FLAG_SEALED) ++ bytesOf 4 (total (es.map (·.gap))) ++
    bytesOf 4 (fs.headD 0) ++ bytesOf 4 (fs.getLastD 0) ++ List.replicate 4 0

/-- Table 09-5: the Frame Index Summary. -/
def State.framePage (s : State) : List Nat :=
  let ts := s.map.ts.takes.map (·.2)
  let live := ts.filter (fun t => t.phase < 2)
  let recs := (live ++ newestClosed (ts.filter (fun t => t.phase = 2))).take 32
  bytesOf 4 s.map.ts.lastTake ++ [live.length % 256, recs.length] ++ [0, 0] ++ bytesOf 8 s.tb ++ bytesOf 8 (s.get F.TIME_CAL) ++
    bytesOf 4 (s.get F.FRAME_COUNTS_ENTRIES) ++ List.replicate 36 0 ++ (recs.map s.takeRecord).flatten

/-- Outcomes of one kind of a tracked take. -/
def Track.count (t : Track) (o : Nat) : Nat := (t.outs.filter (fun x => x.2 = o)).length

/-- A take record of Table 16-5. -/
def State.verTake (s : State) (k : Track) : List Nat :=
  let es := s.takeEntries k.take
  bytesOf 4 k.take ++ [k.show % 256, 0, 0, 0] ++ bytesOf 4 es.length ++ bytesOf 4 (k.count 1) ++ bytesOf 4 (k.count 2) ++
    bytesOf 4 (k.count 3) ++ bytesOf 4 (flagged es FLAG_DAMAGED) ++ bytesOf 4 (flagged es FLAG_DOUBT) ++ bytesOf 4 (flagged es FLAG_SEALED) ++
    bytesOf 4 (flagged es FLAG_RECOMPUTED) ++ bytesOf 8 k.declTb ++ bytesOf 8 k.declCal ++ bytesOf 8 k.bytes

/-- An event record of Table 16-5. -/
def verEventRecord (e : VerEvent) : List Nat :=
  bytesOf 8 e.tb ++ bytesOf 4 e.take ++ bytesOf 4 e.frame ++ [e.stream % 256, e.outcome % 256] ++ bytesOf 2 e.piece ++
    [e.nsid % 256, 0, 0, 0] ++ (bytesOf 32 e.digest).reverse.take 8

/-- Tracked takes by latest activity, newest first. -/
def newestTracks (ts : List Track) : List Track := ts.foldl (fun l t => (l.takeWhile (fun x => decide (t.act < x.act))) ++ [t] ++
  (l.dropWhile (fun x => decide (t.act < x.act)))) []

/-- R477: the Verify Log. -/
def State.verifyPage (s : State) : List Nat :=
  let ts := (newestTracks s.net.tracks).take 16
  let es := s.net.events.take 32
  bytesOf 8 s.tb ++ bytesOf 8 s.net.hashed ++ ((List.range 4).map (fun i => bytesOf 4 (s.net.outWake.getD i 0))).flatten ++
    bytesOf 4 (s.get F.NVTCP_TAKES_DECLARED) ++ [ts.length, es.length] ++ List.replicate 26 0 ++
    records 64 16 (ts.map s.verTake) ++ records 32 32 (es.map verEventRecord)

/-- An arbitration record (R454). -/
def arbRecord (r : ArbRec) : List Nat :=
  bytesOf 8 r.tb ++ bytesOf 4 r.take ++ bytesOf 4 r.frame ++ [r.stream % 256, r.outcome % 256] ++ bytesOf 2 r.piece ++ bytesOf 4 r.own ++
    bytesOf 4 r.peer ++ bytesOf 4 r.trailer

/-- R454: the Pair State page. -/
def State.pairPage (s : State) : List Nat :=
  let p := s.pair
  bytesOf 4 s.pairWord ++ bytesOf 4 p.peerWord ++ bytesOf 8 p.stateTb ++ [p.lossCause % 256] ++ List.replicate 7 0 ++
    bytesOf 8 (s.nv.peer.getD 0) ++ bytesOf 4 p.failovers ++ bytesOf 4 s.nv.div.length ++
    bytesOf 4 (p.ident.elim 0 (fun i => i.segs.length)) ++ bytesOf 4 p.left.length ++ bytesOf 4 s.nv.divTakes.length ++
    List.replicate 12 0 ++ records 32 16 (p.arbs.map arbRecord)

/-- An entry of the discovery log (R462, NVMe over Fabrics). -/
def State.discEntry (s : State) (e : Nat × Bool × Nat) : List Nat :=
  layout 1024 [(0, [3, if e.2.1 then 2 else 1, 2]), (4, bytesOf 2 e.1), (6, [255, 255]), (8, bytesOf 2 32),
    (32, padText 32 (digits 5 (s.get F.NVTCP_CFG_IO_PORT))), (256, bytesOf 256 (Config.identity 768)),
    (512, padText 256 (if e.2.1 then textV6 e.2.2 else textV4 e.2.2))]

/-- The discovery log. -/
def State.discPage (s : State) : List Nat :=
  let es := s.discEntries
  layout 1024 [(0, bytesOf 8 s.net.gen), (8, bytesOf 8 es.length)] ++ (es.map s.discEntry).flatten

/-- The log page of an identifier. -/
def State.logPage (s : State) (lid : Nat) : Option (List Nat) :=
  match lid with
  | 0x01 => some s.errorPage
  | 0x02 => some s.smartPage
  | 0x03 => some s.firmwarePage
  | 0x04 => some s.changedPage
  | 0x05 => some effectsPage
  | 0x06 => some s.selfTestPage
  | 0x81 => some s.sanitizePage
  | 0xC0 => some (recordBytes s.ledgerRecord)
  | 0xC1 => some s.framePage
  | 0xC2 => some s.verifyPage
  | 0xC3 => some s.pairPage
  | 0xC4 => some s.eraseHistogram
  | 0xC5 => some s.snapshotLog
  | _ => none

/-- Table 16-3: the log pages that reach the dock. -/
def dockLog (lid : Nat) : Bool := [0x01, 0x02, 0x03, 0x05, 0x06, 0xC0, 0xC1, 0xC2, 0xC3, 0xC4].contains lid

/-- The page that a command may read. -/
def State.logFor (s : State) (id : Cid) (lid : Nat) : Option (List Nat) :=
  if s.onDisc id.src then (if lid = 0x70 then some s.discPage else none)
  else if isDock id.src && !dockLog lid then none
  else s.logPage lid

/-- R213: a page read with RAE clear lets its events be reported again. -/
def State.logRead (s : State) (id : Cid) (lid : Nat) : State :=
  let s1 := if lid = 0x04 then { s with host := { s.host with nsChanged := [] } } else s
  match id.src with
  | .dock conn =>
    (match s1.ctrlOf conn with
      | some (k, c) => s1.putCtrl k { c with told := c.told.filter (fun a => a.log ≠ lid) }
      | none => s1)
  | _ => { s1 with host := { s1.host with told := s1.host.told.filter (fun a => a.log ≠ lid) } }

/-- Get Log Page: `bytes` of a page from an offset, as far as the page goes. -/
def execGetLogPage (id : Cid) (lid off bytes : Nat) (rae bad : Bool) (s : State) : Host.Outcome State Fault Refusal :=
  done (s.arrive id (fun s =>
    let page := (s.logFor id lid).getD []
    s.judge id
      [s.adminOnly id true, badField bad, ((s.logFor id lid).isNone, (1, 0x09, 0)), (page.length < off, (0, 0x02, 0))]
      (fun s =>
        let s1 := if rae then s else s.logRead id lid
        State.ok { s1 with fresh := s1.fresh + 2 } id 0 0 ((page.drop off).take bytes))))

/-! ### Identify (Tables 07-2, 07-6; R409) -/

/-- The LBA formats of Table 07-6, as Identify Namespace lists them. -/
def lbaFormats : List Nat := ((List.range 6).map (fun f => bytesOf 2 (fmtMeta f) ++ [if fmt512 f then 9 else 12, 0])).flatten

/-- Identify Namespace. -/
def nsPage (n : Ns) : List Nat :=
  layout 4096 [(0, bytesOf 8 n.size), (8, bytesOf 8 n.size), (16, bytesOf 8 n.size), (25, [5, n.fmt % 16, 3, 0x15, n.dps % 16]),
    (48, bytesOf 16 (n.size * fmtBytes n.fmt)), (128, lbaFormats)]

/-- The capabilities common to all namespaces. -/
def nsCommon : List Nat := layout 4096 [(25, [5, 0, 3, 0x15]), (128, lbaFormats)]

/-- A power state descriptor (R201). -/
def powerState (p : Nat) : List Nat := layout 32 [(0, bytesOf 2 (psPower p / 10)), (4, bytesOf 4 10), (8, bytesOf 4 10)]

/-- TNVMCAP, 0 before its first computation. -/
def State.tnvm (s : State) : Nat := s.nv.tnvmcap.getD 0

/-- Identify Controller. -/
def State.ctrlPage (s : State) (cntlid type : Nat) : List Nat :=
  layout 4096 [(0, bytesOf 4 (Config.identity 0)), (4, bytesOf 68 (Config.identity 4)), (72, bytesOf 4 (Config.identity 72)), (77, [8]),
    (78, bytesOf 2 cntlid), (80, bytesOf 4 0x00020000), (84, bytesOf 4 (Config.identity 84)), (88, bytesOf 4 1000), (111, [type]),
    (256, bytesOf 2 0x003E), (258, [7, 7, 4, 6, 63, 3]), (266, bytesOf 4 (Config.identity 266)), (280, bytesOf 16 s.tnvm),
    (296, bytesOf 16 (s.tnvm - s.nsBytes)), (316, bytesOf 2 30), (319, [16]), (320, bytesOf 2 1), (328, bytesOf 4 3),
    (512, [0x66, 0x44]), (514, bytesOf 2 (Config.identity 514)), (516, bytesOf 4 16), (520, bytesOf 2 0x008D), (524, [6, 0]),
    (526, bytesOf 2 255), (528, bytesOf 2 255), (536, bytesOf 4 0x00010001), (768, bytesOf 256 (Config.identity 768)),
    (1792, bytesOf 32 (Config.identity 1792)), (2048, ((List.range 4).map powerState).flatten)]

/-- A list of namespace identifiers above one. -/
def nsList (ks : List Nat) (after : Nat) : List Nat := records 4 1024 ((ks.filter (fun k => decide (after < k))).map (bytesOf 4))

/-- A controller list. -/
def ctrlList (ks : List Nat) : List Nat := bytesOf 2 ks.length ++ records 2 2047 (ks.map (bytesOf 2))

/-- Identify data: the bytes, or the status that says why there are none. -/
def State.identify (s : State) (id : Cid) (cns nsid cntid : Nat) : Except Why (List Nat) :=
  let mine := match id.src with
    | .dock conn => ((s.net.conns.find? conn).bind (·.ctrl)).getD 0
    | _ => 0
  let zeros := List.replicate 4096 0
  let known := 1 ≤ nsid && decide (nsid ≤ 16)
  let all := s.nv.nses.map (·.1)
  let live := ((s.nv.nses.filter (fun e => e.2.attached)).map (·.1))
  if s.onDisc id.src && cns ≠ 0x01 then .error (0, 0x02, 0)
  else match cns with
    | 0x00 =>
      if nsid = 0xFFFFFFFF then .ok nsCommon
      else if !known then .error (0, 0x0B, 0) else .ok ((s.ns? nsid).elim zeros nsPage)
    | 0x01 => .ok (s.ctrlPage mine (if s.onDisc id.src then 2 else 1))
    | 0x02 => if 0xFFFFFFFE ≤ nsid then .error (0, 0x0B, 0) else .ok (nsList live nsid)
    | 0x03 => if (s.ns? nsid).isNone then .error (0, 0x0B, 0) else .ok (layout 4096 [(0, [1, 8, 0, 0]), (4, bytesOf 8 (Config.identity (4096 + nsid))), (12, [4, 1, 0, 0, 0])])
    | 0x05 =>
      if !known then .error (0, 0x0B, 0)
      else if (s.ns? nsid).isNone then .ok zeros
      else .ok (layout 4096 [(12, ((List.range 6).map (fun f => [0, if fmtMeta f = 16 then 2 else 0, 0, 0])).flatten)])
    | 0x06 => .ok zeros
    | 0x10 => if 0xFFFFFFFE ≤ nsid then .error (0, 0x0B, 0) else .ok (nsList all nsid)
    | 0x11 => if !known then .error (0, 0x0B, 0) else .ok ((s.nv.nses.find? nsid).elim zeros nsPage)
    | 0x12 => if !known then .error (0, 0x0B, 0) else .ok (ctrlList (if (s.ns? nsid).isSome && cntid = 0 then [0] else []))
    | 0x13 => .ok (ctrlList (((0 :: s.net.ctrls.map (·.1))).filter (fun k => decide (cntid ≤ k))))
    | _ => .error (0, 0x02, 0)

/-- Identify. -/
def execIdentify (id : Cid) (cns nsid cntid : Nat) (bad : Bool) (s : State) : Host.Outcome State Fault Refusal :=
  done (s.arrive id (fun s => s.judge id [s.adminOnly id true, badField bad] (fun s =>
    match s.identify id cns nsid cntid with
    | .ok page => s.ok id 0 0 page
    | .error w => s.reject id w)))

end Sys2Proof.Machine
end

