-- ==== Sys2Proof/Machine/Mbx.lean ====
section
/-!
DEFINITION. The commands of the mailboxes (chapter 17, R485 to R498): register writes by sender and receiver, the JTAG path, the
requests that firmware serves, and what the peer's half of set P sends.
-/

namespace Sys2Proof.Machine

/-! ### Register writes by role (R486, R490, R492) -/

/-- The BAR2 page offset of a register of a direction block. -/
def mbxOff (d r : Nat) : Nat := 0x100 * (d + 1) + r

/-- A write by a requester that has not the role is ignored, and ACCESS_DENY sets. -/
def State.mbxDeny (s : State) (who : Req) (off : Nat) : State :=
  (s.raise E.SYS_ACCESS_DENY).logAccess 2 true who (regAddr Pg.MBX off)

/-- What a sender does. -/
def State.bySender (s : State) (who : Req) (d r : Nat) (f : State → State) : State :=
  if s.mbxSender d who then f s else s.mbxDeny who (mbxOff d r)

/-- What a receiver does. -/
def State.byReceiver (s : State) (who : Req) (d r : Nat) (f : State → State) : State :=
  if s.mbxReceiver d who then f s else s.mbxDeny who (mbxOff d r)

/-- RING. -/
def State.wRing (s : State) (who : Req) (d b : Nat) : State := s.bySender who d 0x00 (fun s => s.mbxRing d b)

/-- A write of DB, which clears. -/
def State.wDb (s : State) (who : Req) (d b : Nat) : State := s.byReceiver who d 0x08 (fun s => s.mbxClear d b)

/-- MASK. -/
def State.wMask (s : State) (who : Req) (d v : Nat) : State := s.byReceiver who d 0x10 (fun s => s.set (F.MBX_MASK d) v)

/-- BLK_CTL.GO. -/
def State.wGo (s : State) (who : Req) (d : Nat) : State :=
  s.bySender who d 0x20 (fun s =>
    if !s.mayPost d then s.mbxBusy d
    else
      let s1 := s.mbxGo d (reqCode who)
      if d = 0 then State.mbxUnknown 66 s1 else s1)

/-- BLK_CTL.DONE. -/
def State.wDone (s : State) (who : Req) (d : Nat) : State := s.byReceiver who d 0x20 (fun s => s.mbxDone d)

/-- BLK_CTL.RELEASE. -/
def State.wRelease (s : State) (who : Req) (d : Nat) : State := s.bySender who d 0x20 (fun s => s.mbxRelease d)

/-- Q_PUSH. -/
def State.wPush (s : State) (who : Req) (d w : Nat) : State :=
  s.bySender who d 0x28 (fun s =>
    let s1 := s.mbxPush d w
    if d = 0 then State.mbxUnknown 66 s1 else s1)

/-- Q_POP. -/
def State.wPop (s : State) (who : Req) (d n : Nat) : State := s.byReceiver who d 0x30 (fun s => s.mbxPop d (n % 128))

/-- A block word: the sender's in IDLE, the receiver's in POSTED. -/
def State.wWord (s : State) (who : Req) (d k v : Nat) : State :=
  let st := s.get (F.MBX_BLK_STATE_STATE d)
  if !s.mbxSender d who && !s.mbxReceiver d who then s.mbxDeny who (mbxOff d (0x80 + 8 * k))
  else if (s.mbxSender d who && st = 0) || (s.mbxReceiver d who && st = 1) then
    let s1 := s.set (F.MBX_BLK_WORD d k) v
    if d = 2 then s1.mbxTravel 2 MB_WORD k [v % 2 ^ 64] else s1
  else s.mbxBusy d

/-- A 64-bit write of an MBX register that the fabric has let through. -/
def State.mbxWrite (s : State) (who : Req) (off v : Nat) : State :=
  let d := off / 0x100 - 1
  let r := off % 0x100
  if off < 0x100 || 0x500 ≤ off then s
  else match r with
    | 0x00 => s.wRing who d v
    | 0x08 => s.wDb who d v
    | 0x10 => s.wMask who d v
    | 0x20 =>
      let s1 := if bit v 0 then s.wGo who d else s
      let s1 := if bit v 1 then s1.wDone who d else s1
      if bit v 2 then s1.wRelease who d else s1
    | 0x28 => s.wPush who d v
    | 0x30 => s.wPop who d v
    | _ => if 0x80 ≤ r then s.wWord who d ((r - 0x80) / 8) v else s

/-- An MBX page access of any requester. A clear of DB is W1C, which no mode but Keep ignores (Table 04-5). -/
def State.mbxAccess (s : State) (who : Req) (off v : Nat) : State :=
  if off % 0x100 = 0x08 then s.regAction who Pg.MBX off (fun s => s.mbxWrite who off v)
  else s.rwAction who Pg.MBX off (fun s => s.mbxWrite who off v)

/-! ### Commands on the registers -/

/-- RING. -/
def execMbxRing (who : Req) (d b : Nat) (s : State) : Host.Outcome State Fault Refusal :=
  done (if d < 4 then s.mbxAccess who (mbxOff d 0x00) b else s)

/-- DB. -/
def execMbxDbClear (who : Req) (d b : Nat) (s : State) : Host.Outcome State Fault Refusal :=
  done (if d < 4 then s.mbxAccess who (mbxOff d 0x08) b else s)

/-- BLK_CTL.GO. -/
def execMbxBlockGo (who : Req) (d : Nat) (s : State) : Host.Outcome State Fault Refusal :=
  done (if d < 4 then s.mbxAccess who (mbxOff d 0x20) 1 else s)

/-- BLK_CTL.DONE. -/
def execMbxBlockDone (who : Req) (d : Nat) (s : State) : Host.Outcome State Fault Refusal :=
  done (if d < 4 then s.mbxAccess who (mbxOff d 0x20) 2 else s)

/-- BLK_CTL.RELEASE. -/
def execMbxBlockRelease (who : Req) (d : Nat) (s : State) : Host.Outcome State Fault Refusal :=
  done (if d < 4 then s.mbxAccess who (mbxOff d 0x20) 4 else s)

/-- Q_PUSH. -/
def execMbxQPush (who : Req) (d w : Nat) (s : State) : Host.Outcome State Fault Refusal :=
  done (if d < 4 then s.mbxAccess who (mbxOff d 0x28) w else s)

/-- Q_POP. -/
def execMbxQPop (who : Req) (d n : Nat) (s : State) : Host.Outcome State Fault Refusal :=
  done (if d < 4 then s.mbxAccess who (mbxOff d 0x30) n else s)

/-- R487: an Update-DR of MBXACC: one 64-bit access as Sniwyn. What a read returns, Capture-DR loads. -/
def execMbxacc (write : Bool) (index data : Nat) (s : State) : Host.Outcome State Fault Refusal :=
  done (
    let s := { s with pins := { s.pins with mbxacc := true } }
    if s.mode = Md.KEEP || index < 0x020 || 0x05F < index then s
    else if write then s.mbxAccess .sniwyn (8 * index) (data % 2 ^ 64)
    else { s with fabric := { s.fabric with data := s.readReg Pg.MBX (8 * index) } })

/-- R648: TRST_N low for 100 ns returns the TAP to Test-Logic-Reset: MBXACC is no longer selected. -/
def execTrstNAssert (s : State) : Host.Outcome State Fault Refusal := done { s with pins := { s.pins with mbxacc := false } }

/-! ### Requests that firmware serves (R495 to R497, Table 17-3) -/

/-- A request in the block that is under way: its mode request or its forwarding has not ended. -/
def State.blockServing (s : State) : Bool :=
  s.mc.waitMbx.any (fun r => r.via = 1) || s.mc.heldMbx.any (fun x => x.2.via = 1) || s.mbx.fwd.any (fun x => x.2.via = 1) ||
    s.pair.relays.any (fun r => match modeByOf r.id r.args with
      | .mbx q => r.cmd = RL_MODE && q.via = 1
      | _ => false)

/-- Firmware serves the front request of a source, if it is of the type. -/
def State.mbxServe (s : State) (via type : Nat) (f : MbxReq → State → State) : State :=
  if via = 1 && s.blockServing then s
  else match s.mbxFront via with
    | some r => if hdrType (r.words.headD 0) = type then State.mbxUnknown 66 (f r (s.mbxTake r)) else s
    | none => s

/-- The body of a request, if the words it announces are there and are as many as its type has. -/
def mbxBody (r : MbxReq) (lo hi : Nat) : Option (List Nat) :=
  match r.words with
  | [] => none
  | h :: body => if hdrWords h = body.length && decide (lo ≤ body.length) && decide (body.length ≤ hi) then some body else none

/-- A request whose body is of the right length is served; another is answered BAD_LENGTH. -/
def State.withBody (s : State) (r : MbxReq) (lo hi : Nat) (f : List Nat → State) : State :=
  match mbxBody r lo hi with
  | some b => f b
  | none => s.mbxReply r 2 []

/-- PING. -/
def execPing (via : Nat) (s : State) : Host.Outcome State Fault Refusal :=
  done (s.mbxServe via 0x01 (fun r s => s.withBody r 0 62 (fun b => s.mbxReply r 0 b)))

/-- MODE_REQ. -/
def execMbxModeReq (via : Nat) (s : State) : Host.Outcome State Fault Refusal :=
  done (s.mbxServe via 0x04 (fun r s => s.withBody r 1 1 (fun b => s.requestMode (.mbx r) (b.headD 0 % 16))))

/-- INFO: page identity, mode, readiness, and the security state with the debug level and its authority (R547). -/
def State.infoWords (s : State) : List Nat :=
  [s.readReg Pg.SYS 0x000, s.readReg Pg.SYS 0x100, s.readReg Pg.SYS 0x118,
   s.secState + 2 ^ 8 * s.dbgLevel + 2 ^ 10 * s.get F.DBG_STATUS_AUTHORITY]

/-- INFO. -/
def execInfo (via : Nat) (s : State) : Host.Outcome State Fault Refusal :=
  done (s.mbxServe via 0x05 (fun r s => s.withBody r 0 0 (fun _ => s.mbxReply r 0 s.infoWords)))

/-- FORWARD: the request goes to the peer. -/
def State.mbxForward (s : State) (r : MbxReq) (body : List Nat) : State :=
  if !s.ready Fn.MBX_P then s.mbxReply r 5 []
  else
    let n := s.mbx.fwdN + 1
    State.pairSend { s with mbx := { s.mbx with fwdN := n, fwd := s.mbx.fwd ++ [(n, r)] } } (.forward n body)

/-- FORWARD. A body that is no complete request is BAD_LENGTH. -/
def execForward (via : Nat) (s : State) : Host.Outcome State Fault Refusal :=
  done (s.mbxServe via 0x06 (fun r s => s.withBody r 1 62 (fun b =>
    if hdrWords (b.headD 0) + 1 = b.length then s.mbxForward r b else s.mbxReply r 2 [])))

/-- A forwarded request has had no answer for 10 ms. -/
def execForwardTimeout (n : Nat) (s : State) : Host.Outcome State Fault Refusal :=
  done (match s.mbx.fwd.find? (fun x => x.1 = n) with
    | some (_, r) => State.mbxReply { s with mbx := { s.mbx with fwd := s.mbx.fwd.filter (fun x => x.1 ≠ n) } } r 6 []
    | none => s)

/-- Words of a log page from a byte offset; beyond its end they read 0. -/
def pageWords (page : List Nat) (off n : Nat) : List Nat :=
  (List.range n).map (fun i => ofBytes ((page.drop (off + 8 * i)).take 8))

/-- LOG_READ. -/
def State.mbxLog (s : State) (r : MbxReq) (req : Nat) : State :=
  let lid := req % 256
  let n := bits req 8 8
  let off := req / 2 ^ 16
  if n = 0 || 62 < n || off % 8 ≠ 0 then s.mbxReply r 2 []
  else if s.secLocked && s.dbgLevel = 0 && (lid = 0xC1 || lid = 0xC2) then s.mbxReply r 3 []
  else match s.logPage lid with
    | some page => State.mbxReply { s with fresh := s.fresh + 2 } r 0 (pageWords page off n)
    | none => s.mbxReply r 4 []

/-- LOG_READ. -/
def execLogRead (via : Nat) (s : State) : Host.Outcome State Fault Refusal :=
  done (s.mbxServe via 0x07 (fun r s => s.withBody r 1 1 (fun b => s.mbxLog r (b.headD 0))))

/-- The words of the request at the front of the HI queue have not all come within 10 ms: it is dropped. -/
def execMessageBodyTimeout (s : State) : Host.Outcome State Fault Refusal :=
  done (match s.queue 0 with
    | [] => s
    | h :: rest =>
      if !s.ready Fn.MBX_H || s.hiFront.isSome then s
      else State.mbxUnknown 66 ((s.setQueue 0 (rest.drop (hdrWords h))).mbxReply ⟨0, [h], s.tb⟩ 2 []))

/-! ### What the peer sends (R492, R497) -/

/-- The peer's firmware, as BLK_STATE.POSTER names it. -/
def POSTER_PEER : Nat := 3

/-- A sender-side change of the peer's PO arrives in PI. -/
def State.piWrite (s : State) (kind idx : Nat) (ws : List Nat) : State :=
  let w := ws.headD 0
  if kind = MB_RING then s.mbxRing 3 w
  else if kind = MB_WORD then s.set (F.MBX_BLK_WORD 3 (idx % 16)) w
  else if kind = MB_GO then ((s.setBlk 3 ws).set (F.MBX_BLK_STATE_STATE 3) 1).set (F.MBX_BLK_STATE_POSTER 3) POSTER_PEER
  else if kind = MB_RELEASE then s.set (F.MBX_BLK_STATE_STATE 3) 0
  else if kind = MB_PUSH then s.mbxPush 3 w
  else s

/-- A receiver-side change of the peer's PI arrives in PO. -/
def State.poUpdate (s : State) (kind : Nat) (ws : List Nat) : State :=
  let w := ws.headD 0
  if kind = MB_CLEAR then s.set (F.MBX_DB 2) (s.get (F.MBX_DB 2) - Nat.land (s.get (F.MBX_DB 2)) (w % 2 ^ 32))
  else if kind = MB_DONE then (s.setBlk 2 ws).set (F.MBX_BLK_STATE_STATE 2) 2
  else if kind = MB_POP then s.setQueue 2 ((s.queue 2).drop w)
  else s

/-- The peer's answer to a request that this half forwarded: it goes back whole. -/
def State.forwardDone (s : State) (n : Nat) (ws : List Nat) : State :=
  match s.mbx.fwd.find? (fun x => x.1 = n) with
  | some (_, r) => State.mbxReply { s with mbx := { s.mbx with fwd := s.mbx.fwd.filter (fun x => x.1 ≠ n) } } r 0 ws
  | none => s

/-- A MAILBOX message of the peer arrives: `dir` 2 a sender-side change of its PO, 3 a receiver-side change of its PI; `kind` 8 a
request that it forwards, 9 the answer to one of this half's. -/
def execMailbox (kind dir idx : Nat) (words : List Nat) (s : State) : Host.Outcome State Fault Refusal :=
  done (if !s.ready Fn.PAIR_LINK then s
    else if kind = 8 then State.mbxUnknown 66 { s with mbx := { s.mbx with served := s.mbx.served ++ [⟨2, words, idx⟩] } }
    else if kind = 9 then s.forwardDone idx words
    else if dir = 2 then s.piWrite kind idx words
    else if dir = 3 then s.poUpdate kind words
    else s)

end Sys2Proof.Machine
end

