-- ==== Sys2Proof/Machine/Commit.lean ====
section
/-!
DEFINITION. Commits of shadowed settings (chapter 02): the reasons each chapter gives for refusing one, acceptance, what follows the
adoption of a page, and the snapshot trigger's registers.
-/

namespace Sys2Proof.Machine

/-! ### Refusal reasons (Table 02-4) -/

/-- Table 02-4. -/
def RS_EPOCH : Nat := 1
/-- Table 02-4. -/
def RS_BUSY : Nat := 2
/-- Table 02-4. -/
def RS_MODE : Nat := 3
/-- Table 02-4. -/
def RS_IN_USE : Nat := 4
/-- Table 02-4. -/
def RS_SECURITY : Nat := 5
/-- Table 02-4. -/
def RS_VALUE : Nat := 6
/-- Table 02-4. -/
def RS_SEAL : Nat := 7

/-- R50: epoch `t` is ahead of epoch `a`. -/
def epochAhead (t a : Nat) : Bool :=
  1 ≤ (t % 2 ^ 24 + 2 ^ 24 - a) % 2 ^ 24 && decide ((t % 2 ^ 24 + 2 ^ 24 - a) % 2 ^ 24 ≤ 2 ^ 23)

/-- The pending value of a field differs from its active value. -/
def State.changes (s : State) (f : Field) : Bool := s.getP f ≠ s.get f

/-- R12: a pending value that the field's own table reserves. -/
def State.reservedPending (s : State) (p : Nat) : Bool :=
  s.pend.any (fun e => keyPage e.1 = p && (fieldOf e.1).any (fun f => !f.legal.ok e.2))

/-- A list of numbers in strictly rising order. -/
def rising : List Nat → Bool
  | [] => true
  | [_] => true
  | a :: b :: l => decide (a < b) && rising (b :: l)

/-- The bytes of a BUDGET floor or ceiling word. -/
def laneBytes (v : Nat) : List Nat := bytesOf 8 v

/-- A new TNVMCAP (R409). -/
def State.tnvmFor (s : State) (rsvPct rsvBands op : Nat) : Nat :=
  let bands := s.bandTotal - ceilDiv (s.bandTotal * rsvPct) 100 - rsvBands
  bands * s.bandStripes * 63 * 16384 * (100 - op) / 100 / 10 ^ 9 * 10 ^ 9

/-! ### Combinations of values (R12 and the chapters) -/

/-- R187. -/
def State.badBudget (s : State) : Bool :=
  let g := s.getP
  let floors := (List.range 12).map (fun m => laneBytes (g (F.BUDGET_FLOOR_M_FLOOR m)))
  let ceils := (List.range 12).map (fun m => laneBytes (g (F.BUDGET_CEIL_M_CEIL m)))
  floors.any (fun l => decide (128 < total l)) ||
    (List.range 12).any (fun m => (List.range 8).any (fun k => decide (((ceils.getD m []).getD k 0) < ((floors.getD m []).getD k 0)))) ||
    (floors ++ ceils).any (fun l => l.any (fun v => decide (128 < v))) ||
    !rising [g F.BUDGET_THERM_TJ_TJ1, g F.BUDGET_THERM_TJ_TJ2, g F.BUDGET_THERM_TJ_TJ3] ||
    decide (g F.BUDGET_THERM_CAP_CAP_T1_MW < g F.BUDGET_THERM_CAP_CAP_T2_MW) ||
    decide (g F.BUDGET_THERM_CAP_CAP_T2_MW < g F.BUDGET_THERM_CAP_CAP_T3_MW) ||
    [F.BUDGET_COST_A_ERASE, F.BUDGET_COST_A_PROG_SLC, F.BUDGET_COST_A_PROG, F.BUDGET_COST_A_READ, F.BUDGET_COST_B_RETRY,
      F.BUDGET_COST_B_XFER, F.BUDGET_POOL_POOL_MIN_UJ].any (fun f => g f = 0)

/-- R152, R166. -/
def State.badLedger (s : State) : Bool :=
  decide (s.getP F.LEDGER_BANK_V_FULL_MV ≤ s.getP F.LEDGER_BANK_V_FLOOR_MV) ||
    decide (s.getP F.LEDGER_FLOW_XON_UJ ≤ s.getP F.LEDGER_FLOW_XOFF_UJ)

/-- R279: the descriptors; a sketch companion is looked at where sketches are made. -/
def State.badFrame (s : State) : Bool :=
  let a (st : Nat) : Nat := s.getP (F.FRAME_DESC_A_DESC st)
  let b (st : Nat) : Nat := s.getP (F.FRAME_DESC_B_DESC st)
  let on := (List.range 256).filter (fun st => bit (a st) 8)
  let comp := on.map (fun st => bits (a st) 0 8)
  (List.range 256).any (fun st =>
    decide (16384 < bits (b st) 0 16) || decide (3 < bits (a st) 12 3) || bits (a st) 16 2 = 3) ||
  on.any (fun st =>
    let d := if bit (a st) 9 then 16 else 8
    let bad (v : Nat) : Bool := v = 0 || v % d ≠ 0
    bad (bits (b st) 0 16) || bad (bits (b st) 16 16) || bits (a st) 0 8 = st || bits (a st) 0 8 = s.getP F.FRAME_ACAP_STREAM) ||
  comp.eraseDups.length ≠ comp.length

/-- The pending configuration of a stream. -/
def State.streamP (s : State) (st : Nat) : StreamCfg :=
  ⟨s.getP (F.MAP_STREAM_CFG_NSID st), s.getP (F.MAP_STREAM_CFG_MODE st), s.getP (F.MAP_STREAM_CFG_PG st),
   s.getP (F.MAP_STREAM_REGION_BASE_EXT st), s.getP (F.MAP_STREAM_REGION_LEN_EXT st)⟩

/-- R320: regions of one namespace overlap. -/
def regionsMeet (c d : StreamCfg) : Bool :=
  c.nsid = d.nsid && c.nsid ≠ 0 && decide (c.base < d.base + d.len) && decide (d.base < c.base + c.len)

/-- Some two of a list of regions overlap. -/
def someMeet : List StreamCfg → Bool
  | [] => false
  | c :: l => l.any (regionsMeet c) || someMeet l

/-- R320. -/
def State.badMap (s : State) : Bool :=
  let cs := ((List.range 256).map s.streamP).filter (fun c => c.nsid ≠ 0)
  cs.any (fun c => (s.nv.nses.find? c.nsid).any (fun n => decide (n.leaves < 64 * (c.base + c.len)) && c.len ≠ 0)) || someMeet cs ||
    s.getP F.MAP_CFG_JTAIL_MAX < 64 || 2048 < s.getP F.MAP_CFG_JTAIL_MAX ||
    s.getP F.MAP_CFG_RSV_BANDS < 2 || 32 < s.getP F.MAP_CFG_RSV_BANDS

/-- R399. -/
def State.badEcc (s : State) : Bool :=
  let g := s.getP
  !rising [g F.ECC_TIER_WEAR_W1, g F.ECC_TIER_WEAR_W2, g F.ECC_TIER_WEAR_W3, g F.ECC_TIER_WEAR_W4, g F.ECC_TIER_WEAR_W5,
      g F.ECC_TIER_WEAR_W6, g F.ECC_TIER_WEAR_W7] ||
    [F.ECC_TIER_CFG_GROOM_MIN, F.ECC_TIER_CFG_META_MIN, F.ECC_TIER_CFG_LEAF_MIN, F.ECC_TIER_CFG_STREAM_MIN].any
      (fun f => decide (s.get F.ECC_STATUS_MAX_TIER < g f)) ||
    g F.ECC_RETRY_N_COUNT = 0 || decide (g F.ECC_RETRY_N_COUNT ≤ g F.ECC_DECODE_RETRY_MAX) || g F.ECC_DECODE_ITER_HARD = 0

/-- R421, R424. Without bands GC_RSV is not judged. -/
def State.badGroom (s : State) : Bool :=
  let g := s.getP
  decide (g F.GROOM_CFG_EXIT_PCT ≤ g F.GROOM_CFG_ENTER_PCT) || decide (g F.GROOM_CFG_BG_START_PCT < g F.GROOM_CFG_EXIT_PCT) ||
    g F.GROOM_CFG_RELOC_MAX < 512 || 2048 < g F.GROOM_CFG_RELOC_MAX || g F.GROOM_CFG_RELOC_MAX % 4 ≠ 0 ||
    g F.GROOM_OP_OP_PCT < 7 || 50 < g F.GROOM_OP_OP_PCT || g F.GROOM_CFG_ERASED_TARGET = 0 || g F.GROOM_WL_RATED = 0 ||
    g F.GROOM_CFG_RSV_PCT < 2 || (s.bandTotal ≠ 0 && decide (ceilDiv (s.bandTotal * g F.GROOM_CFG_RSV_PCT) 100 < 2))

/-- R480. -/
def State.badNet (s : State) (n : Nat) : Bool :=
  let g := s.getP
  g (F.NET_CFG_MTU n) < 1500 || 9216 < g (F.NET_CFG_MTU n) || (g (F.NET_CFG_FEC n) = 1 && g (F.NET_CFG_SPEED n) = 1)

/-- R480. -/
def State.badNvtcp (s : State) : Bool :=
  let g := s.getP
  g F.NVTCP_CFG_IO_PORT = g F.NVTCP_CFG_DISC_PORT || g F.NVTCP_CFG_MAX_QSIZE = 0 || 1023 < g F.NVTCP_CFG_MAX_QSIZE ||
    g F.NVTCP_VERIFY_CFG_HOLD_KIB < 128 || 4096 < g F.NVTCP_VERIFY_CFG_HOLD_KIB

/-- R369. -/
def State.badFch (s : State) (c : Nat) : Bool :=
  let g := s.getP
  g (F.FCH_TIMEOUT_PROG_US c) = 0 || g (F.FCH_TIMEOUT_READ_US c) = 0 || g (F.FCH_TIMEOUT_ERASE_US c) = 0 ||
    (g (F.FCH_PAD_ODT c) = 3 && s.flashIface c = 2) || 8 < g (F.FCH_SUSP_MAX_PROG c) || 8 < g (F.FCH_SUSP_MAX_ERASE c)

/-- Reason VALUE: a reserved pending value, or a combination that the page's chapter calls illegal. -/
def State.badValue (s : State) (p : Nat) : Bool :=
  s.reservedPending p ||
  (match p with
   | 0x03 => s.badBudget
   | 0x04 => s.badLedger
   | 0x12 => decide (8 < s.getP F.INGEST_CFG_PATTERN_TOL) || s.getP F.INGEST_CFG_MAX_LEN_MIB = 0
   | 0x13 => s.badFrame
   | 0x14 => s.badMap
   | 0x15 => s.getP F.MCACHE_CFG_WAYS = 0 || 16 < s.getP F.MCACHE_CFG_WAYS
   | 0x16 => decide (8 < s.getP F.DRAMC_CFG_GRAIN) || s.getP F.DRAMC_CFG_ORDER = 3
   | 0x18 => s.badEcc
   | 0x19 => s.getP F.SCRUB_CFG_PASS_H = 0 || s.getP F.SCRUB_CFG_REFRESH_PCT = 0 || 100 < s.getP F.SCRUB_CFG_REFRESH_PCT ||
      s.getP F.SCRUB_SRAM_PATROL_MS = 0
   | 0x1a => s.badGroom
   | 0x1b => s.getP F.PAIR_CFG_STALL_MS = 0
   | 0x1c => s.badNet 0
   | 0x1d => s.badNet 1
   | 0x1e => s.badNvtcp
   | _ => 0x20 ≤ p && p < 0x60 && s.badFch (p - 0x20))

/-! ### Modes and resources in use -/

/-- R343: a layout field changes. -/
def State.layoutChanges (s : State) : Bool :=
  [F.DRAMC_CFG_RATE, F.DRAMC_CFG_GRAIN, F.DRAMC_CFG_ORDER, F.DRAMC_CFG_FINDEX_MIB].any s.changes

/-- Reason MODE, besides Table 04-5's row for Quarantine. -/
def State.badMode (s : State) (p : Nat) : Bool :=
  (s.mode = Md.QUARANTINE && !mgmtClass p) ||
  (match p with
   | 0x14 => s.changes F.MAP_LEAF_POOL_MIB && s.mode ≠ Md.WAKE && s.mode ≠ Md.SERVICE
   | 0x16 => s.layoutChanges && !([Md.REST, Md.WAKE, Md.SERVICE].contains s.mode)
   | 0x1a => s.changes F.GROOM_OP_OP_PCT && s.mode ≠ Md.SERVICE
   | _ => 0x20 ≤ p && p < 0x60 && s.changes (F.FCH_IFCFG_RATE_DIV (p - 0x20)) && s.mode ≠ Md.SERVICE)

/-- R225: a changed binding whose queue pair or streams are in use. -/
def State.bindingUsed (s : State) (k : Nat) : Bool :=
  (s.changes (F.HOSTQ_QBIND_VALID k) || s.changes (F.HOSTQ_QBIND_STREAM k)) &&
    (s.host.cmds.any (fun c => c.id.src = .host (k + 1)) || s.streamTaken (s.get (F.HOSTQ_QBIND_STREAM k)) ||
      s.streamTaken (s.getP (F.HOSTQ_QBIND_STREAM k)))

/-- R279: a changed descriptor of a stream in a take. -/
def State.descUsed (s : State) (st : Nat) : Bool :=
  s.streamTaken st && (bits (s.getP (F.FRAME_DESC_A_DESC st)) 0 15 ≠ bits (s.get (F.FRAME_DESC_A_DESC st)) 0 15 ||
    bits (s.getP (F.FRAME_DESC_B_DESC st)) 0 32 ≠ bits (s.get (F.FRAME_DESC_B_DESC st)) 0 32)

/-- R320: a changed configuration of a stream in a take; its region may grow. -/
def State.regionUsed (s : State) (st : Nat) : Bool :=
  let old := s.streamCfg st
  let new := s.streamP st
  s.streamTaken st && (new.nsid ≠ old.nsid || new.mode ≠ old.mode || new.pg ≠ old.pg || new.base ≠ old.base || decide (new.len < old.len))

/-- R480: the address fields of a port. -/
def netAddr (n : Nat) : List Field :=
  [F.NET_MAC_ADDR n, F.NET_IPV4_DHCP n, F.NET_IPV4_PREFIX n, F.NET_IPV4_ADDR n, F.NET_IPV4_GW_ADDR n, F.NET_IPV6_HI_ADDR n,
   F.NET_IPV6_LO_ADDR n, F.NET_IPV6_CFG_PREFIX n]

/-- R480. -/
def State.netUsed (s : State) (n : Nat) : Bool :=
  ([F.NET_CFG_SPEED n, F.NET_CFG_FEC n, F.NET_CFG_TX_EQ n, F.NET_CFG_MTU n].any s.changes && s.get (F.NET_STATUS_FSTATE n) ≠ 0) ||
    ((netAddr n).any s.changes && s.net.conns.any (fun e => e.2.port = n))

/-- Reason IN_USE. -/
def State.inUse (s : State) (p : Nat) : Bool :=
  match p with
  | 0x10 => (List.range 255).any s.bindingUsed
  | 0x12 =>
    ([F.INGEST_CFG_LANES, F.INGEST_CFG_POLARITY, F.INGEST_CFG_ALIGN_MAX].any s.changes && s.get F.INGEST_STATUS_FSTATE ≠ 0) ||
      (List.range 256).any (fun st => s.streamTaken st && s.getBit (F.INGEST_STREAM_EN_EN (st / 64)) (st % 64) &&
        !bit (s.getP (F.INGEST_STREAM_EN_EN (st / 64))) (st % 64))
  | 0x13 => (List.range 256).any s.descUsed || (s.changes F.FRAME_ACAP_STREAM && s.streamTaken s.capStream)
  | 0x14 => (List.range 256).any s.regionUsed
  | 0x16 => s.layoutChanges && s.mode ≠ Md.REST && s.isl 7 ≠ 0 && s.isl 7 ≠ 1
  | 0x1a => s.changes F.GROOM_OP_OP_PCT &&
      decide (s.tnvmFor (s.getP F.GROOM_CFG_RSV_PCT) (s.get F.MAP_CFG_RSV_BANDS) (s.getP F.GROOM_OP_OP_PCT) < s.nsBytes)
  | 0x1b => (s.changes F.PAIR_CFG_FEED && (s.takesNow ≠ [] || s.mirroring)) ||
      (s.changes F.PAIR_CFG_POLARITY && s.get F.PAIR_STATUS_FSTATE ≠ 0)
  | 0x1c => s.netUsed 0
  | 0x1d => s.netUsed 1
  | 0x1e =>
    ([F.NVTCP_CFG_IO_PORT, F.NVTCP_CFG_DISC_PORT, F.NVTCP_CFG_MAX_QSIZE].any s.changes && s.net.conns ≠ []) ||
      (s.changes F.NVTCP_CFG_STREAM && s.net.conns.any (fun e => e.2.ctrl.isSome && e.2.qid ≠ 0))
  | _ => false

/-- R54: the first reason that a commit of a page by a requester is refused for; 0 where it is accepted. -/
def State.commitReason (s : State) (who : Req) (p epoch : Nat) : Nat :=
  if s.mode = Md.SEAL then RS_SEAL
  else if s.pageLocked p || !s.mayWrite who p 0x040 then RS_SECURITY
  else if s.badMode p then RS_MODE
  else if s.mixed p then RS_BUSY
  else if !epochAhead epoch (s.get (F.ACTIVE_EPOCH p)) then RS_EPOCH
  else if s.badValue p then RS_VALUE
  else if s.inUse p then RS_IN_USE
  else 0

/-! ### What follows an adoption -/

/-- R290, R291: changed streams are journaled; a new base resets the append pointer; a longer region takes waiting data (R311). -/
def State.adoptedStreams (s old : State) : State :=
  let s1 := ((List.range 256).filter (fun st => s.streamCfg st ≠ old.streamCfg st)).foldl (fun s st =>
    let s1 := s.note (.stream st (s.streamCfg st))
    if (s.streamCfg st).base ≠ (old.streamCfg st).base then s1.noteAppend st 0 else s1) s
  s1.settleAll

/-- R309, R319: WAYS. -/
def State.adoptedWays (s : State) : State :=
  let n := s.get F.MCACHE_CFG_WAYS
  match s.map.waysWait with
  | some w => if w < n then s.set F.MCACHE_STATUS_REENABLE_PENDING 1
      else State.set { s with map := { s.map with waysWait := some n } } F.MCACHE_STATUS_REENABLE_PENDING 0
  | none =>
    if n < s.get F.MCACHE_STATUS_WAYS_ON then { s with map := { s.map with waysWait := some n } }
    else if s.get F.MCACHE_STATUS_WAYS_ON < n then (s.set F.MCACHE_STATUS_WAYS_ON n).raise E.MCACHE_WAYS_CHANGED
    else s

/-- R350, R369: the divider in use after a change of RATE_DIV. Where a faster one is asked for and the parts' own limit is not known, how
far it goes is free. -/
def State.adoptedRate (s old : State) (c : Nat) : State :=
  let was := old.get (F.FCH_IFCFG_RATE_DIV c)
  let now := s.get (F.FCH_IFCFG_RATE_DIV c)
  let rate := old.get (F.FCH_STATUS_RATE c)
  if was = now || s.chanState c ≠ 2 then s
  else if was < rate then s.set (F.FCH_STATUS_RATE c) (max now rate)
  else if was ≤ now then s.set (F.FCH_STATUS_RATE c) now
  else (s.set (F.FCH_STATUS_RATE c) (now + Config.undefinedValue s.fresh % (was - now + 1))).draw

/-- What the adoption of a page of an island that is ON brings with it. -/
def State.adopted (s old : State) (p : Nat) : State :=
  match p with
  | 0x04 => s.recost.noteHeadroom.noteFlow
  | 0x14 => s.adoptedStreams old
  | 0x15 => s.adoptedWays
  | 0x1a => s.eraseAhead.noteSpace
  | 0x1c => (if s.get (F.NET_STATUS_LINK 0) = 1 then s.staticAddr 0 else s).noteGen old.discEntries
  | 0x1d => (if s.get (F.NET_STATUS_LINK 1) = 1 then s.staticAddr 1 else s).noteGen old.discEntries
  | 0x1e =>
    if s.get F.NVTCP_CFG_IO_PORT ≠ old.get F.NVTCP_CFG_IO_PORT && s.discEntries ≠ [] then { s with net := { s.net with gen := s.net.gen + 1 } }
    else s
  | _ => if 0x20 ≤ p && p < 0x60 then s.adoptedRate old (p - 0x20) else s

/-- A page adopts its committed values. A changed layout of the DRAM discards its retention (R343). -/
def State.adoptFull (s : State) (p : Nat) : State :=
  let layout (s : State) : List Nat :=
    [s.get F.DRAMC_CFG_RATE, s.get F.DRAMC_CFG_GRAIN, s.get F.DRAMC_CFG_ORDER, s.get F.DRAMC_CFG_FINDEX_MIB]
  let s1 := s.adoptPage p
  let s1 : State := if layout s1 = layout s then s1 else { s1 with dram := { s1.dram with kept := none } }
  if s.isl (pageIsland p) = 2 then s1.adopted s p else s1

/-- R51, R62, R63: an accepted commit: the pending values go into adoption, which is complete at once for the management class, for a page
whose island is OFF or STARTING, and where nothing changes. -/
def State.acceptCommit (s : State) (p epoch : Nat) : State :=
  let es := s.pend.filter (fun e => keyPage e.1 = p)
  let s1 := (s.set (F.PENDING_EPOCH p) epoch).set (F.SHADOW_REFUSED p) 0
  let s1 : State := { s1 with adopt := es.foldl (fun t e => t.put e.1 e.2) s1.adopt }
  if es = [] || mgmtClass p || s.isl (pageIsland p) < 2 then s1.adoptFull p else s1.set (F.SHADOW_MIXED p) 1

/-- A refused commit. -/
def State.refuseCommit (s : State) (p reason : Nat) : State := (s.set (F.SHADOW_REASON p) reason).set (F.SHADOW_REFUSED p) 1

/-- A commit of one page is judged. -/
def State.commitPage (s : State) (who : Req) (p epoch : Nat) : State :=
  let s1 := s.set (F.TARGET_EPOCH p) epoch
  let r := s.commitReason who p epoch
  if r = 0 then s1.acceptCommit p (epoch % 2 ^ 24) else s1.refuseCommit p r

/-- SHADOW_CTL.ABANDON: every pending value of the page is its active value again. -/
def State.abandonPage (s : State) (p : Nat) : State := { s with pend := s.pend.filter (fun e => keyPage e.1 ≠ p) }

/-- SHADOW_CTL with COMMIT set. -/
def execShadowCommit (who : Req) (page epoch : Nat) (s : State) : Host.Outcome State Fault Refusal :=
  done (s.regAction who page 0x040 (fun s => if hasShadow page then s.commitPage who page epoch else s))

/-- ABANDON, which a mode may ignore as an action, and with COMMIT the refusal of the commit: VALUE, unless a reason that comes before it
holds for the epoch in TARGET_EPOCH once the abandon is performed. -/
def State.abandonCommit (s : State) (who : Req) (p : Nat) (commit : Bool) : State :=
  let s1 := if s.rwMode p then s.abandonPage p else s.modeRefused
  let r := s1.commitReason who p (s.get (F.TARGET_EPOCH p))
  if commit then s1.refuseCommit p (if r = 0 || r = RS_IN_USE then RS_VALUE else r) else s1

/-- SHADOW_CTL with ABANDON set, and with COMMIT too where `commit` says so. -/
def execShadowAbandon (who : Req) (page : Nat) (commit : Bool) (s : State) : Host.Outcome State Fault Refusal :=
  done (s.regAction who page 0x040 (fun s => if hasShadow page then s.abandonCommit who page commit else s))

/-- R52: every page with pending changes commits, or none. -/
def State.gcommit (s : State) (who : Req) (epoch : Nat) : State :=
  let ps := (List.range 96).filter s.dirty
  let s1 := (s.set F.SYS_GCOMMIT_TARGET_EPOCH epoch).set F.SYS_GCOMMIT_STATUS_PAGES ps.length
  let bad := ps.filter (fun p => s.commitReason who p epoch ≠ 0)
  if bad ≠ [] then
    ((bad.foldl (fun s' p => s'.refuseCommit p (s.commitReason who p epoch)) s1).set F.SYS_GCOMMIT_STATUS_REFUSED 1).raise E.SYS_COMMIT_REFUSED
  else
    let s1 := s1.set F.SYS_GCOMMIT_STATUS_REFUSED 0
    if ps = [] then s1.raise E.SYS_GCOMMIT_DONE
    else ps.foldl (fun s p => s.acceptCommit p (epoch % 2 ^ 24)) { s1 with fabric := { s1.fabric with gpages := s1.fabric.gpages ++ [ps] } }

/-- SYS.GCOMMIT with GO set. -/
def execGcommit (who : Req) (epoch : Nat) (s : State) : Host.Outcome State Fault Refusal :=
  done (s.regAction who Pg.SYS 0x140 (fun s => s.gcommit who epoch))

/-- R53: the adoption boundary of a page is reached. DRAMC is adopted at its refresh windows alone (R344), a channel's RATE_DIV once it
has no operation (R369); in Seal BUDGET is not adopted (R191). -/
def execCommitAdopted (page : Nat) (s : State) : Host.Outcome State Fault Refusal :=
  done (
    let rateWaits := 0x20 ≤ page && s.adopt.any (fun e => e.1 = (F.FCH_IFCFG_RATE_DIV (page - 0x20)).key) &&
      s.bud.ops.any (fun o => o.chan = page - 0x20)
    if page < 96 && s.mixed page && page ≠ Pg.DRAMC && !rateWaits && !(s.mode = Md.SEAL && page = Pg.BUDGET) then s.adoptFull page else s)

/-! ### Snapshot triggers (R55, R65) -/

/-- SNAP.TRIGGER.FIRE. -/
def execSnapTriggerFire (who : Req) (s : State) : Host.Outcome State Fault Refusal :=
  done (s.rwAction who Pg.SNAP 0x100 (fun s => s.snapshot 0))

/-- A filtered edge on SNAP_IN; ignored in Keep. In Rest only MGMT's pages are ON. -/
def execSnapInEdge (rising : Bool) (s : State) : Host.Outcome State Fault Refusal :=
  done (if s.mode ≠ Md.KEEP && s.get F.SNAP_CFG_SNAP_IN_EN = 1 && b2n (!rising) = s.get F.SNAP_CFG_SNAP_IN_EDGE then s.snapshot 1 else s)

/-- SNAP.REARM.GO. -/
def execSnapRearm (who : Req) (s : State) : Host.Outcome State Fault Refusal :=
  done (s.rwAction who Pg.SNAP 0x110 (fun s => s.set F.SNAP_STATE_HELD 0))

/-- SNAP.REARM.CLR_COUNTS. -/
def execSnapClrCounts (who : Req) (s : State) : Host.Outcome State Fault Refusal :=
  done (s.rwAction who Pg.SNAP 0x110 (fun s => s.clear [F.SNAP_COUNTS_MERGED, F.SNAP_COUNTS_MISSED]))

end Sys2Proof.Machine
end

