-- ==== Sys2Proof/Machine/SelfTest.lean ====
section
/-!
DEFINITION. Memory BIST and its repairs, fuses, the device self-test's progress, and the registers of the fault injectors (chapter
20, R580 to R594; R216, R217).
-/

namespace Sys2Proof.Machine

/-! ### Arrays and repairs (Table 20-1, R583, R584) -/

/-- The 4 KiB segments of an array. -/
def bistSegs (a : Nat) : Nat := [16384, 512, 2048, 2, 64, 68, 64, 1024, 256, 1024, 256, 128, 512, 8].getD a 0

/-- Whether the island of an array is ON: for the sequencers, any flash island. -/
def State.arrayOn (s : State) (a : Nat) : Bool :=
  match a with
  | 5 => s.isl 3 = 2
  | 6 => s.isl 4 = 2
  | 7 => s.isl 5 = 2
  | 10 => s.isl 1 = 2
  | 11 => s.isl 2 = 2
  | 12 => (List.range 16).any (fun i => s.isl (8 + i) = 2)
  | 13 => s.isl 7 = 2
  | _ => s.isl 6 = 2

/-- The repairs of an array. -/
def State.rep (s : State) (a : Nat) : BistRep := s.nv.bist.get a {}

/-- The lowest unused spare row of an array. -/
def State.spareRow (s : State) (a : Nat) : Option Nat :=
  (List.range (bistSpares a)).find? (fun i => !(s.rep a).rows.contains i && !(s.rep a).soft.any (fun x => x.1 = i))

/-- A failing row takes a spare, and its record is appended; without one it is a fatal fault. -/
def State.repairRow (s : State) (a row : Nat) : State :=
  match s.spareRow a with
  | some i =>
    let r := s.rep a
    let s1 := { s with nv := { s.nv with bist := s.nv.bist.put a { r with soft := r.soft ++ [(i, row)] } } }
    ((State.setBitTo s1 F.BIST_RESULT_REPAIRED a true).inc F.BIST_COUNTS_REPAIRS).raise E.BIST_REPAIRED
  | none => ((s.setBitTo F.BIST_RESULT_FAILED a true).raise E.BIST_UNREPAIRABLE).quarantine 5 a 0x16

/-- Failing rows are repaired in turn. -/
def State.repairRows (s : State) (a : Nat) (rows : List Nat) : State := rows.foldl (fun s r => s.repairRow a r) s

/-! ### Runs (R585, R586) -/

/-- The segments left in the longest array. -/
def State.showRun (s : State) : State := s.set F.BIST_STATUS_SEG_LEFT ((s.bist.run.map (·.2)).foldl max 0)

/-- A run ends. -/
def State.runDone (s : State) : State := (s.showRun.set F.BIST_STATUS_RUN_BUSY 0).raise E.BIST_RUN_DONE

/-- A run of arrays begins. Those whose island is not ON are skipped. -/
def State.startRun (s : State) (arrays : List Nat) : State :=
  let on := arrays.filter s.arrayOn
  let off := arrays.filter (fun a => !s.arrayOn a)
  let s1 := ((s.set F.BIST_RESULT_SKIPPED (total (off.map (2 ^ ·)))).set F.BIST_RESULT_REPAIRED 0).set F.BIST_RESULT_FAILED 0
  let s1 := s1.inc F.BIST_COUNTS_RUNS
  let s1 := { s1.set F.BIST_STATUS_RUN_BUSY 1 with bist := { run := on.map (fun a => (a, bistSegs a)) } }
  if on = [] then s1.runDone else s1.showRun

/-- The modes in which a run may start. -/
def State.bistMode (s : State) : Bool :=
  (s.mode = Md.WAKE && s.ready Fn.BIST) || [Md.IDLE, Md.REVIEW, Md.OFFLOAD, Md.GROOM, Md.SERVICE, Md.QUARANTINE].contains s.mode

/-- A run or a self-test's SRAM segment is in progress. -/
def State.bistBusy (s : State) : Bool := s.get F.BIST_STATUS_RUN_BUSY = 1 || (s.tst.kind ≠ 0 && s.tst.seg = 2 && s.tst.running)

/-- CMD.GO. -/
def State.bistGo (s : State) : State :=
  if !s.bistMode then s.modeRefused
  else if s.bistBusy then s.raise E.BIST_BUSY
  else s.startRun ((List.range 14).filter (fun a => s.getBit F.BIST_ARRAY_MASK_MASK a))

/-- CMD.ABORT: each array ends with its segment in progress. -/
def State.bistAbort (s : State) : State :=
  if s.get F.BIST_STATUS_RUN_BUSY = 1 then State.showRun { s with bist := { run := s.bist.run.map (fun e => (e.1, 1)) } } else s

/-- CMD.GO. -/
def execBistGo (who : Req) (s : State) : Host.Outcome State Fault Refusal := done (s.rwAction who Pg.BIST 0x100 State.bistGo)

/-- CMD.ABORT. -/
def execBistAbort (who : Req) (s : State) : Host.Outcome State Fault Refusal := done (s.rwAction who Pg.BIST 0x100 State.bistAbort)

/-- A segment of an array has been tested, with its failing rows, and is back in place. The part of an array whose island has gone
ends here too. -/
def execBistSegmentDone (array : Nat) (rows : List Nat) (s : State) : Host.Outcome State Fault Refusal :=
  done (match s.bist.run.find? array with
    | none => s
    | some n =>
      let s1 := if s.arrayOn array then s.repairRows array rows else s
      let run := if n ≤ 1 || !s.arrayOn array then s1.bist.run.del array else s1.bist.run.put array (n - 1)
      let s2 : State := { s1 with bist := { run := run } }
      if run = [] then s2.runDone else s2.showRun)

/-! ### Fuses (R587, R588) -/

/-- CMD.FUSE with FUSE_ARRAY. -/
def State.bistFuse (s : State) (a : Nat) : State :=
  let s := s.set F.BIST_CMD_FUSE_ARRAY a
  if s.mode = Md.SERVICE && !s.bistBusy && s.get F.BIST_STATUS_FUSE_BUSY = 0 && decide (a < 14) && !(s.rep a).fused then
    (s.set F.BIST_STATUS_FUSE_BUSY 1).set F.BIST_STATUS_FUSING a
  else s.raise E.BIST_FUSE_REFUSED

/-- CMD.FUSE. -/
def execBistFuse (who : Req) (array : Nat) (s : State) : Host.Outcome State Fault Refusal :=
  done (s.rwAction who Pg.BIST 0x100 (fun s => s.bistFuse (array % 32)))

/-- The fuses of an array are blown, its FUSED record is appended, and a run of it follows. -/
def execFuseDone (s : State) : Host.Outcome State Fault Refusal :=
  done (if s.get F.BIST_STATUS_FUSE_BUSY = 0 then s
    else
      let a := s.get F.BIST_STATUS_FUSING
      let r := s.rep a
      let s1 : State := { s with nv := { s.nv with bist := s.nv.bist.put a ⟨[], r.rows ++ r.soft.map (·.1), true⟩ } }
      (((s1.set F.BIST_STATUS_FUSE_BUSY 0).set F.BIST_STATUS_FUSING 0x1F).raise E.BIST_FUSE_DONE).startRun [a])

/-- CLR.GO. -/
def execBistClr (who : Req) (s : State) : Host.Outcome State Fault Refusal :=
  done (s.rwAction who Pg.BIST 0x140 (fun s => s.clear [F.BIST_COUNTS_REPAIRS, F.BIST_COUNTS_RUNS]))

/-! ### The device self-test (R216, R217, R589, R590, R596) -/

/-- The test may run a chunk: it waits for a BIST run before its SRAM segment. -/
def State.testMay (s : State) : Bool :=
  s.tst.kind ≠ 0 && !s.tst.defer && !(s.tst.seg = 2 && s.get F.BIST_STATUS_RUN_BUSY = 1)

/-- A read of the self-test. -/
def State.testRead (s : State) (ua : Nat) : State :=
  let (s1, sense) := s.wantUnit 7 ua ((s.unit ua).bind (fun u => if u.kind = 1 then some u.key else none)) .test
  if sense then s1.addRead 7 0 .scrub [ua] else s1

/-- A chunk of the test runs, with the units it reads. -/
def execSelftestChunk (uas : List Nat) (s : State) : Host.Outcome State Fault Refusal :=
  done (if !s.testMay || s.tst.yielded then s
    else uas.foldl State.testRead { s with tst := { s.tst with running := true, seg := max 1 s.tst.seg } })

/-- A suspended test resumes: after IDLE_US without I/O, or a short test after FORCE_MS. -/
def execSelftestResume (forced : Bool) (s : State) : Host.Outcome State Fault Refusal :=
  done (if s.testMay && s.tst.yielded && (if forced then s.tst.kind = 1 else !s.ioBusy) then
    { s with tst := { s.tst with running := true, yielded := false } } else s)

/-- The first failed segment is kept. -/
def State.failSeg (s : State) (fail : Bool) : State :=
  if fail && s.tst.failed.isNone then { s with tst := { s.tst with failed := some s.tst.seg } } else s

/-- Segment 6: a sense fault, or a thermal sensor excluded. -/
def State.senseBad (s : State) : Bool := s.get F.LEDGER_STATUS_SENSE_FAULT = 1 || s.get F.BUDGET_TEMP_EXCLUDED ≠ 0

/-- A segment ends; `rows` are the failing rows (array, row) of the SRAM segment, which fails where no spare is left. -/
def execSelftestSegmentDone (ok : Bool) (rows : List (Nat × Nat)) (s : State) : Host.Outcome State Fault Refusal :=
  done (if s.tst.kind = 0 || !s.tst.running then s
    else
      let seg := s.tst.seg
      let none' := seg = 2 && rows.any (fun r => decide (bistSpares r.1 < (s.rep r.1).rows.length + (s.rep r.1).soft.length +
        (rows.filter (fun x => x.1 = r.1)).length))
      let s1 := s.failSeg (if seg = 6 then s.senseBad else if seg = 2 then none' else !ok)
      let s1 := if seg = 2 then rows.foldl (fun s r => s.repairRow r.1 r.2) s1 else s1
      if s1.tst.kind = 0 then s1
      else if (if s1.tst.kind = 1 then 6 else 8) ≤ seg then s1.logTest (if s1.tst.failed.isSome then 7 else 0)
      else { s1 with tst := { s1.tst with seg := seg + 1 } })

/-- R217: an extended test waits while a take records, and goes on when Record ends. -/
def State.testRecord (s : State) : State :=
  if s.tst.kind = 2 then
    if s.mode = Md.RECORD then { s with tst := { s.tst with defer := true, running := false } }
    else { s with tst := { s.tst with defer := false } }
  else s

/-! ### Injectors (R592 to R594) -/

/-- R593: a valid configuration of an injector. -/
def State.fiValid (s : State) (i : Nat) : Bool :=
  let re := s.get (F.FI_CFG_ACTION i) = 2
  s.get (F.FI_EVERY_N i) ≠ 0 && s.get (F.FI_POS_SPAN i) ≠ 0 && decide (s.get (F.FI_POS_SPAN i) ≤ 64) &&
    (!re || s.get (F.FI_POS_WINDOW i) ≠ 0) && !(re && (i = 4 || i = 5)) && !(s.get (F.FI_CFG_FIX i) = 1 && !(1 ≤ i && decide (i ≤ 3)))

/-- An injector that is armed or holds a unit. -/
def State.fiActive (s : State) (i : Nat) : Bool := s.get (F.FI_CFG_STATE i) = 1 || s.get (F.FI_CFG_STATE i) = 2

/-- A write of an injector's CFG. -/
def State.fiCfg (s : State) (i v : Nat) : State :=
  if s.fiActive i then (if bit v 4 then s.raise E.FI_CFG_IGNORED else s.fiStopOne i)
  else
    let s1 := (((s.set (F.FI_CFG_OPS i) (bits v 32 3)).set (F.FI_CFG_TARGET i) (bits v 16 16)).set (F.FI_CFG_FIX i) (bits v 3 1)).set
      (F.FI_CFG_SHOT i) (bits v 2 1)
    let s1 := if bits v 0 2 < 3 then s1.set (F.FI_CFG_ACTION i) (bits v 0 2) else s1
    if !bit v 4 then s1.fiStopOne i
    else if !s1.fiPermitted then s1
    else if !s1.fiValid i then s1.raise E.FI_ARM_REFUSED
    else ((s1.set (F.FI_CFG_ARM i) 1).set (F.FI_CFG_STATE i) 1).set (F.FI_UNITS_COUNT i) 0

/-- A write of an injector's CFG. -/
def execFiCfgWrite (who : Req) (i val : Nat) (s : State) : Host.Outcome State Fault Refusal :=
  done (if i < 7 then s.rwAction who Pg.FI (0x100 + 0x40 * i) (fun s => s.fiCfg i val) else s)

/-- A write of FI.CTL.EN: clearing it stops every injector. -/
def State.fiEn (s : State) (en : Bool) : State := if en then s.set F.FI_CTL_EN 1 else (s.set F.FI_CTL_EN 0).fiStop

/-- FI.CTL.EN. -/
def execFiCtlEn (who : Req) (en : Bool) (s : State) : Host.Outcome State Fault Refusal :=
  done (s.rwAction who Pg.FI 0x010 (fun s => s.fiEn en))

end Sys2Proof.Machine
end

