-- ==== Sys2Proof/Machine/TimeKeep.lean ====
section
/-!
DEFINITION. The timebase and the calendar, the LTC reader and the timecode generator (chapter 21, R600 to R617, R626, R627).
-/

namespace Sys2Proof.Machine

/-! ### The timebase and the calendar between refreshes (R603, R609, R626) -/

/-- 1/32,768 s units in a number of ticks of 4 ns. -/
def subsecOf (ticks : Nat) : Nat := ticks * 32768 / 250000000

/-- The MGMT copy advances from the timebase: within its second while the crystal runs, and by itself while it does not. -/
def State.advanceCal (s : State) : State :=
  match s.tim.calAt with
  | none => s
  | some (c, t) =>
    let d := subsecOf (s.tb - t)
    let c' := if s.get F.CLK_REF_STATUS_RTC_OK = 1 then c - c % 32768 + min 32767 (c % 32768 + d) else c + d
    s.set F.TIME_CAL (putBits (s.get F.TIME_CAL) 0 63 (max (s.get F.TIME_CAL % 2 ^ 63) c'))

/-- One tick of the timebase, which runs in every mode but Keep. DESIGN CHOICE: the step on an empty queue. -/
def State.tick (s : State) : State :=
  if s.mode = Md.KEEP then s else State.advanceCal { s with tb := (s.tb + 1) % 2 ^ 64 }

/-- R610: a marker, every 256 ticks, aligns the replica of each island that is ON; one that is ahead holds its value. -/
def execTimebaseMarker (s : State) : Host.Outcome State Fault Refusal :=
  done (if s.mode = Md.KEEP || s.tb % 256 ≠ 0 then s
    else { s with tim := { s.tim with reps := ((List.range 24).filter (fun i => i ≠ 0 && s.isl i = 2)).map (fun i =>
      (i, max (s.tim.reps.get i 0) s.tb)) } })

/-! ### The alarm (R607) -/

/-- The alarm fires: a wake source in Rest; in Keep after a controlled entry with main power valid it restarts the device. -/
def State.fireAlarm (s : State) (straps unstable : Nat) : State :=
  let s1 := (s.set F.TIME_ALARM_EN 0).set F.TIME_STATUS_ALARM_FIRED 1
  if s.mode = Md.KEEP then (if s.keep.controlled && s.porHolds then s1.restart straps unstable 0x15 else s1)
  else
    let s1 := s1.raise E.TIME_ALARM
    if s.mode = Md.REST && !s.inTransition then (s1.wakeOut F.PCIE_WAKE_CTL_ON_ALARM).beginTrans Md.WAKE 0x15 else s1

/-- The alarm's condition holds. -/
def State.alarmDue (s : State) : Bool := s.get F.TIME_ALARM_EN = 1 && decide (s.get F.TIME_ALARM_SECONDS ≤ s.keep.seconds)

/-- A write of TIME.ALARM. -/
def State.writeAlarm (s : State) (v : Nat) : State :=
  let s1 := (s.set F.TIME_ALARM_SECONDS (bits v 15 48)).set F.TIME_ALARM_EN (v % 2)
  if s1.alarmDue then s1.fireAlarm 0 0 else s1

/-- A write of TIME.ALARM. -/
def execAlarmWrite (who : Req) (val : Nat) (s : State) : Host.Outcome State Fault Refusal :=
  done (s.rwAction who Pg.TIME 0x128 (fun s => s.writeAlarm val))

/-! ### KEEP's calendar (R600 to R605) -/

/-- R608: sets and trim move the prescaler against the crystal's own count of seconds; `d` units more. -/
def Keep.shift (k : Keep) (d : Int) : Keep := { k with phase := k.phase + d }

/-- R608: the crystal seconds that a second edge counts: one, but none or two once the prescaler has been moved by a whole second. -/
def Keep.counts (k : Keep) : Nat := if 32768 ≤ k.phase then 0 else if k.phase ≤ -32768 then 2 else 1

/-- A second edge: SECONDS and the crystal seconds advance, the carry countdown runs (R533), SEC_TB and SEC_CAL capture (R611), and
the alarm is judged. The straps matter where the alarm restarts the device. -/
def State.secondEdge (s : State) (sub straps unstable : Nat) : State :=
  let k := s.keep
  let n := k.counts
  let s1 : State := { s with keep := { k with
    seconds := (k.seconds + 1) % 2 ^ 48, subsec := sub, ticks := k.ticks + n, phase := k.phase + 32768 * ((n : Int) - 1)
    carryLeft := k.carryLeft.map (· - n) } }
  let s1 := if s.mode = Md.KEEP then s1 else (s1.set F.TIME_SEC_TB_TB s.tb).set F.TIME_SEC_CAL_SECONDS s1.keep.seconds
  if s1.alarmDue then s1.fireAlarm straps unstable else s1

/-- The prescaler wraps. -/
def execCalendarSecondEdge (straps unstable : Nat) (s : State) : Host.Outcome State Fault Refusal :=
  done (if s.keep.powered then s.secondEdge 0 straps unstable else s)

/-- R602: TRIM's counts join or leave the prescaler, whose value before them is `sub`. SECONDS never steps back. -/
def execCalendarTrim (sub : Nat) (s : State) : Host.Outcome State Fault Refusal :=
  done (if !s.keep.powered then s
    else
      let n : Int := (sub % 32768 : Nat) + signed 8 (s.get F.TIME_TRIM_COUNTS)
      let s1 : State := { s with keep := s.keep.shift ((n.toNat : Int) - (sub % 32768 : Nat)) }
      if 32768 ≤ n then s1.secondEdge (n.toNat - 32768) 0 0 else { s1 with keep := { s1.keep with subsec := n.toNat } })

/-- The copy takes KEEP's calendar, unless it would move back. -/
def State.refreshCal (s : State) : State :=
  if s.keepCal % 2 ^ 63 < s.get F.TIME_CAL % 2 ^ 63 then s
  else State.set { s with tim := { s.tim with calAt := some (s.keepCal % 2 ^ 63, s.tb) } } F.TIME_CAL s.keepCal

/-- A KEEP handshake brings the calendar with its prescaler at `sub`. While the crystal stands still the copy runs from the timebase
alone. -/
def execCalendarRefresh (sub : Nat) (s : State) : Host.Outcome State Fault Refusal :=
  done (if s.mode = Md.KEEP || !s.keep.powered then s
    else
      let s1 : State := { s with keep := { s.keep with subsec := sub % 32768 } }
      if s.get F.CLK_REF_STATUS_RTC_OK = 1 then s1.refreshCal else s1)

/-- R604: the calendar is set; the alarm is judged against it. -/
def State.setCal (s : State) (v : Nat) : State :=
  let s1 : State := { s with
    keep := { s.keep.shift ((bits v 0 15 : Int) - s.keep.subsec) with valid := true, seconds := bits v 15 48, subsec := bits v 0 15 }
    tim := { s.tim with calAt := some (v % 2 ^ 63, s.tb) } }
  let s1 := (((s1.set F.TIME_CAL s1.keepCal).set F.TIME_STATUS_LOST 0).set F.TIME_STATUS_STALE 0).set F.TIME_CAL_SET_TB_TB s.tb
  let s1 := (s1.inc F.TIME_CAL_STEPS_COUNT).raise E.TIME_CAL_SET
  if s1.alarmDue then s1.fireAlarm 0 0 else s1

/-- A write of TIME.CAL_SET. -/
def execCalSet (who : Req) (val : Nat) (s : State) : Host.Outcome State Fault Refusal :=
  done (s.rwAction who Pg.TIME 0x110 (fun s => s.setCal val))

/-- R606: VBAK is measured once a second while VDD_AON is valid, but not in Keep. -/
def execVbakMeasure (mv : Nat) (s : State) : Host.Outcome State Fault Refusal :=
  done (if s.mode = Md.KEEP || !s.railValid 0 then s
    else
      let old := s.get F.TIME_VBAK_MV
      let low := s.get F.TIME_VBAK_CFG_LOW_MV
      let v := min mv 4095
      ((s.set F.TIME_VBAK_MV v).setBitTo F.PWR_RAIL_STATUS_VALID 15 (decide (1600 ≤ mv))).raiseIf
        (decide (v < low) && (old = 0 || decide (low ≤ old))) E.TIME_VBAK_LOW)

/-- R605: KEEP's detector trips, and what KEEP held is lost. Main power is absent then, so the device is in Keep. -/
def execKeepSupplyLoss (s : State) : Host.Outcome State Fault Refusal :=
  done (if s.mode ≠ Md.KEEP then s
    else
      let s1 := { s with keep := { powered := false } }
      (s1.clear [F.TIME_CAL, F.TIME_TRIM_COUNTS, F.TIME_ALARM_SECONDS, F.TIME_ALARM_EN, F.TIME_STATUS_ALARM_FIRED,
        F.TIME_STATUS_STALE]).set F.TIME_STATUS_LOST 1)

/-- The KEEP rail returns: KEEP starts afresh. -/
def execKeepSupplyReturn (s : State) : Host.Outcome State Fault Refusal :=
  done (if s.keep.powered then s else { s with keep := {} })

/-! ### The crystal (R626) -/

/-- The 32.768 kHz crystal stops: KEEP goes on from its own oscillator. -/
def execRtcLoss (s : State) : Host.Outcome State Fault Refusal :=
  done (if s.get F.CLK_REF_STATUS_RTC_OK = 0 then s
    else
      let s1 := (s.set F.CLK_REF_STATUS_RTC_OK 0).set F.TIME_STATUS_STALE 1
      if s.mode = Md.KEEP then { s1 with keep := { s1.keep with valid := false } }
      else State.raise { s1 with tim := { s1.tim with calAt := some (s.get F.TIME_CAL % 2 ^ 63, s.tb) } } E.TIME_RTC_LOSS)

/-- The crystal returns: while MGMT is ON the copy is written back into KEEP. -/
def execRtcRestored (s : State) : Host.Outcome State Fault Refusal :=
  done (if s.get F.CLK_REF_STATUS_RTC_OK = 1 then s
    else
      let s1 := s.set F.CLK_REF_STATUS_RTC_OK 1
      if s.mode = Md.KEEP then s1
      else
        let c := s.get F.TIME_CAL
        State.set { s1 with
          keep := { s1.keep.shift ((bits c 0 15 : Int) - s.keep.subsec) with seconds := bits c 15 48, subsec := bits c 0 15 }
          tim := { s1.tim with calAt := some (c % 2 ^ 63, s.tb) } } F.TIME_STATUS_STALE 0)

/-! ### The LTC reader (R612 to R614) -/

/-- The nominal frame period of a rate, in 1/256 tick (Table 21-1). -/
def nominalPeriod (rate : Nat) : Nat :=
  match rate with
  | 0 => 2666666667
  | 1 => 2669333333
  | 2 => 2560000000
  | 3 => 2133333333
  | _ => 2135466667

/-- The reader unlocks, and the generator runs free. -/
def State.ltcUnlock (s : State) : State :=
  if s.get F.TIME_STATUS_LTC_LOCK = 0 then s
  else (((s.set F.TIME_STATUS_LTC_LOCK 0).set F.TIME_STATUS_GEN_FREE 1).inc F.TIME_LTC_STAT_LOCK_LOSS).raise E.TIME_LTC_UNLOCK

/-- R615: the generator takes a frame's address, rate and boundary; its period is the mean of the last 64, or nominal until then. -/
def State.jam (s : State) (addr rate boundary period : Nat) : State :=
  let ps := (period :: s.tim.periods).take 64
  let mean := if ps.length = 64 then total ps / 64 else nominalPeriod rate
  (State.set { s with tim := { s.tim with periods := ps, genRate := rate, genTb := boundary, preset := none } } F.TIME_GEN_ADDR_ADDR
    addr).set F.TIME_PERIOD_TICKS_Q8 mean

/-- A valid frame is read. -/
def State.ltcValid (s : State) (addr rate user boundary period : Nat) : State :=
  let prev := s.get F.TIME_LTC_ADDR_ADDR
  let s1 := (((s.inc F.TIME_LTC_STAT_FRAMES_OK).set F.TIME_LTC_ADDR_ADDR addr).set F.TIME_LTC_USER_BITS user).set F.TIME_LTC_TB_TB boundary
  let wait (s : State) : State := { s with tim := { s.tim with cand := some (addr, rate), periods := [] } }
  if s.get F.TIME_STATUS_LTC_LOCK = 1 then
    if rate ≠ s.get F.TIME_STATUS_LTC_RATE then wait s1.ltcUnlock
    else
      let s1 := if addr ≠ tcNext rate prev then s1.inc F.TIME_LTC_STAT_JUMPS else s1
      (s1.jam addr rate boundary period).tcBoundary
  else match s.tim.cand with
    | some (a, r) =>
      if r = rate && addr = tcNext rate a then
        let s1 := (((s1.set F.TIME_STATUS_LTC_LOCK 1).set F.TIME_STATUS_LTC_RATE rate).set F.TIME_STATUS_GEN_FREE 0).raise E.TIME_LTC_LOCK
        (State.jam { s1 with tim := { s1.tim with cand := none } } addr rate boundary period).tcBoundary
      else wait s1
    | none => wait s1

/-- A frame is decoded: `cells` says that its sync word and its bit cells are good. -/
def execLtcFrame (cells : Bool) (addr rate user boundary period : Nat) (s : State) : Host.Outcome State Fault Refusal :=
  done (if !s.ready Fn.LTC || !s.tim.ltcEn then s
    else if cells && tcValid rate addr then s.ltcValid addr rate (user % 2 ^ 32) boundary period
    else State.inc { s with tim := { s.tim with cand := none } } F.TIME_LTC_STAT_FRAMES_BAD)

/-- LOSS_FRAMES periods have passed without a valid frame. -/
def execLtcLossTimeout (s : State) : Host.Outcome State Fault Refusal :=
  done (if s.get F.TIME_STATUS_LTC_LOCK = 1 then { s.ltcUnlock with tim := { s.ltcUnlock.tim with cand := none } } else s)

/-! ### The generator (R615, R616) -/

/-- The generator reaches a boundary: a preset and changes of TC_CFG take effect, or it counts on. While it runs free the time
address in use moves with it. -/
def execGeneratorBoundary (s : State) : Host.Outcome State Fault Refusal :=
  done (if !s.ready Fn.LTC then s
    else
      let rate := s.get F.TIME_TC_CFG_GEN_RATE
      let en := s.get F.TIME_TC_CFG_LTC_EN = 1
      let s1 := if s.tim.ltcEn && !en then s.ltcUnlock else s
      let locked := s1.get F.TIME_STATUS_LTC_LOCK = 1
      let fresh := s.tim.preset.isSome || (s.tim.genCfg ≠ rate && !locked && rate < 6)
      let r := if fresh then rate else s.tim.genRate
      let addr := s.tim.preset.getD (tcNext r (s.get F.TIME_GEN_ADDR_ADDR))
      let period := if fresh || s.get F.TIME_PERIOD_TICKS_Q8 = 0 then nominalPeriod r else s.get F.TIME_PERIOD_TICKS_Q8
      let s1 := { s1 with tim := { s1.tim with preset := none, genRate := r, genTb := s.tb, ltcEn := en, genCfg := rate } }
      let s1 := (s1.set F.TIME_GEN_ADDR_ADDR addr).set F.TIME_PERIOD_TICKS_Q8 period
      if locked then s1 else s1.tcBoundary)

/-- A write of GEN_PRESET. -/
def State.genPreset (s : State) (addr : Nat) : State :=
  if s.get F.TIME_STATUS_LTC_LOCK = 1 || !tcValid (s.get F.TIME_TC_CFG_GEN_RATE) (addr % 2 ^ 32) then s.raise E.TIME_PRESET_IGNORED
  else { s with tim := { s.tim with preset := some (addr % 2 ^ 32) } }

/-- A write of GEN_PRESET. -/
def execGenPreset (who : Req) (addr : Nat) (s : State) : Host.Outcome State Fault Refusal :=
  done (s.rwAction who Pg.TIME 0x160 (fun s => s.genPreset addr))

/-- TIME.CLR.GO. -/
def execTimeClr (who : Req) (s : State) : Host.Outcome State Fault Refusal :=
  done (s.rwAction who Pg.TIME 0x1A8 (fun s => s.clear [F.TIME_STATUS_ALARM_FIRED, F.TIME_LTC_STAT_FRAMES_OK, F.TIME_LTC_STAT_LOCK_LOSS,
    F.TIME_LTC_STAT_JUMPS, F.TIME_LTC_STAT_FRAMES_BAD, F.TIME_FRM_STAT_PULSES, F.TIME_FRM_STAT_PERIOD_TICKS, F.TIME_CAL_STEPS_COUNT]))

end Sys2Proof.Machine
end

