-- ==== Sys2Proof/Machine/Code.lean ====
section
/-!
DEFINITION. The code store's commands (chapter 19, R552 to R556): unlock, lines, sectors, their errors and erase counters.
-/

namespace Sys2Proof.Machine

/-! ### Errors (Table 19-9) -/

/-- Table 19-9. -/
def ERR_LOCKED : Nat := 1
/-- Table 19-9. -/
def ERR_ALIGN : Nat := 2
/-- Table 19-9. -/
def ERR_PROTECTED : Nat := 3
/-- Table 19-9. -/
def ERR_VERIFY : Nat := 4
/-- Table 19-9. -/
def ERR_BUSY : Nat := 5

/-! ### Unlock (R554) -/

/-- The unlock state of a requester: 0 none, 1 UNLOCK_A written, 2 armed. -/
def State.unlockOf (s : State) (who : Req) : Nat := s.code.unlock.getD (reqCode who) 0

/-- Gives a requester's unlock a state. -/
def State.setUnlock (s : State) (who : Req) (v : Nat) : State :=
  { s with code := { s.code with unlock := s.code.unlock.set (reqCode who) v } }

/-- UNLOCK_A. -/
def State.unlockA (s : State) (who : Req) (key : Nat) : State := s.setUnlock who (if key % 65536 = 0x6D1C then 1 else 0)

/-- UNLOCK_B. -/
def State.unlockB (s : State) (who : Req) (key : Nat) : State :=
  s.setUnlock who (if s.unlockOf who = 1 && key % 65536 = 0x93E3 then 2 else 0)

/-- A write of another CODE register disarms, but for ADDR and DATA once armed. -/
def State.codeTouch (s : State) (who : Req) (off : Nat) : State :=
  if s.unlockOf who = 2 && (off = 0x110 || (0x200 ≤ off && off < 0x300)) then s else s.setUnlock who 0

/-- UNLOCK_A. -/
def execUnlockA (who : Req) (key : Nat) (s : State) : Host.Outcome State Fault Refusal :=
  done (s.rwAction who Pg.CODE 0x100 (fun s => s.unlockA who key))

/-- UNLOCK_B. -/
def execUnlockB (who : Req) (key : Nat) (s : State) : Host.Outcome State Fault Refusal :=
  done (s.rwAction who Pg.CODE 0x108 (fun s => s.unlockB who key))

/-- 1 ms has passed since the unlock. -/
def execCodeUnlockTimeout (who : Req) (s : State) : Host.Outcome State Fault Refusal := done (s.setUnlock who 0)

/-! ### Commands (Table 19-3) -/

/-- A command that ends at once with an error. -/
def State.codeEnd (s : State) (err : Nat) : State :=
  ((s.set F.CODE_STATUS_ERR err).raise E.CODE_CMD_DONE).raiseIf (err ≠ 0) E.CODE_CMD_ERR

/-- R553: the sectors that a requester other than firmware may change. -/
def mayChange (who : Req) (sec : Nat) : Bool := who = .firmware || (256 ≤ sec && decide (sec < 384))

/-- R521, R553: the sectors that read as zeros to a requester other than firmware. -/
def hidden (who : Req) (sec : Nat) : Bool := who ≠ .firmware && 408 ≤ sec && decide (sec < 416)

/-- Bytes of the code store as a requester reads them. -/
def State.codeRead (s : State) (who : Req) (a n : Nat) : List Nat :=
  (List.range n).map (fun i => if hidden who ((a + i) / 65536) then 0 else s.norByte (a + i))

/-- R556: an erase counter advances before its erase. -/
def State.countNorErase (s : State) (sec : Nat) : State :=
  let n := min (s.nv.storeEc.get sec 0 + 1) (2 ^ 32 - 1)
  State.raiseIf (State.inc { s with nv := { s.nv with storeEc := s.nv.storeEc.put sec n } } F.CODE_OPS_ERASES) (n = 100000) E.CODE_WEAR

/-- A write of CMD. The unlock is consumed whether the command succeeds or fails. -/
def State.codeCmd (s : State) (who : Req) (op : Nat) : State :=
  let armed := s.unlockOf who = 2
  let s := s.setUnlock who 0
  let a := s.get F.CODE_ADDR
  let line := op = 1 || op = 2
  let change := op = 2 || op = 3
  if 5 < op then s
  else if s.get F.CODE_STATUS_BUSY = 1 then s.codeEnd ERR_BUSY
  else if op = 0 then s.codeEnd 0
  else if change && !armed then s.codeEnd ERR_LOCKED
  else if a % (if line then 256 else 65536) ≠ 0 then s.codeEnd ERR_ALIGN
  else if change && !mayChange who (a / 65536) then s.codeEnd ERR_PROTECTED
  else
    let s1 : State := { s with code := { s.code with who := reqCode who, addr := a, data := (List.range 32).map (fun k => s.get (F.CODE_DATA k)) } }
    let s1 := (s1.set F.CODE_STATUS_BUSY 1).set F.CODE_STATUS_OP op
    if op = 3 then s1.countNorErase (a / 65536) else if op = 2 then s1.inc F.CODE_OPS_PROGRAMS else s1

/-- A CODE.CMD write of a requester. -/
def State.codeCmdBy (s : State) (who : Req) (op : Nat) : State := s.rwAction who Pg.CODE 0x118 (fun s => s.codeCmd who op)

/-- NOP. -/
def execNop (who : Req) (s : State) : Host.Outcome State Fault Refusal := done (s.codeCmdBy who 0)

/-- READ_LINE. -/
def execReadLine (who : Req) (s : State) : Host.Outcome State Fault Refusal := done (s.codeCmdBy who 1)

/-- PROGRAM_LINE. -/
def execProgramLine (who : Req) (s : State) : Host.Outcome State Fault Refusal := done (s.codeCmdBy who 2)

/-- ERASE_SECTOR. -/
def execEraseSector (who : Req) (s : State) : Host.Outcome State Fault Refusal := done (s.codeCmdBy who 3)

/-- BLANK_CHECK. -/
def execBlankCheck (who : Req) (s : State) : Host.Outcome State Fault Refusal := done (s.codeCmdBy who 4)

/-- CRC_SECTOR. -/
def execCrcSector (who : Req) (s : State) : Host.Outcome State Fault Refusal := done (s.codeCmdBy who 5)

/-- R555: a line is programmed: bits change from 1 to 0 only. Where the read-back differs, what of the line was programmed is free. -/
def State.programLine (s : State) (ok : Bool) (a : Nat) (bs : List Nat) : Bool × State :=
  let old := s.norBytes a 256
  let new := (List.range 256).map (fun i => Nat.land (old.getD i 0) (bs.getD i 0))
  if ok && new = bs then (true, s.norWrite a new)
  else
    let part := (List.range 256).map (fun i =>
      Nat.land (old.getD i 0) (Nat.lor (bs.getD i 0) (Config.undefinedValue (s.fresh + i) % 256)))
    (false, State.norWrite { s with fresh := s.fresh + 256 } a part)

/-- The command in progress ends; `ok` false where a line does not read back as programmed. -/
def execCmdDone (ok : Bool) (s : State) : Host.Outcome State Fault Refusal :=
  done (if s.get F.CODE_STATUS_BUSY = 0 then s
    else
      let who : Req := if s.code.who = 0 then .camera else if s.code.who = 1 then .firmware else .sniwyn
      let a := s.code.addr
      let s1 := (s.set F.CODE_STATUS_BUSY 0).set F.CODE_STATUS_OP 0
      match s.get F.CODE_STATUS_OP with
      | 1 =>
        let bs := s.codeRead who a 256
        ((List.range 32).foldl (fun s k => s.set (F.CODE_DATA k) (ofBytes ((bs.drop (8 * k)).take 8))) s1).codeEnd 0
      | 2 =>
        let (good, s2) := s1.programLine ok a (s.code.data.map (bytesOf 8)).flatten
        s2.codeEnd (if good then 0 else ERR_VERIFY)
      | 3 => (s1.norErase (a / 65536)).codeEnd 0
      | 4 => (s1.set F.CODE_RESULT_VALUE (b2n ((s.codeRead who a 65536).all (fun b => b = 255)))).codeEnd 0
      | _ => (s1.set F.CODE_RESULT_VALUE (crc32c (s.codeRead who a 65536))).codeEnd 0)

end Sys2Proof.Machine
end

