-- ==== Sys2Proof/Machine/Update.lean ====
section
/-!
DEFINITION. Firmware images, download, commit and update (chapter 19, R557 to R579).
-/

namespace Sys2Proof.Machine

/-! ### Images (R557) -/

/-- The little-endian number at an offset of a byte string. -/
def numAt (bs : List Nat) (off n : Nat) : Nat := ofBytes ((bs.drop off).take n)

/-- Whether an image is valid, as UPD.STATUS.LAST_FAIL names what fails: 0 valid, 2 header, 3 digest, 4 signature, 5 SVN. -/
def State.imageFail (s : State) (img : List Nat) : Nat :=
  let len := numAt img 4 4
  if !s.nv.vendorOk then 4
  else if numAt img 0 4 ≠ 0x46425A48 || numAt img 20 4 ≠ 0x6440 || len < 256 || 8384512 < len || img.length < len then 2
  else if numAt img 24 48 ≠ Config.sha384 ((img.take len).drop 256) then 3
  else if !Config.ecdsaOk s.nv.vendorKey (img.take 72) ((img.drop 72).take 96) then 4
  else if numAt img 16 1 < s.nv.fused then 5
  else 0

/-- The offset of a slot. -/
def slotBase (slot : Nat) : Nat := slot * 0x800000

/-- An image as it stands in the code store from an offset on. -/
def State.imageAt (s : State) (base : Nat) : List Nat :=
  s.norBytes base (min 8384512 (max 256 (numAt (s.norBytes base 8) 4 4)))

/-- The image in a slot. -/
def State.slotImage (s : State) (slot : Nat) : List Nat := s.imageAt (slotBase slot)

/-- A region of sectors that holds what it held at manufacture. -/
def State.factoryRange (s : State) (sec n : Nat) : Bool := (List.range n).all (fun i => s.factory (sec + i))

/-- Whether a slot is valid. An image that left manufacture in slot A is, while its SVN is not below the fused count. -/
def State.slotValid (s : State) (slot : Nat) : Bool :=
  if s.factoryRange (slotBase slot / 65536) 128 then s.nv.vendorOk && decide (s.nv.fused ≤ s.norByte (slotBase slot + 16))
  else s.imageFail (s.slotImage slot) = 0

/-- Whether the recovery loader is valid. -/
def State.loaderValid (s : State) : Bool :=
  if s.factoryRange 384 16 then s.nv.vendorOk else s.imageFail (s.imageAt 0x1800000) = 0

/-- The identity and SVN of a slot's image, 0 where it is not valid. -/
def State.showSlot (s : State) (slot : Nat) : State :=
  let ok := s.slotValid slot
  let h := s.norBytes (slotBase slot) 17
  let id := if ok then numAt h 8 8 else 0
  let svn := if ok then numAt h 16 1 else 0
  if slot = 0 then (s.set F.UPD_SLOT_A_ID_IMAGE_ID id).set F.UPD_SVN_SLOT_A svn
  else (s.set F.UPD_SLOT_B_ID_IMAGE_ID id).set F.UPD_SVN_SLOT_B svn

/-! ### Boot (R82, R561 to R563, R574, R576) -/

/-- Changes what the code-store journal says. -/
def State.updTo (s : State) (f : Upd → Upd) : State := { s with nv := { s.nv with upd := f s.nv.upd } }

/-- The fallback slot becomes active: ACTIVE and REVERT are journaled. -/
def State.revert (s : State) : State :=
  ((s.updTo (fun u => { u with active := u.fallback, trial := false, fallback := u.active })).set F.UPD_STATUS_REVERTED 1).raise
    E.UPD_REVERTED

/-- A pending ACTIVATE is taken: the slot becomes active, on trial. -/
def State.takeActivate (s : State) : State :=
  if s.nv.upd.pending = 3 then
    (s.updTo (fun u => { u with active := u.target, trial := true, fallback := u.active, pending := 0 })).raise E.UPD_ACTIVATED
  else s

/-- BOOT loads an image: the state with what it loaded in BOOTED, or `none` where it faults. -/
def State.bootLoad (s : State) : Option State :=
  let loader (s : State) : Option State := if s.loaderValid then some (s.set F.UPD_STATUS_BOOTED 2) else none
  let load (s : State) (slot : Nat) : State := s.set F.UPD_STATUS_BOOTED slot
  let sel := s.get F.SYS_STRAPS_BOOT_SEL
  if !s.nv.vendorOk then none
  else if sel = 2 then loader s
  else if sel = 1 then
    let u := s.nv.upd
    if s.slotValid (1 - u.active) then some (load s (1 - u.active))
    else if s.slotValid u.active then some (load s u.active)
    else loader s
  else
    let s1 := s.takeActivate
    let u := s1.nv.upd
    if u.trial && s1.nv.wdReset && s1.slotValid u.fallback then some (load s1.revert u.fallback)
    else if s1.slotValid u.active then some (load s1 u.active)
    else if s1.slotValid u.fallback then some (load s1.revert u.fallback)
    else loader s1

/-- R566: a staging sector whose header and CRC check and agree with the download of sector 256. -/
def parcelOk (p0 p : List Nat) (i : Nat) : Bool :=
  numAt p 0 4 = i * 65536 && (numAt p 8 1 = 1 || numAt p 8 1 = 2) && 1 ≤ numAt p 10 2 && decide (numAt p 10 2 ≤ 128) && decide (i < numAt p 10 2) &&
    decide (numAt p 4 4 ≤ 65504) && numAt p 28 4 = crc32c (p.take 28 ++ (p.drop 32).take (numAt p 4 4)) &&
    numAt p 8 1 = numAt p0 8 1 && numAt p 10 2 = numAt p0 10 2 && numAt p 12 16 = numAt p0 12 16

/-- The bytes of a staging sector. -/
def State.staged (s : State) (i : Nat) : List Nat := s.norBytes ((256 + i) * 65536) 65536

/-- Whether a parcel is in staging. -/
def State.isStaged (s : State) (i : Nat) : Bool :=
  if i < 64 then s.getBit F.UPD_STAGED0_PRESENT i else s.getBit F.UPD_STAGED1_PRESENT (i - 64)

/-- Marks a parcel. -/
def State.markStaged (s : State) (i : Nat) (b : Bool) : State :=
  if i < 64 then s.setBitTo F.UPD_STAGED0_PRESENT i b else s.setBitTo F.UPD_STAGED1_PRESENT (i - 64) b

/-- R566: what staging holds, found at Wake. -/
def State.findStaged (s : State) : State :=
  let p0 := s.staged 0
  if parcelOk p0 p0 0 then
    let s1 := ((s.set F.UPD_DL_ID_IMAGE_ID (numAt p0 12 8)).set F.UPD_DL_INFO_KIND (numAt p0 8 1)).set F.UPD_DL_INFO_COUNT (numAt p0 10 2)
    (List.range 128).foldl (fun s i => s.markStaged i (parcelOk p0 (s.staged i) i)) s1
  else s

/-- BOOT has started: what it finds in the code store shows on the UPD page; `none` where BOOT faults. -/
def State.bootUp (s : State) : Option State :=
  (s.bootLoad).map (fun s => State.findStaged { ((s.showSlot 0).showSlot 1) with
    nv := { ((s.showSlot 0).showSlot 1).nv with wdReset := false } })

/-- R572: a copy is pending, so that Wake goes on to Update. -/
def State.copyPending (s : State) : Bool := s.nv.upd.pending = 1 || s.nv.upd.pending = 2

/-- R576: JOURNAL has set under an image on trial: it is confirmed, and fuse bits are blown up to its SVN. -/
def State.confirmImage (s : State) : State :=
  if s.nv.upd.trial && s.get F.UPD_STATUS_BOOTED = s.nv.upd.active then
    let svn := s.norByte (slotBase s.nv.upd.active + 16)
    let s1 := (s.updTo (fun u => { u with trial := false })).raise E.UPD_CONFIRMED
    if s1.nv.fused < svn then State.raise { s1 with nv := { s1.nv with fused := min svn 64 } } E.UPD_FUSED else s1
  else s

/-! ### Download (R564 to R566, R569, R579) -/

/-- Checks 1 and 7 of R569 and R218 for firmware commands: modes of Table 07-11, LOCKED, supply and energy. -/
def State.fwChecks (s : State) (activate : Bool) : List (Bool × Why) :=
  let free := s.get F.NVTCP_WPOL_CAMERA_EN = 0 && s.get F.NVTCP_WPOL_DOCK_EN = 0
  let ok := s.mode = Md.IDLE || (!activate && (s.mode = Md.REVIEW || s.mode = Md.GROOM || s.mode = Md.SERVICE || (s.mode = Md.OFFLOAD && free)))
  [(!ok, (7, 0x81, s.mode)),
   (s.secState = 2 && s.get F.UPD_CFG_LOCKED_OK = 0, (7, 0x83, 0)),
   (s.get F.UPD_SUPPLY_STATE = 2 || decide (s.headroom < 256 * s.get F.UPD_CFG_RESERVE_UJ), (7, 0x8D, 0))]

/-- The refusals of R569 are counted. -/
def State.fwJudge (s : State) (id : Cid) (pre post : List (Bool × Why)) (f : State → State) : State :=
  let s1 := match (pre ++ post).find? (fun w => w.1) with
    | some w => if w.2.2.1 = 0x83 || w.2.2.1 = 0x8D then s.inc F.UPD_REFUSALS_COUNT else s
    | none => s
  s1.judge id (pre ++ post) f

/-- The first check of R565 that a parcel fails, 0 where it passes. -/
def State.parcelFail (s : State) (off : Nat) (p : List Nat) : Nat :=
  let i := off / 65536
  let kind := numAt p 8 1
  let count := numAt p 10 2
  let len := numAt p 4 4
  let last := bit (numAt p 9 1) 0
  let p0 := s.staged 0
  if numAt p 0 4 ≠ off then 1
  else if (kind ≠ 1 && kind ≠ 2) || count = 0 || 128 < count then 2
  else if count ≤ i then 3
  else if last ≠ decide (i = count - 1) then 4
  else if (!last && len ≠ 65504) || len = 0 || 65504 < len then 5
  else if off ≠ 0 && (kind ≠ s.get F.UPD_DL_INFO_KIND || count ≠ s.get F.UPD_DL_INFO_COUNT || numAt p 12 8 ≠ s.get F.UPD_DL_ID_IMAGE_ID ||
      numAt p 20 8 ≠ numAt p0 20 8) then 6
  else if numAt p 28 4 ≠ crc32c (p.take 28 ++ (p.drop 32).take len) then 7
  else 0

/-- A staging sector is written by one erase and 256 line programs. -/
def State.stageSector (s : State) (sec : Nat) (bs : List Nat) : State :=
  (((s.countNorErase sec).norErase sec).norWrite (sec * 65536) bs).addSat F.CODE_OPS_PROGRAMS 256

/-- A parcel that passes lands in its staging sector; one at OFFSET 0 begins a new download. -/
def State.takeParcel (s : State) (off : Nat) (p : List Nat) : State :=
  let s1 := if off = 0 then
      let s2 := if s.copyPending then s.updTo (fun u => { u with pending := 0 }) else s
      ((((s2.set F.UPD_STAGED0_PRESENT 0).set F.UPD_STAGED1_PRESENT 0).set F.UPD_DL_ID_IMAGE_ID (numAt p 12 8)).set F.UPD_DL_INFO_KIND
        (numAt p 8 1)).set F.UPD_DL_INFO_COUNT (numAt p 10 2)
    else s
  ((s1.stageSector (256 + off / 65536) p).markStaged (off / 65536) true).raise E.UPD_PARCEL_OK

/-- The parcels of a command in order, up to the first that fails. -/
def State.takeParcels : Nat → Nat → List Nat → State → Bool × State
  | 0, _, _, s => (true, s)
  | n + 1, off, bs, s =>
    let p := (List.range 65536).map (fun i => bs.getD i 0)
    let c := s.parcelFail off p
    if c = 0 then State.takeParcels n (off + 65536) (bs.drop 65536) (s.takeParcel off p)
    else (false, ((s.set F.UPD_PARCEL_ERR_CHECK c).set F.UPD_PARCEL_ERR_OFFSET off).raise E.UPD_PARCEL_BAD)

/-- Firmware Image Download. -/
def execFirmwareImageDownload (id : Cid) (numd ofst : Nat) (bytes : List Nat) (bad : Bool) (s : State) :
    Host.Outcome State Fault Refusal :=
  done (s.arrive id (fun s =>
    let n := (numd + 1) * 4
    s.fwJudge id [hostAdminOnly id, badField (bad || n % 65536 ≠ 0 || 16 * 65536 < n || ofst * 4 % 65536 ≠ 0)] (s.fwChecks false)
      (fun s => match State.takeParcels (n / 65536) (ofst * 4) bytes s with
        | (true, s1) => s1.ok id 0 0 []
        | (false, s1) => s1.fail id 0 0x02)))

/-! ### Patches (R571) -/

/-- A patch applied to a base image: `none` where it is not well formed. -/
def patchOut (base : List Nat) : Nat → List Nat → Option (List Nat)
  | 0, _ => none
  | n + 1, p =>
    let w := numAt p 0 8
    let len := w % 2 ^ 32
    let rest := p.drop 8
    let cat (bs : List Nat) (q : List Nat) : Option (List Nat) := (patchOut base n q).map (bs ++ ·)
    if p.length < 8 || bits w 32 28 ≠ 0 then none
    else match w / 2 ^ 60 with
      | 0 => if len = 0 then some [] else none
      | 1 =>
        let off := numAt rest 0 8
        if len = 0 || rest.length < 8 || base.length < off + len then none else cat ((base.drop off).take len) (rest.drop 8)
      | 2 =>
        let m := 8 * ceilDiv len 8
        if len = 0 || rest.length < m then none else cat (rest.take len) (rest.drop m)
      | 3 => if len = 0 || rest.length < 8 || 8388608 < len then none else cat (List.replicate len (numAt rest 0 1)) (rest.drop 8)
      | _ => none

/-- The payloads in staging, joined. -/
def State.stagedPayload (s : State) : List Nat :=
  ((List.range (s.get F.UPD_DL_INFO_COUNT)).map (fun i => (((s.staged i).drop 32).take (numAt (s.staged i) 4 4)))).flatten

/-- The image that staging yields, or why it yields none (LAST_FAIL). -/
def State.stagedImage (s : State) : Except Nat (List Nat) :=
  let n := s.get F.UPD_DL_INFO_COUNT
  if n = 0 || !(List.range n).all s.isStaged then .error 1
  else if s.get F.UPD_DL_INFO_KIND = 1 then
    let img := s.stagedPayload
    if s.imageFail img = 0 then .ok (img.take (numAt img 4 4)) else .error (s.imageFail img)
  else
    let base := s.slotImage s.nv.upd.active
    if numAt (s.staged 0) 20 8 ≠ numAt base 8 8 || !s.slotValid s.nv.upd.active then .error 6
    else match patchOut base s.stagedPayload.length s.stagedPayload with
      | none => .error 7
      | some img =>
        if img.length ≠ numAt img 4 4 then .error 7
        else if s.imageFail img ≠ 0 then .error (s.imageFail img)
        else if numAt img 8 8 ≠ s.get F.UPD_DL_ID_IMAGE_ID then .error 2
        else .ok img

/-! ### Commit (R567, R568) -/

/-- An accepted commit replaces a pending update. -/
def State.pendUpdate (s : State) (kind slot : Nat) : State :=
  (s.updTo (fun u => { u with
    pending := kind, target := slot, delta := s.get F.UPD_DL_INFO_KIND = 2, image := s.get F.UPD_DL_ID_IMAGE_ID
    copied := [], tries := 0, failed := false })).raise E.UPD_COMMIT_OK

/-- The device begins Update; the commit completes when it is entered. -/
def State.toUpdate (s : State) (id : Cid) : State :=
  State.beginTrans { s with mc := { s.mc with waiter := some id } } Md.UPDATE 0x13

/-- A commit that its checks let through: `slot` its target. -/
def State.commit (s : State) (id : Cid) (ca slot : Nat) : State :=
  let refuse (s : State) (why : Nat) : State := (s.set F.UPD_STATUS_LAST_FAIL why).fail id 1 0x07
  let isActive := slot = s.nv.upd.active
  if ca < 2 then
    match s.stagedImage with
    | .ok _ => ((s.pendUpdate (ca + 1) slot).set F.UPD_STATUS_LAST_FAIL 0).ok id 0 0 []
    | .error e => refuse s e
  else if isActive then s.ok id 0 0 []
  else if ca = 2 then
    if s.slotValid slot then (s.pendUpdate 3 slot).ok id 0 0 [] else refuse s (s.imageFail (s.slotImage slot))
  else match s.stagedImage with
    | .ok _ => ((s.pendUpdate 2 slot).set F.UPD_STATUS_LAST_FAIL 0).toUpdate id
    | .error e => if s.slotValid slot then (s.pendUpdate 3 slot).toUpdate id else refuse s e

/-- Firmware Commit: FS 0 names the inactive slot. -/
def execFirmwareCommit (id : Cid) (fs ca : Nat) (bad : Bool) (s : State) : Host.Outcome State Fault Refusal :=
  done (s.arrive id (fun s =>
    let slot := if fs = 0 then 1 - s.nv.upd.active else fs - 1
    s.fwJudge id [hostAdminOnly id, badField (bad || 3 < ca)]
      (s.fwChecks (ca = 3) ++ [(2 < fs || (ca < 2 && slot = s.nv.upd.active), (1, 0x06, 0)),
        (ca = 3 && s.inTransition, (7, 0x81, s.mode))])
      (fun s => s.commit id ca slot)))

/-! ### Update (R572 to R575) -/

/-- The image that the update in progress writes. -/
def State.updImage (s : State) : List Nat :=
  match s.stagedImage with
  | .ok img => img
  | .error _ => []

/-- Sectors of the update in progress. -/
def State.updTotal (s : State) : Nat := ceilDiv s.updImage.length 65536

/-- Update is entered: copying, or for an ACTIVATE verifying. -/
def State.enterUpdate (s : State) : State :=
  if s.copyPending then (s.set F.UPD_COPY_TOTAL s.updTotal).set F.UPD_STATUS_PHASE 1
  else (s.set F.UPD_COPY_TOTAL 0).set F.UPD_STATUS_PHASE 2

/-- The first target sector without COPY_DONE. -/
def State.nextCopy (s : State) : Option Nat := (List.range (s.get F.UPD_COPY_TOTAL)).find? (fun k => !s.nv.upd.copied.contains k)

/-- One target sector is erased, programmed and checked; `ok` false where its check fails, for the third time with the update. -/
def execUpdateCopySector (ok : Bool) (s : State) : Host.Outcome State Fault Refusal :=
  done (if s.mode ≠ Md.UPDATE || s.get F.UPD_STATUS_PHASE ≠ 1 then s
    else match s.nextCopy with
      | none => s.set F.UPD_STATUS_PHASE 2
      | some k =>
        let img := s.updImage
        let bs := (List.range 65536).map (fun i => img.getD (65536 * k + i) 255)
        let s1 := s.stageSector (128 * s.nv.upd.target + k) bs
        if ok then
          let s1 := (s1.updTo (fun u => { u with copied := u.copied ++ [k], tries := 0 })).raise E.UPD_COPY_DONE
          if s1.nextCopy.isNone then s1.set F.UPD_STATUS_PHASE 2 else s1
        else if s.nv.upd.tries < 2 then s1.updTo (fun u => { u with tries := u.tries + 1 })
        else
          ((s1.updTo (fun u => { u with pending := 0, tries := 0, failed := true })).set F.UPD_STATUS_LAST_FAIL 8).set F.UPD_STATUS_PHASE 2)

/-- Steps 2 to 4 of R572: the target slot is verified, ACTIVE or CANCEL is journaled, and the device resets itself. -/
def execUpdateSwitch (s : State) : Host.Outcome State Fault Refusal :=
  done (if s.mode ≠ Md.UPDATE || s.get F.UPD_STATUS_PHASE ≠ 2 then s
    else
      let u := s.nv.upd
      let s1 := (s.showSlot 0).showSlot 1
      let s1 := if u.pending = 0 then s1
        else if !s.slotValid u.target then
          (s1.updTo (fun u => { u with pending := 0 })).set F.UPD_STATUS_LAST_FAIL (s.imageFail (s.slotImage u.target))
        else if u.pending = 1 then s1.updTo (fun u => { u with pending := 0 })
        else (s1.updTo (fun u => { u with active := u.target, trial := true, fallback := u.active, pending := 0 })).raise E.UPD_ACTIVATED
      (s1.set F.UPD_STATUS_PHASE 3).resetTrigger 4 0x03)

end Sys2Proof.Machine
end

