-- ==== Sys2Proof/Machine/Ready.lean ====
section
/-!
DEFINITION. Functions that finish starting (Table 04-2), with what each brings with it, and mode transitions that complete (R114).
-/

namespace Sys2Proof.Machine

/-! ### The security state (R520, R531, R534 to R536, R546) -/

/-- SEC sets: the configuration region is loaded, the state established, and a tamper action that KEEP held is applied. -/
def State.secStart (s : State) : State :=
  let new := s.keep.tampers
  let act := s.keep.tamperAct
  let s1 : State := { s with
    nv := { s.nv with tampers := min (s.nv.tampers + new) 65535 }
    keep := { s.keep with tampers := 0, tamperAct := none } }
  let s1 := s1.set F.SEC_TAMPER_LOG_COUNT s1.nv.tampers
  let s1 := if new = 0 then s1 else s1.showTamper
  let s1 := ((s1.set F.SEC_TAMPER_CFG_EN (b2n s.nv.tamperEn)).set F.SEC_TAMPER_CFG_ACTION s.nv.tamperDo)
  let s1 := (s1.set F.SEC_LOCK_MAP0_MAP s.nv.lock0).set F.SEC_LOCK_MAP1_MAP s.nv.lock1
  let s1 :=
    if s.nv.voided then s1.setSec 4
    else if s.nv.owner.isNone then s1.setSec 0
    else if s.keep.cs && s.nv.carryKey then
      let s2 := (s1.setSec 1).disarm
      State.raise { s2 with nv := { s2.nv with restores := min (s2.nv.restores + 1) 65535 } } E.SEC_CARRY_RESTORED
    else (s1.setSec 2).raiseIf s.keep.cs E.SEC_CARRY_FAIL
  let s1 := ((s1.set F.SEC_CARRY_RESTORES s1.nv.restores).showSec).setReady Fn.SEC
  match act with
  | some a => s1.tamperAct a
  | none => s1

/-! ### DRAM (R322, R323, R329, R337, R341, R342) -/

/-- MiB of a number of bytes, rounded up. -/
def mib (n : Nat) : Nat := ceilDiv n 1048576

/-- R323: the population rules: channels, second rank, density code. -/
def dramRules (chans ranks2 density : Nat) : Bool :=
  (chans = 3 || chans = 15) && ranks2 ≤ 1 && 1 ≤ density && density ≤ 3 &&
    decide ((if chans = 3 then 2 else 4) * (1 + ranks2) * 2 ^ density * 268435456 ≤ 17179869184)

/-- R329: the regions. -/
def State.dramRegionsSet (s : State) : State :=
  let map := mib (8 * ceilDiv (s.nv.tnvmcap.getD 0) 262144 + 1048576 * s.get F.MAP_LEAF_POOL_MIB + 4096)
  let jrn := mib (4096 * s.get F.MAP_CFG_JTAIL_MAX)
  let fi := s.get F.DRAMC_CFG_FINDEX_MIB
  let s1 := ((s.set F.DRAMC_REGION_A_MAP_MIB map).set F.DRAMC_REGION_A_JOURNAL_MIB jrn).set F.DRAMC_REGION_A_CORE_MIB 256
  (s1.set F.DRAMC_REGION_A_FINDEX_MIB fi).set F.DRAMC_REGION_B_RCACHE_MIB (s.dramSize / 1048576 - (map + jrn + 256 + fi))

/-- R341: the PASR masks that hold all of MAP: banks in [31:16], segments in [15:8]. -/
def State.pasrKept (s : State) : Nat :=
  let rk := s.get F.DRAMC_GEOM_RANKS2
  let rw := s.get F.DRAMC_GEOM_ROW_BITS
  let p := ceilDiv (ceilDiv (1048576 * s.get F.DRAMC_REGION_A_MAP_MIB) (max 1 s.dramChans) * 8) 7
  if s.get F.DRAMC_CFG_ORDER = 2 then (2 ^ min 16 (ceilDiv p (2 ^ (11 + rw))) - 1) * 65536 + 0xFF00
  else 0xFFFF0000 + (2 ^ min 8 (ceilDiv p (2 ^ (12 + rk + rw))) - 1) * 256

/-- Training has ended: what was found and, at an exit from Rest, whether MAP is retained. `found` gives the populated channels, the
second rank, the density code, the oscillator drift of the short form in ps, and whether the token's chunk is uncorrectable. -/
def State.dramStart (s : State) (found : List Nat) : State :=
  let x (i : Nat) : Nat := found.getD i 0
  if !dramRules (x 0) (x 1) (x 2) then s.failFn Fn.DRAM
  else
    let chans := if x 0 = 3 then 2 else 4
    let s1 := ((s.set F.DRAMC_GEOM_CHANNELS (x 0)).set F.DRAMC_GEOM_RANKS2 (x 1)).set F.DRAMC_GEOM_DENSITY (x 2)
    let s1 := (s1.set F.DRAMC_GEOM_ROW_BITS (13 + x 2)).set F.DRAMC_GEOM_BANK_GROUPS (1 - s.get F.DRAMC_CFG_RATE)
    let s1 := s1.set F.DRAMC_SIZE_BYTES (chans * (1 + x 1) * 2 ^ x 2 * 268435456 * 7 / 8)
    let s1 := s1.dramRegionsSet
    let kept := s.dram.kept
    let held := kept.isSome && s.dram.token = kept && x 4 = 0
    let form := if kept.isSome && x 3 ≤ 4 * s.get F.DRAMC_REFRESH_DRIFT_PS then 2 else 1
    let s1 := ((s1.set F.DRAMC_STATUS_TRAIN form).set F.DRAMC_STATUS_TRAINED 1).set F.DRAMC_STATUS_RETAINED (b2n held)
    let s1 := if held then s1.set F.DRAMC_PASR_KEPT s1.pasrKept else s1
    let s1 : State := { s1 with dram := {
      mem := if held then s.dram.mem else []
      poison := if held then s.dram.poison else []
      sweep := if held then ceilDiv (1048576 * s1.get F.DRAMC_REGION_A_MAP_MIB * 8) (7 * 65536) else 0 } }
    ((s1.raise E.DRAMC_TRAIN_DONE).raiseIf (kept.isSome && !held) E.DRAMC_RETAIN_LOST).setReady Fn.DRAM

/-! ### The other functions -/

/-- The builder's configuration: pairs of a register's BAR2 offset and its value. -/
def State.applyConfig : List Nat → State → State
  | a :: v :: rest, s =>
    let fs := (fieldsAt (a / 4096) (s.window (a / 4096) (a % 4096))).filter (fun f =>
      (f.acc = .rw || f.acc = .rwl || f.acc = .rws) && (!f.own || f.key = F.BUDGET_GRANT_GRANT_MW.key))
    State.applyConfig rest (fs.foldl (fun s f =>
      let x := bits v f.lo f.width
      if f.legal.ok x then s.set f x else s) s)
  | _, s => s

/-- CONFIG sets: the settings are applied and what follows from them happens; VIN_SENSE may stand below its threshold (R80). -/
def State.configStart (s : State) (found : List Nat) : State :=
  let s1 := s.applyConfig found
  let s2 := ([0x04, 0x15, 0x1c, 0x1d]).foldl (fun t p => if t.isl (pageIsland p) = 2 then t.adopted s p else t) s1
  (s2.setReady Fn.CONFIG).startFns.compareVin

/-- BIST sets: failing rows, each array × 65536 + row, have been repaired. -/
def State.bistStart (s : State) (rows : List Nat) : State :=
  let s1 := rows.foldl (fun s r => if r / 65536 < 14 then s.repairRow (r / 65536) (r % 65536) else s) s
  if s1.mode = Md.QUARANTINE && s.mode ≠ Md.QUARANTINE then s1.faultFn Fn.BIST else s1.setReady Fn.BIST

/-- R162, R365: two erased Seal blocks stand on every channel in use. -/
def State.sealsErased (s : State) : Bool :=
  s.readyChannels ≠ [] && s.readyChannels.all (fun c => s.get (F.FCH_SEAL_ERASED0 c) = 1 && s.get (F.FCH_SEAL_ERASED1 c) = 1)

/-- SEAL_BLOCKS sets; the first time after manufacture, and after what R409 names, TNVMCAP is computed. -/
def State.sealBlocksStart (s : State) : State :=
  let s1 : State := { s with map := { s.map with phaseTb := s.tb } }
  let s1 : State := if s.nv.tnvmcap.isNone || s.nv.remake then
      { s1 with nv := { s1.nv with
        tnvmcap := some (s.tnvmFor (s.get F.GROOM_CFG_RSV_PCT) (s.get F.MAP_CFG_RSV_BANDS) (s.get F.GROOM_OP_OP_PCT)), remake := false } }
    else s1
  s1.setReady Fn.SEAL_BLOCKS

/-- Milliseconds since the phase of the rebuild began. -/
def State.phaseMs (s : State) : Nat := (s.tb - s.map.phaseTb) / 250000

/-- JOURNAL sets: phase 1 ends. A map that DRAM has retained is used in place (R342). -/
def State.journalStart (s : State) : State :=
  let s1 := (s.set F.MAP_REBUILD_PHASE1_MS s.phaseMs).set F.MAP_STATUS_PHASE 2
  let s1 : State := { s1 with map := { s1.map with
    phaseTb := s.tb, resident := if s.get F.DRAMC_STATUS_RETAINED = 1 then s.map.ts.segments else s.map.resident } }
  (s1.setReady Fn.JOURNAL).confirmImage

/-- MAP_FULL sets: phase 2 ends, and free bands are known. -/
def State.mapFullStart (s : State) : State :=
  let s1 := (s.set F.MAP_REBUILD_PHASE2_MS s.phaseMs).set F.MAP_STATUS_PHASE 3
  (((s1.setReady Fn.MAP_FULL).raise E.MAP_MAP_FULL).fillReserve 32).noteSpace

/-- GROOM sets: bands found DIRTY are erased again, and bands without a valid unit are freed. -/
def State.groomStart (s : State) : State :=
  let s1 := s.setReady Fn.GROOM
  ((s1.map.ts.bands.filter (fun e => e.2.state = .dirty)).foldl (fun s e => s.askErase e.1) s1).freeBandsNow

/-- The island a function is in (Table 04-2). -/
def fnIsland (n : Nat) : Nat :=
  if 14 ≤ n && n ≤ 45 && n ≠ 41 && !(22 ≤ n && n ≤ 25) then
    (if n = 14 || n = 15 || n = 32 then 2 else if n = 16 then 7 else if n = 33 || n = 34 then 3 else if n = 39 || n = 40 then 4
     else if 42 ≤ n then 5 else 6)
  else 1

/-- R563: under the recovery loader only the exit set starts, with what the camera's port needs. -/
def State.loaderAllows (s : State) (n : Nat) : Bool :=
  s.get F.UPD_STATUS_BOOTED ≠ 2 || s.exitSet.contains n || [8, 14, 15, 32].contains n

/-- What must hold of a function beside its needs before it may set. -/
def State.fnMay (s : State) (n : Nat) : Bool :=
  match n with
  | 3 => s.get F.CLK_REF_STATUS_RTC_OK = 1
  | 14 => false
  | 22 | 23 | 24 | 25 => s.readyChannels ≠ [] &&
      (List.range 16).all (fun i => [0, 2, 3, 4].contains (s.chanState (16 * (n - 22) + i)))
  | 27 => s.sealsErased
  | 28 => s.get F.LEDGER_STATUS_CALIBRATED = 1
  | 29 => s.map.replayed
  | 33 => s.get F.INGEST_STATUS_ALIGNED = 1
  | 34 => s.secState ≤ 1
  | 35 => s.map.ts.segments.all s.map.resident.contains
  | 39 => s.get F.PAIR_STATUS_ALIGNED = 1
  | 40 => s.mirroring
  | 42 => s.get (F.NET_STATUS_LINK 0) = 1
  | 43 => s.get (F.NET_STATUS_LINK 1) = 1
  | 44 => s.get F.NVTCP_CTL_EN = 1
  | _ => true

/-- A function may set: it has not faulted (but for a controllable one, R109), its needs hold and its island is ON. -/
def State.mayStart (s : State) (n : Nat) : Bool :=
  n < 48 && !s.ready n && s.mode ≠ Md.KEEP && s.mode ≠ Md.SEAL && s.needsOk n && s.isl (fnIsland n) = 2 && s.loaderAllows n && s.fnMay n &&
    (!s.getBit F.SYS_FUNC_FAULT_FAULT n || (n = 0 && s.get F.SYS_STRAPS_BOOT_SEL = 3) || [9, 22, 23, 24, 25, 33, 39, 42, 43].contains n)

/-- What a function does as it sets. -/
def State.startFn (s : State) (n : Nat) (found : List Nat) : State :=
  match n with
  | 0 => match s.bootUp with
    | some s1 =>
      let s2 := s1.setReady Fn.BOOT
      if s2.mode = Md.WAKE && s2.copyPending && s2.mc.trans.isNone then s2.beginTrans Md.UPDATE 0x14 else s2
    | none => s.failFn Fn.BOOT
  | 3 => (s.refreshCal).setReady Fn.CALENDAR
  | 4 => s.configStart found
  | 6 => ((s.set F.UPD_CFG_RESERVE_UJ s.nv.updRes).set F.UPD_CFG_LOCKED_OK (b2n s.nv.updLock)).secStart
  | 7 => s.bistStart found
  | 9 => (List.range 8).foldl (fun s n =>
      if s.get (F.SDMA_CTL_EN n) = 1 && s.get (F.SDMA_STATUS_FSTATE n) = 0 then s.set (F.SDMA_STATUS_FSTATE n) 2 else s) (s.setReady Fn.SDMA)
  | 16 => s.dramStart found
  | 17 => if s.get F.DRAMC_REGION_B_RCACHE_MIB < 256 then s.failFn Fn.MCACHE else s.setReady Fn.MCACHE
  | 19 => (s.setReady Fn.LEDGER_SENSE).noteFlow
  | 21 => (s.setReady Fn.BUDGET).startDiscovery
  | 27 => s.sealBlocksStart
  | 28 => s.setAdmit
  | 29 => s.journalStart
  | 35 => s.mapFullStart
  | 38 => s.groomStart
  | _ => s.setReady n

/-- R118: the last function of the Wake exit set is ready. -/
def State.wakeCheck (s : State) : State :=
  if s.mode = Md.WAKE && s.mc.trans.isNone && s.get F.SYS_STRAPS_ISLAND_TEST = 0 && s.exitSet.all s.ready then s.beginTrans Md.IDLE 0x04
  else s

/-- A function finishes starting; `found` is what it found. -/
def execFunctionReady (fn : Nat) (found : List Nat) (s : State) : Host.Outcome State Fault Refusal :=
  done (if s.mayStart fn then (s.startFn fn found).wakeCheck else s)

/-! ### Mode transitions (R114, R119, R120, R128) -/

/-- From Rest straight to Keep: the drain of Rest has left nothing to write, and the seal flag reads CLEAN. -/
def State.keepFromRest (s : State) (cause : Nat) : State :=
  State.toKeep { s with keep := { s.keep with sealFlag := 1, controlled := true, sealTrip := false } } cause

/-- Firmware Commit completes with Dword 0 zero; it waits for Update. -/
def State.endCommit (s : State) : State :=
  match s.mc.waiter with
  | some c => State.ok { s with mc := { s.mc with waiter := none } } c 0 0 []
  | none => s

/-- A transition ends in its mode. -/
def State.arriveMode (s : State) (t : Trans) : State :=
  if t.target = Md.KEEP then s.keepFromRest t.cause
  else
    let s1 := s.changeMode t.target t.cause
    if t.target = Md.WAKE then (s1.set F.LEDGER_SEAL_FLAG_FLAG s1.keep.sealFlag).startFns
    else if t.target = Md.UPDATE then s1.enterUpdate.endCommit
    else s1

/-- Take Starts that waited for the end of a transition are judged. -/
def State.judgeTakes (s : State) : State :=
  s.mc.takeWait.foldl (fun s x => s.judgeTake x.1 x.2.1 x.2.2.1 x.2.2.2) { s with mc := { s.mc with takeWait := [] } }

/-- The transition in progress completes: the request that asked for it completes with it, and held requests are judged. -/
def execModeTransitionComplete (s : State) : Host.Outcome State Fault Refusal :=
  done (match s.mc.trans with
    | none => s
    | some t =>
      let s1 := State.arriveMode { s with mc := { s.mc with trans := none } } t
      if t.target = Md.KEEP then s1
      else (s1.endWait.fiCheck.judgeTakes.groomCheck.judgeHeld.testRecord).wakeCheck)

end Sys2Proof.Machine
end

