-- ==== Sys2Proof/Machine/Sdma.lean ====
section
/-!
DEFINITION. The control of the service DMA channels (chapter 17, R499 to R508): what starts, pauses and stops a channel, and the
checks of its addresses and permissions.
-/

namespace Sys2Proof.Machine

/-! ### Spaces and permissions (R500, R501, Table 17-4, Table 17-6) -/

/-- The space of an address. -/
def sdmaSpace (a : Nat) : Nat := a / 2 ^ 60

/-- The address within its space. -/
def sdmaOff (a : Nat) : Nat := a % 2 ^ 60

/-- R500: a range of bytes is within its space's limit. Where DRAM is not served its limit is not known. -/
def State.sdmaInside (s : State) (a n : Nat) : Bool :=
  match sdmaSpace a with
  | 0 => !s.dramOn || decide (sdmaOff a + n ≤ s.dramSize)
  | 1 => decide (sdmaOff a + n ≤ 2 ^ 60)
  | 2 => decide (sdmaOff a + n ≤ 0x60000)
  | 3 => decide (sdmaOff a + n ≤ 0x2000000)
  | _ => false

/-- R501: an owner may use a range. -/
def State.sdmaMay (s : State) (who : Req) (write : Bool) (a n : Nat) : Bool :=
  if sdmaSpace a = 3 && write then false
  else if who = .firmware then true
  else match sdmaSpace a with
    | 1 => who = .camera
    | 2 => (List.range (n / 8)).all (fun k =>
        let r := sdmaOff a + 8 * k
        if write then s.mayWrite who (r / 0x1000) (r % 0x1000) else s.mayRead who (r / 0x1000) (r % 0x1000))
    | _ => s.mode = Md.SERVICE

/-- UNAVAIL and PCIE: what of a space cannot be reached now. -/
def State.sdmaReach (s : State) (a : Nat) : Nat :=
  match sdmaSpace a with
  | 0 => if s.dramOn then 0 else 6
  | 1 => if s.isl 2 ≠ 2 then 6 else if s.host.busMaster then 0 else 5
  | _ => 0

/-- The first check that a transfer fails; 0 for none. -/
def State.sdmaCheck (s : State) (who : Req) (src dst n : Nat) : Nat :=
  if src % 8 ≠ 0 || dst % 8 ≠ 0 || n % 8 ≠ 0 then 1
  else if !s.sdmaInside src n || !s.sdmaInside dst n then 2
  else if !s.sdmaMay who false src n || !s.sdmaMay who true dst n then 3
  else max (s.sdmaReach src) (s.sdmaReach dst)

/-- The first check that a descriptor ring fails. A ring stands in DRAM or in the camera's memory, since its status is written back. -/
def State.ringCheck (s : State) (who : Req) (base n : Nat) : Nat :=
  if base % 32 ≠ 0 then 1
  else if !s.sdmaInside base (32 * n) then 2
  else if 2 ≤ sdmaSpace base || !s.sdmaMay who false base 0 || !s.sdmaMay who true base 0 then 3
  else s.sdmaReach base

/-! ### Starts (R503, R504, R507) -/

/-- The owner of a channel. -/
def State.sdmaOwner (s : State) (n : Nat) : Req :=
  match s.get (F.SDMA_STATUS_OWNER n) with
  | 0 => .camera
  | 1 => .firmware
  | _ => .sniwyn

/-- A channel takes a transfer: it runs, or with PAUSE set it enters PAUSED before its first read. -/
def State.sdmaTake (s : State) (n : Nat) (x : Xfer) : State :=
  let s1 : State := { s with sdma := { s.sdma with xfers := s.sdma.xfers.put n x } }
  if s.get (F.SDMA_CTL_PAUSE n) = 1 then (s1.set (F.SDMA_STATUS_RUN n) 2).raise (E.SDMA_PAUSED n)
  else s1.set (F.SDMA_STATUS_RUN n) 1

/-- A GO or KICK that the channel does not take. -/
def State.sdmaIgnored (s : State) : State := s.raise E.SDMA_START_IGNORED

/-- START.GO. -/
def State.sdmaGo (s : State) (who : Req) (n : Nat) : State :=
  if s.get (F.SDMA_STATUS_FSTATE n) ≠ 2 || s.get (F.SDMA_CTL_MODE n) ≠ 0 || !([0, 4, 5].contains (s.get (F.SDMA_STATUS_RUN n))) then s.sdmaIgnored
  else
    let s1 := (s.set (F.SDMA_STATUS_OWNER n) (reqCode who)).set (F.SDMA_STATUS_ERR n) 0
    let e := s.sdmaCheck who (s.get (F.SDMA_SRC_ADDR n)) (s.get (F.SDMA_DST_ADDR n)) (s.get (F.SDMA_COUNT_BYTES n))
    if e ≠ 0 then s1.sdmaError n e
    else s1.sdmaTake n ⟨s.get (F.SDMA_COUNT_BYTES n), none, s.get (F.SDMA_CTL_SNOOP n) = 1, false⟩

/-- The next descriptor is fetched. -/
def State.sdmaFetch (s : State) (n : Nat) : State := s.sdmaTake n ⟨0, none, false, true⟩

/-- START.KICK. -/
def State.sdmaKick (s : State) (who : Req) (n : Nat) : State :=
  if s.get (F.SDMA_STATUS_FSTATE n) ≠ 2 || s.get (F.SDMA_CTL_MODE n) ≠ 1 || !([0, 3, 4, 5].contains (s.get (F.SDMA_STATUS_RUN n))) then s.sdmaIgnored
  else
    let s1 := (s.set (F.SDMA_STATUS_OWNER n) (reqCode who)).set (F.SDMA_STATUS_ERR n) 0
    let e := s.ringCheck who (s.get (F.SDMA_DESC_BASE_ADDR n)) (s.get (F.SDMA_DESC_CFG_N n))
    if e ≠ 0 then s1.sdmaError n e else s1.sdmaFetch n

/-- START.RING_RESET. -/
def State.sdmaRingReset (s : State) (n : Nat) : State :=
  if [0, 4, 5].contains (s.get (F.SDMA_STATUS_RUN n)) then s.set (F.SDMA_DESC_CFG_HEAD n) 0 else s

/-- CTL.PAUSE; it has no effect on a channel that stops (R516). -/
def State.sdmaPauseTo (s : State) (n : Nat) (on : Bool) : State :=
  if s.get (F.SDMA_STATUS_FSTATE n) = 3 then s
  else
    let s1 := s.set (F.SDMA_CTL_PAUSE n) (b2n on)
    if !on && s.get (F.SDMA_STATUS_RUN n) = 2 then s1.set (F.SDMA_STATUS_RUN n) 1 else s1

/-- CTL.EN (R95, R111, R508). -/
def State.sdmaEn (s : State) (n : Nat) (en : Bool) : State :=
  let s1 := s.set (F.SDMA_CTL_EN n) (b2n en)
  match s.get (F.SDMA_STATUS_FSTATE n) with
  | 0 => if en && s.ready Fn.SDMA then (s1.set (F.SDMA_STATUS_FSTATE n) 2).set (F.SDMA_STATUS_RUN n) 0 else s1
  | 3 => s1.set (F.SDMA_STATUS_REENABLE_PENDING n) (b2n en)
  | _ => if en then s1 else s1.sdmaStop n

/-- SDMA.CLR.GO. -/
def State.sdmaClr (s : State) : State := s.clear [F.SDMA_BYTES_COUNT, F.SDMA_ERRORS_COUNT]

/-! ### Commands on the registers -/

/-- The page offset of a channel's register. -/
def sdmaReg (n off : Nat) : Nat := 0x200 + 0x40 * n + off

/-- R499: a write of a channel's register; channels 0 to 3 are firmware's. -/
def State.sdmaBy (s : State) (who : Req) (n off : Nat) (f : State → State) : State :=
  if 8 ≤ n then s
  else s.rwAction who Pg.SDMA (sdmaReg n off) (fun s =>
    if n < 4 && who ≠ .firmware then (s.raise E.SYS_ACCESS_DENY).logAccess 2 true who (regAddr Pg.SDMA (sdmaReg n off)) else f s)

/-- START.GO. -/
def execSdmaGo (who : Req) (n : Nat) (s : State) : Host.Outcome State Fault Refusal := done (s.sdmaBy who n 0x28 (fun s => s.sdmaGo who n))

/-- START.KICK. -/
def execSdmaKick (who : Req) (n : Nat) (s : State) : Host.Outcome State Fault Refusal :=
  done (s.sdmaBy who n 0x28 (fun s => s.sdmaKick who n))

/-- START.RING_RESET. -/
def execSdmaRingReset (who : Req) (n : Nat) (s : State) : Host.Outcome State Fault Refusal :=
  done (s.sdmaBy who n 0x28 (fun s => s.sdmaRingReset n))

/-- CTL.PAUSE. -/
def execSdmaPause (who : Req) (n : Nat) (pause : Bool) (s : State) : Host.Outcome State Fault Refusal :=
  done (s.sdmaBy who n 0x00 (fun s => s.sdmaPauseTo n pause))

/-- CTL.EN. -/
def execSdmaCtlEn (who : Req) (n : Nat) (en : Bool) (s : State) : Host.Outcome State Fault Refusal :=
  done (s.sdmaBy who n 0x00 (fun s => s.sdmaEn n en))

/-- A stop completes: nothing of the channel is in flight (R508); one enabled meanwhile is ON again. -/
def execSdmaStopComplete (n : Nat) (s : State) : Host.Outcome State Fault Refusal :=
  done (if 8 ≤ n || s.get (F.SDMA_STATUS_FSTATE n) ≠ 3 then s
    else
      let again := s.get (F.SDMA_STATUS_REENABLE_PENDING n) = 1 && s.ready Fn.SDMA && s.mode ≠ Md.SEAL
      ((s.set (F.SDMA_STATUS_FSTATE n) (if again then 2 else 0)).set (F.SDMA_STATUS_REENABLE_PENDING n) 0).set (F.SDMA_STATUS_RUN n) 0)

/-- SDMA.CLR.GO. -/
def execSdmaClr (who : Req) (s : State) : Host.Outcome State Fault Refusal :=
  done (s.rwAction who Pg.SDMA 0x110 State.sdmaClr)

/-! ### Descriptors (R504, R515, Table 17-5) -/

/-- A little-endian number in a list of bytes. -/
def numIn (bs : List Nat) (off n : Nat) : Nat := ofBytes ((bs.drop off).take n)

/-- A fetched descriptor: one not owned leaves the channel in WAIT; one that is loads its transfer, whose checks may end it. -/
def State.sdmaLoad (s : State) (n : Nat) (d : List Nat) : State :=
  let src := numIn d 0 8
  let dst := numIn d 8 8
  let cnt := numIn d 16 4
  let ctrl := numIn d 20 1
  if !bit ctrl 0 then State.set { s with sdma := { s.sdma with xfers := s.sdma.xfers.del n } } (F.SDMA_STATUS_RUN n) 3
  else
    let s1 := ((s.set (F.SDMA_SRC_ADDR n) src).set (F.SDMA_DST_ADDR n) dst).set (F.SDMA_COUNT_BYTES n) cnt
    let s1 : State := { s1 with sdma := { s1.sdma with xfers := s1.sdma.xfers.put n ⟨cnt, some ctrl, bit ctrl 3, false⟩ } }
    if 16 ≤ ctrl || numIn d 21 3 ≠ 0 || cnt = 0 then s1.sdmaError n 7
    else
      let e := s1.sdmaCheck (s1.sdmaOwner n) src dst cnt
      if e ≠ 0 then s1.sdmaError n e else s1

/-- A descriptor fetch returns; `ok` false where it failed. The camera's memory gives `bytes`; DRAM has its own. -/
def execSdmaDescFetch (n : Nat) (ok : Bool) (bytes : List Nat) (s : State) : Host.Outcome State Fault Refusal :=
  done (if 8 ≤ n || s.get (F.SDMA_STATUS_RUN n) ≠ 1 || !(s.sdma.xfers.find? n).any (fun x => x.fetch) then s
    else
      let a := s.descAddr n
      if s.sdmaReach a ≠ 0 then s.sdmaError n (s.sdmaReach a)
      else if sdmaSpace a = 1 then (if ok then s.sdmaLoad n bytes else s.sdmaError n 7)
      else if !ok || s.chunkPoison 6 a then s.sdmaError n 7
      else (s.touchRegion a).sdmaLoad n (s.chunkBytes 6 a 32))

end Sys2Proof.Machine
end

