-- ==== Sys2Proof/Machine/Access.lean ====
section
/-!
DEFINITION. Accesses of registers by their width (chapter 02, R42 to R49, R59 to R61, R67): the fields without a row of their own, and
the action a write has where its register has one.
-/

namespace Sys2Proof.Machine

/-! ### What a write does beside storing fields -/

/-- The state a command leaves. -/
def nextOf (s : State) : Host.Outcome State Fault Refusal → State
  | .next t => t
  | _ => s

/-- A command follows where a bit of the write asks for it. -/
def State.also (s : State) (c : Bool) (f : State → Host.Outcome State Fault Refusal) : State := if c then nextOf s (f s) else s

/-- The events of a page (R10: the other bits of its event registers are reserved). -/
def evtBits (p : Nat) : Nat :=
  (match p with
   | 0x00 => 0xFFF
   | 0x01 => 0x3F
   | 0x02 => 0x1F
   | 0x03 => 0x1F
   | 0x04 => 0x1FF
   | 0x06 => 0x7F
   | 0x07 => 0xFF
   | 0x08 => 0x7
   | 0x09 => 0x7
   | 0x0a => 0xFF
   | 0x0b => 0x3F
   | 0x0c => 0x3FF
   | 0x0d => 0xFF
   | 0x0e => 0x1FFFFFF
   | 0x0f => 0xFFF
   | 0x10 => 0x7F
   | 0x11 => 0x7F
   | 0x12 => 0x1FFF
   | 0x13 => 0x1FF
   | 0x14 => 0x7F
   | 0x15 => 0x1
   | 0x16 => 0x1FF
   | 0x17 => 0x1
   | 0x18 => 0xFFFF
   | 0x19 => 0x7
   | 0x1a => 0x7F
   | 0x1b => 0x7FF
   | 0x1c => 0x7
   | 0x1d => 0x7
   | 0x1e => 0x7F
   | 0x1f => 0x3F3F
   | _ => if 0x20 ≤ p && p < 0x60 then 0x1FF else 0) + b2n (hasShadow p) * 2 ^ 63

/-- EVT_FORCE: the events of the bits written rise (R67, Table 04-5). -/
def State.forceEvents (s : State) (p v : Nat) : State :=
  if s.mode = Md.REST || s.mode = Md.SEAL then s.modeRefused
  else (List.range 64).foldl (fun s i => s.raiseIf (bit v i && bit (evtBits p) i) ⟨p, i⟩) s

/-- The actions of SYS, SNAP, PWR, CLK, BUDGET and LEDGER. `w` is the value written with the bits not written 0, `m` the register as
the write makes it. -/
def State.actSys (s : State) (who : Req) (p off w m mask : Nat) : State :=
  match p, off with
  | 0x00, 0x108 => s.also (bit w 8) (execModeReq who (m % 16))
  | 0x00, 0x128 =>
    (s.also (bit w 0) (execSoftReset who (bits w 48 16))).also (bit w 1) (execIslandReset who (bits w 48 16) (bits w 8 5))
  | 0x00, 0x140 => s.also (bit w 32) (execGcommit who (m % 2 ^ 24))
  | 0x05, 0x100 => s.also (bit w 0) (execSnapTriggerFire who)
  | 0x05, 0x110 => (s.also (bit w 0) (execSnapRearm who)).also (bit w 1) (execSnapClrCounts who)
  | 0x01, 0x110 => s.compareVin
  | 0x01, 0x118 => (List.range 24).foldl (fun s i => s.also (bit mask i) (execIslEnWrite who i (bit w i))) s
  | 0x02, 0x120 => s.also (bit w 0) (execLossClr who)
  | 0x03, 0x100 => s.also (bit mask 0) (execGrantWrite who (m % 2 ^ 20))
  | 0x03, 0x168 => s.also (bit w 0) (execBudgetClr who)
  | 0x04, 0x128 => s.also (bit w 0) (execLedgerCalGo who)
  | 0x04, 0x190 => s.also (bit w 0) (execLedgerClr who)
  | _, _ => s

/-- The actions of the pages of HOST, INGEST, CORE, DRAM, PAIR, NET and of the flash channels. -/
def State.actUnits (s : State) (who : Req) (p off w mask : Nat) : State :=
  let clr (f : State → Host.Outcome State Fault Refusal) : State := s.also (bit w 0) f
  match p, off with
  | 0x10, 0x168 => clr (execHostqClr who)
  | 0x11, 0x108 => clr (execPcieRetrain who (s.get F.PCIE_STATUS_SPEED) (s.get F.PCIE_STATUS_WIDTH))
  | 0x11, 0x128 => clr (execPcieClr who)
  | 0x12, 0x010 => s.also (bit mask 0) (execIngestCtlEn who (bit w 0))
  | 0x12, 0x180 => clr (execIngestClr who)
  | 0x13, 0x188 => clr (execFrameClr who)
  | 0x14, 0x140 => clr (execMapCkptGo who)
  | 0x14, 0x168 => clr (execMapClr who)
  | 0x15, 0x130 => clr (execMcacheClr who)
  | 0x16, 0x178 => clr (execDramcClr who)
  | 0x17, 0x150 => clr (execPbufClr who)
  | 0x18, 0x228 => clr (execEccClr who)
  | 0x19, 0x138 => clr (execScrubClr who)
  | 0x1a, 0x160 => clr (execGroomClr who)
  | 0x1b, 0x010 => s.also (bit mask 0) (execPairCtlEn who (bit w 0))
  | 0x1b, 0x160 => clr (execPairClr who)
  | 0x1c, 0x010 => s.also (bit mask 0) (execNetCtlEn who 0 (bit w 0))
  | 0x1c, 0x168 => clr (execNetClr who 0)
  | 0x1d, 0x010 => s.also (bit mask 0) (execNetCtlEn who 1 (bit w 0))
  | 0x1d, 0x168 => clr (execNetClr who 1)
  | 0x1e, 0x010 => s.also (bit mask 0) (execNvtcpCtlEn who (bit w 0))
  | 0x1e, 0x148 => clr (execNvtcpClr who)
  | _, 0x010 => if 0x20 ≤ p then clr (execFchCtlFail who (p - 0x20)) else s
  | _, 0x190 => if 0x20 ≤ p then clr (execFchClr who (p - 0x20)) else s
  | _, _ => s

/-- The actions of the other management pages; `full` says that all 64 bits are written. -/
def State.actMgmt (s : State) (who : Req) (p off w m mask : Nat) : State :=
  let full := mask = 2 ^ 64 - 1
  match p with
  | 0x06 =>
    match off with
    | 0x110 => s.also full (execCalSet who w)
    | 0x128 => s.also (mask ≠ 0) (execAlarmWrite who m)
    | 0x160 => s.also (bit mask 0) (execGenPreset who (w % 2 ^ 32))
    | 0x1A8 => s.also (bit w 0) (execTimeClr who)
    | _ => s
  | 0x07 => if off = 0x148 then s.also (bit w 0) (execSecClr who) else s
  | 0x08 =>
    if off = 0x100 then (s.also (bit w 0) (execNewChal who)).also (bit w 1) (execDbgDrop who)
    else if off = 0x1A0 then s.also (bit w 0) (execDbgSubmit who) else s
  | 0x09 =>
    if !bit mask 0 && off < 0x200 then s
    else match off with
      | 0x100 => s.rwAction who p off (fun s => s.unlockA who (w % 65536))
      | 0x108 => s.rwAction who p off (fun s => s.unlockB who (w % 65536))
      | 0x118 => s.codeCmdBy who (w % 8)
      | _ => s.codeTouch who off
  | 0x0b =>
    if off = 0x100 then
      ((s.also (bit w 0) (execBistGo who)).also (bit w 1) (execBistAbort who)).also (bit w 2) (execBistFuse who (bits m 8 5))
    else if off = 0x140 then s.also (bit w 0) (execBistClr who) else s
  | 0x0c =>
    if off = 0x010 then s.also (bit mask 0) (execFiCtlEn who (bit w 0))
    else if 0x100 ≤ off && off % 0x40 = 0 then s.also true (execFiCfgWrite who (off / 0x40 - 4) m) else s
  | 0x0e =>
    if off = 0x110 then s.also (bit w 0) (execSdmaClr who)
    else if 0x200 ≤ off then
      let n := (off - 0x200) / 0x40
      match off % 0x40 with
      | 0x00 => (s.also (bit mask 1) (execSdmaPause who n (bit w 1))).also (bit mask 0) (execSdmaCtlEn who n (bit w 0))
      | 0x28 => ((s.also (bit w 2) (execSdmaRingReset who n)).also (bit w 0) (execSdmaGo who n)).also (bit w 1) (execSdmaKick who n)
      | _ => s
    else s
  | 0x0f =>
    let n := off / 0x80 - 2
    if off < 0x100 then s
    else match off % 0x80 with
      | 0x00 => s.also (bit mask 0) (execCrcuCfgWrite who n m)
      | 0x08 => s.also true (execCrcuAccWrite who n m)
      | 0x18 => s.also (bit w 0) (execCrcuClear who n)
      | 0x20 => s.also full (execFeed who n w)
      | 0x28 => s.also full (execFeedPart who n w)
      | _ => s
  | 0x1f =>
    let n := off / 0x80 - 2
    if off < 0x100 then s
    else match off % 0x80 with
      | 0x00 => (s.also (bit mask 1) (execSendBreak who n (bit w 1))).also (bit mask 0) (execUartCtlEn who n (bit w 0))
      | 0x08 => s.also true (execUartCfgWrite who n m)
      | 0x18 => s.also (bit mask 0) (execRxPop who n (w % 128))
      | 0x20 => s.also (bit mask 0) (execTxPush who n (w % 256))
      | 0x40 => s.also (bit w 0) (execAserClr who n)
      | _ => s
  | _ => s

/-- The action of a write that the fabric has let through. -/
def State.act (s : State) (who : Req) (p off v mask : Nat) : State :=
  let w := Nat.land v mask
  let old := s.readReg p off
  let m := old - Nat.land old mask + w
  if off = 0x038 then s.forceEvents p w
  else if off = 0x040 then
    (if !hasShadow p then s
     else if bit w 33 then s.abandonCommit who p (bit w 32)
     else if bit w 32 then s.commitPage who p (m % 2 ^ 24) else s)
  else if [0x00, 0x01, 0x02, 0x03, 0x04, 0x05].contains p then s.actSys who p off w m mask
  else if (0x06 ≤ p && p ≤ 0x0f) || p = 0x1f then s.actMgmt who p off w m mask
  else s.actUnits who p off w mask

/-! ### Writes that a chapter keeps from their fields -/

/-- R546: LOCK_MAP and TAMPER_CFG are writable in BLANK, and in OPEN only in Service. -/
def State.secGate (s : State) (p off : Nat) : Bool :=
  p = Pg.SEC && [0x108, 0x120, 0x128].contains off && !(s.secState = 0 || (s.secState = 1 && s.mode = Md.SERVICE))

/-- R594: EVERY, MASK and POS of an injector that is armed or holds a unit. -/
def State.fiGate (s : State) (p off : Nat) : Bool :=
  p = Pg.FI && 0x100 ≤ off && off % 0x40 ≠ 0 && s.fiActive (off / 0x40 - 4)

/-- R499: the registers of channels 0 to 3. -/
def sdmaGate (who : Req) (p off : Nat) : Bool := p = Pg.SDMA && 0x200 ≤ off && off < 0x300 && who ≠ .firmware

/-- Bits of a register that are reserved although its field is held whole, and MODE of a channel that is not idle (R514). -/
def State.effMask (s : State) (p off mask : Nat) : Nat :=
  if p = 0x13 && off = 0x120 then Nat.land mask 0x77FFF
  else if p = 0x13 && off = 0x128 then Nat.land mask 0xFFFFFFFF
  else if p = Pg.SDMA && 0x200 ≤ off && off % 0x40 = 0 && [1, 2, 3].contains (s.get (F.SDMA_STATUS_RUN ((off - 0x200) / 0x40))) then
    clrBit mask 2
  else mask

/-- What the code store keeps of the SEC and UPD settings (R546, Table 19-10). -/
def State.saveSettings (s : State) (p : Nat) : State :=
  if p = Pg.SEC then { s with nv := { s.nv with
    tamperEn := s.get F.SEC_TAMPER_CFG_EN = 1, tamperDo := s.get F.SEC_TAMPER_CFG_ACTION
    lock0 := s.get F.SEC_LOCK_MAP0_MAP, lock1 := s.get F.SEC_LOCK_MAP1_MAP } }
  else if p = Pg.UPD then { s with nv := { s.nv with updRes := s.get F.UPD_CFG_RESERVE_UJ, updLock := s.get F.UPD_CFG_LOCKED_OK = 1 } }
  else s

/-- A write of an MBX register: what a half does not reach of a word stays, and an action needs its whole field. -/
def State.mbxReg (s : State) (who : Req) (off v mask : Nat) : State :=
  let r := off % 0x100
  let w := Nat.land v mask
  let old := s.get (if r = 0x10 then F.MBX_MASK (off / 0x100 - 1) else F.MBX_BLK_WORD (off / 0x100 - 1) ((r - 0x80) / 8))
  if 0x80 ≤ r || r = 0x10 then s.mbxAccess who off (old - Nat.land old mask + w)
  else if r = 0x28 && mask ≠ 2 ^ 64 - 1 then s
  else if !bit mask 0 then s
  else s.mbxAccess who off w

/-- A write of the bits of `mask` of a register, with everything that follows. -/
def State.regWrite (s : State) (who : Req) (p off v mask : Nat) : State :=
  let mask' := s.effMask p off mask
  match s.blocked who p off with
  | some _ => s.writeFields who p off v mask'
  | none =>
    if s.secGate p off || sdmaGate who p off then (s.raise E.SYS_ACCESS_DENY).logAccess 2 true who (regAddr p off)
    else if s.fiGate p off then s.raise E.FI_CFG_IGNORED
    else if p = Pg.MBX && 0x100 ≤ off then s.mbxReg who off v mask
    else (State.act (s.writeFields who p off v mask') who p off v mask').saveSettings p

/-! ### Reads (R63, R67, Table 18-8) -/

/-- Fields that a read of a register shows of its requester: its unlock (R554). -/
def State.readFor (s : State) (who : Req) (p off : Nat) : Nat :=
  s.readReg p off + (if p = Pg.CODE && off = 0x018 && s.unlockOf who = 2 then 2 else 0)

/-- A read of a whole register: its value and the state with what ACCESS_LOG records. -/
def State.regRead (s : State) (who : Req) (p off : Nat) : Nat × State :=
  let log (k : Nat) : State := s.logAccess k false who (regAddr p off)
  if 0x60 ≤ p then (0, log 1)
  else if off = 0x000 || off = 0x008 then (s.readReg p off, s)
  else if !s.mayRead who p off then (0, log 2)
  else if !s.served p then (0, log 3)
  else (s.readFor who p off, s)

/-! ### Accesses by width (R46 to R49, R59, R60) -/

/-- The pieces of an access: whole registers, halves, and parts of a half. -/
def pieces : Nat → Nat → Nat → List (Nat × Nat)
  | 0, _, _ => []
  | fuel + 1, a, n =>
    if n = 0 then []
    else if a % 8 = 0 && 8 ≤ n then (a, 8) :: pieces fuel (a + 8) (n - 8)
    else
      let k := min n (4 - a % 4)
      (a, k) :: pieces fuel (a + k) (n - k)

/-- The register an address lies in. -/
def regOf (a : Nat) : Nat := a / 8 * 8

/-- The mask of the high half. -/
def highMask : Nat := 0xFFFFFFFF00000000

/-- A write of a low half: held, in place of one held for the same register; one held for another register is dropped. -/
def State.writeLow (s : State) (who : Req) (a v : Nat) : State :=
  let s1 := if (s.heldW who).any (fun h => h.addr = a) then s.setHeldR who none else s.dropHeld who
  s1.setHeldW who (some ⟨a, v % 2 ^ 32⟩)

/-- A write of a high half: with the low half held for the same register as one write, or alone. -/
def State.writeHigh (s : State) (who : Req) (a v : Nat) : State :=
  let r := regOf a
  match s.heldW who with
  | some h =>
    if h.addr = r then
      ((s.setHeldR who none).setHeldW who none).regWrite who (r / 0x1000) (r % 0x1000) (h.val + v % 2 ^ 32 * 2 ^ 32) (2 ^ 64 - 1)
    else (s.dropHeld who).regWrite who (r / 0x1000) (r % 0x1000) (v % 2 ^ 32 * 2 ^ 32) highMask
  | none => (s.dropHeld who).regWrite who (r / 0x1000) (r % 0x1000) (v % 2 ^ 32 * 2 ^ 32) highMask

/-- A write of less than a half is discarded. -/
def State.badWidth (s : State) (who : Req) (a : Nat) : State :=
  ((s.setHeldR who none).raise E.SYS_BAD_WIDTH).logAccess 4 true who (regOf a)

/-- One piece of a write; `v` is the access's data from the piece on. -/
def State.writePiece (s : State) (who : Req) (a n v : Nat) : State :=
  if n = 8 then (s.dropHeld who).regWrite who (a / 0x1000) (a % 0x1000) (v % 2 ^ 64) (2 ^ 64 - 1)
  else if n = 4 then (if a % 8 = 0 then s.writeLow who a v else s.writeHigh who a v)
  else s.badWidth who a

/-- The fabric in MGMT serves accesses in every mode but Keep. -/
def State.fabricUp (s : State) : Bool := s.mode ≠ Md.KEEP

/-- A write of `bytes` bytes at a BAR2 offset. -/
def execRegisterWrite (who : Req) (addr bytes val : Nat) (s : State) : Host.Outcome State Fault Refusal :=
  done (if s.fabricUp then
    (pieces bytes addr bytes).foldl (fun s (x : Nat × Nat) => s.writePiece who x.1 x.2 (val / 2 ^ (8 * (x.1 - addr)))) s else s)

/-- A 32-bit write of a low half. -/
def execHalfWriteLow (who : Req) (addr val : Nat) (s : State) : Host.Outcome State Fault Refusal :=
  done (if s.fabricUp then s.writeLow who (regOf addr) val else s)

/-- A 32-bit write of a high half. -/
def execHalfWriteHigh (who : Req) (addr val : Nat) (s : State) : Host.Outcome State Fault Refusal :=
  done (if s.fabricUp then s.writeHigh who (regOf addr + 4) val else s)

/-- One piece of a read: the bytes it returns. A read in a low half captures the register; one in the high half uses a capture. -/
def State.readPiece (s : State) (who : Req) (a n : Nat) : Nat × State :=
  let r := regOf a
  if n = 8 then (s.setHeldR who none).regRead who (r / 0x1000) (r % 0x1000)
  else if a % 8 < 4 then
    let (v, s1) := s.regRead who (r / 0x1000) (r % 0x1000)
    (bits v (8 * (a % 8)) (8 * n), s1.setHeldR who (some ⟨r, v⟩))
  else match s.heldR who with
    | some h =>
      if h.addr = r then (bits h.val (8 * (a % 8)) (8 * n), s)
      else
        let (v, s1) := (s.setHeldR who none).regRead who (r / 0x1000) (r % 0x1000)
        (bits v (8 * (a % 8)) (8 * n), s1)
    | none =>
      let (v, s1) := s.regRead who (r / 0x1000) (r % 0x1000)
      (bits v (8 * (a % 8)) (8 * n), s1)

/-- A read of `bytes` bytes at a BAR2 offset: of a low half or a part of it, and of any other width. The data returned stands in
`fabric.data`. -/
def execLowHalfRead (who : Req) (addr bytes : Nat) (s : State) : Host.Outcome State Fault Refusal :=
  done (if s.fabricUp then
    let r := (pieces bytes addr bytes).foldl (fun (t : Nat × State) (x : Nat × Nat) =>
      let (v, s1) := t.2.readPiece who x.1 x.2
      (t.1 + v * 2 ^ (8 * (x.1 - addr)), s1)) (0, s)
    { r.2 with fabric := { r.2.fabric with data := r.1 } }
  else s)

/-! ### REG_READ and REG_WRITE (R497) -/

/-- R63, R67: whether an access of Sniwyn's is denied. -/
def State.regDenied (s : State) (write : Bool) (a : Nat) : Bool :=
  let p := a / 0x1000
  let off := a % 0x1000
  if write then !s.mayWrite .sniwyn p off else !s.mayRead .sniwyn p off

/-- REG_READ. -/
def execRegRead (via : Nat) (s : State) : Host.Outcome State Fault Refusal :=
  done (s.mbxServe via 0x02 (fun r s => s.withBody r 1 1 (fun b =>
    let a := regOf (b.headD 0)
    let (v, s1) := (s.setHeldR .sniwyn none).regRead .sniwyn (a / 0x1000) (a % 0x1000)
    if s.regDenied false a then s1.mbxReply r 3 [] else s1.mbxReply r 0 [v])))

/-- REG_WRITE. -/
def execRegWrite (via : Nat) (s : State) : Host.Outcome State Fault Refusal :=
  done (s.mbxServe via 0x03 (fun r s => s.withBody r 2 2 (fun b =>
    let a := regOf (b.headD 0)
    let deny := s.regDenied true a
    let s1 := (s.dropHeld .sniwyn).regWrite .sniwyn (a / 0x1000) (a % 0x1000) (b.getD 1 0 % 2 ^ 64) (2 ^ 64 - 1)
    s1.mbxReply r (if deny then 3 else 0) [])))

/-! ### Transfers of the service DMA (R503, R505 to R507, R511, R517) -/

/-- Accesses that a channel makes in its owner's name leave the owner's held halves alone. -/
def State.keepHeld (s t : State) : State :=
  { t with fabric := { t.fabric with
    wCamera := s.fabric.wCamera, wFirmware := s.fabric.wFirmware, wSniwyn := s.fabric.wSniwyn
    rCamera := s.fabric.rCamera, rFirmware := s.fabric.rFirmware, rSniwyn := s.fabric.rSniwyn } }

/-- Eight bytes of a source; `none` where DRAM returns them poisoned. -/
def State.sdmaIn (s : State) (who : Req) (a : Nat) (pcie : List Nat) : Option (List Nat × State) :=
  let o := sdmaOff a
  match sdmaSpace a with
  | 0 =>
    let s1 := s.touchRegion o
    if s1.chunkPoison 6 o then none else some (s1.chunkBytes 6 o 8, s1)
  | 1 => some ((List.range 8).map (fun i => pcie.getD i 0), s)
  | 2 =>
    let (v, s1) := s.regRead who (o / 0x1000) (o % 0x1000)
    some (bytesOf 8 v, s1)
  | _ => some (s.codeRead who o 8, s)

/-- Eight bytes reach a destination. -/
def State.sdmaOut (s : State) (who : Req) (a : Nat) (bs : List Nat) : State :=
  let o := sdmaOff a
  if sdmaSpace a = 2 then s.keepHeld (s.regWrite who (o / 0x1000) (o % 0x1000) (ofBytes bs) (2 ^ 64 - 1))
  else if sdmaSpace a = 0 then (s.touchRegion o).sdmaPut a bs
  else s.sdmaPut a bs

/-- R340: a channel that has written all of a 64-byte chunk of DRAM leaves it without poison; `dst` is the chunk's last word. -/
def State.chunkWhole (s : State) (n dst : Nat) : State :=
  if sdmaSpace dst = 0 && dst % 64 = 56 && (s.sdma.xfers.find? n).any (fun x => decide (56 ≤ x.total - s.get (F.SDMA_COUNT_BYTES n))) then
    { s with dram := { s.dram with poison := s.dram.poison.filter (· ≠ dst / 64) } }
  else s

/-- A channel moves words; the answer says whether it met poison, and its registers then are exact. -/
def State.sdmaMove (n : Nat) (snoop : Bool) : Nat → List Nat → State → Bool × State
  | 0, _, s => (false, s)
  | k + 1, pcie, s =>
    let who := s.sdmaOwner n
    let dst := s.get (F.SDMA_DST_ADDR n)
    match s.sdmaIn who (s.get (F.SDMA_SRC_ADDR n)) pcie with
    | none => (true, s)
    | some (bs, s1) =>
      let s1 := (s1.sdmaOut who dst bs).chunkWhole n dst
      let s1 := ((s1.addWrap (F.SDMA_SRC_ADDR n) 8).addWrap (F.SDMA_DST_ADDR n) 8).set (F.SDMA_COUNT_BYTES n) (s1.get (F.SDMA_COUNT_BYTES n) - 8)
      let s1 := s1.addWrap F.SDMA_BYTES_COUNT 8
      State.sdmaMove n snoop k (pcie.drop 8) (if snoop then s1.crcuFeed 1 n bs else s1)

/-- A transfer is whole: a register transfer is DONE; a descriptor has its status written, and the next is fetched unless it was the
last. -/
def State.sdmaFinish (s : State) (n : Nat) (x : Xfer) : State :=
  match x.desc with
  | none =>
    (State.set { s with sdma := { s.sdma with xfers := s.sdma.xfers.del n } } (F.SDMA_STATUS_RUN n) 4).raise (E.SDMA_DONE n)
  | some ctrl =>
    let s1 := (s.writeBack n x 1).raiseIf (bit ctrl 1) (E.SDMA_DONE n)
    let h := s.get (F.SDMA_DESC_CFG_HEAD n) + 1
    let s1 := s1.set (F.SDMA_DESC_CFG_HEAD n) (if s.get (F.SDMA_DESC_CFG_N n) ≤ h then 0 else h)
    if bit ctrl 2 then State.set { s1 with sdma := { s1.sdma with xfers := s1.sdma.xfers.del n } } (F.SDMA_STATUS_RUN n) 4
    else s1.sdmaFetch n

/-- The transfer in progress of a channel that runs. -/
def State.sdmaLive (s : State) (n : Nat) : Option Xfer :=
  if n < 8 && s.get (F.SDMA_STATUS_RUN n) = 1 then (s.sdma.xfers.find? n).filter (fun x => !x.fetch) else none

/-- A transfer ends: `err` 0 with all of it moved, or an error met after `moved` bytes; `pcie` is what the camera's memory returned. -/
def execSdmaTransferEnd (n err moved : Nat) (pcie : List Nat) (s : State) : Host.Outcome State Fault Refusal :=
  done (match s.sdmaLive n with
    | none => s
    | some x =>
      let cnt := s.get (F.SDMA_COUNT_BYTES n)
      let reach := max (s.sdmaReach (s.get (F.SDMA_SRC_ADDR n))) (s.sdmaReach (s.get (F.SDMA_DST_ADDR n)))
      if reach ≠ 0 then s.sdmaError n reach
      else
        let (bad, s1) := State.sdmaMove n x.snoop ((if err = 0 then cnt else min moved cnt) / 8) pcie s
        if bad then s1.sdmaError n 4
        else if err ≠ 0 then s1.sdmaError n (if err ≤ 7 then err else 5)
        else s1.sdmaFinish n x)

/-- The reads in flight of a channel whose PAUSE is set have been written: it is PAUSED. -/
def execSdmaPaused (n moved : Nat) (pcie : List Nat) (s : State) : Host.Outcome State Fault Refusal :=
  done (if 8 ≤ n || s.get (F.SDMA_STATUS_RUN n) ≠ 1 || s.get (F.SDMA_CTL_PAUSE n) = 0 then s
    else
      let (bad, s1) := match s.sdmaLive n with
        | some x => State.sdmaMove n x.snoop (min moved (s.get (F.SDMA_COUNT_BYTES n)) / 8) pcie s
        | none => (false, s)
      if bad then s1.sdmaError n 4 else (s1.set (F.SDMA_STATUS_RUN n) 2).raise (E.SDMA_PAUSED n))

end Sys2Proof.Machine
end

