-- ==== Sys2Proof/Machine/Dispatch.lean ====
section
/-!
DEFINITION. The meaning of each command: one arm per constructor of `Instr`, each one direct call.
-/

namespace Sys2Proof.Machine

/-- The effect of a command on everything but the queue of waiting commands. -/
def exec (i : Instr) (s : State) : Host.Outcome State Fault Refusal :=
  match i with
  | .registerWrite who addr bytes val => Sys2Proof.Machine.execRegisterWrite who addr bytes val s
  | .halfWriteLow who addr val => Sys2Proof.Machine.execHalfWriteLow who addr val s
  | .halfWriteHigh who addr val => Sys2Proof.Machine.execHalfWriteHigh who addr val s
  | .lowHalfRead who addr bytes => Sys2Proof.Machine.execLowHalfRead who addr bytes s
  | .shadowCommit who page epoch => Sys2Proof.Machine.execShadowCommit who page epoch s
  | .shadowAbandon who page commit => Sys2Proof.Machine.execShadowAbandon who page commit s
  | .gcommit who epoch => Sys2Proof.Machine.execGcommit who epoch s
  | .commitAdopted page => Sys2Proof.Machine.execCommitAdopted page s
  | .snapTriggerFire who => Sys2Proof.Machine.execSnapTriggerFire who s
  | .snapInEdge rising => Sys2Proof.Machine.execSnapInEdge rising s
  | .snapRearm who => Sys2Proof.Machine.execSnapRearm who s
  | .snapClrCounts who => Sys2Proof.Machine.execSnapClrCounts who s
  | .powerOnResetRelease straps unstable => Sys2Proof.Machine.execPowerOnResetRelease straps unstable s
  | .bankLevelDecided bank level => Sys2Proof.Machine.execBankLevelDecided bank level s
  | .railTrip rail => Sys2Proof.Machine.execRailTrip rail s
  | .vinSenseLow mv => Sys2Proof.Machine.execVinSenseLow mv s
  | .pwrFailN low => Sys2Proof.Machine.execPwrFailN low s
  | .xtalLoss => Sys2Proof.Machine.execXtalLoss s
  | .refClockLoss ref inL1ss => Sys2Proof.Machine.execRefClockLoss ref inL1ss s
  | .refRestored ref => Sys2Proof.Machine.execRefRestored ref s
  | .pllLock pll => Sys2Proof.Machine.execPllLock pll s
  | .sscProfileChange pll => Sys2Proof.Machine.execSscProfileChange pll s
  | .lossClr who => Sys2Proof.Machine.execLossClr who s
  | .islEnWrite who island en => Sys2Proof.Machine.execIslEnWrite who island en s
  | .islandStopComplete island => Sys2Proof.Machine.execIslandStopComplete island s
  | .islandStarted island => Sys2Proof.Machine.execIslandStarted island s
  | .resetNAssert => Sys2Proof.Machine.execResetNAssert s
  | .resetNRelease straps unstable => Sys2Proof.Machine.execResetNRelease straps unstable s
  | .perstNAssert => Sys2Proof.Machine.execPerstNAssert s
  | .perstNDeassert => Sys2Proof.Machine.execPerstNDeassert s
  | .watchdogExpiry => Sys2Proof.Machine.execWatchdogExpiry s
  | .softReset who key => Sys2Proof.Machine.execSoftReset who key s
  | .islandReset who key island => Sys2Proof.Machine.execIslandReset who key island s
  | .resetFlushEnd => Sys2Proof.Machine.execResetFlushEnd s
  | .deferredResetRelease => Sys2Proof.Machine.execDeferredResetRelease s
  | .functionReady fn found => Sys2Proof.Machine.execFunctionReady fn found s
  | .functionFault fn => Sys2Proof.Machine.execFunctionFault fn s
  | .modeReq who target => Sys2Proof.Machine.execModeReq who target s
  | .modeTransitionComplete => Sys2Proof.Machine.execModeTransitionComplete s
  | .wakeExitTimeout => Sys2Proof.Machine.execWakeExitTimeout s
  | .drainComplete => Sys2Proof.Machine.execDrainComplete s
  | .restEntry => Sys2Proof.Machine.execRestEntry s
  | .restartAfterSeal straps unstable => Sys2Proof.Machine.execRestartAfterSeal straps unstable s
  | .wakeRising straps unstable => Sys2Proof.Machine.execWakeRising straps unstable s
  | .offloadNoConnectionTimeout => Sys2Proof.Machine.execOffloadNoConnectionTimeout s
  | .holdSample code => Sys2Proof.Machine.execHoldSample code s
  | .admissionDecision => Sys2Proof.Machine.execAdmissionDecision s
  | .ledgerCalGo who => Sys2Proof.Machine.execLedgerCalGo who s
  | .calDone tAbortUs chans => Sys2Proof.Machine.execCalDone tAbortUs chans s
  | .hostWaitExpired cid => Sys2Proof.Machine.execHostWaitExpired cid s
  | .ledgerClr who => Sys2Proof.Machine.execLedgerClr who s
  | .pbufClr who => Sys2Proof.Machine.execPbufClr who s
  | .sealLunsReady => Sys2Proof.Machine.execSealLunsReady s
  | .sealPageProgramDone chan ok => Sys2Proof.Machine.execSealPageProgramDone chan ok s
  | .sealRecordRetired => Sys2Proof.Machine.execSealRecordRetired s
  | .sealKeepEntry => Sys2Proof.Machine.execSealKeepEntry s
  | .journalReplay bad => Sys2Proof.Machine.execJournalReplay bad s
  | .arbitrationWindowStart throughout => Sys2Proof.Machine.execArbitrationWindowStart throughout s
  | .arbiterPick pickable => Sys2Proof.Machine.execArbiterPick pickable s
  | .sequencerIssue op => Sys2Proof.Machine.execSequencerIssue op s
  | .thermalSample tj extMv => Sys2Proof.Machine.execThermalSample tj extMv s
  | .grantWrite who mw => Sys2Proof.Machine.execGrantWrite who mw s
  | .budgetClr who => Sys2Proof.Machine.execBudgetClr who s
  | .sqTailDoorbell q value fetchNs => Sys2Proof.Machine.execSqTailDoorbell q value fetchNs s
  | .cqHeadDoorbell q value => Sys2Proof.Machine.execCqHeadDoorbell q value s
  | .ccEnable en ams asqs acqs => Sys2Proof.Machine.execCcEnable en ams asqs acqs s
  | .ccShutdown => Sys2Proof.Machine.execCcShutdown s
  | .createIoSq id qid size cqid prio bad => Sys2Proof.Machine.execCreateIoSq id qid size cqid prio bad s
  | .createIoCq id qid size vec ien bad => Sys2Proof.Machine.execCreateIoCq id qid size vec ien bad s
  | .deleteIoSq id qid => Sys2Proof.Machine.execDeleteIoSq id qid s
  | .deleteIoCq id qid => Sys2Proof.Machine.execDeleteIoCq id qid s
  | .getLogPage id lid off bytes rae bad => Sys2Proof.Machine.execGetLogPage id lid off bytes rae bad s
  | .identify id cns nsid cntid bad => Sys2Proof.Machine.execIdentify id cns nsid cntid bad s
  | .abort id sqid cid bad => Sys2Proof.Machine.execAbort id sqid cid bad s
  | .abortWindowExpired id => Sys2Proof.Machine.execAbortWindowExpired id s
  | .setFeatures id fid cdw11 save bad => Sys2Proof.Machine.execSetFeatures id fid cdw11 save bad s
  | .getFeatures id fid cdw11 sel bad => Sys2Proof.Machine.execGetFeatures id fid cdw11 sel bad s
  | .asynchronousEventRequest id => Sys2Proof.Machine.execAsynchronousEventRequest id s
  | .namespaceManagement id sel nsid size cap fmt dps bad => Sys2Proof.Machine.execNamespaceManagement id sel nsid size cap fmt dps bad s
  | .namespaceAttachment id sel nsid bad => Sys2Proof.Machine.execNamespaceAttachment id sel nsid bad s
  | .firmwareImageDownload id numd ofst bytes bad => Sys2Proof.Machine.execFirmwareImageDownload id numd ofst bytes bad s
  | .firmwareCommit id fs ca bad => Sys2Proof.Machine.execFirmwareCommit id fs ca bad s
  | .deviceSelfTest id nsid stc => Sys2Proof.Machine.execDeviceSelfTest id nsid stc s
  | .keepAlive id => Sys2Proof.Machine.execKeepAlive id s
  | .keepAliveExpired ctrl => Sys2Proof.Machine.execKeepAliveExpired ctrl s
  | .directiveSend id dtype doper cdw12 bad => Sys2Proof.Machine.execDirectiveSend id dtype doper cdw12 bad s
  | .directiveReceive id dtype doper bytes bad => Sys2Proof.Machine.execDirectiveReceive id dtype doper bytes bad s
  | .formatNvm id nsid lbaf ses pi first bad => Sys2Proof.Machine.execFormatNvm id nsid lbaf ses pi first bad s
  | .sanitize id act cdw10 bad => Sys2Proof.Machine.execSanitize id act cdw10 bad s
  | .takeStart id take first last bad => Sys2Proof.Machine.execTakeStart id take first last bad s
  | .takeStop id take bad => Sys2Proof.Machine.execTakeStop id take bad s
  | .ownerLock id carryOk hours cred bad short => Sys2Proof.Machine.execOwnerLock id carryOk hours cred bad short s
  | .ownerUnlock id arm cred bad short => Sys2Proof.Machine.execOwnerUnlock id arm cred bad short s
  | .frameIndexRead id stream wait take first count bad short => Sys2Proof.Machine.execFrameIndexRead id stream wait take first count bad short s
  | .ledgerQuery id snap bad short => Sys2Proof.Machine.execLedgerQuery id snap bad short s
  | .modeRequest id target bad => Sys2Proof.Machine.execModeRequest id target bad s
  | .mailboxPost id words doorbell bad short => Sys2Proof.Machine.execMailboxPost id words doorbell bad short s
  | .snapshotTrigger id ret rearm bad short => Sys2Proof.Machine.execSnapshotTrigger id ret rearm bad short s
  | .pairControl id action bad => Sys2Proof.Machine.execPairControl id action bad s
  | .flush id nsid bad => Sys2Proof.Machine.execFlush id nsid bad s
  | .write id c => Sys2Proof.Machine.execWrite id c s
  | .hostWriteDataComplete id sectors ackNs => Sys2Proof.Machine.execHostWriteDataComplete id sectors ackNs s
  | .read id c => Sys2Proof.Machine.execRead id c s
  | .compare id c data => Sys2Proof.Machine.execCompare id c data s
  | .writeZeroes id c => Sys2Proof.Machine.execWriteZeroes id c s
  | .datasetManagement id nsid ranges ad bad => Sys2Proof.Machine.execDatasetManagement id nsid ranges ad bad s
  | .verify id c => Sys2Proof.Machine.execVerify id c s
  | .selftestChunk uas => Sys2Proof.Machine.execSelftestChunk uas s
  | .selftestResume forced => Sys2Proof.Machine.execSelftestResume forced s
  | .selftestSegmentDone ok rows => Sys2Proof.Machine.execSelftestSegmentDone ok rows s
  | .hostqClr who => Sys2Proof.Machine.execHostqClr who s
  | .pcieRetrain who speed width => Sys2Proof.Machine.execPcieRetrain who speed width s
  | .pcieClr who => Sys2Proof.Machine.execPcieClr who s
  | .pcieLinkUp speed width eq => Sys2Proof.Machine.execPcieLinkUp speed width eq s
  | .laneBlockLock lane slips => Sys2Proof.Machine.execLaneBlockLock lane slips s
  | .lockLoss lane => Sys2Proof.Machine.execLockLoss lane s
  | .badSyncHeader lane => Sys2Proof.Machine.execBadSyncHeader lane s
  | .busaistAlign blks => Sys2Proof.Machine.execBusaistAlign blks s
  | .alignTimeout => Sys2Proof.Machine.execAlignTimeout s
  | .busaistSync b1 pattern => Sys2Proof.Machine.execBusaistSync b1 pattern s
  | .frameHeader h0 h1 => Sys2Proof.Machine.execFrameHeader h0 h1 s
  | .busaistSwitch vc => Sys2Proof.Machine.execBusaistSwitch vc s
  | .frameDataBlock payload => Sys2Proof.Machine.execFrameDataBlock payload s
  | .busaistTerm vc status crc frame => Sys2Proof.Machine.execBusaistTerm vc status crc frame s
  | .busaistAbort vc reason => Sys2Proof.Machine.execBusaistAbort vc reason s
  | .badCtrl payload => Sys2Proof.Machine.execBadCtrl payload s
  | .fcBlock => Sys2Proof.Machine.execFcBlock s
  | .ingestCtlEn who en => Sys2Proof.Machine.execIngestCtlEn who en s
  | .ingestStopTimeout => Sys2Proof.Machine.execIngestStopTimeout s
  | .ingestClr who => Sys2Proof.Machine.execIngestClr who s
  | .takeClose take => Sys2Proof.Machine.execTakeClose take s
  | .takeStopTimeout take => Sys2Proof.Machine.execTakeStopTimeout take s
  | .frmInPulse => Sys2Proof.Machine.execFrmInPulse s
  | .frameDurable id => Sys2Proof.Machine.execFrameDurable id s
  | .captureUnitFlush => Sys2Proof.Machine.execCaptureUnitFlush s
  | .frameClr who => Sys2Proof.Machine.execFrameClr who s
  | .programRetire op ok => Sys2Proof.Machine.execProgramRetire op ok s
  | .flashReadComplete op => Sys2Proof.Machine.execFlashReadComplete op s
  | .eraseComplete op ok => Sys2Proof.Machine.execEraseComplete op ok s
  | .flashOpTimeout op => Sys2Proof.Machine.execFlashOpTimeout op s
  | .channelDiscoveryDone r => Sys2Proof.Machine.execChannelDiscoveryDone r s
  | .zqCalibration chan => Sys2Proof.Machine.execZqCalibration chan s
  | .fchCtlFail who chan => Sys2Proof.Machine.execFchCtlFail who chan s
  | .fchClr who chan => Sys2Proof.Machine.execFchClr who chan s
  | .journalPageRetire => Sys2Proof.Machine.execJournalPageRetire s
  | .mapCkptGo who => Sys2Proof.Machine.execMapCkptGo who s
  | .checkpointComplete => Sys2Proof.Machine.execCheckpointComplete s
  | .padTimeout group => Sys2Proof.Machine.execPadTimeout group s
  | .partialLeafMerge seq => Sys2Proof.Machine.execPartialLeafMerge seq s
  | .segmentLoaded seg => Sys2Proof.Machine.execSegmentLoaded seg s
  | .mapClr who => Sys2Proof.Machine.execMapClr who s
  | .waysChanged => Sys2Proof.Machine.execWaysChanged s
  | .mcacheClr who => Sys2Proof.Machine.execMcacheClr who s
  | .dramRefreshWindow chan => Sys2Proof.Machine.execDramRefreshWindow chan s
  | .mr4Poll rates => Sys2Proof.Machine.execMr4Poll rates s
  | .periodicTraining chan driftPs => Sys2Proof.Machine.execPeriodicTraining chan driftPs s
  | .dramInitSweep => Sys2Proof.Machine.execDramInitSweep s
  | .dramWrite client addr data poison => Sys2Proof.Machine.execDramWrite client addr data poison s
  | .dramRead client addr n err => Sys2Proof.Machine.execDramRead client addr n err s
  | .dramWriteIssued n => Sys2Proof.Machine.execDramWriteIssued n s
  | .dramPatrol err => Sys2Proof.Machine.execDramPatrol err s
  | .dramcClr who => Sys2Proof.Machine.execDramcClr who s
  | .codewordDecoded n r => Sys2Proof.Machine.execCodewordDecoded n r s
  | .trackerRefresh rs => Sys2Proof.Machine.execTrackerRefresh rs s
  | .scrubRead => Sys2Proof.Machine.execScrubRead s
  | .sramPatrol ce clean dirty => Sys2Proof.Machine.execSramPatrol ce clean dirty s
  | .eccClr who => Sys2Proof.Machine.execEccClr who s
  | .scrubClr who => Sys2Proof.Machine.execScrubClr who s
  | .groomVictimSelect => Sys2Proof.Machine.execGroomVictimSelect s
  | .bandOpen group => Sys2Proof.Machine.execBandOpen group s
  | .groomIdleClose group => Sys2Proof.Machine.execGroomIdleClose group s
  | .groomClr who => Sys2Proof.Machine.execGroomClr who s
  | .pairLinkFrame v seq units crcOk => Sys2Proof.Machine.execPairLinkFrame v seq units crcOk s
  | .linkack v seq nak => Sys2Proof.Machine.execLinkack v seq nak s
  | .pairResendTimeout v => Sys2Proof.Machine.execPairResendTimeout v s
  | .credit v limit => Sys2Proof.Machine.execCredit v limit s
  | .train reason => Sys2Proof.Machine.execTrain reason s
  | .beat b => Sys2Proof.Machine.execBeat b s
  | .mirrorStallTimeout => Sys2Proof.Machine.execMirrorStallTimeout s
  | .prDetNHigh => Sys2Proof.Machine.execPrDetNHigh s
  | .slot m => Sys2Proof.Machine.execSlot m s
  | .held h ns => Sys2Proof.Machine.execHeld h ns s
  | .record seq r => Sys2Proof.Machine.execRecord seq r s
  | .recAck seq => Sys2Proof.Machine.execRecAck seq s
  | .ident ident lanes => Sys2Proof.Machine.execIdent ident lanes s
  | .result r => Sys2Proof.Machine.execResult r s
  | .shape seg keys => Sys2Proof.Machine.execShape seg keys s
  | .mailbox kind dir idx words => Sys2Proof.Machine.execMailbox kind dir idx words s
  | .relay n cmd args => Sys2Proof.Machine.execRelay n cmd args s
  | .relayDone n sct sc => Sys2Proof.Machine.execRelayDone n sct sc s
  | .peerSeal => Sys2Proof.Machine.execPeerSeal s
  | .leave planned => Sys2Proof.Machine.execLeave planned s
  | .snapreq => Sys2Proof.Machine.execSnapreq s
  | .convergenceCopy => Sys2Proof.Machine.execConvergenceCopy s
  | .pairCtlEn who en => Sys2Proof.Machine.execPairCtlEn who en s
  | .pairClr who => Sys2Proof.Machine.execPairClr who s
  | .netCtlEn who port en => Sys2Proof.Machine.execNetCtlEn who port en s
  | .linkUp port => Sys2Proof.Machine.execLinkUp port s
  | .linkDown port => Sys2Proof.Machine.execLinkDown port s
  | .dhcpBound port addr => Sys2Proof.Machine.execDhcpBound port addr s
  | .pauseFrame port quanta => Sys2Proof.Machine.execPauseFrame port quanta s
  | .tcpConnectionRequest port addr v6 dport => Sys2Proof.Machine.execTcpConnectionRequest port addr v6 dport s
  | .icreq conn hdgst ddgst => Sys2Proof.Machine.execIcreq conn hdgst ddgst s
  | .connect id qid sqsize cntlid host kato => Sys2Proof.Machine.execConnect id qid sqsize cntlid host kato s
  | .propertyGet id ofst eight => Sys2Proof.Machine.execPropertyGet id ofst eight s
  | .propertySet id ofst eight value => Sys2Proof.Machine.execPropertySet id ofst eight value s
  | .h2cData id off sectors hdrOk dataOk => Sys2Proof.Machine.execH2cData id off sectors hdrOk dataOk s
  | .offloadCloseTimeout => Sys2Proof.Machine.execOffloadCloseTimeout s
  | .netClr who port => Sys2Proof.Machine.execNetClr who port s
  | .nvtcpCtlEn who en => Sys2Proof.Machine.execNvtcpCtlEn who en s
  | .nvtcpClr who => Sys2Proof.Machine.execNvtcpClr who s
  | .mbxRing who d b => Sys2Proof.Machine.execMbxRing who d b s
  | .mbxDbClear who d b => Sys2Proof.Machine.execMbxDbClear who d b s
  | .mbxBlockGo who d => Sys2Proof.Machine.execMbxBlockGo who d s
  | .mbxBlockDone who d => Sys2Proof.Machine.execMbxBlockDone who d s
  | .mbxBlockRelease who d => Sys2Proof.Machine.execMbxBlockRelease who d s
  | .mbxQPush who d w => Sys2Proof.Machine.execMbxQPush who d w s
  | .mbxQPop who d n => Sys2Proof.Machine.execMbxQPop who d n s
  | .mbxacc write index data => Sys2Proof.Machine.execMbxacc write index data s
  | .ping via => Sys2Proof.Machine.execPing via s
  | .regRead via => Sys2Proof.Machine.execRegRead via s
  | .regWrite via => Sys2Proof.Machine.execRegWrite via s
  | .mbxModeReq via => Sys2Proof.Machine.execMbxModeReq via s
  | .info via => Sys2Proof.Machine.execInfo via s
  | .forward via => Sys2Proof.Machine.execForward via s
  | .logRead via => Sys2Proof.Machine.execLogRead via s
  | .messageBodyTimeout => Sys2Proof.Machine.execMessageBodyTimeout s
  | .forwardTimeout n => Sys2Proof.Machine.execForwardTimeout n s
  | .sdmaGo who n => Sys2Proof.Machine.execSdmaGo who n s
  | .sdmaKick who n => Sys2Proof.Machine.execSdmaKick who n s
  | .sdmaRingReset who n => Sys2Proof.Machine.execSdmaRingReset who n s
  | .sdmaDescFetch n ok bytes => Sys2Proof.Machine.execSdmaDescFetch n ok bytes s
  | .sdmaTransferEnd n err moved pcie => Sys2Proof.Machine.execSdmaTransferEnd n err moved pcie s
  | .sdmaPause who n pause => Sys2Proof.Machine.execSdmaPause who n pause s
  | .sdmaPaused n moved pcie => Sys2Proof.Machine.execSdmaPaused n moved pcie s
  | .sdmaCtlEn who n en => Sys2Proof.Machine.execSdmaCtlEn who n en s
  | .sdmaStopComplete n => Sys2Proof.Machine.execSdmaStopComplete n s
  | .sdmaClr who => Sys2Proof.Machine.execSdmaClr who s
  | .crcuClear who unit => Sys2Proof.Machine.execCrcuClear who unit s
  | .feed who unit val => Sys2Proof.Machine.execFeed who unit val s
  | .feedPart who unit val => Sys2Proof.Machine.execFeedPart who unit val s
  | .crcuAccWrite who unit val => Sys2Proof.Machine.execCrcuAccWrite who unit val s
  | .crcuCfgWrite who unit val => Sys2Proof.Machine.execCrcuCfgWrite who unit val s
  | .tamperN low => Sys2Proof.Machine.execTamperN low s
  | .carryExpired => Sys2Proof.Machine.execCarryExpired s
  | .keyZeroise => Sys2Proof.Machine.execKeyZeroise s
  | .newChal who => Sys2Proof.Machine.execNewChal who s
  | .dbgSubmit who => Sys2Proof.Machine.execDbgSubmit who s
  | .dbgDrop who => Sys2Proof.Machine.execDbgDrop who s
  | .debugLifetimeExpired => Sys2Proof.Machine.execDebugLifetimeExpired s
  | .challengeExpired => Sys2Proof.Machine.execChallengeExpired s
  | .secClr who => Sys2Proof.Machine.execSecClr who s
  | .unlockA who key => Sys2Proof.Machine.execUnlockA who key s
  | .unlockB who key => Sys2Proof.Machine.execUnlockB who key s
  | .codeUnlockTimeout who => Sys2Proof.Machine.execCodeUnlockTimeout who s
  | .nop who => Sys2Proof.Machine.execNop who s
  | .readLine who => Sys2Proof.Machine.execReadLine who s
  | .programLine who => Sys2Proof.Machine.execProgramLine who s
  | .eraseSector who => Sys2Proof.Machine.execEraseSector who s
  | .blankCheck who => Sys2Proof.Machine.execBlankCheck who s
  | .crcSector who => Sys2Proof.Machine.execCrcSector who s
  | .cmdDone ok => Sys2Proof.Machine.execCmdDone ok s
  | .updateCopySector ok => Sys2Proof.Machine.execUpdateCopySector ok s
  | .updateSwitch => Sys2Proof.Machine.execUpdateSwitch s
  | .bistGo who => Sys2Proof.Machine.execBistGo who s
  | .bistAbort who => Sys2Proof.Machine.execBistAbort who s
  | .bistSegmentDone array rows => Sys2Proof.Machine.execBistSegmentDone array rows s
  | .bistFuse who array => Sys2Proof.Machine.execBistFuse who array s
  | .fuseDone => Sys2Proof.Machine.execFuseDone s
  | .bistClr who => Sys2Proof.Machine.execBistClr who s
  | .fiCfgWrite who inj val => Sys2Proof.Machine.execFiCfgWrite who inj val s
  | .fiCtlEn who en => Sys2Proof.Machine.execFiCtlEn who en s
  | .calendarSecondEdge straps unstable => Sys2Proof.Machine.execCalendarSecondEdge straps unstable s
  | .calendarTrim sub => Sys2Proof.Machine.execCalendarTrim sub s
  | .calendarRefresh sub => Sys2Proof.Machine.execCalendarRefresh sub s
  | .calSet who val => Sys2Proof.Machine.execCalSet who val s
  | .alarmWrite who val => Sys2Proof.Machine.execAlarmWrite who val s
  | .vbakMeasure mv => Sys2Proof.Machine.execVbakMeasure mv s
  | .keepSupplyLoss => Sys2Proof.Machine.execKeepSupplyLoss s
  | .keepSupplyReturn => Sys2Proof.Machine.execKeepSupplyReturn s
  | .rtcLoss => Sys2Proof.Machine.execRtcLoss s
  | .rtcRestored => Sys2Proof.Machine.execRtcRestored s
  | .timebaseMarker => Sys2Proof.Machine.execTimebaseMarker s
  | .ltcFrame cells addr rate user boundary period => Sys2Proof.Machine.execLtcFrame cells addr rate user boundary period s
  | .ltcLossTimeout => Sys2Proof.Machine.execLtcLossTimeout s
  | .generatorBoundary => Sys2Proof.Machine.execGeneratorBoundary s
  | .genPreset who addr => Sys2Proof.Machine.execGenPreset who addr s
  | .timeClr who => Sys2Proof.Machine.execTimeClr who s
  | .uartCharacter port data framing parity => Sys2Proof.Machine.execUartCharacter port data framing parity s
  | .breakCondition port => Sys2Proof.Machine.execBreak port s
  | .txPush who port data => Sys2Proof.Machine.execTxPush who port data s
  | .uartTxCharacterSent port => Sys2Proof.Machine.execUartTxCharacterSent port s
  | .rxPop who port n => Sys2Proof.Machine.execRxPop who port n s
  | .sendBreak who port on => Sys2Proof.Machine.execSendBreak who port on s
  | .uartCfgWrite who port val => Sys2Proof.Machine.execUartCfgWrite who port val s
  | .uartCtlEn who port en => Sys2Proof.Machine.execUartCtlEn who port en s
  | .aserClr who port => Sys2Proof.Machine.execAserClr who port s
  | .prDetNLow => Sys2Proof.Machine.execPrDetNLow s
  | .railValid rail => Sys2Proof.Machine.execRailValid rail s
  | .configSpaceWrite d3 msix busMaster pme => Sys2Proof.Machine.execConfigSpaceWrite d3 msix busMaster pme s
  | .pcieLinkDown => Sys2Proof.Machine.execPcieLinkDown s
  | .interruptCoalescingTimeout q => Sys2Proof.Machine.execInterruptCoalescingTimeout q s
  | .pageIdleTimeout chan bank => Sys2Proof.Machine.execPageIdleTimeout chan bank s
  | .pairStallWarning => Sys2Proof.Machine.execPairStallWarning s
  | .tcpConnectionClose conn => Sys2Proof.Machine.execTcpConnectionClose conn s
  | .addressResolutionRequest port addr v6 => Sys2Proof.Machine.execAddressResolutionRequest port addr v6 s
  | .icmpEchoRequest port addr v6 data => Sys2Proof.Machine.execIcmpEchoRequest port addr v6 data s
  | .pauseTimeExpired port => Sys2Proof.Machine.execPauseTimeExpired port s
  | .credentialRejectionDelay id => Sys2Proof.Machine.execCredentialRejectionDelay id s
  | .trstNAssert => Sys2Proof.Machine.execTrstNAssert s

end Sys2Proof.Machine
end

