-- ==== Sys2Proof/Safety.lean ====
section
/-!
DEFINITION. The terms in which statements about the block are made: a command that completes, a write that reaches its
register, what a command leaves unchanged, and the forms that the state keeps.
-/

namespace Sys2Proof.Machine

/-- The command completes in the state, and the state it leaves satisfies `P`. -/
def Answers (c : Instr) (s : State) (P : State → Prop) : Prop := ∃ t, exec c s = .next t ∧ P t

/-- A write by a requester reaches a register that the mode lets it act on (R63, R67, Table 04-5). -/
def State.takes (s : State) (who : Req) (p off : Nat) : Prop := s.blocked who p off = none ∧ s.rwMode p = true

/-- Only register fields of the list differ between two states; everything behind the registers is the same. -/
def OnlyFields (fs : List Field) (s t : State) : Prop :=
  t = { s with regs := t.regs } ∧ ∀ g : Field, g.key ∉ fs.map Field.key → t.get g = s.get g

/-- As `OnlyFields`, for a command that also changes state behind the registers: that part is named by `put`. -/
def FieldsAnd (fs : List Field) (put : State → State) (s t : State) : Prop := OnlyFields fs (put s) t

/-- The byte memories of the block keep their canonical form: DRAM and the code store. -/
def State.memOk (s : State) : Prop := Memory.wf s.dram.mem = true ∧ Memory.wf s.nv.store = true

/-- The protected buffer holds no more slots than it has (R28). -/
def State.bufferOk (s : State) : Prop := s.slots.length ≤ slotTotal

/-- The commands that clear counts, by a requester: `P` holds of the command, its page and register, the fields it clears, and what
it does behind the registers. `n` names a flash channel, and by its parity an Ethernet or serial port. -/
def EachClear (who : Req) (n : Nat) (P : Instr → Nat → Nat → List Field → (State → State) → Prop) : Prop :=
  P (.snapClrCounts who) Pg.SNAP 0x110 [F.SNAP_COUNTS_MERGED, F.SNAP_COUNTS_MISSED] id ∧
  P (.lossClr who) Pg.CLK 0x120 [F.CLK_LOSS_COUNT_XTAL, F.CLK_LOSS_COUNT_PE_REFCLK, F.CLK_LOSS_COUNT_SD_REFCLK] id ∧
  P (.ledgerClr who) Pg.LEDGER 0x190 [F.LEDGER_MIN_HEADROOM_H_MIN, F.LEDGER_REFUSALS_COUNTS, F.LEDGER_EXHAUSTED_COUNT] (fun s => { s
    with led := { s.led with minSet := false } }) ∧
  P (.budgetClr who) Pg.BUDGET 0x168 ([F.BUDGET_EXPIRED_SUM, F.BUDGET_LAPSED_SUM, F.BUDGET_FLOOR_MISS_COUNTS] ++ (List.range 8).map
    F.BUDGET_CLASS_SPENT_SUM) id ∧
  P (.hostqClr who) Pg.HOSTQ 0x168 [F.HOSTQ_FETCH_LAT_MAX_NS, F.HOSTQ_ACK_LAT_MAX_NS, F.HOSTQ_ABORTS_CAUGHT,
    F.HOSTQ_ABORTS_NOT_CAUGHT, F.HOSTQ_REFUSED_COUNT, F.HOSTQ_PI_ERRORS_GUARD, F.HOSTQ_PI_ERRORS_APP, F.HOSTQ_PI_ERRORS_REF,
    F.HOSTQ_DB_ERRORS_REG, F.HOSTQ_DB_ERRORS_VALUE] id ∧
  P (.pcieClr who) Pg.PCIE 0x128 [F.PCIE_ERR_CNT_REPLAY_TO, F.PCIE_ERR_CNT_BAD_DLLP, F.PCIE_ERR_CNT_BAD_TLP, F.PCIE_ERR_CNT_RX_ERR,
    F.PCIE_RECOV_SPEED_CHANGES, F.PCIE_RECOV_ENTRIES] id ∧
  P (.ingestClr who) Pg.INGEST 0x180 ingestCounts id ∧
  P (.frameClr who) Pg.FRAME 0x188 frameCounts id ∧
  P (.fchClr who (n % 64)) (0x20 + n % 64) 0x190 [F.FCH_READS_COUNT (n % 64), F.FCH_PROGS_COUNT (n % 64), F.FCH_ERASES_COUNT (n % 64),
    F.FCH_ERR_TIMEOUTS (n % 64), F.FCH_ERR_PROG_FAIL (n % 64), F.FCH_ERR_ERASE_FAIL (n % 64), F.FCH_ERR_SUSPENDS (n % 64),
    F.FCH_LAT_MAX_ERASE_US (n % 64), F.FCH_LAT_MAX_PROG_US (n % 64)] id ∧
  P (.mapClr who) Pg.MAP 0x168 [F.MAP_COUNTS_CONVERSIONS, F.MAP_COUNTS_PADS] id ∧
  P (.mcacheClr who) Pg.MCACHE 0x130 [F.MCACHE_HITS_COUNT, F.MCACHE_MISSES_COUNT, F.MCACHE_VHITS_COUNT, F.MCACHE_WRITEBACKS_COUNT,
    F.MCACHE_FILL_WAIT_CYCLES] id ∧
  P (.dramcClr who) Pg.DRAMC 0x178 [F.DRAMC_TEMP_HIGH_COUNT, F.DRAMC_TEMP_RATE, F.DRAMC_ECC_CE_COUNT, F.DRAMC_ECC_UE_COUNT,
    F.DRAMC_LAST_ERR_KIND, F.DRAMC_LAST_ERR_CLIENT, F.DRAMC_LAST_ERR_ADDR, F.DRAMC_FWD_COUNT, F.DRAMC_TRAFFIC_BYTES_64] id ∧
  P (.eccClr who) Pg.ECC 0x228 [F.ECC_CW_COUNT, F.ECC_BITS_COUNT, F.ECC_RETRIES_COUNT, F.ECC_ESC_UNRECOVERED, F.ECC_ESC_RECON_OK,
    F.ECC_ESC_SOFT_OK, F.ECC_ESC_RETRY_OK, F.ECC_CHECK_MARK_BAD, F.ECC_CHECK_MISPLACED, F.ECC_CHECK_MISCORRECT,
    F.ECC_CHECK_WRITTEN_WRONG, F.ECC_SRAM_CE_COUNTS, F.ECC_SRAM_UE_COUNTS] id ∧
  P (.scrubClr who) Pg.SCRUB 0x138 [F.SCRUB_PAGES_COUNT, F.SCRUB_ACTIONS_RETAIN_REFRESH, F.SCRUB_ACTIONS_ERROR_REFRESH,
    F.SCRUB_ACTIONS_UNIT_RELOC, F.SCRUB_ACTIONS_TRACK_RESETS] id ∧
  P (.groomClr who) Pg.GROOM 0x160 [F.GROOM_RELOC_PAGES_COUNT, F.GROOM_HOST_PAGES_COUNT, F.GROOM_VICTIMS_COUNTS] id ∧
  P (.pairClr who) Pg.PAIR 0x160 pairCounts (fun s => { s with pair := { s.pair with units := 0, beats := 0 } }) ∧
  P (.netClr who (n % 2)) (Pg.NET0 + n % 2) 0x168 [F.NET_RX_BYTES_COUNT (n % 2), F.NET_TX_BYTES_COUNT (n % 2), F.NET_RX_ERR_FEC_UNCORR
    (n % 2), F.NET_RX_ERR_LENGTH (n % 2), F.NET_RX_ERR_FCS (n % 2), F.NET_RX_ERR_DROPPED (n % 2), F.NET_FEC_CORR_COUNT (n % 2),
    F.NET_PAUSE_COUNT (n % 2)] id ∧
  P (.nvtcpClr who) Pg.NVTCP 0x148 [F.NVTCP_CONN_ACCEPTED, F.NVTCP_CONN_REFUSED, F.NVTCP_DIGEST_DATA, F.NVTCP_DIGEST_HEADER,
    F.NVTCP_HASHED_BYTES] (fun s => { s with net := { s.net with outReg := [0, 0, 0, 0] } }) ∧
  P (.sdmaClr who) Pg.SDMA 0x110 [F.SDMA_BYTES_COUNT, F.SDMA_ERRORS_COUNT] id ∧
  P (.secClr who) Pg.SEC 0x148 [F.SEC_STATUS_TAMPER_LATCHED, F.SEC_LOCKED_WRITES_COUNT, F.SEC_CRED_FAILS_COUNT] id ∧
  P (.bistClr who) Pg.BIST 0x140 [F.BIST_COUNTS_REPAIRS, F.BIST_COUNTS_RUNS] id ∧
  P (.timeClr who) Pg.TIME 0x1A8 [F.TIME_STATUS_ALARM_FIRED, F.TIME_LTC_STAT_FRAMES_OK, F.TIME_LTC_STAT_LOCK_LOSS,
    F.TIME_LTC_STAT_JUMPS, F.TIME_LTC_STAT_FRAMES_BAD, F.TIME_FRM_STAT_PULSES, F.TIME_FRM_STAT_PERIOD_TICKS, F.TIME_CAL_STEPS_COUNT]
    id ∧
  P (.aserClr who (n % 2)) Pg.ASER (aserBase (n % 2) + 0x40) [F.ASER_RX_STAT_FALSE_START (n % 2), F.ASER_RX_STAT_OVERRUN (n % 2),
    F.ASER_RX_STAT_FRAMING (n % 2), F.ASER_TX_STAT_REFUSED (n % 2), F.ASER_BREAKS_COUNT (n % 2)] id

/-- A command's entry or capsule may be fetched, and no armed Abort marks it as it arrives (R215, R220). -/
def State.fetches (s : State) (id : Cid) : Prop :=
  s.mayFetch id.src = true ∧
    match id.src with
    | .host q => s.host.aborts.find? (fun a => a.sq = q && a.cid = id.cid) = none
    | _ => True

/-- The state in which a fetched command is judged: its entry has left its queue, and a capsule has counted as an I/O arrival. -/
def State.atFetch (s : State) (id : Cid) : State :=
  match id.src with
  | .dock _ => (s.popSq id.src).ioArrival
  | _ => s.popSq id.src

/-- A block of the Busaist link reaches its virtual channel as it was sent: the link is aligned and injector 0 idle (R235, R591). -/
def State.blocksPass (s : State) : Prop :=
  s.get F.INGEST_STATUS_ALIGNED = 1 ∧ s.get (F.FI_CFG_STATE 0) = 0 ∧ s.fi.carry.getD 0 0 = 0 ∧ s.fi.block = none

/-- Frames pass a port as they come: its link is up, its injector is idle and nothing is held back (R591). -/
def State.framesPass (s : State) (p : Nat) : Prop :=
  s.get (F.NET_STATUS_LINK p) = 1 ∧ s.get (F.FI_CFG_STATE (2 + p)) = 0 ∧ s.fi.net = [] ∧ s.net.heldTx = []

/-- Every check of a list lets the command pass (R218). -/
def Passes (ws : List (Bool × Why)) : Prop := ∀ w ∈ ws, w.1 = false

end Sys2Proof.Machine
end

