-- ==== Sys2Proof/Certificates/Slice0/Obligations.lean ====
section
/-!
DEFINITION. The statements about the HZB6440 that the provers prove: what its commands do, what they leave unchanged, and what
every step keeps.
-/

open Sys2Proof
open Sys2Proof.Machine

/-! ### The queue and the step -/

/-- A step takes the command at the front of the queue and runs it on the state with the queue's rest. -/
def Obligations.StepRunsTheFrontCommand : Prop :=
  ∀ (s : State) (c : Instr) (rest : List Instr), s.pending = c :: rest → step s = exec c { s with pending := rest }

/-- On an empty queue a step is one tick of the timebase: beside it only TIME.CAL may move. The model's choice, assumption log entry 4. -/
def Obligations.EmptyQueueTicks : Prop :=
  ∀ s : State, s.pending = [] → ∃ t, step s = .next t ∧ t.tb = (if s.mode = Md.KEEP then s.tb else (s.tb + 1) % 2 ^ 64) ∧
    t = { s with tb := t.tb, regs := t.regs } ∧ ∀ g : Field, g.key ≠ F.TIME_CAL.key → t.get g = s.get g

/-! ### The register fabric (chapter 02) -/

/-- R47: a 32-bit write of a low half is held for its requester, and where no half of another register is held it does nothing else:
no field changes, and what other requesters hold stays. The write of the high half of the same register by the same requester then
performs both as one 64-bit write. -/
def Obligations.HalfWritesMakeOneWrite : Prop :=
  ∀ (s : State) (who : Req) (addr lo hi : Nat), s.mode ≠ Md.KEEP →
    Answers (.halfWriteLow who addr lo) s (fun t =>
      t.heldW who = some ⟨regOf addr, lo % 2 ^ 32⟩ ∧
      ((s.heldW who).all (fun h => h.addr = regOf addr) = true →
        t = { s with fabric := t.fabric } ∧ ∀ w, w ≠ who → t.heldW w = s.heldW w)) ∧
    (s.heldW who = some ⟨regOf addr, lo % 2 ^ 32⟩ →
      Answers (.halfWriteHigh who addr hi) s (fun t =>
        exec (.registerWrite who (regOf addr) 8 (lo % 2 ^ 32 + hi % 2 ^ 32 * 2 ^ 32)) (s.setHeldW who none) = .next t))

/-- R48: a 32-bit read of a low half returns that half and captures the register; the read of the high half of the same register
then returns the captured half, whatever the register has become. -/
def Obligations.HalfReadsUseOneCapture : Prop :=
  ∀ (s : State) (who : Req) (addr : Nat), s.mode ≠ Md.KEEP → addr % 8 = 0 →
    Answers (.lowHalfRead who addr 4) s (fun t =>
      t.fabric.data = (s.regRead who (addr / 0x1000) (addr % 0x1000)).1 % 2 ^ 32 ∧
      t.heldR who = some ⟨addr, (s.regRead who (addr / 0x1000) (addr % 0x1000)).1⟩) ∧
    ∀ v : Nat, s.heldR who = some ⟨addr, v⟩ →
      Answers (.lowHalfRead who (addr + 4) 4) s (fun t =>
        t.fabric.data = v / 2 ^ 32 % 2 ^ 32 ∧ t = { s with fabric := { s.fabric with data := t.fabric.data } })

/-- R63, R67: a 64-bit write that does not reach its register is recorded in SYS.ACCESS_LOG under its kind and changes no field of any
page but the log and what its event brings. At one register of every page, EVT_MASK: a 64-bit write that
reaches it stores its value. -/
def Obligations.RegisterWritesByAccess : Prop :=
  (∀ (s : State) (who : Req) (p off v : Nat), s.mode ≠ Md.KEEP → off < 0x1000 → off % 8 = 0 →
    let s0 := s.dropHeld who
    (0x60 ≤ p → exec (.registerWrite who (p * 0x1000 + off) 8 v) s =
      .next ((s0.raise E.SYS_UNMAPPED).logAccess 1 true who (p * 0x1000 + off))) ∧
    (p < 0x60 → s0.mayWrite who p off = false → exec (.registerWrite who (p * 0x1000 + off) 8 v) s =
      .next ((s0.raise E.SYS_ACCESS_DENY).logAccess 2 true who (p * 0x1000 + off)))) ∧
  (∀ (s : State) (who : Req) (p v : Nat), p < 96 → s.mode ≠ Md.KEEP → (s.dropHeld who).blocked who p 0x028 = none →
    Answers (.registerWrite who (p * 0x1000 + 0x028) 8 v) s (fun t => t.get (F.EVT_MASK p) = v % 2 ^ 64))

/-- R54: a refused commit leaves every active, pending and adopted value as it was and reports the first reason; a page's own commit and
the abandoning of its pending values. R52: a global commit is refused as a whole where one dirty page has a reason, and then no page's
values change. R51: at its boundary a page that is MIXED takes its committed values: MIXED clears, ACTIVE_EPOCH takes the pending epoch,
and none of its values is left in adoption. -/
def Obligations.ShadowCommits : Prop :=
  (∀ (s : State) (who : Req) (p epoch : Nat), hasShadow p = true → (s.dropHeld who).blocked who p 0x040 = none →
    let s0 := s.dropHeld who
    ((s0.commitReason who p epoch ≠ 0 → Answers (.shadowCommit who p epoch) s (fun t =>
        OnlyFields [F.TARGET_EPOCH p, F.SHADOW_REASON p, F.SHADOW_REFUSED p] s0 t ∧ t.get (F.SHADOW_REFUSED p) = 1 ∧
        t.get (F.SHADOW_REASON p) = s0.commitReason who p epoch % 2 ^ (F.SHADOW_REASON p).width)) ∧
     (s0.commitReason who p epoch = 0 → mgmtClass p = false → s0.isl (pageIsland p) = 2 → s0.dirty p = true →
      Answers (.shadowCommit who p epoch) s (fun t =>
        t.get (F.SHADOW_MIXED p) = 1 ∧ t.get (F.PENDING_EPOCH p) = epoch % 2 ^ 24 ∧
        t.pend = s0.pend ∧ (s0.pend.wf = true → ∀ e ∈ s0.pend, keyPage e.1 = p → t.adopt.find? e.1 = some e.2))) ∧
     (s0.rwMode p = true → Answers (.shadowAbandon who p false) s (fun t =>
        t = { s0 with pend := t.pend } ∧ t.dirty p = false ∧ ∀ k, keyPage k ≠ p → t.pend.find? k = s0.pend.find? k)))) ∧
  (∀ (s : State) (who : Req) (epoch : Nat), (s.dropHeld who).blocked who Pg.SYS 0x140 = none →
    let s0 := s.dropHeld who
    ((∃ p ∈ (List.range 96).filter s0.dirty, s0.commitReason who p epoch ≠ 0) →
      Answers (.gcommit who epoch) s (fun t => t.pend = s0.pend ∧ t.adopt = s0.adopt)) ∧
    ((List.range 96).filter s0.dirty = [] →
      Answers (.gcommit who epoch) s (fun t => t.pend = s0.pend ∧ t.adopt = s0.adopt ∧ t.getBit (F.EVT_RAW Pg.SYS) E.SYS_GCOMMIT_DONE.bit = true))) ∧
  (∀ (s : State) (p : Nat), p < 96 → s.mixed p = true → p ≠ Pg.DRAMC → p < 0x20 → ¬ (s.mode = Md.SEAL ∧ p = Pg.BUDGET) →
    exec (.commitAdopted p) s = .next (s.adoptFull p) ∧
    (s.isl (pageIsland p) ≠ 2 → ∀ e ∈ (s.adoptFull p).adopt, keyPage e.1 ≠ p))

/-- R55, R65: the triggers of MGMT: with SNAP.STATE.HELD set a trigger only counts as missed; otherwise, after more than 64 ns, it
takes a snapshot whose epoch follows the last one. SNAP.REARM clears HELD. -/
def Obligations.SnapshotTriggers : Prop :=
  ∀ (s : State) (who : Req),
    (((s.dropHeld who).takes who Pg.SNAP 0x100) → Answers (.snapTriggerFire who) s (fun t => t = (s.dropHeld who).snapshot 0)) ∧
    (∀ rising : Bool, s.mode ≠ Md.KEEP → s.get F.SNAP_CFG_SNAP_IN_EN = 1 → b2n (!rising) = s.get F.SNAP_CFG_SNAP_IN_EDGE →
      Answers (.snapInEdge rising) s (fun t => t = s.snapshot 1)) ∧
    (((s.dropHeld who).takes who Pg.SNAP 0x110) → Answers (.snapRearm who) s (fun t =>
      t.get F.SNAP_STATE_HELD = 0 ∧ OnlyFields [F.SNAP_STATE_HELD] (s.dropHeld who) t)) ∧
    (∀ source : Nat, source < 5 →
      (s.get F.SNAP_STATE_HELD = 1 → OnlyFields [F.SNAP_COUNTS_MISSED] s (s.trigger source)) ∧
      (s.get F.SNAP_STATE_HELD = 0 → s.get F.SNAP_LAST_EPOCH_EPOCH = 0 ∨ s.get F.SNAP_LAST_TIME_TIME + 16 < s.tb → s.tb < 2 ^ 64 →
        (s.trigger source).get F.SNAP_LAST_EPOCH_EPOCH = nextEpoch (s.get F.SNAP_LAST_EPOCH_EPOCH) % 2 ^ 32 ∧
        (s.trigger source).get F.SNAP_LAST_TIME_TIME = s.tb))

/-- The commands that clear counts: what each clears reads 0, nothing else changes; where the write does not reach its register, or
the mode ignores the action, nothing is cleared (Table 04-5). -/
def Obligations.ClearCommandsClearTheirCounts : Prop :=
  ∀ (s : State) (who : Req) (n : Nat), EachClear who n (fun cmd page off fields put =>
    let s0 := s.dropHeld who
    (s0.takes who page off → Answers cmd s (fun t => (∀ f ∈ fields, t.get f = 0) ∧ FieldsAnd fields put s0 t)) ∧
    (∀ s' : State, s0.blocked who page off = some s' → exec cmd s = .next s') ∧
    (s0.blocked who page off = none → s0.rwMode page = false → exec cmd s = .next s0.modeRefused))

/-! ### Supplies, references, islands and resets (chapters 03 and 04) -/

/-- R73, R79: banks are decided once; a rail that trips is no longer valid, the trip is latched and its event rises before its consequence
follows; a usable rail becomes valid. R80, R116: VIN_SENSE below its threshold starts Seal where it is enabled, and otherwise only shows
BELOW; PWR_FAIL_N starts Seal as it falls, and its rise only ends it. -/
def Obligations.SupplyAndRails : Prop :=
  (∀ s : State,
    (∀ bank level : Nat, s.mode ≠ Md.KEEP → bank ≤ 4 → 1 ≤ level → level ≤ 3 → s.get (bankField bank) = 0 →
      Answers (.bankLevelDecided bank level) s (fun t =>
        (level ≤ 2 → bank = 0 → OnlyFields [bankField 0, F.PWR_RAIL_STATUS_VALID] s t ∧ t.get (bankField 0) = level ∧ t.railValid 9 = true) ∧
        (level = 3 → bank ≠ 0 → t = (s.set (bankField bank) 3).raise E.PWR_VDDQ_INVALID) ∧
        (level = 3 → bank = 0 → t = (s.set (bankField 0) 3).ioInvalid) ∧
        (level ≤ 2 → bank ≠ 0 → t = (List.range 4).foldl (fun s i => s.startIsland (8 + 4 * (bank - 1) + i))
          ((s.set (bankField bank) level).setBitTo F.PWR_RAIL_STATUS_VALID (bankRail bank) true)))) ∧
    (∀ bank level : Nat, bank ≤ 4 → s.get (bankField bank) ≠ 0 → Answers (.bankLevelDecided bank level) s (fun t => t = s)) ∧
    (∀ rail : Nat, rail ≤ 14 → s.railValid rail = true →
      (s.mode = Md.KEEP → Answers (.railTrip rail) s (fun t => OnlyFields [F.PWR_RAIL_STATUS_VALID] s t ∧ t.railValid rail = false)) ∧
      (s.mode ≠ Md.KEEP → Answers (.railTrip rail) s (fun t => t = State.tripEffect
        (((s.setBitTo F.PWR_RAIL_STATUS_VALID rail false).setBitTo F.PWR_RAIL_TRIP_TRIP rail true).raise E.PWR_RAIL_TRIP) rail))) ∧
    (∀ rail : Nat, rail ≤ 8 → rail ≠ 1 → Answers (.railValid rail) s (fun t =>
      OnlyFields [F.PWR_RAIL_STATUS_VALID] s t ∧ t.railValid rail = true))) ∧
  (∀ s : State,
    (∀ mv : Nat, s.mode ≠ Md.KEEP → Answers (.vinSenseLow mv) s (fun t => t = State.compareVin { s with pins := { s.pins with vinMv := mv } })) ∧
    (s.pins.vinMv < s.get F.PWR_VIN_CFG_TH_MV → s.get F.PWR_VIN_CFG_EN = 1 →
      s.compareVin = (State.noteVin { s with pins := { s.pins with vinLow := true } }).sealEntry 0x0F) ∧
    (s.get F.PWR_VIN_CFG_TH_MV + 20 ≤ s.pins.vinMv → (s.compareVin).pins.vinLow = false) ∧
    (s.pins.pwrFail = false → Answers (.pwrFailN true) s (fun t => t = State.sealEntry { s with pins := { s.pins with pwrFail := true } } 0x0E)) ∧
    Answers (.pwrFailN false) s (fun t => t = { s with pins := { s.pins with pwrFail := false } }))

/-- R153: a trigger of Seal from a powered mode keeps every slot of the buffer, drops every request, and leaves a sequence under way whose
data is the buffer's, acknowledged slots first (R154). A Busaist block that an injector holds back is let through first. R153 to R159,
Table 05-1: the steps of a sequence: pages are written only while it flushes; each Seal page takes the next four slots in order under the
Seal's number; the record retires with the number moved on; and at step 8 the flag reads SEALED, or CLEAN after a controlled entry, and
the device is in Keep. -/
def Obligations.SealSequence : Prop :=
  (∀ (s : State) (cause : Nat), s.mode ≠ Md.KEEP → s.mode ≠ Md.REST → s.mode ≠ Md.SEAL → s.led.sealing = none → s.fi.block = none →
    (s.sealEntry cause).slots = s.slots ∧ (s.sealEntry cause).led.reqs = [] ∧
    ∃ z, (s.sealEntry cause).led.sealing = some z ∧ z.todo = s.sealTodo ∧ z.step = 1 ∧ z.reset = false) ∧
  (∀ (s : State) (z : Sealing), s.led.sealing = some z →
    (z.step = 1 → z.todo ≠ [] → Answers .sealLunsReady s (fun t => t = { s with led := { s.led with sealing := some { z with step := 3 } } })) ∧
    (∀ chan : Nat, z.step = 3 → s.sealChan z chan = true → Answers (.sealPageProgramDone chan true) s (fun t =>
      t.nv.sealPages = s.nv.sealPages ++
        [⟨(s.nv.sealSeq + 1) % 2 ^ 32, z.seq, chan, (z.todo.take 4).map (fun x => (x.sealKind, x)), s.sealBlocks chan, false⟩] ∧
      ∃ z', t.led.sealing = some z' ∧ z'.todo = z.todo.drop 4 ∧ z'.seq = z.seq + 1)) ∧
    (∀ chan : Nat, z.step = 3 → s.sealChan z chan = true → Answers (.sealPageProgramDone chan false) s (fun t =>
      t = { s with led := { s.led with sealing := some { z with failed := z.failed ++ [chan] } } })) ∧
    (z.step = 6 → z.reset = true → Answers .sealRecordRetired s (fun t =>
      t.nv.sealSeq = (s.nv.sealSeq + 1) % 2 ^ 32 ∧ t.nv.sealRec.isSome = true ∧ t.slots = s.slots ∧
      t.led.sealing = some { z with step := 7, counts := bumpKind z.counts 6 4 })) ∧
    (z.step = 7 → z.reset = false → Answers .sealKeepEntry s (fun t =>
      t.mode = Md.KEEP ∧ t.keep.sealFlag = (if z.keep then 1 else 2) ∧ t.slots = [] ∧ t.nv.sealPages = s.nv.sealPages)))

/-- R98, R99, R87, R89: references and PLLs. A reference that is lost clears its OK bit, is counted and unlocks its PLLs; a PLL that
clocks an island and has its reference locks and takes the spread last adopted. -/
def Obligations.ReferencesAndPlls : Prop :=
  ∀ s : State, s.mode ≠ Md.KEEP →
    (s.get F.CLK_REF_STATUS_XTAL_OK = 1 → Answers .xtalLoss s (fun t => t =
      ((((s.set F.CLK_REF_STATUS_XTAL_OK 0).unlockPlls [0, 1, 2, 3, 4, 5, 6]).inc F.CLK_LOSS_COUNT_XTAL).raise E.CLK_XTAL_LOSS).sealEntry 0x11)) ∧
    (s.get F.CLK_REF_STATUS_PE_REFCLK_OK = 1 → Answers (.refClockLoss 1 true) s (fun t =>
      OnlyFields [F.CLK_REF_STATUS_PE_REFCLK_OK, F.CLK_PLL_LOCK_LOCK, F.PCIE_STATUS_L1SS] { s with mc := { s.mc with l1ssRef := true } } t ∧
      t.get F.CLK_REF_STATUS_PE_REFCLK_OK = 0 ∧ t.getBit F.CLK_PLL_LOCK_LOCK 9 = false)) ∧
    (s.get F.CLK_REF_STATUS_SD_REFCLK_OK = 1 → ∀ l1 : Bool, Answers (.refClockLoss 2 l1) s (fun t => t =
      ((((((s.set F.CLK_REF_STATUS_SD_REFCLK_OK 0).inc F.CLK_LOSS_COUNT_SD_REFCLK).raise E.CLK_SD_REFCLK_LOSS).unlockPlls [7, 8]).raise
        E.CLK_PLL_UNLOCK).serdesDown))) ∧
    (∀ ref : Nat, ref ≤ 2 → s.get (refField ref) ≠ 1 → ¬ (ref = 1 ∧ s.mc.l1ssRef = true) →
      Answers (.refRestored ref) s (fun t => t = (s.set (refField ref) 1).raise E.CLK_REF_RESTORED)) ∧
    (∀ pll : Nat, pll ≤ 9 → s.pllRef pll = true → s.pllNeeded pll = true → Answers (.pllLock pll) s (fun t =>
      t.getBit F.CLK_PLL_LOCK_LOCK pll = true ∧ OnlyFields [F.CLK_PLL_LOCK_LOCK] { s with mc := t.mc } t ∧
      (1 ≤ pll ∧ pll ≤ 6 → pll - 1 < s.mc.ssc.length → t.mc.ssc.getD (pll - 1) 0 = s.sscActive pll))) ∧
    (∀ pll : Nat, s.getBit F.CLK_PLL_LOCK_LOCK pll = true → Answers (.sscProfileChange pll) s (fun t => t = s.takeSsc pll))

/-- R94, R95, R112: island power. A carried-out write of ISL_EN asks for the power it names or, where the mode holds it, is only stored; a
stop that completes leaves the island OFF unless it was asked to start again, and an island that starts comes ON. R106, R103:
SYS.RESET_CTL. A write without the key does nothing; ISLAND_RESET with it resets an island that has power where the mode allows it, and is
refused elsewhere; PERST_N resets HOST in every powered mode but Rest and Seal. -/
def Obligations.IslandsStartStopAndReset : Prop :=
  (∀ s : State,
    (∀ (who : Req) (i : Nat) (en : Bool), (s.dropHeld who).blocked who Pg.PWR 0x118 = none → islWritable i = true →
      let s0 := s.dropHeld who
      (s0.mode = Md.SEAL → Answers (.islEnWrite who i en) s (fun t => t = s0.modeRefused)) ∧
      (s0.mode ≠ Md.SEAL → s0.islHeld i = true → Answers (.islEnWrite who i en) s (fun t =>
        OnlyFields [F.PWR_ISL_EN_EN] s0 t ∧ t.getBit F.PWR_ISL_EN_EN i = en)) ∧
      (s0.mode ≠ Md.SEAL → s0.islHeld i = false → Answers (.islEnWrite who i en) s (fun t =>
        t = (s0.setBitTo F.PWR_ISL_EN_EN i en).islReq i en))) ∧
    (∀ i : Nat, 2 ≤ i → i ≤ 23 → s.isl i = 3 → Answers (.islandStopComplete i) s (fun t =>
      let s1 := (s.offIsland i).setBitTo F.PWR_ISL_REEN_REENABLE_PENDING i false
      t = if s.getBit F.PWR_ISL_REEN_REENABLE_PENDING i then s1.startIsland i else s1)) ∧
    (∀ i : Nat, 2 ≤ i → i ≤ 23 → s.isl i = 1 → s.heldInReset i = false → s.powerable i = true →
      Answers (.islandStarted i) s (fun t =>
        (bit s.mc.islLatch i = false → t = (s.islandTo i 2).startFns)))) ∧
  (∀ (s : State) (who : Req) (key i : Nat), (s.dropHeld who).blocked who Pg.SYS 0x128 = none →
    let s0 := s.dropHeld who
    (key ≠ resetKey → Answers (.islandReset who key i) s (fun t => t = s0) ∧ Answers (.softReset who key) s (fun t => t = s0)) ∧
    (s0.mayResetIsland i = true → s0.isl i = 1 ∨ s0.isl i = 2 → Answers (.islandReset who resetKey i) s (fun t => t = s0.resetIsland i)) ∧
    (s0.mayResetIsland i = true → s0.isl i = 0 ∨ s0.isl i = 3 → Answers (.islandReset who resetKey i) s (fun t => t = s0)) ∧
    (s0.mayResetIsland i = false → Answers (.islandReset who resetKey i) s (fun t => t = s0.modeRefused)) ∧
    (s.mode ≠ Md.KEEP → s.mode ≠ Md.REST → s.mode ≠ Md.SEAL → s.isl 2 = 1 ∨ s.isl 2 = 2 → Answers .perstNAssert s (fun t =>
      t = ((State.setBitTo { s with pins := { s.pins with perstN := true } } F.SYS_RESET_CAUSE_CAUSE 2 true).resetIsland 2).sdmaHostDown)) ∧
    (s.mode = Md.REST → s.pins.perstN = true → s.mc.trans = none → s.mc.drain = none → Answers .perstNDeassert s (fun t =>
      t.mc.trans = some ⟨Md.WAKE, 0x15⟩ ∧ t.pins.perstN = false ∧ t.pins.wakeN = true ∧ t = { s with mc := t.mc, pins := t.pins })) ∧
    (s.mode ≠ Md.REST → Answers .perstNDeassert s (fun t => t = { s with pins := { s.pins with perstN := false, wakeN := true } })))

/-- R103: RESET_N, the watchdog and a soft reset start one flush, which drops every request for slots, loses no slot, and leaves the mode
as it is; a second trigger merges with the first. R104, R577: once its flush has ended, no sector operation runs and RESET_N is high, the
reset takes effect: Wake begins with an empty buffer and no pending values, and what the flash holds is kept. R121: the four ways out of
Keep: each is a power-on reset of every island but KEEP into Wake, under its own cause, with the flash's contents kept and nothing left in
the buffer. -/
def Obligations.ResetsAndRestarts : Prop :=
  (∀ s : State, s.mode ≠ Md.KEEP → s.mode ≠ Md.SEAL → s.mode ≠ Md.REST →
    (s.mc.flushing = 0 → s.mc.flushDone = false → s.led.sealing = none → ∀ b cause : Nat,
      (s.resetTrigger b cause).mc.flushing = 2 ^ b ∧ (s.resetTrigger b cause).slots = s.slots ∧ (s.resetTrigger b cause).led.reqs = [] ∧
      ∃ z, (s.resetTrigger b cause).led.sealing = some z ∧ z.reset = true ∧ z.cause = cause ∧ z.todo = s.sealTodo) ∧
    (s.mc.flushing ≠ 0 → ∀ b cause : Nat, s.resetTrigger b cause = { s with mc := { s.mc with flushing := setBit s.mc.flushing b } }) ∧
    (s.pins.resetN = true → Answers .resetNAssert s (fun t => t = State.resetTrigger { s with pins := { s.pins with resetN := false } } 1 0x01)) ∧
    (s.ready Fn.WATCHDOG = true → s.mc.flushing = 0 → Answers .watchdogExpiry s (fun t => t = s.resetTrigger 3 0x02)) ∧
    (∀ who : Req, (s.dropHeld who).blocked who Pg.SYS 0x128 = none → (s.dropHeld who).mode ≠ Md.SEAL →
      Answers (.softReset who resetKey) s (fun t => t = (s.dropHeld who).resetTrigger 4 0x03))) ∧
  (∀ s : State, s.mc.flushing ≠ 0 → s.pins.resetN = true → s.codeBusy = false →
    (s.mc.flushDone = true → Answers .deferredResetRelease s (fun t =>
      t.mode = Md.WAKE ∧ t.slots = [] ∧ t.pend = [] ∧ (s.dbgLevel = 0 → t.nv.ts = s.nv.ts ∧ t.nv.store = s.nv.store))) ∧
    ((∃ z, s.led.sealing = some z ∧ z.reset = true ∧ z.step = 7) → Answers .resetFlushEnd s (fun t =>
      t.mode = Md.WAKE ∧ t.slots = [] ∧ t.pend = [] ∧ (s.dbgLevel = 0 → t.keep.sealFlag = 2 ∧ t.nv.ts = s.nv.ts)))) ∧
  (∀ (s : State) (straps unstable : Nat), s.mode = Md.KEEP →
    let back (cause : Nat) (t : State) : Prop :=
      t.mode = Md.WAKE ∧ t.get F.SYS_MODE_PREV = Md.KEEP ∧ t.get F.SYS_MODE_CAUSE = cause ∧ t.slots = [] ∧ t.pend = [] ∧ t.nv = s.nv ∧
      t.get F.LEDGER_SEAL_FLAG_FLAG = s.keep.sealFlag % 4
    (s.porHolds = true → Answers (.powerOnResetRelease straps unstable) s (back 0x00)) ∧
    (s.porHolds = true → s.keep.sealTrip = true → Answers (.restartAfterSeal straps unstable) s (back 0x19)) ∧
    (s.porHolds = true → s.keep.controlled = true → Answers (.wakeRising straps unstable) s (back 0x15)) ∧
    (s.pins.resetN = false → s.keep.controlled = true → (State.porHolds { s with pins := { s.pins with resetN := true } }) = true →
      Answers (.resetNRelease straps unstable) s (back 0x01)))

/-! ### Modes (chapter 04) -/

/-- R115, R119, R128, R544: a mode request by register. In Seal and Update it is refused; during a transition it is held in place of an
older one; from Idle a request that Table 04-4 has begins its transition with cause 0x05, and one that it has not leaves the mode alone.
R114: a transition that completes changes the mode. From Groom, Review or Service towards Idle with nothing held, the mode is Idle and the
cause is the transition's. -/
def Obligations.ModesChange : Prop :=
  (∀ (s : State) (who : Req) (target : Nat), (s.dropHeld who).blocked who Pg.SYS 0x108 = none →
    let s0 := s.dropHeld who
    let s1 := s0.set F.SYS_MODE_REQ_TARGET target
    (s0.mode = Md.SEAL ∨ s0.mode = Md.UPDATE → Answers (.modeReq who target) s (fun t => t = s0.modeRefused)) ∧
    (s0.mode = Md.IDLE → s1.inTransition = false → s0.leads = false → target = Md.REVIEW ∨ target = Md.GROOM ∨ target = Md.OFFLOAD →
      Answers (.modeReq who target) s (fun t => t.mc.trans = some ⟨target, 0x05⟩ ∧ t = { s1 with mc := t.mc })) ∧
    (s0.mode = Md.IDLE → s1.inTransition = true → s0.mc.heldReg = none → Answers (.modeReq who target) s (fun t =>
      t = { s1 with mc := { s1.mc with heldReg := some (target % 16) } })) ∧
    (s0.mode = Md.IDLE → s1.inTransition = false → requestable (target % 16) = false → Answers (.modeReq who target) s (fun t => t = s1.modeRefused))) ∧
  (∀ (s : State) (m cause : Nat), s.mc.trans = some ⟨m, cause⟩ →
    (m = Md.KEEP → Answers .modeTransitionComplete s (fun t => t.mode = Md.KEEP ∧ t.slots = [] ∧ t.nv.ts = s.nv.ts)) ∧
    (m ≠ Md.KEEP → Answers .modeTransitionComplete s (fun t => t =
      ((State.arriveMode { s with mc := { s.mc with trans := none } } ⟨m, cause⟩).endWait.fiCheck.judgeTakes.groomCheck.judgeHeld.testRecord).wakeCheck)) ∧
    (m < 16 → cause < 256 → s.tb < 2 ^ 64 →
      (s.enterMode m cause).mode = m ∧ (s.enterMode m cause).get F.SYS_MODE_PREV = s.mode ∧ (s.enterMode m cause).get F.SYS_MODE_CAUSE = cause ∧
      (s.enterMode m cause).get F.SYS_MODE_TIME_ENTRY_TB = s.tb))

/-- R119, R120, R123, R118: a drain completes once the buffer is empty; Rest is entered after it; Offload without a connection for 2 s and
a Wake of 5 s without its exit set end. R108, R109: a function sets only where what it needs holds, and a function that fails is clear
with its FAULT bit set and every function that needs it clear. -/
def Obligations.DrainsAndFunctions : Prop :=
  (∀ s : State,
    (∀ d : Drain, s.mc.drain = some d → d.done = false → s.drained = true →
      Answers .drainComplete s (fun t =>
        let s1 := (State.drainCkpt { s with mc := { s.mc with drain := some { d with done := true } } }).endWait
        t = if d.target = Md.KEEP then s1.startSealing false true d.cause else s1)) ∧
    (∀ d : Drain, s.mc.drain = some d → d.done = false → s.drained = false → Answers .drainComplete s (fun t => t = s)) ∧
    (∀ d : Drain, s.mc.drain = some d → d.target = Md.REST → d.done = true → Answers .restEntry s (fun t =>
      t = (((State.pairLeave { s with mc := { s.mc with drain := none } } true 0).retain.changeMode Md.REST d.cause).fiCheck).judgeHeld)) ∧
    (s.mode = Md.OFFLOAD → s.net.conns = [] → s.inTransition = false → Answers .offloadNoConnectionTimeout s (fun t =>
      t.mc.trans = some ⟨Md.IDLE, 0x0B⟩ ∧ t = { s with mc := t.mc })) ∧
    (s.mode = Md.WAKE → s.get F.SYS_STRAPS_ISLAND_TEST = 0 → s.exitSet.all s.ready = false → Answers .wakeExitTimeout s (fun t =>
      t = s.quarantine 1 ((s.exitSet.find? (fun n => !s.ready n)).getD 0) 0x16)) ∧
    (s.mode = Md.WAKE → s.exitSet.all s.ready = true → Answers .wakeExitTimeout s (fun t => t = s))) ∧
  (∀ (s : State) (fn : Nat), fn < 48 → s.mode ≠ Md.KEEP →
    (∀ found : List Nat, s.mayStart fn = true → Answers (.functionReady fn found) s (fun t => t = (s.startFn fn found).wakeCheck)) ∧
    (∀ found : List Nat, s.needsOk fn = false → Answers (.functionReady fn found) s (fun t => t = s)) ∧
    Answers (.functionFault fn) s (fun t => t = s.failFn fn) ∧
    (s.ready fn = true → (s.faultFn fn).ready fn = false ∧ (s.faultFn fn).getBit F.SYS_FUNC_FAULT_FAULT fn = true ∧
      ∀ n, n < 48 → (s.faultFn fn).ready n = true → (s.faultFn fn).needsOk n = true))

/-! ### The protected buffer, the ledger and Seal (chapters 01 and 05) -/

/-- R30: the five slot counters, read live, always sum to 16,384 (so within its bound of 8) while the buffer holds no more slots than it
has; and so do the five words that a snapshot latches of them, whichever source triggers it, while the island of PBUF is ON. -/
def Obligations.BufferCountsSumToTotal : Prop :=
  ∀ s : State, s.bufferOk →
    s.readField F.PBUF_FREE_COUNT + s.readField F.PBUF_FILLING_COUNT + s.readField F.PBUF_DURABLE_COUNT +
      s.readField F.PBUF_PROGRAMMING_COUNT + s.readField F.PBUF_MIRROR_PEND_COUNT = 16384 ∧
    (s.isl 6 = 2 → ∀ source : Nat, let t := s.takeSnapshot source
      t.get (F.SNAP_WORD Pg.PBUF 0) + t.get (F.SNAP_WORD Pg.PBUF 1) + t.get (F.SNAP_WORD Pg.PBUF 2) + t.get (F.SNAP_WORD Pg.PBUF 3) +
        t.get (F.SNAP_WORD Pg.PBUF 4) = 16384)

/-- R137, R138, R140: a sample of HOLD_SENSE while its function and rail stand, outside a sense fault and its declaration: the code and
the voltage are shown, the count moves on, and A is the energy at the lowest of the last two voltages and V_FULL. R150: a write that waits
too long for the ledger completes with 7h/0x80 and its shortfall; what it held in the buffer returns, and LEDGER.EXHAUSTED counts it. R143
to R145: a calibration with at least one good channel gives T_SLOT, the cost per slot and the reserve; one without leaves the results as
they were and fails LEDGER_ADMIT. CAL.GO starts one in Idle and Service only. -/
def Obligations.EnergyLedger : Prop :=
  (∀ (s : State) (code : Nat), s.ready Fn.LEDGER_SENSE = true → s.railValid 1 = true → code < 4096 →
    let v := s.railMv code
    (Answers (.holdSample code) s (fun t =>
      t.get F.LEDGER_SAMPLE_CODE = code ∧ t.led.lastV = v ∧ t.led.sampled = true ∧ t.slots = s.slots)) ∧
    (s.get F.LEDGER_STATUS_SENSE_FAULT = 0 → s.led.sampled = true → 1 ≤ code → code ≤ 4094 →
      10 * (max v s.led.lastV - min v s.led.lastV) ≤ s.get F.LEDGER_BANK_V_FULL_MV →
      Answers (.holdSample code) s (fun t =>
        t.get F.LEDGER_STATUS_SENSE_FAULT = 0 ∧
        t.get F.LEDGER_AVAILABLE_A = s.energyAt (min (min v s.led.lastV) (s.get F.LEDGER_BANK_V_FULL_MV)) % 2 ^ 48)) ∧
    (s.get F.LEDGER_STATUS_SENSE_FAULT = 0 → s.led.sampled = true →
      s.get F.LEDGER_BANK_V_FULL_MV < 10 * (max v s.led.lastV - min v s.led.lastV) →
      Answers (.holdSample code) s (fun t => t.get F.LEDGER_STATUS_SENSE_FAULT = 1 ∧ t.get F.LEDGER_AVAILABLE_A = 0))) ∧
  (∀ (s : State) (cid : Cid) (r : SlotReq), s.led.reqs.find? (fun r => r.slots.any (fun x => x.owner = .cmd cid)) = some r →
    Answers (.hostWaitExpired cid) s (fun t => t = s.exhaust cid (r.short.getD (s.shortfall r)) ∧
      ∀ q ∈ t.led.reqs, ¬ q.slots.any (fun x => x.owner = .cmd cid) = true)) ∧
  (∀ (s : State) (who : Req),
    ((s.dropHeld who).takes who Pg.LEDGER 0x128 →
      let s0 := s.dropHeld who
      (s0.mode = Md.IDLE ∨ s0.mode = Md.SERVICE → Answers (.ledgerCalGo who) s (fun t => t = { s0 with led := { s0.led with calBusy := true } })) ∧
      (s0.mode ≠ Md.IDLE → s0.mode ≠ Md.SERVICE → Answers (.ledgerCalGo who) s (fun t => t = s0.modeRefused))) ∧
    (∀ (tAbort : Nat) (c : CalChan), s.led.calBusy = true → c.failed = false → c.progNs ≤ 2000000 → c.chan < 64 → c.planes ≠ 0 →
      Answers (.calDone tAbort [c]) s (fun t =>
        t.get F.LEDGER_STATUS_CALIBRATED = 1 ∧ t.get F.LEDGER_CAL_CHAN_EXCLUDED = 0 ∧ t.led.calBusy = false ∧
        t.get F.LEDGER_CAL_RESULT_T_SLOT_PS = ceilDiv (1000 * (s.calRate c).2) (s.calRate c).1 % 2 ^ 32)) ∧
    (∀ tAbort : Nat, s.led.calBusy = true → Answers (.calDone tAbort []) s (fun t =>
      t = ((State.raise { s with led := { s.led with calBusy := false } } E.LEDGER_CAL_FAIL).failFn Fn.LEDGER_ADMIT))) ∧
    ((s.dropHeld who).takes who Pg.PBUF 0x150 → Answers (.pbufClr who) s (fun t =>
      OnlyFields [F.PBUF_HIGH_WATER_COUNT] (s.dropHeld who) t ∧
      t.get F.PBUF_HIGH_WATER_COUNT = (s.dropHeld who).slots.length % 2 ^ 15)))

/-- R147: the request whose turn it is is admitted in one decision if and only if both tests hold, which the last two clauses write out:
the energy test over A, G, committed, in-flight, S and X, passed by a request that costs 0 whatever the headroom, and the test of the
free list beyond the slots kept for grooming. An admitted one adds its slots, each with the cost in force, and so its whole cost to
committed; one that is not leaves the buffer as it is and stays among the requests to be tried again. With no request that may be decided,
a decision changes nothing; in Seal, Rest and Keep none may. -/
def Obligations.Admission : Prop :=
  (∀ (s : State) (r : SlotReq) (s1 : State), s.nextReq = some (r, s1) →
    (s1.energyOk r = true → s1.freeOk r = true → Answers .admissionDecision s (fun t =>
      t = ((s1.takeReq r).letIn r).admitted r (s1.get F.PBUF_ADMIT_SEQ_SEQ) ∧
      ((s1.takeReq r).letIn r).slots = s1.slots ++ (s1.takeReq r).numbered r.slots ∧
      (∀ x ∈ (s1.takeReq r).numbered r.slots, x.charge = s1.slotCost x.kind) ∧
      ((∀ x ∈ r.slots, x.lst = .filling) → ((s1.takeReq r).letIn r).committed = s1.committed + s1.reqCost r))) ∧
    (s1.energyOk r = false ∨ s1.freeOk r = false → Answers .admissionDecision s (fun t =>
      t = (s1.refuse r).markRefused r ∧ t.slots = s1.slots ∧ t.led.reqs.map (·.slots) = s1.led.reqs.map (·.slots)))) ∧
  (∀ s : State, (s.led.sealing.isSome = true ∨ s.mode = Md.SEAL ∨ s.mode = Md.REST ∨ s.mode = Md.KEEP ∨ s.led.reqs = []) →
    Answers .admissionDecision s (fun t => t = s)) ∧
  (∀ (s : State) (r : SlotReq),
    (s.energyOk r = true ↔ s.reqCost r = 0 ∨
      (s.get F.LEDGER_AVAILABLE_A : Int) - 256 * s.get F.LEDGER_ADMIT_GUARD_UJ - (s.committed + s.inflight + s.get F.LEDGER_RESERVE_S) -
        (if r.who = .host ∨ r.who = .net then 256 * s.get F.LEDGER_ADMIT_INGEST_RSV_UJ else 0 : Nat) ≥ s.reqCost r) ∧
    (s.freeOk r = true → r.slots.length ≤ s.free) ∧
    (r.who ≠ .groom → (s.freeOk r = true ↔ r.slots.length + (512 - s.relocSlots) ≤ s.free)))

/-- R175, R176, R178, R180: a window start while BUDGET is set and the PAIR island is not ON runs the window's steps. A refill never lifts
a balance above one window's allotment, and P is at least POOL_MIN. R181, R184, R185: a sample before THERMAL is ignored; after it, one
with every sensor in range and below 120 °C excludes none and starts no fatal fault. The grant is stored as written. -/
def Obligations.WindowsAndThermal : Prop :=
  (∀ s : State,
    (∀ throughout : List Nat, s.mode ≠ Md.KEEP → s.ready Fn.BUDGET = true → (s.newWindow throughout).isl 4 ≠ 2 →
      Answers (.arbitrationWindowStart throughout) s (fun t => t = s.newWindow throughout)) ∧
    (∀ throughout : List Nat, s.mode = Md.KEEP → Answers (.arbitrationWindowStart throughout) s (fun t => t = s)) ∧
    (s.refillAll).bud.q ≤ (128 * s.refill : Nat) ∧ 16 * s.get F.BUDGET_POOL_POOL_MIN_UJ ≤ s.refill ∧
    (∀ k : Nat, k < 8 → (s.refillAll).bud.b.getD k 0 ≤ ((s.classFloor k * s.refill : Nat) : Int) ∧
      (s.refillAll).bud.c.getD k 0 ≤ ((s.classCeil k * s.refill : Nat) : Int)) ∧
    (∀ k : Nat, s.nv.sanit ≠ 2 → s.classFloor k ≤ s.getPart (F.BUDGET_CEIL_M_CEIL s.mode) k 8 → s.classFloor k ≤ s.classCeil k)) ∧
  (∀ s : State,
    (∀ (tj : List Int) (mv : Nat), s.ready Fn.THERMAL = false → Answers (.thermalSample tj mv) s (fun t => t = s)) ∧
    (∀ (tj : List Int) (mv : Nat), s.ready Fn.THERMAL = true → tj.length = 8 → (∀ x ∈ tj, -50 ≤ x ∧ x < 120) →
      Answers (.thermalSample tj mv) s (fun t =>
        t.mode = s.mode ∧ t.get F.BUDGET_TEMP_EXCLUDED = s.get F.BUDGET_TEMP_EXCLUDED ∧ t.nv = s.nv ∧ t.bud.hotRun = List.replicate 8 0 ∧
        t.bud.badRun = List.replicate 8 0)) ∧
    (∀ (who : Req) (mw : Nat), (s.dropHeld who).takes who Pg.BUDGET 0x100 → Answers (.grantWrite who mw) s (fun t =>
      OnlyFields [F.BUDGET_GRANT_GRANT_MW] (s.dropHeld who) t ∧ t.get F.BUDGET_GRANT_GRANT_MW = mw % 2 ^ 20)))

/-- R177, R191: no pick in Seal, Rest or Keep. A pick takes an operation of the class that the three steps name, subtracts its cost from Q
and from the class's two balances together, and grants its tokens to its channel. R178, R355: a picked operation that its LUN accepts is
issued: its tokens are spent, and it runs from now; one that is not picked, or that its LUN does not accept, stays as it is. -/
def Obligations.PicksAndIssues : Prop :=
  (∀ (s : State) (pickable : List Nat),
    (s.mode = Md.SEAL ∨ s.mode = Md.REST ∨ s.mode = Md.KEEP ∨ s.ready Fn.BUDGET = false ∨ s.led.sealing.isSome = true →
      Answers (.arbiterPick pickable) s (fun t => t = s)) ∧
    (∀ (k : Nat) (o : FlashOp), s.ready Fn.BUDGET = true → s.mode ≠ Md.SEAL → s.mode ≠ Md.REST → s.mode ≠ Md.KEEP → s.led.sealing = none →
      (∀ x ∈ s.bud.ops, x.phase = .queued → s.chanState x.chan = 2 ∧ s.getPart (F.FCH_LUN_STATE_STATE x.chan) x.lun 2 ≠ 2) →
      s.pickClass (fun k => (s.bestOp (fun o => pickable.contains o.id && s.creditFree o) k).isSome) = some k →
      s.bestOp (fun o => pickable.contains o.id && s.creditFree o) k = some o →
      Answers (.arbiterPick pickable) s (fun t =>
        t.bud.q = s.bud.q - (128 * o.cost : Nat) ∧ t.bud.granted.get o.chan 0 = s.bud.granted.get o.chan 0 + o.cost ∧
        t.bud.b = subAt s.bud.b k (128 * o.cost : Nat) ∧ t.bud.c = subAt s.bud.c k (128 * o.cost : Nat) ∧
        (∀ x ∈ t.bud.ops, x.id = o.id → x.phase = .picked) ∧ t.slots = s.slots)) ∧
    (∀ (has : Nat → Bool) (k : Nat), s.pickClass has = some k → has k = true ∧ s.bud.ceil.getD k 0 ≠ 0)) ∧
  (∀ (s : State) (op : Nat) (o : FlashOp), s.op op = some o →
    (o.phase ≠ .picked ∨ s.lunAccepts o = false → Answers (.sequencerIssue op) s (fun t => t = s)) ∧
    (o.phase = .picked → s.lunAccepts o = true → o.kind ≠ .prog → s.chanState o.chan = 2 → s.flashInjector o = none →
      Answers (.sequencerIssue op) s (fun t => t = s.issueOp o ∧
        t.bud.spent.get o.chan 0 = s.bud.spent.get o.chan 0 + o.cost ∧ t.slots = s.slots ∧ t.map = s.map)))

/-! ### The camera's controller (chapter 07) -/

/-- R226: a doorbell of a queue that does not exist, or a value beyond its size, is counted and changes no queue; a valid one moves the
tail or the head alone. R195, R224: CC.EN set gives the admin queues the sizes of AQA and starts the controller; cleared, it leaves no
queue, and takes, ingest and the tracker of the dock are not affected. A normal shutdown with nothing outstanding is complete at once. -/
def Obligations.ControllerAndDoorbells : Prop :=
  (∀ (s : State) (q value ns : Nat), s.bar0 = true →
    (s.host.sqs.find? q = none → Answers (.sqTailDoorbell q value ns) s (fun t => t = s.badDoorbell 0)) ∧
    (s.host.cqs.find? q = none → Answers (.cqHeadDoorbell q value) s (fun t => t = s.badDoorbell 0)) ∧
    (∀ x : Sq, s.host.sqs.find? q = some x →
      (x.size ≤ value → Answers (.sqTailDoorbell q value ns) s (fun t => t = s.badDoorbell 1)) ∧
      (value < x.size → s.tst.running = false → Answers (.sqTailDoorbell q value ns) s (fun t =>
        t.host.sqs.find? q = some { x with tail := value } ∧ (∀ k, k ≠ q → t.host.sqs.find? k = s.host.sqs.find? k) ∧
        OnlyFields [F.HOSTQ_FETCH_LAT_MAX_NS] { s with host := t.host } t))) ∧
    (∀ x : Cq, s.host.cqs.find? q = some x →
      (x.size ≤ value → Answers (.cqHeadDoorbell q value) s (fun t => t = s.badDoorbell 1)) ∧
      (value < x.size → Answers (.cqHeadDoorbell q value) s (fun t =>
        t.host.cqs.find? q = some { x with head := value } ∧ t = { s with host := { s.host with cqs := t.host.cqs } }))) ∧
    (s.badDoorbell 0).host.sqs = s.host.sqs ∧ (s.badDoorbell 1).host.sqs = s.host.sqs) ∧
  (∀ (s : State) (ams asqs acqs : Nat), s.bar0 = true →
    (s.host.en = false → Answers (.ccEnable true ams asqs acqs) s (fun t =>
      t.host.en = true ∧ t.host.sqs.find? 0 = some ⟨asqs % 4096 + 1, 0, 0, 0⟩ ∧
      t.host.cqs.find? 0 = some ⟨acqs % 4096 + 1, 0, true, 0, 0, 0⟩ ∧ t = { s with host := t.host })) ∧
    (s.host.en = true → Answers (.ccEnable false ams asqs acqs) s (fun t =>
      t.host.en = false ∧ t.host.sqs = [] ∧ t.host.cqs = [] ∧ t.ing = s.ing ∧ t.slots.length ≤ s.slots.length ∧ t.pend = s.pend ∧
      ∀ q, t.get (F.HOSTQ_QBIND_STREAM q) = s.get (F.HOSTQ_QBIND_STREAM q))) ∧
    (s.host.en = true → s.host.shst = 0 → Answers .ccShutdown s (fun t =>
      (t.host.shst = 1 ∨ t.host.shst = 2) ∧ t = { s with host := { s.host with shst := t.host.shst } })))

/-- R198: queues are created with the size and the completion queue they name, and a submission queue that names another than its own
completes with Completion Queue Invalid (1h/0x00). -/
def Obligations.QueuesAreCreatedAndDeleted : Prop :=
  ∀ (s : State) (id : Cid) (qid size : Nat), s.fetches id → id.src = .host 0 →
    let s0 := s.atFetch id
    (∀ (vec : Nat) (ien : Bool), 1 ≤ qid → qid ≤ 256 → s0.host.cqs.find? qid = none → badQueueSize size = false → vec ≤ 256 →
      Answers (.createIoCq id qid size vec ien false) s (fun t =>
        t = State.ok { s0 with host := { s0.host with cqs := s0.host.cqs.put qid ⟨size + 1, vec, ien, 0, 0, 0⟩ } } id 0 0 [])) ∧
    (∀ prio : Nat, 1 ≤ qid → qid ≤ 256 → s0.host.sqs.find? qid = none → badQueueSize size = false → (s0.host.cqs.find? qid).isSome = true →
      Answers (.createIoSq id qid size qid prio false) s (fun t =>
        t = State.ok (State.set { s0 with host := { s0.host with sqs := s0.host.sqs.put qid ⟨size + 1, 0, 0, prio % 4⟩ } }
          (F.HOSTQ_QBIND_QOS (qid - 1)) (prio % 4)) id 0 0 [])) ∧
    (∀ cqid prio : Nat, cqid ≠ qid → 1 ≤ qid → qid ≤ 256 → s0.host.sqs.find? qid = none → badQueueSize size = false →
      Answers (.createIoSq id qid size cqid prio false) s (fun t => t = s0.fail id 1 0x00)) ∧
    (qid ≠ 0 → (s0.host.cqs.find? qid).isSome = true → s0.host.sqs.find? qid = none → Answers (.deleteIoCq id qid) s (fun t =>
      t = State.ok { s0 with host := { s0.host with cqs := s0.host.cqs.del qid } } id 0 0 [])) ∧
    (qid ≠ 0 → (s0.host.sqs.find? qid).isSome = true → Answers (.deleteIoSq id qid) s (fun t =>
      let s1 := s0.dropQueue qid
      t = State.ok (State.set { s1 with host := { s1.host with sqs := s1.host.sqs.del qid, aborts := s1.host.aborts.filter (fun a => a.sq ≠ qid) } }
        (F.HOSTQ_QBIND_QOS (qid - 1)) 0) id 0 0 []))

/-- R193 to R196: the PCIe link and its configuration space. A link that trains sets PCIE_LINK and releases WAKE_N; one that drops shows speed
and width 0; configuration space takes what is written. -/
def Obligations.PcieLink : Prop :=
  ∀ (s : State) (speed width eq : Nat),
    (s.isl 2 = 2 → s.pins.perstN = false → s.get F.PWR_RAIL_STATUS_IO_LEVEL ≠ 3 → s.needsOk Fn.PCIE_LINK = true → s.ready Fn.PCIE_LINK = false →
      Answers (.pcieLinkUp speed width eq) s (fun t => t.ready Fn.PCIE_LINK = true ∧ t.pins.wakeN = true ∧
        t.get F.PCIE_STATUS_WIDTH = linkWidth (min width (s.get F.PCIE_LINK_CFG_MAX_WIDTH)) % 2 ^ F.PCIE_STATUS_WIDTH.width)) ∧
    (s.ready Fn.PCIE_LINK = true → Answers .pcieLinkDown s (fun t => t.ready Fn.PCIE_LINK = false)) ∧
    (∀ d3 msix bm pme : Bool, s.isl 2 = 2 → s.ready Fn.PCIE_LINK = true → Answers (.configSpaceWrite d3 msix bm pme) s (fun t =>
      t.host.d3 = d3 ∧ t.host.msixEn = msix ∧ t.host.busMaster = bm ∧ t.host.pmeEn = pme ∧
      OnlyFields [F.PCIE_STATUS_DSTATE] { s with host := t.host } t)) ∧
    (∀ who : Req, (s.dropHeld who).takes who Pg.PCIE 0x108 → (s.dropHeld who).ready Fn.PCIE_LINK = true →
      Answers (.pcieRetrain who speed width) s (fun t => t = ((s.dropHeld who).inc F.PCIE_RECOV_ENTRIES).trainPcie speed width)) ∧
    (∀ (q : Nat) (x : Cq), s.host.cqs.find? q = some x → x.held ≠ 0 → Answers (.interruptCoalescingTimeout q) s (fun t =>
      t.host.cqs.find? q = some { x with held := 0 } ∧ t = { s with host := { s.host with cqs := t.host.cqs, irqs := t.host.irqs } } ∧
      t.host.irqs = if x.ien && s.host.msixEn then s.host.irqs ++ [x.vec] else s.host.irqs))

/-- Table 07-4, R201: features. A power state or feature 0xC0 writes the grant; what is set is what Get Features then reports; the status
of keeping alive, directives and their parameters. R215: an Abort catches a command that has not passed its point of no return, which then
completes with Command Abort Requested; one that names a command past it, or in no window, does not; one that nothing answers stays armed
until its window ends. Requests for events beyond eight are refused. -/
def Obligations.FeaturesAbortsAndEvents : Prop :=
  (∀ (s : State) (id : Cid), s.fetches id → id.src = .host 0 →
    let s0 := s.atFetch id
    (∀ fid v : Nat, knownFid fid = true → badFeature fid v = false → s0.mode ≠ Md.QUARANTINE ∨ quarFid fid = true →
      Answers (.setFeatures id fid v false false) s (fun t => t = (s0.setFeature fid v).ok id (if fid = 0x07 then 0x00FF00FF else 0) 0 [])) ∧
    (∀ fid v : Nat, knownFid fid = true → Answers (.getFeatures id fid v 0 false) s (fun t => t = s0.ok id (s0.getFeature fid v) 0 [])) ∧
    (∀ v : Nat, v < 2 ^ 20 → (s0.setFeature 0xC0 v).get F.BUDGET_GRANT_GRANT_MW = v ∧ (s0.setFeature 0xC0 v).getFeature 0xC0 0 = v) ∧
    (∀ v : Nat, v ≤ 3 → (s0.setFeature 0x02 v).get F.BUDGET_GRANT_GRANT_MW = psPower v ∧ (s0.setFeature 0x02 v).getFeature 0x02 0 = v) ∧
    Answers (.keepAlive id) s (fun t => t = s0.ok id 0 0 []) ∧
    (s0.mode ≠ Md.QUARANTINE → Answers (.directiveSend id 0 1 0x101 false) s (fun t =>
      t = State.ok { s0 with host := { s0.host with streamsOn := true } } id 0 0 [])) ∧
    (s0.mode ≠ Md.QUARANTINE → Answers (.directiveSend id 1 1 0 false) s (fun t => t = s0.ok id 0 0 [])) ∧
    (∀ n : Nat, Answers (.directiveReceive id 1 1 n false) s (fun t =>
      t = s0.draw.ok id 0 0 ((bytesOf 2 256 ++ bytesOf 2 256 ++ bytesOf 2 0 ++ bytesOf 26 (Config.undefinedValue s0.fresh)).take n)))) ∧
  (∀ (s : State) (id : Cid), s.mayFetch id.src = true → id.src = .host 0 →
    let s0 := s.popSq (.host 0)
    (∀ sqid cid : Nat, s0.host.aborts.length < 8 → s0.catchable ⟨.host sqid, cid⟩ = true → Answers (.abort id sqid cid false) s (fun t =>
      t = ((s0.forget (fun x => x = ⟨.host sqid, cid⟩)).caught ⟨.host sqid, cid⟩).ok id 0 0 [])) ∧
    (∀ sqid cid : Nat, s0.host.aborts.length < 8 → s0.outstanding ⟨.host sqid, cid⟩ = false → Answers (.abort id sqid cid false) s (fun t =>
      t = { s0 with host := { s0.host with aborts := s0.host.aborts ++ [⟨sqid, cid, id⟩] } })) ∧
    (s.host.aborts.any (fun a => a.by' = id) = true → Answers (.abortWindowExpired id) s (fun t =>
      t = State.notCaught { s with host := { s.host with aborts := s.host.aborts.filter (fun a => a.by' ≠ id) } } id)) ∧
    (s0.host.aens = [] → s0.host.aers.length < 8 → Answers (.asynchronousEventRequest id) s (fun t =>
      t = { s0 with host := { s0.host with aers := s0.host.aers ++ [id.cid] } })) ∧
    (s0.host.aens = [] → 8 ≤ s0.host.aers.length → Answers (.asynchronousEventRequest id) s (fun t => t = s0.fail id 1 0x05)) ∧
    (s.isl 2 = 2 → s.host.en = true → s.host.kato ≠ 0 → Answers (.keepAliveExpired 0) s (fun t =>
      t.get F.HOSTQ_STATUS_CFS = 1 ∧ t.slots = s.slots ∧ t.ing = s.ing ∧ t.map.ts.takes = s.map.ts.takes)))

/-- R218, R26, R200: a command of the NVM Command Set that every check lets pass starts; a Flush with no write before it completes; a
write asks for its slots, or completes at once where even a full bank has no room for it (R151). R25, R26: the data of a write that has
all of its slots is stored, and of a write that is unknown, started, or not wholly admitted, nothing is. Dataset Management with the
deallocate attribute clear is accepted and changes no data; with it, every range is deallocated. -/
def Obligations.IoCommands : Prop :=
  (∀ (s : State) (id : Cid) (c : IoCmd), s.fetches id →
    let s0 := s.atFetch id
    (Passes (s0.ioChecks id c false false) →
      Answers (.read id c) s (fun t => t = s0.startRead id .read c []) ∧
      (∀ data : List Nat, Answers (.compare id c data) s (fun t => t = s0.startRead id .compare c data)) ∧
      Answers (.verify id c) s (fun t => t = s0.startRead id .verify c [])) ∧
    (Passes (s0.ioChecks id c true false ++ s0.writeChecks id c.nsid (s0.cmdLeaves c)) →
      Answers (.write id c) s (fun t => t = s0.startWrite id .write c) ∧
      Answers (.writeZeroes id c) s (fun t => t = s0.startWrite id .writeZeroes c)) ∧
    (∀ w, (s0.ioChecks id c false false).find? (fun w => w.1) = some w → Answers (.read id c) s (fun t => t = s0.reject id w.2)) ∧
    (∀ nsid : Nat, s0.onAdmin id.src = false → s0.onDisc id.src = false → (s0.ns? nsid).isSome = true → s0.dockClosing id.src = false →
      s0.ioLocked = false → s0.unbound id.src = false → s0.unconverged nsid = false →
      Answers (.flush id nsid false) s (fun t =>
        t = (s0.trackCmd { id := id, op := .flush, nsid := nsid, stream := s0.cmdStream id.src }).flushReady))) ∧
  (∀ (s : State) (id : Cid) (sectors : List Nat) (ns : Nat),
    (s.cmd? id = none → Answers (.hostWriteDataComplete id sectors ns) s (fun t => t = s)) ∧
    (∀ c : Cmd, s.cmd? id = some c → (s.allAdmitted id = false ∨ c.started = true ∨ s.led.sealing.isSome = true) →
      Answers (.hostWriteDataComplete id sectors ns) s (fun t => t = s)) ∧
    (∀ c : Cmd, s.cmd? id = some c → c.op = .writeZeroes → c.started = false → s.allAdmitted id = true → s.begun id = true →
      s.led.sealing = none → isDock id.src = false → Answers (.hostWriteDataComplete id sectors ns) s (fun t =>
        t = (s.storeWrite c (List.replicate (sectorsOf (((s.ns? c.nsid).map (·.fmt)).getD 0) c.nlb) 0)).noteAck ns))) ∧
  (∀ (s : State) (id : Cid) (nsid : Nat) (ranges : List (Nat × Nat)), s.fetches id →
    let s0 := s.atFetch id
    let io : IoCmd := ⟨nsid, 0, 1, false, 0, 0, 0, 0, none, false⟩
    let n := s0.ns? nsid
    ranges ≠ [] → ranges.length ≤ 256 → ranges.any (fun r => decide ((n.map (·.size)).getD 0 < r.1 + r.2)) = false →
    (∀ w ∈ s0.ioChecks id io false (s0.allVerified nsid ((ranges.map (fun (a, k) =>
      (leavesOf ((n.map (·.fmt)).getD 0) a k).map (·.1))).flatten)), w.2 ≠ (0, 0x80, 0) → w.1 = false) →
    Answers (.datasetManagement id nsid ranges false false) s (fun t => t = s0.ok id 0 0 []))

/-- R197, R202, R211, R213: a log page is returned as far as the page goes from the offset asked; an unknown one is Invalid Log Page; Identify,
the ledger record and the durable entries of a stream are returned as they stand. A read with RAE set changes nothing but the queue. -/
def Obligations.HostDataIsReturned : Prop :=
  ∀ (s : State) (id : Cid), s.fetches id → id.src = .host 0 →
    let s0 := s.atFetch id
    (∀ (lid off n : Nat) (page : List Nat), s0.logPage lid = some page → off ≤ page.length →
      Answers (.getLogPage id lid off n true false) s (fun t =>
        t = State.ok { s0 with fresh := s0.fresh + 2 } id 0 0 ((page.drop off).take n))) ∧
    (∀ (lid off n : Nat) (rae : Bool), s0.logPage lid = none → Answers (.getLogPage id lid off n rae false) s (fun t => t = s0.fail id 1 0x09)) ∧
    (∀ (cns nsid cntid : Nat) (page : List Nat), s0.identify id cns nsid cntid = .ok page →
      Answers (.identify id cns nsid cntid false) s (fun t => t = s0.ok id 0 0 page)) ∧
    Answers (.ledgerQuery id false false false) s (fun t => t = s0.ok id 0 0 (recordBytes s0.ledgerRecord)) ∧
    (∀ stream take first count : Nat, stream ≤ 255 → 1 ≤ count → count ≤ 4096 → s0.ioLocked = false →
      (s0.ready Fn.FRAME_INDEX = false → ∀ wait : Bool, Answers (.frameIndexRead id stream wait take first count false false) s (fun t =>
        t = s0.vendor id 0x8E 0)) ∧
      (s0.ready Fn.FRAME_INDEX = true → Answers (.frameIndexRead id stream false take first count false false) s (fun t =>
        t = s0.ok id (s0.indexRead take stream first count).1.length (s0.indexRead take stream first count).2
          ((s0.indexRead take stream first count).1.map entryBytes).flatten)) ∧
      (s0.ready Fn.FRAME_INDEX = true → (s0.frm.waits.filter (fun w => w.stream = stream)).length < 4 →
        (s0.indexRead take stream first count).1 = [] → (∃ t ∈ s0.liveTakes, t.num = take) →
        Answers (.frameIndexRead id stream true take first count false false) s (fun t =>
          t = { s0 with frm := { s0.frm with waits := s0.frm.waits ++ [⟨id, stream, take, first, count⟩] } })))

/-- R409, R537, R538, Table 07-11: Namespace Management gives the lowest free NSID and deletes what is named; outside Idle and Service, and in
LOCKED, these commands do nothing. A crypto erase clears every take and entry, and no namespace. -/
def Obligations.NamespacesAndErasure : Prop :=
  ∀ (s : State) (id : Cid), s.fetches id → id.src = .host 0 →
    let s0 := s.atFetch id
    (s0.mode ≠ Md.IDLE → s0.mode ≠ Md.SERVICE →
      (∀ size fmt dps : Nat, size ≠ 0 → Answers (.namespaceManagement id 0 0 size size fmt dps false) s (fun t => t = s0.vendor id 0x81 s0.mode)) ∧
      (∀ act dw : Nat, act = 2 ∨ act = 4 → Answers (.sanitize id act dw false) s (fun t => t = s0.vendor id 0x81 s0.mode))) ∧
    (s0.mode = Md.IDLE ∨ s0.mode = Md.SERVICE → s0.secLocked = true → ∀ act dw : Nat, act = 2 ∨ act = 4 →
      Answers (.sanitize id act dw false) s (fun t => t = s0.vendor id 0x83 0)) ∧
    (s0.mode = Md.IDLE ∨ s0.mode = Md.SERVICE → s0.secLocked = false → s0.nv.sanit ≠ 2 → s0.leads = false → s0.follows = false →
      (∀ n size fmt dps : Nat, size ≠ 0 → badFormat fmt (dps % 8) (bit dps 3) = false → s0.freeNsid = some n →
        s0.nsBytes + size * fmtBytes fmt ≤ s0.nv.tnvmcap.getD 0 →
        Answers (.namespaceManagement id 0 0 size size fmt dps false) s (fun t =>
          t = State.ok { s0 with nv := { s0.nv with nses := s0.nv.nses.put n ⟨size, fmt, dps, false⟩ } } id n 0 [])) ∧
      (∀ (nsid : Nat) (n : Ns), s0.nv.nses.find? nsid = some n → n.attached = false → Answers (.namespaceAttachment id 0 nsid false) s (fun t =>
        t = State.ok (State.nsNote { s0 with nv := { s0.nv with nses := s0.nv.nses.put nsid { n with attached := true } } } nsid) id 0 0 [])) ∧
      (∀ (nsid fmt pi : Nat), (s0.ns? nsid).isSome = true → badFormat fmt pi false = false → Answers (.formatNvm id nsid fmt 0 pi false false) s
        (fun t => t = s0.formatNs id nsid fmt 0 pi)) ∧
      (∀ dw : Nat, Answers (.sanitize id 4 dw false) s (fun t => t = s0.sanitize id 4 dw))) ∧
    s.cryptoErase.map.ts.takes = [] ∧ s.cryptoErase.map.ts.entries = [] ∧ s.cryptoErase.nv.nses = s.nv.nses ∧
    s.cryptoErase.nv.owner = s.nv.owner

/-- R216, R217, R589: a self-test starts with its first segment, an extended one in Record only when Record ends; a test gives way and resumes;
its last segment logs its result. -/
def Obligations.SelfTests : Prop :=
  ∀ s : State,
    (∀ (id : Cid) (stc : Nat), s.fetches id → id.src = .host 0 → stc = 1 ∨ stc = 2 →
      let s0 := s.atFetch id
      s0.ready Fn.SELFTEST = true → s0.mode ≠ Md.WAKE → s0.mode ≠ Md.UPDATE → s0.nv.sanit ≠ 2 →
      (s0.tst.kind = 0 → Answers (.deviceSelfTest id 0 stc) s (fun t =>
        t = State.ok { s0 with tst := { kind := stc, seg := 1, defer := stc = 2 && s.mode = Md.RECORD, nsid := 0 } } id 0 0 [])) ∧
      (s0.tst.kind ≠ 0 → Answers (.deviceSelfTest id 0 stc) s (fun t => t = s0.fail id 1 0x1D)) ∧
      Answers (.deviceSelfTest id 0 15) s (fun t => t = (s0.dropTest 1).ok id 0 0 [])) ∧
    (s.testMay = true → s.tst.yielded = false → Answers (.selftestChunk []) s (fun t =>
      t = { s with tst := { s.tst with running := true, seg := max 1 s.tst.seg } })) ∧
    (s.testMay = false ∨ s.tst.yielded = true → ∀ uas : List Nat, Answers (.selftestChunk uas) s (fun t => t = s)) ∧
    (s.testMay = true → s.tst.yielded = true → s.ioBusy = false → Answers (.selftestResume false) s (fun t =>
      t = { s with tst := { s.tst with running := true, yielded := false } })) ∧
    (s.testMay = true → s.tst.yielded = true → s.tst.kind ≠ 1 → Answers (.selftestResume true) s (fun t => t = s)) ∧
    (s.tst.running = true → s.tst.kind = 1 ∨ s.tst.kind = 2 →
      (∀ ok : Bool, s.tst.seg ≠ 2 → s.tst.seg ≠ 6 → s.tst.seg < 6 → Answers (.selftestSegmentDone ok []) s (fun t =>
        t.tst.seg = s.tst.seg + 1 ∧ t.tst.failed = (if ok = false ∧ s.tst.failed = none then some s.tst.seg else s.tst.failed) ∧
        t = { s with tst := t.tst })) ∧
      (∀ ok : Bool, s.tst.kind = 1 → s.tst.seg = 6 → Answers (.selftestSegmentDone ok []) s (fun t => t.tst.kind = 0 ∧
        t.nv.stLog.head? = some (1, (if s.senseBad = true ∨ s.tst.failed.isSome = true then 7 else 0),
          (if s.senseBad = true ∧ s.tst.failed = none then 6 else s.tst.failed.getD 0), s.tst.nsid))))

/-- R212, R494, R115, Table 07-8: the vendor commands that need no take: a Mailbox Post queues its words or, without room, reports how many words are
free; a Snapshot Trigger answers the epoch, or is refused while a snapshot is held; a Mode Request of the current mode completes at once. -/
def Obligations.VendorRequests : Prop :=
  ∀ (s : State) (id : Cid), s.mayFetch id.src = true → id.src = .host 0 →
    let s0 := s.atFetch id
    (∀ (ws : List Nat) (db : Nat), ws ≠ [] → ws.length ≤ 64 →
      (64 < (s0.queue 0).length + ws.length → Answers (.mailboxPost id ws db false false) s (fun t =>
        t = s0.vendor id 0x8A (64 - (s0.queue 0).length))) ∧
      ((s0.queue 0).length + ws.length ≤ 64 → Answers (.mailboxPost id ws db false false) s (fun t =>
        t = (State.mbxUnknown 66 (((s0.setQueue 0 (s0.queue 0 ++ ws.map (· % 2 ^ 64))).crcuFeed 4 0 (ws.map (bytesOf 8)).flatten).mbxRing 0 db)).ok
          id ws.length 0 []))) ∧
    (s0.get F.SNAP_STATE_HELD = 1 → ∀ ret : Bool, Answers (.snapshotTrigger id ret false false false) s (fun t =>
      t = s0.vendor id 0x8B (s0.get F.SNAP_LAST_EPOCH_EPOCH))) ∧
    (s0.get F.SNAP_STATE_HELD = 0 → Answers (.snapshotTrigger id false false false false) s (fun t =>
      t = (s0.snapshot 4).ok id ((s0.snapshot 4).get F.SNAP_LAST_EPOCH_EPOCH) 0 [])) ∧
    (s.fetches id → s0.inTransition = false →
      (requestable s0.mode = true → Answers (.modeRequest id s0.mode false) s (fun t => t = s0.ok id s0.mode 0 [])) ∧
      (∀ target : Nat, target ≤ 15 → requestable target = false → Answers (.modeRequest id target false) s (fun t =>
        t = s0.modeRefused.vendor id 0x81 s0.mode)) ∧
      (∀ target : Nat, target ≤ 15 → s0.mode = Md.IDLE → target = Md.REVIEW ∨ target = Md.GROOM ∨ target = Md.OFFLOAD → s0.leads = false →
        Answers (.modeRequest id target false) s (fun t => t = s0.beginMode (.cmd id) target)))

/-! ### Owners, tamper and debug (chapter 18) -/

/-- R526 to R530: Owner Lock enrols in BLANK and locks in OPEN; a rejected secret costs an attempt before anything else, and its command completes
1 s later with the attempts left; with none left nothing is checked; the keys go only once the buffer is empty. -/
def Obligations.OwnerCommands : Prop :=
  ∀ (s : State) (id : Cid),
    (s.fetches id → id.src = .host 0 →
      let s0 := s.atFetch id
      (∀ (ok arm : Bool) (hours : Nat) (b : List Nat), badCred b = false → (ok = true → 1 ≤ hours ∧ hours ≤ 8) → s0.sec.goal = none →
        s0.mode = Md.IDLE ∨ s0.mode = Md.SERVICE → s0.nv.sanit ≠ 2 →
        Answers (.ownerLock id ok hours b false false) s (fun t => t = s0.ownerLock id ok hours b) ∧
        (s0.secState = 0 → Answers (.ownerUnlock id arm b false false) s (fun t => t = s0.fail id 0 0x0C)) ∧
        (s0.secState ≠ 0 → arm = false ∨ s0.nv.carryOk = true → Answers (.ownerUnlock id arm b false false) s (fun t =>
          t = s0.ownerUnlock id arm b)) ∧
        (s0.secState ≠ 0 → arm = true → s0.nv.carryOk = false → Answers (.ownerUnlock id arm b false false) s (fun t =>
          t = s0.vendor id 0x83 0)))) ∧
    (∀ (ok : Bool) (hours : Nat) (b : List Nat),
      (s.secState = 0 → credOp b = 1 →
        (s.ownerLock id ok hours b).nv.owner = some (credSecret b) ∧ (s.ownerLock id ok hours b).nv.recovery = credRecovery b ∧
        (s.ownerLock id ok hours b).nv.ownerLeft = 8 ∧ (s.ownerLock id ok hours b).nv.recLeft = 8 ∧
        (s.sec.goal = none → (s.ownerLock id ok hours b).sec.goal = some (2, some id))) ∧
      (s.secState = 1 → credOp b = 0 → s.nv.ownerLeft ≠ 0 → s.nv.owner ≠ some (credSecret b) →
        (s.ownerLock id ok hours b).nv.ownerLeft = s.nv.ownerLeft - 1 ∧ (s.ownerLock id ok hours b).sec.goal = s.sec.goal ∧
        (s.ownerLock id ok hours b).sec.rejects = s.sec.rejects ++ [(id, s.nv.ownerLeft - 1)]) ∧
      (s.secState = 1 → credOp b = 0 → s.nv.ownerLeft = 0 → s.ownerLock id ok hours b = s.vendor id 0x8C 0) ∧
      (s.secState = 4 → s.ownerLock id ok hours b = s.vendor id 0x83 0)) ∧
    (∀ arm : Bool, ∀ b : List Nat, s.secState = 4 ∨ s.secState = 3 → s.ownerUnlock id arm b = s.vendor id 0x83 0) ∧
    (∀ left : Nat, s.sec.rejects.find? (fun x => x.1 = id) = some (id, left) → Answers (.credentialRejectionDelay id) s (fun t =>
      t = State.vendor { s with sec := { s.sec with rejects := s.sec.rejects.filter (fun x => x.1 ≠ id) } } id 0x8C left)) ∧
    (∀ v : Nat, ∀ o : Option Cid, s.sec.goal = some (v, o) →
      (s.keysIdle = false → Answers .keyZeroise s (fun t => t = s)) ∧
      (s.keysIdle = true → o = none → Answers .keyZeroise s (fun t =>
        t = (State.toSec { s with sec := { s.sec with goal := none } } v).dropReadCache)) ∧
      (s.keysIdle = true → v = 2 ∨ v = 4 → s.secState = 1 → o = none → s.dbgLevel ≠ 2 → s.get F.PAIR_STATUS_ALIGNED = 0 → Answers .keyZeroise s (fun t =>
        t.secState = v ∧ t.get F.SEC_KEY_LOADED_ALL = 0 ∧ t.keep.cs = false ∧ t.ready Fn.INGEST = false)))

/-- R532 to R536, R539 to R542: the carry secret is gone when its countdown ends and at a tamper event, which is counted and kept; a debug level
needs a good response, one submission for each challenge, and ends with its lifetime or DROP. -/
def Obligations.TamperAndDebug : Prop :=
  ∀ (s : State) (who : Req),
    (s.keep.carryLeft.isSome = true → Answers .carryExpired s (fun t => t.keep.cs = false ∧ t = { s with keep := t.keep })) ∧
    (s.pins.tamperN = false ∨ s.nv.tamperEn = false → Answers (.tamperN true) s (fun t => t = { s with pins := { s.pins with tamperN := false } })) ∧
    (s.pins.tamperN = true → s.nv.tamperEn = true → s.mode = Md.KEEP ∨ s.mode = Md.SEAL → Answers (.tamperN true) s (fun t =>
      t.keep.cs = false ∧ t.keep.tampers = min (s.keep.tampers + 1) 65535 ∧ t.keep.tamperAct = some s.nv.tamperDo ∧
      t.keep.tamperSec = s.keep.ticks ∧ t.nv.tampers = s.nv.tampers)) ∧
    (s.pins.tamperN = true → s.nv.tamperEn = true → s.mode ≠ Md.KEEP → s.mode ≠ Md.SEAL → s.ready Fn.SEC = true → s.nv.tamperDo = 0 →
      Answers (.tamperN true) s (fun t => t.keep.cs = false ∧ t.nv.tampers = min (s.nv.tampers + 1) 65535 ∧
        t.get F.SEC_TAMPER_LOG_COUNT = t.nv.tampers % 2 ^ 16 ∧ t.get F.SEC_STATUS_TAMPER_LATCHED = 1 ∧ t.secState = s.secState)) ∧
    ((s.dropHeld who).takes who Pg.DBG 0x100 →
      let s0 := s.dropHeld who
      (s0.sec.failTb = none → Answers (.newChal who) s (fun t => t.get F.DBG_STATUS_CHAL_VALID = 1 ∧
        (∀ i < 6, t.get (F.DBG_CHAL i) = bits (Config.random s0.fresh) (64 * i) 64) ∧ t.slots = s.slots ∧ t.nv = s.nv)) ∧
      (∀ tb : Nat, s0.sec.failTb = some tb → s0.tb < tb + 250000000 → Answers (.newChal who) s (fun t => t = s0)) ∧
      (Answers (.dbgDrop who) s (fun t => t = s0.toD0 ∧
        (s0.dbgLevel ≠ 2 → t.dbgLevel = 0 ∧ t.nv = s.nv ∧ t.secState = s.secState)))) ∧
    ((s.dropHeld who).takes who Pg.DBG 0x1A0 →
      let s0 := s.dropHeld who
      (s0.dbgLevel ≠ 2 ∨ s0.get F.DBG_RESP_HDR_LEVEL = 2 ∨ s0.dbgGood = false → Answers (.dbgSubmit who) s (fun t =>
        t.get F.DBG_STATUS_CHAL_VALID = 0 ∧ t.nv = s.nv ∧
        (s0.dbgGood = true → t.dbgLevel = s0.get F.DBG_RESP_HDR_LEVEL) ∧
        (s0.dbgGood = false → t.dbgLevel = s0.dbgLevel ∧ t.sec.failTb = some s0.tb)))) ∧
    (s.dbgLevel = 0 → Answers .debugLifetimeExpired s (fun t => t = s)) ∧
    (s.dbgLevel = 2 → Answers .debugLifetimeExpired s (fun t => t = s.toD0.raise E.DBG_EXPIRED)) ∧
    (s.dbgLevel = 1 → Answers .debugLifetimeExpired s (fun t => t.dbgLevel = 0 ∧ t.getBit (F.EVT_RAW Pg.DBG) E.DBG_EXPIRED.bit = true)) ∧
    Answers .challengeExpired s (fun t => OnlyFields [F.DBG_STATUS_CHAL_VALID] s t ∧ t.get F.DBG_STATUS_CHAL_VALID = 0)

/-! ### The Busaist link (chapter 08) -/

/-- R232 to R235, R246 to R250: lanes, alignment, the back channel and the enable of the link. ALIGN blocks of one position align the link once they
match and take it out where they do not; a link that is OFF takes nothing. -/
def Obligations.LanesAndAlignment : Prop :=
  ∀ s : State,
    (∀ lane slips : Nat, lane < 8 → s.get F.INGEST_STATUS_FSTATE ≠ 0 → Answers (.laneBlockLock lane slips) s (fun t =>
      t.getBit F.INGEST_STATUS_LOCKED lane = true ∧ OnlyFields [F.INGEST_LANE_SLIPS lane, F.INGEST_STATUS_LOCKED] s t)) ∧
    (∀ lane : Nat, lane < 8 → s.getBit F.INGEST_STATUS_LOCKED lane = true →
      (s.laneUsed lane = false → Answers (.lockLoss lane) s (fun t => t.getBit F.INGEST_STATUS_LOCKED lane = false ∧
        t.get (F.INGEST_LANE_LOCK_LOSS lane) = min (s.get (F.INGEST_LANE_LOCK_LOSS lane) + 1) 65535 ∧ t.ing = s.ing)) ∧
      (s.laneUsed lane = true → (∀ v < 8, (s.vc v).frame = none) → Answers (.lockLoss lane) s (fun t =>
        t.get F.INGEST_STATUS_ALIGNED = 0 ∧ t.slots = s.slots ∧ (s.get F.INGEST_STATUS_ALIGNED = 1 → ∀ v < 8, t.vcState v = VcS.SEEKING))) ∧
      (s.laneUsed lane = false ∨ s.get F.INGEST_STATUS_ALIGNED = 0 → Answers (.badSyncHeader lane) s (fun t =>
        OnlyFields [F.INGEST_LANE_BAD_SH lane] s t ∧ t.get (F.INGEST_LANE_BAD_SH lane) = min (s.get (F.INGEST_LANE_BAD_SH lane) + 1) 65535)) ∧
      (s.laneUsed lane = true → s.blocksPass → (s.vc s.ing.cur).frame = none → Answers (.badSyncHeader lane) s (fun t =>
        t = ((s.inc (F.INGEST_LANE_BAD_SH lane)).block false 0).passHeld))) ∧
    (∀ bs : List AlignBlk, (∀ b ∈ bs, b.lane < 8) → s.get F.INGEST_STATUS_FSTATE ≠ 0 → s.alignOk (s.alignsUsed bs) = true →
      (s.get F.INGEST_STATUS_ALIGNED = 1 → Answers (.busaistAlign bs) s (fun t =>
        OnlyFields ((List.range 8).flatMap (fun l => [F.INGEST_LANE_LOGICAL l, F.INGEST_LANE_SKEW_UI l])) s t)) ∧
      (s.get F.INGEST_STATUS_ALIGNED = 0 → s.get F.INGEST_STATUS_FSTATE = 1 → s.get F.INGEST_CTL_EN = 1 → Answers (.busaistAlign bs) s (fun t =>
        t.get F.INGEST_STATUS_ALIGNED = 1 ∧ t.get F.INGEST_STATUS_FSTATE = 2 ∧ t.ing.cur = 0 ∧ t.ing.wasUp = true ∧
        (s.ing.wasUp = false → t.ing.fc = 64 + s.ing.blocks / 512) ∧ (s.needsOk Fn.BUSAIST_LINK = true → t.ready Fn.BUSAIST_LINK = true)))) ∧
    (∀ bs : List AlignBlk, s.get F.INGEST_STATUS_FSTATE = 0 → Answers (.busaistAlign bs) s (fun t => t = s)) ∧
    (s.get F.INGEST_STATUS_ALIGNED = 0 → Answers .alignTimeout s (fun t => t = s)) ∧
    (s.get F.INGEST_STATUS_ALIGNED = 1 → (∀ v < 8, (s.vc v).frame = none) → Answers .alignTimeout s (fun t =>
      t.get F.INGEST_STATUS_ALIGNED = 0 ∧ t.get F.INGEST_LINK_ALIGN_FAIL = min (s.get F.INGEST_LINK_ALIGN_FAIL + 1) 65535 ∧ t.slots = s.slots)) ∧
    (s.get F.INGEST_STATUS_FSTATE ≠ 0 → Answers .fcBlock s (fun t =>
      t.get F.INGEST_STATUS_READY = b2n s.ingestReady ∧ t.get F.INGEST_STATUS_XOFF = b2n s.ingestXoff ∧ t.ing.fcSeq = (s.ing.fcSeq + 1) % 256 ∧
      t.ing.fcSent.take 2 = [0x78, b2n s.ingestXoff + 2 * b2n s.ingestReady] ∧ t.ing.fcSent.length = 8 ∧ s.ing.fc ≤ t.ing.fc ∧ t.slots = s.slots)) ∧
    (∀ (who : Req) (en : Bool), (s.dropHeld who).takes who Pg.INGEST 0x010 → s.get F.INGEST_STATUS_FSTATE = 3 →
      Answers (.ingestCtlEn who en) s (fun t => t.get F.INGEST_CTL_EN = b2n en ∧ t.get F.INGEST_STATUS_REENABLE_PENDING = b2n en ∧
        OnlyFields [F.INGEST_CTL_EN, F.INGEST_STATUS_REENABLE_PENDING] (s.dropHeld who) t)) ∧
    (∀ who : Req, (s.dropHeld who).takes who Pg.INGEST 0x010 → s.get F.INGEST_STATUS_FSTATE = 2 → s.elasticBlocks ≠ 0 →
      Answers (.ingestCtlEn who false) s (fun t => t.get F.INGEST_CTL_EN = 0 ∧ t.get F.INGEST_STATUS_FSTATE = 3)) ∧
    (s.get F.INGEST_STATUS_FSTATE ≠ 3 → Answers .ingestStopTimeout s (fun t => t = s)) ∧
    (s.get F.INGEST_STATUS_FSTATE = 3 → (∀ v < 8, (s.vc v).frame = none) → Answers .ingestStopTimeout s (fun t => t = s.ingestStopCheck))

/-- R236 to R245, R251 to R256: blocks of an aligned link. A SYNC selects its virtual channel and opens a header; an accepted header sets the next
frame number expected of its stream; malformed control blocks are counted and change nothing else; a link that is not aligned forms no block. -/
def Obligations.BusaistBlocks : Prop :=
  ∀ s : State,
    (s.blocksPass →
      (∀ b1 pattern : Nat, b1 < 8 → pattern < 2 ^ 48 → hamming48 pattern syncPattern ≤ s.get F.INGEST_CFG_PATTERN_TOL →
        Answers (.busaistSync b1 pattern) s (fun t => t = (s.syncBlock b1).ingestStopCheck.passHeld)) ∧
      (∀ b1 pattern : Nat, b1 < 256 → pattern < 2 ^ 48 → 8 ≤ b1 ∨ s.get F.INGEST_CFG_PATTERN_TOL < hamming48 pattern syncPattern →
        Answers (.busaistSync b1 pattern) s (fun t => t = s.badCtrl.ingestStopCheck.passHeld)) ∧
      (∀ vc : Nat, vc < 8 → Answers (.busaistSwitch vc) s (fun t =>
        t = (State.ingestStopCheck { s.cutHeader s.ing.cur with ing := { (s.cutHeader s.ing.cur).ing with cur := vc } }).passHeld)) ∧
      (∀ payload : Nat, Answers (.frameDataBlock payload) s (fun t => t = (s.receiveData (payload % 2 ^ 64)).ingestStopCheck.passHeld)) ∧
      (∀ vc status crc frame : Nat, vc < 8 → status < 32 → crc < 2 ^ 32 → frame < 2 ^ 16 → Answers (.busaistTerm vc status crc frame) s (fun t =>
        t = (s.termBlock vc status crc frame).ingestStopCheck.passHeld)) ∧
      (∀ vc reason : Nat, vc < 8 → reason < 256 → Answers (.busaistAbort vc reason) s (fun t =>
        t = (s.abortBlock vc reason).ingestStopCheck.passHeld)) ∧
      (∀ payload : Nat, payload < 2 ^ 64 → payload % 256 ∉ [0x1E, 0x33, 0x4B, 0x55, 0x66] → Answers (.badCtrl payload) s (fun t =>
        t = s.badCtrl.ingestStopCheck.passHeld))) ∧
    (s.get F.INGEST_STATUS_ALIGNED = 0 →
      (∀ b1 pattern : Nat, Answers (.busaistSync b1 pattern) s (fun t => t = s)) ∧
      (∀ vc status crc frame : Nat, Answers (.busaistTerm vc status crc frame) s (fun t => t = s)) ∧
      (∀ payload : Nat, Answers (.frameDataBlock payload) s (fun t => t = { s with ing := { s.ing with blocks := s.ing.blocks + 1 } }))) ∧
    (∀ (h0 h1 : Nat), s.get F.INGEST_STATUS_ALIGNED = 0 → s.tst.running = false → Answers (.frameHeader h0 h1) s (fun t =>
      t = { s with ing := { s.ing with blocks := s.ing.blocks + 2 } })) ∧
    (∀ h0 h1 : Nat, s.blocksPass → s.tst.running = false → (s.vc s.ing.cur).hdr = some [] → s.ing.blocks + 1 < 512 * s.ing.fc →
      s.get F.INGEST_STATUS_FSTATE ≠ 3 → s.ing.cur < s.ing.vcs.length → Answers (.frameHeader h0 h1) s (fun t =>
        let s1 : State := { s with ing := { s.ing with blocks := s.ing.blocks + 2 } }
        t = ((s1.setVc s.ing.cur { s.vc s.ing.cur with hdr := none }).header s.ing.cur (h0 % 2 ^ 64) (h1 % 2 ^ 64)).ingestStopCheck.passHeld)) ∧
    (∀ (v h0 h1 : Nat) (t : Take), v < 8 → s.judgeHdr v (parseHdr h0 h1) = .ok → s.takeOf (parseHdr h0 h1).stream = some t → (s.vc v).orphan = none →
      (s.header v h0 h1).ing.expect.find? (parseHdr h0 h1).stream = some (((parseHdr h0 h1).frame + 1) % 2 ^ 32) ∧
      (s.header v h0 h1).vcState v = (if s.vcState v = VcS.SEEKING then VcS.PROVISIONAL else VcS.IN_FRAME)) ∧
    (∀ u : State, u.fi.block = none → u.passHeld = u) ∧
    (∀ u : State, u.get F.INGEST_STATUS_FSTATE ≠ 3 → u.ingestStopCheck = u) ∧
    OnlyFields [F.INGEST_PROTO_BAD_CTRL] s s.badCtrl

/-! ### Takes, frames and pulses (chapter 09) -/

/-- R258 to R263, Table 07-11: a Take Start opens its take, and the mode, another take's stream or sixteen takes refuse it; a Take Stop
moves an open take to CLOSING, and a take that no frame keeps open closes with reason 1. R266, R272, R278: an FRM_IN pulse is recorded
with the timebase and the address current at its edge, or ignored; a frame is durable only with all its slots, and then has one more
entry; the capture unit closes. -/
def Obligations.TakesAndFrames : Prop :=
  (∀ (s : State) (id : Cid),
    (s.fetches id → id.src = .host 0 →
      let s0 := s.atFetch id
      (∀ first last : Nat, first ≤ last → last ≤ 255 → s0.lastTakeUsed < 0xFFFFFFFF → s0.noRegion first last = false → s0.mc.trans = none →
        (s0.takeMode = false → Answers (.takeStart id 0 first last false) s (fun t => t = s0.vendor id 0x81 s0.mode)) ∧
        (s0.takeMode = true → s0.mc.drain = none → s0.ioLocked = false → s0.nv.sanit ≠ 2 → s0.follows = false →
          (∀ st, (s0.newStreams first last).find? s0.streamTaken = some st → Answers (.takeStart id 0 first last false) s (fun t =>
            t = s0.vendor id 0x86 st)) ∧
          ((s0.newStreams first last).find? s0.streamTaken = none → 16 ≤ s0.takesNow.length → Answers (.takeStart id 0 first last false) s
            (fun t => t = s0.vendor id 0x88 16)) ∧
          ((s0.newStreams first last).find? s0.streamTaken = none → s0.takesNow.length < 16 → s0.leads = false →
            Answers (.takeStart id 0 first last false) s (fun t => t = s0.openTake id (s0.lastTakeUsed + 1) first last)))) ∧
      (∀ take : Nat, s0.liveTakes.find? (fun t => t.num = take && t.phase = 0) = none → Answers (.takeStop id take false) s (fun t =>
        t = s0.vendor id 0x87 0)) ∧
      (∀ (take : Nat) (k : Take), s0.liveTakes.find? (fun t => t.num = take && t.phase = 0) = some k → s0.follows = false → s0.leads = false →
        s0.frm.capHead = none → s0.get F.INGEST_STATUS_FSTATE ≠ 3 → Answers (.takeStop id take false) s (fun t =>
          t = s0.setTake { k with phase := 1, tbStop := s0.tb, stopper := some id }))) ∧
    (∀ take : Nat, (s.map.ts.takes.find? take).all (fun k => decide (k.phase ≠ 1)) = true →
      Answers (.takeClose take) s (fun t => t = s) ∧ Answers (.takeStopTimeout take) s (fun t => t = s)) ∧
    (∀ (take : Nat) (k : Take), s.map.ts.takes.find? take = some k → k.phase = 1 →
      (s.takeRecs take = [] → s.frm.capHead = none → k.stopper = none → s.frm.waits = [] → s.mode ≠ Md.RECORD → (∀ v < 8, (s.vc v).orphan = none) →
        Answers (.takeClose take) s (fun t => t = (s.takeClosed k 1).dropWaits take)) ∧
      Answers (.takeStopTimeout take) s (fun t => t = (s.closeTakeFrames take).ingestStopCheck))) ∧
  (∀ s : State,
    (s.mode = Md.KEEP ∨ s.mode = Md.REST ∨ s.mode = Md.SEAL ∨ s.ready Fn.LTC = false → Answers .frmInPulse s (fun t => t = s)) ∧
    (s.mode ≠ Md.KEEP → s.mode ≠ Md.REST → s.mode ≠ Md.SEAL → s.ready Fn.LTC = true → s.get F.PWR_RAIL_STATUS_IO_LEVEL ≠ 3 →
      Answers .frmInPulse s (fun t => t.frm.pulses = s.frm.pulses + 1 ∧ t.tim.lastFrm = some s.tb ∧
        t.frm.ring.getLast? = some ⟨s.tb, (s.tcNow 1).addr, (s.tcNow 1).used, (s.tcNow 1).user, (s.tcNow 1).drop, s.frm.pulseSub⟩ ∧
        t.frm.ring.length ≤ 64 ∧ t.slots = s.slots ∧ t.frm.recs = s.frm.recs)) ∧
    (∀ id : Nat, s.rec? id = none → Answers (.frameDurable id) s (fun t => t = s)) ∧
    (∀ (id : Nat) (r : FrameRec), s.rec? id = some r →
      (s.recDurable r = false ∨ s.recNext r = false → Answers (.frameDurable id) s (fun t => t = s)) ∧
      (s.recDurable r = true → s.recNext r = true → s.mirroring = false → s.frm.waits = [] → s.frm.starts = [] → Answers (.frameDurable id) s (fun t =>
        t.frm.recs = s.frm.recs.filter (fun x => x.id ≠ id) ∧
        t.get F.FRAME_COUNTS_ENTRIES = min (s.get F.FRAME_COUNTS_ENTRIES + 1) (2 ^ 32 - 1) ∧ t.mode = s.mode))) ∧
    (s.frm.capHead = none → Answers .captureUnitFlush s (fun t => t = s)) ∧
    (∀ h : FrameRec, s.frm.capHead = some h → Answers .captureUnitFlush s (fun t => t = s.closeCapture)) ∧
    (∀ a b : PResult, sameFrame a b = sameFrame b a) ∧
    (∀ feed : Nat, ∀ a : PResult, a.crcCalc = a.crcTrl → arbOutcome feed a a = 0))

/-! ### The map, the journal and the map cache (chapter 10) -/

/-- R296 to R304, R309, R310, R319: replay runs once in Wake and ends with PHASE 1; a journal page that retires leaves the tail; a checkpoint takes
what the map holds when it begins; a partial slot is merged once; ways that were switched off are counted when their clean completes. -/
def Obligations.JournalAndCheckpoints : Prop :=
  ∀ s : State,
    (s.mode ≠ Md.WAKE ∨ s.map.replayed = true → ∀ bad : List Nat, Answers (.journalReplay bad) s (fun t => t = s)) ∧
    (s.mode = Md.WAKE → s.needsOk Fn.JOURNAL = true → s.map.replayed = false → s.led.sealing = none → ∀ bad : List Nat,
      Answers (.journalReplay bad) s (fun t => t = s.replay bad ∧ t.get F.MAP_STATUS_PHASE = 1 ∧ t.nv.sealRec = none)) ∧
    (s.map.tail = [] → Answers .journalPageRetire s (fun t => t = s)) ∧
    (s.ready Fn.JOURNAL = true → s.led.sealing = none → s.map.tail ≠ [] → Answers .journalPageRetire s (fun t => t = s.retirePage.afterPage)) ∧
    (s.retirePage.map.tail = s.map.tail.drop 1 ∧ s.retirePage.map.ts = s.map.ts ∧ s.retirePage.slots = s.slots) ∧
    (∀ who : Req, (s.dropHeld who).takes who Pg.MAP 0x140 →
      (s.ready Fn.JOURNAL = false ∨ s.get F.MAP_STATUS_CKPT_BUSY = 1 → Answers (.mapCkptGo who) s (fun t => t = s.dropHeld who)) ∧
      (s.ready Fn.JOURNAL = true → s.get F.MAP_STATUS_CKPT_BUSY = 0 → Answers (.mapCkptGo who) s (fun t =>
        t.map.ckptAt = some s.map.ts ∧ t.map.ts = s.map.ts ∧ t.get F.MAP_STATUS_CKPT_BUSY = 1 ∧ t.map.tail = s.map.tail ∧ t.nv = s.nv))) ∧
    (s.map.ckptAt = none → Answers .checkpointComplete s (fun t => t = s)) ∧
    (s.map.ckptAt ≠ none → s.led.sealing = none → Answers .checkpointComplete s (fun t => t = s.endCkpt.freeBandsNow) ∧
      s.endCkpt.map.ckptAt = none) ∧
    (∀ g : Nat, s.map.groups.find? g = none → Answers (.padTimeout g) s (fun t => t = s)) ∧
    (∀ (g : Nat) (x : Group), s.map.groups.find? g = some x → s.led.sealing = none → x.band = none → s.map.pages = [] →
      Answers (.padTimeout g) s (fun t => t = s.pump)) ∧
    (∀ seq : Nat, s.slot seq = none → Answers (.partialLeafMerge seq) s (fun t => t = s)) ∧
    (∀ (seq : Nat) (x : Slot), s.slot seq = some x →
      (x.mask = 0xFF → Answers (.partialLeafMerge seq) s (fun t => t = s)) ∧
      (x.mask ≠ 0xFF → x.lst = .durable → x.kind = .host ∨ x.kind = .frame → s.map.ts.map.find? x.key = none → Answers (.partialLeafMerge seq) s (fun t =>
        t = s.mapSlots (fun y => y.seq = seq) (fun y => mergeSlot y (s.olderData x (List.replicate 8 0))) ∧
        t.slots.length = s.slots.length))) ∧
    (∀ seg : Nat, s.map.resident.contains seg = true ∨ s.ready Fn.MAP_FULL = true → Answers (.segmentLoaded seg) s (fun t => t = s)) ∧
    (∀ seg : Nat, s.ready Fn.JOURNAL = true → s.ready Fn.MAP_FULL = false → s.map.ts.segments.contains seg = true → s.map.resident.contains seg = false →
      s.map.reads = [] → Answers (.segmentLoaded seg) s (fun t =>
        t = { s with map := { s.map with resident := s.map.resident ++ [seg], loads := s.map.loads.filter (· ≠ seg) } })) ∧
    (s.map.waysWait = none → Answers .waysChanged s (fun t => t = s)) ∧
    (∀ n : Nat, n < 32 → s.map.waysWait = some n → Answers .waysChanged s (fun t =>
      t.map.waysWait = none ∧ t.get F.MCACHE_STATUS_REENABLE_PENDING = 0 ∧
      (s.get F.MCACHE_STATUS_REENABLE_PENDING = 0 → t.get F.MCACHE_STATUS_WAYS_ON = n)))

/-! ### Flash, decoding and grooming (chapters 12 to 14) -/

/-- R355, R363, R366, R370 to R373: an operation that runs ends by what its channel reports: a page program retires or is placed again, an erase counts
for its block set either way, a read passes its codewords to the decoders, a time-out is counted; one that does not run is not touched.
A channel is FAILED by command in Service or at D2 only. -/
def Obligations.FlashOperationsEnd : Prop :=
  ∀ s : State,
    (∀ (op : Nat) (ok : Bool), (s.op op).all (fun o => decide (o.phase ≠ .running)) = true →
      Answers (.programRetire op ok) s (fun t => t = s) ∧ Answers (.eraseComplete op ok) s (fun t => t = s) ∧
      Answers (.flashReadComplete op) s (fun t => t = s) ∧ Answers (.flashOpTimeout op) s (fun t => t = s)) ∧
    (∀ (op : Nat) (o : FlashOp), s.op op = some o → o.phase = .running →
      (o.kind = .prog → Answers (.programRetire op false) s (fun t => t = s.progFail o)) ∧
      (o.kind = .prog → o.started ≤ s.tb → Answers (.programRetire op true) s (fun t =>
        let s1 := ((s.retireOp o).lunWorked o.chan o.lun).addSat (F.FCH_PROGS_COUNT o.chan) o.items.length
        t = (o.items.foldl State.retireItem (s1.set (F.FCH_LAT_MAX_PROG_US o.chan)
          (max (s1.get (F.FCH_LAT_MAX_PROG_US o.chan)) (min ((s.tb - o.started) / 250) 65535)))).pump.journaled)) ∧
      (o.kind = .read → Answers (.flashReadComplete op) s (fun t =>
        t = (((s.retireOp o).lunWorked o.chan o.lun).addSat (F.FCH_READS_COUNT o.chan) 1).sensed o.items)) ∧
      (o.kind = .erase → ∀ ok : Bool, Answers (.eraseComplete op ok) s (fun t => t = s.endErase o ok)) ∧
      Answers (.flashOpTimeout op) s (fun t => t = s.timeOut o)) ∧
    (∀ r : ChanFound, 64 ≤ r.chan ∨ s.startDiscovery.chanState r.chan ≠ 1 → Answers (.channelDiscoveryDone r) s (fun t => t = s)) ∧
    (∀ r : ChanFound, r.chan < 64 → s.startDiscovery.chanState r.chan = 1 → s.startDiscovery.found? r.chan = none →
      let s0 := s.startDiscovery
      Answers (.channelDiscoveryDone r) s (fun t => t = State.settleDiscovery { s0 with map := { s0.map with disc := s0.map.disc ++ [r] } })) ∧
    (∀ chan : Nat, 64 ≤ chan ∨ s.chanState chan ≠ 2 → Answers (.zqCalibration chan) s (fun t => t = s)) ∧
    (∀ chan : Nat, chan < 64 → s.chanState chan = 2 → s.ready Fn.BUDGET = true → s.led.sealing = none → s.get (F.FCH_TIMEOUT_ZQ_MS chan) ≠ 0 →
      (∀ l < 16, s.getPart (F.FCH_LUN_STATE_STATE chan) l 2 = 1 → s.atLun chan l ≠ []) → Answers (.zqCalibration chan) s (fun t => t = s)) ∧
    (∀ (who : Req) (chan : Nat), chan < 64 → (s.dropHeld who).blocked who (0x20 + chan) 0x010 = none →
      let s0 := s.dropHeld who
      (s0.mode ≠ Md.SERVICE → s0.dbgLevel ≠ 2 → Answers (.fchCtlFail who chan) s (fun t =>
        t = (s0.raise E.SYS_ACCESS_DENY).logAccess 2 true who (regAddr (0x20 + chan) 0x010) ∧ t.chanState chan = s.chanState chan)) ∧
      (s0.mode = Md.SERVICE → s0.chanState chan = 2 → Answers (.fchCtlFail who chan) s (fun t =>
        t = (s0.set (F.FCH_CTL_FAIL chan) 1).failChan chan)) ∧
      (s0.mode = Md.SERVICE → s0.chanState chan ≠ 2 → Answers (.fchCtlFail who chan) s (fun t =>
        OnlyFields [F.FCH_CTL_FAIL chan] s0 t)))

/-- R382 to R386, R384, R389, R394: a decoded codeword is counted; one that decodes with its mark and check right ends its escalation, one
that does not goes to the next step; the tracker returns a LUN to index 0 where that decodes no worse; the scrubber and the SRAM patrol.
R405 to R407, R410 to R416: a group opens the ERASED band with the least wear, group 35 the one with the most; without a free band a
host's group reports NO_SPACE and takes none. The next victim comes from the highest source, and the first of two must have been read
unless it is outranked. -/
def Obligations.DecodingScrubAndGrooming : Prop :=
  (∀ s : State,
    (∀ (n : Nat) (r : DecRes), s.esc? n = none ∨ s.ready Fn.LDPC = false → Answers (.codewordDecoded n r) s (fun t => t = s)) ∧
    (∀ (n : Nat) (r : DecRes) (e : Esc) (u : Machine.Unit), s.esc? n = some e → e.step = 1 → s.ready Fn.LDPC = true → s.unit e.ua = some u → r.markBad = false →
      let e1 := { e with best := s.escEntry e, unsat := r.unsat }
      let s1 := s.addSat F.ECC_CW_COUNT 1
      (r.erased = true → Answers (.codewordDecoded n r) s (fun t => t = (s1.unitRecord e1 7 0).toRecon e1)) ∧
      (r.erased = false → r.ok = false → Answers (.codewordDecoded n r) s (fun t => t = s1.nextStep e1)) ∧
      (r.erased = false → r.ok = true → r.wrong = none → Answers (.codewordDecoded n r) s (fun t =>
        t = (s1.addSat F.ECC_BITS_COUNT r.bits).judgeWord e1 r.bits u u.key u.data))) ∧
    (∀ rs : List TrackRes, s.ready Fn.SCRUB = false ∨ s.get F.SCRUB_CFG_TRACK_REFRESH_S = 0 ∨ s.get F.SCRUB_CTL_EN = 0 →
      Answers (.trackerRefresh rs) s (fun t => t = s)) ∧
    (∀ rs : List TrackRes, s.ready Fn.SCRUB = true → s.get F.SCRUB_CFG_TRACK_REFRESH_S ≠ 0 → s.get F.SCRUB_CTL_EN = 1 → s.led.sealing = none →
      Answers (.trackerRefresh rs) s (fun t => t = rs.foldl State.refreshTrack s)) ∧
    (∀ r : TrackRes, r.chan < 64 → r.lun < 16 → s.track r.chan r.lun ≠ 0 → s.chanState r.chan = 2 →
      s.getPart (F.FCH_LUN_STATE_STATE r.chan) r.lun 2 = 1 →
      (s.refreshTrack r).track r.chan r.lun = (if r.ok && decide (r.bits0 ≤ r.bits) then 0 else s.track r.chan r.lun)) ∧
    (s.ready Fn.SCRUB = false → Answers .scrubRead s (fun t => t = s)) ∧
    (s.ready Fn.SCRUB = true → s.get F.SCRUB_CTL_EN = 1 → s.led.sealing = none → s.mode ≠ Md.REST → s.mode ≠ Md.SEAL →
      (s.map.scrub = none → s.passBands = [] → s.tb < 2 ^ 64 → Answers .scrubRead s (fun t => t.map.scrub = none ∧ t.slots = s.slots ∧
        t.get F.SCRUB_LAST_PASS_SECONDS = 0 ∧ t.getBit (F.EVT_RAW Pg.SCRUB) E.SCRUB_PASS_DONE.bit = true)) ∧
      (∀ (p : Scrub) (b : Nat) (rest : List Nat), s.map.scrub = some p → p.bands = b :: rest → p.behind = true → p.page < 64 * s.bandStripes →
        s.validCount b ≠ 0 → s.planePage b p.page ≠ [] → Answers .scrubRead s (fun t =>
          let p' : Scrub := { p with page := p.page + 1, done := p.done + 1 }
          t = (State.showPass { s with map := { s.map with scrub := some p' } } p').scrubPage (s.planePage b p.page)))) ∧
    (∀ (ce clean : Nat) (dirty : Bool), s.isl 6 ≠ 2 ∨ s.ready Fn.MCACHE = false → Answers (.sramPatrol ce clean dirty) s (fun t => t = s)) ∧
    (∀ ce : Nat, s.isl 6 = 2 → s.ready Fn.MCACHE = true → Answers (.sramPatrol ce 0 false) s (fun t =>
      t.getPart F.ECC_SRAM_CE_COUNTS 1 16 = min (s.getPart F.ECC_SRAM_CE_COUNTS 1 16 + ce) 65535 ∧
      OnlyFields [F.ECC_SRAM_CE_COUNTS, F.ECC_SRAM_UE_COUNTS] s t))) ∧
  (∀ s : State,
    (∀ g : Nat, 36 ≤ g ∨ (s.group g).band ≠ none ∨ (s.group g).queue = [] ∨ s.ready Fn.JOURNAL = false → Answers (.bandOpen g) s (fun t => t = s)) ∧
    (∀ g : Nat, g < 36 → (s.group g).band = none → (s.group g).queue ≠ [] → s.ready Fn.JOURNAL = true → s.led.sealing = none →
      (s.ready Fn.MAP_FULL = false →
        (s.bootBands = [] → Answers (.bandOpen g) s (fun t => t = s.raise E.MAP_RESERVE_OUT)) ∧
        (∀ b, s.byWear (decide (g = 35)) s.bootBands = some b → Answers (.bandOpen g) s (fun t => t = s.openBand g b))) ∧
      (s.ready Fn.MAP_FULL = true → s.get F.MAP_CFG_RSV_BANDS ≤ s.bandsIn .bootRsv → s.ready Fn.GROOM = false →
        (g < 32 → s.freeBands < 1 → Answers (.bandOpen g) s (fun t => t = s.raise E.GROOM_NO_SPACE)) ∧
        (1 ≤ s.freeBands → ∀ b, s.byWear (decide (g = 35)) s.erasedBands = some b → Answers (.bandOpen g) s (fun t => t = s.openBand g b)))) ∧
    (∀ (bs : List Nat) (b : Nat), s.byWear false bs = some b → b ∈ bs ∧ ∀ x ∈ bs, s.wearOf b ≤ s.wearOf x) ∧
    (∀ (bs : List Nat) (b : Nat), s.byWear true bs = some b → b ∈ bs ∧ ∀ x ∈ bs, s.wearOf x ≤ s.wearOf b) ∧
    (∀ b : Nat, s.greedy = some b → (s.map.ts.bands.any (fun e => e.1 = b && e.2.state = .closed)) = true ∧ s.validCount b ≠ 0 ∧
      ∀ e ∈ s.map.ts.bands, e.2.state = .closed → s.validCount e.1 ≠ 0 → s.validCount b ≤ s.validCount e.1) ∧
    (s.ready Fn.GROOM = false ∨ s.mode = Md.SEAL ∨ s.mode = Md.REST → Answers .groomVictimSelect s (fun t => t = s)) ∧
    (s.ready Fn.GROOM = true → s.led.sealing = none → s.mode ≠ Md.SEAL → s.mode ≠ Md.REST →
      (s.dropVictims.nextVictim = none → Answers .groomVictimSelect s (fun t => t = s.dropVictims)) ∧
      (∀ v, s.dropVictims.nextVictim = some v → s.dropVictims.map.victims = [] → Answers .groomVictimSelect s (fun t => t = s.dropVictims.takeVictim v)) ∧
      (2 ≤ s.dropVictims.map.victims.length → Answers .groomVictimSelect s (fun t => t = s.dropVictims))) ∧
    (∀ g : Nat, g < 32 ∨ 36 ≤ g ∨ (s.group g).band = none → Answers (.groomIdleClose g) s (fun t => t = s)) ∧
    (∀ g b : Nat, 32 ≤ g → g < 36 → s.led.sealing = none → (s.group g).band = some b → Answers (.groomIdleClose g) s (fun t => t = s.idleClose g b)))

/-! ### DRAM (chapter 11) -/

/-- R328, R331 to R333, R339, R340, R346: a write within the data space is queued and leaves DRAM as it is; issued, it writes its bytes
and no other; a read is served with the queued writes that its client sees; an address at or beyond SIZE reads zeros and is recorded. R334
to R338, R344: a refresh window closes the rows of its channel; MR4 sets the rate of a rank; periodic training reports a nudge; an idle
row closes. Without DRAM nothing happens. -/
def Obligations.DramRequestsAndRefresh : Prop :=
  (∀ s : State, s.dramOn = true → s.memOk →
    (∀ (client addr : Nat) (data : List Nat) (poison : Bool), client ≤ 7 →
      (s.dramSize ≤ addr → Answers (.dramWrite client addr data poison) s (fun t => t = s.badAddr client addr)) ∧
      (addr < s.dramSize → s.dram.waiting = [] → s.queueRoom ⟨s.dram.nextW, client, s.forwards client, addr, data, poison⟩ = true →
        Answers (.dramWrite client addr data poison) s (fun t => t.dram.mem = s.dram.mem ∧ t.dram.poison = s.dram.poison ∧ t.dram.waiting = [] ∧
          t.dram.queue = s.dram.queue ++ [⟨s.dram.nextW, client, s.forwards client, addr, data.take (64 - addr % 64), poison⟩]))) ∧
    (∀ n : Nat, s.dram.queue.find? (fun w => w.n = n) = none → Answers (.dramWriteIssued n) s (fun t => t = s)) ∧
    (∀ (n : Nat) (w : DramWrite), s.dram.queue.find? (fun w => w.n = n) = some w →
      (s.mayIssue w = false → Answers (.dramWriteIssued n) s (fun t => t = s)) ∧
      (s.mayIssue w = true → Answers (.dramWriteIssued n) s (fun t =>
        (∀ a, a < w.addr ∨ w.addr + w.data.length ≤ a → t.dram.mem.read a = s.dram.mem.read a) ∧
        (∀ i < w.data.length, t.dram.mem.read (w.addr + i) = w.data.getD i 0 % 256) ∧ t.slots = s.slots ∧ t.nv = s.nv))) ∧
    (∀ client addr n err : Nat, client ≤ 7 →
      (s.dramSize ≤ addr → Answers (.dramRead client addr n err) s (fun t => t.dram.rdata = List.replicate n 0 ∧ t.dram.mem = s.dram.mem ∧
        t.get F.DRAMC_LAST_ERR_KIND = 3 ∧ t.get F.DRAMC_LAST_ERR_CLIENT = client ∧ t.get F.DRAMC_LAST_ERR_ADDR = addr % 2 ^ 40)) ∧
      (addr < s.dramSize → err = 0 → s.chunkPoison client addr = false → Answers (.dramRead client addr n err) s (fun t =>
        t.dram.rdata = s.chunkBytes client addr n ∧ t.dram.rpoison = false ∧ t.dram.mem = s.dram.mem ∧ t.dram.queue = s.dram.queue ∧
        (s.visibleWrites client addr ≠ [] → t.get F.DRAMC_FWD_COUNT = (s.get F.DRAMC_FWD_COUNT + 1) % 2 ^ 64 ∧
          t.get F.DRAMC_TRAFFIC_BYTES_64 = s.get F.DRAMC_TRAFFIC_BYTES_64) ∧
        (s.visibleWrites client addr = [] → t.get F.DRAMC_TRAFFIC_BYTES_64 = (s.get F.DRAMC_TRAFFIC_BYTES_64 + 1) % 2 ^ 64)))) ∧
    (s.mode ≠ Md.SEAL → s.mode ≠ Md.REST → s.dram.sweep < s.dramRegions → Answers .dramInitSweep s (fun t =>
      s.dram.sweep + 1 ≤ t.dram.sweep ∧ t.dramInited s.dram.sweep = true ∧ t.dram.mem = s.dram.mem)) ∧
    (s.patrols = true → 0 < s.dramSize → s.dram.patrol + 64 < s.dramSize → s.chunkPoison 7 s.dram.patrol = false → Answers (.dramPatrol 0) s (fun t =>
      t.dram.patrol = s.dram.patrol + 64 ∧ t.dram.rdata = s.dram.rdata ∧ t.dram.mem = s.dram.mem))) ∧
  (∀ s : State,
    (s.dramOn = false → (∀ c : Nat, Answers (.dramRefreshWindow c) s (fun t => t = s)) ∧ (∀ rs : List Nat, Answers (.mr4Poll rs) s (fun t => t = s)) ∧
      (∀ c d : Nat, Answers (.periodicTraining c d) s (fun t => t = s)) ∧ Answers .dramInitSweep s (fun t => t = s) ∧
      (∀ e : Nat, Answers (.dramPatrol e) s (fun t => t = s)) ∧ (∀ c a n e : Nat, Answers (.dramRead c a n e) s (fun t => t = s)) ∧
      (∀ (c a : Nat) (d : List Nat) (p : Bool), Answers (.dramWrite c a d p) s (fun t => t = s))) ∧
    (s.dramOn = true → s.mixed Pg.DRAMC = false → ∀ c : Nat, Answers (.dramRefreshWindow c) s (fun t =>
      t = { s with dram := { s.dram with rows := t.dram.rows, win := [] } } ∧ t.dram.rows = s.dram.rows.filter (fun x => x.1 ≠ c))) ∧
    (s.dramOn = true → ∀ r : Nat,
      (r ≤ 2 → Answers (.mr4Poll [r]) s (fun t => t.getPart F.DRAMC_TEMP_RATE 0 2 = r ∧ OnlyFields [F.DRAMC_TEMP_RATE] s t)) ∧
      (3 ≤ r → Answers (.mr4Poll [r]) s (fun t => t.getPart F.DRAMC_TEMP_RATE 0 2 = 2 ∧
        t.get F.DRAMC_TEMP_HIGH_COUNT = min (s.get F.DRAMC_TEMP_HIGH_COUNT + 1) 65535 ∧ t.getBit (F.EVT_RAW Pg.DRAMC) E.DRAMC_TEMP_HIGH.bit = true))) ∧
    (s.dramOn = true → s.mode ≠ Md.SEAL → s.get F.DRAMC_REFRESH_RETRAIN_MS ≠ 0 → ∀ c d : Nat, c < s.dramChans → Answers (.periodicTraining c d) s (fun t =>
      t = s.raiseIf (decide (s.get F.DRAMC_REFRESH_DRIFT_PS < d)) E.DRAMC_RETRAIN)) ∧
    (∀ c b : Nat, Answers (.pageIdleTimeout c b) s (fun t => t = { s with dram := { s.dram with rows := t.dram.rows } } ∧
      ∀ x, x ∈ t.dram.rows ↔ x ∈ s.dram.rows ∧ ¬ (x.1 = c ∧ x.2.1 = b))))

/-- R331: a FORWARD client's write that has been accepted is what every later read of its bytes returns, by any client, before it is in DRAM. -/
def Obligations.ForwardWritesAreVisible : Prop :=
  ∀ (s t u : State) (client reader addr : Nat) (data : List Nat), s.dramOn = true → s.memOk → client ≤ 7 → reader ≤ 7 → addr < s.dramSize →
    s.forwards client = true → s.dram.waiting = [] → s.queueRoom ⟨s.dram.nextW, client, true, addr, data, false⟩ = true →
    data.length ≤ 64 - addr % 64 → exec (.dramWrite client addr data false) s = .next t →
    t.chunkPoison reader addr = false → exec (.dramRead reader addr data.length 0) t = .next u → u.dram.rdata = data.map (· % 256)

/-! ### Mirrored pairs (chapter 15) -/

/-- R431, R433, R434: a frame of the pair link is accepted only in sequence and with a good CRC, and acknowledged; any other is discarded with one NAK; a
NAK or 2 µs without progress sends what is unacknowledged again; credit is the limit less what was used; TRAIN takes this side down. -/
def Obligations.PairLinkFrames : Prop :=
  ∀ s : State,
    (s.pairUp = true → s.get (F.FI_CFG_TARGET 1) = 0 → s.pair.rxSeq.length = 3 → ∀ v seq units : Nat, v < 3 →
      (seq % 65536 = s.pair.rxSeq.getD v 0 → Answers (.pairLinkFrame v seq units true) s (fun t =>
        t.pair.rxSeq.getD v 0 = (seq + 1) % 65536 ∧ PairMsg.linkAck v (seq % 65536) false ∈ t.pair.sent ∧ t.slots = s.slots ∧
        (v = 0 → t.get (F.PAIR_CREDIT_RX_BUF 0) = (s.get (F.PAIR_CREDIT_RX_BUF 0) + units) % 2 ^ 16) ∧
        t.get F.PAIR_LINKERR_NAKS = s.get F.PAIR_LINKERR_NAKS)) ∧
      (∀ ok : Bool, ok = false ∨ seq % 65536 ≠ s.pair.rxSeq.getD v 0 → Answers (.pairLinkFrame v seq units ok) s (fun t =>
        t.pair.rxSeq = s.pair.rxSeq ∧ t.pair.sent.getLast? = some (.linkAck v (s.pair.rxSeq.getD v 0) true) ∧ t.slots = s.slots ∧
        t.get F.PAIR_LINKERR_NAKS = min (s.get F.PAIR_LINKERR_NAKS + 1) 65535 ∧
        (ok = false → t.get F.PAIR_LINKERR_CRC_ERR = min (s.get F.PAIR_LINKERR_CRC_ERR + 1) 65535)))) ∧
    (s.pairUp = true → ∀ v : Nat, v < 3 →
      (s.get F.PAIR_STATUS_FSTATE ≠ 3 → v ≠ 1 → ∀ seq : Nat, Answers (.linkack v seq false) s (fun t =>
        t = { s with pair := { s.pair with unacked := t.pair.unacked } } ∧
        t.pair.unacked = s.pair.unacked.filter (fun f => f.1 ≠ v || !(f.2.1 = seq % 65536 || seqBefore 16 f.2.1 (seq % 65536))))) ∧
      (s.get F.PAIR_STATUS_FSTATE ≠ 3 → v ≠ 1 → ∀ seq : Nat, Answers (.linkack v seq true) s (fun t =>
        t = ((s.ackFrames v ((seq + 65535) % 65536)).resendAll v).pairStopCheck)) ∧
      Answers (.pairResendTimeout v) s (fun t => t = s.resendAll v) ∧
      (s.pair.txq = [] → ∀ limit : Nat, Answers (.credit v limit) s (fun t =>
        t.get (F.PAIR_CREDIT_AVAIL v) = (limit + 2 ^ 24 - s.pair.used.getD v 0 % 2 ^ 24) % 2 ^ 24 % 2 ^ 16 ∧ OnlyFields [F.PAIR_CREDIT_AVAIL v] s t))) ∧
    (∀ v : Nat, (∀ f ∈ s.pair.unacked, f.1 ≠ v) → s.resendAll v = s) ∧
    (s.pairUp = true → s.get F.PAIR_STATUS_FSTATE ≠ 3 → ∀ reason : Nat, reason < 256 → Answers (.train reason) s (fun t =>
      t = s.takeDown none ∧ t.get F.PAIR_STATUS_ALIGNED = 0 ∧ t.get F.PAIR_LINKERR_TRAINS = min (s.get F.PAIR_LINKERR_TRAINS + 1) 65535 ∧
      t.ready Fn.PAIR_LINK = false ∧ t.pair.unacked = [] ∧ t.slots = s.slots)) ∧
    (s.pairUp = false → ∀ v n : Nat, ∀ b : Bool, Answers (.linkack v n b) s (fun t => t = s) ∧ Answers (.pairResendTimeout v) s (fun t => t = s) ∧
      Answers (.credit v n) s (fun t => t = s) ∧ Answers (.train n) s (fun t => t = s))

/-- R435, R445, R446, R448: roles, beats and losses. The lead is the half that alone holds the token, else the half that alone is divergent, else rank 0.
A beat is counted; losses are declared at a Seal or LEAVE of the peer, at a detach and after a stall, and take the pair to SOLO. -/
def Obligations.PairRolesAndLoss : Prop :=
  ∀ s : State,
    (s.pair.token ≠ s.pair.peerTok → s.leadRule = s.pair.token) ∧
    (s.pair.token = s.pair.peerTok → s.divergent ≠ s.pair.peerDiv → s.leadRule = s.divergent) ∧
    (s.pair.token = s.pair.peerTok → s.divergent = s.pair.peerDiv → s.leadRule = decide (s.get F.SYS_STRAPS_PAIR_RANK = 0)) ∧
    (∀ c : Nat, s.pair.pstate < 2 → s.pairLoss c = s) ∧
    (∀ c : Nat, 2 ≤ s.pair.pstate → s.pair.relays = [] → s.pair.held = [] → (∀ x ∈ s.slots, x.lst ≠ .mirror) → s.host.cmds = [] →
      (s.pairLoss c).pair.pstate = 2 ∧ (s.pairLoss c).pair.lossCause = c ∧ (s.pairLoss c).pair.failovers = s.pair.failovers + 1 ∧
      (s.pairLoss c).get F.PAIR_FAILOVER_LAST_NS ≤ 2000 ∧ (s.pairLoss c).pair.lead = true) ∧
    (s.pairUp = true →
      (∀ b : BeatMsg, s.pair.pstate ≠ 3 → b.pstate ≠ 5 → b.token = s.pair.peerTok → Answers (.beat b) s (fun t =>
        t.get F.PAIR_BEAT_RECEIVED = min (s.get F.PAIR_BEAT_RECEIVED + 1) (2 ^ 32 - 1) ∧ t.pair.beatSeen = true ∧ t.pair.peerWord = beatWord b ∧
        t.pair.token = s.pair.token ∧ t.pair.lead = s.pair.lead ∧ t.pair.pstate = s.pair.pstate ∧
        OnlyFields [F.PAIR_BEAT_RECEIVED, F.PAIR_TB_OFS_TICKS] { s with pair := t.pair } t)) ∧
      Answers .peerSeal s (fun t => t = (s.raise E.PAIR_PEER_SEAL).pairLoss 2) ∧
      Answers (.leave false) s (fun t => t = s.pairLoss 3) ∧
      Answers (.leave true) s (fun t => t = (((s.release (fun _ => true)).releaseHeld true).mirrorEnds 0).pairLinkDown
        (if s.get F.PAIR_CTL_EN = 1 then 1 else 0))) ∧
    (s.pairUp = false → (∀ b : BeatMsg, Answers (.beat b) s (fun t => t = s)) ∧ Answers .peerSeal s (fun t => t = s) ∧
      (∀ b : Bool, Answers (.leave b) s (fun t => t = s))) ∧
    (s.mirroring = true → s.slots.any (fun x => x.lst = .mirror) = true →
      Answers .mirrorStallTimeout s (fun t => t = s.pairLoss 5) ∧ Answers .pairStallWarning s (fun t => t = s.raise E.PAIR_STALL)) ∧
    (s.slots.any (fun x => x.lst = .mirror) = false →
      Answers .mirrorStallTimeout s (fun t => t = s) ∧ Answers .pairStallWarning s (fun t => t = s)) ∧
    (s.isl 4 ≠ 2 → Answers .prDetNHigh s (fun t => t = { s with pins := { s.pins with peerFitted := false } })) ∧
    (s.isl 4 = 2 → s.pair.pstate = 0 → s.get F.PAIR_CTL_EN = 1 → s.get F.PAIR_STATUS_ALIGNED = 0 → s.get F.PAIR_STATUS_FSTATE ≠ 3 →
      Answers .prDetNHigh s (fun t => t.pair.pstate = 1 ∧ t.get F.PAIR_STATUS_FSTATE = 0 ∧ t.pins.peerFitted = false ∧ t.slots = s.slots)) ∧
    (s.pair.pstate ≠ 1 → Answers .prDetNLow s (fun t => t = State.startPair { s with pins := { s.pins with peerFitted := true } })) ∧
    (∀ (who : Req) (en : Bool), (s.dropHeld who).takes who Pg.PAIR 0x010 →
      let s0 := s.dropHeld who
      (s.get F.PAIR_STATUS_FSTATE = 3 → Answers (.pairCtlEn who en) s (fun t => t.get F.PAIR_CTL_EN = b2n en ∧
        t.get F.PAIR_STATUS_REENABLE_PENDING = b2n en ∧ OnlyFields [F.PAIR_CTL_EN, F.PAIR_STATUS_REENABLE_PENDING] s0 t)) ∧
      (s.get F.PAIR_STATUS_FSTATE = 2 → Answers (.pairCtlEn who true) s (fun t => t = s0.set F.PAIR_CTL_EN 1)) ∧
      (s.get F.PAIR_STATUS_FSTATE = 2 → s.pair.relays = [] → Answers (.pairCtlEn who false) s (fun t =>
        t = (State.set ((s0.set F.PAIR_CTL_EN 0).pairLeave false 0) F.PAIR_STATUS_FSTATE 3).pairStopCheck)) ∧
      (s.get F.PAIR_STATUS_FSTATE = 0 → Answers (.pairCtlEn who true) s (fun t => t = (s0.set F.PAIR_CTL_EN 1).startPair)))

/-- R436, R438, R439, R442 to R444, R449, R450, R452: the messages of the pair. The follow asks its own ledger for a mirrored slot and applies records in
order; the lead's slot becomes durable at HELD; relayed commands run on the lead once the follow has; convergence sends segments in order; Pair Control. -/
def Obligations.PairMessages : Prop :=
  ∀ s : State,
    (s.pairUp = false → (∀ m : SlotMsg, Answers (.slot m) s (fun t => t = s)) ∧ (∀ (h : HeldMsg) (n : Nat), Answers (.held h n) s (fun t => t = s)) ∧
      (∀ (n : Nat) (r : LRec), Answers (.record n r) s (fun t => t = s)) ∧ (∀ n : Nat, Answers (.recAck n) s (fun t => t = s)) ∧
      (∀ r : PResult, Answers (.result r) s (fun t => t = s)) ∧ (∀ (g : Nat) (ks : List Nat), Answers (.shape g ks) s (fun t => t = s)) ∧
      (∀ (n c : Nat) (a : List Nat), Answers (.relay n c a) s (fun t => t = s)) ∧ Answers .snapreq s (fun t => t = s) ∧
      Answers .convergenceCopy s (fun t => t = s)) ∧
    (s.pairUp = true →
      (∀ m : SlotMsg, s.fi.pairHit = false → s.follows = true → m.kind = 1 ∨ m.kind = 2 → Answers (.slot m) s (fun t =>
        let x : Slot := {
          seq := 0, lst := .filling, kind := if m.kind = 2 then .frame else .host, owner := .peer (s.pair.inN + 1), charge := 0
          stream := m.stream % 256, nsid := keyNs m.key, key := m.key, mask := if bit m.flags 0 then m.mask % 256 else 0xFF
          data := (List.range 8).map (fun k => m.data.getD k 0) }
        t = State.request { s with pair := { s.pair with inN := s.pair.inN + 1, inbox := s.pair.inbox ++ [(s.pair.inN + 1, m)] } }
          (SlotReq.mk' .pair 0 0 [x]))) ∧
      (∀ m : SlotMsg, s.fi.pairHit = false → s.leads = true → m.kind ≠ 3 → Answers (.slot m) s (fun t => t = s.returnUnits 0 65)) ∧
      (∀ n ns : Nat, s.mirroring = true → s.slots.any (fun x => x.seq = n && x.lst = .mirror) = true → Answers (.held (.slot n) ns) s (fun t =>
        t = (s.set F.PAIR_ACK_LAT_MAX_NS (max (s.get F.PAIR_ACK_LAT_MAX_NS) (min ns 65535))).release (fun x => x.seq = n))) ∧
      (∀ (seq : Nat) (r : LRec), s.follows = true → seq = s.pair.recNext + 1 → Answers (.record seq r) s (fun t =>
        t = ((State.applyRecord { s with pair := { s.pair with recNext := seq } } r).pairSend (.recAck seq)).convergeCheck)) ∧
      (∀ (seq : Nat) (r : LRec), seq ≠ s.pair.recNext + 1 → Answers (.record seq r) s (fun t => t = s)) ∧
      (∀ seq : Nat, s.pair.recAcked < seq → seq ≤ s.pair.recSeq → s.pair.held = [] → Answers (.recAck seq) s (fun t =>
        t = { s with pair := { s.pair with recAcked := seq } })) ∧
      (∀ r : PResult, s.mirroring = true → Answers (.result r) s (fun t =>
        t = (State.closedBoth { s with pair := { s.pair with theirs := s.pair.theirs ++ [r] } }).matchResults)) ∧
      (∀ (g : Nat) (ks : List Nat), s.pair.pstate ≠ 3 ∨ s.pair.target = false → Answers (.shape g ks) s (fun t => t = s)) ∧
      (∀ (g : Nat) (ks : List Nat), s.pair.pstate = 3 → s.pair.target = true → s.map.ts.map = [] → Answers (.shape g ks) s (fun t =>
        t = State.convergeCheck { s with pair := { s.pair with
          left := sortNat (g :: s.pair.left)
          shapes := s.pair.shapes.filter (fun x => x.1 ≠ g) ++ [(g, ks.filter (fun k =>
            !s.slots.any (fun x => x.key = k) && !s.pair.inbox.any (fun x => x.2.key = k)))] } })) ∧
      (∀ (n c : Nat) (a : List Nat), s.follows = true → c ≠ RL_MODE → Answers (.relay n c a) s (fun t =>
        t = s.judge ⟨.relay, n⟩ (s.relayChecks c a) (fun s => s.runHere ⟨.relay, n⟩ c a))) ∧
      (∀ n sct sc : Nat, s.pair.relays.find? (fun r => r.n = n) = none → Answers (.relayDone n sct sc) s (fun t => t = s)) ∧
      (∀ (n : Nat) (r : Relayed), s.pair.relays.find? (fun r => r.n = n) = some r →
        let s1 : State := { s with pair := { s.pair with relays := s.pair.relays.filter (fun x => x.n ≠ n) } }
        Answers (.relayDone n 0 0) s (fun t => t = s1.runHere r.id r.cmd r.args) ∧
        (∀ sct sc : Nat, sct ≠ 0 ∨ sc ≠ 0 → r.cmd ≠ RL_MODE → Answers (.relayDone n sct sc) s (fun t => t = s1.complete r.id sct sc true 0 0 []))) ∧
      (s.get F.SNAP_CFG_PEER_IN = 1 → Answers .snapreq s (fun t => t = s.snapshot 3)) ∧
      (s.get F.SNAP_CFG_PEER_IN = 0 → Answers .snapreq s (fun t => t = s)) ∧
      (s.leads = true → s.pair.pstate = 3 → s.pair.converging = true → s.mode = Md.IDLE ∨ s.mode = Md.GROOM →
        (s.pair.left = [] → Answers .convergenceCopy s (fun t =>
          let s1 := s.pair.takesLeft.foldl State.sendTake s
          t = { s1 with pair := { s1.pair with takesLeft := [] } })) ∧
        (∀ (seg : Nat) (rest : List Nat), s.pair.left = seg :: rest → s.slots.any (fun x => keySeg x.key = seg) = true →
          Answers .convergenceCopy s (fun t => t = s)))) ∧
    (∀ (i : Ident) (ls : List AlignBlk), s.isl 4 ≠ 2 ∨ s.pins.peerFitted = false ∨ s.get F.PAIR_STATUS_FSTATE = 0 ∨ s.get F.PAIR_STATUS_FSTATE = 3 →
      Answers (.ident i ls) s (fun t => t = s)) ∧
    (∀ (i : Ident) (ls : List AlignBlk), s.isl 4 = 2 → s.pins.peerFitted = true → s.get F.PAIR_STATUS_FSTATE = 2 → s.pair.identOut = true →
      s.needsOk Fn.PAIR_LINK = true → s.getBit F.SYS_FUNC_FAULT_FAULT Fn.PAIR_LINK = false → Answers (.ident i ls) s (fun t =>
        t = (s.setReady Fn.PAIR_LINK).judgePair i)) ∧
    (∀ i : Ident, s.get F.PAIR_CFG_FEED ≠ i.feed → (s.judgePair i).pair.pstate = 6) ∧
    (∀ id : Cid, s.fetches id → id.src = .host 0 →
      let s0 := s.atFetch id
      (s0.ready Fn.PAIR_LINK = false → Answers (.pairControl id 0 false) s (fun t => t = s0.vendor id 0x89 0)) ∧
      (s0.ready Fn.PAIR_LINK = true → Answers (.pairControl id 0 false) s (fun t => t = s0.ok id s0.pairWord 0 []) ∧
        (s0.mode = Md.IDLE → s0.mirroring = false → Answers (.pairControl id 1 false) s (fun t =>
          let s1 : State := { s0 with pair := { s0.pair with token := true, peerTok := false } }
          t = s1.ok id s1.pairWord 0 []))))

/-! ### Dock offload (chapter 16) -/

/-- R457 to R459: a port comes up with its lock and goes down with it; PAUSE is counted and obeyed where PAUSE_RX is set; requests for an address of
the port's own are answered and others are not. -/
def Obligations.EthernetPorts : Prop :=
  ∀ (s : State) (p : Nat), p < 2 →
    (∀ (who : Req) (en : Bool), (s.dropHeld who).takes who (Pg.NET0 + p) 0x010 →
      let s0 := s.dropHeld who
      (s.get (F.NET_STATUS_FSTATE p) = 2 → Answers (.netCtlEn who p true) s (fun t => t = s0.set (F.NET_CTL_EN p) 1)) ∧
      (s.get (F.NET_STATUS_FSTATE p) = 2 → Answers (.netCtlEn who p false) s (fun t => t = (s0.set (F.NET_CTL_EN p) 0).stopNet p)) ∧
      (s.get (F.NET_STATUS_FSTATE p) = 0 → Answers (.netCtlEn who p en) s (fun t => t = (s0.set (F.NET_CTL_EN p) (b2n en)).startNet p))) ∧
    (s.get (F.NET_STATUS_FSTATE p) = 0 ∨ s.get (F.NET_STATUS_LINK p) = 1 ∨ s.isl 5 ≠ 2 → Answers (.linkUp p) s (fun t => t = s)) ∧
    (s.isl 5 = 2 → s.get (F.NET_STATUS_FSTATE p) = 1 → s.get (F.NET_STATUS_LINK p) = 0 → s.get (F.NET_CTL_EN p) = 1 → Answers (.linkUp p) s (fun t =>
      t.get (F.NET_STATUS_FSTATE p) = 2 ∧ t.get (F.NET_STATUS_LINK p) = 1 ∧
      t.get (F.NET_STATUS_FEC_LOCK p) = b2n (s.get (F.NET_CFG_FEC p) = 1 && s.get (F.NET_CFG_SPEED p) = 0) ∧
      t.getBit (F.EVT_RAW (Pg.NET0 + p)) (E.NET_LINK_UP p).bit = true ∧ t.slots = s.slots)) ∧
    Answers (.linkDown p) s (fun t => t = s.netLinkDown p ∧ t.get (F.NET_STATUS_LINK p) = 0 ∧
      (s.get (F.NET_STATUS_LINK p) = 0 → t = s)) ∧
    (∀ addr : Nat, s.get (F.NET_STATUS_LINK p) = 0 ∨ s.get (F.NET_IPV4_DHCP p) = 0 → Answers (.dhcpBound p addr) s (fun t => t = s)) ∧
    (∀ addr : Nat, s.get (F.NET_STATUS_LINK p) = 1 → s.get (F.NET_IPV4_DHCP p) = 1 → Answers (.dhcpBound p addr) s (fun t =>
      t.get (F.NET_IPV4_LEASE_ADDR p) = addr % 2 ^ 32 ∧ t.getBit (F.EVT_RAW (Pg.NET0 + p)) (E.NET_DHCP_BOUND p).bit = true ∧ t.slots = s.slots)) ∧
    Answers (.pauseTimeExpired p) s (fun t => OnlyFields [F.NET_STATUS_PAUSED p] s t ∧ t.get (F.NET_STATUS_PAUSED p) = 0) ∧
    (s.framesPass p →
      (∀ q : Nat, Answers (.pauseFrame p q) s (fun t => t.get (F.NET_PAUSE_COUNT p) = min (s.get (F.NET_PAUSE_COUNT p) + 1) (2 ^ 32 - 1) ∧
        (s.get (F.NET_CFG_PAUSE_RX p) = 1 → t.get (F.NET_STATUS_PAUSED p) = b2n (q ≠ 0)) ∧
        (s.get (F.NET_CFG_PAUSE_RX p) = 0 → t.get (F.NET_STATUS_PAUSED p) = s.get (F.NET_STATUS_PAUSED p)) ∧
        OnlyFields [F.NET_PAUSE_COUNT p, F.NET_STATUS_PAUSED p, F.NET_RX_BYTES_COUNT p] s t)) ∧
      (∀ (addr : Nat) (v6 : Bool),
        (s.ownAddr p addr v6 = true → Answers (.addressResolutionRequest p addr v6) s (fun t => t.net.sent = s.net.sent ++ [.resolved p addr v6])) ∧
        (s.ownAddr p addr v6 = false → Answers (.addressResolutionRequest p addr v6) s (fun t => t.net = s.net)) ∧
        (s.ownAddr p addr v6 = true → ∀ d : List Nat, Answers (.icmpEchoRequest p addr v6 d) s (fun t =>
          t.net.sent = s.net.sent ++ [.echoed p addr v6 d])) ∧
        (s.ownAddr p addr v6 = false → ∀ d : List Nat, Answers (.icmpEchoRequest p addr v6 d) s (fun t => t.net = s.net)))) ∧
    (s.get (F.NET_STATUS_LINK p) = 0 → ∀ (a : Nat) (v6 : Bool) (d : List Nat), Answers (.pauseFrame p a) s (fun t => t = s) ∧
      Answers (.addressResolutionRequest p a v6) s (fun t => t = s) ∧ Answers (.icmpEchoRequest p a v6 d) s (fun t => t = s))

/-- R460, R463 to R465, R479, R484: connections of the target. The 33rd, or one to another port, is refused and counted; a connection has its ICReq and
its Connect; a controller of a kind beyond four is refused; digest errors are counted; closing. -/
def Obligations.DockConnections : Prop :=
  ∀ s : State,
    (∀ (p addr dport : Nat) (v6 : Bool), p < 2 →
      (s.get (F.NET_STATUS_LINK p) = 0 ∨ s.ownAddr p addr v6 = false → Answers (.tcpConnectionRequest p addr v6 dport) s (fun t => t = s)) ∧
      (s.framesPass p → s.hasAddr p = true → s.ownAddr p addr v6 = true →
        (32 ≤ s.net.conns.length ∨ (dport ≠ s.get F.NVTCP_CFG_IO_PORT ∧ dport ≠ s.get F.NVTCP_CFG_DISC_PORT) →
          Answers (.tcpConnectionRequest p addr v6 dport) s (fun t => t.net.conns = s.net.conns ∧ t.net.sent = s.net.sent ++ [.rst p none] ∧
            t.get F.NVTCP_CONN_REFUSED = min (s.get F.NVTCP_CONN_REFUSED + 1) (2 ^ 32 - 1) ∧ t.get F.NVTCP_CONN_ACCEPTED = s.get F.NVTCP_CONN_ACCEPTED)) ∧
        (s.net.conns.length < 32 → dport = s.get F.NVTCP_CFG_IO_PORT ∨ dport = s.get F.NVTCP_CFG_DISC_PORT → s.ready Fn.NVTCP = true →
          s.dockMode = true → Answers (.tcpConnectionRequest p addr v6 dport) s (fun t =>
            t.net.conns.find? s.net.nextConn = some ⟨p, dport = s.get F.NVTCP_CFG_DISC_PORT, none, none, 0, 0⟩ ∧ t.mode = s.mode ∧
            t.get F.NVTCP_CONN_ACCEPTED = min (s.get F.NVTCP_CONN_ACCEPTED + 1) (2 ^ 32 - 1))))) ∧
    (∀ conn : Nat, s.net.conns.find? conn = none →
      Answers (.tcpConnectionClose conn) s (fun t => t = s) ∧ (∀ h d : Bool, Answers (.icreq conn h d) s (fun t => t = s)) ∧
      (∀ cid q z c h k : Nat, Answers (.connect ⟨.dock conn, cid⟩ q z c h k) s (fun t => t = s))) ∧
    (∀ (conn : Nat) (c : Conn), s.net.conns.find? conn = some c →
      Answers (.tcpConnectionClose conn) s (fun t => t = ((s.tcpRx c.port).closeConn conn).offloadCheck) ∧
      (c.port < 2 → s.framesPass c.port → c.ic = none → ∀ h d : Bool, Answers (.icreq conn h d) s (fun t =>
        let h' := h && s.get F.NVTCP_CFG_HDGST_OK = 1
        let d' := d && s.get F.NVTCP_CFG_DDGST_OK = 1
        t.net.conns.find? conn = some { c with ic := some (h', d') } ∧ t.net.sent = s.net.sent ++ [.icResp conn h' d'])) ∧
      (∀ cid qid sqsize cntlid host kato : Nat,
        let id : Cid := ⟨.dock conn, cid⟩
        let s1 := s.tcpRx c.port
        (c.ic = none → Answers (.connect id qid sqsize cntlid host kato) s (fun t => t = s1.termConn conn)) ∧
        (c.ic ≠ none → c.ctrl = none → s1.ready Fn.NVTCP = true → s1.dockMode = true →
          (s1.get F.NVTCP_STATUS_CLOSING = 1 → Answers (.connect id qid sqsize cntlid host kato) s (fun t => t = s1.fail id 1 0x81)) ∧
          (s1.get F.NVTCP_STATUS_CLOSING = 0 → qid = 0 → 1 ≤ sqsize → sqsize ≤ 31 → cntlid = 0xFFFF →
            (∀ k, (ctrlIds c.disc).find? (fun k => (s1.net.ctrls.find? k).isNone) = some k →
              Answers (.connect id 0 sqsize 0xFFFF host kato) s (fun t => t = (State.ok { s1 with net := { s1.net with
                ctrls := s1.net.ctrls.put k ⟨c.disc, host, 0, 0, kato, [], [], [], 0⟩
                conns := s1.net.conns.put conn { c with ctrl := some k, qid := 0, qsize := sqsize } } } id k 0 []).enterOffload)) ∧
            ((ctrlIds c.disc).all (fun k => (s1.net.ctrls.find? k).isSome) = true →
              Answers (.connect id 0 sqsize 0xFFFF host kato) s (fun t => t = s1.fail id 1 0x81)))))) ∧
    (s.mode = Md.IDLE → s.inTransition = false → s.enterOffload = s.beginTrans Md.OFFLOAD 0x0A) ∧ (s.mode ≠ Md.IDLE → s.enterOffload = s) ∧
    (∀ (id : Cid) (p k : Nat) (c : Ctrl), s.propCtrl id = some (p, k, c) →
      Answers (.propertyGet id 0x14 false) s (fun t => t = (s.tcpRx p).ok id c.cc 0 []) ∧
      Answers (.propertyGet id 0x1C false) s (fun t => t = (s.tcpRx p).ok id (b2n (bit c.cc 0) + 4 * c.shst) 0 []) ∧
      (∀ ofst v : Nat, ofst ≠ 0x14 → Answers (.propertySet id ofst false v) s (fun t => t = (s.tcpRx p).fail id 0 0x02)) ∧
      (∀ v : Nat, bit c.cc 0 = false → (s.tcpRx p).net.ctrls.find? k = some c → Answers (.propertySet id 0x14 false v) s (fun t =>
        t = ((s.tcpRx p).putCtrl k { c with cc := v % 2 ^ 32, shst := if bits (v % 2 ^ 32) 14 2 ≠ 0 then 2 else c.shst }).ok id 0 0 []))) ∧
    (∀ (conn cid off : Nat) (k : Conn) (ws : List Nat) (ok : Bool), s.net.conns.find? conn = some k →
      let id : Cid := ⟨.dock conn, cid⟩
      let s1 := s.tcpRx k.port
      Answers (.h2cData id off ws false ok) s (fun t => t = ((s1.inc F.NVTCP_DIGEST_HEADER).raise E.NVTCP_DIGEST_ERR).termConn conn) ∧
      (∀ c : Cmd, s1.cmd? id = some c →
        Answers (.h2cData id off ws true false) s (fun t =>
          t = (State.dropWrite ((s1.inc F.NVTCP_DIGEST_DATA).raise E.NVTCP_DIGEST_ERR) id).fail id 0 0x22) ∧
        (c.op = .write → c.started = false → s1.allAdmitted id = true → s1.begun id = true → s1.led.sealing = none → off = c.data.length →
          sectorsOf (((s1.ns? c.nsid).map (·.fmt)).getD 0) c.nlb ≤ (c.data ++ ws).length →
          Answers (.h2cData id off ws true true) s (fun t =>
            t = s1.storeWrite c ((c.data ++ ws).take (sectorsOf (((s1.ns? c.nsid).map (·.fmt)).getD 0) c.nlb)))))) ∧
    (s.mode ≠ Md.OFFLOAD ∨ s.mc.offCause = none → Answers .offloadCloseTimeout s (fun t => t = s)) ∧
    (s.mode = Md.OFFLOAD → s.mc.offCause ≠ none → Answers .offloadCloseTimeout s (fun t => t = s.closeOffload)) ∧
    (∀ who : Req, (s.dropHeld who).takes who Pg.NVTCP 0x010 →
      Answers (.nvtcpCtlEn who true) s (fun t => t = (s.dropHeld who).set F.NVTCP_CTL_EN 1) ∧
      Answers (.nvtcpCtlEn who false) s (fun t => t = (((s.dropHeld who).set F.NVTCP_CTL_EN 0).closeOffload).clearReady [Fn.NVTCP]))

/-! ### Mailboxes, service DMA and check values (chapter 17) -/

/-- R486 to R492: what sender and receiver of a direction do, and that another requester is denied; the JTAG path; what the peer's half of
set P sends. -/
def Obligations.Mailboxes : Prop :=
  ∀ (s : State) (who : Req) (d : Nat), d < 4 →
    let s0 := s.dropHeld who
    (∀ b : Nat, s0.takes who Pg.MBX (mbxOff d 0x00) →
      (s0.mbxSender d who = true → Answers (.mbxRing who d b) s (fun t => t = s0.mbxRing d b)) ∧
      (s0.mbxSender d who = false → Answers (.mbxRing who d b) s (fun t => t = s0.mbxDeny who (mbxOff d 0x00))) ∧
      (d ≠ 0 → (s0.mbxRing d b).get (F.MBX_DB d) = Nat.lor (s0.get (F.MBX_DB d)) (b % 2 ^ 32) % 2 ^ 32)) ∧
    (∀ b : Nat, s0.blocked who Pg.MBX (mbxOff d 0x08) = none →
      (s0.mbxReceiver d who = true → Answers (.mbxDbClear who d b) s (fun t => t = s0.mbxClear d b ∧
        t.get (F.MBX_DB d) = (s0.get (F.MBX_DB d) - Nat.land (s0.get (F.MBX_DB d)) (b % 2 ^ 32)) % 2 ^ 32)) ∧
      (s0.mbxReceiver d who = false → Answers (.mbxDbClear who d b) s (fun t => t = s0.mbxDeny who (mbxOff d 0x08)))) ∧
    (s0.takes who Pg.MBX (mbxOff d 0x20) →
      (s0.mbxSender d who = true → d ≠ 0 → s0.mayPost d = true →
        (s0.get (F.MBX_BLK_STATE_STATE d) = 0 → Answers (.mbxBlockGo who d) s (fun t =>
          t.get (F.MBX_BLK_STATE_STATE d) = 1 ∧ t.get (F.MBX_BLK_STATE_POSTER d) = reqCode who ∧ t.mbx = s0.mbx)) ∧
        (s0.get (F.MBX_BLK_STATE_STATE d) ≠ 0 → Answers (.mbxBlockGo who d) s (fun t => t = s0.mbxBusy d))) ∧
      (s0.mbxSender d who = true → d = 0 → Answers (.mbxBlockGo who d) s (fun t => t = State.mbxUnknown 66 (s0.mbxGo 0 (reqCode who)))) ∧
      (s0.mbxSender d who = false → Answers (.mbxBlockGo who d) s (fun t => t = s0.mbxDeny who (mbxOff d 0x20))) ∧
      (s0.mbxReceiver d who = true →
        (s0.get (F.MBX_BLK_STATE_STATE d) = 1 → Answers (.mbxBlockDone who d) s (fun t => t.get (F.MBX_BLK_STATE_STATE d) = 2 ∧ t.mbx = s0.mbx)) ∧
        (s0.get (F.MBX_BLK_STATE_STATE d) ≠ 1 → Answers (.mbxBlockDone who d) s (fun t => t = s0.mbxBusy d))) ∧
      (s0.mbxSender d who = true →
        (s0.get (F.MBX_BLK_STATE_STATE d) = 2 → Answers (.mbxBlockRelease who d) s (fun t => t.get (F.MBX_BLK_STATE_STATE d) = 0 ∧ t.mbx = s0.mbx)) ∧
        (s0.get (F.MBX_BLK_STATE_STATE d) ≠ 2 → Answers (.mbxBlockRelease who d) s (fun t => t = s0.mbxBusy d)))) ∧
    (∀ w : Nat, s0.takes who Pg.MBX (mbxOff d 0x28) → s0.mbxSender d who = true →
      (64 ≤ (s0.queue d).length → d ≠ 0 → Answers (.mbxQPush who d w) s (fun t =>
        t = (s0.inc (F.MBX_Q_STATE_PUSH_REFUSED d)).raise E.MBX_PUSH_REFUSED)) ∧
      ((s0.queue d).length < 64 → d ≠ 0 → s0.mbx.qs.length = 4 → Answers (.mbxQPush who d w) s (fun t =>
        t.queue d = s0.queue d ++ [w % 2 ^ 64] ∧ ∀ e, e < 4 → e ≠ d → t.queue e = s0.queue e)) ∧
      (d = 0 → Answers (.mbxQPush who d w) s (fun t => t = State.mbxUnknown 66 (s0.mbxPush 0 w)))) ∧
    (∀ n : Nat, s0.takes who Pg.MBX (mbxOff d 0x30) → s0.mbxReceiver d who = true →
      (n % 128 = 0 ∨ (s0.queue d).length < n % 128 → Answers (.mbxQPop who d n) s (fun t => t = s0.mbxBusy d)) ∧
      (n % 128 ≠ 0 → n % 128 ≤ (s0.queue d).length → s0.mbx.qs.length = 4 → Answers (.mbxQPop who d n) s (fun t =>
        t.queue d = (s0.queue d).drop (n % 128) ∧ ∀ e, e < 4 → e ≠ d → t.queue e = s0.queue e))) ∧
    (let s1 : State := { s with pins := { s.pins with mbxacc := true } }
     (∀ (w : Bool) (idx v : Nat), s.mode = Md.KEEP ∨ idx < 0x20 ∨ 0x5F < idx → Answers (.mbxacc w idx v) s (fun t => t = s1)) ∧
     (∀ idx v : Nat, s.mode ≠ Md.KEEP → 0x20 ≤ idx → idx ≤ 0x5F →
        Answers (.mbxacc false idx v) s (fun t => t = { s1 with fabric := { s.fabric with data := s1.readReg Pg.MBX (8 * idx) } }) ∧
        Answers (.mbxacc true idx v) s (fun t => t = s1.mbxAccess .sniwyn (8 * idx) (v % 2 ^ 64))) ∧
     Answers .trstNAssert s (fun t => t = { s with pins := { s.pins with mbxacc := false } })) ∧
    (∀ (k dir i : Nat) (ws : List Nat),
      (s.ready Fn.PAIR_LINK = false → Answers (.mailbox k dir i ws) s (fun t => t = s)) ∧
      (s.ready Fn.PAIR_LINK = true → k < 8 →
        (dir = 2 → Answers (.mailbox k dir i ws) s (fun t => t = s.piWrite k i ws)) ∧
        (dir = 3 → Answers (.mailbox k dir i ws) s (fun t => t = s.poUpdate k ws))))

/-- R495 to R497: firmware takes the front request of a source and answers it as its TYPE says; a body of the wrong length is BAD_LENGTH;
a request that waits too long for its words or its answer ends. -/
def Obligations.MailboxRequests : Prop :=
  ∀ (s : State) (via : Nat), (via = 1 → s.blockServing = false) →
    (s.mbxFront via = none → Answers (.ping via) s (fun t => t = s) ∧ Answers (.regRead via) s (fun t => t = s) ∧
      Answers (.regWrite via) s (fun t => t = s) ∧ Answers (.mbxModeReq via) s (fun t => t = s) ∧ Answers (.info via) s (fun t => t = s) ∧
      Answers (.forward via) s (fun t => t = s) ∧ Answers (.logRead via) s (fun t => t = s)) ∧
    (∀ (r : MbxReq) (h : Nat) (b : List Nat), s.mbxFront via = some r → r.words = h :: b →
      let s1 := s.mbxTake r
      (hdrType h = 1 →
        (hdrWords h = b.length → b.length ≤ 62 → Answers (.ping via) s (fun t => t = State.mbxUnknown 66 (s1.mbxReply r 0 b))) ∧
        (hdrWords h ≠ b.length → Answers (.ping via) s (fun t => t = State.mbxUnknown 66 (s1.mbxReply r 2 [])))) ∧
      (hdrType h = 2 → hdrWords h = 1 → b.length = 1 →
        let a := regOf (b.headD 0)
        let x := (s1.setHeldR .sniwyn none).regRead .sniwyn (a / 0x1000) (a % 0x1000)
        (s1.regDenied false a = false → Answers (.regRead via) s (fun t => t = State.mbxUnknown 66 (x.2.mbxReply r 0 [x.1]))) ∧
        (s1.regDenied false a = true → Answers (.regRead via) s (fun t => t = State.mbxUnknown 66 (x.2.mbxReply r 3 [])))) ∧
      (hdrType h = 3 → hdrWords h = 2 → b.length = 2 →
        let a := regOf (b.headD 0)
        let s2 := (s1.dropHeld .sniwyn).regWrite .sniwyn (a / 0x1000) (a % 0x1000) (b.getD 1 0 % 2 ^ 64) (2 ^ 64 - 1)
        Answers (.regWrite via) s (fun t => t = State.mbxUnknown 66 (s2.mbxReply r (if s1.regDenied true a then 3 else 0) []))) ∧
      (hdrType h = 4 →
        (hdrWords h = 1 → b.length = 1 → Answers (.mbxModeReq via) s (fun t => t = State.mbxUnknown 66 (s1.requestMode (.mbx r) (b.headD 0 % 16)))) ∧
        (b.length ≠ 1 → Answers (.mbxModeReq via) s (fun t => t = State.mbxUnknown 66 (s1.mbxReply r 2 [])))) ∧
      (hdrType h = 5 →
        (hdrWords h = 0 → b = [] → Answers (.info via) s (fun t => t = State.mbxUnknown 66 (s1.mbxReply r 0 s1.infoWords))) ∧
        (b ≠ [] → Answers (.info via) s (fun t => t = State.mbxUnknown 66 (s1.mbxReply r 2 [])))) ∧
      (hdrType h = 6 → hdrWords h = b.length → 1 ≤ b.length → b.length ≤ 62 → hdrWords (b.headD 0) + 1 = b.length →
        (s1.ready Fn.MBX_P = false → Answers (.forward via) s (fun t => t = State.mbxUnknown 66 (s1.mbxReply r 5 []))) ∧
        (s1.ready Fn.MBX_P = true → Answers (.forward via) s (fun t => t = State.mbxUnknown 66 (State.pairSend { s1 with mbx := { s1.mbx with
          fwdN := s1.mbx.fwdN + 1, fwd := s1.mbx.fwd ++ [(s1.mbx.fwdN + 1, r)] } } (.forward (s1.mbx.fwdN + 1) b))))) ∧
      (hdrType h = 7 → hdrWords h = 1 → b.length = 1 →
        let lid := b.headD 0 % 256
        let n := bits (b.headD 0) 8 8
        (n = 0 ∨ 62 < n ∨ b.headD 0 / 2 ^ 16 % 8 ≠ 0 → Answers (.logRead via) s (fun t => t = State.mbxUnknown 66 (s1.mbxReply r 2 []))) ∧
        (1 ≤ n → n ≤ 62 → b.headD 0 / 2 ^ 16 % 8 = 0 → s1.secLocked = false → ∀ page, s1.logPage lid = some page →
          Answers (.logRead via) s (fun t => t = State.mbxUnknown 66 (State.mbxReply { s1 with fresh := s1.fresh + 2 } r 0
            (pageWords page (b.headD 0 / 2 ^ 16) n)))))) ∧
    (∀ n : Nat, s.mbx.fwd.find? (fun x => x.1 = n) = none → Answers (.forwardTimeout n) s (fun t => t = s)) ∧
    (∀ (n k : Nat) (r : MbxReq), s.mbx.fwd.find? (fun x => x.1 = n) = some (k, r) → Answers (.forwardTimeout n) s (fun t =>
      t = State.mbxReply { s with mbx := { s.mbx with fwd := s.mbx.fwd.filter (fun x => x.1 ≠ n) } } r 6 [])) ∧
    (s.queue 0 = [] ∨ s.ready Fn.MBX_H = false ∨ s.hiFront ≠ none → Answers .messageBodyTimeout s (fun t => t = s)) ∧
    (∀ (h : Nat) (rest : List Nat), s.queue 0 = h :: rest → s.ready Fn.MBX_H = true → s.hiFront = none → Answers .messageBodyTimeout s (fun t =>
      t = State.mbxUnknown 66 ((s.setQueue 0 (rest.drop (hdrWords h))).mbxReply ⟨0, [h], s.tb⟩ 2 [])))

/-- R499 to R508: what starts, pauses and stops a channel; the checks before anything is issued; a GO that finds it busy; its stop. -/
def Obligations.SdmaChannels : Prop :=
  ∀ (s : State) (n : Nat), n < 8 →
    (∀ (who : Req) (en : Bool), n < 4 → who ≠ .firmware →
      let s0 := s.dropHeld who
      let denied (off : Nat) (t : State) : Prop := t = (s0.raise E.SYS_ACCESS_DENY).logAccess 2 true who (regAddr Pg.SDMA (sdmaReg n off))
      (s0.takes who Pg.SDMA (sdmaReg n 0x28) → Answers (.sdmaGo who n) s (denied 0x28) ∧ Answers (.sdmaKick who n) s (denied 0x28) ∧
        Answers (.sdmaRingReset who n) s (denied 0x28)) ∧
      (s0.takes who Pg.SDMA (sdmaReg n 0x00) → Answers (.sdmaPause who n en) s (denied 0x00) ∧ Answers (.sdmaCtlEn who n en) s (denied 0x00))) ∧
    (∀ who : Req, 4 ≤ n ∨ who = .firmware →
      let s0 := s.dropHeld who
      (s0.takes who Pg.SDMA (sdmaReg n 0x28) →
        (s0.get (F.SDMA_STATUS_FSTATE n) ≠ 2 ∨ s0.get (F.SDMA_CTL_MODE n) ≠ 0 ∨ s0.get (F.SDMA_STATUS_RUN n) ∈ [1, 2, 3] →
          Answers (.sdmaGo who n) s (fun t => t = s0.raise E.SDMA_START_IGNORED)) ∧
        (s0.get (F.SDMA_STATUS_FSTATE n) = 2 → s0.get (F.SDMA_CTL_MODE n) = 0 → s0.get (F.SDMA_STATUS_RUN n) ∈ [0, 4, 5] →
          let e := s0.sdmaCheck who (s0.get (F.SDMA_SRC_ADDR n)) (s0.get (F.SDMA_DST_ADDR n)) (s0.get (F.SDMA_COUNT_BYTES n))
          (e ≠ 0 → Answers (.sdmaGo who n) s (fun t => t = (((s0.set (F.SDMA_STATUS_OWNER n) (reqCode who)).set (F.SDMA_STATUS_ERR n) 0).sdmaError n e) ∧
            t.get (F.SDMA_STATUS_RUN n) = 5 ∧ t.get (F.SDMA_STATUS_ERR n) = e % 16)) ∧
          (e = 0 → s0.get (F.SDMA_CTL_PAUSE n) = 0 → Answers (.sdmaGo who n) s (fun t =>
            OnlyFields [F.SDMA_STATUS_OWNER n, F.SDMA_STATUS_ERR n, F.SDMA_STATUS_RUN n] { s0 with sdma := t.sdma } t ∧
            t.get (F.SDMA_STATUS_RUN n) = 1 ∧ t.get (F.SDMA_STATUS_OWNER n) = reqCode who ∧ t.get (F.SDMA_STATUS_ERR n) = 0 ∧
            t.sdma.xfers.find? n = some ⟨s0.get (F.SDMA_COUNT_BYTES n), none, decide (s0.get (F.SDMA_CTL_SNOOP n) = 1), false⟩)) ∧
          (e = 0 → s0.get (F.SDMA_CTL_PAUSE n) = 1 → Answers (.sdmaGo who n) s (fun t => t.get (F.SDMA_STATUS_RUN n) = 2))) ∧
        (s0.get (F.SDMA_STATUS_FSTATE n) = 2 → s0.get (F.SDMA_CTL_MODE n) = 1 → s0.get (F.SDMA_STATUS_RUN n) ∈ [0, 3, 4, 5] →
          s0.ringCheck who (s0.get (F.SDMA_DESC_BASE_ADDR n)) (s0.get (F.SDMA_DESC_CFG_N n)) = 0 → s0.get (F.SDMA_CTL_PAUSE n) = 0 →
          Answers (.sdmaKick who n) s (fun t => t.get (F.SDMA_STATUS_RUN n) = 1 ∧ t.sdma.xfers.find? n = some ⟨0, none, false, true⟩ ∧
            t.get (F.SDMA_STATUS_OWNER n) = reqCode who)) ∧
        (s0.get (F.SDMA_STATUS_FSTATE n) ≠ 2 ∨ s0.get (F.SDMA_CTL_MODE n) ≠ 1 ∨ s0.get (F.SDMA_STATUS_RUN n) ∈ [1, 2] →
          Answers (.sdmaKick who n) s (fun t => t = s0.raise E.SDMA_START_IGNORED)) ∧
        (s0.get (F.SDMA_STATUS_RUN n) ∈ [0, 4, 5] → Answers (.sdmaRingReset who n) s (fun t => t = s0.set (F.SDMA_DESC_CFG_HEAD n) 0)) ∧
        (s0.get (F.SDMA_STATUS_RUN n) ∈ [1, 2, 3] → Answers (.sdmaRingReset who n) s (fun t => t = s0))) ∧
      (s0.takes who Pg.SDMA (sdmaReg n 0x00) →
        (∀ on : Bool, s0.get (F.SDMA_STATUS_FSTATE n) = 3 → Answers (.sdmaPause who n on) s (fun t => t = s0)) ∧
        (s0.get (F.SDMA_STATUS_FSTATE n) ≠ 3 →
          Answers (.sdmaPause who n true) s (fun t => t = s0.set (F.SDMA_CTL_PAUSE n) 1) ∧
          (s0.get (F.SDMA_STATUS_RUN n) = 2 → Answers (.sdmaPause who n false) s (fun t => t.get (F.SDMA_STATUS_RUN n) = 1 ∧
            t.get (F.SDMA_CTL_PAUSE n) = 0 ∧ OnlyFields [F.SDMA_CTL_PAUSE n, F.SDMA_STATUS_RUN n] s0 t))) ∧
        (s0.get (F.SDMA_STATUS_FSTATE n) = 0 → s0.ready Fn.SDMA = true → Answers (.sdmaCtlEn who n true) s (fun t =>
          OnlyFields [F.SDMA_CTL_EN n, F.SDMA_STATUS_FSTATE n, F.SDMA_STATUS_RUN n] s0 t ∧ t.get (F.SDMA_STATUS_FSTATE n) = 2 ∧
          t.get (F.SDMA_STATUS_RUN n) = 0)) ∧
        (s0.get (F.SDMA_STATUS_FSTATE n) = 2 → Answers (.sdmaCtlEn who n false) s (fun t => t = (s0.set (F.SDMA_CTL_EN n) 0).sdmaStop n ∧
          t.get (F.SDMA_STATUS_FSTATE n) = 3)) ∧
        (s0.get (F.SDMA_STATUS_FSTATE n) = 3 → Answers (.sdmaCtlEn who n true) s (fun t => t.get (F.SDMA_STATUS_REENABLE_PENDING n) = 1 ∧
          t.get (F.SDMA_STATUS_FSTATE n) = 3)))) ∧
    (s.get (F.SDMA_STATUS_FSTATE n) ≠ 3 → Answers (.sdmaStopComplete n) s (fun t => t = s)) ∧
    (s.get (F.SDMA_STATUS_FSTATE n) = 3 → Answers (.sdmaStopComplete n) s (fun t =>
      OnlyFields [F.SDMA_STATUS_FSTATE n, F.SDMA_STATUS_REENABLE_PENDING n, F.SDMA_STATUS_RUN n] s t ∧ t.get (F.SDMA_STATUS_RUN n) = 0 ∧
      (s.get (F.SDMA_STATUS_REENABLE_PENDING n) = 0 → t.get (F.SDMA_STATUS_FSTATE n) = 0) ∧
      (s.get (F.SDMA_STATUS_REENABLE_PENDING n) = 1 → s.ready Fn.SDMA = true → s.mode ≠ Md.SEAL → t.get (F.SDMA_STATUS_FSTATE n) = 2)))

/-- R504 to R507, R517: a descriptor that is not owned leaves the channel in WAIT; a transfer that ends whole is DONE; an error and poison
stop the channel; with PAUSE set it is PAUSED once its reads are written. -/
def Obligations.SdmaTransfers : Prop :=
  ∀ (s : State) (n : Nat), n < 8 →
    (s.get (F.SDMA_STATUS_RUN n) ≠ 1 → (∀ (ok : Bool) (bs : List Nat), Answers (.sdmaDescFetch n ok bs) s (fun t => t = s)) ∧
      (∀ (m e : Nat) (bs : List Nat), Answers (.sdmaTransferEnd n e m bs) s (fun t => t = s) ∧ Answers (.sdmaPaused n m bs) s (fun t => t = s))) ∧
    (∀ x : Xfer, s.get (F.SDMA_STATUS_RUN n) = 1 → s.sdma.xfers.find? n = some x →
      (x.fetch = true → s.sdmaReach (s.descAddr n) = 0 → sdmaSpace (s.descAddr n) = 1 → ∀ bs : List Nat,
        Answers (.sdmaDescFetch n false bs) s (fun t => t = s.sdmaError n 7) ∧
        (bit (numIn bs 20 1) 0 = false → Answers (.sdmaDescFetch n true bs) s (fun t => OnlyFields [F.SDMA_STATUS_RUN n] { s with sdma := t.sdma } t ∧
          t.get (F.SDMA_STATUS_RUN n) = 3 ∧ t.sdma.xfers.find? n = none)) ∧
        (bit (numIn bs 20 1) 0 = true → numIn bs 20 1 < 16 → numIn bs 21 3 = 0 → numIn bs 16 4 ≠ 0 →
          s.sdmaCheck (s.sdmaOwner n) (numIn bs 0 8) (numIn bs 8 8) (numIn bs 16 4) = 0 → Answers (.sdmaDescFetch n true bs) s (fun t =>
            OnlyFields [F.SDMA_SRC_ADDR n, F.SDMA_DST_ADDR n, F.SDMA_COUNT_BYTES n] { s with sdma := t.sdma } t ∧
            t.get (F.SDMA_COUNT_BYTES n) = numIn bs 16 4 ∧
            t.sdma.xfers.find? n = some ⟨numIn bs 16 4, some (numIn bs 20 1), bit (numIn bs 20 1) 3, false⟩))) ∧
      (x.fetch = false → ∀ (e m : Nat) (bs : List Nat),
        let reach := max (s.sdmaReach (s.get (F.SDMA_SRC_ADDR n))) (s.sdmaReach (s.get (F.SDMA_DST_ADDR n)))
        (reach ≠ 0 → Answers (.sdmaTransferEnd n e m bs) s (fun t => t = s.sdmaError n reach)) ∧
        (reach = 0 →
          let r := State.sdmaMove n x.snoop ((if e = 0 then s.get (F.SDMA_COUNT_BYTES n) else min m (s.get (F.SDMA_COUNT_BYTES n))) / 8) bs s
          (r.1 = true → Answers (.sdmaTransferEnd n e m bs) s (fun t => t = r.2.sdmaError n 4)) ∧
          (r.1 = false → e ≠ 0 → e ≤ 7 → Answers (.sdmaTransferEnd n e m bs) s (fun t => t = r.2.sdmaError n e)) ∧
          (r.1 = false → e = 0 → Answers (.sdmaTransferEnd n e m bs) s (fun t => t = r.2.sdmaFinish n x ∧
            (x.desc = none → t.get (F.SDMA_STATUS_RUN n) = 4 ∧ t.getBit (F.EVT_RAW Pg.SDMA) (E.SDMA_DONE n).bit = true)))) ∧
        (s.get (F.SDMA_CTL_PAUSE n) = 1 →
          let r := State.sdmaMove n x.snoop (min m (s.get (F.SDMA_COUNT_BYTES n)) / 8) bs s
          r.1 = false → Answers (.sdmaPaused n m bs) s (fun t => t = (r.2.set (F.SDMA_STATUS_RUN n) 2).raise (E.SDMA_PAUSED n) ∧
            t.get (F.SDMA_STATUS_RUN n) = 2))))

/-- R509 to R513: CLEAR, the feeds in byte order, the written ACC, CFG only while the unit is off, and the compare at LIMIT. -/
def Obligations.CheckValueUnits : Prop :=
  ∀ (s : State) (who : Req) (n : Nat), n < 4 →
    let s0 := s.dropHeld who
    (s0.takes who Pg.CRCU (crcuBase n + 0x18) → Answers (.crcuClear who n) s (fun t => OnlyFields [F.CRCU_ACC n, F.CRCU_BYTES_COUNT n] s0 t ∧
      t.get (F.CRCU_ACC n) = crcuInit (s0.get (F.CRCU_CFG_POLY n)) ∧ t.get (F.CRCU_BYTES_COUNT n) = 0)) ∧
    (∀ v : Nat, s0.takes who Pg.CRCU (crcuBase n + 0x08) → Answers (.crcuAccWrite who n v) s (fun t => OnlyFields [F.CRCU_ACC n] s0 t ∧
      t.get (F.CRCU_ACC n) = v % 2 ^ 64)) ∧
    (∀ v : Nat, s0.takes who Pg.CRCU (crcuBase n + 0x20) →
      (s0.get (F.CRCU_CFG_SRC n) ≠ 0 ∨ s0.get (F.CRCU_CFG_EN n) = 0 → Answers (.feed who n v) s (fun t => t = s0)) ∧
      (s0.get (F.CRCU_CFG_SRC n) = 0 → s0.get (F.CRCU_CFG_EN n) = 1 → s0.get (F.CRCU_LIMIT_BYTES n) = 0 → Answers (.feed who n v) s (fun t =>
        OnlyFields [F.CRCU_ACC n, F.CRCU_BYTES_COUNT n] s0 t ∧
        t.get (F.CRCU_ACC n) = (bytesOf 8 v).foldl (crcuByte (s0.get (F.CRCU_CFG_POLY n))) (s0.get (F.CRCU_ACC n)) % 2 ^ 64 ∧
        t.get (F.CRCU_BYTES_COUNT n) = (s0.get (F.CRCU_BYTES_COUNT n) + 8) % 2 ^ (F.CRCU_BYTES_COUNT n).width))) ∧
    (∀ v : Nat, s0.takes who Pg.CRCU (crcuBase n + 0x28) →
      (bits v 56 3 = 0 ∨ s0.get (F.CRCU_CFG_SRC n) ≠ 0 → Answers (.feedPart who n v) s (fun t => t = s0)) ∧
      (s0.get (F.CRCU_CFG_SRC n) = 0 → s0.get (F.CRCU_CFG_EN n) = 1 → s0.get (F.CRCU_LIMIT_BYTES n) = 0 → bits v 56 3 ≠ 0 →
        Answers (.feedPart who n v) s (fun t => OnlyFields [F.CRCU_ACC n, F.CRCU_BYTES_COUNT n] s0 t ∧
          t.get (F.CRCU_ACC n) = (bytesOf (bits v 56 3) v).foldl (crcuByte (s0.get (F.CRCU_CFG_POLY n))) (s0.get (F.CRCU_ACC n)) % 2 ^ 64))) ∧
    (∀ v : Nat, s0.takes who Pg.CRCU (crcuBase n) →
      (s0.get (F.CRCU_CFG_EN n) = 1 → bit v 0 = true → Answers (.crcuCfgWrite who n v) s (fun t => t = s0.raise (E.CRCU_CFG_IGNORED n))) ∧
      (s0.get (F.CRCU_CFG_EN n) = 0 ∨ bit v 0 = false → bits v 8 4 < 6 → Answers (.crcuCfgWrite who n v) s (fun t =>
        OnlyFields [F.CRCU_CFG_CMP n, F.CRCU_CFG_CHAN n, F.CRCU_CFG_POLY n, F.CRCU_CFG_SRC n, F.CRCU_CFG_EN n] s0 t ∧
        t.get (F.CRCU_CFG_EN n) = bits v 0 1 ∧ t.get (F.CRCU_CFG_POLY n) = bits v 4 2 ∧ t.get (F.CRCU_CFG_SRC n) = bits v 8 4 ∧
        t.get (F.CRCU_CFG_CHAN n) = bits v 12 3 ∧ t.get (F.CRCU_CFG_CMP n) = bits v 16 1))) ∧
    (∀ bs : List Nat, bs ≠ [] → s.get (F.CRCU_CFG_EN n) = 1 → s.get (F.CRCU_LIMIT_BYTES n) ≠ 0 →
      (s.get (F.CRCU_LIMIT_BYTES n) ≤ s.get (F.CRCU_BYTES_COUNT n) → s.crcuTake n bs = s) ∧
      (s.get (F.CRCU_BYTES_COUNT n) + bs.length < s.get (F.CRCU_LIMIT_BYTES n) → s.crcuTake n bs =
        (s.set (F.CRCU_ACC n) (bs.foldl (crcuByte (s.get (F.CRCU_CFG_POLY n))) (s.get (F.CRCU_ACC n)))).addWrap (F.CRCU_BYTES_COUNT n) bs.length))

/-! ### Code store and firmware update (chapter 19) -/

/-- R552 to R556, Table 19-9: a program or erase needs its requester's unlock, which any command consumes; the errors in their order; a
command that starts is BUSY with its OP, and an erase counts before it is done. R552 to R555: what a command leaves at its end: an erased
sector reads 0xFF throughout and no other byte changes; a line that only clears bits reads as programmed, and one that does not is VERIFY;
the two checks give their RESULT. -/
def Obligations.CodeStore : Prop :=
  (∀ (s : State) (who : Req), s.code.unlock.length = 3 →
    let s0 := s.dropHeld who
    (∀ key : Nat, s0.takes who Pg.CODE 0x100 → Answers (.unlockA who key) s (fun t => t = { s0 with code := t.code } ∧
      t.unlockOf who = (if key % 65536 = 0x6D1C then 1 else 0))) ∧
    (∀ key : Nat, s0.takes who Pg.CODE 0x108 → Answers (.unlockB who key) s (fun t => t = { s0 with code := t.code } ∧
      t.unlockOf who = (if s0.unlockOf who = 1 ∧ key % 65536 = 0x93E3 then 2 else 0))) ∧
    Answers (.codeUnlockTimeout who) s (fun t => t = { s with code := t.code } ∧ t.unlockOf who = 0) ∧
    (s0.takes who Pg.CODE 0x118 →
      let s1 := s0.setUnlock who 0
      let a := s0.get F.CODE_ADDR
      let starts (op : Nat) (fs : List Field) (t : State) : Prop :=
        t.get F.CODE_STATUS_BUSY = 1 ∧ t.get F.CODE_STATUS_OP = op ∧ t.code.addr = a ∧ t.code.who = reqCode who ∧ t.unlockOf who = 0 ∧
        t.nv.store = s0.nv.store ∧ (∀ f ∈ fs, t.get f = min (s0.get f + 1) (2 ^ 32 - 1))
      (s0.get F.CODE_STATUS_BUSY = 1 → Answers (.nop who) s (fun t => t = s1.codeEnd 5) ∧ Answers (.readLine who) s (fun t => t = s1.codeEnd 5) ∧
        Answers (.programLine who) s (fun t => t = s1.codeEnd 5) ∧ Answers (.eraseSector who) s (fun t => t = s1.codeEnd 5) ∧
        Answers (.blankCheck who) s (fun t => t = s1.codeEnd 5) ∧ Answers (.crcSector who) s (fun t => t = s1.codeEnd 5)) ∧
      (s0.get F.CODE_STATUS_BUSY ≠ 1 →
        Answers (.nop who) s (fun t => t = s1.codeEnd 0) ∧
        (s0.unlockOf who ≠ 2 → Answers (.programLine who) s (fun t => t = s1.codeEnd 1) ∧ Answers (.eraseSector who) s (fun t => t = s1.codeEnd 1)) ∧
        (s0.unlockOf who = 2 →
          (a % 256 ≠ 0 → Answers (.programLine who) s (fun t => t = s1.codeEnd 2)) ∧
          (a % 65536 ≠ 0 → Answers (.eraseSector who) s (fun t => t = s1.codeEnd 2)) ∧
          (a % 65536 = 0 → mayChange who (a / 65536) = false → Answers (.programLine who) s (fun t => t = s1.codeEnd 3) ∧
            Answers (.eraseSector who) s (fun t => t = s1.codeEnd 3)) ∧
          (a % 256 = 0 → mayChange who (a / 65536) = true → Answers (.programLine who) s (starts 2 [F.CODE_OPS_PROGRAMS])) ∧
          (a % 65536 = 0 → mayChange who (a / 65536) = true → Answers (.eraseSector who) s (fun t => starts 3 [F.CODE_OPS_ERASES] t ∧
            t.nv.storeEc.get (a / 65536) 0 = min (s0.nv.storeEc.get (a / 65536) 0 + 1) (2 ^ 32 - 1)))) ∧
        (a % 256 = 0 → Answers (.readLine who) s (starts 1 [])) ∧ (a % 256 ≠ 0 → Answers (.readLine who) s (fun t => t = s1.codeEnd 2)) ∧
        (a % 65536 = 0 → Answers (.blankCheck who) s (starts 4 []) ∧ Answers (.crcSector who) s (starts 5 [])) ∧
        (a % 65536 ≠ 0 → Answers (.blankCheck who) s (fun t => t = s1.codeEnd 2) ∧ Answers (.crcSector who) s (fun t => t = s1.codeEnd 2))))) ∧
  (∀ s : State,
    (s.get F.CODE_STATUS_BUSY = 0 → ∀ ok : Bool, Answers (.cmdDone ok) s (fun t => t = s)) ∧
    (s.get F.CODE_STATUS_BUSY ≠ 0 → ∀ ok : Bool,
      let who : Req := if s.code.who = 0 then .camera else if s.code.who = 1 then .firmware else .sniwyn
      let a := s.code.addr
      let ends (err : Nat) (t : State) : Prop := t.get F.CODE_STATUS_BUSY = 0 ∧ t.get F.CODE_STATUS_OP = 0 ∧ t.get F.CODE_STATUS_ERR = err
      let bs := (s.code.data.map (bytesOf 8)).flatten
      (s.get F.CODE_STATUS_OP = 1 → Answers (.cmdDone ok) s (fun t => ends 0 t ∧ t.nv = s.nv ∧
        ∀ k, k < 32 → t.get (F.CODE_DATA k) = ofBytes (((s.codeRead who a 256).drop (8 * k)).take 8) % 2 ^ 64)) ∧
      (s.get F.CODE_STATUS_OP = 2 → s.memOk → a % 256 = 0 → bs.length = 256 →
        (ok = true → (List.range 256).map (fun i => Nat.land ((s.norBytes a 256).getD i 0) (bs.getD i 0)) = bs → Answers (.cmdDone ok) s (fun t =>
          ends 0 t ∧ t.norBytes a 256 = bs ∧ ∀ b, (b < a ∨ a + 256 ≤ b) → t.norByte b = s.norByte b)) ∧
        (ok = false → Answers (.cmdDone ok) s (fun t => ends 4 t ∧ ∀ b, (b < a ∨ a + 256 ≤ b) → t.norByte b = s.norByte b))) ∧
      (s.get F.CODE_STATUS_OP = 3 → Answers (.cmdDone ok) s (fun t => ends 0 t ∧ (∀ b, b / 65536 = a / 65536 → t.norByte b = 255) ∧
        ∀ b, b / 65536 ≠ a / 65536 → t.norByte b = s.norByte b)) ∧
      (s.get F.CODE_STATUS_OP = 4 → Answers (.cmdDone ok) s (fun t => ends 0 t ∧ t.nv = s.nv ∧
        t.get F.CODE_RESULT_VALUE = b2n ((s.codeRead who a 65536).all (fun b => b = 255)))) ∧
      (s.get F.CODE_STATUS_OP = 5 → Answers (.cmdDone ok) s (fun t => ends 0 t ∧ t.nv = s.nv ∧
        t.get F.CODE_RESULT_VALUE = crc32c (s.codeRead who a 65536) % 2 ^ 32))))

/-- R564 to R569: parcels are taken up to the first that fails; what each commit action needs, journals and answers. -/
def Obligations.FirmwareCommands : Prop :=
  ∀ (s : State) (id : Cid), s.fetches id →
    let s0 := s.atFetch id
    (∀ (numd ofst : Nat) (bytes : List Nat), (numd + 1) * 4 % 65536 = 0 → numd < 262144 → ofst * 4 % 65536 = 0 → id.src = .host 0 →
      (Passes (s0.fwChecks false) → Answers (.firmwareImageDownload id numd ofst bytes false) s (fun t =>
        let r := State.takeParcels ((numd + 1) * 4 / 65536) (ofst * 4) bytes s0
        t = if r.1 then r.2.ok id 0 0 [] else r.2.fail id 0 0x02)) ∧
      (∀ w, (s0.fwChecks false).find? (fun w => w.1) = some w → Answers (.firmwareImageDownload id numd ofst bytes false) s (fun t =>
        t = (if w.2.2.1 = 0x83 ∨ w.2.2.1 = 0x8D then s0.inc F.UPD_REFUSALS_COUNT else s0).reject id w.2))) ∧
    (∀ fs ca : Nat, fs ≤ 2 → ca ≤ 3 → id.src = .host 0 → Passes (s0.fwChecks (decide (ca = 3))) →
      let slot := if fs = 0 then 1 - s0.nv.upd.active else fs - 1
      (ca < 2 → slot = s0.nv.upd.active → Answers (.firmwareCommit id fs ca false) s (fun t => t = s0.reject id (1, 0x06, 0))) ∧
      (ca < 2 → slot ≠ s0.nv.upd.active →
        (∀ img, s0.stagedImage = .ok img → Answers (.firmwareCommit id fs ca false) s (fun t =>
          t = ((s0.pendUpdate (ca + 1) slot).set F.UPD_STATUS_LAST_FAIL 0).ok id 0 0 [])) ∧
        (∀ e, s0.stagedImage = .error e → Answers (.firmwareCommit id fs ca false) s (fun t =>
          t = (s0.set F.UPD_STATUS_LAST_FAIL e).fail id 1 0x07))) ∧
      (ca = 2 → slot = s0.nv.upd.active → Answers (.firmwareCommit id fs ca false) s (fun t => t = s0.ok id 0 0 [])) ∧
      (ca = 2 → slot ≠ s0.nv.upd.active → s0.slotValid slot = true → Answers (.firmwareCommit id fs ca false) s (fun t =>
        t = (s0.pendUpdate 3 slot).ok id 0 0 [])) ∧
      (ca = 3 → slot ≠ s0.nv.upd.active → s0.inTransition = false → ∀ img, s0.stagedImage = .ok img → Answers (.firmwareCommit id fs ca false) s
        (fun t => t = ((s0.pendUpdate 2 slot).set F.UPD_STATUS_LAST_FAIL 0).toUpdate id))) ∧
    (∀ (off : Nat) (p : List Nat), (s0.takeParcel off p).nv.upd.active = s0.nv.upd.active ∧
      (off / 65536 < 128 → (s0.takeParcel off p).isStaged (off / 65536) = true))

/-- R572, R573, R576: a copied sector is journaled, a third failure ends the update, and no other sector changes; the switch makes a valid target active
on trial and resets the device. -/
def Obligations.UpdateRuns : Prop :=
  ∀ s : State,
    (s.mode ≠ Md.UPDATE ∨ s.get F.UPD_STATUS_PHASE ≠ 1 → ∀ ok : Bool, Answers (.updateCopySector ok) s (fun t => t = s)) ∧
    (s.mode = Md.UPDATE → s.get F.UPD_STATUS_PHASE = 1 →
      (s.nextCopy = none → ∀ ok : Bool, Answers (.updateCopySector ok) s (fun t => t = s.set F.UPD_STATUS_PHASE 2)) ∧
      (∀ k : Nat, s.nextCopy = some k →
        let keeps (t : State) : Prop := t.nv.upd.active = s.nv.upd.active ∧ ∀ b, b / 65536 ≠ 128 * s.nv.upd.target + k → t.norByte b = s.norByte b
        Answers (.updateCopySector true) s (fun t => keeps t ∧ t.nv.upd.copied = s.nv.upd.copied ++ [k] ∧ t.nv.upd.tries = 0 ∧
          t.nv.upd.pending = s.nv.upd.pending) ∧
        (s.nv.upd.tries < 2 → Answers (.updateCopySector false) s (fun t => keeps t ∧ t.nv.upd.copied = s.nv.upd.copied ∧
          t.nv.upd.tries = s.nv.upd.tries + 1)) ∧
        (2 ≤ s.nv.upd.tries → Answers (.updateCopySector false) s (fun t => keeps t ∧ t.nv.upd.pending = 0 ∧ t.get F.UPD_STATUS_LAST_FAIL = 8 ∧
          t.get F.UPD_STATUS_PHASE = 2)))) ∧
    (s.mode ≠ Md.UPDATE ∨ s.get F.UPD_STATUS_PHASE ≠ 2 → Answers .updateSwitch s (fun t => t = s)) ∧
    (s.mode = Md.UPDATE → s.get F.UPD_STATUS_PHASE = 2 →
      let s1 := (s.showSlot 0).showSlot 1
      (s.nv.upd.pending = 0 → Answers .updateSwitch s (fun t => t = (s1.set F.UPD_STATUS_PHASE 3).resetTrigger 4 0x03)) ∧
      (s.nv.upd.pending ≠ 0 → s.slotValid s.nv.upd.target = false → Answers .updateSwitch s (fun t =>
        t = (((s1.updTo (fun u => { u with pending := 0 })).set F.UPD_STATUS_LAST_FAIL (s.imageFail (s.slotImage s.nv.upd.target))).set
          F.UPD_STATUS_PHASE 3).resetTrigger 4 0x03)) ∧
      (s.nv.upd.pending = 1 → s.slotValid s.nv.upd.target = true → Answers .updateSwitch s (fun t =>
        t = ((s1.updTo (fun u => { u with pending := 0 })).set F.UPD_STATUS_PHASE 3).resetTrigger 4 0x03)) ∧
      (2 ≤ s.nv.upd.pending → s.slotValid s.nv.upd.target = true → Answers .updateSwitch s (fun t =>
        t = State.resetTrigger (State.set (State.raise (s1.updTo (fun u => { u with
          active := u.target, trial := true, fallback := u.active, pending := 0 })) E.UPD_ACTIVATED) F.UPD_STATUS_PHASE 3) 4 0x03)))

/-! ### Self-test, repair and fault injection (chapter 20) -/

/-- R584 to R588: runs of memory BIST, repairs and the lack of a spare, and fuses. -/
def Obligations.MemoryBist : Prop :=
  ∀ s : State,
    (∀ who : Req, (s.dropHeld who).takes who Pg.BIST 0x100 →
      let s0 := s.dropHeld who
      (s0.bistMode = false → Answers (.bistGo who) s (fun t => t = s0.modeRefused)) ∧
      (s0.bistMode = true → s0.bistBusy = true → Answers (.bistGo who) s (fun t => t = s0.raise E.BIST_BUSY)) ∧
      (s0.bistMode = true → s0.bistBusy = false →
        let arrays := (List.range 14).filter (fun a => s0.getBit F.BIST_ARRAY_MASK_MASK a)
        (arrays.filter s0.arrayOn ≠ [] → Answers (.bistGo who) s (fun t => t.get F.BIST_STATUS_RUN_BUSY = 1 ∧
          t.bist.run = (arrays.filter s0.arrayOn).map (fun a => (a, bistSegs a)) ∧
          t.get F.BIST_RESULT_SKIPPED = total ((arrays.filter (fun a => !s0.arrayOn a)).map (2 ^ ·)) % 2 ^ 14 ∧ t.slots = s0.slots)) ∧
        (arrays.filter s0.arrayOn = [] → Answers (.bistGo who) s (fun t => t.get F.BIST_STATUS_RUN_BUSY = 0 ∧ t.bist.run = [] ∧
          t.getBit (F.EVT_RAW Pg.BIST) E.BIST_RUN_DONE.bit = true))) ∧
      (s0.get F.BIST_STATUS_RUN_BUSY = 1 → Answers (.bistAbort who) s (fun t => t.bist.run = s0.bist.run.map (fun e => (e.1, 1)) ∧
        t.get F.BIST_STATUS_RUN_BUSY = 1 ∧ t.slots = s0.slots)) ∧
      (s0.get F.BIST_STATUS_RUN_BUSY = 0 → Answers (.bistAbort who) s (fun t => t = s0)) ∧
      (∀ a : Nat, s0.mode ≠ Md.SERVICE ∨ s0.bistBusy = true ∨ (s0.rep (a % 32)).fused = true ∨ 14 ≤ a % 32 → Answers (.bistFuse who a) s (fun t =>
        t = (s0.set F.BIST_CMD_FUSE_ARRAY (a % 32)).raise E.BIST_FUSE_REFUSED)) ∧
      (∀ a : Nat, s0.mode = Md.SERVICE → s0.bistBusy = false → s0.get F.BIST_STATUS_FUSE_BUSY = 0 → a % 32 < 14 → (s0.rep (a % 32)).fused = false →
        Answers (.bistFuse who a) s (fun t => OnlyFields [F.BIST_CMD_FUSE_ARRAY, F.BIST_STATUS_FUSE_BUSY, F.BIST_STATUS_FUSING] s0 t ∧
          t.get F.BIST_STATUS_FUSE_BUSY = 1 ∧ t.get F.BIST_STATUS_FUSING = a % 32))) ∧
    (∀ (a : Nat) (rows : List Nat), s.bist.run.find? a = none → Answers (.bistSegmentDone a rows) s (fun t => t = s)) ∧
    (∀ a n : Nat, s.bist.run.find? a = some n → s.arrayOn a = true → 1 < n → Answers (.bistSegmentDone a []) s (fun t =>
      t.bist.run = s.bist.run.put a (n - 1) ∧ t.nv = s.nv ∧ t.slots = s.slots)) ∧
    (∀ a n : Nat, s.bist.run = [(a, n)] → n ≤ 1 → Answers (.bistSegmentDone a []) s (fun t => t.bist.run = [] ∧ t.get F.BIST_STATUS_RUN_BUSY = 0 ∧
      t.nv = s.nv ∧ t.slots = s.slots)) ∧
    (∀ a row i : Nat, s.spareRow a = some i →
      ((s.repairRow a row).rep a).soft = (s.rep a).soft ++ [(i, row)] ∧ ((s.repairRow a row).rep a).rows = (s.rep a).rows ∧
      (s.repairRow a row).slots = s.slots) ∧
    (∀ a row : Nat, s.spareRow a = none → s.repairRow a row =
      ((s.setBitTo F.BIST_RESULT_FAILED a true).raise E.BIST_UNREPAIRABLE).quarantine 5 a 0x16) ∧
    (s.get F.BIST_STATUS_FUSE_BUSY = 0 → Answers .fuseDone s (fun t => t = s)) ∧
    (s.get F.BIST_STATUS_FUSE_BUSY ≠ 0 → Answers .fuseDone s (fun t =>
      t.rep (s.get F.BIST_STATUS_FUSING) = ⟨[], (s.rep (s.get F.BIST_STATUS_FUSING)).rows ++ (s.rep (s.get F.BIST_STATUS_FUSING)).soft.map (·.1), true⟩ ∧
      t.get F.BIST_STATUS_FUSE_BUSY = 0 ∧ t.getBit (F.EVT_RAW Pg.BIST) E.BIST_FUSE_DONE.bit = true ∧ t.slots = s.slots))

/-- R592 to R594: when an injector arms, what a write finds armed is ignored, and what an armed injector counts and acts on. -/
def Obligations.Injectors : Prop :=
  ∀ (s : State) (i : Nat), i < 7 →
    (∀ (who : Req) (v : Nat), (s.dropHeld who).takes who Pg.FI (0x100 + 0x40 * i) →
      let s0 := s.dropHeld who
      (s0.get (F.FI_CFG_STATE i) = 1 ∨ s0.get (F.FI_CFG_STATE i) = 2 →
        (bit v 4 = true → Answers (.fiCfgWrite who i v) s (fun t => t = s0.raise E.FI_CFG_IGNORED)) ∧
        (bit v 4 = false → Answers (.fiCfgWrite who i v) s (fun t => t = s0.fiStopOne i))) ∧
      (s0.get (F.FI_CFG_STATE i) ≠ 1 → s0.get (F.FI_CFG_STATE i) ≠ 2 → bits v 0 2 < 3 → bit v 4 = true →
        (s0.fiPermitted = false → Answers (.fiCfgWrite who i v) s (fun t => t.get (F.FI_CFG_ARM i) = s0.get (F.FI_CFG_ARM i) ∧
          t.get (F.FI_CFG_STATE i) = s0.get (F.FI_CFG_STATE i) ∧ t = { s0 with regs := t.regs })) ∧
        (s0.fiPermitted = true → s0.get (F.FI_EVERY_N i) = 0 ∨ s0.get (F.FI_POS_SPAN i) = 0 ∨ 64 < s0.get (F.FI_POS_SPAN i) ∨
            (bits v 0 2 = 2 ∧ (i = 4 ∨ i = 5 ∨ s0.get (F.FI_POS_WINDOW i) = 0)) ∨ (bit v 3 = true ∧ (i = 0 ∨ 4 ≤ i)) →
          Answers (.fiCfgWrite who i v) s (fun t => t.get (F.FI_CFG_ARM i) = s0.get (F.FI_CFG_ARM i) ∧
            t.getBit (F.EVT_RAW Pg.FI) E.FI_ARM_REFUSED.bit = true)) ∧
        (s0.fiPermitted = true → s0.get (F.FI_EVERY_N i) ≠ 0 → s0.get (F.FI_POS_SPAN i) ≠ 0 → s0.get (F.FI_POS_SPAN i) ≤ 64 → bits v 0 2 ≠ 2 →
          bit v 3 = false → Answers (.fiCfgWrite who i v) s (fun t => t.get (F.FI_CFG_ARM i) = 1 ∧ t.get (F.FI_CFG_STATE i) = 1 ∧
            t.get (F.FI_UNITS_COUNT i) = 0 ∧ t.get (F.FI_CFG_ACTION i) = bits v 0 2 ∧ t.get (F.FI_CFG_TARGET i) = bits v 16 16 ∧
            t.get (F.FI_CFG_SHOT i) = bits v 2 1 ∧ t = { s0 with regs := t.regs })))) ∧
    (∀ who : Req, (s.dropHeld who).takes who Pg.FI 0x010 →
      Answers (.fiCtlEn who true) s (fun t => t = (s.dropHeld who).set F.FI_CTL_EN 1) ∧
      Answers (.fiCtlEn who false) s (fun t => t = ((s.dropHeld who).set F.FI_CTL_EN 0).fiStop)) ∧
    (s.get (F.FI_CFG_STATE i) ≠ 1 → s.get (F.FI_CFG_STATE i) ≠ 2 → s.fiUnit i = (.pass, s)) ∧
    (s.get (F.FI_CFG_STATE i) = 1 →
      let c := s.get (F.FI_UNITS_COUNT i)
      let start := s.get (F.FI_EVERY_START i)
      let n := s.get (F.FI_EVERY_N i)
      (s.fiUnit i).2.get (F.FI_UNITS_COUNT i) = min (c + 1) (2 ^ 64 - 1) ∧
      (c < start ∨ (c - start) % n ≠ 0 → (s.fiUnit i).1 = .pass ∧ OnlyFields [F.FI_UNITS_COUNT i] s (s.fiUnit i).2) ∧
      (start ≤ c → n ≠ 0 → (c - start) % n = 0 →
        (s.fiUnit i).2.get (F.FI_ACTED_COUNT i) = min (s.get (F.FI_ACTED_COUNT i) + 1) (2 ^ 32 - 1) ∧
        (s.fiUnit i).2.get (F.FI_LAST_TB_TB i) = s.tb % 2 ^ 64 ∧
        (s.get (F.FI_CFG_SHOT i) = 1 → (s.fiUnit i).2.get (F.FI_CFG_STATE i) = 3) ∧
        (s.get (F.FI_CFG_ACTION i) = 0 → (s.fiUnit i).1 = .drop) ∧ (s.get (F.FI_CFG_ACTION i) = 1 → (s.fiUnit i).1 = .corrupt)))

/-! ### Time, timecode and accessory serial (chapter 21) -/

/-- R600 to R611, R626: the calendar, its edges, trim and sets, its alarm, its supply and its crystal; the replicas of the timebase. -/
def Obligations.TimeKeeping : Prop :=
  ∀ s : State,
    (s.keep.powered = false → (∀ a b : Nat, Answers (.calendarSecondEdge a b) s (fun t => t = s)) ∧
      (∀ a : Nat, Answers (.calendarTrim a) s (fun t => t = s) ∧ Answers (.calendarRefresh a) s (fun t => t = s)) ∧
      Answers .keepSupplyReturn s (fun t => t = { s with keep := {} })) ∧
    (s.keep.powered = true →
      Answers .keepSupplyReturn s (fun t => t = s) ∧
      (s.get F.TIME_ALARM_EN = 0 →
        (∀ a b : Nat, Answers (.calendarSecondEdge a b) s (fun t =>
          t.keep.seconds = (s.keep.seconds + 1) % 2 ^ 48 ∧ t.keep.subsec = 0 ∧ t.keep.valid = s.keep.valid ∧
          (-32768 < s.keep.phase → s.keep.phase < 32768 → t.keep.ticks = s.keep.ticks + 1) ∧
          (s.mode = Md.KEEP → t = { s with keep := t.keep }) ∧
          (s.mode ≠ Md.KEEP → OnlyFields [F.TIME_SEC_TB_TB, F.TIME_SEC_CAL_SECONDS] { s with keep := t.keep } t ∧
            t.get F.TIME_SEC_TB_TB = s.tb % 2 ^ 64 ∧ t.get F.TIME_SEC_CAL_SECONDS = t.keep.seconds))) ∧
        (∀ sub : Nat, sub < 32768 →
          let n : Int := (sub : Int) + signed 8 (s.get F.TIME_TRIM_COUNTS)
          (0 ≤ n → n < 32768 → Answers (.calendarTrim sub) s (fun t => t = { s with keep := t.keep } ∧ (t.keep.subsec : Int) = n ∧
            t.keep.seconds = s.keep.seconds ∧ t.keep.ticks = s.keep.ticks)) ∧
          (n < 0 → Answers (.calendarTrim sub) s (fun t => t = { s with keep := t.keep } ∧ t.keep.subsec = 0 ∧ t.keep.seconds = s.keep.seconds)) ∧
          (32768 ≤ n → Answers (.calendarTrim sub) s (fun t => t.keep.seconds = (s.keep.seconds + 1) % 2 ^ 48)))) ∧
      (s.get F.TIME_ALARM_EN = 1 → s.mode ≠ Md.KEEP → s.mode ≠ Md.REST → s.get F.TIME_ALARM_SECONDS ≤ (s.keep.seconds + 1) % 2 ^ 48 →
        ∀ a b : Nat, Answers (.calendarSecondEdge a b) s (fun t => t.get F.TIME_ALARM_EN = 0 ∧ t.get F.TIME_STATUS_ALARM_FIRED = 1 ∧
          t.getBit (F.EVT_RAW Pg.TIME) E.TIME_ALARM.bit = true)) ∧
      (s.mode = Md.KEEP → ∀ sub : Nat, Answers (.calendarRefresh sub) s (fun t => t = s)) ∧
      (s.mode ≠ Md.KEEP → ∀ sub : Nat, Answers (.calendarRefresh sub) s (fun t =>
        s.get F.TIME_CAL % 2 ^ 63 ≤ t.get F.TIME_CAL % 2 ^ 63 ∧ t.keep.subsec = sub % 32768 ∧ t.keep.seconds = s.keep.seconds))) ∧
    (∀ (who : Req) (v : Nat),
      let s0 := s.dropHeld who
      (s0.takes who Pg.TIME 0x110 → s0.get F.TIME_ALARM_EN = 0 → Answers (.calSet who v) s (fun t =>
        t.keep.valid = true ∧ t.keep.seconds = bits v 15 48 ∧ t.keep.subsec = bits v 0 15 ∧ t.keep.ticks = s0.keep.ticks ∧
        t.get F.TIME_STATUS_LOST = 0 ∧ t.get F.TIME_STATUS_STALE = 0 ∧ t.get F.TIME_CAL_SET_TB_TB = s0.tb % 2 ^ 64 ∧
        t.get F.TIME_CAL = 2 ^ 63 + v % 2 ^ 63 ∧
        t.get F.TIME_CAL_STEPS_COUNT = min (s0.get F.TIME_CAL_STEPS_COUNT + 1) (2 ^ 16 - 1) ∧
        t.getBit (F.EVT_RAW Pg.TIME) E.TIME_CAL_SET.bit = true)) ∧
      (s0.takes who Pg.TIME 0x128 → v % 2 = 0 ∨ s0.keep.seconds < bits v 15 48 → Answers (.alarmWrite who v) s (fun t =>
        OnlyFields [F.TIME_ALARM_SECONDS, F.TIME_ALARM_EN] s0 t ∧ t.get F.TIME_ALARM_SECONDS = bits v 15 48 ∧ t.get F.TIME_ALARM_EN = v % 2)) ∧
      (s0.takes who Pg.TIME 0x128 → v % 2 = 1 → bits v 15 48 ≤ s0.keep.seconds → s0.mode ≠ Md.REST → Answers (.alarmWrite who v) s (fun t =>
        t.get F.TIME_ALARM_EN = 0 ∧ t.get F.TIME_STATUS_ALARM_FIRED = 1))) ∧
    (∀ mv : Nat, s.mode = Md.KEEP ∨ s.railValid 0 = false → Answers (.vbakMeasure mv) s (fun t => t = s)) ∧
    (∀ mv : Nat, s.mode ≠ Md.KEEP → s.railValid 0 = true → Answers (.vbakMeasure mv) s (fun t =>
      t.get F.TIME_VBAK_MV = min mv 4095 ∧ t.railValid 15 = decide (1600 ≤ mv) ∧
      (mv < s.get F.TIME_VBAK_CFG_LOW_MV → mv < 4096 → s.get F.TIME_VBAK_CFG_LOW_MV ≤ s.get F.TIME_VBAK_MV →
        t.getBit (F.EVT_RAW Pg.TIME) E.TIME_VBAK_LOW.bit = true))) ∧
    (s.mode ≠ Md.KEEP → Answers .keepSupplyLoss s (fun t => t = s)) ∧
    (s.mode = Md.KEEP → Answers .keepSupplyLoss s (fun t => t.keep = { powered := false } ∧ t.get F.TIME_STATUS_LOST = 1 ∧
      t.get F.TIME_ALARM_EN = 0 ∧ t.nv = s.nv)) ∧
    (s.get F.CLK_REF_STATUS_RTC_OK = 0 → Answers .rtcLoss s (fun t => t = s)) ∧
    (s.get F.CLK_REF_STATUS_RTC_OK = 1 →
      Answers .rtcRestored s (fun t => t = s) ∧
      (s.mode = Md.KEEP → Answers .rtcLoss s (fun t => OnlyFields [F.CLK_REF_STATUS_RTC_OK, F.TIME_STATUS_STALE] { s with keep := t.keep } t ∧
        t.keep = { s.keep with valid := false } ∧ t.get F.CLK_REF_STATUS_RTC_OK = 0 ∧ t.get F.TIME_STATUS_STALE = 1)) ∧
      (s.mode ≠ Md.KEEP → Answers .rtcLoss s (fun t => t.get F.CLK_REF_STATUS_RTC_OK = 0 ∧ t.get F.TIME_STATUS_STALE = 1 ∧ t.keep = s.keep ∧
        t.getBit (F.EVT_RAW Pg.TIME) E.TIME_RTC_LOSS.bit = true))) ∧
    (s.get F.CLK_REF_STATUS_RTC_OK = 0 →
      (s.mode = Md.KEEP → Answers .rtcRestored s (fun t => t = s.set F.CLK_REF_STATUS_RTC_OK 1)) ∧
      (s.mode ≠ Md.KEEP → Answers .rtcRestored s (fun t => t.get F.CLK_REF_STATUS_RTC_OK = 1 ∧ t.get F.TIME_STATUS_STALE = 0 ∧
        t.keep.seconds = bits (s.get F.TIME_CAL) 15 48 ∧ t.keep.subsec = bits (s.get F.TIME_CAL) 0 15 ∧ t.keep.valid = s.keep.valid ∧
        t.get F.TIME_CAL_STEPS_COUNT = s.get F.TIME_CAL_STEPS_COUNT))) ∧
    (s.mode = Md.KEEP ∨ s.tb % 256 ≠ 0 → Answers .timebaseMarker s (fun t => t = s)) ∧
    (s.mode ≠ Md.KEEP → s.tb % 256 = 0 → Answers .timebaseMarker s (fun t => t = { s with tim := t.tim } ∧
      ∀ i, 1 ≤ i → i < 24 → s.isl i = 2 → t.tim.reps.find? i = some (max (s.tim.reps.get i 0) s.tb)))

/-- R612 to R616: the LTC reader locks with two frames that follow one another, unlocks on loss and on another rate, and jams the generator, which runs on
without it; a preset only while unlocked. -/
def Obligations.Timecode : Prop :=
  ∀ s : State,
    (∀ (c : Bool) (a r u b p : Nat),
      (s.ready Fn.LTC = false ∨ s.tim.ltcEn = false → Answers (.ltcFrame c a r u b p) s (fun t => t = s)) ∧
      (s.ready Fn.LTC = true → s.tim.ltcEn = true →
        (c = false ∨ tcValid r a = false → Answers (.ltcFrame c a r u b p) s (fun t =>
          OnlyFields [F.TIME_LTC_STAT_FRAMES_BAD] { s with tim := { s.tim with cand := none } } t ∧
          t.get F.TIME_LTC_STAT_FRAMES_BAD = min (s.get F.TIME_LTC_STAT_FRAMES_BAD + 1) 65535)) ∧
        (tcValid r a = true → Answers (.ltcFrame true a r u b p) s (fun t => t.get F.TIME_LTC_ADDR_ADDR = a % 2 ^ 32 ∧
          t.get F.TIME_LTC_USER_BITS = u % 2 ^ 32 ∧ t.get F.TIME_LTC_TB_TB = b % 2 ^ 64 ∧
          t.get F.TIME_LTC_STAT_FRAMES_OK = min (s.get F.TIME_LTC_STAT_FRAMES_OK + 1) 65535 ∧
          (s.get F.TIME_STATUS_LTC_LOCK = 0 → s.tim.cand ≠ none → (∀ x, s.tim.cand = some x → x.2 = r ∧ a = tcNext r x.1) →
            t.get F.TIME_STATUS_LTC_LOCK = 1 ∧ t.get F.TIME_STATUS_GEN_FREE = 0 ∧ t.get F.TIME_STATUS_LTC_RATE = r % 8 ∧
            t.get F.TIME_GEN_ADDR_ADDR = a % 2 ^ 32 ∧ t.tim.genTb = b) ∧
          (s.get F.TIME_STATUS_LTC_LOCK = 0 → (∀ x, s.tim.cand = some x → x.2 ≠ r ∨ a ≠ tcNext r x.1) →
            t.get F.TIME_STATUS_LTC_LOCK = 0 ∧ t.tim.cand = some (a, r) ∧ t.get F.TIME_GEN_ADDR_ADDR = s.get F.TIME_GEN_ADDR_ADDR) ∧
          (s.get F.TIME_STATUS_LTC_LOCK = 1 → r ≠ s.get F.TIME_STATUS_LTC_RATE → t.get F.TIME_STATUS_LTC_LOCK = 0 ∧ t.get F.TIME_STATUS_GEN_FREE = 1 ∧
            t.get F.TIME_LTC_STAT_LOCK_LOSS = min (s.get F.TIME_LTC_STAT_LOCK_LOSS + 1) 65535 ∧ t.tim.cand = some (a, r)) ∧
          (s.get F.TIME_STATUS_LTC_LOCK = 1 → r = s.get F.TIME_STATUS_LTC_RATE → t.get F.TIME_STATUS_LTC_LOCK = 1 ∧ t.get F.TIME_GEN_ADDR_ADDR = a % 2 ^ 32 ∧
            t.get F.TIME_LTC_STAT_JUMPS = (if a = tcNext r (s.get F.TIME_LTC_ADDR_ADDR) then s.get F.TIME_LTC_STAT_JUMPS else
              min (s.get F.TIME_LTC_STAT_JUMPS + 1) 65535)))))) ∧
    (s.get F.TIME_STATUS_LTC_LOCK = 0 → Answers .ltcLossTimeout s (fun t => t = s)) ∧
    (s.get F.TIME_STATUS_LTC_LOCK = 1 → Answers .ltcLossTimeout s (fun t => t.get F.TIME_STATUS_LTC_LOCK = 0 ∧ t.get F.TIME_STATUS_GEN_FREE = 1 ∧
      t.get F.TIME_LTC_STAT_LOCK_LOSS = min (s.get F.TIME_LTC_STAT_LOCK_LOSS + 1) 65535 ∧ t.tim.cand = none ∧
      t.getBit (F.EVT_RAW Pg.TIME) E.TIME_LTC_UNLOCK.bit = true ∧ t.get F.TIME_GEN_ADDR_ADDR = s.get F.TIME_GEN_ADDR_ADDR)) ∧
    (s.ready Fn.LTC = false → Answers .generatorBoundary s (fun t => t = s)) ∧
    (s.ready Fn.LTC = true → s.tim.ltcEn = true → s.get F.TIME_TC_CFG_LTC_EN = 1 →
      (∀ a : Nat, s.tim.preset = some a → Answers .generatorBoundary s (fun t => t.get F.TIME_GEN_ADDR_ADDR = a % 2 ^ 32 ∧ t.tim.preset = none ∧
        t.tim.genRate = s.get F.TIME_TC_CFG_GEN_RATE ∧ t.get F.TIME_PERIOD_TICKS_Q8 = nominalPeriod (s.get F.TIME_TC_CFG_GEN_RATE) % 2 ^ 32)) ∧
      (s.tim.preset = none → s.tim.genCfg = s.get F.TIME_TC_CFG_GEN_RATE → Answers .generatorBoundary s (fun t =>
        t.get F.TIME_GEN_ADDR_ADDR = tcNext s.tim.genRate (s.get F.TIME_GEN_ADDR_ADDR) % 2 ^ 32 ∧ t.tim.genTb = s.tb ∧ t.tim.genRate = s.tim.genRate))) ∧
    (∀ (who : Req) (a : Nat), (s.dropHeld who).takes who Pg.TIME 0x160 →
      let s0 := s.dropHeld who
      (s0.get F.TIME_STATUS_LTC_LOCK = 1 ∨ tcValid (s0.get F.TIME_TC_CFG_GEN_RATE) (a % 2 ^ 32) = false → Answers (.genPreset who a) s (fun t =>
        t = s0.raise E.TIME_PRESET_IGNORED)) ∧
      (s0.get F.TIME_STATUS_LTC_LOCK = 0 → tcValid (s0.get F.TIME_TC_CFG_GEN_RATE) (a % 2 ^ 32) = true → Answers (.genPreset who a) s (fun t =>
        t = { s0 with tim := { s0.tim with preset := some (a % 2 ^ 32) } })))

/-- R618 to R625: characters and breaks enter the receive FIFO with their time, and are lost and counted where it is full; what is sent and when; CFG only
while the UART is off. -/
def Obligations.SerialPorts : Prop :=
  ∀ (s : State) (n : Nat), n < 2 → s.aser.length = 2 →
    (s.uartOn n = false → (∀ (d : Nat) (f p : Bool), Answers (.uartCharacter n d f p) s (fun t => t = s)) ∧ Answers (.breakCondition n) s (fun t => t = s)) ∧
    (s.uartOn n = true → s.captures n = false →
      let lost (b : Nat) : Nat := b + (if (s.uart n).lost then 8 else 0)
      ((s.uart n).rx.length < 64 →
        Answers (.breakCondition n) s (fun t => (t.uart n).rx = (s.uart n).rx ++ [⟨0, lost 4, s.tb % 2 ^ 48⟩] ∧ (t.uart n).lost = false ∧
          (t.uart n).tx = (s.uart n).tx ∧ t.get (F.ASER_BREAKS_COUNT n) = min (s.get (F.ASER_BREAKS_COUNT n) + 1) 65535) ∧
        (∀ (d : Nat) (f p : Bool), Answers (.uartCharacter n d f p) s (fun t =>
          (t.uart n).rx = (s.uart n).rx ++ [⟨d % (if s.get (F.ASER_CFG_DATA7 n) = 1 then 128 else 256),
            lost (b2n f + 2 * b2n (p && s.get (F.ASER_CFG_PARITY n) ≠ 0)), s.tb % 2 ^ 48⟩] ∧ (t.uart n).lost = false ∧
          t.uart (1 - n) = s.uart (1 - n) ∧
          t.get (F.ASER_RX_STAT_FRAMING n) = (if f then min (s.get (F.ASER_RX_STAT_FRAMING n) + 1) 65535 else s.get (F.ASER_RX_STAT_FRAMING n))))) ∧
      (64 ≤ (s.uart n).rx.length → ∀ (d : Nat) (p : Bool), Answers (.uartCharacter n d false p) s (fun t =>
        (t.uart n).rx = (s.uart n).rx ∧ (t.uart n).lost = true ∧
        t.get (F.ASER_RX_STAT_OVERRUN n) = min (s.get (F.ASER_RX_STAT_OVERRUN n) + 1) 65535))) ∧
    ((s.uart n).busy = none → Answers (.uartTxCharacterSent n) s (fun t => t = s)) ∧
    (∀ b : Nat, (s.uart n).busy = some b → Answers (.uartTxCharacterSent n) s (fun t => (t.uart n).sent = (s.uart n).sent ++ [b] ∧
      ((s.uart n).tx = [] → (t.uart n).busy = none ∧ t.getBit (F.EVT_RAW Pg.ASER) (E.ASER_TX_EMPTY n).bit = true) ∧
      (∀ c rest, (s.uart n).tx = c :: rest → s.get (F.ASER_CTL_EN n) = 1 → s.get (F.ASER_CTL_SEND_BREAK n) = 0 →
        (t.uart n).busy = some c ∧ (t.uart n).tx = rest))) ∧
    (∀ who : Req,
      let s0 := s.dropHeld who
      (s0.takes who Pg.ASER (aserBase n + 0x20) → ∀ d : Nat,
        (64 ≤ (s0.uart n).tx.length → Answers (.txPush who n d) s (fun t => t = s0.inc (F.ASER_TX_STAT_REFUSED n))) ∧
        ((s0.uart n).tx.length < 64 → (s0.uart n).busy.isSome = true → Answers (.txPush who n d) s (fun t =>
          t = { s0 with aser := t.aser } ∧ (t.uart n).tx = (s0.uart n).tx ++ [d % 256] ∧ (t.uart n).busy = (s0.uart n).busy)) ∧
        ((s0.uart n).tx = [] → (s0.uart n).busy = none → s0.get (F.ASER_CTL_EN n) = 1 → s0.get (F.ASER_CTL_SEND_BREAK n) = 0 →
          Answers (.txPush who n d) s (fun t => t = { s0 with aser := t.aser } ∧ (t.uart n).busy = some (d % 256) ∧ (t.uart n).tx = []))) ∧
      (s0.takes who Pg.ASER (aserBase n + 0x18) → ∀ k : Nat, k < 128 → Answers (.rxPop who n k) s (fun t => t = { s0 with aser := t.aser } ∧
        (t.uart n).rx = (s0.uart n).rx.drop k ∧ (t.uart n).tx = (s0.uart n).tx ∧ t.uart (1 - n) = s0.uart (1 - n))) ∧
      (s0.takes who Pg.ASER (aserBase n) →
        Answers (.sendBreak who n true) s (fun t => t = s0.set (F.ASER_CTL_SEND_BREAK n) 1) ∧
        Answers (.sendBreak who n false) s (fun t => t = (s0.set (F.ASER_CTL_SEND_BREAK n) 0).txStart n) ∧
        Answers (.uartCtlEn who n false) s (fun t => t = s0.set (F.ASER_CTL_EN n) 0) ∧
        Answers (.uartCtlEn who n true) s (fun t => t = (s0.set (F.ASER_CTL_EN n) 1).txStart n)) ∧
      (s0.takes who Pg.ASER (aserBase n + 0x08) → ∀ v : Nat,
        (s0.get (F.ASER_CTL_EN n) = 1 → Answers (.uartCfgWrite who n v) s (fun t => t = s0.raise (E.ASER_CFG_IGNORED n))) ∧
        (s0.get (F.ASER_CTL_EN n) ≠ 1 → bits v 26 2 < 3 → 333 ≤ bits v 0 22 → bits v 0 22 ≤ 208334 → frameBits v < bits v 32 6 →
          Answers (.uartCfgWrite who n v) s (fun t => OnlyFields [F.ASER_CFG_STOP2 n, F.ASER_CFG_DATA7 n, F.ASER_CFG_PARITY n, F.ASER_CFG_DIVQ6 n,
              F.ASER_CFG_BREAK_BITS n] s0 t ∧
            t.get (F.ASER_CFG_DIVQ6 n) = bits v 0 22 ∧ t.get (F.ASER_CFG_PARITY n) = bits v 26 2 ∧ t.get (F.ASER_CFG_DATA7 n) = bits v 24 1 ∧
            t.get (F.ASER_CFG_STOP2 n) = bits v 28 1 ∧ t.get (F.ASER_CFG_BREAK_BITS n) = bits v 32 6))))

/-! ### Reset and what every step keeps -/

/-- After a power-on reset every field of every page reads its reset value, the protected buffer is empty, the timebase stands at 0, the mode is Wake and
nothing waits. Reset values that the spec does not give are the model's choice: assumption log entries 1, 2, 19, 20 and 92. -/
def Obligations.ResetState : Prop :=
  (∀ f : Field, State.reset.get f = f.rst ∧ State.reset.getP f = f.rst) ∧ State.reset.slots = [] ∧ State.reset.tb = 0 ∧ State.reset.mode = Md.WAKE ∧
    State.reset.pending = [] ∧ (∀ p, p < 96 → State.reset.dirty p = false ∧ State.reset.mixed p = false) ∧
    step State.reset = .next { State.reset with tb := 1 }

/-- The memories of the block have their canonical form after reset. -/
def Obligations.MemoryAtReset : Prop := State.reset.memOk

/-- From every state whose byte memories have their canonical form (addresses strictly rising, no cell that reads as an unlisted one
does), whatever command stands in front of the queue, and on an empty queue: the step answers a next state, whose memories have that
form again, and whose queue is the old one without its front command. No command stops the block, and none adds to the queue. -/
def Obligations.StepsCompleteAndKeepMemory : Prop :=
  ∀ s : State, s.memOk → ∃ t, step s = .next t ∧ t.memOk ∧ t.pending = s.pending.tail
end

