-- ==== Sys2Proof/Laws/Kept.lean ====
section
/-!
SUPPORT. What every operation of the machine keeps, said once: the byte memories (DRAM and the code store) keep their canonical
form, and the queue of waiting commands stays as it is. Here are the property and the lemmas that carry it through the forms that
definitions are written in; the files Kept… beside this one have one lemma for each operation and each command.
-/

namespace Sys2Proof.Machine

theorem Memory.wf_iff (m : Memory) : Memory.wf m = true ↔ m.Pairwise (fun a b => a.1 < b.1) ∧ ∀ c ∈ m, c.2 ≠ 0 := by
  fun_induction Memory.wf m with
  | case1 => simp
  | case2 => simp
  | case3 a b a' b' m ih =>
    simp only [Bool.and_eq_true, decide_eq_true_eq, ih, List.pairwise_cons, List.mem_cons, forall_eq_or_imp]
    constructor
    · rintro ⟨⟨hb, ha⟩, ⟨⟨h1, h2⟩, h3, h4⟩⟩
      exact ⟨⟨⟨ha, fun c hc => Nat.lt_trans ha (h1 c hc)⟩, h1, h2⟩, hb, h3, h4⟩
    · rintro ⟨⟨⟨ha, -⟩, h1, h2⟩, hb, h3, h4⟩
      exact ⟨⟨hb, ha⟩, ⟨⟨h1, h2⟩, h3, h4⟩⟩

theorem Memory.filter_wf {m : Memory} (p : Host.Cell → Bool) (h : Memory.wf m = true) : Memory.wf (m.filter p) = true := by
  rw [Memory.wf_iff] at h ⊢
  exact ⟨h.1.filter p, fun c hc => h.2 c (List.mem_filter.mp hc).1⟩

theorem Memory.ofNat_ne {v : Nat} (h : ¬v % 256 = 0) : BitVec.ofNat 8 v ≠ 0 := by
  intro e
  have := congrArg BitVec.toNat e
  simp at this
  omega

theorem Memory.write_wf {m : Memory} (a v : Nat) (h : Memory.wf m = true) : Memory.wf (Memory.write m a v) = true := by
  rw [Memory.wf_iff] at h ⊢
  suffices H : (Memory.write m a v).Pairwise (fun a b => a.1 < b.1) ∧ (∀ c ∈ Memory.write m a v, c.2 ≠ 0) ∧
      ∀ b, b < a → (∀ c ∈ m, b < c.1) → ∀ c ∈ Memory.write m a v, b < c.1 from ⟨H.1, H.2.1⟩
  induction m with
  | nil =>
    by_cases hv : v % 256 = 0
    · simp [Memory.write, hv]
    · simpa [Memory.write, hv] using Memory.ofNat_ne hv
  | cons x m ih =>
    obtain ⟨a', b⟩ := x
    obtain ⟨h1, h2⟩ := h
    rw [List.pairwise_cons] at h1
    have hb : b ≠ 0 := h2 (a', b) (List.mem_cons_self ..)
    have h2' : ∀ c ∈ m, c.2 ≠ 0 := fun c hc => h2 c (List.mem_cons_of_mem _ hc)
    obtain ⟨i1, i2, i3⟩ := ih ⟨h1.2, h2'⟩
    by_cases hlt : a < a'
    · by_cases hv : v % 256 = 0
      · simp only [Memory.write, hlt, hv, if_true]
        exact ⟨List.pairwise_cons.mpr h1, h2, fun b _ hc => hc⟩
      · simp only [Memory.write, hlt, hv, if_true, if_false]
        refine ⟨List.pairwise_cons.mpr ⟨?_, List.pairwise_cons.mpr h1⟩, ?_, ?_⟩
        · intro c hc
          rcases List.mem_cons.mp hc with rfl | hc
          · exact hlt
          · exact Nat.lt_trans hlt (h1.1 c hc)
        · intro c hc
          rcases List.mem_cons.mp hc with rfl | hc
          · exact Memory.ofNat_ne hv
          · exact h2 c hc
        · intro b hb hc c hm
          rcases List.mem_cons.mp hm with rfl | hm
          · exact hb
          · exact hc c hm
    · by_cases he : a = a'
      · subst he
        by_cases hv : v % 256 = 0
        · simp only [Memory.write, Nat.lt_irrefl, hv, if_true, if_false]
          exact ⟨h1.2, h2', fun b _ hc c hm => hc c (List.mem_cons_of_mem _ hm)⟩
        · simp only [Memory.write, Nat.lt_irrefl, hv, if_true, if_false]
          refine ⟨List.pairwise_cons.mpr h1, ?_, ?_⟩
          · intro c hc
            rcases List.mem_cons.mp hc with rfl | hc
            · exact Memory.ofNat_ne hv
            · exact h2' c hc
          · intro b hb hc c hm
            rcases List.mem_cons.mp hm with rfl | hm
            · exact hb
            · exact hc c (List.mem_cons_of_mem _ hm)
      · simp only [Memory.write, hlt, he, if_false]
        refine ⟨List.pairwise_cons.mpr ⟨fun c hc => i3 a' (by omega) h1.1 c hc, i1⟩, ?_, ?_⟩
        · intro c hc
          rcases List.mem_cons.mp hc with rfl | hc
          · exact hb
          · exact i2 c hc
        · intro b hb hc c hm
          rcases List.mem_cons.mp hm with rfl | hm
          · exact hc (a', _) (List.mem_cons_self ..)
          · exact i3 b hb (fun c h => hc c (List.mem_cons_of_mem _ h)) c hm

theorem Memory.writeBytes_wf {m : Memory} {a : Nat} (bs : List Nat) (h : Memory.wf m = true) : Memory.wf (Memory.writeBytes m a bs) = true := by
  induction bs generalizing m a with
  | nil => exact h
  | cons b bs ih => exact ih (Memory.write_wf a b h)

/-- The byte memories have their canonical form, and `q` is the queue of waiting commands. -/
structure Kept (q : List Instr) (s : State) : Prop where
  mem : Memory.wf s.dram.mem = true
  store : Memory.wf s.nv.store = true
  queue : s.pending = q

theorem kept_gen {q : List Instr} {P : State → Prop} (x : State) (h : Kept q x) (k : ∀ y, Kept q y → P y) : P x := k x h

theorem kept_imp {q : List Instr} {P : Prop} (x : State) (h : Kept q x) (k : Kept q x → P) : P := k h

theorem kept_ite {q : List Instr} {c : Prop} [Decidable c] {a b : State} (ha : Kept q a) (hb : Kept q b) :
    Kept q (if c then a else b) := by
  split
  · exact ha
  · exact hb

theorem kept_parts {q : List Instr} {s : State} {regs pend adopt tb fresh fabric pins mc slots led bud host ing frm map tim pair mbx fi net
    sdma code tst sec bist aser keep} (h : Kept q s) :
    Kept q { regs := regs, pend := pend, adopt := adopt, tb := tb, fresh := fresh, fabric := fabric, pins := pins, mc := mc, slots := slots,
             led := led, bud := bud, host := host, ing := ing, frm := frm, map := map, tim := tim, pair := pair, mbx := mbx, fi := fi,
             net := net, dram := s.dram, sdma := sdma, code := code, tst := tst, sec := sec, bist := bist, aser := aser, keep := keep,
             nv := s.nv, pending := s.pending } := ⟨h.mem, h.store, h.queue⟩

theorem kept_foldl {q : List Instr} {α : Type} {f : State → α → State} {l : List α} {s : State} (hf : ∀ s x, Kept q s → Kept q (f s x))
    (h : Kept q s) : Kept q (l.foldl f s) := by
  induction l generalizing s with
  | nil => exact h
  | cons a l ih => exact ih (hf s a h)


theorem kept_snd {q : List Instr} {α : Type} {p : α × State} {a : α} {b : State} (e : p = (a, b)) (h : Kept q p.2) : Kept q b := by
  subst e; exact h

theorem kept_fst {q : List Instr} {α : Type} {p : State × α} {a : α} {b : State} (e : p = (b, a)) (h : Kept q p.1) : Kept q b := by
  subst e; exact h

theorem kept_ite_snd {q : List Instr} {α : Type} {c : Prop} [Decidable c] {a b : α × State} (ha : Kept q a.2) (hb : Kept q b.2) :
    Kept q (if c then a else b).2 := by
  split
  · exact ha
  · exact hb

theorem kept_ite_fst {q : List Instr} {α : Type} {c : Prop} [Decidable c] {a b : State × α} (ha : Kept q a.1) (hb : Kept q b.1) :
    Kept q (if c then a else b).1 := by
  split
  · exact ha
  · exact hb

theorem kept_nv {q : List Instr} {s : State} {regs pend adopt tb fresh fabric pins mc slots led bud host ing frm map tim pair mbx
    fi net sdma code tst sec bist aser keep n0 n1 n2 n3 n4 n5 n6 n7 n8 n9 n10 n11 n12 n13 n14 n15 n16 n17 n18 n19 n20 n21 n22 n23
    n24 n25 n26 n27 n28 n29 n30 n31 n32 n33 n34 n35 n36 n37 n39 n40 n41 n42 n43 n44 n45 n46 n47 n48 n49 n50} (h : Kept q s) : Kept
    q ⟨regs, pend, adopt, tb, fresh, fabric, pins, mc, slots, led, bud, host, ing, frm, map, tim, pair, mbx, fi, net, s.dram, sdma,
    code, tst, sec, bist, aser, keep, ⟨n0, n1, n2, n3, n4, n5, n6, n7, n8, n9, n10, n11, n12, n13, n14, n15, n16, n17, n18, n19,
    n20, n21, n22, n23, n24, n25, n26, n27, n28, n29, n30, n31, n32, n33, n34, n35, n36, n37, s.nv.store, n39, n40, n41, n42, n43,
    n44, n45, n46, n47, n48, n49, n50⟩, s.pending⟩ := ⟨h.mem, h.store, h.queue⟩

theorem kept_dram {q : List Instr} {s : State} {regs pend adopt tb fresh fabric pins mc slots led bud host ing frm map tim pair mbx
    fi net sdma code tst sec bist aser keep d1 d2 d3 d4 d5 d6 d7 d8 d9 d10 d11 d12 d13} (h : Kept q s) : Kept q ⟨regs, pend, adopt,
    tb, fresh, fabric, pins, mc, slots, led, bud, host, ing, frm, map, tim, pair, mbx, fi, net, ⟨s.dram.mem, d1, d2, d3, d4, d5,
    d6, d7, d8, d9, d10, d11, d12, d13⟩, sdma, code, tst, sec, bist, aser, keep, s.nv, s.pending⟩ := ⟨h.mem, h.store, h.queue⟩

theorem kept_store {q : List Instr} {s : State} {regs pend adopt tb fresh fabric pins mc slots led bud host ing frm map tim pair
    mbx fi net sdma code tst sec bist aser keep m n0 n1 n2 n3 n4 n5 n6 n7 n8 n9 n10 n11 n12 n13 n14 n15 n16 n17 n18 n19 n20 n21 n22
    n23 n24 n25 n26 n27 n28 n29 n30 n31 n32 n33 n34 n35 n36 n37 n39 n40 n41 n42 n43 n44 n45 n46 n47 n48 n49 n50} (hm : Memory.wf m
    = true) (h : Kept q s) : Kept q ⟨regs, pend, adopt, tb, fresh, fabric, pins, mc, slots, led, bud, host, ing, frm, map, tim,
    pair, mbx, fi, net, s.dram, sdma, code, tst, sec, bist, aser, keep, ⟨n0, n1, n2, n3, n4, n5, n6, n7, n8, n9, n10, n11, n12,
    n13, n14, n15, n16, n17, n18, n19, n20, n21, n22, n23, n24, n25, n26, n27, n28, n29, n30, n31, n32, n33, n34, n35, n36, n37, m,
    n39, n40, n41, n42, n43, n44, n45, n46, n47, n48, n49, n50⟩, s.pending⟩ := ⟨h.mem, hm, h.queue⟩

theorem kept_mem {q : List Instr} {s : State} {regs pend adopt tb fresh fabric pins mc slots led bud host ing frm map tim pair mbx
    fi net sdma code tst sec bist aser keep m d1 d2 d3 d4 d5 d6 d7 d8 d9 d10 d11 d12 d13} (hm : Memory.wf m = true) (h : Kept q s)
    : Kept q ⟨regs, pend, adopt, tb, fresh, fabric, pins, mc, slots, led, bud, host, ing, frm, map, tim, pair, mbx, fi, net, ⟨m,
    d1, d2, d3, d4, d5, d6, d7, d8, d9, d10, d11, d12, d13⟩, sdma, code, tst, sec, bist, aser, keep, s.nv, s.pending⟩ := ⟨hm,
    h.store, h.queue⟩

theorem kept_foldl_fst {q : List Instr} {α β : Type} {f : State × β → α → State × β} {l : List α} {p : State × β}
    (hf : ∀ p x, Kept q p.1 → Kept q (f p x).1) (h : Kept q p.1) : Kept q (l.foldl f p).1 := by
  induction l generalizing p with
  | nil => exact h
  | cons a l ih => exact ih (hf p a h)

theorem kept_foldl_snd {q : List Instr} {α β : Type} {f : β × State → α → β × State} {l : List α} {p : β × State}
    (hf : ∀ p x, Kept q p.2 → Kept q (f p x).2) (h : Kept q p.2) : Kept q (l.foldl f p).2 := by
  induction l generalizing p with
  | nil => exact h
  | cons a l ih => exact ih (hf p a h)

end Sys2Proof.Machine
end

