-- ==== Sys2Proof/Laws/KeptRegisters.lean ====
section
/-!
SUPPORT. One lemma for each operation and each command of the operations over registers, events, snapshots, functions, resets and slots: it keeps the byte memories' form and the queue; a command answers a
next state.
-/

namespace Sys2Proof.Machine

/-! ### Ops.lean -/

theorem State.set_kept {q : List Instr} (s : State) (f : Field) (v : Nat) (h : Kept q s) : Kept q (State.set s f v) := by
  unfold State.set
  repeat' first | (with_reducible apply kept_parts; with_reducible assumption)

theorem State.setP_kept {q : List Instr} (s : State) (f : Field) (v : Nat) (h : Kept q s) : Kept q (State.setP s f v) := by
  unfold State.setP
  repeat' first | (with_reducible apply kept_parts; with_reducible assumption)

theorem State.setBitTo_kept {q : List Instr} (s : State) (f : Field) (n : Nat) (b : Bool) (h : Kept q s) : Kept q
    (State.setBitTo s f n b) := by
  unfold State.setBitTo
  repeat' first | with_reducible assumption | with_reducible apply State.set_kept

theorem State.setPart_kept {q : List Instr} (s : State) (f : Field) (n : Nat) (w : Nat) (v : Nat) (h : Kept q s) : Kept q
    (State.setPart s f n w v) := by
  unfold State.setPart
  repeat' first | with_reducible assumption | with_reducible apply State.set_kept

theorem State.addSat_kept {q : List Instr} (s : State) (f : Field) (n : Nat) (h : Kept q s) : Kept q (State.addSat s f n) := by
  unfold State.addSat
  repeat' first | with_reducible assumption | with_reducible apply State.set_kept

theorem State.inc_kept {q : List Instr} (s : State) (f : Field) (h : Kept q s) : Kept q (State.inc s f) := by
  unfold State.inc
  repeat' first | with_reducible assumption | with_reducible apply State.addSat_kept

theorem State.addWrap_kept {q : List Instr} (s : State) (f : Field) (n : Nat) (h : Kept q s) : Kept q (State.addWrap s f n) := by
  unfold State.addWrap
  repeat' first | with_reducible assumption | with_reducible apply State.set_kept

theorem State.incPart_kept {q : List Instr} (s : State) (f : Field) (n : Nat) (w : Nat) (h : Kept q s) : Kept q (State.incPart s f n w) := by
  unfold State.incPart
  repeat' first | with_reducible assumption | with_reducible apply State.setPart_kept

theorem State.clear_kept {q : List Instr} (s : State) (fs : List Field) (h : Kept q s) : Kept q (State.clear s fs) := by
  unfold State.clear
  repeat' first | with_reducible assumption | intro _ | with_reducible apply State.set_kept | with_reducible apply kept_foldl

theorem State.setEvt_kept {q : List Instr} (s : State) (e : Ev) (h : Kept q s) : Kept q (State.setEvt s e) := by
  unfold State.setEvt
  repeat' first | with_reducible assumption | with_reducible apply State.setBitTo_kept

theorem State.setIsl_kept {q : List Instr} (s : State) (i : Nat) (v : Nat) (h : Kept q s) : Kept q (State.setIsl s i v) := by
  unfold State.setIsl
  repeat' first | with_reducible assumption | with_reducible apply State.setPart_kept


/-! ### Flags.lean -/

theorem State.draw_kept {q : List Instr} (s : State) (h : Kept q s) : Kept q (State.draw s) := by
  unfold State.draw
  repeat' first | (with_reducible apply kept_parts; with_reducible assumption)

theorem latchPage_kept {q : List Instr} (s0 : State) (epoch : Nat) (source : Nat) (s : State) (p : Nat) (_h : Kept q s0)
    (h3 : Kept q s) : Kept q (latchPage s0 epoch source s p) := by
  unfold latchPage
  repeat' first
    | with_reducible assumption | intro _ | (extract_lets +onlyGivenNames x; unfold x; clear x) | with_reducible apply State.set_kept
    | with_reducible apply kept_foldl

theorem State.takeSnapshot_kept {q : List Instr} (s : State) (source : Nat) (h : Kept q s) : Kept q (State.takeSnapshot s source) := by
  unfold State.takeSnapshot
  repeat' first
    | with_reducible assumption | intro _ | (extract_lets +onlyGivenNames x; unfold x; clear x) | with_reducible apply latchPage_kept
    | with_reducible apply State.set_kept | with_reducible apply kept_foldl
    | (with_reducible apply kept_parts; with_reducible apply State.set_kept)

theorem State.joinSnapshot_kept {q : List Instr} (s : State) (source : Nat) (h : Kept q s) : Kept q (State.joinSnapshot s source) := by
  unfold State.joinSnapshot
  repeat' first
    | with_reducible assumption | intro _ | with_reducible apply State.set_kept | with_reducible apply State.inc_kept
    | with_reducible apply kept_foldl

theorem State.trigger_kept {q : List Instr} (s : State) (source : Nat) (h : Kept q s) : Kept q (State.trigger s source) := by
  unfold State.trigger
  repeat' first
    | with_reducible assumption | with_reducible apply State.inc_kept | with_reducible apply State.joinSnapshot_kept
    | with_reducible apply State.takeSnapshot_kept | with_reducible apply kept_ite

theorem State.pairPump_kept {q : List Instr} (x0 : Nat) (x1 : Nat) (x2 : State) (h : Kept q x2) : Kept q (State.pairPump x0 x1 x2) := by
  induction x0 generalizing x1 x2 with
  | zero => unfold State.pairPump; assumption
  | succ n ih =>
  unfold State.pairPump
  repeat' first
    | with_reducible assumption | (extract_lets +onlyGivenNames x; unfold x; clear x) | with_reducible apply ih
    | with_reducible apply kept_ite | (with_reducible apply kept_parts; with_reducible apply State.set_kept) | split

theorem State.pairSend_kept {q : List Instr} (s : State) (m : PairMsg) (h : Kept q s) : Kept q (State.pairSend s m) := by
  unfold State.pairSend
  repeat' first
    | with_reducible assumption | (extract_lets +onlyGivenNames x; unfold x; clear x) | with_reducible apply State.pairPump_kept
    | with_reducible apply kept_ite | (with_reducible apply kept_parts; with_reducible assumption) | split

theorem State.snapshot_kept {q : List Instr} (s : State) (source : Nat) (h : Kept q s) : Kept q (State.snapshot s source) := by
  unfold State.snapshot
  repeat' first
    | with_reducible assumption | (extract_lets +onlyGivenNames x; unfold x; clear x) | with_reducible apply State.trigger_kept
    | with_reducible apply State.pairSend_kept | with_reducible apply kept_ite

theorem State.postEntry_kept {q : List Instr} (s : State) (e : Cqe) (h : Kept q s) : Kept q (State.postEntry s e) := by
  unfold State.postEntry
  repeat' first
    | with_reducible assumption | (extract_lets +onlyGivenNames x; unfold x; clear x) | with_reducible apply State.pairSend_kept
    | with_reducible apply kept_ite | (with_reducible apply kept_parts; with_reducible assumption) | split

theorem State.fiUnit_kept {q : List Instr} (s : State) (i : Nat) (h : Kept q s) : Kept q (State.fiUnit s i).2 := by
  unfold State.fiUnit
  repeat' first
    | with_reducible assumption | (extract_lets +onlyGivenNames x; unfold x; clear x) | with_reducible apply State.addSat_kept
    | with_reducible apply State.setEvt_kept | with_reducible apply State.set_kept | with_reducible apply State.inc_kept
    | with_reducible apply kept_ite | with_reducible apply kept_ite_snd

theorem State.fiCorrupt_kept {q : List Instr} (s : State) (i : Nat) (acts : Bool) (ws : List Nat) (h : Kept q s) : Kept q
    (State.fiCorrupt s i acts ws).2 := by
  unfold State.fiCorrupt
  repeat' first | (extract_lets +onlyGivenNames x; unfold x; clear x) | (with_reducible apply kept_parts; with_reducible assumption)

theorem State.post_kept {q : List Instr} (s : State) (e : Cqe) (h : Kept q s) : Kept q (State.post s e) := by
  unfold State.post
  repeat' first
    | with_reducible assumption | (extract_lets +onlyGivenNames x; unfold x; clear x) | with_reducible apply State.fiUnit_kept
    | with_reducible apply State.fiCorrupt_kept | with_reducible apply State.set_kept | with_reducible apply State.postEntry_kept
    | with_reducible apply kept_ite | (with_reducible apply kept_parts; with_reducible refine kept_snd (by with_reducible assumption) ?_)
    | (with_reducible apply kept_parts; with_reducible apply State.postEntry_kept) | with_reducible apply kept_ite_snd | split

theorem State.untrack_kept {q : List Instr} (s : State) (id : Cid) (h : Kept q s) : Kept q (State.untrack s id) := by
  unfold State.untrack
  repeat' first | (extract_lets +onlyGivenNames x; unfold x; clear x) | (with_reducible apply kept_parts; with_reducible assumption)

theorem State.shutCheck_kept {q : List Instr} (s : State) (h : Kept q s) : Kept q (State.shutCheck s) := by
  unfold State.shutCheck
  repeat' first
    | with_reducible assumption | (extract_lets +onlyGivenNames x; unfold x; clear x) | with_reducible apply kept_ite
    | (with_reducible apply kept_parts; with_reducible assumption)

theorem State.complete_kept {q : List Instr} (s : State) (id : Cid) (sct : Nat) (sc : Nat) (dnr : Bool) (dw0 : Nat) (dw1 : Nat)
    (data : List Nat) (h : Kept q s) : Kept q (State.complete s id sct sc dnr dw0 dw1 data) := by
  unfold State.complete
  repeat' first
    | with_reducible assumption | intro _ | (extract_lets +onlyGivenNames x; unfold x; clear x) | with_reducible apply State.post_kept
    | with_reducible apply State.untrack_kept | with_reducible apply State.shutCheck_kept | with_reducible apply kept_foldl

theorem State.ok_kept {q : List Instr} (s : State) (id : Cid) (dw0 : Nat) (dw1 : Nat) (data : List Nat) (h : Kept q s) : Kept q
    (State.ok s id dw0 dw1 data) := by
  unfold State.ok
  repeat' first | with_reducible assumption | with_reducible apply State.complete_kept

theorem State.fail_kept {q : List Instr} (s : State) (id : Cid) (sct : Nat) (sc : Nat) (h : Kept q s) : Kept q (State.fail s id sct sc) := by
  unfold State.fail
  repeat' first | with_reducible assumption | with_reducible apply State.complete_kept

theorem State.aen_kept {q : List Instr} (s : State) (a : Aen) (h : Kept q s) : Kept q (State.aen s a) := by
  unfold State.aen
  repeat' first
    | with_reducible assumption | (extract_lets +onlyGivenNames x; unfold x; clear x) | with_reducible apply State.ok_kept
    | with_reducible apply kept_ite | (with_reducible apply kept_parts; with_reducible assumption) | split

theorem State.vendorEvent_kept {q : List Instr} (s : State) (info : Nat) (log : Nat) (h : Kept q s) : Kept q
    (State.vendorEvent s info log) := by
  unfold State.vendorEvent
  repeat' first | with_reducible assumption | with_reducible apply State.aen_kept

theorem State.rearmEvent_kept {q : List Instr} (s : State) (info : Nat) (log : Nat) (h : Kept q s) : Kept q
    (State.rearmEvent s info log) := by
  unfold State.rearmEvent
  repeat' first | (extract_lets +onlyGivenNames x; unfold x; clear x) | (with_reducible apply kept_parts; with_reducible assumption)

theorem State.reroute_kept {q : List Instr} (s : State) (h : Kept q s) : Kept q (State.reroute s) := by
  unfold State.reroute
  repeat' first
    | with_reducible assumption | (extract_lets +onlyGivenNames x; unfold x; clear x) | with_reducible apply State.vendorEvent_kept
    | with_reducible apply State.rearmEvent_kept | with_reducible apply kept_ite
    | (with_reducible apply kept_parts; with_reducible assumption)

theorem State.raise_kept {q : List Instr} (s : State) (e : Ev) (h : Kept q s) : Kept q (State.raise s e) := by
  unfold State.raise
  repeat' first
    | with_reducible assumption | (extract_lets +onlyGivenNames x; unfold x; clear x) | with_reducible apply State.setEvt_kept
    | with_reducible apply State.snapshot_kept | with_reducible apply State.reroute_kept | with_reducible apply kept_ite

theorem State.raiseIf_kept {q : List Instr} (s : State) (c : Bool) (e : Ev) (h : Kept q s) : Kept q (State.raiseIf s c e) := by
  unfold State.raiseIf
  repeat' first | with_reducible assumption | with_reducible apply State.raise_kept | with_reducible apply kept_ite

theorem State.vendor_kept {q : List Instr} (s : State) (id : Cid) (sc : Nat) (dw0 : Nat) (h : Kept q s) : Kept q
    (State.vendor s id sc dw0) := by
  unfold State.vendor
  repeat' first
    | with_reducible assumption | (extract_lets +onlyGivenNames x; unfold x; clear x) | with_reducible apply State.complete_kept
    | with_reducible apply State.raise_kept | with_reducible apply State.inc_kept | with_reducible apply kept_ite | split

theorem State.wakeOut_kept {q : List Instr} (s : State) (sel : Field) (h : Kept q s) : Kept q (State.wakeOut s sel) := by
  unfold State.wakeOut
  repeat' first
    | with_reducible assumption | (extract_lets +onlyGivenNames x; unfold x; clear x) | with_reducible apply kept_ite
    | (with_reducible apply kept_parts; with_reducible assumption)

theorem State.ioArrival_kept {q : List Instr} (s : State) (h : Kept q s) : Kept q (State.ioArrival s) := by
  unfold State.ioArrival
  repeat' first
    | with_reducible assumption | (extract_lets +onlyGivenNames x; unfold x; clear x) | with_reducible apply State.raise_kept
    | with_reducible apply kept_ite | (with_reducible apply kept_parts; with_reducible assumption)

theorem State.cascade_kept {q : List Instr} (s : State) (h : Kept q s) : Kept q (State.cascade s) := by
  unfold State.cascade
  repeat' first
    | with_reducible assumption | intro _ | with_reducible apply State.setBitTo_kept | with_reducible apply kept_ite
    | with_reducible apply kept_foldl

theorem State.setReady_kept {q : List Instr} (s : State) (n : Nat) (h : Kept q s) : Kept q (State.setReady s n) := by
  unfold State.setReady
  repeat' first
    | with_reducible assumption | with_reducible apply State.raise_kept | with_reducible apply State.setBitTo_kept
    | with_reducible apply kept_ite

theorem State.clearDir_kept {q : List Instr} (s : State) (d : Nat) (h : Kept q s) : Kept q (State.clearDir s d) := by
  unfold State.clearDir
  repeat' first
    | with_reducible assumption | (extract_lets +onlyGivenNames x; unfold x; clear x) | with_reducible apply State.set_kept
    | (with_reducible apply kept_parts; with_reducible apply State.set_kept)

theorem State.resetSetP_kept {q : List Instr} (s : State) (h : Kept q s) : Kept q (State.resetSetP s) := by
  unfold State.resetSetP
  repeat' first
    | with_reducible assumption | (extract_lets +onlyGivenNames x; unfold x; clear x) | with_reducible apply State.clearDir_kept
    | with_reducible apply State.raise_kept | (with_reducible apply kept_parts; with_reducible apply State.addSat_kept)

theorem State.clearReady_kept {q : List Instr} (s : State) (ns : List Nat) (h : Kept q s) : Kept q (State.clearReady s ns) := by
  unfold State.clearReady
  repeat' first
    | with_reducible assumption | intro _ | (extract_lets +onlyGivenNames x; unfold x; clear x) | with_reducible apply State.raise_kept
    | with_reducible apply State.cascade_kept | with_reducible apply State.setBitTo_kept | with_reducible apply State.resetSetP_kept
    | with_reducible apply kept_ite | with_reducible apply kept_foldl

theorem State.faultFn_kept {q : List Instr} (s : State) (n : Nat) (h : Kept q s) : Kept q (State.faultFn s n) := by
  unfold State.faultFn
  repeat' first
    | with_reducible assumption | with_reducible apply State.raise_kept | with_reducible apply State.setBitTo_kept
    | with_reducible apply State.clearReady_kept

theorem State.enterMode_kept {q : List Instr} (s : State) (m : Nat) (cause : Nat) (h : Kept q s) : Kept q (State.enterMode s m cause) := by
  unfold State.enterMode
  repeat' first
    | with_reducible assumption | (extract_lets +onlyGivenNames x; unfold x; clear x) | with_reducible apply State.set_kept
    | with_reducible apply State.raise_kept | with_reducible apply State.rearmEvent_kept | with_reducible apply State.vendorEvent_kept
    | with_reducible apply kept_ite

theorem State.modeRefused_kept {q : List Instr} (s : State) (h : Kept q s) : Kept q (State.modeRefused s) := by
  unfold State.modeRefused
  repeat' first | with_reducible assumption | with_reducible apply State.raise_kept

theorem done_kept {q : List Instr} (s : State) (h : Kept q s) : ∃ t, done s = .next t ∧ Kept q t := by
  unfold done
  refine ⟨_, rfl, ?_⟩
  assumption


/-! ### Fabric.lean -/

theorem State.logAccess_kept {q : List Instr} (s : State) (kind : Nat) (write : Bool) (who : Req) (addr : Nat)
    (h : Kept q s) : Kept q (State.logAccess s kind write who addr) := by
  unfold State.logAccess
  repeat' first | with_reducible assumption | with_reducible apply State.set_kept

theorem State.setHeldW_kept {q : List Instr} (s : State) (who : Req) (x2 : Option Half) (h : Kept q s) : Kept q
    (State.setHeldW s who x2) := by
  unfold State.setHeldW
  repeat' first | (extract_lets +onlyGivenNames x; unfold x; clear x) | (with_reducible apply kept_parts; with_reducible assumption) | split

theorem State.setHeldR_kept {q : List Instr} (s : State) (who : Req) (x2 : Option Half) (h : Kept q s) : Kept q
    (State.setHeldR s who x2) := by
  unfold State.setHeldR
  repeat' first | (extract_lets +onlyGivenNames x; unfold x; clear x) | (with_reducible apply kept_parts; with_reducible assumption) | split

theorem State.dropHeld_kept {q : List Instr} (s : State) (who : Req) (h : Kept q s) : Kept q (State.dropHeld s who) := by
  unfold State.dropHeld
  repeat' first
    | with_reducible assumption | (extract_lets +onlyGivenNames x; unfold x; clear x) | with_reducible apply State.setHeldR_kept
    | with_reducible apply State.logAccess_kept | with_reducible apply State.raise_kept | with_reducible apply State.setHeldW_kept | split

theorem State.lockedWrite_kept {q : List Instr} (s : State) (who : Req) (addr : Nat) (h : Kept q s) : Kept q
    (State.lockedWrite s who addr) := by
  unfold State.lockedWrite
  repeat' first
    | with_reducible assumption | with_reducible apply State.logAccess_kept | with_reducible apply State.raise_kept
    | with_reducible apply State.inc_kept

theorem State.writeField_kept {q : List Instr} (s : State) (who : Req) (addr : Nat) (val : Nat) (mask : Nat) (f : Field)
    (h : Kept q s) : Kept q (State.writeField s who addr val mask f) := by
  unfold State.writeField
  repeat' first
    | with_reducible assumption | (extract_lets +onlyGivenNames x; unfold x; clear x) | with_reducible apply State.set_kept
    | with_reducible apply State.setP_kept | with_reducible apply State.lockedWrite_kept | with_reducible apply kept_ite | split

theorem State.blocked_kept {q : List Instr} (s : State) (who : Req) (p : Nat) (off : Nat)
    (h : Kept q s) : ∀ t, State.blocked s who p off = some t → Kept q t := by
  intro t ht
  unfold State.blocked at ht
  repeat' split at ht
  · cases ht; assumption
  · cases ht; exact State.logAccess_kept _ _ _ _ _ (State.raise_kept _ _ h)
  · cases ht; exact State.logAccess_kept _ _ _ _ _ (State.raise_kept _ _ h)
  · cases ht; exact State.logAccess_kept _ _ _ _ _ (State.raise_kept _ _ h)
  · cases ht

theorem State.writeFields_kept {q : List Instr} (s : State) (who : Req) (p : Nat) (off : Nat) (val : Nat) (mask : Nat)
    (h : Kept q s) : Kept q (State.writeFields s who p off val mask) := by
  unfold State.writeFields
  repeat' first
    | with_reducible assumption | intro _ | (extract_lets +onlyGivenNames x; unfold x; clear x)
    | with_reducible apply State.writeField_kept | with_reducible apply State.reroute_kept | with_reducible apply State.raiseIf_kept
    | with_reducible apply kept_ite | with_reducible apply kept_foldl
    | (with_reducible apply State.blocked_kept; rotate_left; with_reducible assumption) | split

theorem State.regAction_kept {q : List Instr} (s : State) (who : Req) (p : Nat) (off : Nat) (f : State → State) (h : Kept q s)
    (h4 : ∀ y0, Kept q y0 → Kept q (f y0)) : Kept q (State.regAction s who p off f) := by
  unfold State.regAction
  repeat' first
    | with_reducible assumption | (extract_lets +onlyGivenNames x; unfold x; clear x) | with_reducible apply State.dropHeld_kept
    | with_reducible apply h4 | (with_reducible apply State.blocked_kept; rotate_left; with_reducible assumption) | split

theorem State.rwAction_kept {q : List Instr} (s : State) (who : Req) (p : Nat) (off : Nat) (f : State → State) (h : Kept q s)
    (h4 : ∀ y0, Kept q y0 → Kept q (f y0)) : Kept q (State.rwAction s who p off f) := by
  unfold State.rwAction
  repeat' first
    | with_reducible assumption | intro _ | with_reducible apply State.regAction_kept | with_reducible apply State.modeRefused_kept
    | with_reducible apply h4 | with_reducible apply kept_ite


/-! ### Sys.lean -/

theorem State.adoptOne_kept {q : List Instr} (s : State) (e : Nat × Nat) (h : Kept q s) : Kept q (State.adoptOne s e) := by
  unfold State.adoptOne
  repeat' first | with_reducible assumption | with_reducible apply State.setP_kept | with_reducible apply State.set_kept | split

theorem State.adoptPage_kept {q : List Instr} (s : State) (p : Nat) (h : Kept q s) : Kept q (State.adoptPage s p) := by
  unfold State.adoptPage
  repeat' first
    | with_reducible assumption | intro _ | (extract_lets +onlyGivenNames x; unfold x; clear x) | with_reducible apply State.adoptOne_kept
    | with_reducible apply State.set_kept | with_reducible apply State.raiseIf_kept | with_reducible apply kept_foldl
    | (with_reducible apply kept_parts; with_reducible assumption)
    | (with_reducible apply kept_parts; with_reducible apply State.raise_kept)

theorem State.resetPages_kept {q : List Instr} (s : State) (i : Nat) (gate : Bool) (h : Kept q s) : Kept q (State.resetPages s i gate) := by
  unfold State.resetPages
  repeat' first
    | with_reducible assumption | intro _
    | (extract_lets +onlyGivenNames x; with_reducible refine kept_imp (q := q) x ?_ ?_; unfold x; clear x; rotate_left; intro _; clear_value x; revert x; intros; rotate_right)
    | (extract_lets +onlyGivenNames x; unfold x; clear x) | with_reducible apply State.adoptPage_kept | with_reducible apply kept_foldl
    | (with_reducible apply kept_parts; with_reducible assumption)

theorem State.dropSlots_kept {q : List Instr} (s : State) (p : Slot → Bool) (h : Kept q s) : Kept q (State.dropSlots s p) := by
  unfold State.dropSlots
  repeat' first | (with_reducible apply kept_parts; with_reducible assumption)

theorem State.dropReqs_kept {q : List Instr} (s : State) (w : Who) (h : Kept q s) : Kept q (State.dropReqs s w) := by
  unfold State.dropReqs
  repeat' first | (extract_lets +onlyGivenNames x; unfold x; clear x) | (with_reducible apply kept_parts; with_reducible assumption)

theorem State.forget_kept {q : List Instr} (s : State) (p : Cid → Bool) (h : Kept q s) : Kept q (State.forget s p) := by
  unfold State.forget
  repeat' first
    | (extract_lets +onlyGivenNames x; unfold x; clear x) | (with_reducible apply kept_parts; with_reducible assumption)
    | (with_reducible apply kept_parts; with_reducible apply State.dropSlots_kept)

theorem State.wipeIsland_kept {q : List Instr} (s : State) (i : Nat) (h : Kept q s) : Kept q (State.wipeIsland s i) := by
  unfold State.wipeIsland
  split
  · have h1 := State.forget_kept s cidHost h
    exact State.set_kept _ _ _ ⟨h1.mem, h1.store, h1.queue⟩
  · exact kept_parts h
  · exact kept_parts h
  · exact State.dropReqs_kept _ _ (State.dropSlots_kept _ _ (kept_parts h))
  · exact kept_parts h
  · refine kept_mem ?_ h
    split
    · exact Memory.filter_wf _ h.mem
    · rfl
  · exact h

theorem State.changeOwner_kept {q : List Instr} (s : State) (owner : Nat) (h : Kept q s) : Kept q (State.changeOwner s owner) := by
  unfold State.changeOwner
  repeat' first
    | with_reducible assumption | (extract_lets +onlyGivenNames x; unfold x; clear x) | with_reducible apply State.clearDir_kept
    | with_reducible apply State.raise_kept | (with_reducible apply kept_parts; with_reducible apply State.set_kept)

theorem State.syncPlls_kept {q : List Instr} (s : State) (h : Kept q s) : Kept q (State.syncPlls s) := by
  unfold State.syncPlls
  repeat' first
    | with_reducible assumption | intro _ | with_reducible apply State.setBitTo_kept | with_reducible apply kept_ite
    | with_reducible apply kept_foldl

theorem State.islandTo_kept {q : List Instr} (s : State) (i : Nat) (v : Nat) (h : Kept q s) : Kept q (State.islandTo s i v) := by
  unfold State.islandTo
  repeat' first
    | with_reducible assumption | (extract_lets +onlyGivenNames x; unfold x; clear x) | with_reducible apply State.raise_kept
    | with_reducible apply State.syncPlls_kept | with_reducible apply State.setIsl_kept | with_reducible apply State.changeOwner_kept
    | with_reducible apply kept_ite

theorem State.islandReset_kept {q : List Instr} (s : State) (i : Nat) (h : Kept q s) : Kept q (State.islandReset s i) := by
  unfold State.islandReset
  repeat' first
    | with_reducible assumption | with_reducible apply State.islandTo_kept | with_reducible apply State.resetPages_kept
    | with_reducible apply State.wipeIsland_kept | with_reducible apply State.clearReady_kept

theorem State.gateIsland_kept {q : List Instr} (s : State) (i : Nat) (h : Kept q s) : Kept q (State.gateIsland s i) := by
  unfold State.gateIsland
  repeat' first
    | with_reducible assumption | with_reducible apply State.islandTo_kept | with_reducible apply State.resetPages_kept
    | with_reducible apply State.wipeIsland_kept | with_reducible apply State.clearReady_kept

theorem State.stopIsland_kept {q : List Instr} (s : State) (i : Nat) (h : Kept q s) : Kept q (State.stopIsland s i) := by
  unfold State.stopIsland
  repeat' first | with_reducible assumption | with_reducible apply State.islandTo_kept | with_reducible apply State.clearReady_kept

theorem State.startIsland_kept {q : List Instr} (s : State) (i : Nat) (h : Kept q s) : Kept q (State.startIsland s i) := by
  unfold State.startIsland
  repeat' first | with_reducible assumption | with_reducible apply State.islandTo_kept | with_reducible apply kept_ite

theorem State.askStop_kept {q : List Instr} (s : State) (i : Nat) (h : Kept q s) : Kept q (State.askStop s i) := by
  unfold State.askStop
  repeat' first
    | with_reducible assumption | with_reducible apply State.raise_kept | with_reducible apply State.setBitTo_kept
    | with_reducible apply State.stopIsland_kept | with_reducible apply kept_ite

theorem State.islReq_kept {q : List Instr} (s : State) (i : Nat) (en : Bool) (h : Kept q s) : Kept q (State.islReq s i en) := by
  unfold State.islReq
  repeat' first
    | with_reducible assumption | (extract_lets +onlyGivenNames x; unfold x; clear x) | with_reducible apply State.startIsland_kept
    | with_reducible apply State.askStop_kept | with_reducible apply State.setBitTo_kept | with_reducible apply kept_ite
    | (with_reducible apply kept_parts; with_reducible assumption) | split

theorem State.applyIsland_kept {q : List Instr} (s : State) (i : Nat) (h : Kept q s) : Kept q (State.applyIsland s i) := by
  unfold State.applyIsland
  repeat' first
    | with_reducible assumption | with_reducible apply State.islReq_kept | with_reducible apply State.stopIsland_kept
    | with_reducible apply kept_ite

theorem State.applyIslands_kept {q : List Instr} (s : State) (h : Kept q s) : Kept q (State.applyIslands s) := by
  unfold State.applyIslands
  repeat' first | with_reducible assumption | intro _ | with_reducible apply State.applyIsland_kept | with_reducible apply kept_foldl

theorem State.changeMode_kept {q : List Instr} (s : State) (m : Nat) (cause : Nat) (h : Kept q s) : Kept q (State.changeMode s m cause) := by
  unfold State.changeMode
  repeat' first | with_reducible assumption | with_reducible apply State.applyIslands_kept | with_reducible apply State.enterMode_kept

theorem State.beginTrans_kept {q : List Instr} (s : State) (m : Nat) (cause : Nat) (h : Kept q s) : Kept q (State.beginTrans s m cause) := by
  unfold State.beginTrans
  repeat' first | (extract_lets +onlyGivenNames x; unfold x; clear x) | (with_reducible apply kept_parts; with_reducible assumption)

theorem State.resetAll_kept {q : List Instr} (s : State) (por : Bool) (h : Kept q s) : Kept q (State.resetAll s por) := ⟨rfl, h.store, h.queue⟩

theorem State.wakeIslands_kept {q : List Instr} (s : State) (h : Kept q s) : Kept q (State.wakeIslands s) := by
  unfold State.wakeIslands
  repeat' first | with_reducible assumption | intro _ | with_reducible apply State.setIsl_kept | with_reducible apply kept_foldl

theorem State.fullReset_kept {q : List Instr} (s : State) (por : Bool) (causeBits : Nat) (cause : Nat) (h : Kept q s) : Kept q
    (State.fullReset s por causeBits cause) := by
  unfold State.fullReset
  repeat' first
    | with_reducible assumption | (extract_lets +onlyGivenNames x; unfold x; clear x) | with_reducible apply State.resetAll_kept
    | with_reducible apply State.set_kept | with_reducible apply State.enterMode_kept | with_reducible apply State.wakeIslands_kept
    | (with_reducible apply kept_nv; with_reducible apply State.set_kept)

theorem State.sampleStraps_kept {q : List Instr} (s : State) (straps : Nat) (unstable : Nat) (h : Kept q s) : Kept q
    (State.sampleStraps s straps unstable) := by
  unfold State.sampleStraps
  repeat' first
    | with_reducible assumption | (extract_lets +onlyGivenNames x; unfold x; clear x) | with_reducible apply State.draw_kept
    | with_reducible apply State.set_kept | with_reducible apply State.raise_kept | with_reducible apply State.setBitTo_kept
    | with_reducible apply kept_ite

theorem State.restart_kept {q : List Instr} (s : State) (straps : Nat) (unstable : Nat) (cause : Nat) (h : Kept q s) : Kept q
    (State.restart s straps unstable cause) := by
  unfold State.restart
  repeat' first
    | with_reducible assumption | (extract_lets +onlyGivenNames x; unfold x; clear x) | with_reducible apply State.resetAll_kept
    | with_reducible apply State.set_kept | with_reducible apply State.sampleStraps_kept | with_reducible apply State.enterMode_kept
    | with_reducible apply State.wakeIslands_kept | (with_reducible apply kept_parts; with_reducible apply State.set_kept)


/-! ### Slots.lean -/

theorem State.recost_kept {q : List Instr} (s : State) (h : Kept q s) : Kept q (State.recost s) := by
  unfold State.recost
  repeat' first
    | with_reducible assumption | (extract_lets +onlyGivenNames x; unfold x; clear x) | with_reducible apply State.set_kept
    | with_reducible apply kept_ite

theorem State.noteHeadroom_kept {q : List Instr} (s : State) (h : Kept q s) : Kept q (State.noteHeadroom s) := by
  unfold State.noteHeadroom
  repeat' first
    | with_reducible assumption | (extract_lets +onlyGivenNames x; unfold x; clear x) | with_reducible apply State.set_kept
    | with_reducible apply State.vendorEvent_kept | with_reducible apply State.raise_kept | with_reducible apply kept_ite
    | (with_reducible apply kept_parts; with_reducible assumption)
    | (with_reducible apply kept_parts; with_reducible apply State.set_kept) | split

theorem State.xoff_kept {q : List Instr} (s : State) (h : Kept q s) : Kept q (State.xoff s) := by
  unfold State.xoff
  repeat' first
    | with_reducible assumption | with_reducible apply State.raise_kept | with_reducible apply State.set_kept
    | with_reducible apply kept_ite

theorem State.noteFlow_kept {q : List Instr} (s : State) (h : Kept q s) : Kept q (State.noteFlow s) := by
  unfold State.noteFlow
  repeat' first
    | with_reducible assumption | with_reducible apply State.xoff_kept | with_reducible apply State.raise_kept
    | with_reducible apply State.set_kept | with_reducible apply kept_ite

theorem State.mapSlots_kept {q : List Instr} (s : State) (p : Slot → Bool) (f : Slot → Slot) (h : Kept q s) : Kept q
    (State.mapSlots s p f) := by
  unfold State.mapSlots
  repeat' first | (with_reducible apply kept_parts; with_reducible assumption)

theorem State.land_kept {q : List Instr} (s : State) (p : Slot → Bool) (h : Kept q s) : Kept q (State.land s p) := by
  unfold State.land
  repeat' first | with_reducible assumption | with_reducible apply State.mapSlots_kept

theorem State.notePbuf_kept {q : List Instr} (before : Nat) (s : State) (h : Kept q s) : Kept q (State.notePbuf before s) := by
  unfold State.notePbuf
  repeat' first
    | with_reducible assumption | (extract_lets +onlyGivenNames x; unfold x; clear x) | with_reducible apply State.set_kept
    | with_reducible apply State.raiseIf_kept

theorem State.request_kept {q : List Instr} (s : State) (r : SlotReq) (h : Kept q s) : Kept q (State.request s r) := by
  unfold State.request
  repeat' first | (extract_lets +onlyGivenNames x; unfold x; clear x) | (with_reducible apply kept_parts; with_reducible assumption)

theorem State.letIn_kept {q : List Instr} (s : State) (r : SlotReq) (h : Kept q s) : Kept q (State.letIn s r) := by
  unfold State.letIn
  repeat' first
    | (extract_lets +onlyGivenNames x; unfold x; clear x) | with_reducible apply State.addWrap_kept
    | with_reducible apply State.noteFlow_kept | with_reducible apply State.noteHeadroom_kept | with_reducible apply State.notePbuf_kept
    | (with_reducible apply kept_parts; with_reducible assumption)

theorem State.refuse_kept {q : List Instr} (s : State) (r : SlotReq) (h : Kept q s) : Kept q (State.refuse s r) := by
  unfold State.refuse
  repeat' first
    | with_reducible assumption | (extract_lets +onlyGivenNames x; unfold x; clear x) | with_reducible apply State.raise_kept
    | with_reducible apply State.incPart_kept | with_reducible apply State.xoff_kept | with_reducible apply kept_ite | split

theorem State.takeReq_kept {q : List Instr} (s : State) (r : SlotReq) (h : Kept q s) : Kept q (State.takeReq s r) := by
  unfold State.takeReq
  repeat' first | (extract_lets +onlyGivenNames x; unfold x; clear x) | (with_reducible apply kept_parts; with_reducible assumption)

theorem State.hostQueue_kept {q : List Instr} (s : State) (h : Kept q s) : ∀ y z, State.hostQueue s = some (y, z) → Kept q z := by
  have hm : ∀ x w, Kept q { s with led := { s.led with hostTurn := x, wrr := w } } := fun _ _ => kept_parts h
  intro a t ht
  unfold State.hostQueue at ht
  dsimp only at ht
  repeat' split at ht
  all_goals first
    | (cases ht; done)
    | (cases ht; exact hm _ _)
    | (obtain ⟨_, _, e⟩ := Option.map_eq_some_iff.mp ht; cases e; exact hm _ _)

theorem State.nextReq_kept {q : List Instr} (s : State) (h : Kept q s) : ∀ y z, State.nextReq s = some (y, z) → Kept q z := by
  intro a t ht
  unfold State.nextReq at ht
  obtain ⟨w, -, hw⟩ := List.exists_of_findSome?_eq_some ht
  dsimp only at hw
  repeat' split at hw
  · obtain ⟨r, -, e⟩ := Option.bind_eq_some_iff.mp hw
    split at e
    · cases e
      exact kept_parts (State.hostQueue_kept _ h _ _ (by assumption))
    · cases e
  · cases hw
  · obtain ⟨r, -, e⟩ := Option.bind_eq_some_iff.mp hw
    split at e
    · cases e
      exact kept_parts h
    · cases e

theorem State.markRefused_kept {q : List Instr} (s : State) (r : SlotReq) (h : Kept q s) : Kept q (State.markRefused s r) := by
  unfold State.markRefused
  repeat' first | (extract_lets +onlyGivenNames x; unfold x; clear x) | (with_reducible apply kept_parts; with_reducible assumption)

end Sys2Proof.Machine
end

