-- ==== Sys2Proof/Laws/KeptStreams.lean ====
section
/-!
SUPPORT. One lemma for each operation and each command of flash, the map, the peer's link, frames, the Busaist receiver and takes: it keeps the byte memories' form and the queue; a command answers a
next state.
-/

namespace Sys2Proof.Machine

/-! ### Flash.lean -/

theorem State.noteSpares_kept {q : List Instr} (s : State) (c : Nat) (h : Kept q s) : Kept q (State.noteSpares s c) := by
  unfold State.noteSpares
  repeat' first
    | with_reducible assumption | (extract_lets +onlyGivenNames x; unfold x; clear x) | with_reducible apply State.raiseIf_kept
    | with_reducible apply State.set_kept

theorem State.retireBlock_kept {q : List Instr} (s : State) (c : Nat) (l : Nat) (logical : Nat) (h : Kept q s) : Kept q
    (State.retireBlock s c l logical) := by
  unfold State.retireBlock
  repeat' first
    | with_reducible assumption | (extract_lets +onlyGivenNames x; unfold x; clear x) | with_reducible apply State.noteSpares_kept
    | with_reducible apply State.raise_kept | (with_reducible apply kept_nv; with_reducible assumption) | split

theorem State.addOp_kept {q : List Instr} (s : State) (o : FlashOp) (h : Kept q s) : Kept q (State.addOp s o) := by
  unfold State.addOp
  repeat' first | (extract_lets +onlyGivenNames x; unfold x; clear x) | (with_reducible apply kept_parts; with_reducible assumption)

theorem State.mapOp_kept {q : List Instr} (s : State) (id : Nat) (f : FlashOp → FlashOp) (h : Kept q s) : Kept q (State.mapOp s id f) := by
  unfold State.mapOp
  repeat' first | (extract_lets +onlyGivenNames x; unfold x; clear x) | (with_reducible apply kept_parts; with_reducible assumption)

theorem State.dropOp_kept {q : List Instr} (s : State) (id : Nat) (h : Kept q s) : Kept q (State.dropOp s id) := by
  unfold State.dropOp
  repeat' first | (extract_lets +onlyGivenNames x; unfold x; clear x) | (with_reducible apply kept_parts; with_reducible assumption)

theorem State.pay_kept {q : List Instr} (s : State) (cls : Nat) (chan : Nat) (cost : Nat) (h : Kept q s) : Kept q
    (State.pay s cls chan cost) := by
  unfold State.pay
  repeat' first
    | (extract_lets +onlyGivenNames x; unfold x; clear x) | with_reducible apply State.addSat_kept
    | (with_reducible apply kept_parts; with_reducible assumption)

theorem State.spend_kept {q : List Instr} (s : State) (chan : Nat) (cost : Nat) (h : Kept q s) : Kept q (State.spend s chan cost) := by
  unfold State.spend
  repeat' first | (extract_lets +onlyGivenNames x; unfold x; clear x) | (with_reducible apply kept_parts; with_reducible assumption)

theorem State.resumeLun_kept {q : List Instr} (s : State) (chan : Nat) (lun : Nat) (h : Kept q s) : Kept q (State.resumeLun s chan lun) := by
  unfold State.resumeLun
  repeat' first
    | with_reducible assumption | (extract_lets +onlyGivenNames x; unfold x; clear x) | with_reducible apply kept_ite
    | (with_reducible apply kept_parts; with_reducible assumption)

theorem State.retireOp_kept {q : List Instr} (s : State) (o : FlashOp) (h : Kept q s) : Kept q (State.retireOp s o) := by
  unfold State.retireOp
  repeat' first | with_reducible assumption | with_reducible apply State.resumeLun_kept | with_reducible apply State.dropOp_kept

theorem State.lunWorked_kept {q : List Instr} (s : State) (chan : Nat) (lun : Nat) (h : Kept q s) : Kept q (State.lunWorked s chan lun) := by
  unfold State.lunWorked
  repeat' first | (extract_lets +onlyGivenNames x; unfold x; clear x) | (with_reducible apply kept_parts; with_reducible assumption)

theorem State.closeChan_kept {q : List Instr} (s : State) (c : Nat) (h : Kept q s) : Kept q (State.closeChan s c) := by
  unfold State.closeChan
  repeat' first | with_reducible assumption | (extract_lets +onlyGivenNames x; unfold x; clear x) | with_reducible apply State.addSat_kept

theorem State.closeWindow_kept {q : List Instr} (s : State) (h : Kept q s) : Kept q (State.closeWindow s) := by
  unfold State.closeWindow
  repeat' first
    | with_reducible assumption | intro _ | (extract_lets +onlyGivenNames x; unfold x; clear x)
    | with_reducible apply State.closeChan_kept | with_reducible apply kept_foldl
    | (with_reducible apply kept_parts; with_reducible apply State.addSat_kept)


/-! ### Map.lean -/

theorem State.freeSlot_kept {q : List Instr} (s : State) (seq : Nat) (h : Kept q s) : Kept q (State.freeSlot s seq) := by
  unfold State.freeSlot
  repeat' first | with_reducible assumption | with_reducible apply State.dropSlots_kept

theorem State.freeSlotOpt_kept {q : List Instr} (s : State) (x1 : Option Nat) (h : Kept q s) : Kept q (State.freeSlot? s x1) := by
  unfold State.freeSlot?
  repeat' first | with_reducible assumption | with_reducible apply State.freeSlot_kept | split

theorem State.journal_kept {q : List Instr} (s : State) (r : Rec) (slot : Option Nat) (h : Kept q s) : Kept q (State.journal s r slot) := by
  unfold State.journal
  repeat' first
    | (extract_lets +onlyGivenNames x; unfold x; clear x) | with_reducible apply State.freeSlotOpt_kept
    | with_reducible apply State.raise_kept | with_reducible apply kept_ite | (with_reducible apply kept_parts; with_reducible assumption)

theorem State.note_kept {q : List Instr} (s : State) (r : Rec) (h : Kept q s) : Kept q (State.note s r) := by
  unfold State.note
  repeat' first | with_reducible assumption | with_reducible apply State.journal_kept

theorem State.drainWaiting_kept {q : List Instr} (x0 : Nat) (x1 : State) (h : Kept q x1) : Kept q (State.drainWaiting x0 x1) := by
  induction x0 generalizing x1 with
  | zero => unfold State.drainWaiting; assumption
  | succ n ih =>
  unfold State.drainWaiting
  repeat' first
    | with_reducible assumption | (extract_lets +onlyGivenNames x; unfold x; clear x) | with_reducible apply State.freeSlotOpt_kept
    | with_reducible apply ih | with_reducible apply kept_ite | (with_reducible apply kept_parts; with_reducible assumption) | split

theorem State.startCkpt_kept {q : List Instr} (s : State) (h : Kept q s) : Kept q (State.startCkpt s) := by
  unfold State.startCkpt
  repeat' first
    | with_reducible assumption | (extract_lets +onlyGivenNames x; unfold x; clear x) | with_reducible apply State.set_kept
    | with_reducible apply kept_ite | (with_reducible apply kept_parts; with_reducible assumption)

theorem State.endCkpt_kept {q : List Instr} (s : State) (h : Kept q s) : Kept q (State.endCkpt s) := by
  unfold State.endCkpt
  repeat' first
    | with_reducible assumption | (extract_lets +onlyGivenNames x; unfold x; clear x) | with_reducible apply State.raise_kept
    | with_reducible apply State.note_kept | with_reducible apply State.set_kept
    | (with_reducible apply kept_nv; with_reducible assumption) | split

theorem State.drainCkpt_kept {q : List Instr} (s : State) (h : Kept q s) : Kept q (State.drainCkpt s) := by
  unfold State.drainCkpt
  repeat' first
    | with_reducible assumption | (extract_lets +onlyGivenNames x; unfold x; clear x) | with_reducible apply State.startCkpt_kept
    | (with_reducible apply kept_nv; with_reducible apply State.endCkpt_kept)

theorem State.retirePage_kept {q : List Instr} (s : State) (h : Kept q s) : Kept q (State.retirePage s) := by
  unfold State.retirePage
  repeat' first
    | with_reducible assumption | (extract_lets +onlyGivenNames x; unfold x; clear x)
    | (with_reducible apply kept_nv; with_reducible assumption) | split

theorem State.makeTable_kept {q : List Instr} (s : State) (key : Nat) (h : Kept q s) : Kept q (State.makeTable s key) := by
  unfold State.makeTable
  repeat' first
    | with_reducible assumption | (extract_lets +onlyGivenNames x; unfold x; clear x) | with_reducible apply State.inc_kept
    | with_reducible apply State.raiseIf_kept | with_reducible apply kept_ite
    | (with_reducible apply kept_parts; with_reducible assumption)

theorem State.setGroup_kept {q : List Instr} (s : State) (g : Nat) (x : Group) (h : Kept q s) : Kept q (State.setGroup s g x) := by
  unfold State.setGroup
  repeat' first | (extract_lets +onlyGivenNames x; unfold x; clear x) | (with_reducible apply kept_parts; with_reducible assumption)

theorem State.putPage_kept {q : List Instr} (s : State) (p : OpenPage) (h : Kept q s) : Kept q (State.putPage s p) := by
  unfold State.putPage
  repeat' first | (extract_lets +onlyGivenNames x; unfold x; clear x) | (with_reducible apply kept_parts; with_reducible assumption)

theorem State.programRow_kept {q : List Instr} (part : Bool) (s : State) (stripe : Nat) (pos : Nat) (h : Kept q s) : Kept q
    (State.programRow part s stripe pos) := by
  unfold State.programRow
  repeat' first
    | with_reducible assumption | (extract_lets +onlyGivenNames x; unfold x; clear x) | with_reducible apply State.addOp_kept
    | with_reducible apply kept_ite

theorem State.makeProgram_kept {q : List Instr} (s : State) (stripe : Nat) (pos : Nat) (h : Kept q s) : Kept q
    (State.makeProgram s stripe pos) := by
  unfold State.makeProgram
  repeat' first | with_reducible assumption | with_reducible apply State.programRow_kept

theorem State.closeBand_kept {q : List Instr} (s : State) (b : Nat) (h : Kept q s) : Kept q (State.closeBand s b) := by
  unfold State.closeBand
  repeat' first | with_reducible assumption | with_reducible apply State.note_kept | with_reducible apply kept_ite

theorem State.closeStripe_kept {q : List Instr} (s : State) (stripe : Nat) (h : Kept q s) : Kept q (State.closeStripe s stripe) := by
  unfold State.closeStripe
  repeat' first
    | with_reducible assumption | (extract_lets +onlyGivenNames x; unfold x; clear x) | with_reducible apply State.closeBand_kept
    | with_reducible apply kept_ite | (with_reducible apply kept_parts; with_reducible apply State.note_kept)

theorem State.parityReady_kept {q : List Instr} (s : State) (stripe : Nat) (h : Kept q s) : Kept q (State.parityReady s stripe) := by
  unfold State.parityReady
  repeat' first
    | with_reducible assumption | (extract_lets +onlyGivenNames x; unfold x; clear x) | with_reducible apply State.putPage_kept
    | with_reducible apply State.closeStripe_kept | with_reducible apply State.dropSlots_kept
    | with_reducible apply State.makeProgram_kept | with_reducible apply kept_ite

theorem State.voidPage_kept {q : List Instr} (s : State) (band : Nat) (off : Nat) (h : Kept q s) : Kept q (State.voidPage s band off) := by
  unfold State.voidPage
  repeat' first
    | with_reducible assumption | with_reducible apply State.parityReady_kept | with_reducible apply State.putPage_kept
    | with_reducible apply kept_ite

theorem State.putSlot_kept {q : List Instr} (s : State) (band : Nat) (off : Nat) (quarter : Nat) (seq : Nat)
    (h : Kept q s) : Kept q (State.putSlot s band off quarter seq) := by
  unfold State.putSlot
  repeat' first
    | with_reducible assumption | with_reducible apply State.putPage_kept | with_reducible apply State.makeProgram_kept
    | with_reducible apply kept_ite

theorem State.askParity_kept {q : List Instr} (s : State) (x : Slot) (stripe : Nat) (g : Nat) (h : Kept q s) : Kept q
    (State.askParity s x stripe g) := by
  unfold State.askParity
  repeat' first | with_reducible assumption | with_reducible apply State.request_kept | with_reducible apply kept_ite

theorem State.fillPages_kept {q : List Instr} (s : State) (band : Nat) (off : Nat) (n : Nat) (h : Kept q s) : Kept q
    (State.fillPages s band off n) := by
  unfold State.fillPages
  repeat' first
    | with_reducible assumption | intro _ | with_reducible apply State.makeProgram_kept | with_reducible apply State.putPage_kept
    | with_reducible apply State.voidPage_kept | with_reducible apply kept_ite | with_reducible apply kept_foldl | split

theorem State.closeRun_kept {q : List Instr} (s : State) (g : Nat) (r : ExtRun) (h : Kept q s) : Kept q (State.closeRun s g r) := by
  unfold State.closeRun
  repeat' first
    | with_reducible assumption | (extract_lets +onlyGivenNames x; unfold x; clear x) | with_reducible apply State.setGroup_kept
    | with_reducible apply State.makeTable_kept | with_reducible apply State.fillPages_kept | with_reducible apply kept_ite | split

theorem State.placeOne_kept {q : List Instr} (s : State) (g : Nat) (h : Kept q s) : ∀ t, State.placeOne s g = some t → Kept q t := by
  intro t ht
  unfold State.placeOne at ht
  dsimp only at ht
  repeat' split at ht
  all_goals first
    | (cases ht; done)
    | (cases ht
       repeat' (first
         | with_reducible assumption
         | with_reducible apply State.setGroup_kept
         | with_reducible apply State.makeTable_kept
         | with_reducible apply State.voidPage_kept
         | with_reducible apply State.askParity_kept
         | with_reducible apply State.putSlot_kept
         | with_reducible apply State.closeRun_kept
         | with_reducible apply State.fillPages_kept))

theorem State.pumpGroup_kept {q : List Instr} (x0 : Nat) (x1 : Nat) (x2 : State) (h : Kept q x2) : Kept q (State.pumpGroup x0 x1 x2) := by
  induction x0 generalizing x1 x2 with
  | zero => unfold State.pumpGroup; assumption
  | succ n ih =>
  unfold State.pumpGroup
  repeat' first
    | with_reducible assumption | with_reducible apply ih | with_reducible apply kept_ite
    | (with_reducible apply State.placeOne_kept; rotate_left; with_reducible assumption) | split

theorem State.noteNoBand_kept {q : List Instr} (s : State) (g : Nat) (h : Kept q s) : Kept q (State.noteNoBand s g) := by
  unfold State.noteNoBand
  repeat' first
    | with_reducible assumption | (extract_lets +onlyGivenNames x; unfold x; clear x) | with_reducible apply State.raiseIf_kept
    | with_reducible apply kept_ite

theorem State.pump_kept {q : List Instr} (s : State) (h : Kept q s) : Kept q (State.pump s) := by
  unfold State.pump
  repeat' first
    | with_reducible assumption | intro _ | (extract_lets +onlyGivenNames x; unfold x; clear x)
    | with_reducible apply State.pumpGroup_kept | with_reducible apply State.noteNoBand_kept | with_reducible apply kept_foldl

theorem State.enqueue_kept {q : List Instr} (s : State) (seqs : List Nat) (h : Kept q s) : Kept q (State.enqueue s seqs) := by
  unfold State.enqueue
  repeat' first
    | with_reducible assumption | intro _ | (extract_lets +onlyGivenNames x; unfold x; clear x) | with_reducible apply State.setGroup_kept
    | with_reducible apply State.mapSlots_kept | with_reducible apply kept_ite | with_reducible apply kept_foldl | split

theorem State.diverge_kept {q : List Instr} (s : State) (segs : List Nat) (takes : List Nat) (h : Kept q s) : Kept q
    (State.diverge s segs takes) := by
  unfold State.diverge
  repeat' first
    | (extract_lets +onlyGivenNames x; unfold x; clear x) | with_reducible apply State.raiseIf_kept
    | (with_reducible apply kept_nv; with_reducible assumption)

theorem State.markSegs_kept {q : List Instr} (s : State) (ks : List Nat) (h : Kept q s) : Kept q (State.markSegs s ks) := by
  unfold State.markSegs
  repeat' first | with_reducible assumption | with_reducible apply State.diverge_kept | with_reducible apply kept_ite

theorem State.store_kept {q : List Instr} (s : State) (p : Slot → Bool) (h : Kept q s) : Kept q (State.store s p) := by
  unfold State.store
  repeat' first
    | with_reducible assumption | (extract_lets +onlyGivenNames x; unfold x; clear x) | with_reducible apply State.markSegs_kept
    | with_reducible apply State.pump_kept | with_reducible apply State.enqueue_kept | with_reducible apply State.land_kept


/-! ### Peers.lean -/

theorem State.setPstate_kept {q : List Instr} (s : State) (v : Nat) (h : Kept q s) : Kept q (State.setPstate s v) := by
  unfold State.setPstate
  repeat' first
    | with_reducible assumption | (extract_lets +onlyGivenNames x; unfold x; clear x) | with_reducible apply State.setReady_kept
    | with_reducible apply State.clearReady_kept | with_reducible apply State.vendorEvent_kept | with_reducible apply kept_ite
    | (with_reducible apply kept_parts; with_reducible assumption)

theorem State.pairAlign_kept {q : List Instr} (s : State) (h : Kept q s) : Kept q (State.pairAlign s) := by
  unfold State.pairAlign
  repeat' first
    | with_reducible assumption | intro _ | (extract_lets +onlyGivenNames x; unfold x; clear x) | with_reducible apply State.raise_kept
    | with_reducible apply State.set_kept | with_reducible apply kept_foldl

theorem State.pairLinkDown_kept {q : List Instr} (s : State) (fstate : Nat) (h : Kept q s) : Kept q (State.pairLinkDown s fstate) := by
  unfold State.pairLinkDown
  repeat' first
    | with_reducible assumption | (extract_lets +onlyGivenNames x; unfold x; clear x) | with_reducible apply State.raise_kept
    | with_reducible apply State.set_kept | with_reducible apply kept_ite
    | (with_reducible apply kept_parts; with_reducible apply State.clearReady_kept)

theorem State.sendRecord_kept {q : List Instr} (s : State) (r : LRec) (h : Kept q s) : Kept q (State.sendRecord s r) := by
  unfold State.sendRecord
  repeat' first
    | with_reducible assumption | (extract_lets +onlyGivenNames x; unfold x; clear x) | with_reducible apply State.pairSend_kept
    | with_reducible apply kept_ite | (with_reducible apply kept_parts; with_reducible assumption)

theorem State.listTake_kept {q : List Instr} (s : State) (num : Nat) (h : Kept q s) : Kept q (State.listTake s num) := by
  unfold State.listTake
  repeat' first | with_reducible assumption | with_reducible apply State.diverge_kept | with_reducible apply kept_ite

theorem State.noteTake_kept {q : List Instr} (s : State) (t : Take) (h : Kept q s) : Kept q (State.noteTake s t) := by
  unfold State.noteTake
  repeat' first
    | with_reducible assumption | with_reducible apply State.listTake_kept | with_reducible apply State.sendRecord_kept
    | with_reducible apply State.note_kept

theorem State.noteUnmap_kept {q : List Instr} (s : State) (key : Nat) (count : Nat) (h : Kept q s) : Kept q
    (State.noteUnmap s key count) := by
  unfold State.noteUnmap
  repeat' first
    | with_reducible assumption | with_reducible apply State.markSegs_kept | with_reducible apply State.sendRecord_kept
    | with_reducible apply State.note_kept

theorem State.noteAppend_kept {q : List Instr} (s : State) (st : Nat) (n : Nat) (h : Kept q s) : Kept q (State.noteAppend s st n) := by
  unfold State.noteAppend
  repeat' first | with_reducible assumption | with_reducible apply State.sendRecord_kept | with_reducible apply State.note_kept

theorem State.noteEntry_kept {q : List Instr} (s : State) (e : Entry) (h : Kept q s) : Kept q (State.noteEntry s e) := by
  unfold State.noteEntry
  repeat' first
    | with_reducible assumption | (extract_lets +onlyGivenNames x; unfold x; clear x) | with_reducible apply State.listTake_kept
    | with_reducible apply State.note_kept | with_reducible apply State.sendRecord_kept | with_reducible apply kept_ite

theorem State.okRec_kept {q : List Instr} (s : State) (id : Cid) (dw0 : Nat) (dw1 : Nat) (data : List Nat)
    (h : Kept q s) : Kept q (State.okRec s id dw0 dw1 data) := by
  unfold State.okRec
  repeat' first
    | with_reducible assumption | (extract_lets +onlyGivenNames x; unfold x; clear x) | with_reducible apply State.ok_kept
    | with_reducible apply kept_ite | (with_reducible apply kept_parts; with_reducible assumption)

theorem State.releaseHeld_kept {q : List Instr} (s : State) (all : Bool) (h : Kept q s) : Kept q (State.releaseHeld s all) := by
  unfold State.releaseHeld
  repeat' first
    | with_reducible assumption | intro _ | (extract_lets +onlyGivenNames x; unfold x; clear x) | with_reducible apply State.complete_kept
    | with_reducible apply kept_foldl | (with_reducible apply kept_parts; with_reducible assumption)

theorem State.mirrorSlots_kept {q : List Instr} (s : State) (seqs : List Nat) (h : Kept q s) : Kept q (State.mirrorSlots s seqs) := by
  unfold State.mirrorSlots
  repeat' first
    | with_reducible assumption | intro _ | with_reducible apply State.pairSend_kept | with_reducible apply kept_ite
    | with_reducible apply kept_foldl | split

theorem State.writesDone_kept {q : List Instr} (s : State) (h : Kept q s) : Kept q (State.writesDone s) := by
  unfold State.writesDone
  repeat' first
    | with_reducible assumption | intro _ | (extract_lets +onlyGivenNames x; unfold x; clear x) | with_reducible apply State.okRec_kept
    | with_reducible apply State.untrack_kept | with_reducible apply kept_foldl

theorem State.release_kept {q : List Instr} (s : State) (p : Slot → Bool) (h : Kept q s) : Kept q (State.release s p) := by
  unfold State.release
  repeat' first
    | with_reducible assumption | (extract_lets +onlyGivenNames x; unfold x; clear x) | with_reducible apply State.writesDone_kept
    | with_reducible apply State.pump_kept | with_reducible apply State.enqueue_kept | with_reducible apply State.mapSlots_kept


/-! ### Frames.lean -/

theorem State.setTake_kept {q : List Instr} (s : State) (t : Take) (h : Kept q s) : Kept q (State.setTake s t) := by
  unfold State.setTake
  repeat' first | (extract_lets +onlyGivenNames x; unfold x; clear x) | (with_reducible apply kept_parts; with_reducible assumption)

theorem State.takeSub_kept {q : List Instr} (s : State) (st : Nat) (h : Kept q s) : Kept q (State.takeSub s st).2 := by
  unfold State.takeSub
  repeat' first | (extract_lets +onlyGivenNames x; unfold x; clear x) | (with_reducible apply kept_parts; with_reducible assumption)

theorem State.tcBoundary_kept {q : List Instr} (s : State) (h : Kept q s) : Kept q (State.tcBoundary s) := by
  unfold State.tcBoundary
  repeat' first | (extract_lets +onlyGivenNames x; unfold x; clear x) | (with_reducible apply kept_parts; with_reducible assumption)

theorem State.mapRec_kept {q : List Instr} (s : State) (id : Nat) (f : FrameRec → FrameRec) (h : Kept q s) : Kept q
    (State.mapRec s id f) := by
  unfold State.mapRec
  repeat' first | (extract_lets +onlyGivenNames x; unfold x; clear x) | (with_reducible apply kept_parts; with_reducible assumption)

theorem State.askUnits_kept {q : List Instr} (x0 : Nat) (x1 : Nat) (x2 : State) (h : Kept q x2) : Kept q (State.askUnits x0 x1 x2) := by
  induction x0 generalizing x1 x2 with
  | zero => unfold State.askUnits; assumption
  | succ n ih =>
  unfold State.askUnits
  repeat' first
    | with_reducible assumption | (extract_lets +onlyGivenNames x; unfold x; clear x) | with_reducible apply State.mapRec_kept
    | with_reducible apply State.request_kept | with_reducible apply State.raise_kept | with_reducible apply State.xoff_kept
    | with_reducible apply ih | with_reducible apply kept_ite | split

theorem State.heldOut_kept {q : List Instr} (s : State) (r : FrameRec) (seqs : List Nat) (h : Kept q s) : Kept q
    (State.heldOut s r seqs) := by
  unfold State.heldOut
  repeat' first
    | with_reducible assumption | intro _ | (extract_lets +onlyGivenNames x; unfold x; clear x) | with_reducible apply State.pairSend_kept
    | with_reducible apply State.release_kept | with_reducible apply kept_ite | with_reducible apply kept_foldl | split

theorem State.settle_kept {q : List Instr} (s : State) (id : Nat) (h : Kept q s) : Kept q (State.settle s id) := by
  unfold State.settle
  repeat' first
    | with_reducible assumption | (extract_lets +onlyGivenNames x; unfold x; clear x) | with_reducible apply State.heldOut_kept
    | with_reducible apply State.mirrorSlots_kept | with_reducible apply State.store_kept | with_reducible apply State.mapSlots_kept
    | with_reducible apply kept_ite | split

theorem State.settleAll_kept {q : List Instr} (s : State) (h : Kept q s) : Kept q (State.settleAll s) := by
  unfold State.settleAll
  repeat' first
    | with_reducible assumption | intro _ | with_reducible apply State.settle_kept | with_reducible apply State.askUnits_kept
    | with_reducible apply kept_foldl

theorem State.openRec_kept {q : List Instr} (s : State) (r : FrameRec) (h : Kept q s) : Kept q (State.openRec s r) := by
  unfold State.openRec
  repeat' first | (extract_lets +onlyGivenNames x; unfold x; clear x) | (with_reducible apply kept_parts; with_reducible assumption)

theorem State.addBlock_kept {q : List Instr} (s : State) (id : Nat) (b : Nat) (h : Kept q s) : Kept q (State.addBlock s id b) := by
  unfold State.addBlock
  repeat' first
    | with_reducible assumption | with_reducible apply State.settle_kept | with_reducible apply State.askUnits_kept
    | with_reducible apply State.mapRec_kept

theorem State.closeRec_kept {q : List Instr} (s : State) (id : Nat) (h : Kept q s) : Kept q (State.closeRec s id) := by
  unfold State.closeRec
  repeat' first
    | with_reducible assumption | (extract_lets +onlyGivenNames x; unfold x; clear x) | with_reducible apply State.settle_kept
    | with_reducible apply State.askUnits_kept | (with_reducible apply kept_parts; with_reducible apply State.mapRec_kept) | split

theorem State.closeFrame_kept {q : List Instr} (s : State) (id : Nat) (flags : Nat) (trailer : Option Nat)
    (h : Kept q s) : Kept q (State.closeFrame s id flags trailer) := by
  unfold State.closeFrame
  repeat' first
    | with_reducible assumption | (extract_lets +onlyGivenNames x; unfold x; clear x) | with_reducible apply State.closeRec_kept
    | with_reducible apply State.mapRec_kept | with_reducible apply State.raise_kept | with_reducible apply State.inc_kept
    | with_reducible apply State.openRec_kept | with_reducible apply kept_ite | split

theorem State.setVc_kept {q : List Instr} (s : State) (v : Nat) (x : Vc) (h : Kept q s) : Kept q (State.setVc s v x) := by
  unfold State.setVc
  repeat' first | (extract_lets +onlyGivenNames x; unfold x; clear x) | (with_reducible apply kept_parts; with_reducible assumption)

theorem State.setVcState_kept {q : List Instr} (s : State) (v : Nat) (x : Nat) (h : Kept q s) : Kept q (State.setVcState s v x) := by
  unfold State.setVcState
  repeat' first | with_reducible assumption | with_reducible apply State.setPart_kept

theorem State.closeOrphan_kept {q : List Instr} (s : State) (v : Nat) (trailer : Option Nat) (h : Kept q s) : Kept q
    (State.closeOrphan s v trailer) := by
  unfold State.closeOrphan
  repeat' first
    | with_reducible assumption | (extract_lets +onlyGivenNames x; unfold x; clear x) | with_reducible apply State.closeFrame_kept
    | with_reducible apply State.setBitTo_kept | with_reducible apply State.setVc_kept | split

theorem State.closeVc_kept {q : List Instr} (s : State) (v : Nat) (flags : Nat) (trailer : Option Nat) (h : Kept q s) : Kept q
    (State.closeVc s v flags trailer) := by
  unfold State.closeVc
  repeat' first
    | with_reducible assumption | (extract_lets +onlyGivenNames x; unfold x; clear x) | with_reducible apply State.closeFrame_kept
    | with_reducible apply State.setVc_kept | split

theorem State.unalign_kept {q : List Instr} (s : State) (h : Kept q s) : Kept q (State.unalign s) := by
  unfold State.unalign
  repeat' first
    | with_reducible assumption | intro _
    | (extract_lets +onlyGivenNames x; with_reducible refine kept_imp (q := q) x ?_ ?_; unfold x; clear x; rotate_left; intro _; clear_value x; revert x; intros; rotate_right)
    | (extract_lets +onlyGivenNames x; unfold x; clear x) | with_reducible apply State.raise_kept | with_reducible apply State.set_kept
    | with_reducible apply State.setVcState_kept | with_reducible apply State.closeVc_kept | with_reducible apply State.setVc_kept
    | with_reducible apply kept_ite | with_reducible apply kept_foldl | (with_reducible apply kept_parts; with_reducible assumption)

theorem State.closeTakeOrphans_kept {q : List Instr} (s : State) (num : Nat) (h : Kept q s) : Kept q (State.closeTakeOrphans s num) := by
  unfold State.closeTakeOrphans
  repeat' first
    | with_reducible assumption | intro _ | with_reducible apply State.closeOrphan_kept | with_reducible apply kept_ite
    | with_reducible apply kept_foldl | split

theorem State.closeTakeFrames_kept {q : List Instr} (s : State) (num : Nat) (h : Kept q s) : Kept q (State.closeTakeFrames s num) := by
  unfold State.closeTakeFrames
  repeat' first
    | with_reducible assumption | intro _ | with_reducible apply State.setVcState_kept | with_reducible apply State.closeVc_kept
    | with_reducible apply kept_ite | with_reducible apply kept_foldl | split

theorem State.takeClosed_kept {q : List Instr} (s : State) (t : Take) (reason : Nat) (h : Kept q s) : Kept q
    (State.takeClosed s t reason) := by
  unfold State.takeClosed
  repeat' first
    | with_reducible assumption | (extract_lets +onlyGivenNames x; unfold x; clear x) | with_reducible apply State.raise_kept
    | with_reducible apply State.noteTake_kept | with_reducible apply State.vendorEvent_kept | with_reducible apply kept_ite

theorem State.serveWaits_kept {q : List Instr} (s : State) (h : Kept q s) : Kept q (State.serveWaits s) := by
  unfold State.serveWaits
  repeat' first
    | with_reducible assumption | intro _ | (extract_lets +onlyGivenNames x; unfold x; clear x) | with_reducible apply State.okRec_kept
    | with_reducible apply kept_ite | with_reducible apply kept_foldl | (with_reducible apply kept_parts; with_reducible assumption)

theorem State.dropWaits_kept {q : List Instr} (s : State) (num : Nat) (h : Kept q s) : Kept q (State.dropWaits s num) := by
  unfold State.dropWaits
  repeat' first
    | with_reducible assumption | intro _ | (extract_lets +onlyGivenNames x; unfold x; clear x) | with_reducible apply State.ok_kept
    | with_reducible apply kept_foldl | (with_reducible apply kept_parts; with_reducible assumption)

theorem State.takesOpened_kept {q : List Instr} (s : State) (h : Kept q s) : Kept q (State.takesOpened s) := by
  unfold State.takesOpened
  repeat' first
    | with_reducible assumption | intro _ | (extract_lets +onlyGivenNames x; unfold x; clear x) | with_reducible apply State.okRec_kept
    | with_reducible apply State.raise_kept | with_reducible apply kept_foldl
    | (with_reducible apply kept_dram; with_reducible assumption) | split

theorem State.journaled_kept {q : List Instr} (s : State) (h : Kept q s) : Kept q (State.journaled s) := by
  unfold State.journaled
  repeat' first | with_reducible assumption | with_reducible apply State.serveWaits_kept | with_reducible apply State.takesOpened_kept

theorem State.addPulse_kept {q : List Instr} (s : State) (p : Pulse) (h : Kept q s) : Kept q (State.addPulse s p) := by
  unfold State.addPulse
  repeat' first
    | (extract_lets +onlyGivenNames x; unfold x; clear x) | with_reducible apply State.raiseIf_kept
    | with_reducible apply State.addSat_kept | (with_reducible apply kept_parts; with_reducible assumption)

theorem State.skipOld_kept {q : List Instr} (x0 : Nat) (x1 : Nat) (x2 : State) (h : Kept q x2) : Kept q (State.skipOld x0 x1 x2) := by
  induction x0 generalizing x1 x2 with
  | zero => unfold State.skipOld; assumption
  | succ n ih =>
  unfold State.skipOld
  repeat' first
    | with_reducible assumption | (extract_lets +onlyGivenNames x; unfold x; clear x) | with_reducible apply State.raise_kept
    | with_reducible apply State.inc_kept | with_reducible apply ih | with_reducible apply kept_ite
    | (with_reducible apply kept_parts; with_reducible assumption) | split

theorem State.pairPulse_kept {q : List Instr} (s : State) (st : Nat) (gap : Nat) (h : Kept q s) : Kept q (State.pairPulse s st gap).2 := by
  unfold State.pairPulse
  repeat' first
    | (extract_lets +onlyGivenNames x; unfold x; clear x) | with_reducible apply State.skipOld_kept
    | with_reducible apply State.raise_kept | with_reducible apply State.inc_kept
    | (with_reducible apply kept_parts; with_reducible assumption)
    | (with_reducible apply kept_parts; with_reducible apply State.skipOld_kept) | split

theorem State.closeCapture_kept {q : List Instr} (s : State) (h : Kept q s) : Kept q (State.closeCapture s) := by
  unfold State.closeCapture
  repeat' first
    | with_reducible assumption | (extract_lets +onlyGivenNames x; unfold x; clear x) | with_reducible apply State.openRec_kept
    | with_reducible apply State.closeRec_kept | (with_reducible apply kept_parts; with_reducible assumption) | split

theorem State.capJoin_kept {q : List Instr} (s : State) (port : Nat) (tb : Nat) (b : Nat) (fl : Nat) (h : Kept q s) : Kept q
    (State.capJoin s port tb b fl) := by
  unfold State.capJoin
  repeat' first | (extract_lets +onlyGivenNames x; unfold x; clear x) | (with_reducible apply kept_parts; with_reducible assumption)

theorem State.capNew_kept {q : List Instr} (s : State) (port : Nat) (tb : Nat) (bytes : List Nat) (fl : Nat) (more : Bool)
    (h : Kept q s) : Kept q (State.capNew s port tb bytes fl more) := by
  unfold State.capNew
  repeat' first
    | (extract_lets +onlyGivenNames x; unfold x; clear x) | with_reducible apply State.closeCapture_kept | with_reducible apply kept_ite
    | (with_reducible apply kept_parts; with_reducible assumption)

theorem State.capture_kept {q : List Instr} (s : State) (port : Nat) (tb : Nat) (b : Option Nat) (framing : Bool)
    (h : Kept q s) : Kept q (State.capture s port tb b framing) := by
  unfold State.capture
  repeat' first
    | with_reducible assumption | (extract_lets +onlyGivenNames x; unfold x; clear x) | with_reducible apply State.capJoin_kept
    | with_reducible apply State.closeCapture_kept | with_reducible apply State.raise_kept | with_reducible apply State.inc_kept
    | with_reducible apply State.capNew_kept | with_reducible apply kept_ite
    | (with_reducible apply kept_parts; with_reducible assumption)
    | (with_reducible apply kept_parts; with_reducible apply State.closeCapture_kept) | split


/-! ### Ingest.lean -/

theorem State.unboundBlock_kept {q : List Instr} (s : State) (h : Kept q s) : Kept q (State.unboundBlock s) := by
  unfold State.unboundBlock
  repeat' first
    | (extract_lets +onlyGivenNames x; unfold x; clear x) | with_reducible apply State.inc_kept | with_reducible apply kept_ite
    | (with_reducible apply kept_parts; with_reducible assumption)

theorem State.vcAfter_kept {q : List Instr} (s : State) (v : Nat) (damaged : Bool) (h : Kept q s) : Kept q (State.vcAfter s v damaged) := by
  unfold State.vcAfter
  repeat' first | with_reducible assumption | with_reducible apply State.setVcState_kept | with_reducible apply kept_ite

theorem State.endFrame_kept {q : List Instr} (s : State) (v : Nat) (flags : Nat) (trailer : Option Nat) (h : Kept q s) : Kept q
    (State.endFrame s v flags trailer) := by
  unfold State.endFrame
  repeat' first
    | with_reducible assumption | (extract_lets +onlyGivenNames x; unfold x; clear x) | with_reducible apply State.vcAfter_kept
    | with_reducible apply State.setVc_kept | with_reducible apply State.closeVc_kept

theorem State.orphanBlock_kept {q : List Instr} (s : State) (v : Nat) (b : Nat) (h : Kept q s) : Kept q (State.orphanBlock s v b) := by
  unfold State.orphanBlock
  repeat' first
    | with_reducible assumption | (extract_lets +onlyGivenNames x; unfold x; clear x) | with_reducible apply State.addBlock_kept
    | with_reducible apply State.closeOrphan_kept | with_reducible apply State.unboundBlock_kept | with_reducible apply State.raise_kept
    | with_reducible apply State.setBitTo_kept | with_reducible apply State.setVc_kept | with_reducible apply State.inc_kept
    | with_reducible apply kept_ite | (with_reducible apply kept_parts; with_reducible apply State.openRec_kept) | split

theorem State.vcData_kept {q : List Instr} (s : State) (v : Nat) (b : Nat) (h : Kept q s) : Kept q (State.vcData s v b) := by
  unfold State.vcData
  repeat' first
    | with_reducible assumption | with_reducible apply State.addBlock_kept | with_reducible apply State.orphanBlock_kept
    | with_reducible apply State.setVcState_kept | with_reducible apply State.endFrame_kept | with_reducible apply State.inc_kept
    | with_reducible apply kept_ite | split

theorem State.rejectHdr_kept {q : List Instr} (s : State) (v : Nat) (f : Option Field) (blocks : List Nat)
    (h : Kept q s) : Kept q (State.rejectHdr s v f blocks) := by
  unfold State.rejectHdr
  repeat' first
    | with_reducible assumption | intro _ | (extract_lets +onlyGivenNames x; unfold x; clear x) | with_reducible apply State.inc_kept
    | with_reducible apply State.raise_kept | with_reducible apply State.setVcState_kept | with_reducible apply State.vcData_kept
    | with_reducible apply kept_ite | with_reducible apply kept_foldl | split

theorem State.acceptRec_kept {q : List Instr} (s : State) (v : Nat) (x2 : FrameHdr) (t : Take) (gap : Nat)
    (h : Kept q s) : Kept q (State.acceptRec s v x2 t gap).2 := by
  unfold State.acceptRec
  repeat' first
    | with_reducible assumption | (extract_lets +onlyGivenNames x; unfold x; clear x) | with_reducible apply State.takeSub_kept
    | with_reducible apply State.raise_kept | with_reducible apply State.inc_kept | with_reducible apply kept_ite
    | with_reducible apply kept_ite_snd | (with_reducible apply State.pairPulse_kept; rotate_left; with_reducible assumption)

theorem State.acceptHdr_kept {q : List Instr} (s : State) (v : Nat) (x2 : FrameHdr) (h : Kept q s) : Kept q (State.acceptHdr s v x2) := by
  unfold State.acceptHdr
  repeat' first
    | with_reducible assumption | (extract_lets +onlyGivenNames x; unfold x; clear x) | with_reducible apply State.closeOrphan_kept
    | with_reducible apply State.acceptRec_kept | with_reducible apply State.raise_kept | with_reducible apply State.addSat_kept
    | with_reducible apply State.inc_kept | with_reducible apply State.openRec_kept | with_reducible apply State.setPart_kept
    | with_reducible apply State.setVc_kept | with_reducible apply State.setVcState_kept | with_reducible apply kept_ite
    | (with_reducible apply kept_parts; with_reducible apply State.inc_kept) | split

theorem State.headerAs_kept {q : List Instr} (s : State) (v : Nat) (h0 : Nat) (h1 : Nat) (j : HdrErr) (h : Kept q s) : Kept q
    (State.headerAs s v h0 h1 j) := by
  unfold State.headerAs
  repeat' first
    | with_reducible assumption | (extract_lets +onlyGivenNames x; unfold x; clear x) | with_reducible apply State.rejectHdr_kept
    | with_reducible apply State.raise_kept | with_reducible apply State.inc_kept | with_reducible apply State.closeOrphan_kept
    | with_reducible apply State.unboundBlock_kept | with_reducible apply State.setVc_kept | with_reducible apply State.setVcState_kept
    | with_reducible apply State.acceptHdr_kept | split

theorem State.header_kept {q : List Instr} (s : State) (v : Nat) (h0 : Nat) (h1 : Nat) (h : Kept q s) : Kept q (State.header s v h0 h1) := by
  unfold State.header
  repeat' first | with_reducible assumption | with_reducible apply State.headerAs_kept

theorem State.cutHeader_kept {q : List Instr} (s : State) (v : Nat) (h : Kept q s) : Kept q (State.cutHeader s v) := by
  unfold State.cutHeader
  repeat' first
    | with_reducible assumption | (extract_lets +onlyGivenNames x; unfold x; clear x) | with_reducible apply State.rejectHdr_kept
    | with_reducible apply State.setVc_kept | split

theorem State.badCtrl_kept {q : List Instr} (s : State) (h : Kept q s) : Kept q (State.badCtrl s) := by
  unfold State.badCtrl
  repeat' first | with_reducible assumption | with_reducible apply State.inc_kept

theorem State.syncBlock_kept {q : List Instr} (s : State) (v : Nat) (h : Kept q s) : Kept q (State.syncBlock s v) := by
  unfold State.syncBlock
  repeat' first
    | with_reducible assumption | (extract_lets +onlyGivenNames x; unfold x; clear x) | with_reducible apply State.endFrame_kept
    | with_reducible apply State.inc_kept | with_reducible apply State.setVcState_kept | with_reducible apply State.setVc_kept
    | with_reducible apply kept_ite | (with_reducible apply kept_parts; with_reducible apply State.cutHeader_kept) | split

theorem State.termBlock_kept {q : List Instr} (s : State) (named : Nat) (status : Nat) (crc : Nat) (frame : Nat)
    (h : Kept q s) : Kept q (State.termBlock s named status crc frame) := by
  unfold State.termBlock
  repeat' first
    | with_reducible assumption | (extract_lets +onlyGivenNames x; unfold x; clear x) | with_reducible apply State.cutHeader_kept
    | with_reducible apply State.mapRec_kept | with_reducible apply State.endFrame_kept | with_reducible apply State.raise_kept
    | with_reducible apply State.inc_kept | with_reducible apply State.closeOrphan_kept | with_reducible apply State.badCtrl_kept
    | with_reducible apply kept_ite | split

theorem State.abortBlock_kept {q : List Instr} (s : State) (v : Nat) (reason : Nat) (h : Kept q s) : Kept q
    (State.abortBlock s v reason) := by
  unfold State.abortBlock
  repeat' first
    | with_reducible assumption | (extract_lets +onlyGivenNames x; unfold x; clear x) | with_reducible apply State.cutHeader_kept
    | with_reducible apply State.setVcState_kept | with_reducible apply State.endFrame_kept | with_reducible apply State.inc_kept
    | with_reducible apply State.mapRec_kept | with_reducible apply State.closeOrphan_kept | with_reducible apply State.badCtrl_kept
    | with_reducible apply kept_ite | split

theorem State.controlBlock_kept {q : List Instr} (s : State) (p : Nat) (h : Kept q s) : Kept q (State.controlBlock s p) := by
  unfold State.controlBlock
  repeat' first
    | with_reducible assumption | (extract_lets +onlyGivenNames x; unfold x; clear x) | with_reducible apply State.badCtrl_kept
    | with_reducible apply State.syncBlock_kept | with_reducible apply State.termBlock_kept | with_reducible apply State.abortBlock_kept
    | with_reducible apply kept_ite | (with_reducible apply kept_parts; with_reducible apply State.cutHeader_kept)

theorem State.dataBlock_kept {q : List Instr} (s : State) (b : Nat) (h : Kept q s) : Kept q (State.dataBlock s b) := by
  unfold State.dataBlock
  repeat' first
    | with_reducible assumption | (extract_lets +onlyGivenNames x; unfold x; clear x) | with_reducible apply State.setVc_kept
    | with_reducible apply State.header_kept | with_reducible apply State.vcData_kept | split

theorem State.receiveData_kept {q : List Instr} (s : State) (b : Nat) (h : Kept q s) : Kept q (State.receiveData s b) := by
  unfold State.receiveData
  repeat' first
    | (extract_lets +onlyGivenNames x; unfold x; clear x) | with_reducible apply State.raise_kept | with_reducible apply State.inc_kept
    | with_reducible apply State.setVcState_kept | with_reducible apply State.endFrame_kept | with_reducible apply State.dataBlock_kept
    | with_reducible apply kept_ite | (with_reducible apply kept_parts; with_reducible assumption)

theorem State.ingestStopCheck_kept {q : List Instr} (s : State) (h : Kept q s) : Kept q (State.ingestStopCheck s) := by
  unfold State.ingestStopCheck
  repeat' first
    | with_reducible assumption | (extract_lets +onlyGivenNames x; unfold x; clear x) | with_reducible apply State.set_kept
    | with_reducible apply State.clearReady_kept | with_reducible apply State.unalign_kept | with_reducible apply kept_ite
    | (with_reducible apply kept_parts; with_reducible apply State.set_kept)

theorem State.block_kept {q : List Instr} (s : State) (control : Bool) (payload : Nat) (h : Kept q s) : Kept q
    (State.block s control payload) := by
  unfold State.block
  repeat' first
    | with_reducible assumption | with_reducible apply State.ingestStopCheck_kept | with_reducible apply State.controlBlock_kept
    | with_reducible apply State.receiveData_kept | with_reducible apply kept_ite

theorem State.passHeld_kept {q : List Instr} (s : State) (h : Kept q s) : Kept q (State.passHeld s) := by
  unfold State.passHeld
  repeat' first
    | with_reducible assumption | (extract_lets +onlyGivenNames x; unfold x; clear x) | with_reducible apply State.set_kept
    | with_reducible apply State.block_kept | with_reducible apply kept_ite | (with_reducible apply kept_parts; with_reducible assumption)
    | split

theorem State.logical_kept {q : List Instr} (s : State) (control : Bool) (payload : Nat) (h : Kept q s) : Kept q
    (State.logical s control payload) := by
  unfold State.logical
  repeat' first
    | with_reducible assumption | (extract_lets +onlyGivenNames x; unfold x; clear x) | with_reducible apply State.fiUnit_kept
    | with_reducible apply State.passHeld_kept | with_reducible apply State.set_kept | with_reducible apply State.fiCorrupt_kept
    | with_reducible apply State.block_kept | with_reducible apply kept_ite | (with_reducible apply kept_parts; with_reducible assumption)
    | (with_reducible apply kept_parts; with_reducible refine kept_snd (by with_reducible assumption) ?_) | split

theorem execLaneBlockLock_kept {q : List Instr} (lane : Nat) (slips : Nat) (s : State)
    (h : Kept q s) : ∃ t, execLaneBlockLock lane slips s = .next t ∧ Kept q t := by
  unfold execLaneBlockLock
  refine ⟨_, rfl, ?_⟩
  repeat' first
    | with_reducible assumption | with_reducible apply State.setBitTo_kept | with_reducible apply State.addSat_kept
    | with_reducible apply kept_ite

theorem execLockLoss_kept {q : List Instr} (lane : Nat) (s : State) (h : Kept q s) : ∃ t, execLockLoss lane s = .next t ∧ Kept q t := by
  unfold execLockLoss
  refine ⟨_, rfl, ?_⟩
  repeat' first
    | with_reducible assumption | (extract_lets +onlyGivenNames x; unfold x; clear x) | with_reducible apply State.raise_kept
    | with_reducible apply State.inc_kept | with_reducible apply State.setBitTo_kept | with_reducible apply State.ingestStopCheck_kept
    | with_reducible apply State.unalign_kept | with_reducible apply kept_ite

theorem execBadSyncHeader_kept {q : List Instr} (lane : Nat) (s : State)
    (h : Kept q s) : ∃ t, execBadSyncHeader lane s = .next t ∧ Kept q t := by
  unfold execBadSyncHeader
  refine ⟨_, rfl, ?_⟩
  repeat' first
    | with_reducible assumption | (extract_lets +onlyGivenNames x; unfold x; clear x) | with_reducible apply State.inc_kept
    | with_reducible apply State.setVc_kept | with_reducible apply State.logical_kept | with_reducible apply kept_ite

theorem execBusaistAlign_kept {q : List Instr} (blks : List AlignBlk) (s : State)
    (h : Kept q s) : ∃ t, execBusaistAlign blks s = .next t ∧ Kept q t := by
  unfold execBusaistAlign
  refine ⟨_, rfl, ?_⟩
  repeat' first
    | with_reducible assumption | intro _ | (extract_lets +onlyGivenNames x; unfold x; clear x) | with_reducible apply State.set_kept
    | with_reducible apply State.raise_kept | with_reducible apply State.inc_kept | with_reducible apply State.ingestStopCheck_kept
    | with_reducible apply State.setReady_kept | with_reducible apply State.unalign_kept | with_reducible apply kept_ite
    | with_reducible apply kept_foldl | (with_reducible apply kept_parts; with_reducible apply State.inc_kept)
    | (with_reducible apply kept_dram; with_reducible apply State.raise_kept) | split

theorem execAlignTimeout_kept {q : List Instr} (s : State) (h : Kept q s) : ∃ t, execAlignTimeout s = .next t ∧ Kept q t := by
  unfold execAlignTimeout
  refine ⟨_, rfl, ?_⟩
  repeat' first
    | with_reducible assumption | with_reducible apply State.ingestStopCheck_kept | with_reducible apply State.unalign_kept
    | with_reducible apply State.raise_kept | with_reducible apply State.inc_kept | with_reducible apply kept_ite

theorem execBusaistSync_kept {q : List Instr} (b1 : Nat) (pattern : Nat) (s : State)
    (h : Kept q s) : ∃ t, execBusaistSync b1 pattern s = .next t ∧ Kept q t := by
  unfold execBusaistSync
  refine ⟨_, rfl, ?_⟩
  repeat' first | with_reducible assumption | with_reducible apply State.logical_kept

theorem execFrameHeader_kept {q : List Instr} (h0 : Nat) (h1 : Nat) (s : State)
    (h : Kept q s) : ∃ t, execFrameHeader h0 h1 s = .next t ∧ Kept q t := by
  unfold execFrameHeader
  refine ⟨_, rfl, ?_⟩
  repeat' first | with_reducible assumption | with_reducible apply State.logical_kept | with_reducible apply State.ioArrival_kept

theorem execBusaistSwitch_kept {q : List Instr} (vc : Nat) (s : State) (h : Kept q s) : ∃ t, execBusaistSwitch vc s = .next t ∧ Kept q t := by
  unfold execBusaistSwitch
  refine ⟨_, rfl, ?_⟩
  repeat' first | with_reducible assumption | with_reducible apply State.logical_kept

theorem execFrameDataBlock_kept {q : List Instr} (payload : Nat) (s : State)
    (h : Kept q s) : ∃ t, execFrameDataBlock payload s = .next t ∧ Kept q t := by
  unfold execFrameDataBlock
  refine ⟨_, rfl, ?_⟩
  repeat' first | with_reducible assumption | with_reducible apply State.logical_kept

theorem execBusaistTerm_kept {q : List Instr} (vc : Nat) (status : Nat) (crc : Nat) (frame : Nat) (s : State)
    (h : Kept q s) : ∃ t, execBusaistTerm vc status crc frame s = .next t ∧ Kept q t := by
  unfold execBusaistTerm
  refine ⟨_, rfl, ?_⟩
  repeat' first | with_reducible assumption | with_reducible apply State.logical_kept

theorem execBusaistAbort_kept {q : List Instr} (vc : Nat) (reason : Nat) (s : State)
    (h : Kept q s) : ∃ t, execBusaistAbort vc reason s = .next t ∧ Kept q t := by
  unfold execBusaistAbort
  refine ⟨_, rfl, ?_⟩
  repeat' first | with_reducible assumption | with_reducible apply State.logical_kept

theorem execBadCtrl_kept {q : List Instr} (payload : Nat) (s : State) (h : Kept q s) : ∃ t, execBadCtrl payload s = .next t ∧ Kept q t := by
  unfold execBadCtrl
  refine ⟨_, rfl, ?_⟩
  repeat' first | with_reducible assumption | with_reducible apply State.logical_kept

theorem execFcBlock_kept {q : List Instr} (s : State) (h : Kept q s) : ∃ t, execFcBlock s = .next t ∧ Kept q t := by
  unfold execFcBlock
  refine ⟨_, rfl, ?_⟩
  repeat' first
    | with_reducible assumption | (extract_lets +onlyGivenNames x; unfold x; clear x) | with_reducible apply State.addWrap_kept
    | with_reducible apply State.set_kept | with_reducible apply State.raiseIf_kept | with_reducible apply kept_ite
    | (with_reducible apply kept_parts; with_reducible apply State.raiseIf_kept) | split

theorem State.startIngest_kept {q : List Instr} (s : State) (h : Kept q s) : Kept q (State.startIngest s) := by
  unfold State.startIngest
  repeat' first | with_reducible assumption | with_reducible apply State.set_kept | with_reducible apply kept_ite

theorem State.stopIngest_kept {q : List Instr} (s : State) (h : Kept q s) : Kept q (State.stopIngest s) := by
  unfold State.stopIngest
  repeat' first
    | with_reducible assumption | with_reducible apply State.ingestStopCheck_kept | with_reducible apply State.set_kept
    | with_reducible apply kept_ite

theorem State.enIngest_kept {q : List Instr} (s : State) (en : Bool) (h : Kept q s) : Kept q (State.enIngest s en) := by
  unfold State.enIngest
  repeat' first
    | with_reducible assumption | (extract_lets +onlyGivenNames x; unfold x; clear x) | with_reducible apply State.set_kept
    | with_reducible apply State.stopIngest_kept | with_reducible apply State.startIngest_kept | with_reducible apply kept_ite | split

theorem execIngestCtlEn_kept {q : List Instr} (who : Req) (en : Bool) (s : State)
    (h : Kept q s) : ∃ t, execIngestCtlEn who en s = .next t ∧ Kept q t := by
  unfold execIngestCtlEn
  refine ⟨_, rfl, ?_⟩
  repeat' first | with_reducible assumption | intro _ | with_reducible apply State.rwAction_kept | with_reducible apply State.enIngest_kept

theorem execIngestStopTimeout_kept {q : List Instr} (s : State) (h : Kept q s) : ∃ t, execIngestStopTimeout s = .next t ∧ Kept q t := by
  unfold execIngestStopTimeout
  refine ⟨_, rfl, ?_⟩
  repeat' first
    | with_reducible assumption | intro _ | with_reducible apply State.ingestStopCheck_kept | with_reducible apply State.setVcState_kept
    | with_reducible apply State.endFrame_kept | with_reducible apply kept_ite | with_reducible apply kept_foldl

theorem State.ingestDown_kept {q : List Instr} (s : State) (h : Kept q s) : Kept q (State.ingestDown s) := by
  unfold State.ingestDown
  repeat' first
    | with_reducible assumption | intro _ | (extract_lets +onlyGivenNames x; unfold x; clear x) | with_reducible apply State.unalign_kept
    | with_reducible apply State.closeOrphan_kept | with_reducible apply kept_foldl

theorem execIngestClr_kept {q : List Instr} (who : Req) (s : State) (h : Kept q s) : ∃ t, execIngestClr who s = .next t ∧ Kept q t := by
  unfold execIngestClr
  refine ⟨_, rfl, ?_⟩
  repeat' first | with_reducible assumption | intro _ | with_reducible apply State.rwAction_kept | with_reducible apply State.clear_kept


/-! ### Takes.lean -/

theorem State.rewriteEntry_kept {q : List Instr} (s : State) (e : Entry) (h : Kept q s) : Kept q (State.rewriteEntry s e) := by
  unfold State.rewriteEntry
  repeat' first | with_reducible assumption | with_reducible apply State.raise_kept | with_reducible apply State.noteEntry_kept

theorem State.arbitrate_kept {q : List Instr} (s : State) (e : Entry) (a : PResult) (b : PResult) (h : Kept q s) : Kept q
    (State.arbitrate s e a b) := by
  unfold State.arbitrate
  repeat' first
    | with_reducible assumption | intro _ | (extract_lets +onlyGivenNames x; unfold x; clear x)
    | with_reducible apply State.rewriteEntry_kept | with_reducible apply State.pairSend_kept | with_reducible apply State.raise_kept
    | with_reducible apply kept_ite | with_reducible apply kept_foldl
    | (with_reducible apply kept_parts; with_reducible apply State.inc_kept)

theorem State.matchResults_kept {q : List Instr} (s : State) (h : Kept q s) : Kept q (State.matchResults s) := by
  unfold State.matchResults
  repeat' first
    | with_reducible assumption | intro _ | (extract_lets +onlyGivenNames x; unfold x; clear x) | with_reducible apply State.diverge_kept
    | with_reducible apply State.arbitrate_kept | with_reducible apply kept_ite | with_reducible apply kept_foldl
    | (with_reducible apply kept_parts; with_reducible assumption) | split

theorem execFrameDurable_kept {q : List Instr} (id : Nat) (s : State) (h : Kept q s) : ∃ t, execFrameDurable id s = .next t ∧ Kept q t := by
  unfold execFrameDurable
  refine ⟨_, rfl, ?_⟩
  repeat' first
    | with_reducible assumption | (extract_lets +onlyGivenNames x; unfold x; clear x) | with_reducible apply State.noteEntry_kept
    | with_reducible apply State.mapSlots_kept | with_reducible apply State.inc_kept | with_reducible apply State.matchResults_kept
    | with_reducible apply State.pairSend_kept | with_reducible apply State.serveWaits_kept | with_reducible apply kept_ite
    | (with_reducible apply kept_parts; with_reducible apply State.noteAppend_kept)
    | (with_reducible apply kept_parts; with_reducible apply State.inc_kept) | split

theorem execTakeClose_kept {q : List Instr} (take : Nat) (s : State) (h : Kept q s) : ∃ t, execTakeClose take s = .next t ∧ Kept q t := by
  unfold execTakeClose
  refine ⟨_, rfl, ?_⟩
  repeat' first
    | with_reducible assumption | (extract_lets +onlyGivenNames x; unfold x; clear x) | with_reducible apply State.closeTakeOrphans_kept
    | with_reducible apply State.takeClosed_kept | with_reducible apply State.okRec_kept | with_reducible apply State.dropWaits_kept
    | with_reducible apply State.beginTrans_kept | with_reducible apply kept_ite | split

theorem execTakeStopTimeout_kept {q : List Instr} (take : Nat) (s : State)
    (h : Kept q s) : ∃ t, execTakeStopTimeout take s = .next t ∧ Kept q t := by
  unfold execTakeStopTimeout
  refine ⟨_, rfl, ?_⟩
  repeat' first
    | with_reducible assumption | with_reducible apply State.ingestStopCheck_kept | with_reducible apply State.closeTakeFrames_kept
    | with_reducible apply kept_ite | split

theorem execFrmInPulse_kept {q : List Instr} (s : State) (h : Kept q s) : ∃ t, execFrmInPulse s = .next t ∧ Kept q t := by
  unfold execFrmInPulse
  refine ⟨_, rfl, ?_⟩
  repeat' first
    | with_reducible assumption | (extract_lets +onlyGivenNames x; unfold x; clear x) | with_reducible apply State.inc_kept
    | with_reducible apply State.addPulse_kept | with_reducible apply kept_ite
    | (with_reducible apply kept_parts; with_reducible apply State.inc_kept)
    | (with_reducible apply kept_parts; with_reducible apply State.set_kept) | split

theorem execCaptureUnitFlush_kept {q : List Instr} (s : State) (h : Kept q s) : ∃ t, execCaptureUnitFlush s = .next t ∧ Kept q t := by
  unfold execCaptureUnitFlush
  refine ⟨_, rfl, ?_⟩
  repeat' first | with_reducible assumption | with_reducible apply State.closeCapture_kept

theorem execFrameClr_kept {q : List Instr} (who : Req) (s : State) (h : Kept q s) : ∃ t, execFrameClr who s = .next t ∧ Kept q t := by
  unfold execFrameClr
  refine ⟨_, rfl, ?_⟩
  repeat' first | with_reducible assumption | intro _ | with_reducible apply State.rwAction_kept | with_reducible apply State.clear_kept

end Sys2Proof.Machine
end

