-- ==== Sys2Proof/Laws/KeptUnits.lean ====
section
/-!
SUPPORT. One lemma for each operation and each command of links, verification, check-value units, keys, mailboxes, fatal events and what takes units down: it keeps the byte memories' form and the queue; a command answers a
next state.
-/

namespace Sys2Proof.Machine

/-! ### Links.lean -/

theorem State.returnUnits_kept {q : List Instr} (s : State) (v : Nat) (u : Nat) (h : Kept q s) : Kept q (State.returnUnits s v u) := by
  unfold State.returnUnits
  repeat' first
    | with_reducible assumption | (extract_lets +onlyGivenNames x; unfold x; clear x) | with_reducible apply State.pairSend_kept
    | (with_reducible apply kept_parts; with_reducible apply State.set_kept)

theorem State.refuseFrame_kept {q : List Instr} (s : State) (v : Nat) (u : Nat) (h : Kept q s) : Kept q (State.refuseFrame s v u) := by
  unfold State.refuseFrame
  repeat' first
    | with_reducible assumption | (extract_lets +onlyGivenNames x; unfold x; clear x) | with_reducible apply State.set_kept
    | with_reducible apply State.pairSend_kept | with_reducible apply State.inc_kept | with_reducible apply State.returnUnits_kept

theorem State.linkFrame_kept {q : List Instr} (s : State) (v : Nat) (seq : Nat) (u : Nat) (crcOk : Bool) (h : Kept q s) : Kept q
    (State.linkFrame s v seq u crcOk) := by
  unfold State.linkFrame
  repeat' first
    | with_reducible assumption | (extract_lets +onlyGivenNames x; unfold x; clear x) | with_reducible apply State.pairSend_kept
    | with_reducible apply State.returnUnits_kept | with_reducible apply State.refuseFrame_kept | with_reducible apply State.inc_kept
    | with_reducible apply kept_ite | (with_reducible apply kept_parts; with_reducible apply State.set_kept)

theorem State.passPair_kept {q : List Instr} (s : State) (v : Nat) (h : Kept q s) : Kept q (State.passPair s v) := by
  unfold State.passPair
  repeat' first
    | with_reducible assumption | (extract_lets +onlyGivenNames x; unfold x; clear x) | with_reducible apply State.set_kept
    | with_reducible apply State.linkFrame_kept | with_reducible apply kept_ite
    | (with_reducible apply kept_parts; with_reducible assumption) | split

theorem State.pairFrame_kept {q : List Instr} (s : State) (v : Nat) (seq : Nat) (u : Nat) (crcOk : Bool) (h : Kept q s) : Kept q
    (State.pairFrame s v seq u crcOk) := by
  unfold State.pairFrame
  repeat' first
    | with_reducible assumption | (extract_lets +onlyGivenNames x; unfold x; clear x) | with_reducible apply State.fiUnit_kept
    | with_reducible apply State.passPair_kept | with_reducible apply State.refuseFrame_kept | with_reducible apply State.linkFrame_kept
    | with_reducible apply State.set_kept | with_reducible apply kept_ite
    | (with_reducible apply kept_parts; with_reducible refine kept_snd (by with_reducible assumption) ?_) | split

theorem State.takeDown_kept {q : List Instr} (s : State) (reason : Option Nat) (h : Kept q s) : Kept q (State.takeDown s reason) := by
  unfold State.takeDown
  repeat' first
    | with_reducible assumption | (extract_lets +onlyGivenNames x; unfold x; clear x) | with_reducible apply State.pairSend_kept
    | with_reducible apply State.pairLinkDown_kept | with_reducible apply State.inc_kept | split

theorem State.resendAll_kept {q : List Instr} (s : State) (v : Nat) (h : Kept q s) : Kept q (State.resendAll s v) := by
  unfold State.resendAll
  repeat' first
    | with_reducible assumption | (extract_lets +onlyGivenNames x; unfold x; clear x) | with_reducible apply State.takeDown_kept
    | with_reducible apply State.addSat_kept | with_reducible apply kept_ite
    | (with_reducible apply kept_parts; with_reducible apply State.set_kept)

theorem State.ackFrames_kept {q : List Instr} (s : State) (v : Nat) (seq : Nat) (h : Kept q s) : Kept q (State.ackFrames s v seq) := by
  unfold State.ackFrames
  repeat' first | (extract_lets +onlyGivenNames x; unfold x; clear x) | (with_reducible apply kept_parts; with_reducible assumption)

theorem State.netOut_kept {q : List Instr} (s : State) (p : Nat) (m : NetTx) (h : Kept q s) : Kept q (State.netOut s p m) := by
  unfold State.netOut
  repeat' first
    | (extract_lets +onlyGivenNames x; unfold x; clear x) | with_reducible apply State.addSat_kept
    | (with_reducible apply kept_parts; with_reducible assumption)

theorem State.passTx_kept {q : List Instr} (s : State) (p : Nat) (h : Kept q s) : Kept q (State.passTx s p) := by
  unfold State.passTx
  repeat' first
    | with_reducible assumption | (extract_lets +onlyGivenNames x; unfold x; clear x) | with_reducible apply State.set_kept
    | with_reducible apply State.netOut_kept | with_reducible apply kept_ite
    | (with_reducible apply kept_parts; with_reducible assumption) | split

theorem State.netSend_kept {q : List Instr} (s : State) (p : Nat) (m : NetTx) (h : Kept q s) : Kept q (State.netSend s p m) := by
  unfold State.netSend
  repeat' first
    | with_reducible assumption | (extract_lets +onlyGivenNames x; unfold x; clear x) | with_reducible apply State.fiUnit_kept
    | with_reducible apply State.passTx_kept | with_reducible apply State.netOut_kept | with_reducible apply State.set_kept
    | with_reducible apply kept_ite | (with_reducible apply kept_parts; with_reducible refine kept_snd (by with_reducible assumption) ?_)
    | split

theorem State.netFrame_kept {q : List Instr} (s : State) (p : Nat) (m : NetRx) (h : Kept q s) : Kept q (State.netFrame s p m) := by
  unfold State.netFrame
  repeat' first
    | with_reducible assumption | (extract_lets +onlyGivenNames x; unfold x; clear x) | with_reducible apply State.addSat_kept
    | with_reducible apply State.inc_kept | with_reducible apply State.set_kept | with_reducible apply State.netSend_kept
    | with_reducible apply kept_ite | split

theorem State.passNet_kept {q : List Instr} (s : State) (p : Nat) (h : Kept q s) : Kept q (State.passNet s p) := by
  unfold State.passNet
  repeat' first
    | with_reducible assumption | (extract_lets +onlyGivenNames x; unfold x; clear x) | with_reducible apply State.set_kept
    | with_reducible apply State.netFrame_kept | with_reducible apply kept_ite
    | (with_reducible apply kept_parts; with_reducible assumption) | split

theorem State.netRx_kept {q : List Instr} (s : State) (p : Nat) (m : NetRx) (h : Kept q s) : Kept q (State.netRx s p m) := by
  unfold State.netRx
  repeat' first
    | with_reducible assumption | (extract_lets +onlyGivenNames x; unfold x; clear x) | with_reducible apply State.fiUnit_kept
    | with_reducible apply State.passNet_kept | with_reducible apply State.inc_kept | with_reducible apply State.netFrame_kept
    | with_reducible apply State.addSat_kept | with_reducible apply State.set_kept | with_reducible apply kept_ite
    | (with_reducible apply kept_parts; with_reducible refine kept_snd (by with_reducible assumption) ?_) | split


/-! ### Verify.lean -/

theorem State.ctrlAen_kept {q : List Instr} (s : State) (a : Aen) (id : Nat) (h : Kept q s) : Kept q (State.ctrlAen s a id) := by
  unfold State.ctrlAen
  repeat' first
    | with_reducible assumption | (extract_lets +onlyGivenNames x; unfold x; clear x) | with_reducible apply State.ok_kept
    | with_reducible apply kept_ite | (with_reducible apply kept_parts; with_reducible assumption) | split

theorem State.verifyEvent_kept {q : List Instr} (s : State) (h : Kept q s) : Kept q (State.verifyEvent s) := by
  unfold State.verifyEvent
  repeat' first
    | with_reducible assumption | intro _ | (extract_lets +onlyGivenNames x; unfold x; clear x)
    | with_reducible apply State.vendorEvent_kept | with_reducible apply State.ctrlAen_kept | with_reducible apply kept_foldl

theorem State.mapTrack_kept {q : List Instr} (s : State) (take : Nat) (f : Track → Track) (h : Kept q s) : Kept q
    (State.mapTrack s take f) := by
  unfold State.mapTrack
  repeat' first | (extract_lets +onlyGivenNames x; unfold x; clear x) | (with_reducible apply kept_parts; with_reducible assumption)

theorem State.trackTake_kept {q : List Instr} (s : State) (take : Nat) (h : Kept q s) : Kept q (State.trackTake s take) := by
  unfold State.trackTake
  repeat' first
    | (extract_lets +onlyGivenNames x; unfold x; clear x) | with_reducible apply State.mapTrack_kept | with_reducible apply kept_ite
    | (with_reducible apply kept_parts; with_reducible assumption) | (with_reducible apply kept_dram; with_reducible assumption)

theorem State.verRecord_kept {q : List Instr} (s : State) (i : EntryId) (outcome : Nat) (nsid : Nat) (digest : Nat)
    (h : Kept q s) : Kept q (State.verRecord s i outcome nsid digest) := by
  unfold State.verRecord
  repeat' first
    | (extract_lets +onlyGivenNames x; unfold x; clear x) | with_reducible apply State.verifyEvent_kept
    | (with_reducible apply kept_parts; with_reducible assumption)

theorem State.tryDeclare_kept {q : List Instr} (s : State) (take : Nat) (h : Kept q s) : Kept q (State.tryDeclare s take) := by
  unfold State.tryDeclare
  repeat' first
    | with_reducible assumption | (extract_lets +onlyGivenNames x; unfold x; clear x) | with_reducible apply State.noteTake_kept
    | with_reducible apply State.mapTrack_kept | with_reducible apply State.verifyEvent_kept | with_reducible apply State.raise_kept
    | with_reducible apply State.inc_kept | with_reducible apply kept_ite | split

theorem State.verOutcome_kept {q : List Instr} (s : State) (i : EntryId) (o : Nat) (digest : Nat) (h : Kept q s) : Kept q
    (State.verOutcome s i o digest) := by
  unfold State.verOutcome
  repeat' first
    | (extract_lets +onlyGivenNames x; unfold x; clear x) | with_reducible apply State.trackTake_kept
    | with_reducible apply State.mapTrack_kept | with_reducible apply State.verRecord_kept | with_reducible apply State.raise_kept
    | with_reducible apply State.verifyEvent_kept | with_reducible apply State.tryDeclare_kept | with_reducible apply kept_ite
    | (with_reducible apply kept_parts; with_reducible assumption)

theorem State.closeCtx_kept {q : List Instr} (s : State) (c : VerCtx) (o : Nat) (h : Kept q s) : Kept q (State.closeCtx s c o) := by
  unfold State.closeCtx
  repeat' first
    | (extract_lets +onlyGivenNames x; unfold x; clear x) | with_reducible apply State.verOutcome_kept
    | (with_reducible apply kept_parts; with_reducible assumption)

theorem State.closePort_kept {q : List Instr} (s : State) (p : Nat) (h : Kept q s) : Kept q (State.closePort s p) := by
  unfold State.closePort
  repeat' first | with_reducible assumption | intro _ | with_reducible apply State.closeCtx_kept | with_reducible apply kept_foldl

theorem State.openCtx_kept {q : List Instr} (s : State) (p : Nat) (i : EntryId) (h : Kept q s) : Kept q (State.openCtx s p i) := by
  unfold State.openCtx
  repeat' first
    | with_reducible assumption | (extract_lets +onlyGivenNames x; unfold x; clear x)
    | (with_reducible apply kept_parts; with_reducible assumption)
    | (with_reducible apply kept_parts; with_reducible apply State.closeCtx_kept) | split

theorem State.feedCtx_kept {q : List Instr} (s : State) (p : Nat) (e : Entry) (off : Nat) (bs : List Nat)
    (h : Kept q s) : Kept q (State.feedCtx s p e off bs) := by
  unfold State.feedCtx
  repeat' first
    | with_reducible assumption | (extract_lets +onlyGivenNames x; unfold x; clear x) | with_reducible apply State.openCtx_kept
    | with_reducible apply State.addSat_kept | with_reducible apply State.closeCtx_kept | with_reducible apply kept_ite
    | (with_reducible apply kept_parts; with_reducible assumption)
    | (with_reducible apply kept_parts; with_reducible apply State.openCtx_kept) | split

theorem State.feedLeaf_kept {q : List Instr} (s : State) (p : Nat) (nsid : Nat) (leaf : Nat) (sector : Nat) (bs : Option
    (List Nat)) (h : Kept q s) : Kept q (State.feedLeaf s p nsid leaf sector bs) := by
  unfold State.feedLeaf
  repeat' first
    | with_reducible assumption | (extract_lets +onlyGivenNames x; unfold x; clear x) | with_reducible apply State.feedCtx_kept
    | with_reducible apply State.closeCtx_kept | with_reducible apply State.verOutcome_kept | with_reducible apply kept_ite | split

theorem State.verAlter_kept {q : List Instr} (s : State) (nsid : Nat) (leaves : List Nat) (h : Kept q s) : Kept q
    (State.verAlter s nsid leaves) := by
  unfold State.verAlter
  repeat' first
    | with_reducible assumption | intro _ | (extract_lets +onlyGivenNames x; unfold x; clear x) | with_reducible apply State.closeCtx_kept
    | with_reducible apply State.mapTrack_kept | with_reducible apply State.noteTake_kept | with_reducible apply State.trackTake_kept
    | with_reducible apply State.verRecord_kept | with_reducible apply State.raise_kept | with_reducible apply kept_ite
    | with_reducible apply kept_foldl | split


/-! ### Crcu.lean -/

theorem State.crcuCompare_kept {q : List Instr} (s : State) (n : Nat) (h : Kept q s) : Kept q (State.crcuCompare s n) := by
  unfold State.crcuCompare
  repeat' first | with_reducible assumption | with_reducible apply State.raise_kept | with_reducible apply kept_ite

theorem State.crcuTake_kept {q : List Instr} (s : State) (n : Nat) (bs : List Nat) (h : Kept q s) : Kept q (State.crcuTake s n bs) := by
  unfold State.crcuTake
  repeat' first
    | with_reducible assumption | (extract_lets +onlyGivenNames x; unfold x; clear x) | with_reducible apply State.addWrap_kept
    | with_reducible apply State.set_kept | with_reducible apply State.crcuCompare_kept | with_reducible apply kept_ite

theorem State.crcuFeed_kept {q : List Instr} (s : State) (src : Nat) (chan : Nat) (bs : List Nat) (h : Kept q s) : Kept q
    (State.crcuFeed s src chan bs) := by
  unfold State.crcuFeed
  repeat' first
    | with_reducible assumption | intro _ | with_reducible apply State.crcuTake_kept | with_reducible apply kept_ite
    | with_reducible apply kept_foldl

theorem State.crcuClear_kept {q : List Instr} (s : State) (n : Nat) (h : Kept q s) : Kept q (State.crcuClear s n) := by
  unfold State.crcuClear
  repeat' first | with_reducible assumption | with_reducible apply State.set_kept

theorem execCrcuClear_kept {q : List Instr} (who : Req) (unit : Nat) (s : State)
    (h : Kept q s) : ∃ t, execCrcuClear who unit s = .next t ∧ Kept q t := by
  unfold execCrcuClear
  refine ⟨_, rfl, ?_⟩
  repeat' first
    | with_reducible assumption | intro _ | with_reducible apply State.rwAction_kept | with_reducible apply State.crcuClear_kept
    | with_reducible apply kept_ite

theorem State.crcuSoft_kept {q : List Instr} (s : State) (n : Nat) (bs : List Nat) (h : Kept q s) : Kept q (State.crcuSoft s n bs) := by
  unfold State.crcuSoft
  repeat' first | with_reducible assumption | with_reducible apply State.crcuTake_kept | with_reducible apply kept_ite

theorem execFeed_kept {q : List Instr} (who : Req) (unit : Nat) (val : Nat) (s : State)
    (h : Kept q s) : ∃ t, execFeed who unit val s = .next t ∧ Kept q t := by
  unfold execFeed
  refine ⟨_, rfl, ?_⟩
  repeat' first
    | with_reducible assumption | intro _ | with_reducible apply State.rwAction_kept | with_reducible apply State.crcuSoft_kept
    | with_reducible apply kept_ite

theorem execFeedPart_kept {q : List Instr} (who : Req) (unit : Nat) (val : Nat) (s : State)
    (h : Kept q s) : ∃ t, execFeedPart who unit val s = .next t ∧ Kept q t := by
  unfold execFeedPart
  refine ⟨_, rfl, ?_⟩
  repeat' first
    | with_reducible assumption | intro _ | with_reducible apply State.rwAction_kept | with_reducible apply State.crcuSoft_kept
    | with_reducible apply kept_ite

theorem execCrcuAccWrite_kept {q : List Instr} (who : Req) (unit : Nat) (val : Nat) (s : State)
    (h : Kept q s) : ∃ t, execCrcuAccWrite who unit val s = .next t ∧ Kept q t := by
  unfold execCrcuAccWrite
  refine ⟨_, rfl, ?_⟩
  repeat' first
    | with_reducible assumption | intro _ | with_reducible apply State.rwAction_kept | with_reducible apply State.set_kept
    | with_reducible apply kept_ite

theorem State.crcuCfg_kept {q : List Instr} (s : State) (n : Nat) (val : Nat) (h : Kept q s) : Kept q (State.crcuCfg s n val) := by
  unfold State.crcuCfg
  repeat' first
    | with_reducible assumption | (extract_lets +onlyGivenNames x; unfold x; clear x) | with_reducible apply State.set_kept
    | with_reducible apply State.raise_kept | with_reducible apply kept_ite

theorem execCrcuCfgWrite_kept {q : List Instr} (who : Req) (unit : Nat) (val : Nat) (s : State)
    (h : Kept q s) : ∃ t, execCrcuCfgWrite who unit val s = .next t ∧ Kept q t := by
  unfold execCrcuCfgWrite
  refine ⟨_, rfl, ?_⟩
  repeat' first
    | with_reducible assumption | intro _ | with_reducible apply State.rwAction_kept | with_reducible apply State.crcuCfg_kept
    | with_reducible apply kept_ite


/-! ### Keys.lean -/

theorem State.fiRelease_kept {q : List Instr} (s : State) (i : Nat) (h : Kept q s) : Kept q (State.fiRelease s i) := by
  unfold State.fiRelease
  repeat' first
    | with_reducible assumption | (extract_lets +onlyGivenNames x; unfold x; clear x) | with_reducible apply State.inc_kept
    | with_reducible apply State.block_kept | with_reducible apply State.linkFrame_kept | with_reducible apply State.netFrame_kept
    | with_reducible apply State.netOut_kept | with_reducible apply State.postEntry_kept | with_reducible apply kept_ite
    | (with_reducible apply kept_parts; with_reducible assumption)
    | (with_reducible apply kept_parts; with_reducible apply State.inc_kept)
    | (with_reducible apply kept_parts; with_reducible apply State.netFrame_kept) | split

theorem State.fiStopOne_kept {q : List Instr} (s : State) (i : Nat) (h : Kept q s) : Kept q (State.fiStopOne s i) := by
  unfold State.fiStopOne
  repeat' first
    | with_reducible assumption | (extract_lets +onlyGivenNames x; unfold x; clear x) | with_reducible apply State.set_kept
    | with_reducible apply State.raiseIf_kept | with_reducible apply State.fiRelease_kept | with_reducible apply kept_ite
    | (with_reducible apply kept_parts; with_reducible apply State.set_kept)

theorem State.fiStop_kept {q : List Instr} (s : State) (h : Kept q s) : Kept q (State.fiStop s) := by
  unfold State.fiStop
  repeat' first | with_reducible assumption | intro _ | with_reducible apply State.fiStopOne_kept | with_reducible apply kept_foldl

theorem State.fiCheck_kept {q : List Instr} (s : State) (h : Kept q s) : Kept q (State.fiCheck s) := by
  unfold State.fiCheck
  repeat' first | with_reducible assumption | with_reducible apply State.fiStop_kept | with_reducible apply kept_ite

theorem State.setLevel_kept {q : List Instr} (s : State) (lv : Nat) (auth : Nat) (h : Kept q s) : Kept q (State.setLevel s lv auth) := by
  unfold State.setLevel
  repeat' first
    | with_reducible assumption | (extract_lets +onlyGivenNames x; unfold x; clear x) | with_reducible apply State.set_kept
    | with_reducible apply State.raise_kept | with_reducible apply State.fiStop_kept | with_reducible apply kept_ite

theorem State.toD0_kept {q : List Instr} (s : State) (h : Kept q s) : Kept q (State.toD0 s) := by
  unfold State.toD0
  repeat' first | with_reducible assumption | with_reducible apply State.setLevel_kept

theorem State.disarm_kept {q : List Instr} (s : State) (h : Kept q s) : Kept q (State.disarm s) := by
  have h' := State.set_kept s F.SEC_STATUS_CARRY_ARMED 0 h
  exact ⟨h'.mem, h.store, h'.queue⟩

theorem State.showSec_kept {q : List Instr} (s : State) (h : Kept q s) : Kept q (State.showSec s) := by
  unfold State.showSec
  repeat' first | with_reducible assumption | (extract_lets +onlyGivenNames x; unfold x; clear x) | with_reducible apply State.set_kept

theorem State.setSec_kept {q : List Instr} (s : State) (v : Nat) (h : Kept q s) : Kept q (State.setSec s v) := by
  unfold State.setSec
  repeat' first
    | with_reducible assumption | (extract_lets +onlyGivenNames x; unfold x; clear x) | with_reducible apply State.raise_kept
    | with_reducible apply State.set_kept | with_reducible apply State.clearReady_kept | with_reducible apply State.disarm_kept
    | with_reducible apply State.setLevel_kept | with_reducible apply State.showSec_kept | with_reducible apply kept_ite

theorem State.secToKeep_kept {q : List Instr} (s : State) (h : Kept q s) : Kept q (State.secToKeep s) := by
  unfold State.secToKeep
  repeat' first
    | with_reducible assumption | (extract_lets +onlyGivenNames x; unfold x; clear x) | with_reducible apply kept_ite
    | (with_reducible apply kept_parts; with_reducible assumption)

theorem State.sdmaKill_kept {q : List Instr} (s : State) (n : Nat) (h : Kept q s) : Kept q (State.sdmaKill s n) := by
  unfold State.sdmaKill
  repeat' first
    | with_reducible assumption | (extract_lets +onlyGivenNames x; unfold x; clear x) | with_reducible apply State.set_kept
    | with_reducible apply kept_ite | (with_reducible apply kept_parts; with_reducible apply State.set_kept)
    | (with_reducible refine kept_mem ?_ ?_; with_reducible apply Memory.writeBytes_wf; rotate_left; with_reducible assumption)
    | exact Kept.mem (q := q) (by with_reducible assumption) | split

theorem State.sdmaPut_kept {q : List Instr} (s : State) (addr : Nat) (bs : List Nat) (h : Kept q s) : Kept q (State.sdmaPut s addr bs) := by
  unfold State.sdmaPut
  repeat' first
    | (extract_lets +onlyGivenNames x; unfold x; clear x) | with_reducible apply kept_ite
    | (with_reducible apply kept_parts; with_reducible assumption)
    | (with_reducible refine kept_mem ?_ ?_; with_reducible apply Memory.writeBytes_wf; rotate_left; with_reducible assumption)
    | exact Kept.mem (q := q) (by with_reducible assumption)

theorem State.writeBack_kept {q : List Instr} (s : State) (n : Nat) (x : Xfer) (status : Nat) (h : Kept q s) : Kept q
    (State.writeBack s n x status) := by
  unfold State.writeBack
  repeat' first | with_reducible assumption | (extract_lets +onlyGivenNames x; unfold x; clear x) | with_reducible apply State.sdmaPut_kept | split

theorem State.sdmaError_kept {q : List Instr} (s : State) (n : Nat) (code : Nat) (h : Kept q s) : Kept q (State.sdmaError s n code) := by
  unfold State.sdmaError
  repeat' first
    | with_reducible assumption | (extract_lets +onlyGivenNames x; unfold x; clear x) | with_reducible apply State.raise_kept
    | with_reducible apply State.inc_kept | with_reducible apply State.set_kept
    | (with_reducible apply kept_parts; with_reducible apply State.writeBack_kept) | split

theorem State.sdmaHostDown_kept {q : List Instr} (s : State) (h : Kept q s) : Kept q (State.sdmaHostDown s) := by
  unfold State.sdmaHostDown
  repeat' first
    | with_reducible assumption | intro _ | with_reducible apply State.sdmaError_kept | with_reducible apply kept_ite
    | with_reducible apply kept_foldl

theorem State.sdmaStop_kept {q : List Instr} (s : State) (n : Nat) (h : Kept q s) : Kept q (State.sdmaStop s n) := by
  unfold State.sdmaStop
  repeat' first
    | with_reducible assumption | with_reducible apply State.set_kept | with_reducible apply State.sdmaKill_kept
    | with_reducible apply kept_ite

theorem State.sdmaStopAll_kept {q : List Instr} (s : State) (h : Kept q s) : Kept q (State.sdmaStopAll s) := by
  unfold State.sdmaStopAll
  repeat' first
    | with_reducible assumption | intro _ | with_reducible apply State.set_kept | with_reducible apply State.sdmaStop_kept
    | with_reducible apply kept_foldl


/-! ### Mail.lean -/

theorem State.setQueue_kept {q : List Instr} (s : State) (d : Nat) (ws : List Nat) (h : Kept q s) : Kept q (State.setQueue s d ws) := by
  unfold State.setQueue
  repeat' first | (extract_lets +onlyGivenNames x; unfold x; clear x) | (with_reducible apply kept_parts; with_reducible assumption)

theorem State.mbxBusy_kept {q : List Instr} (s : State) (d : Nat) (h : Kept q s) : Kept q (State.mbxBusy s d) := by
  unfold State.mbxBusy
  repeat' first | with_reducible assumption | with_reducible apply State.raise_kept | with_reducible apply State.inc_kept

theorem State.mbxTravel_kept {q : List Instr} (s : State) (d : Nat) (kind : Nat) (idx : Nat) (ws : List Nat)
    (h : Kept q s) : Kept q (State.mbxTravel s d kind idx ws) := by
  unfold State.mbxTravel
  repeat' first | with_reducible assumption | with_reducible apply State.pairSend_kept | with_reducible apply kept_ite

theorem State.mbxRing_kept {q : List Instr} (s : State) (d : Nat) (b : Nat) (h : Kept q s) : Kept q (State.mbxRing s d b) := by
  unfold State.mbxRing
  repeat' first
    | with_reducible assumption | (extract_lets +onlyGivenNames x; unfold x; clear x) | with_reducible apply State.set_kept
    | with_reducible apply State.raiseIf_kept | with_reducible apply State.mbxTravel_kept | with_reducible apply State.beginTrans_kept
    | with_reducible apply State.wakeOut_kept | with_reducible apply kept_ite

theorem State.mbxClear_kept {q : List Instr} (s : State) (d : Nat) (b : Nat) (h : Kept q s) : Kept q (State.mbxClear s d b) := by
  unfold State.mbxClear
  repeat' first | with_reducible assumption | with_reducible apply State.mbxTravel_kept | with_reducible apply State.set_kept

theorem State.mbxPush_kept {q : List Instr} (s : State) (d : Nat) (w : Nat) (h : Kept q s) : Kept q (State.mbxPush s d w) := by
  unfold State.mbxPush
  repeat' first
    | with_reducible assumption | (extract_lets +onlyGivenNames x; unfold x; clear x) | with_reducible apply State.setQueue_kept
    | with_reducible apply State.crcuFeed_kept | with_reducible apply State.raiseIf_kept | with_reducible apply State.mbxTravel_kept
    | with_reducible apply State.raise_kept | with_reducible apply State.inc_kept | with_reducible apply kept_ite
    | (with_reducible apply kept_parts; with_reducible apply State.raiseIf_kept)

theorem State.mbxPop_kept {q : List Instr} (s : State) (d : Nat) (n : Nat) (h : Kept q s) : Kept q (State.mbxPop s d n) := by
  unfold State.mbxPop
  repeat' first
    | with_reducible assumption | (extract_lets +onlyGivenNames x; unfold x; clear x) | with_reducible apply State.mbxBusy_kept
    | with_reducible apply State.mbxTravel_kept | with_reducible apply State.setQueue_kept | with_reducible apply kept_ite

theorem State.setBlk_kept {q : List Instr} (s : State) (d : Nat) (ws : List Nat) (h : Kept q s) : Kept q (State.setBlk s d ws) := by
  unfold State.setBlk
  repeat' first | with_reducible assumption | intro _ | with_reducible apply State.set_kept | with_reducible apply kept_foldl

theorem State.mbxGo_kept {q : List Instr} (s : State) (d : Nat) (poster : Nat) (h : Kept q s) : Kept q (State.mbxGo s d poster) := by
  unfold State.mbxGo
  repeat' first
    | with_reducible assumption | (extract_lets +onlyGivenNames x; unfold x; clear x) | with_reducible apply State.mbxBusy_kept
    | with_reducible apply State.set_kept | with_reducible apply State.raiseIf_kept | with_reducible apply State.mbxTravel_kept
    | with_reducible apply kept_ite

theorem State.mbxDone_kept {q : List Instr} (s : State) (d : Nat) (h : Kept q s) : Kept q (State.mbxDone s d) := by
  unfold State.mbxDone
  repeat' first
    | with_reducible assumption | (extract_lets +onlyGivenNames x; unfold x; clear x) | with_reducible apply State.mbxBusy_kept
    | with_reducible apply State.raiseIf_kept | with_reducible apply State.set_kept | with_reducible apply State.mbxTravel_kept
    | with_reducible apply kept_ite

theorem State.mbxRelease_kept {q : List Instr} (s : State) (d : Nat) (h : Kept q s) : Kept q (State.mbxRelease s d) := by
  unfold State.mbxRelease
  repeat' first
    | with_reducible assumption | with_reducible apply State.mbxBusy_kept | with_reducible apply State.mbxTravel_kept
    | with_reducible apply State.set_kept | with_reducible apply kept_ite

theorem State.mbxReply_kept {q : List Instr} (s : State) (r : MbxReq) (status : Nat) (body : List Nat) (h : Kept q s) : Kept q
    (State.mbxReply s r status body) := by
  unfold State.mbxReply
  repeat' first
    | with_reducible assumption | intro _ | (extract_lets +onlyGivenNames x; unfold x; clear x) | with_reducible apply State.mbxRing_kept
    | with_reducible apply State.mbxPush_kept | with_reducible apply State.mbxDone_kept | with_reducible apply State.setBlk_kept
    | with_reducible apply State.pairSend_kept | with_reducible apply kept_ite | with_reducible apply kept_foldl | split

theorem State.mbxModeOutcome_kept {q : List Instr} (s : State) (r : MbxReq) (status : Nat) (h : Kept q s) : Kept q
    (State.mbxModeOutcome s r status) := by
  unfold State.mbxModeOutcome
  repeat' first
    | with_reducible assumption | (extract_lets +onlyGivenNames x; unfold x; clear x) | with_reducible apply State.mbxReply_kept
    | with_reducible apply State.mbxRing_kept | with_reducible apply kept_ite

theorem State.mbxModeOutcomeOpt_kept {q : List Instr} (s : State) (r : Option MbxReq) (status : Nat) (h : Kept q s) : Kept q
    (State.mbxModeOutcome? s r status) := by
  unfold State.mbxModeOutcome?
  repeat' first | with_reducible assumption | with_reducible apply State.mbxModeOutcome_kept | split

theorem State.mbxTake_kept {q : List Instr} (s : State) (r : MbxReq) (h : Kept q s) : Kept q (State.mbxTake s r) := by
  unfold State.mbxTake
  repeat' first
    | with_reducible assumption | (extract_lets +onlyGivenNames x; unfold x; clear x) | with_reducible apply State.setQueue_kept
    | (with_reducible apply kept_parts; with_reducible assumption) | split

theorem State.mbxUnknown_kept {q : List Instr} (x0 : Nat) (x1 : State) (h : Kept q x1) : Kept q (State.mbxUnknown x0 x1) := by
  induction x0 generalizing x1 with
  | zero => unfold State.mbxUnknown; assumption
  | succ n ih =>
  unfold State.mbxUnknown
  repeat' first
    | with_reducible assumption | with_reducible apply State.mbxReply_kept | with_reducible apply State.mbxTake_kept
    | with_reducible apply ih | split


/-! ### Fatal.lean -/

theorem State.forceNote_kept {q : List Instr} (s : State) (r : Rec) (h : Kept q s) : Kept q (State.forceNote s r) := by
  unfold State.forceNote
  repeat' first | (extract_lets +onlyGivenNames x; unfold x; clear x) | (with_reducible apply kept_parts; with_reducible assumption)

theorem State.countErases_kept {q : List Instr} (s : State) (h : Kept q s) : Kept q (State.countErases s) := by
  unfold State.countErases
  repeat' first
    | with_reducible assumption | intro _ | (extract_lets +onlyGivenNames x; unfold x; clear x)
    | with_reducible apply State.forceNote_kept | with_reducible apply kept_foldl

theorem State.stopOps_kept {q : List Instr} (s : State) (h : Kept q s) : Kept q (State.stopOps s) := by
  unfold State.stopOps
  repeat' first
    | with_reducible assumption | (extract_lets +onlyGivenNames x; unfold x; clear x)
    | (with_reducible apply kept_parts; with_reducible apply State.closeWindow_kept)

theorem State.startSealing_kept {q : List Instr} (s : State) (reset : Bool) (keep : Bool) (cause : Nat) (h : Kept q s) : Kept q
    (State.startSealing s reset keep cause) := by
  unfold State.startSealing
  repeat' first
    | with_reducible assumption | (extract_lets +onlyGivenNames x; unfold x; clear x) | with_reducible apply State.countErases_kept
    | with_reducible apply State.set_kept | (with_reducible apply kept_parts; with_reducible apply State.stopOps_kept)

theorem State.refuseHeld_kept {q : List Instr} (s : State) (h : Kept q s) : Kept q (State.refuseHeld s) := by
  unfold State.refuseHeld
  repeat' first
    | with_reducible assumption | intro _
    | (extract_lets +onlyGivenNames x; with_reducible refine kept_imp (q := q) x ?_ ?_; unfold x; clear x; rotate_left; intro _; clear_value x; revert x; intros; rotate_right)
    | (extract_lets +onlyGivenNames x; unfold x; clear x) | with_reducible apply State.raiseIf_kept
    | with_reducible apply State.vendor_kept | with_reducible apply State.modeRefused_kept
    | with_reducible apply State.mbxModeOutcome_kept | with_reducible apply State.mbxModeOutcomeOpt_kept | with_reducible apply kept_foldl
    | (with_reducible apply kept_parts; with_reducible assumption) | split

theorem State.toKeep_kept {q : List Instr} (s : State) (cause : Nat) (h : Kept q s) : Kept q (State.toKeep s cause) := by
  unfold State.toKeep
  repeat' first
    | with_reducible assumption | (extract_lets +onlyGivenNames x; unfold x; clear x) | with_reducible apply State.resetAll_kept
    | with_reducible apply State.secToKeep_kept | with_reducible apply State.set_kept | with_reducible apply kept_ite
    | (with_reducible apply kept_parts; with_reducible apply State.resetAll_kept)

theorem State.stopServices_kept {q : List Instr} (s : State) (h : Kept q s) : Kept q (State.stopServices s) := by
  unfold State.stopServices
  repeat' first
    | with_reducible assumption | (extract_lets +onlyGivenNames x; unfold x; clear x) | with_reducible apply State.sdmaStopAll_kept
    | with_reducible apply State.set_kept | (with_reducible apply kept_parts; with_reducible apply State.set_kept)

theorem State.sealEntry_kept {q : List Instr} (s : State) (cause : Nat) (h : Kept q s) : Kept q (State.sealEntry s cause) := by
  unfold State.sealEntry
  repeat' first
    | with_reducible assumption | intro _
    | (extract_lets +onlyGivenNames x; with_reducible refine kept_imp (q := q) x ?_ ?_; unfold x; clear x; rotate_left; intro _; clear_value x; revert x; intros; rotate_right)
    | (extract_lets +onlyGivenNames x; unfold x; clear x) | with_reducible apply State.toKeep_kept | with_reducible apply State.toD0_kept
    | with_reducible apply State.refuseHeld_kept | with_reducible apply State.pairSend_kept | with_reducible apply State.startSealing_kept
    | with_reducible apply State.stopServices_kept | with_reducible apply State.fiStop_kept | with_reducible apply State.enterMode_kept
    | with_reducible apply State.set_kept | with_reducible apply State.gateIsland_kept | with_reducible apply kept_ite
    | with_reducible apply kept_foldl | (with_reducible apply kept_parts; with_reducible assumption) | split

theorem State.norErase_kept {q : List Instr} (s : State) (sec : Nat) (h : Kept q s) : Kept q (State.norErase s sec) := by
  unfold State.norErase
  repeat' first
    | (extract_lets +onlyGivenNames x; unfold x; clear x)
    | (with_reducible refine kept_store ?_ ?_; with_reducible apply Memory.filter_wf; rotate_left; with_reducible assumption)
    | exact Kept.store (q := q) (by with_reducible assumption)

theorem State.norWrite_kept {q : List Instr} (s : State) (a : Nat) (bs : List Nat) (h : Kept q s) : Kept q (State.norWrite s a bs) := by
  unfold State.norWrite
  repeat' first
    | with_reducible assumption
    | (extract_lets +onlyGivenNames x; with_reducible refine kept_imp (q := q) x ?_ ?_; unfold x; clear x; rotate_left; intro _; clear_value x; revert x; intros; rotate_right)
    | (extract_lets +onlyGivenNames x; unfold x; clear x) | with_reducible apply State.norErase_kept | with_reducible apply kept_ite
    | (with_reducible refine kept_store ?_ ?_; with_reducible apply Memory.writeBytes_wf; rotate_left; with_reducible assumption)
    | exact Kept.store (q := q) (by with_reducible assumption)

theorem State.cutCode_kept {q : List Instr} (s : State) (h : Kept q s) : Kept q (State.cutCode s) := by
  unfold State.cutCode
  repeat' first
    | with_reducible assumption | (extract_lets +onlyGivenNames x; unfold x; clear x) | with_reducible apply State.norErase_kept
    | with_reducible apply State.raise_kept | with_reducible apply State.set_kept | with_reducible apply kept_ite
    | (with_reducible apply kept_parts; with_reducible apply State.norWrite_kept)

theorem State.resetDue_kept {q : List Instr} (s : State) (h : Kept q s) : Kept q (State.resetDue s) := by
  unfold State.resetDue
  repeat' first
    | with_reducible assumption | with_reducible apply State.fullReset_kept | with_reducible apply State.toD0_kept
    | with_reducible apply kept_ite

theorem State.resetTrigger_kept {q : List Instr} (s : State) (bit' : Nat) (cause : Nat) (h : Kept q s) : Kept q
    (State.resetTrigger s bit' cause) := by
  unfold State.resetTrigger
  repeat' first
    | with_reducible assumption | (extract_lets +onlyGivenNames x; unfold x; clear x) | with_reducible apply State.raise_kept
    | with_reducible apply State.set_kept | with_reducible apply State.resetDue_kept | with_reducible apply kept_ite
    | (with_reducible apply kept_parts; with_reducible assumption)
    | (with_reducible apply kept_parts; with_reducible apply State.startSealing_kept)
    | (with_reducible apply kept_dram; with_reducible assumption)
    | (with_reducible apply kept_dram; with_reducible apply State.startSealing_kept) | split

theorem State.pairLeave_kept {q : List Instr} (s : State) (planned : Bool) (pstate : Nat) (h : Kept q s) : Kept q
    (State.pairLeave s planned pstate) := by
  unfold State.pairLeave
  repeat' first
    | with_reducible assumption | intro _
    | (extract_lets +onlyGivenNames x; with_reducible refine kept_imp (q := q) x ?_ ?_; unfold x; clear x; rotate_left; intro _; clear_value x; revert x; intros; rotate_right)
    | (extract_lets +onlyGivenNames x; unfold x; clear x) | with_reducible apply State.pairSend_kept
    | with_reducible apply State.releaseHeld_kept | with_reducible apply State.release_kept | with_reducible apply State.vendor_kept
    | with_reducible apply State.setPstate_kept | with_reducible apply State.markSegs_kept | with_reducible apply kept_ite
    | with_reducible apply kept_foldl | (with_reducible apply kept_parts; with_reducible assumption)

theorem State.dropWrites_kept {q : List Instr} (s : State) (h : Kept q s) : Kept q (State.dropWrites s) := by
  unfold State.dropWrites
  repeat' first
    | with_reducible assumption | intro _ | (extract_lets +onlyGivenNames x; unfold x; clear x) | with_reducible apply State.vendor_kept
    | with_reducible apply State.dropSlots_kept | with_reducible apply kept_foldl
    | (with_reducible apply kept_dram; with_reducible assumption) | split

theorem State.abandonTakes_kept {q : List Instr} (s : State) (h : Kept q s) : Kept q (State.abandonTakes s) := by
  unfold State.abandonTakes
  repeat' first
    | with_reducible assumption | intro _ | (extract_lets +onlyGivenNames x; unfold x; clear x) | with_reducible apply State.vendor_kept
    | with_reducible apply State.closeTakeOrphans_kept | with_reducible apply State.closeTakeFrames_kept
    | with_reducible apply State.dropWaits_kept | with_reducible apply State.takeClosed_kept | with_reducible apply kept_foldl
    | (with_reducible apply kept_parts; with_reducible assumption) | split

theorem State.quarantine_kept {q : List Instr} (s : State) (code : Nat) (detail : Nat) (cause : Nat) (h : Kept q s) : Kept q
    (State.quarantine s code detail cause) := by
  unfold State.quarantine
  repeat' first
    | (extract_lets +onlyGivenNames x; unfold x; clear x) | with_reducible apply State.fiStop_kept
    | with_reducible apply State.dropWrites_kept | with_reducible apply State.abandonTakes_kept
    | with_reducible apply State.refuseHeld_kept | with_reducible apply State.set_kept | with_reducible apply State.pairLeave_kept
    | with_reducible apply State.rearmEvent_kept | with_reducible apply State.changeMode_kept | with_reducible apply kept_ite
    | (with_reducible apply kept_parts; with_reducible apply State.fiStop_kept)
    | (with_reducible apply kept_nv; with_reducible assumption)


/-! ### Down.lean -/

theorem State.dropConn_kept {q : List Instr} (s : State) (conn : Nat) (h : Kept q s) : Kept q (State.dropConn s conn) := by
  unfold State.dropConn
  repeat' first
    | (extract_lets +onlyGivenNames x; unfold x; clear x) | with_reducible apply State.raise_kept
    | with_reducible apply State.dropSlots_kept | (with_reducible apply kept_parts; with_reducible assumption)

theorem State.closeConn_kept {q : List Instr} (s : State) (conn : Nat) (h : Kept q s) : Kept q (State.closeConn s conn) := by
  unfold State.closeConn
  repeat' first
    | with_reducible assumption | intro _ | (extract_lets +onlyGivenNames x; unfold x; clear x) | with_reducible apply State.dropConn_kept
    | with_reducible apply kept_ite | with_reducible apply kept_foldl
    | (with_reducible apply kept_parts; with_reducible apply State.dropConn_kept) | split

theorem State.resetConns_kept {q : List Instr} (s : State) (p : Nat) (h : Kept q s) : Kept q (State.resetConns s p) := by
  unfold State.resetConns
  repeat' first
    | with_reducible assumption | intro _ | with_reducible apply State.closeConn_kept | with_reducible apply State.netSend_kept
    | with_reducible apply kept_ite | with_reducible apply kept_foldl

theorem State.offloadCheck_kept {q : List Instr} (s : State) (h : Kept q s) : Kept q (State.offloadCheck s) := by
  unfold State.offloadCheck
  repeat' first
    | with_reducible assumption | (extract_lets +onlyGivenNames x; unfold x; clear x) | with_reducible apply State.beginTrans_kept
    | with_reducible apply kept_ite | (with_reducible apply kept_parts; with_reducible apply State.set_kept) | split

theorem State.closeOffload_kept {q : List Instr} (s : State) (h : Kept q s) : Kept q (State.closeOffload s) := by
  unfold State.closeOffload
  repeat' first
    | with_reducible assumption | intro _ | (extract_lets +onlyGivenNames x; unfold x; clear x)
    | with_reducible apply State.closeConn_kept | with_reducible apply State.netSend_kept | with_reducible apply State.offloadCheck_kept
    | with_reducible apply State.closePort_kept | with_reducible apply kept_foldl | split

theorem State.netLinkDown_kept {q : List Instr} (s : State) (p : Nat) (h : Kept q s) : Kept q (State.netLinkDown s p) := by
  unfold State.netLinkDown
  repeat' first
    | with_reducible assumption | (extract_lets +onlyGivenNames x; unfold x; clear x) | with_reducible apply State.set_kept
    | with_reducible apply State.closePort_kept | with_reducible apply State.clearReady_kept | with_reducible apply State.raise_kept
    | with_reducible apply kept_ite

theorem State.busaistDown_kept {q : List Instr} (s : State) (h : Kept q s) : Kept q (State.busaistDown s) := by
  unfold State.busaistDown
  repeat' first
    | with_reducible assumption | (extract_lets +onlyGivenNames x; unfold x; clear x) | with_reducible apply State.clearReady_kept
    | with_reducible apply State.set_kept | with_reducible apply State.unalign_kept | with_reducible apply State.ingestStopCheck_kept

theorem State.serdesDown_kept {q : List Instr} (s : State) (h : Kept q s) : Kept q (State.serdesDown s) := by
  unfold State.serdesDown
  repeat' first
    | with_reducible assumption | intro _ | (extract_lets +onlyGivenNames x; unfold x; clear x)
    | with_reducible apply State.busaistDown_kept | with_reducible apply State.pairLinkDown_kept
    | with_reducible apply State.clearReady_kept | with_reducible apply State.netLinkDown_kept | with_reducible apply kept_ite
    | with_reducible apply kept_foldl

theorem State.pcieDown_kept {q : List Instr} (s : State) (h : Kept q s) : Kept q (State.pcieDown s) := by
  unfold State.pcieDown
  repeat' first | with_reducible assumption | with_reducible apply State.clearReady_kept

theorem State.startPair_kept {q : List Instr} (s : State) (h : Kept q s) : Kept q (State.startPair s) := by
  unfold State.startPair
  repeat' first
    | with_reducible assumption | with_reducible apply State.set_kept | with_reducible apply State.setPstate_kept
    | with_reducible apply kept_ite

theorem State.startNet_kept {q : List Instr} (s : State) (p : Nat) (h : Kept q s) : Kept q (State.startNet s p) := by
  unfold State.startNet
  repeat' first | with_reducible assumption | with_reducible apply State.set_kept | with_reducible apply kept_ite

theorem State.startDiscovery_kept {q : List Instr} (s : State) (h : Kept q s) : Kept q (State.startDiscovery s) := by
  unfold State.startDiscovery
  repeat' first
    | with_reducible assumption | intro _ | with_reducible apply State.set_kept | with_reducible apply kept_ite
    | with_reducible apply kept_foldl

theorem State.startFns_kept {q : List Instr} (s : State) (h : Kept q s) : Kept q (State.startFns s) := by
  unfold State.startFns
  repeat' first
    | with_reducible assumption | with_reducible apply State.startDiscovery_kept | with_reducible apply State.startNet_kept
    | with_reducible apply State.startPair_kept | with_reducible apply State.startIngest_kept

theorem State.quiesce_kept {q : List Instr} (s : State) (i : Nat) (h : Kept q s) : Kept q (State.quiesce s i) := by
  unfold State.quiesce
  repeat' first
    | with_reducible assumption | intro _ | with_reducible apply State.ingestDown_kept | with_reducible apply State.pairLinkDown_kept
    | with_reducible apply State.pairLeave_kept | with_reducible apply State.offloadCheck_kept
    | with_reducible apply State.netLinkDown_kept | with_reducible apply State.resetConns_kept | with_reducible apply kept_foldl | split

theorem State.resetIsland_kept {q : List Instr} (s : State) (i : Nat) (h : Kept q s) : Kept q (State.resetIsland s i) := by
  unfold State.resetIsland
  repeat' first | with_reducible assumption | with_reducible apply State.islandReset_kept | with_reducible apply State.quiesce_kept

theorem State.offIsland_kept {q : List Instr} (s : State) (i : Nat) (h : Kept q s) : Kept q (State.offIsland s i) := by
  unfold State.offIsland
  repeat' first | with_reducible assumption | with_reducible apply State.gateIsland_kept | with_reducible apply State.quiesce_kept

end Sys2Proof.Machine
end

