-- ==== Sys2Proof/Laws/KeptPower.lean ====
section
/-!
SUPPORT. One lemma for each operation and each command of power, modes, the ledger, reads, host I/O and escalation: it keeps the byte memories' form and the queue; a command answers a
next state.
-/

namespace Sys2Proof.Machine

/-! ### Power.lean -/

theorem execPowerOnResetRelease_kept {q : List Instr} (straps : Nat) (unstable : Nat) (s : State)
    (h : Kept q s) : ∃ t, execPowerOnResetRelease straps unstable s = .next t ∧ Kept q t := by
  unfold execPowerOnResetRelease
  refine ⟨_, rfl, ?_⟩
  repeat' first | with_reducible assumption | with_reducible apply State.restart_kept | with_reducible apply kept_ite

theorem State.ioInvalid_kept {q : List Instr} (s : State) (h : Kept q s) : Kept q (State.ioInvalid s) := by
  unfold State.ioInvalid
  repeat' first
    | with_reducible assumption | (extract_lets +onlyGivenNames x; unfold x; clear x) | with_reducible apply State.faultFn_kept
    | with_reducible apply State.resetIsland_kept | with_reducible apply State.raise_kept | with_reducible apply kept_ite

theorem execBankLevelDecided_kept {q : List Instr} (bank : Nat) (level : Nat) (s : State)
    (h : Kept q s) : ∃ t, execBankLevelDecided bank level s = .next t ∧ Kept q t := by
  unfold execBankLevelDecided
  refine ⟨_, rfl, ?_⟩
  repeat' first
    | with_reducible assumption | intro _ | (extract_lets +onlyGivenNames x; unfold x; clear x) | with_reducible apply State.set_kept
    | with_reducible apply State.ioInvalid_kept | with_reducible apply State.raise_kept | with_reducible apply State.setBitTo_kept
    | with_reducible apply State.startIsland_kept | with_reducible apply kept_ite | with_reducible apply kept_foldl

theorem State.noteVin_kept {q : List Instr} (s : State) (h : Kept q s) : Kept q (State.noteVin s) := by
  unfold State.noteVin
  repeat' first
    | with_reducible assumption | (extract_lets +onlyGivenNames x; unfold x; clear x) | with_reducible apply State.raiseIf_kept
    | with_reducible apply State.set_kept

theorem State.guardSample_kept {q : List Instr} (s : State) (h : Kept q s) : Kept q (State.guardSample s) := by
  unfold State.guardSample
  repeat' first
    | with_reducible assumption | (extract_lets +onlyGivenNames x; unfold x; clear x) | with_reducible apply State.set_kept
    | with_reducible apply State.noteFlow_kept | with_reducible apply State.noteHeadroom_kept

theorem State.tripEffect_kept {q : List Instr} (s : State) (rail : Nat) (h : Kept q s) : Kept q (State.tripEffect s rail) := by
  unfold State.tripEffect
  repeat' first
    | with_reducible assumption | with_reducible apply State.toKeep_kept | with_reducible apply State.toD0_kept
    | with_reducible apply State.sealEntry_kept | with_reducible apply State.noteVin_kept | with_reducible apply State.guardSample_kept
    | with_reducible apply State.pcieDown_kept | with_reducible apply State.serdesDown_kept | with_reducible apply State.clearReady_kept
    | split

theorem execRailTrip_kept {q : List Instr} (rail : Nat) (s : State) (h : Kept q s) : ∃ t, execRailTrip rail s = .next t ∧ Kept q t := by
  unfold execRailTrip
  refine ⟨_, rfl, ?_⟩
  repeat' first
    | with_reducible assumption | (extract_lets +onlyGivenNames x; unfold x; clear x) | with_reducible apply State.setBitTo_kept
    | with_reducible apply State.tripEffect_kept | with_reducible apply State.raise_kept | with_reducible apply kept_ite

theorem execRailValid_kept {q : List Instr} (rail : Nat) (s : State) (h : Kept q s) : ∃ t, execRailValid rail s = .next t ∧ Kept q t := by
  unfold execRailValid
  refine ⟨_, rfl, ?_⟩
  repeat' first
    | with_reducible assumption | (extract_lets +onlyGivenNames x; unfold x; clear x) | with_reducible apply State.setBitTo_kept
    | with_reducible apply State.noteVin_kept | with_reducible apply kept_ite

theorem State.compareVin_kept {q : List Instr} (s : State) (h : Kept q s) : Kept q (State.compareVin s) := by
  unfold State.compareVin
  repeat' first
    | (extract_lets +onlyGivenNames x; unfold x; clear x) | with_reducible apply State.noteVin_kept
    | with_reducible apply State.sealEntry_kept | with_reducible apply kept_ite
    | (with_reducible apply kept_parts; with_reducible assumption)

theorem execVinSenseLow_kept {q : List Instr} (mv : Nat) (s : State) (h : Kept q s) : ∃ t, execVinSenseLow mv s = .next t ∧ Kept q t := by
  unfold execVinSenseLow
  refine ⟨_, rfl, ?_⟩
  repeat' first
    | (extract_lets +onlyGivenNames x; unfold x; clear x) | with_reducible apply State.compareVin_kept | with_reducible apply kept_ite
    | (with_reducible apply kept_parts; with_reducible assumption)

theorem execPwrFailN_kept {q : List Instr} (low : Bool) (s : State) (h : Kept q s) : ∃ t, execPwrFailN low s = .next t ∧ Kept q t := by
  unfold execPwrFailN
  refine ⟨_, rfl, ?_⟩
  repeat' first
    | (extract_lets +onlyGivenNames x; unfold x; clear x) | with_reducible apply State.sealEntry_kept | with_reducible apply kept_ite
    | (with_reducible apply kept_parts; with_reducible assumption)

theorem State.unlockPlls_kept {q : List Instr} (s : State) (ps : List Nat) (h : Kept q s) : Kept q (State.unlockPlls s ps) := by
  unfold State.unlockPlls
  repeat' first | with_reducible assumption | intro _ | with_reducible apply State.setBitTo_kept | with_reducible apply kept_foldl

theorem execXtalLoss_kept {q : List Instr} (s : State) (h : Kept q s) : ∃ t, execXtalLoss s = .next t ∧ Kept q t := by
  unfold execXtalLoss
  refine ⟨_, rfl, ?_⟩
  repeat' first
    | with_reducible assumption | (extract_lets +onlyGivenNames x; unfold x; clear x) | with_reducible apply State.set_kept
    | with_reducible apply State.inc_kept | with_reducible apply State.unlockPlls_kept | with_reducible apply State.sealEntry_kept
    | with_reducible apply State.raise_kept | with_reducible apply kept_ite

theorem execRefClockLoss_kept {q : List Instr} (ref : Nat) (inL1ss : Bool) (s : State)
    (h : Kept q s) : ∃ t, execRefClockLoss ref inL1ss s = .next t ∧ Kept q t := by
  unfold execRefClockLoss
  refine ⟨_, rfl, ?_⟩
  repeat' first
    | with_reducible assumption | (extract_lets +onlyGivenNames x; unfold x; clear x) | with_reducible apply State.set_kept
    | with_reducible apply State.unlockPlls_kept | with_reducible apply State.raise_kept | with_reducible apply State.inc_kept
    | with_reducible apply State.pcieDown_kept | with_reducible apply State.serdesDown_kept | with_reducible apply kept_ite
    | (with_reducible apply kept_parts; with_reducible apply State.set_kept)

theorem execRefRestored_kept {q : List Instr} (ref : Nat) (s : State) (h : Kept q s) : ∃ t, execRefRestored ref s = .next t ∧ Kept q t := by
  unfold execRefRestored
  refine ⟨_, rfl, ?_⟩
  repeat' first
    | with_reducible assumption | (extract_lets +onlyGivenNames x; unfold x; clear x) | with_reducible apply State.set_kept
    | with_reducible apply State.raise_kept | with_reducible apply kept_ite
    | (with_reducible apply kept_parts; with_reducible apply State.set_kept)

theorem State.takeSsc_kept {q : List Instr} (s : State) (p : Nat) (h : Kept q s) : Kept q (State.takeSsc s p) := by
  unfold State.takeSsc
  repeat' first
    | with_reducible assumption | (extract_lets +onlyGivenNames x; unfold x; clear x) | with_reducible apply kept_ite
    | (with_reducible apply kept_parts; with_reducible assumption)

theorem execPllLock_kept {q : List Instr} (pll : Nat) (s : State) (h : Kept q s) : ∃ t, execPllLock pll s = .next t ∧ Kept q t := by
  unfold execPllLock
  refine ⟨_, rfl, ?_⟩
  repeat' first
    | with_reducible assumption | with_reducible apply State.takeSsc_kept | with_reducible apply State.setBitTo_kept
    | with_reducible apply kept_ite

theorem execSscProfileChange_kept {q : List Instr} (pll : Nat) (s : State)
    (h : Kept q s) : ∃ t, execSscProfileChange pll s = .next t ∧ Kept q t := by
  unfold execSscProfileChange
  refine ⟨_, rfl, ?_⟩
  repeat' first | with_reducible assumption | with_reducible apply State.takeSsc_kept | with_reducible apply kept_ite

theorem execLossClr_kept {q : List Instr} (who : Req) (s : State) (h : Kept q s) : ∃ t, execLossClr who s = .next t ∧ Kept q t := by
  unfold execLossClr
  refine ⟨_, rfl, ?_⟩
  repeat' first | with_reducible assumption | intro _ | with_reducible apply State.rwAction_kept | with_reducible apply State.clear_kept

theorem State.writeIslEn_kept {q : List Instr} (s : State) (i : Nat) (en : Bool) (h : Kept q s) : Kept q (State.writeIslEn s i en) := by
  unfold State.writeIslEn
  repeat' first
    | with_reducible assumption | (extract_lets +onlyGivenNames x; unfold x; clear x) | with_reducible apply State.setBitTo_kept
    | with_reducible apply State.islReq_kept | with_reducible apply kept_ite

theorem execIslEnWrite_kept {q : List Instr} (who : Req) (island : Nat) (en : Bool) (s : State)
    (h : Kept q s) : ∃ t, execIslEnWrite who island en s = .next t ∧ Kept q t := by
  unfold execIslEnWrite
  refine ⟨_, rfl, ?_⟩
  repeat' first
    | with_reducible assumption | intro _ | with_reducible apply State.regAction_kept | with_reducible apply State.modeRefused_kept
    | with_reducible apply State.writeIslEn_kept | with_reducible apply kept_ite

theorem execIslandStopComplete_kept {q : List Instr} (island : Nat) (s : State)
    (h : Kept q s) : ∃ t, execIslandStopComplete island s = .next t ∧ Kept q t := by
  unfold execIslandStopComplete
  refine ⟨_, rfl, ?_⟩
  repeat' first
    | with_reducible assumption | (extract_lets +onlyGivenNames x; unfold x; clear x) | with_reducible apply State.setBitTo_kept
    | with_reducible apply State.offIsland_kept | with_reducible apply State.startIsland_kept | with_reducible apply kept_ite

theorem execIslandStarted_kept {q : List Instr} (island : Nat) (s : State)
    (h : Kept q s) : ∃ t, execIslandStarted island s = .next t ∧ Kept q t := by
  unfold execIslandStarted
  refine ⟨_, rfl, ?_⟩
  repeat' first
    | with_reducible assumption | (extract_lets +onlyGivenNames x; unfold x; clear x) | with_reducible apply State.islandTo_kept
    | with_reducible apply State.askStop_kept | with_reducible apply State.startFns_kept | with_reducible apply kept_ite
    | (with_reducible apply kept_parts; with_reducible apply State.islandTo_kept)

theorem execResetNAssert_kept {q : List Instr} (s : State) (h : Kept q s) : ∃ t, execResetNAssert s = .next t ∧ Kept q t := by
  unfold execResetNAssert
  refine ⟨_, rfl, ?_⟩
  repeat' first
    | with_reducible assumption | (extract_lets +onlyGivenNames x; unfold x; clear x) | with_reducible apply State.resetTrigger_kept
    | with_reducible apply kept_ite | (with_reducible apply kept_parts; with_reducible assumption)

theorem execResetNRelease_kept {q : List Instr} (straps : Nat) (unstable : Nat) (s : State)
    (h : Kept q s) : ∃ t, execResetNRelease straps unstable s = .next t ∧ Kept q t := by
  unfold execResetNRelease
  refine ⟨_, rfl, ?_⟩
  repeat' first
    | with_reducible assumption | (extract_lets +onlyGivenNames x; unfold x; clear x) | with_reducible apply State.restart_kept
    | with_reducible apply State.resetDue_kept | with_reducible apply kept_ite
    | (with_reducible apply kept_parts; with_reducible assumption)

theorem execPerstNAssert_kept {q : List Instr} (s : State) (h : Kept q s) : ∃ t, execPerstNAssert s = .next t ∧ Kept q t := by
  unfold execPerstNAssert
  refine ⟨_, rfl, ?_⟩
  repeat' first
    | (extract_lets +onlyGivenNames x; unfold x; clear x) | with_reducible apply State.sdmaHostDown_kept
    | with_reducible apply State.resetIsland_kept | with_reducible apply State.setBitTo_kept | with_reducible apply kept_ite
    | (with_reducible apply kept_parts; with_reducible assumption)

theorem execPerstNDeassert_kept {q : List Instr} (s : State) (h : Kept q s) : ∃ t, execPerstNDeassert s = .next t ∧ Kept q t := by
  unfold execPerstNDeassert
  refine ⟨_, rfl, ?_⟩
  repeat' first
    | (extract_lets +onlyGivenNames x; unfold x; clear x) | with_reducible apply State.beginTrans_kept | with_reducible apply kept_ite
    | (with_reducible apply kept_parts; with_reducible assumption)

theorem execWatchdogExpiry_kept {q : List Instr} (s : State) (h : Kept q s) : ∃ t, execWatchdogExpiry s = .next t ∧ Kept q t := by
  unfold execWatchdogExpiry
  refine ⟨_, rfl, ?_⟩
  repeat' first | with_reducible assumption | with_reducible apply State.resetTrigger_kept | with_reducible apply kept_ite

theorem execSoftReset_kept {q : List Instr} (who : Req) (key : Nat) (s : State)
    (h : Kept q s) : ∃ t, execSoftReset who key s = .next t ∧ Kept q t := by
  unfold execSoftReset
  refine ⟨_, rfl, ?_⟩
  repeat' first
    | with_reducible assumption | intro _ | with_reducible apply State.regAction_kept | with_reducible apply State.modeRefused_kept
    | with_reducible apply State.resetTrigger_kept | with_reducible apply kept_ite

theorem execIslandReset_kept {q : List Instr} (who : Req) (key : Nat) (island : Nat) (s : State)
    (h : Kept q s) : ∃ t, execIslandReset who key island s = .next t ∧ Kept q t := by
  unfold execIslandReset
  refine ⟨_, rfl, ?_⟩
  repeat' first
    | with_reducible assumption | intro _ | with_reducible apply State.regAction_kept | with_reducible apply State.modeRefused_kept
    | with_reducible apply State.resetIsland_kept | with_reducible apply kept_ite

theorem execResetFlushEnd_kept {q : List Instr} (s : State) (h : Kept q s) : ∃ t, execResetFlushEnd s = .next t ∧ Kept q t := by
  unfold execResetFlushEnd
  refine ⟨_, rfl, ?_⟩
  repeat' first
    | with_reducible assumption | (extract_lets +onlyGivenNames x; unfold x; clear x) | with_reducible apply State.resetDue_kept
    | with_reducible apply kept_ite | (with_reducible apply kept_parts; with_reducible assumption)

theorem execDeferredResetRelease_kept {q : List Instr} (s : State) (h : Kept q s) : ∃ t, execDeferredResetRelease s = .next t ∧ Kept q t := by
  unfold execDeferredResetRelease
  refine ⟨_, rfl, ?_⟩
  repeat' first | with_reducible assumption | with_reducible apply State.resetDue_kept


/-! ### Modes.lean -/

theorem State.denyMode_kept {q : List Instr} (s : State) (by' : ModeBy) (locked : Bool) (h : Kept q s) : Kept q
    (State.denyMode s by' locked) := by
  unfold State.denyMode
  repeat' first
    | with_reducible assumption | (extract_lets +onlyGivenNames x; unfold x; clear x) | with_reducible apply State.modeRefused_kept
    | with_reducible apply State.vendor_kept | with_reducible apply State.mbxModeOutcome_kept | with_reducible apply kept_ite | split

theorem State.grantMode_kept {q : List Instr} (s : State) (by' : ModeBy) (h : Kept q s) : Kept q (State.grantMode s by') := by
  unfold State.grantMode
  repeat' first | with_reducible assumption | with_reducible apply State.ok_kept | with_reducible apply State.mbxModeOutcome_kept | split

theorem State.awaitMode_kept {q : List Instr} (s : State) (by' : ModeBy) (h : Kept q s) : Kept q (State.awaitMode s by') := by
  unfold State.awaitMode
  repeat' first
    | with_reducible assumption | (extract_lets +onlyGivenNames x; unfold x; clear x)
    | (with_reducible apply kept_parts; with_reducible assumption) | split

theorem State.beginMode_kept {q : List Instr} (s : State) (by' : ModeBy) (t : Nat) (h : Kept q s) : Kept q (State.beginMode s by' t) := by
  unfold State.beginMode
  repeat' first
    | with_reducible assumption | (extract_lets +onlyGivenNames x; unfold x; clear x) | with_reducible apply State.beginTrans_kept
    | with_reducible apply State.grantMode_kept | with_reducible apply State.awaitMode_kept | with_reducible apply State.set_kept
    | with_reducible apply State.closeOffload_kept | with_reducible apply kept_ite
    | (with_reducible apply kept_parts; with_reducible assumption)

theorem State.relay_kept {q : List Instr} (s : State) (cmd : Nat) (id : Cid) (args : List Nat) (h : Kept q s) : Kept q
    (State.relay s cmd id args) := by
  unfold State.relay
  repeat' first
    | (extract_lets +onlyGivenNames x; unfold x; clear x) | with_reducible apply State.pairSend_kept
    | (with_reducible apply kept_parts; with_reducible assumption)

theorem State.runMode_kept {q : List Instr} (s : State) (local' : Bool) (by' : ModeBy) (t : Nat) (h : Kept q s) : Kept q
    (State.runMode s local' by' t) := by
  unfold State.runMode
  repeat' first
    | with_reducible assumption | with_reducible apply State.denyMode_kept | with_reducible apply State.grantMode_kept
    | with_reducible apply State.relay_kept | with_reducible apply State.beginMode_kept | with_reducible apply kept_ite | split

theorem State.holdMode_kept {q : List Instr} (s : State) (by' : ModeBy) (t : Nat) (h : Kept q s) : Kept q (State.holdMode s by' t) := by
  unfold State.holdMode
  repeat' first
    | with_reducible assumption | (extract_lets +onlyGivenNames x; unfold x; clear x)
    | (with_reducible apply kept_parts; with_reducible assumption)
    | (with_reducible apply kept_parts; with_reducible apply State.denyMode_kept) | split

theorem State.requestMode_kept {q : List Instr} (s : State) (by' : ModeBy) (t : Nat) (h : Kept q s) : Kept q (State.requestMode s by' t) := by
  unfold State.requestMode
  repeat' first
    | with_reducible assumption | with_reducible apply State.holdMode_kept | with_reducible apply State.runMode_kept
    | with_reducible apply kept_ite

theorem State.judgeHeld_kept {q : List Instr} (s : State) (h : Kept q s) : Kept q (State.judgeHeld s) := by
  unfold State.judgeHeld
  repeat' first
    | with_reducible assumption | (extract_lets +onlyGivenNames x; unfold x; clear x) | with_reducible apply State.runMode_kept
    | with_reducible apply kept_ite | (with_reducible apply kept_parts; with_reducible assumption)
    | (with_reducible apply kept_parts; with_reducible apply State.runMode_kept) | split

theorem execModeReq_kept {q : List Instr} (who : Req) (target : Nat) (s : State)
    (h : Kept q s) : ∃ t, execModeReq who target s = .next t ∧ Kept q t := by
  unfold execModeReq
  refine ⟨_, rfl, ?_⟩
  repeat' first
    | with_reducible assumption | intro _ | with_reducible apply State.regAction_kept | with_reducible apply State.modeRefused_kept
    | with_reducible apply State.requestMode_kept | with_reducible apply State.set_kept | with_reducible apply kept_ite

theorem State.groomCheck_kept {q : List Instr} (s : State) (h : Kept q s) : Kept q (State.groomCheck s) := by
  unfold State.groomCheck
  repeat' first
    | with_reducible assumption | (extract_lets +onlyGivenNames x; unfold x; clear x) | with_reducible apply State.beginTrans_kept
    | with_reducible apply kept_ite

theorem State.endWait_kept {q : List Instr} (s : State) (h : Kept q s) : Kept q (State.endWait s) := by
  unfold State.endWait
  repeat' first
    | (extract_lets +onlyGivenNames x; unfold x; clear x) | with_reducible apply State.mbxModeOutcomeOpt_kept
    | (with_reducible apply kept_parts; with_reducible assumption) | (with_reducible apply kept_parts; with_reducible apply State.ok_kept)
    | split

theorem execDrainComplete_kept {q : List Instr} (s : State) (h : Kept q s) : ∃ t, execDrainComplete s = .next t ∧ Kept q t := by
  unfold execDrainComplete
  refine ⟨_, rfl, ?_⟩
  repeat' first
    | with_reducible assumption | (extract_lets +onlyGivenNames x; unfold x; clear x) | with_reducible apply State.drainCkpt_kept
    | with_reducible apply State.endWait_kept | with_reducible apply State.startSealing_kept | with_reducible apply kept_ite
    | (with_reducible apply kept_parts; with_reducible assumption) | split

theorem State.retain_kept {q : List Instr} (s : State) (h : Kept q s) : Kept q (State.retain s) := by
  unfold State.retain
  repeat' first
    | with_reducible assumption | (extract_lets +onlyGivenNames x; unfold x; clear x)
    | (with_reducible apply kept_dram; with_reducible apply State.draw_kept)

theorem execRestEntry_kept {q : List Instr} (s : State) (h : Kept q s) : ∃ t, execRestEntry s = .next t ∧ Kept q t := by
  unfold execRestEntry
  refine ⟨_, rfl, ?_⟩
  repeat' first
    | with_reducible assumption | (extract_lets +onlyGivenNames x; unfold x; clear x) | with_reducible apply State.pairLeave_kept
    | with_reducible apply State.judgeHeld_kept | with_reducible apply State.fiCheck_kept | with_reducible apply State.changeMode_kept
    | with_reducible apply State.retain_kept | with_reducible apply kept_ite
    | (with_reducible apply kept_parts; with_reducible assumption) | split

theorem execRestartAfterSeal_kept {q : List Instr} (straps : Nat) (unstable : Nat) (s : State)
    (h : Kept q s) : ∃ t, execRestartAfterSeal straps unstable s = .next t ∧ Kept q t := by
  unfold execRestartAfterSeal
  refine ⟨_, rfl, ?_⟩
  repeat' first | with_reducible assumption | with_reducible apply State.restart_kept | with_reducible apply kept_ite

theorem execWakeRising_kept {q : List Instr} (straps : Nat) (unstable : Nat) (s : State)
    (h : Kept q s) : ∃ t, execWakeRising straps unstable s = .next t ∧ Kept q t := by
  unfold execWakeRising
  refine ⟨_, rfl, ?_⟩
  repeat' first
    | with_reducible assumption | with_reducible apply State.restart_kept | with_reducible apply State.beginTrans_kept
    | with_reducible apply State.wakeOut_kept | with_reducible apply kept_ite

theorem State.failFn_kept {q : List Instr} (s : State) (n : Nat) (h : Kept q s) : Kept q (State.failFn s n) := by
  unfold State.failFn
  repeat' first
    | with_reducible assumption | (extract_lets +onlyGivenNames x; unfold x; clear x) | with_reducible apply State.faultFn_kept
    | with_reducible apply State.quarantine_kept | with_reducible apply kept_ite

theorem execFunctionFault_kept {q : List Instr} (fn : Nat) (s : State) (h : Kept q s) : ∃ t, execFunctionFault fn s = .next t ∧ Kept q t := by
  unfold execFunctionFault
  refine ⟨_, rfl, ?_⟩
  repeat' first | with_reducible assumption | with_reducible apply State.failFn_kept | with_reducible apply kept_ite

theorem execWakeExitTimeout_kept {q : List Instr} (s : State) (h : Kept q s) : ∃ t, execWakeExitTimeout s = .next t ∧ Kept q t := by
  unfold execWakeExitTimeout
  refine ⟨_, rfl, ?_⟩
  repeat' first | with_reducible assumption | with_reducible apply State.quarantine_kept | with_reducible apply kept_ite

theorem execOffloadNoConnectionTimeout_kept {q : List Instr} (s : State)
    (h : Kept q s) : ∃ t, execOffloadNoConnectionTimeout s = .next t ∧ Kept q t := by
  unfold execOffloadNoConnectionTimeout
  refine ⟨_, rfl, ?_⟩
  repeat' first | with_reducible assumption | with_reducible apply State.beginTrans_kept | with_reducible apply kept_ite


/-! ### Ledger.lean -/

theorem State.senseRuns_kept {q : List Instr} (s : State) (code : Nat) (v : Nat) (h : Kept q s) : Kept q (State.senseRuns s code v) := by
  unfold State.senseRuns
  repeat' first
    | (extract_lets +onlyGivenNames x; unfold x; clear x) | with_reducible apply State.vendorEvent_kept
    | with_reducible apply State.raise_kept | with_reducible apply State.set_kept | with_reducible apply kept_ite
    | (with_reducible apply kept_parts; with_reducible assumption)

theorem State.noteJtail_kept {q : List Instr} (s : State) (h : Kept q s) : Kept q (State.noteJtail s) := by
  unfold State.noteJtail
  repeat' first
    | with_reducible assumption | with_reducible apply State.recost_kept | with_reducible apply State.set_kept
    | with_reducible apply kept_ite

theorem State.startMin_kept {q : List Instr} (s : State) (h : Kept q s) : Kept q (State.startMin s) := by
  unfold State.startMin
  repeat' first
    | with_reducible assumption | (extract_lets +onlyGivenNames x; unfold x; clear x) | with_reducible apply State.set_kept
    | with_reducible apply kept_ite | (with_reducible apply kept_parts; with_reducible assumption)

theorem execHoldSample_kept {q : List Instr} (code : Nat) (s : State) (h : Kept q s) : ∃ t, execHoldSample code s = .next t ∧ Kept q t := by
  unfold execHoldSample
  refine ⟨_, rfl, ?_⟩
  repeat' first
    | with_reducible assumption | (extract_lets +onlyGivenNames x; unfold x; clear x) | with_reducible apply State.senseRuns_kept
    | with_reducible apply State.set_kept | with_reducible apply State.noteFlow_kept | with_reducible apply State.noteHeadroom_kept
    | with_reducible apply State.startMin_kept | with_reducible apply State.noteJtail_kept | with_reducible apply kept_ite
    | (with_reducible apply kept_parts; with_reducible apply State.addWrap_kept)

theorem State.peerSlot_kept {q : List Instr} (s : State) (seq : Nat) (n : Nat) (h : Kept q s) : Kept q (State.peerSlot s seq n) := by
  unfold State.peerSlot
  repeat' first
    | with_reducible assumption | (extract_lets +onlyGivenNames x; unfold x; clear x) | with_reducible apply State.store_kept
    | with_reducible apply State.pairSend_kept | with_reducible apply State.returnUnits_kept | with_reducible apply kept_ite
    | (with_reducible apply kept_parts; with_reducible assumption) | split

theorem State.askData_kept {q : List Instr} (s : State) (c : Cid) (h : Kept q s) : Kept q (State.askData s c) := by
  unfold State.askData
  repeat' first
    | with_reducible assumption | (extract_lets +onlyGivenNames x; unfold x; clear x) | with_reducible apply State.netSend_kept
    | with_reducible apply kept_ite | split

theorem State.admitted_kept {q : List Instr} (s : State) (r : SlotReq) (first : Nat) (h : Kept q s) : Kept q (State.admitted s r first) := by
  unfold State.admitted
  repeat' first
    | with_reducible assumption | intro _ | (extract_lets +onlyGivenNames x; unfold x; clear x) | with_reducible apply State.pump_kept
    | with_reducible apply State.enqueue_kept | with_reducible apply State.store_kept | with_reducible apply State.ingestStopCheck_kept
    | with_reducible apply State.settleAll_kept | with_reducible apply State.peerSlot_kept | with_reducible apply State.askData_kept
    | with_reducible apply State.makeTable_kept | with_reducible apply kept_foldl | split

theorem execAdmissionDecision_kept {q : List Instr} (s : State) (h : Kept q s) : ∃ t, execAdmissionDecision s = .next t ∧ Kept q t := by
  unfold execAdmissionDecision
  refine ⟨_, rfl, ?_⟩
  repeat' first
    | with_reducible assumption | (extract_lets +onlyGivenNames x; unfold x; clear x) | with_reducible apply State.admitted_kept
    | with_reducible apply State.letIn_kept | with_reducible apply State.takeReq_kept | with_reducible apply State.markRefused_kept
    | with_reducible apply State.refuse_kept | with_reducible apply kept_ite
    | (with_reducible apply State.nextReq_kept; rotate_left; with_reducible assumption) | split

theorem State.exhaust_kept {q : List Instr} (s : State) (c : Cid) (short : Nat) (h : Kept q s) : Kept q (State.exhaust s c short) := by
  unfold State.exhaust
  repeat' first
    | (extract_lets +onlyGivenNames x; unfold x; clear x) | with_reducible apply State.dropSlots_kept
    | with_reducible apply State.raise_kept | with_reducible apply State.inc_kept | with_reducible apply State.vendor_kept
    | (with_reducible apply kept_parts; with_reducible assumption)

theorem execHostWaitExpired_kept {q : List Instr} (cid : Cid) (s : State)
    (h : Kept q s) : ∃ t, execHostWaitExpired cid s = .next t ∧ Kept q t := by
  unfold execHostWaitExpired
  refine ⟨_, rfl, ?_⟩
  repeat' first | with_reducible assumption | with_reducible apply State.exhaust_kept | split

theorem execLedgerCalGo_kept {q : List Instr} (who : Req) (s : State) (h : Kept q s) : ∃ t, execLedgerCalGo who s = .next t ∧ Kept q t := by
  unfold execLedgerCalGo
  refine ⟨_, rfl, ?_⟩
  repeat' first
    | with_reducible assumption | intro _ | (extract_lets +onlyGivenNames x; unfold x; clear x) | with_reducible apply State.rwAction_kept
    | with_reducible apply State.modeRefused_kept | with_reducible apply kept_ite
    | (with_reducible apply kept_parts; with_reducible assumption)

theorem State.setAdmit_kept {q : List Instr} (s : State) (h : Kept q s) : Kept q (State.setAdmit s) := by
  unfold State.setAdmit
  repeat' first
    | with_reducible assumption | (extract_lets +onlyGivenNames x; unfold x; clear x) | with_reducible apply State.setReady_kept
    | with_reducible apply kept_ite | (with_reducible apply kept_parts; with_reducible assumption)

theorem State.admitAgain_kept {q : List Instr} (s : State) (was : Bool) (h : Kept q s) : Kept q (State.admitAgain s was) := by
  unfold State.admitAgain
  repeat' first
    | with_reducible assumption | (extract_lets +onlyGivenNames x; unfold x; clear x) | with_reducible apply State.setReady_kept
    | with_reducible apply kept_ite

theorem execCalDone_kept {q : List Instr} (tAbortUs : Nat) (chans : List CalChan) (s : State)
    (h : Kept q s) : ∃ t, execCalDone tAbortUs chans s = .next t ∧ Kept q t := by
  unfold execCalDone
  refine ⟨_, rfl, ?_⟩
  repeat' first
    | with_reducible assumption | (extract_lets +onlyGivenNames x; unfold x; clear x) | with_reducible apply State.failFn_kept
    | with_reducible apply State.raise_kept | with_reducible apply State.set_kept | with_reducible apply State.noteFlow_kept
    | with_reducible apply State.noteHeadroom_kept | with_reducible apply State.recost_kept | with_reducible apply State.setAdmit_kept
    | with_reducible apply State.admitAgain_kept | with_reducible apply kept_ite
    | (with_reducible apply kept_parts; with_reducible assumption) | (with_reducible apply kept_dram; with_reducible assumption)

theorem execLedgerClr_kept {q : List Instr} (who : Req) (s : State) (h : Kept q s) : ∃ t, execLedgerClr who s = .next t ∧ Kept q t := by
  unfold execLedgerClr
  refine ⟨_, rfl, ?_⟩
  repeat' first
    | with_reducible assumption | intro _ | (extract_lets +onlyGivenNames x; unfold x; clear x) | with_reducible apply State.rwAction_kept
    | with_reducible apply State.clear_kept | (with_reducible apply kept_parts; with_reducible assumption)

theorem execPbufClr_kept {q : List Instr} (who : Req) (s : State) (h : Kept q s) : ∃ t, execPbufClr who s = .next t ∧ Kept q t := by
  unfold execPbufClr
  refine ⟨_, rfl, ?_⟩
  repeat' first | with_reducible assumption | intro _ | with_reducible apply State.rwAction_kept | with_reducible apply State.set_kept

theorem State.mapSeal_kept {q : List Instr} (s : State) (f : Sealing → Sealing) (h : Kept q s) : Kept q (State.mapSeal s f) := by
  unfold State.mapSeal
  repeat' first | (extract_lets +onlyGivenNames x; unfold x; clear x) | (with_reducible apply kept_parts; with_reducible assumption)

theorem execSealLunsReady_kept {q : List Instr} (s : State) (h : Kept q s) : ∃ t, execSealLunsReady s = .next t ∧ Kept q t := by
  unfold execSealLunsReady
  refine ⟨_, rfl, ?_⟩
  repeat' first | with_reducible assumption | with_reducible apply State.mapSeal_kept | with_reducible apply kept_ite | split

theorem execSealPageProgramDone_kept {q : List Instr} (chan : Nat) (ok : Bool) (s : State)
    (h : Kept q s) : ∃ t, execSealPageProgramDone chan ok s = .next t ∧ Kept q t := by
  unfold execSealPageProgramDone
  refine ⟨_, rfl, ?_⟩
  repeat' first
    | with_reducible assumption | intro _ | (extract_lets +onlyGivenNames x; unfold x; clear x) | with_reducible apply State.mapSeal_kept
    | with_reducible apply State.set_kept | with_reducible apply State.retirePage_kept | with_reducible apply kept_ite
    | with_reducible apply kept_foldl | (with_reducible apply kept_nv; with_reducible assumption) | split

theorem execSealRecordRetired_kept {q : List Instr} (s : State) (h : Kept q s) : ∃ t, execSealRecordRetired s = .next t ∧ Kept q t := by
  unfold execSealRecordRetired
  refine ⟨_, rfl, ?_⟩
  repeat' first
    | with_reducible assumption | intro _
    | (extract_lets +onlyGivenNames x; with_reducible refine kept_imp (q := q) x ?_ ?_; unfold x; clear x; rotate_left; intro _; clear_value x; revert x; intros; rotate_right)
    | (extract_lets +onlyGivenNames x; unfold x; clear x) | with_reducible apply State.gateIsland_kept
    | with_reducible apply State.cutCode_kept | with_reducible apply kept_ite | with_reducible apply kept_foldl
    | (with_reducible apply kept_parts; with_reducible assumption) | (with_reducible apply kept_nv; with_reducible assumption) | split

theorem execSealKeepEntry_kept {q : List Instr} (s : State) (h : Kept q s) : ∃ t, execSealKeepEntry s = .next t ∧ Kept q t := by
  unfold execSealKeepEntry
  refine ⟨_, rfl, ?_⟩
  repeat' first
    | with_reducible assumption | (extract_lets +onlyGivenNames x; unfold x; clear x) | with_reducible apply State.toKeep_kept
    | with_reducible apply kept_ite | (with_reducible apply kept_parts; with_reducible assumption) | split


/-! ### Reads.lean -/

theorem State.integrity_kept {q : List Instr} (s : State) (i : Integ) (h : Kept q s) : Kept q (State.integrity s i) := by
  unfold State.integrity
  repeat' first
    | (extract_lets +onlyGivenNames x; unfold x; clear x) | with_reducible apply State.addSat_kept | with_reducible apply State.raise_kept
    | with_reducible apply State.set_kept | with_reducible apply kept_ite | (with_reducible apply kept_parts; with_reducible assumption)
    | (with_reducible apply kept_nv; with_reducible apply State.raise_kept)

theorem State.unitRecord_kept {q : List Instr} (s : State) (e : Esc) (kind : Nat) (detail : Nat) (h : Kept q s) : Kept q
    (State.unitRecord s e kind detail) := by
  unfold State.unitRecord
  repeat' first | with_reducible assumption | with_reducible apply State.integrity_kept

theorem State.mapEsc_kept {q : List Instr} (s : State) (n : Nat) (f : Esc → Esc) (h : Kept q s) : Kept q (State.mapEsc s n f) := by
  unfold State.mapEsc
  repeat' first | (extract_lets +onlyGivenNames x; unfold x; clear x) | (with_reducible apply kept_parts; with_reducible assumption)

theorem State.addRead_kept {q : List Instr} (s : State) (cls : Nat) (qos : Nat) (why : OpWhy) (uas : List Nat)
    (h : Kept q s) : Kept q (State.addRead s cls qos why uas) := by
  unfold State.addRead
  repeat' first | with_reducible assumption | with_reducible apply State.addOp_kept | split

theorem State.wantUnit_kept {q : List Instr} (s : State) (cls : Nat) (ua : Nat) (key : Option Nat) (w : EscFor)
    (h : Kept q s) : Kept q (State.wantUnit s cls ua key w).1 := by
  unfold State.wantUnit
  repeat' first
    | with_reducible assumption | (extract_lets +onlyGivenNames x; unfold x; clear x) | with_reducible apply State.mapEsc_kept
    | (with_reducible apply kept_parts; with_reducible assumption) | split

theorem State.queueRefresh_kept {q : List Instr} (s : State) (band : Nat) (h : Kept q s) : Kept q (State.queueRefresh s band) := by
  unfold State.queueRefresh
  repeat' first
    | with_reducible assumption | (extract_lets +onlyGivenNames x; unfold x; clear x) | with_reducible apply State.raise_kept
    | with_reducible apply kept_ite | (with_reducible apply kept_parts; with_reducible assumption)

theorem State.queueUrgent_kept {q : List Instr} (s : State) (band : Nat) (h : Kept q s) : Kept q (State.queueUrgent s band) := by
  unfold State.queueUrgent
  repeat' first
    | with_reducible assumption | (extract_lets +onlyGivenNames x; unfold x; clear x) | with_reducible apply kept_ite
    | (with_reducible apply kept_parts; with_reducible assumption)

theorem State.setTrack_kept {q : List Instr} (s : State) (c : Nat) (l : Nat) (j : Nat) (h : Kept q s) : Kept q (State.setTrack s c l j) := by
  unfold State.setTrack
  repeat' first
    | with_reducible assumption | (extract_lets +onlyGivenNames x; unfold x; clear x) | with_reducible apply State.raise_kept
    | with_reducible apply State.inc_kept | with_reducible apply State.set_kept | with_reducible apply kept_ite

theorem State.askWhole_kept {q : List Instr} (s : State) (h : Kept q s) : Kept q (State.askWhole s) := by
  unfold State.askWhole
  repeat' first
    | with_reducible assumption | intro _ | (extract_lets +onlyGivenNames x; unfold x; clear x) | with_reducible apply State.request_kept
    | with_reducible apply kept_ite | with_reducible apply kept_foldl | (with_reducible apply kept_parts; with_reducible assumption)

theorem State.looseExtents_kept {q : List Instr} (s : State) (h : Kept q s) : Kept q (State.looseExtents s) := by
  unfold State.looseExtents
  repeat' first | (extract_lets +onlyGivenNames x; unfold x; clear x) | (with_reducible apply kept_parts; with_reducible assumption)

theorem State.askReloc_kept {q : List Instr} (x0 : Nat) (x1 : Bool) (x2 : State) (h : Kept q x2) : Kept q (State.askReloc x0 x1 x2) := by
  induction x0 generalizing x1 x2 with
  | zero => unfold State.askReloc; assumption
  | succ n ih =>
  unfold State.askReloc
  repeat' first
    | with_reducible assumption | (extract_lets +onlyGivenNames x; unfold x; clear x) | with_reducible apply State.request_kept
    | with_reducible apply ih | (with_reducible apply kept_parts; with_reducible assumption) | split

theorem State.relocNow_kept {q : List Instr} (s : State) (ua : Nat) (key : Nat) (d : List Nat) (h : Kept q s) : Kept q
    (State.relocNow s ua key d) := by
  unfold State.relocNow
  repeat' first | with_reducible assumption | with_reducible apply State.request_kept | with_reducible apply kept_ite

theorem State.askSeg_kept {q : List Instr} (s : State) (seg : Nat) (h : Kept q s) : Kept q (State.askSeg s seg) := by
  unfold State.askSeg
  repeat' first
    | with_reducible assumption | (extract_lets +onlyGivenNames x; unfold x; clear x) | with_reducible apply kept_ite
    | (with_reducible apply kept_parts; with_reducible assumption)

theorem State.lookLeaf_kept {q : List Instr} (s : State) (cls : Nat) (qos : Nat) (id : Cid) (key : Nat) (mask : Nat)
    (h : Kept q s) : Kept q (State.lookLeaf s cls qos id key mask).1 := by
  unfold State.lookLeaf
  repeat' first
    | with_reducible assumption | (extract_lets +onlyGivenNames x; unfold x; clear x) | with_reducible apply State.askSeg_kept
    | with_reducible apply State.wantUnit_kept | with_reducible apply State.addRead_kept | with_reducible apply kept_ite
    | with_reducible apply kept_ite_fst | split

theorem State.lookLeaves_kept {q : List Instr} (s : State) (cls : Nat) (qos : Nat) (id : Cid) (x4 : List (Nat × Nat))
    (h : Kept q s) : Kept q (State.lookLeaves s cls qos id x4).1 := by
  induction x4 generalizing s cls qos id with
  | nil => unfold State.lookLeaves; assumption
  | cons a l ih =>
  unfold State.lookLeaves
  repeat' first | with_reducible assumption | with_reducible apply State.lookLeaf_kept | with_reducible apply ih

theorem State.mapRead_kept {q : List Instr} (s : State) (id : Cid) (f : RdLeaf → RdLeaf) (h : Kept q s) : Kept q (State.mapRead s id f) := by
  unfold State.mapRead
  repeat' first | (extract_lets +onlyGivenNames x; unfold x; clear x) | (with_reducible apply kept_parts; with_reducible assumption)

theorem State.gotCmd_kept {q : List Instr} (s : State) (id : Cid) (key : Nat) (x3 : Got) (h : Kept q s) : Kept q
    (State.gotCmd s id key x3) := by
  unfold State.gotCmd
  repeat' first
    | with_reducible assumption | (extract_lets +onlyGivenNames x; unfold x; clear x) | with_reducible apply State.mapRead_kept
    | (with_reducible apply kept_nv; with_reducible assumption) | split

theorem State.gotMerge_kept {q : List Instr} (s : State) (seq : Nat) (x2 : Got) (h : Kept q s) : Kept q (State.gotMerge s seq x2) := by
  unfold State.gotMerge
  repeat' first | with_reducible assumption | with_reducible apply State.mapSlots_kept | split

theorem State.relocAsk_kept {q : List Instr} (s : State) (h : Kept q s) : Kept q (State.relocAsk s) := by
  unfold State.relocAsk
  repeat' first
    | with_reducible assumption | (extract_lets +onlyGivenNames x; unfold x; clear x) | with_reducible apply State.askWhole_kept
    | with_reducible apply State.looseExtents_kept | with_reducible apply State.askReloc_kept | with_reducible apply kept_ite

theorem State.gotReloc_kept {q : List Instr} (s : State) (ua : Nat) (g : Got) (h : Kept q s) : Kept q (State.gotReloc s ua g) := by
  unfold State.gotReloc
  repeat' first
    | with_reducible assumption | (extract_lets +onlyGivenNames x; unfold x; clear x) | with_reducible apply State.relocAsk_kept
    | with_reducible apply kept_ite | (with_reducible apply kept_parts; with_reducible assumption)
    | (with_reducible apply kept_dram; with_reducible assumption) | split


/-! ### HostIo.lean -/

theorem State.popSq_kept {q : List Instr} (s : State) (c : Src) (h : Kept q s) : Kept q (State.popSq s c) := by
  unfold State.popSq
  repeat' first
    | with_reducible assumption | (extract_lets +onlyGivenNames x; unfold x; clear x)
    | (with_reducible apply kept_parts; with_reducible assumption) | split

theorem State.caught_kept {q : List Instr} (s : State) (id : Cid) (h : Kept q s) : Kept q (State.caught s id) := by
  unfold State.caught
  repeat' first
    | with_reducible assumption | with_reducible apply State.raise_kept | with_reducible apply State.inc_kept
    | with_reducible apply State.fail_kept

theorem State.arriveFree_kept {q : List Instr} (s : State) (id : Cid) (f : State → State) (h : Kept q s)
    (h2 : ∀ y0, Kept q y0 → Kept q (f y0)) : Kept q (State.arriveFree s id f) := by
  unfold State.arriveFree
  repeat' first
    | with_reducible assumption | (extract_lets +onlyGivenNames x; unfold x; clear x) | with_reducible apply State.popSq_kept
    | with_reducible apply State.ioArrival_kept | with_reducible apply h2 | with_reducible apply kept_ite | split

theorem State.arrive_kept {q : List Instr} (s : State) (id : Cid) (f : State → State) (h : Kept q s)
    (h2 : ∀ y0, Kept q y0 → Kept q (f y0)) : Kept q (State.arrive s id f) := by
  unfold State.arrive
  repeat' first
    | with_reducible assumption | intro _ | (extract_lets +onlyGivenNames x; unfold x; clear x)
    | with_reducible apply State.arriveFree_kept | with_reducible apply State.ok_kept | with_reducible apply State.caught_kept
    | with_reducible apply h2 | (with_reducible apply kept_parts; with_reducible assumption) | split

theorem State.reject_kept {q : List Instr} (s : State) (id : Cid) (w : Why) (h : Kept q s) : Kept q (State.reject s id w) := by
  unfold State.reject
  repeat' first
    | with_reducible assumption | with_reducible apply State.vendor_kept | with_reducible apply State.fail_kept
    | with_reducible apply kept_ite

theorem State.judge_kept {q : List Instr} (s : State) (id : Cid) (ws : List (Bool × Why)) (f : State → State) (h : Kept q s)
    (h3 : ∀ y0, Kept q y0 → Kept q (f y0)) : Kept q (State.judge s id ws f) := by
  unfold State.judge
  repeat' first | with_reducible assumption | with_reducible apply State.reject_kept | with_reducible apply h3 | split

theorem State.logError_kept {q : List Instr} (s : State) (id : Cid) (sct : Nat) (sc : Nat) (lba : Nat) (nsid : Nat)
    (h : Kept q s) : Kept q (State.logError s id sct sc lba nsid) := by
  unfold State.logError
  repeat' first | (extract_lets +onlyGivenNames x; unfold x; clear x) | (with_reducible apply kept_parts; with_reducible assumption)

theorem State.trackCmd_kept {q : List Instr} (s : State) (c : Cmd) (h : Kept q s) : Kept q (State.trackCmd s c) := by
  unfold State.trackCmd
  repeat' first | (extract_lets +onlyGivenNames x; unfold x; clear x) | (with_reducible apply kept_parts; with_reducible assumption)

theorem State.feedRead_kept {q : List Instr} (s : State) (c : Cmd) (leaves : List RdLeaf) (h : Kept q s) : Kept q
    (State.feedRead s c leaves) := by
  unfold State.feedRead
  repeat' first
    | with_reducible assumption | intro _ | (extract_lets +onlyGivenNames x; unfold x; clear x) | with_reducible apply State.feedLeaf_kept
    | with_reducible apply kept_ite | with_reducible apply kept_foldl

theorem State.piFail_kept {q : List Instr} (s : State) (e : PiErr) (h : Kept q s) : Kept q (State.piFail s e).1 := by
  unfold State.piFail
  repeat' first
    | with_reducible assumption | with_reducible apply State.raise_kept | with_reducible apply State.inc_kept
    | with_reducible apply kept_ite

theorem State.endRead_kept {q : List Instr} (s : State) (c : Cmd) (leaves : List RdLeaf) (h : Kept q s) : Kept q
    (State.endRead s c leaves) := by
  unfold State.endRead
  repeat' first
    | with_reducible assumption | (extract_lets +onlyGivenNames x; unfold x; clear x) | with_reducible apply State.feedRead_kept
    | with_reducible apply State.fail_kept | with_reducible apply State.logError_kept | with_reducible apply State.complete_kept
    | with_reducible apply State.piFail_kept | with_reducible apply State.vendor_kept | with_reducible apply State.ok_kept
    | with_reducible apply kept_ite | split

theorem State.serveRead_kept {q : List Instr} (s : State) (id : Cid) (h : Kept q s) : Kept q (State.serveRead s id) := by
  unfold State.serveRead
  repeat' first | with_reducible assumption | with_reducible apply State.endRead_kept | with_reducible apply kept_ite | split

theorem State.startRead_kept {q : List Instr} (s : State) (id : Cid) (op : CmdOp) (c : IoCmd) (data : List Nat)
    (h : Kept q s) : Kept q (State.startRead s id op c data) := by
  unfold State.startRead
  repeat' first
    | with_reducible assumption | (extract_lets +onlyGivenNames x; unfold x; clear x) | with_reducible apply State.trackCmd_kept
    | with_reducible apply State.serveRead_kept | (with_reducible apply kept_parts; with_reducible apply State.lookLeaves_kept)

theorem State.askWrite_kept {q : List Instr} (s : State) (id : Cid) (slots : List Slot) (h : Kept q s) : Kept q
    (State.askWrite s id slots) := by
  unfold State.askWrite
  repeat' first | with_reducible assumption | intro _ | with_reducible apply State.request_kept | with_reducible apply kept_foldl | split

theorem State.dropWrite_kept {q : List Instr} (s : State) (id : Cid) (h : Kept q s) : Kept q (State.dropWrite s id) := by
  unfold State.dropWrite
  repeat' first
    | (extract_lets +onlyGivenNames x; unfold x; clear x) | with_reducible apply State.dropSlots_kept
    | (with_reducible apply kept_parts; with_reducible assumption)

theorem State.storeWrite_kept {q : List Instr} (s : State) (c : Cmd) (sectors : List Nat) (h : Kept q s) : Kept q
    (State.storeWrite s c sectors) := by
  unfold State.storeWrite
  repeat' first
    | with_reducible assumption | (extract_lets +onlyGivenNames x; unfold x; clear x) | with_reducible apply State.fail_kept
    | with_reducible apply State.dropWrite_kept | with_reducible apply State.piFail_kept | with_reducible apply State.logError_kept
    | with_reducible apply State.verAlter_kept | with_reducible apply State.writesDone_kept | with_reducible apply State.mirrorSlots_kept
    | with_reducible apply State.store_kept | (with_reducible apply kept_parts; with_reducible apply State.mapSlots_kept) | split


/-! ### Escal.lean -/

theorem State.giveOne_kept {q : List Instr} (s : State) (ua : Nat) (g : Got) (x3 : EscFor) (h : Kept q s) : Kept q
    (State.giveOne s ua g x3) := by
  unfold State.giveOne
  repeat' first
    | with_reducible assumption | (extract_lets +onlyGivenNames x; unfold x; clear x) | with_reducible apply State.serveRead_kept
    | with_reducible apply State.gotCmd_kept | with_reducible apply State.gotReloc_kept | with_reducible apply State.gotMerge_kept
    | with_reducible apply kept_ite | (with_reducible apply kept_parts; with_reducible assumption) | split

theorem State.give_kept {q : List Instr} (s : State) (e : Esc) (g : Got) (h : Kept q s) : Kept q (State.give s e g) := by
  unfold State.give
  repeat' first
    | with_reducible assumption | intro _ | (extract_lets +onlyGivenNames x; unfold x; clear x) | with_reducible apply State.giveOne_kept
    | with_reducible apply kept_foldl | (with_reducible apply kept_parts; with_reducible assumption)

theorem State.writtenWrong_kept {q : List Instr} (s : State) (e : Esc) (d : List Nat) (h : Kept q s) : Kept q (State.writtenWrong s e d) := by
  unfold State.writtenWrong
  repeat' first
    | with_reducible assumption | (extract_lets +onlyGivenNames x; unfold x; clear x) | with_reducible apply State.relocNow_kept
    | with_reducible apply State.unitRecord_kept | with_reducible apply State.inc_kept | with_reducible apply kept_ite

theorem State.unrecovered_kept {q : List Instr} (s : State) (e : Esc) (h : Kept q s) : Kept q (State.unrecovered s e) := by
  unfold State.unrecovered
  repeat' first | with_reducible assumption | with_reducible apply State.unitRecord_kept | with_reducible apply State.inc_kept

theorem State.parityLost_kept {q : List Instr} (s : State) (e : Esc) (h : Kept q s) : Kept q (State.parityLost s e) := by
  unfold State.parityLost
  repeat' first
    | with_reducible assumption | (extract_lets +onlyGivenNames x; unfold x; clear x) | with_reducible apply State.note_kept
    | with_reducible apply State.unitRecord_kept | with_reducible apply State.queueUrgent_kept

theorem State.lastResort_kept {q : List Instr} (s : State) (e : Esc) (h : Kept q s) : Kept q (State.lastResort s e).1 := by
  unfold State.lastResort
  repeat' first
    | with_reducible assumption | with_reducible apply State.writtenWrong_kept | with_reducible apply State.parityLost_kept
    | with_reducible apply State.unrecovered_kept | with_reducible apply kept_ite_fst | split

theorem State.endRecon_kept {q : List Instr} (s : State) (e : Esc) (h : Kept q s) : Kept q (State.endRecon s e) := by
  unfold State.endRecon
  repeat' first
    | with_reducible assumption | (extract_lets +onlyGivenNames x; unfold x; clear x) | with_reducible apply State.relocNow_kept
    | with_reducible apply State.unitRecord_kept | with_reducible apply State.inc_kept | with_reducible apply State.give_kept
    | with_reducible apply State.queueUrgent_kept | with_reducible apply State.lastResort_kept | with_reducible apply kept_ite | split

theorem State.endEsc_kept {q : List Instr} (s : State) (e : Esc) (g : Got) (h : Kept q s) : Kept q (State.endEsc s e g) := by
  unfold State.endEsc
  repeat' first
    | with_reducible assumption | intro _ | (extract_lets +onlyGivenNames x; unfold x; clear x) | with_reducible apply State.mapEsc_kept
    | with_reducible apply State.endRecon_kept | with_reducible apply State.give_kept | with_reducible apply kept_ite
    | with_reducible apply kept_foldl | split

theorem State.startRecon_kept {q : List Instr} (s : State) (e : Esc) (h : Kept q s) : Kept q (State.startRecon s e) := by
  unfold State.startRecon
  repeat' first
    | with_reducible assumption | intro _ | (extract_lets +onlyGivenNames x; unfold x; clear x) | with_reducible apply State.mapEsc_kept
    | with_reducible apply State.endRecon_kept | with_reducible apply State.wantUnit_kept | with_reducible apply State.addRead_kept
    | with_reducible apply kept_ite | with_reducible apply kept_foldl

theorem State.chargeRetry_kept {q : List Instr} (s : State) (e : Esc) (n : Nat) (h : Kept q s) : Kept q (State.chargeRetry s e n) := by
  unfold State.chargeRetry
  repeat' first
    | with_reducible assumption | (extract_lets +onlyGivenNames x; unfold x; clear x) | with_reducible apply State.spend_kept
    | with_reducible apply State.pay_kept

theorem State.toRecon_kept {q : List Instr} (s : State) (e : Esc) (h : Kept q s) : Kept q (State.toRecon s e) := by
  unfold State.toRecon
  repeat' first
    | with_reducible assumption | with_reducible apply State.startRecon_kept | with_reducible apply State.lastResort_kept
    | with_reducible apply State.endEsc_kept | with_reducible apply kept_ite

theorem State.nextStep_kept {q : List Instr} (s : State) (e : Esc) (h : Kept q s) : Kept q (State.nextStep s e) := by
  unfold State.nextStep
  repeat' first
    | with_reducible assumption | with_reducible apply State.mapEsc_kept | with_reducible apply State.inc_kept
    | with_reducible apply State.chargeRetry_kept | with_reducible apply State.toRecon_kept | with_reducible apply kept_ite

theorem State.scrubFind_kept {q : List Instr} (s : State) (e : Esc) (bits : Nat) (h : Kept q s) : Kept q (State.scrubFind s e bits) := by
  unfold State.scrubFind
  repeat' first
    | with_reducible assumption | (extract_lets +onlyGivenNames x; unfold x; clear x) | with_reducible apply State.inc_kept
    | with_reducible apply State.queueRefresh_kept | with_reducible apply kept_ite

theorem State.passStep_kept {q : List Instr} (s : State) (e : Esc) (bits : Nat) (d : List Nat) (poison : Bool)
    (h : Kept q s) : Kept q (State.passStep s e bits d poison) := by
  unfold State.passStep
  repeat' first
    | with_reducible assumption | (extract_lets +onlyGivenNames x; unfold x; clear x) | with_reducible apply State.inc_kept
    | with_reducible apply State.setTrack_kept | with_reducible apply State.queueRefresh_kept | with_reducible apply State.unitRecord_kept
    | with_reducible apply State.endEsc_kept | with_reducible apply State.scrubFind_kept | with_reducible apply kept_ite | split

theorem State.judgeWord_kept {q : List Instr} (s : State) (e : Esc) (bits : Nat) (u : Unit) (key : Nat) (d : List Nat)
    (h : Kept q s) : Kept q (State.judgeWord s e bits u key d) := by
  unfold State.judgeWord
  repeat' first
    | with_reducible assumption | (extract_lets +onlyGivenNames x; unfold x; clear x) | with_reducible apply State.unrecovered_kept
    | with_reducible apply State.endEsc_kept | with_reducible apply State.unitRecord_kept | with_reducible apply State.inc_kept
    | with_reducible apply State.passStep_kept | with_reducible apply State.writtenWrong_kept | with_reducible apply State.nextStep_kept
    | with_reducible apply kept_ite

theorem execCodewordDecoded_kept {q : List Instr} (n : Nat) (r : DecRes) (s : State)
    (h : Kept q s) : ∃ t, execCodewordDecoded n r s = .next t ∧ Kept q t := by
  unfold execCodewordDecoded
  refine ⟨_, rfl, ?_⟩
  repeat' first
    | with_reducible assumption | (extract_lets +onlyGivenNames x; unfold x; clear x) | with_reducible apply State.addSat_kept
    | with_reducible apply State.inc_kept | with_reducible apply State.endEsc_kept | with_reducible apply State.toRecon_kept
    | with_reducible apply State.unitRecord_kept | with_reducible apply State.judgeWord_kept | with_reducible apply State.nextStep_kept
    | with_reducible apply kept_ite | split

theorem State.sensed_kept {q : List Instr} (s : State) (uas : List Nat) (h : Kept q s) : Kept q (State.sensed s uas) := by
  unfold State.sensed
  repeat' first | (extract_lets +onlyGivenNames x; unfold x; clear x) | (with_reducible apply kept_parts; with_reducible assumption)

theorem State.unsensed_kept {q : List Instr} (s : State) (uas : List Nat) (h : Kept q s) : Kept q (State.unsensed s uas) := by
  unfold State.unsensed
  repeat' first | with_reducible assumption | intro _ | with_reducible apply State.toRecon_kept | with_reducible apply kept_foldl | split

theorem execFlashReadComplete_kept {q : List Instr} (op : Nat) (s : State)
    (h : Kept q s) : ∃ t, execFlashReadComplete op s = .next t ∧ Kept q t := by
  unfold execFlashReadComplete
  refine ⟨_, rfl, ?_⟩
  repeat' first
    | with_reducible assumption | with_reducible apply State.sensed_kept | with_reducible apply State.addSat_kept
    | with_reducible apply State.lunWorked_kept | with_reducible apply State.retireOp_kept | with_reducible apply kept_ite | split

end Sys2Proof.Machine
end

