-- ==== Sys2Proof/Laws/KeptMedia.lean ====
section
/-!
SUPPORT. One lemma for each operation and each command of programs, the budget, the rebuild, flash commands, decoding and grooming: it keeps the byte memories' form and the queue; a command answers a
next state.
-/

namespace Sys2Proof.Machine

/-! ### Programs.lean -/

theorem State.formAfter_kept {q : List Instr} (s : State) (g : Nat) (key : Nat) (h : Kept q s) : Kept q (State.formAfter s g key) := by
  unfold State.formAfter
  repeat' first
    | with_reducible assumption | (extract_lets +onlyGivenNames x; unfold x; clear x) | with_reducible apply State.note_kept
    | with_reducible apply State.makeTable_kept | with_reducible apply kept_ite | split

theorem State.retireSlot_kept {q : List Instr} (s : State) (ua : Nat) (seq : Nat) (h : Kept q s) : Kept q (State.retireSlot s ua seq) := by
  unfold State.retireSlot
  repeat' first
    | with_reducible assumption | (extract_lets +onlyGivenNames x; unfold x; clear x) | with_reducible apply State.formAfter_kept
    | with_reducible apply State.journal_kept | with_reducible apply State.freeSlot_kept | with_reducible apply kept_ite | split

theorem State.retirePageAt_kept {q : List Instr} (s : State) (stripe : Nat) (pos : Nat) (h : Kept q s) : Kept q
    (State.retirePageAt s stripe pos) := by
  unfold State.retirePageAt
  repeat' first
    | with_reducible assumption | intro _ | (extract_lets +onlyGivenNames x; unfold x; clear x) | with_reducible apply State.putPage_kept
    | with_reducible apply State.retireSlot_kept | with_reducible apply State.addSat_kept | with_reducible apply kept_ite
    | with_reducible apply kept_foldl | (with_reducible apply kept_nv; with_reducible assumption) | split

theorem State.retireParity_kept {q : List Instr} (s : State) (stripe : Nat) (h : Kept q s) : Kept q (State.retireParity s stripe) := by
  unfold State.retireParity
  repeat' first
    | (extract_lets +onlyGivenNames x; unfold x; clear x) | with_reducible apply State.putPage_kept
    | with_reducible apply State.dropSlots_kept | (with_reducible apply kept_nv; with_reducible assumption) | split

theorem State.retireItem_kept {q : List Instr} (s : State) (item : Nat) (h : Kept q s) : Kept q (State.retireItem s item) := by
  unfold State.retireItem
  repeat' first
    | with_reducible assumption | (extract_lets +onlyGivenNames x; unfold x; clear x) | with_reducible apply State.closeStripe_kept
    | with_reducible apply State.retireParity_kept | with_reducible apply State.retirePageAt_kept | with_reducible apply kept_ite

theorem State.replaceSlots_kept {q : List Instr} (s : State) (seqs : List Nat) (h : Kept q s) : Kept q (State.replaceSlots s seqs) := by
  unfold State.replaceSlots
  repeat' first
    | with_reducible assumption | intro _ | (extract_lets +onlyGivenNames x; unfold x; clear x)
    | with_reducible apply State.makeTable_kept | with_reducible apply State.setGroup_kept | with_reducible apply kept_ite
    | with_reducible apply kept_foldl | split

theorem State.voidItem_kept {q : List Instr} (s : State) (item : Nat) (h : Kept q s) : Kept q (State.voidItem s item) := by
  unfold State.voidItem
  repeat' first
    | with_reducible assumption | (extract_lets +onlyGivenNames x; unfold x; clear x) | with_reducible apply State.putPage_kept
    | with_reducible apply State.note_kept | with_reducible apply State.dropSlots_kept | with_reducible apply State.queueUrgent_kept
    | with_reducible apply State.replaceSlots_kept | with_reducible apply kept_ite
    | (with_reducible apply kept_parts; with_reducible apply State.putPage_kept) | split

theorem State.progFail_kept {q : List Instr} (s : State) (o : FlashOp) (h : Kept q s) : Kept q (State.progFail s o) := by
  unfold State.progFail
  repeat' first
    | with_reducible assumption | intro _ | (extract_lets +onlyGivenNames x; unfold x; clear x) | with_reducible apply State.raise_kept
    | with_reducible apply State.inc_kept | with_reducible apply State.dropOp_kept | with_reducible apply State.note_kept
    | with_reducible apply State.voidItem_kept | with_reducible apply State.closeStripe_kept | with_reducible apply State.parityReady_kept
    | with_reducible apply State.pump_kept | with_reducible apply State.resumeLun_kept | with_reducible apply kept_foldl
    | (with_reducible apply kept_parts; with_reducible assumption)

theorem State.countErase_kept {q : List Instr} (s : State) (key : Nat) (h : Kept q s) : Kept q (State.countErase s key) := by
  unfold State.countErase
  repeat' first | with_reducible assumption | with_reducible apply State.note_kept

theorem State.bandErased_kept {q : List Instr} (s : State) (band : Nat) (key : Nat) (h : Kept q s) : Kept q
    (State.bandErased s band key) := by
  unfold State.bandErased
  repeat' first
    | with_reducible assumption | (extract_lets +onlyGivenNames x; unfold x; clear x) | with_reducible apply State.aen_kept
    | with_reducible apply State.raise_kept | with_reducible apply kept_ite | (with_reducible apply kept_parts; with_reducible assumption)
    | (with_reducible apply kept_nv; with_reducible assumption)

theorem State.sealErased_kept {q : List Instr} (s : State) (c : Nat) (l : Nat) (b : Nat) (h : Kept q s) : Kept q
    (State.sealErased s c l b) := by
  unfold State.sealErased
  repeat' first
    | with_reducible assumption | (extract_lets +onlyGivenNames x; unfold x; clear x) | with_reducible apply State.set_kept
    | with_reducible apply kept_ite | (with_reducible apply kept_nv; with_reducible assumption)

theorem State.erased_kept {q : List Instr} (s : State) (o : FlashOp) (h : Kept q s) : Kept q (State.erased s o) := by
  unfold State.erased
  repeat' first
    | with_reducible assumption | (extract_lets +onlyGivenNames x; unfold x; clear x) | with_reducible apply State.bandErased_kept
    | with_reducible apply State.sealErased_kept | split

theorem State.endErase_kept {q : List Instr} (s : State) (o : FlashOp) (ok : Bool) (h : Kept q s) : Kept q (State.endErase s o ok) := by
  unfold State.endErase
  repeat' first
    | with_reducible assumption | (extract_lets +onlyGivenNames x; unfold x; clear x) | with_reducible apply State.countErase_kept
    | with_reducible apply State.retireOp_kept | with_reducible apply State.addSat_kept | with_reducible apply State.lunWorked_kept
    | with_reducible apply State.erased_kept | with_reducible apply State.set_kept | with_reducible apply State.raise_kept
    | with_reducible apply State.inc_kept | with_reducible apply State.retireBlock_kept | with_reducible apply kept_ite

theorem execEraseComplete_kept {q : List Instr} (op : Nat) (ok : Bool) (s : State)
    (h : Kept q s) : ∃ t, execEraseComplete op ok s = .next t ∧ Kept q t := by
  unfold execEraseComplete
  refine ⟨_, rfl, ?_⟩
  repeat' first | with_reducible assumption | with_reducible apply State.endErase_kept | with_reducible apply kept_ite | split

theorem execProgramRetire_kept {q : List Instr} (op : Nat) (ok : Bool) (s : State)
    (h : Kept q s) : ∃ t, execProgramRetire op ok s = .next t ∧ Kept q t := by
  unfold execProgramRetire
  refine ⟨_, rfl, ?_⟩
  repeat' first
    | with_reducible assumption | intro _ | (extract_lets +onlyGivenNames x; unfold x; clear x)
    | with_reducible apply State.lunWorked_kept | with_reducible apply State.retireOp_kept | with_reducible apply State.addSat_kept
    | with_reducible apply State.set_kept | with_reducible apply State.journaled_kept | with_reducible apply State.pump_kept
    | with_reducible apply State.retireItem_kept | with_reducible apply State.progFail_kept | with_reducible apply kept_ite
    | with_reducible apply kept_foldl | split

theorem State.readFail_kept {q : List Instr} (s : State) (o : FlashOp) (h : Kept q s) : Kept q (State.readFail s o) := by
  unfold State.readFail
  repeat' first
    | with_reducible assumption | with_reducible apply State.unsensed_kept | with_reducible apply State.resumeLun_kept
    | with_reducible apply State.dropOp_kept

theorem State.opFail_kept {q : List Instr} (s : State) (o : FlashOp) (h : Kept q s) : Kept q (State.opFail s o) := by
  unfold State.opFail
  repeat' first
    | with_reducible assumption | with_reducible apply State.readFail_kept | with_reducible apply State.endErase_kept
    | with_reducible apply State.progFail_kept | split

theorem State.voidLun_kept {q : List Instr} (s : State) (c : Nat) (l : Nat) (h : Kept q s) : Kept q (State.voidLun s c l) := by
  unfold State.voidLun
  repeat' first
    | with_reducible assumption | intro _ | (extract_lets +onlyGivenNames x; unfold x; clear x) | with_reducible apply State.voidItem_kept
    | with_reducible apply State.parityReady_kept | with_reducible apply kept_foldl

theorem State.unexecuted_kept {q : List Instr} (s : State) (o : FlashOp) (h : Kept q s) : Kept q (State.unexecuted s o) := by
  unfold State.unexecuted
  repeat' first
    | with_reducible assumption | intro _ | (extract_lets +onlyGivenNames x; unfold x; clear x) | with_reducible apply State.readFail_kept
    | with_reducible apply State.erased_kept | with_reducible apply State.dropOp_kept | with_reducible apply State.voidItem_kept
    | with_reducible apply State.closeStripe_kept | with_reducible apply State.parityReady_kept | with_reducible apply kept_foldl | split

theorem State.failOps_kept {q : List Instr} (s : State) (p : FlashOp → Bool) (h : Kept q s) : Kept q (State.failOps s p) := by
  unfold State.failOps
  repeat' first
    | with_reducible assumption | intro _ | with_reducible apply State.unexecuted_kept | with_reducible apply State.opFail_kept
    | with_reducible apply kept_ite | with_reducible apply kept_foldl

theorem State.allFailed_kept {q : List Instr} (s : State) (h : Kept q s) : Kept q (State.allFailed s) := by
  unfold State.allFailed
  repeat' first | with_reducible assumption | with_reducible apply State.quarantine_kept | with_reducible apply kept_ite

theorem State.failChan_kept {q : List Instr} (s : State) (c : Nat) (h : Kept q s) : Kept q (State.failChan s c) := by
  unfold State.failChan
  repeat' first
    | with_reducible assumption | intro _ | (extract_lets +onlyGivenNames x; unfold x; clear x) | with_reducible apply State.set_kept
    | with_reducible apply State.voidLun_kept | with_reducible apply State.allFailed_kept | with_reducible apply State.pump_kept
    | with_reducible apply State.failOps_kept | with_reducible apply kept_foldl
    | (with_reducible apply kept_nv; with_reducible apply State.raise_kept)

theorem State.failLun_kept {q : List Instr} (s : State) (c : Nat) (l : Nat) (h : Kept q s) : Kept q (State.failLun s c l) := by
  unfold State.failLun
  repeat' first
    | with_reducible assumption | (extract_lets +onlyGivenNames x; unfold x; clear x) | with_reducible apply State.raise_kept
    | with_reducible apply State.setPart_kept | with_reducible apply State.pump_kept | with_reducible apply State.failOps_kept
    | with_reducible apply State.voidLun_kept | with_reducible apply State.failChan_kept | with_reducible apply kept_ite

theorem State.timeOut_kept {q : List Instr} (s : State) (o : FlashOp) (h : Kept q s) : Kept q (State.timeOut s o) := by
  unfold State.timeOut
  repeat' first
    | with_reducible assumption | (extract_lets +onlyGivenNames x; unfold x; clear x) | with_reducible apply State.inc_kept
    | with_reducible apply State.opFail_kept | with_reducible apply State.failLun_kept | with_reducible apply kept_ite
    | (with_reducible apply kept_parts; with_reducible apply State.raise_kept)
    | (with_reducible apply kept_dram; with_reducible apply State.raise_kept)

theorem execFlashOpTimeout_kept {q : List Instr} (op : Nat) (s : State)
    (h : Kept q s) : ∃ t, execFlashOpTimeout op s = .next t ∧ Kept q t := by
  unfold execFlashOpTimeout
  refine ⟨_, rfl, ?_⟩
  repeat' first | with_reducible assumption | with_reducible apply State.timeOut_kept | with_reducible apply kept_ite | split

theorem execPartialLeafMerge_kept {q : List Instr} (seq : Nat) (s : State)
    (h : Kept q s) : ∃ t, execPartialLeafMerge seq s = .next t ∧ Kept q t := by
  unfold execPartialLeafMerge
  refine ⟨_, rfl, ?_⟩
  repeat' first
    | with_reducible assumption | with_reducible apply State.mapSlots_kept | with_reducible apply State.wantUnit_kept
    | with_reducible apply State.addRead_kept | with_reducible apply kept_ite | split


/-! ### Budget.lean -/

theorem State.applyThermal_kept {q : List Instr} (s : State) (h : Kept q s) : Kept q (State.applyThermal s) := by
  unfold State.applyThermal
  repeat' first
    | with_reducible assumption | (extract_lets +onlyGivenNames x; unfold x; clear x) | with_reducible apply State.vendorEvent_kept
    | with_reducible apply State.rearmEvent_kept | with_reducible apply State.raise_kept | with_reducible apply State.set_kept
    | with_reducible apply kept_ite | (with_reducible apply kept_parts; with_reducible assumption) | split

theorem State.floorMisses_kept {q : List Instr} (s : State) (throughout : List Nat) (h : Kept q s) : Kept q
    (State.floorMisses s throughout) := by
  unfold State.floorMisses
  repeat' first
    | with_reducible assumption | intro _ | (extract_lets +onlyGivenNames x; unfold x; clear x) | with_reducible apply State.raise_kept
    | with_reducible apply State.incPart_kept | with_reducible apply kept_foldl

theorem State.refillAll_kept {q : List Instr} (s : State) (h : Kept q s) : Kept q (State.refillAll s) := by
  unfold State.refillAll
  repeat' first
    | (extract_lets +onlyGivenNames x; unfold x; clear x) | with_reducible apply State.set_kept | with_reducible apply State.addSat_kept
    | (with_reducible apply kept_parts; with_reducible assumption)

theorem State.noteGrant_kept {q : List Instr} (s : State) (h : Kept q s) : Kept q (State.noteGrant s) := by
  unfold State.noteGrant
  repeat' first
    | with_reducible assumption | (extract_lets +onlyGivenNames x; unfold x; clear x) | with_reducible apply State.raiseIf_kept
    | with_reducible apply State.set_kept

theorem State.ageOps_kept {q : List Instr} (s : State) (h : Kept q s) : Kept q (State.ageOps s) := by
  unfold State.ageOps
  repeat' first | (extract_lets +onlyGivenNames x; unfold x; clear x) | (with_reducible apply kept_parts; with_reducible assumption)

theorem execArbiterPick_kept {q : List Instr} (pickable : List Nat) (s : State)
    (h : Kept q s) : ∃ t, execArbiterPick pickable s = .next t ∧ Kept q t := by
  unfold execArbiterPick
  refine ⟨_, rfl, ?_⟩
  repeat' first
    | with_reducible assumption | (extract_lets +onlyGivenNames x; unfold x; clear x) | with_reducible apply State.opFail_kept
    | with_reducible apply State.pay_kept | with_reducible apply kept_ite
    | (with_reducible apply kept_parts; with_reducible apply State.mapOp_kept) | split

theorem State.suspendFor_kept {q : List Instr} (s : State) (rd : FlashOp) (h : Kept q s) : Kept q (State.suspendFor s rd) := by
  unfold State.suspendFor
  repeat' first
    | with_reducible assumption | (extract_lets +onlyGivenNames x; unfold x; clear x) | with_reducible apply kept_ite
    | (with_reducible apply kept_parts; with_reducible apply State.addSat_kept)

theorem State.issuePage_kept {q : List Instr} (s : State) (stripe : Nat) (pos : Nat) (h : Kept q s) : Kept q
    (State.issuePage s stripe pos) := by
  unfold State.issuePage
  repeat' first
    | with_reducible assumption | intro _ | (extract_lets +onlyGivenNames x; unfold x; clear x) | with_reducible apply State.putPage_kept
    | with_reducible apply State.mapSlots_kept | with_reducible apply State.parityReady_kept | with_reducible apply kept_ite
    | with_reducible apply kept_foldl | (with_reducible apply kept_nv; with_reducible apply State.putPage_kept) | split

theorem State.issueOp_kept {q : List Instr} (s : State) (o : FlashOp) (h : Kept q s) : Kept q (State.issueOp s o) := by
  unfold State.issueOp
  repeat' first
    | with_reducible assumption | intro _ | (extract_lets +onlyGivenNames x; unfold x; clear x) | with_reducible apply State.mapOp_kept
    | with_reducible apply State.suspendFor_kept | with_reducible apply State.spend_kept | with_reducible apply State.noteFlow_kept
    | with_reducible apply State.noteHeadroom_kept | with_reducible apply State.issuePage_kept | with_reducible apply kept_ite
    | with_reducible apply kept_foldl

theorem execSequencerIssue_kept {q : List Instr} (op : Nat) (s : State)
    (h : Kept q s) : ∃ t, execSequencerIssue op s = .next t ∧ Kept q t := by
  unfold execSequencerIssue
  refine ⟨_, rfl, ?_⟩
  repeat' first
    | with_reducible assumption | with_reducible apply State.issueOp_kept | with_reducible apply State.fiUnit_kept
    | with_reducible apply State.timeOut_kept | with_reducible apply State.opFail_kept | with_reducible apply kept_ite | split

theorem State.noteSensors_kept {q : List Instr} (s : State) (tj : List Int) (h : Kept q s) : Kept q (State.noteSensors s tj) := by
  unfold State.noteSensors
  repeat' first
    | with_reducible assumption | intro _ | (extract_lets +onlyGivenNames x; unfold x; clear x) | with_reducible apply State.raise_kept
    | with_reducible apply State.setBitTo_kept | with_reducible apply kept_ite | with_reducible apply kept_foldl
    | (with_reducible apply kept_parts; with_reducible assumption)

theorem State.thermalAsk_kept {q : List Instr} (s : State) (hot : Option (Nat × Int)) (mv : Nat) (h : Kept q s) : Kept q
    (State.thermalAsk s hot mv) := by
  unfold State.thermalAsk
  repeat' first
    | (extract_lets +onlyGivenNames x; unfold x; clear x) | with_reducible apply kept_ite
    | (with_reducible apply kept_parts; with_reducible assumption)

theorem State.noteHot_kept {q : List Instr} (s : State) (tj : List Int) (h : Kept q s) : Kept q (State.noteHot s tj) := by
  unfold State.noteHot
  repeat' first
    | (extract_lets +onlyGivenNames x; unfold x; clear x) | with_reducible apply State.quarantine_kept | with_reducible apply kept_ite
    | (with_reducible apply kept_parts; with_reducible assumption) | (with_reducible apply kept_dram; with_reducible assumption) | split

theorem execThermalSample_kept {q : List Instr} (tj : List Int) (extMv : Nat) (s : State)
    (h : Kept q s) : ∃ t, execThermalSample tj extMv s = .next t ∧ Kept q t := by
  unfold execThermalSample
  refine ⟨_, rfl, ?_⟩
  repeat' first
    | with_reducible assumption | (extract_lets +onlyGivenNames x; unfold x; clear x) | with_reducible apply State.noteSensors_kept
    | with_reducible apply State.set_kept | with_reducible apply State.noteHot_kept | with_reducible apply State.thermalAsk_kept
    | with_reducible apply kept_ite | (with_reducible apply kept_parts; with_reducible assumption) | split

theorem execGrantWrite_kept {q : List Instr} (who : Req) (mw : Nat) (s : State)
    (h : Kept q s) : ∃ t, execGrantWrite who mw s = .next t ∧ Kept q t := by
  unfold execGrantWrite
  refine ⟨_, rfl, ?_⟩
  repeat' first | with_reducible assumption | intro _ | with_reducible apply State.rwAction_kept | with_reducible apply State.set_kept

theorem execBudgetClr_kept {q : List Instr} (who : Req) (s : State) (h : Kept q s) : ∃ t, execBudgetClr who s = .next t ∧ Kept q t := by
  unfold execBudgetClr
  refine ⟨_, rfl, ?_⟩
  repeat' first | with_reducible assumption | intro _ | with_reducible apply State.rwAction_kept | with_reducible apply State.clear_kept


/-! ### Rebuild.lean -/

theorem State.applySeal_kept {q : List Instr} (s : State) (u : Nat × Nat × Slot) (h : Kept q s) : Kept q (State.applySeal s u) := by
  unfold State.applySeal
  repeat' first
    | (extract_lets +onlyGivenNames x; unfold x; clear x) | with_reducible apply State.markSegs_kept
    | with_reducible apply State.makeTable_kept | with_reducible apply State.note_kept | with_reducible apply State.integrity_kept
    | with_reducible apply kept_ite | (with_reducible apply kept_nv; with_reducible assumption)

theorem State.formsAfter_kept {q : List Instr} (s : State) (h : Kept q s) : Kept q (State.formsAfter s) := by
  unfold State.formsAfter
  repeat' first | (extract_lets +onlyGivenNames x; unfold x; clear x) | (with_reducible apply kept_parts; with_reducible assumption)

theorem State.sealFrame_kept {q : List Instr} (s : State) (found : List (Nat × Nat × Slot)) (r : FrameRec)
    (h : Kept q s) : Kept q (State.sealFrame s found r) := by
  unfold State.sealFrame
  repeat' first
    | with_reducible assumption | (extract_lets +onlyGivenNames x; unfold x; clear x) | with_reducible apply State.inc_kept
    | with_reducible apply State.noteAppend_kept | with_reducible apply State.noteEntry_kept | with_reducible apply kept_ite

theorem State.sealEntries_kept {q : List Instr} (s : State) (found : List (Nat × Nat × Slot)) (h : Kept q s) : Kept q
    (State.sealEntries s found) := by
  unfold State.sealEntries
  repeat' first
    | with_reducible assumption | intro _ | (extract_lets +onlyGivenNames x; unfold x; clear x)
    | with_reducible apply State.rewriteEntry_kept | with_reducible apply kept_foldl

theorem State.sealTakes_kept {q : List Instr} (s : State) (tbEnd : Nat) (h : Kept q s) : Kept q (State.sealTakes s tbEnd) := by
  unfold State.sealTakes
  repeat' first | with_reducible assumption | intro _ | with_reducible apply State.noteTake_kept | with_reducible apply kept_foldl

theorem State.writeParity_kept {q : List Instr} (s : State) (st : Nat) (h : Kept q s) : Kept q (State.writeParity s st) := by
  unfold State.writeParity
  repeat' first | (extract_lets +onlyGivenNames x; unfold x; clear x) | (with_reducible apply kept_nv; with_reducible assumption)

theorem State.sealStripe_kept {q : List Instr} (s : State) (bad : List Nat) (e : Nat × Nat × Nat) (h : Kept q s) : Kept q
    (State.sealStripe s bad e) := by
  unfold State.sealStripe
  repeat' first
    | with_reducible assumption | (extract_lets +onlyGivenNames x; unfold x; clear x) | with_reducible apply State.integrity_kept
    | with_reducible apply State.queueUrgent_kept | with_reducible apply State.note_kept | with_reducible apply State.writeParity_kept
    | with_reducible apply kept_ite

theorem State.noteSpace_kept {q : List Instr} (s : State) (h : Kept q s) : Kept q (State.noteSpace s) := by
  unfold State.noteSpace
  repeat' first
    | with_reducible assumption | (extract_lets +onlyGivenNames x; unfold x; clear x) | with_reducible apply State.raiseIf_kept
    | with_reducible apply State.groomCheck_kept | with_reducible apply kept_ite
    | (with_reducible apply kept_parts; with_reducible assumption)

theorem State.closeOpenBands_kept {q : List Instr} (s : State) (h : Kept q s) : Kept q (State.closeOpenBands s) := by
  unfold State.closeOpenBands
  repeat' first | with_reducible assumption | intro _ | with_reducible apply State.note_kept | with_reducible apply kept_foldl

theorem State.askErase_kept {q : List Instr} (s : State) (band : Nat) (h : Kept q s) : Kept q (State.askErase s band) := by
  unfold State.askErase
  repeat' first
    | with_reducible assumption | intro _
    | (extract_lets +onlyGivenNames x; with_reducible refine kept_imp (q := q) x ?_ ?_; unfold x; clear x; rotate_left; intro _; clear_value x; revert x; intros; rotate_right)
    | (extract_lets +onlyGivenNames x; unfold x; clear x) | with_reducible apply State.retireBlock_kept
    | with_reducible apply State.addOp_kept | with_reducible apply State.bandErased_kept | with_reducible apply kept_ite
    | with_reducible apply kept_foldl | (with_reducible apply kept_parts; with_reducible assumption)

theorem State.eraseAhead_kept {q : List Instr} (s : State) (h : Kept q s) : Kept q (State.eraseAhead s) := by
  unfold State.eraseAhead
  repeat' first
    | with_reducible assumption | intro _ | (extract_lets +onlyGivenNames x; unfold x; clear x) | with_reducible apply State.askErase_kept
    | with_reducible apply kept_ite | with_reducible apply kept_foldl

theorem State.freeSeals_kept {q : List Instr} (s : State) (h : Kept q s) : Kept q (State.freeSeals s) := by
  unfold State.freeSeals
  repeat' first
    | with_reducible assumption | intro _ | (extract_lets +onlyGivenNames x; unfold x; clear x) | with_reducible apply State.addOp_kept
    | with_reducible apply kept_foldl

theorem State.freeBandsNow_kept {q : List Instr} (s : State) (h : Kept q s) : Kept q (State.freeBandsNow s) := by
  unfold State.freeBandsNow
  repeat' first
    | with_reducible assumption | intro _ | (extract_lets +onlyGivenNames x; unfold x; clear x)
    | with_reducible apply State.freeSeals_kept | with_reducible apply State.noteSpace_kept | with_reducible apply State.eraseAhead_kept
    | with_reducible apply kept_ite | with_reducible apply kept_foldl
    | (with_reducible apply kept_parts; with_reducible apply State.note_kept)

theorem State.loadStreams_kept {q : List Instr} (s : State) (h : Kept q s) : Kept q (State.loadStreams s) := by
  unfold State.loadStreams
  repeat' first
    | with_reducible assumption | intro _ | (extract_lets +onlyGivenNames x; unfold x; clear x) | with_reducible apply State.setP_kept
    | with_reducible apply State.set_kept | with_reducible apply kept_foldl

theorem State.sealFoundRegs_kept {q : List Instr} (s : State) (seq : Option Nat) (n : Nat) (h : Kept q s) : Kept q
    (State.sealFoundRegs s seq n) := by
  unfold State.sealFoundRegs
  repeat' first
    | with_reducible assumption | (extract_lets +onlyGivenNames x; unfold x; clear x) | with_reducible apply State.set_kept
    | with_reducible apply State.setBitTo_kept | with_reducible apply kept_ite | split

theorem State.replay_kept {q : List Instr} (s : State) (bad : List Nat) (h : Kept q s) : Kept q (State.replay s bad) := by
  unfold State.replay
  repeat' first
    | with_reducible assumption | intro _ | (extract_lets +onlyGivenNames x; unfold x; clear x)
    | with_reducible apply State.formsAfter_kept | with_reducible apply State.loadStreams_kept | with_reducible apply State.applySeal_kept
    | with_reducible apply State.sealEntries_kept | with_reducible apply State.sealFrame_kept | with_reducible apply State.sealTakes_kept
    | with_reducible apply State.sealStripe_kept | with_reducible apply State.closeOpenBands_kept | with_reducible apply State.set_kept
    | with_reducible apply kept_foldl | (with_reducible apply kept_parts; with_reducible assumption)
    | (with_reducible apply kept_nv; with_reducible apply State.sealFoundRegs_kept)

theorem execJournalReplay_kept {q : List Instr} (bad : List Nat) (s : State)
    (h : Kept q s) : ∃ t, execJournalReplay bad s = .next t ∧ Kept q t := by
  unfold execJournalReplay
  refine ⟨_, rfl, ?_⟩
  repeat' first | with_reducible assumption | with_reducible apply State.replay_kept | with_reducible apply kept_ite

theorem State.afterPage_kept {q : List Instr} (s : State) (h : Kept q s) : Kept q (State.afterPage s) := by
  unfold State.afterPage
  repeat' first
    | with_reducible assumption | (extract_lets +onlyGivenNames x; unfold x; clear x) | with_reducible apply State.drainWaiting_kept
    | with_reducible apply State.pump_kept | with_reducible apply State.freeBandsNow_kept | with_reducible apply State.journaled_kept
    | with_reducible apply State.startCkpt_kept | with_reducible apply kept_ite

theorem execJournalPageRetire_kept {q : List Instr} (s : State) (h : Kept q s) : ∃ t, execJournalPageRetire s = .next t ∧ Kept q t := by
  unfold execJournalPageRetire
  refine ⟨_, rfl, ?_⟩
  repeat' first
    | with_reducible assumption | with_reducible apply State.afterPage_kept | with_reducible apply State.retirePage_kept
    | with_reducible apply kept_ite

theorem execMapCkptGo_kept {q : List Instr} (who : Req) (s : State) (h : Kept q s) : ∃ t, execMapCkptGo who s = .next t ∧ Kept q t := by
  unfold execMapCkptGo
  refine ⟨_, rfl, ?_⟩
  repeat' first
    | with_reducible assumption | intro _ | with_reducible apply State.rwAction_kept | with_reducible apply State.startCkpt_kept
    | with_reducible apply kept_ite

theorem execCheckpointComplete_kept {q : List Instr} (s : State) (h : Kept q s) : ∃ t, execCheckpointComplete s = .next t ∧ Kept q t := by
  unfold execCheckpointComplete
  refine ⟨_, rfl, ?_⟩
  repeat' first
    | with_reducible assumption | with_reducible apply State.freeBandsNow_kept | with_reducible apply State.endCkpt_kept
    | with_reducible apply kept_ite

theorem State.padPage_kept {q : List Instr} (s : State) (band : Nat) (off : Nat) (h : Kept q s) : Kept q (State.padPage s band off) := by
  unfold State.padPage
  repeat' first
    | with_reducible assumption | with_reducible apply State.inc_kept | with_reducible apply State.programRow_kept
    | with_reducible apply State.putPage_kept | with_reducible apply kept_ite | split

theorem State.padGroup_kept {q : List Instr} (s : State) (g : Nat) (h : Kept q s) : Kept q (State.padGroup s g) := by
  unfold State.padGroup
  repeat' first
    | with_reducible assumption | intro _ | (extract_lets +onlyGivenNames x; unfold x; clear x) | with_reducible apply State.padPage_kept
    | with_reducible apply State.setGroup_kept | with_reducible apply State.closeRun_kept | with_reducible apply kept_ite
    | with_reducible apply kept_foldl | split

theorem execPadTimeout_kept {q : List Instr} (group : Nat) (s : State) (h : Kept q s) : ∃ t, execPadTimeout group s = .next t ∧ Kept q t := by
  unfold execPadTimeout
  refine ⟨_, rfl, ?_⟩
  repeat' first
    | with_reducible assumption | intro _ | (extract_lets +onlyGivenNames x; unfold x; clear x) | with_reducible apply State.padGroup_kept
    | with_reducible apply State.pump_kept | with_reducible apply State.programRow_kept | with_reducible apply kept_ite
    | with_reducible apply kept_foldl

theorem State.lookAgain_kept {q : List Instr} (s : State) (id : Cid) (cls : Nat) (seg : Nat) (x4 : List RdLeaf)
    (h : Kept q s) : Kept q (State.lookAgain s id cls seg x4).1 := by
  induction x4 generalizing s id cls seg with
  | nil => unfold State.lookAgain; assumption
  | cons a l ih =>
  unfold State.lookAgain
  repeat' first | with_reducible assumption | with_reducible apply State.lookLeaf_kept | with_reducible apply ih | with_reducible apply kept_ite_fst

theorem State.resumeReads_kept {q : List Instr} (s : State) (seg : Nat) (r : CmdRead) (h : Kept q s) : Kept q
    (State.resumeReads s seg r) := by
  unfold State.resumeReads
  repeat' first
    | with_reducible assumption | (extract_lets +onlyGivenNames x; unfold x; clear x) | with_reducible apply State.serveRead_kept
    | with_reducible apply kept_ite | (with_reducible apply kept_parts; with_reducible apply State.lookAgain_kept)

theorem State.askNextSegs_kept {q : List Instr} (s : State) (h : Kept q s) : Kept q (State.askNextSegs s) := by
  unfold State.askNextSegs
  repeat' first | with_reducible assumption | intro _ | with_reducible apply State.askSeg_kept | with_reducible apply kept_foldl

theorem execSegmentLoaded_kept {q : List Instr} (seg : Nat) (s : State)
    (h : Kept q s) : ∃ t, execSegmentLoaded seg s = .next t ∧ Kept q t := by
  unfold execSegmentLoaded
  refine ⟨_, rfl, ?_⟩
  repeat' first
    | with_reducible assumption | intro _ | (extract_lets +onlyGivenNames x; unfold x; clear x)
    | with_reducible apply State.askNextSegs_kept | with_reducible apply State.resumeReads_kept | with_reducible apply kept_ite
    | with_reducible apply kept_foldl | (with_reducible apply kept_parts; with_reducible assumption)

theorem execMapClr_kept {q : List Instr} (who : Req) (s : State) (h : Kept q s) : ∃ t, execMapClr who s = .next t ∧ Kept q t := by
  unfold execMapClr
  refine ⟨_, rfl, ?_⟩
  repeat' first | with_reducible assumption | intro _ | with_reducible apply State.rwAction_kept | with_reducible apply State.clear_kept

theorem execWaysChanged_kept {q : List Instr} (s : State) (h : Kept q s) : ∃ t, execWaysChanged s = .next t ∧ Kept q t := by
  unfold execWaysChanged
  refine ⟨_, rfl, ?_⟩
  repeat' first
    | with_reducible assumption | (extract_lets +onlyGivenNames x; unfold x; clear x) | with_reducible apply State.raise_kept
    | with_reducible apply State.set_kept | with_reducible apply kept_ite | (with_reducible apply kept_parts; with_reducible assumption)
    | split

theorem execMcacheClr_kept {q : List Instr} (who : Req) (s : State) (h : Kept q s) : ∃ t, execMcacheClr who s = .next t ∧ Kept q t := by
  unfold execMcacheClr
  refine ⟨_, rfl, ?_⟩
  repeat' first | with_reducible assumption | intro _ | with_reducible apply State.rwAction_kept | with_reducible apply State.clear_kept


/-! ### FlashCmds.lean -/

theorem State.writeGeom_kept {q : List Instr} (s : State) (c : Nat) (luns : Nat) (inUse : Bool) (h : Kept q s) : Kept q
    (State.writeGeom s c luns inUse) := by
  unfold State.writeGeom
  repeat' first
    | with_reducible assumption | intro _ | (extract_lets +onlyGivenNames x; unfold x; clear x) | with_reducible apply State.set_kept
    | with_reducible apply State.setPart_kept | with_reducible apply State.raiseIf_kept | with_reducible apply kept_foldl | split

theorem State.nameSeals_kept {q : List Instr} (s : State) (c : Nat) (luns : Nat) (h : Kept q s) : Kept q (State.nameSeals s c luns) := by
  unfold State.nameSeals
  repeat' first
    | (extract_lets +onlyGivenNames x; unfold x; clear x) | with_reducible apply State.set_kept
    | (with_reducible apply kept_nv; with_reducible assumption) | (with_reducible apply kept_nv; with_reducible apply State.set_kept)
    | split

theorem State.checkSeal_kept {q : List Instr} (s : State) (c : Nat) (r : ChanFound) (h : Kept q s) : Kept q (State.checkSeal s c r) := by
  unfold State.checkSeal
  repeat' first
    | with_reducible assumption | (extract_lets +onlyGivenNames x; unfold x; clear x) | with_reducible apply State.addOp_kept
    | with_reducible apply State.set_kept | with_reducible apply kept_ite

theorem State.endChan_kept {q : List Instr} (s : State) (use : List Nat) (luns : Nat) (c : Nat) (h : Kept q s) : Kept q
    (State.endChan s use luns c) := by
  unfold State.endChan
  repeat' first
    | with_reducible assumption
    | (extract_lets +onlyGivenNames x; with_reducible refine kept_imp (q := q) x ?_ ?_; unfold x; clear x; rotate_left; intro _; clear_value x; revert x; intros; rotate_right)
    | (extract_lets +onlyGivenNames x; unfold x; clear x) | with_reducible apply State.raise_kept | with_reducible apply State.set_kept
    | with_reducible apply State.writeGeom_kept | with_reducible apply State.raiseIf_kept | with_reducible apply State.noteSpares_kept
    | with_reducible apply State.checkSeal_kept | with_reducible apply State.nameSeals_kept | with_reducible apply kept_ite
    | (with_reducible refine kept_store ?_ ?_; exact Kept.store (q := q) (by with_reducible assumption); rotate_left; with_reducible assumption)
    | split

theorem State.flashFns_kept {q : List Instr} (s : State) (h : Kept q s) : Kept q (State.flashFns s) := by
  unfold State.flashFns
  repeat' first
    | with_reducible assumption | intro _ | (extract_lets +onlyGivenNames x; unfold x; clear x) | with_reducible apply State.failFn_kept
    | with_reducible apply State.setReady_kept | with_reducible apply kept_ite | with_reducible apply kept_foldl

theorem State.settleDiscovery_kept {q : List Instr} (s : State) (h : Kept q s) : Kept q (State.settleDiscovery s) := by
  unfold State.settleDiscovery
  repeat' first
    | with_reducible assumption | intro _
    | (extract_lets +onlyGivenNames x; with_reducible refine kept_imp (q := q) x ?_ ?_; unfold x; clear x; rotate_left; intro _; clear_value x; revert x; intros; rotate_right)
    | (extract_lets +onlyGivenNames x; unfold x; clear x) | with_reducible apply State.endChan_kept | with_reducible apply State.set_kept
    | with_reducible apply State.flashFns_kept | with_reducible apply kept_ite | with_reducible apply kept_foldl
    | (with_reducible apply kept_parts; with_reducible assumption) | split

theorem execChannelDiscoveryDone_kept {q : List Instr} (r : ChanFound) (s : State)
    (h : Kept q s) : ∃ t, execChannelDiscoveryDone r s = .next t ∧ Kept q t := by
  unfold execChannelDiscoveryDone
  refine ⟨_, rfl, ?_⟩
  repeat' first
    | with_reducible assumption | (extract_lets +onlyGivenNames x; unfold x; clear x) | with_reducible apply State.settleDiscovery_kept
    | with_reducible apply kept_ite | (with_reducible apply kept_parts; with_reducible apply State.startDiscovery_kept)

theorem execZqCalibration_kept {q : List Instr} (chan : Nat) (s : State)
    (h : Kept q s) : ∃ t, execZqCalibration chan s = .next t ∧ Kept q t := by
  unfold execZqCalibration
  refine ⟨_, rfl, ?_⟩
  repeat' first
    | with_reducible assumption | intro _ | (extract_lets +onlyGivenNames x; unfold x; clear x) | with_reducible apply State.spend_kept
    | with_reducible apply State.pay_kept | with_reducible apply kept_ite | with_reducible apply kept_foldl

theorem execFchCtlFail_kept {q : List Instr} (who : Req) (chan : Nat) (s : State)
    (h : Kept q s) : ∃ t, execFchCtlFail who chan s = .next t ∧ Kept q t := by
  unfold execFchCtlFail
  refine ⟨_, rfl, ?_⟩
  repeat' first
    | with_reducible assumption | intro _ | (extract_lets +onlyGivenNames x; unfold x; clear x)
    | with_reducible apply State.regAction_kept | with_reducible apply State.logAccess_kept | with_reducible apply State.raise_kept
    | with_reducible apply State.set_kept | with_reducible apply State.failChan_kept | with_reducible apply kept_ite

theorem execFchClr_kept {q : List Instr} (who : Req) (chan : Nat) (s : State)
    (h : Kept q s) : ∃ t, execFchClr who chan s = .next t ∧ Kept q t := by
  unfold execFchClr
  refine ⟨_, rfl, ?_⟩
  repeat' first
    | with_reducible assumption | intro _ | with_reducible apply State.rwAction_kept | with_reducible apply State.clear_kept
    | with_reducible apply kept_ite


/-! ### Ecc.lean -/

theorem State.chargeTrack_kept {q : List Instr} (s : State) (c : Nat) (h : Kept q s) : Kept q (State.chargeTrack s c) := by
  unfold State.chargeTrack
  repeat' first
    | with_reducible assumption | (extract_lets +onlyGivenNames x; unfold x; clear x) | with_reducible apply State.addSat_kept
    | with_reducible apply State.spend_kept | with_reducible apply State.pay_kept

theorem State.refreshTrack_kept {q : List Instr} (s : State) (r : TrackRes) (h : Kept q s) : Kept q (State.refreshTrack s r) := by
  unfold State.refreshTrack
  repeat' first
    | with_reducible assumption | (extract_lets +onlyGivenNames x; unfold x; clear x) | with_reducible apply State.chargeTrack_kept
    | with_reducible apply State.inc_kept | with_reducible apply State.setTrack_kept | with_reducible apply kept_ite

theorem execTrackerRefresh_kept {q : List Instr} (rs : List TrackRes) (s : State)
    (h : Kept q s) : ∃ t, execTrackerRefresh rs s = .next t ∧ Kept q t := by
  unfold execTrackerRefresh
  refine ⟨_, rfl, ?_⟩
  repeat' first
    | with_reducible assumption | intro _ | with_reducible apply State.refreshTrack_kept | with_reducible apply kept_ite
    | with_reducible apply kept_foldl

theorem State.newPass_kept {q : List Instr} (s : State) (h : Kept q s) : Kept q (State.newPass s) := by
  unfold State.newPass
  repeat' first | (extract_lets +onlyGivenNames x; unfold x; clear x) | (with_reducible apply kept_parts; with_reducible assumption)

theorem State.bandRead_kept {q : List Instr} (s : State) (band : Nat) (h : Kept q s) : Kept q (State.bandRead s band) := by
  unfold State.bandRead
  repeat' first
    | with_reducible assumption | (extract_lets +onlyGivenNames x; unfold x; clear x) | with_reducible apply State.inc_kept
    | with_reducible apply State.queueRefresh_kept | with_reducible apply kept_ite

theorem State.endPass_kept {q : List Instr} (s : State) (p : Scrub) (h : Kept q s) : Kept q (State.endPass s p) := by
  unfold State.endPass
  repeat' first
    | (extract_lets +onlyGivenNames x; unfold x; clear x) | with_reducible apply State.set_kept | with_reducible apply State.raise_kept
    | with_reducible apply State.inc_kept | (with_reducible apply kept_parts; with_reducible assumption)

theorem State.showPass_kept {q : List Instr} (s : State) (p : Scrub) (h : Kept q s) : Kept q (State.showPass s p) := by
  unfold State.showPass
  repeat' first | with_reducible assumption | with_reducible apply State.set_kept

theorem State.nextPage_kept {q : List Instr} (x0 : Nat) (x1 : State) (x2 : Scrub) (h : Kept q x1) : Kept q (State.nextPage x0 x1 x2).1 := by
  induction x0 generalizing x1 x2 with
  | zero => unfold State.nextPage; assumption
  | succ n ih =>
  unfold State.nextPage
  repeat' first
    | with_reducible assumption | (extract_lets +onlyGivenNames x; unfold x; clear x) | with_reducible apply State.bandRead_kept
    | with_reducible apply ih | with_reducible apply kept_ite | with_reducible apply kept_ite_fst | split

theorem State.noteBehind_kept {q : List Instr} (s : State) (p : Scrub) (h : Kept q s) : Kept q (State.noteBehind s p).1 := by
  unfold State.noteBehind
  repeat' first | with_reducible assumption | with_reducible apply State.raise_kept | with_reducible apply kept_ite_fst

theorem State.scrubPage_kept {q : List Instr} (s : State) (us : List Nat) (h : Kept q s) : Kept q (State.scrubPage s us) := by
  unfold State.scrubPage
  repeat' first
    | with_reducible assumption | intro _ | with_reducible apply State.wantUnit_kept | with_reducible apply State.addSat_kept
    | with_reducible apply State.addRead_kept | with_reducible apply kept_foldl_fst

theorem execScrubRead_kept {q : List Instr} (s : State) (h : Kept q s) : ∃ t, execScrubRead s = .next t ∧ Kept q t := by
  unfold execScrubRead
  refine ⟨_, rfl, ?_⟩
  repeat' first
    | with_reducible assumption | (extract_lets +onlyGivenNames x; unfold x; clear x) | with_reducible apply State.newPass_kept
    | with_reducible apply State.noteBehind_kept | with_reducible apply State.nextPage_kept | with_reducible apply State.endPass_kept
    | with_reducible apply State.scrubPage_kept | with_reducible apply State.showPass_kept | with_reducible apply kept_ite
    | (with_reducible apply kept_parts; with_reducible apply State.nextPage_kept) | split

theorem execSramPatrol_kept {q : List Instr} (ce : Nat) (clean : Nat) (dirty : Bool) (s : State)
    (h : Kept q s) : ∃ t, execSramPatrol ce clean dirty s = .next t ∧ Kept q t := by
  unfold execSramPatrol
  refine ⟨_, rfl, ?_⟩
  repeat' first
    | with_reducible assumption | intro _ | (extract_lets +onlyGivenNames x; unfold x; clear x) | with_reducible apply State.setPart_kept
    | with_reducible apply State.integrity_kept | with_reducible apply State.quarantine_kept | with_reducible apply kept_ite
    | with_reducible apply kept_foldl

theorem execEccClr_kept {q : List Instr} (who : Req) (s : State) (h : Kept q s) : ∃ t, execEccClr who s = .next t ∧ Kept q t := by
  unfold execEccClr
  refine ⟨_, rfl, ?_⟩
  repeat' first | with_reducible assumption | intro _ | with_reducible apply State.rwAction_kept | with_reducible apply State.clear_kept

theorem execScrubClr_kept {q : List Instr} (who : Req) (s : State) (h : Kept q s) : ∃ t, execScrubClr who s = .next t ∧ Kept q t := by
  unfold execScrubClr
  refine ⟨_, rfl, ?_⟩
  repeat' first | with_reducible assumption | intro _ | with_reducible apply State.rwAction_kept | with_reducible apply State.clear_kept


/-! ### Groom.lean -/

theorem State.fillReserve_kept {q : List Instr} (x0 : Nat) (x1 : State) (h : Kept q x1) : Kept q (State.fillReserve x0 x1) := by
  induction x0 generalizing x1 with
  | zero => unfold State.fillReserve; assumption
  | succ n ih =>
  unfold State.fillReserve
  repeat' first
    | with_reducible assumption | (extract_lets +onlyGivenNames x; unfold x; clear x) | with_reducible apply ih
    | with_reducible apply kept_ite | (with_reducible apply kept_parts; with_reducible assumption) | split

theorem State.openBand_kept {q : List Instr} (s : State) (g : Nat) (b : Nat) (h : Kept q s) : Kept q (State.openBand s g b) := by
  unfold State.openBand
  repeat' first
    | (extract_lets +onlyGivenNames x; unfold x; clear x) | with_reducible apply State.note_kept | with_reducible apply State.raiseIf_kept
    | with_reducible apply State.noteSpace_kept | with_reducible apply State.pump_kept | with_reducible apply State.eraseAhead_kept
    | with_reducible apply State.setGroup_kept | (with_reducible apply kept_nv; with_reducible assumption)

theorem execBandOpen_kept {q : List Instr} (group : Nat) (s : State) (h : Kept q s) : ∃ t, execBandOpen group s = .next t ∧ Kept q t := by
  unfold execBandOpen
  refine ⟨_, rfl, ?_⟩
  repeat' first
    | with_reducible assumption | (extract_lets +onlyGivenNames x; unfold x; clear x) | with_reducible apply State.openBand_kept
    | with_reducible apply State.raise_kept | with_reducible apply State.fillReserve_kept | with_reducible apply State.eraseAhead_kept
    | with_reducible apply State.raiseIf_kept | with_reducible apply kept_ite | split

theorem State.readVictim_kept {q : List Instr} (s : State) (us : List Nat) (h : Kept q s) : Kept q (State.readVictim s us) := by
  unfold State.readVictim
  repeat' first
    | with_reducible assumption | intro _ | (extract_lets +onlyGivenNames x; unfold x; clear x) | with_reducible apply State.wantUnit_kept
    | with_reducible apply State.addRead_kept | with_reducible apply kept_foldl
    | (with_reducible apply kept_parts; with_reducible assumption) | with_reducible apply kept_foldl_fst

theorem State.showVictim_kept {q : List Instr} (s : State) (rank : Nat) (n : Nat) (h : Kept q s) : Kept q (State.showVictim s rank n) := by
  unfold State.showVictim
  repeat' first | with_reducible assumption | with_reducible apply State.set_kept | with_reducible apply State.incPart_kept

theorem State.takeVictim_kept {q : List Instr} (s : State) (v : Victim) (h : Kept q s) : Kept q (State.takeVictim s v) := by
  unfold State.takeVictim
  repeat' first
    | (extract_lets +onlyGivenNames x; unfold x; clear x) | with_reducible apply State.readVictim_kept
    | with_reducible apply State.raiseIf_kept | with_reducible apply State.showVictim_kept | with_reducible apply State.draw_kept
    | (with_reducible apply kept_parts; with_reducible assumption) | split

theorem State.dropVictims_kept {q : List Instr} (s : State) (h : Kept q s) : Kept q (State.dropVictims s) := by
  unfold State.dropVictims
  repeat' first | (extract_lets +onlyGivenNames x; unfold x; clear x) | (with_reducible apply kept_parts; with_reducible assumption)

theorem execGroomVictimSelect_kept {q : List Instr} (s : State) (h : Kept q s) : ∃ t, execGroomVictimSelect s = .next t ∧ Kept q t := by
  unfold execGroomVictimSelect
  refine ⟨_, rfl, ?_⟩
  repeat' first
    | with_reducible assumption | (extract_lets +onlyGivenNames x; unfold x; clear x) | with_reducible apply State.dropVictims_kept
    | with_reducible apply State.takeVictim_kept | with_reducible apply kept_ite | split

theorem State.idleClose_kept {q : List Instr} (s : State) (group : Nat) (band : Nat) (h : Kept q s) : Kept q
    (State.idleClose s group band) := by
  unfold State.idleClose
  repeat' first
    | with_reducible assumption | intro _ | (extract_lets +onlyGivenNames x; unfold x; clear x) | with_reducible apply State.padGroup_kept
    | with_reducible apply State.fillPages_kept | with_reducible apply State.setGroup_kept | with_reducible apply State.pump_kept
    | with_reducible apply State.closeBand_kept | with_reducible apply State.programRow_kept | with_reducible apply kept_foldl

theorem execGroomIdleClose_kept {q : List Instr} (group : Nat) (s : State)
    (h : Kept q s) : ∃ t, execGroomIdleClose group s = .next t ∧ Kept q t := by
  unfold execGroomIdleClose
  refine ⟨_, rfl, ?_⟩
  repeat' first | with_reducible assumption | with_reducible apply State.idleClose_kept | with_reducible apply kept_ite | split

theorem execGroomClr_kept {q : List Instr} (who : Req) (s : State) (h : Kept q s) : ∃ t, execGroomClr who s = .next t ∧ Kept q t := by
  unfold execGroomClr
  refine ⟨_, rfl, ?_⟩
  repeat' first | with_reducible assumption | intro _ | with_reducible apply State.rwAction_kept | with_reducible apply State.clear_kept

end Sys2Proof.Machine
end

