-- ==== Sys2Proof/Laws/KeptHost.lean ====
section
/-!
SUPPORT. One lemma for each operation and each command of the camera's controller and its commands: it keeps the byte memories' form and the queue; a command answers a
next state.
-/

namespace Sys2Proof.Machine

/-! ### HostCmds.lean -/

theorem State.flushReady_kept {q : List Instr} (s : State) (h : Kept q s) : Kept q (State.flushReady s) := by
  unfold State.flushReady
  repeat' first
    | with_reducible assumption | intro _ | with_reducible apply State.post_kept | with_reducible apply State.untrack_kept
    | with_reducible apply kept_foldl

theorem execFlush_kept {q : List Instr} (id : Cid) (nsid : Nat) (bad : Bool) (s : State)
    (h : Kept q s) : ∃ t, execFlush id nsid bad s = .next t ∧ Kept q t := by
  unfold execFlush
  refine ⟨_, rfl, ?_⟩
  repeat' first
    | with_reducible assumption | intro _ | with_reducible apply State.arrive_kept | with_reducible apply State.judge_kept
    | with_reducible apply State.flushReady_kept | with_reducible apply State.trackCmd_kept

theorem execRead_kept {q : List Instr} (id : Cid) (c : IoCmd) (s : State) (h : Kept q s) : ∃ t, execRead id c s = .next t ∧ Kept q t := by
  unfold execRead
  refine ⟨_, rfl, ?_⟩
  repeat' first
    | with_reducible assumption | intro _ | with_reducible apply State.arrive_kept | with_reducible apply State.judge_kept
    | with_reducible apply State.startRead_kept

theorem execCompare_kept {q : List Instr} (id : Cid) (c : IoCmd) (data : List Nat) (s : State)
    (h : Kept q s) : ∃ t, execCompare id c data s = .next t ∧ Kept q t := by
  unfold execCompare
  refine ⟨_, rfl, ?_⟩
  repeat' first
    | with_reducible assumption | intro _ | with_reducible apply State.arrive_kept | with_reducible apply State.judge_kept
    | with_reducible apply State.startRead_kept

theorem execVerify_kept {q : List Instr} (id : Cid) (c : IoCmd) (s : State) (h : Kept q s) : ∃ t, execVerify id c s = .next t ∧ Kept q t := by
  unfold execVerify
  refine ⟨_, rfl, ?_⟩
  repeat' first
    | with_reducible assumption | intro _ | with_reducible apply State.arrive_kept | with_reducible apply State.judge_kept
    | with_reducible apply State.startRead_kept

theorem State.startWrite_kept {q : List Instr} (s : State) (id : Cid) (op : CmdOp) (c : IoCmd) (h : Kept q s) : Kept q
    (State.startWrite s id op c) := by
  unfold State.startWrite
  repeat' first
    | with_reducible assumption | (extract_lets +onlyGivenNames x; unfold x; clear x) | with_reducible apply State.exhaust_kept
    | with_reducible apply State.askWrite_kept | with_reducible apply State.trackCmd_kept | with_reducible apply kept_ite

theorem execWrite_kept {q : List Instr} (id : Cid) (c : IoCmd) (s : State) (h : Kept q s) : ∃ t, execWrite id c s = .next t ∧ Kept q t := by
  unfold execWrite
  refine ⟨_, rfl, ?_⟩
  repeat' first
    | with_reducible assumption | intro _ | with_reducible apply State.arrive_kept | with_reducible apply State.judge_kept
    | with_reducible apply State.startWrite_kept

theorem execWriteZeroes_kept {q : List Instr} (id : Cid) (c : IoCmd) (s : State)
    (h : Kept q s) : ∃ t, execWriteZeroes id c s = .next t ∧ Kept q t := by
  unfold execWriteZeroes
  refine ⟨_, rfl, ?_⟩
  repeat' first
    | with_reducible assumption | intro _ | with_reducible apply State.arrive_kept | with_reducible apply State.judge_kept
    | with_reducible apply State.startWrite_kept

theorem State.noteAck_kept {q : List Instr} (s : State) (ns : Nat) (h : Kept q s) : Kept q (State.noteAck s ns) := by
  unfold State.noteAck
  repeat' first
    | with_reducible assumption | with_reducible apply State.raiseIf_kept | with_reducible apply State.set_kept
    | with_reducible apply kept_ite

theorem execHostWriteDataComplete_kept {q : List Instr} (id : Cid) (sectors : List Nat) (ackNs : Nat) (s : State)
    (h : Kept q s) : ∃ t, execHostWriteDataComplete id sectors ackNs s = .next t ∧ Kept q t := by
  unfold execHostWriteDataComplete
  refine ⟨_, rfl, ?_⟩
  repeat' first
    | with_reducible assumption | (extract_lets +onlyGivenNames x; unfold x; clear x) | with_reducible apply State.storeWrite_kept
    | with_reducible apply State.noteAck_kept | with_reducible apply kept_ite | split

theorem State.dropLeaves_kept {q : List Instr} (s : State) (key : Nat) (count : Nat) (h : Kept q s) : Kept q
    (State.dropLeaves s key count) := by
  unfold State.dropLeaves
  repeat' first
    | with_reducible assumption | intro _ | (extract_lets +onlyGivenNames x; unfold x; clear x)
    | with_reducible apply State.makeTable_kept | with_reducible apply State.mapSlots_kept | with_reducible apply State.noteUnmap_kept
    | with_reducible apply kept_foldl

theorem State.deallocate_kept {q : List Instr} (s : State) (nsid : Nat) (fmt : Nat) (ranges : List (Nat × Nat))
    (h : Kept q s) : Kept q (State.deallocate s nsid fmt ranges) := by
  unfold State.deallocate
  repeat' first
    | with_reducible assumption | intro _ | (extract_lets +onlyGivenNames x; unfold x; clear x) | with_reducible apply State.verAlter_kept
    | with_reducible apply State.dropLeaves_kept | with_reducible apply kept_foldl | split

theorem execDatasetManagement_kept {q : List Instr} (id : Cid) (nsid : Nat) (ranges : List (Nat × Nat)) (ad : Bool) (bad : Bool)
    (s : State) (h : Kept q s) : ∃ t, execDatasetManagement id nsid ranges ad bad s = .next t ∧ Kept q t := by
  unfold execDatasetManagement
  refine ⟨_, rfl, ?_⟩
  repeat' first
    | with_reducible assumption | intro _ | (extract_lets +onlyGivenNames x; unfold x; clear x) | with_reducible apply State.arrive_kept
    | with_reducible apply State.judge_kept | with_reducible apply State.okRec_kept | with_reducible apply State.freeBandsNow_kept
    | with_reducible apply State.deallocate_kept | with_reducible apply State.ok_kept | with_reducible apply kept_ite


/-! ### HostAdmin.lean -/

theorem State.errorEvent_kept {q : List Instr} (s : State) (info : Nat) (h : Kept q s) : Kept q (State.errorEvent s info) := by
  unfold State.errorEvent
  repeat' first | with_reducible assumption | with_reducible apply State.aen_kept

theorem State.badDoorbell_kept {q : List Instr} (s : State) (info : Nat) (h : Kept q s) : Kept q (State.badDoorbell s info) := by
  unfold State.badDoorbell
  repeat' first
    | with_reducible assumption | with_reducible apply State.errorEvent_kept | with_reducible apply State.raise_kept
    | with_reducible apply State.inc_kept

theorem execSqTailDoorbell_kept {q : List Instr} (x0 : Nat) (value : Nat) (fetchNs : Nat) (s : State)
    (h : Kept q s) : ∃ t, execSqTailDoorbell x0 value fetchNs s = .next t ∧ Kept q t := by
  unfold execSqTailDoorbell
  refine ⟨_, rfl, ?_⟩
  repeat' first
    | with_reducible assumption | (extract_lets +onlyGivenNames x; unfold x; clear x) | with_reducible apply State.badDoorbell_kept
    | with_reducible apply State.ioArrival_kept | with_reducible apply State.set_kept | with_reducible apply kept_ite
    | (with_reducible apply kept_parts; with_reducible assumption) | split

theorem execCqHeadDoorbell_kept {q : List Instr} (x0 : Nat) (value : Nat) (s : State)
    (h : Kept q s) : ∃ t, execCqHeadDoorbell x0 value s = .next t ∧ Kept q t := by
  unfold execCqHeadDoorbell
  refine ⟨_, rfl, ?_⟩
  repeat' first
    | with_reducible assumption | (extract_lets +onlyGivenNames x; unfold x; clear x) | with_reducible apply State.badDoorbell_kept
    | with_reducible apply kept_ite | (with_reducible apply kept_parts; with_reducible assumption) | split

theorem execInterruptCoalescingTimeout_kept {q : List Instr} (x0 : Nat) (s : State)
    (h : Kept q s) : ∃ t, execInterruptCoalescingTimeout x0 s = .next t ∧ Kept q t := by
  unfold execInterruptCoalescingTimeout
  refine ⟨_, rfl, ?_⟩
  repeat' first
    | with_reducible assumption | (extract_lets +onlyGivenNames x; unfold x; clear x) | with_reducible apply kept_ite
    | (with_reducible apply kept_parts; with_reducible assumption) | split

theorem State.logTest_kept {q : List Instr} (s : State) (result : Nat) (h : Kept q s) : Kept q (State.logTest s result) := by
  unfold State.logTest
  repeat' first | (extract_lets +onlyGivenNames x; unfold x; clear x) | (with_reducible apply kept_nv; with_reducible assumption)

theorem State.dropTest_kept {q : List Instr} (s : State) (result : Nat) (h : Kept q s) : Kept q (State.dropTest s result) := by
  unfold State.dropTest
  repeat' first | with_reducible assumption | with_reducible apply State.logTest_kept | with_reducible apply kept_ite

theorem State.hostReset_kept {q : List Instr} (s : State) (h : Kept q s) : Kept q (State.hostReset s) := by
  unfold State.hostReset
  repeat' first
    | with_reducible assumption | (extract_lets +onlyGivenNames x; unfold x; clear x) | with_reducible apply State.dropTest_kept
    | with_reducible apply State.clear_kept | with_reducible apply kept_ite
    | (with_reducible apply kept_parts; with_reducible apply State.forget_kept)

theorem execCcEnable_kept {q : List Instr} (en : Bool) (ams : Nat) (asqs : Nat) (acqs : Nat) (s : State)
    (h : Kept q s) : ∃ t, execCcEnable en ams asqs acqs s = .next t ∧ Kept q t := by
  unfold execCcEnable
  refine ⟨_, rfl, ?_⟩
  repeat' first
    | with_reducible assumption | (extract_lets +onlyGivenNames x; unfold x; clear x) | with_reducible apply State.hostReset_kept
    | with_reducible apply kept_ite | (with_reducible apply kept_parts; with_reducible assumption)

theorem execCcShutdown_kept {q : List Instr} (s : State) (h : Kept q s) : ∃ t, execCcShutdown s = .next t ∧ Kept q t := by
  unfold execCcShutdown
  refine ⟨_, rfl, ?_⟩
  repeat' first
    | with_reducible assumption | (extract_lets +onlyGivenNames x; unfold x; clear x) | with_reducible apply State.shutCheck_kept
    | with_reducible apply kept_ite | (with_reducible apply kept_parts; with_reducible assumption)

theorem execCreateIoCq_kept {q : List Instr} (id : Cid) (qid : Nat) (size : Nat) (vec : Nat) (ien : Bool) (bad : Bool)
    (s : State) (h : Kept q s) : ∃ t, execCreateIoCq id qid size vec ien bad s = .next t ∧ Kept q t := by
  unfold execCreateIoCq
  refine ⟨_, rfl, ?_⟩
  repeat' first
    | with_reducible assumption | intro _ | (extract_lets +onlyGivenNames x; unfold x; clear x) | with_reducible apply State.arrive_kept
    | with_reducible apply State.judge_kept | with_reducible apply State.ok_kept
    | (with_reducible apply kept_parts; with_reducible assumption)

theorem execCreateIoSq_kept {q : List Instr} (id : Cid) (qid : Nat) (size : Nat) (cqid : Nat) (prio : Nat) (bad : Bool)
    (s : State) (h : Kept q s) : ∃ t, execCreateIoSq id qid size cqid prio bad s = .next t ∧ Kept q t := by
  unfold execCreateIoSq
  refine ⟨_, rfl, ?_⟩
  repeat' first
    | with_reducible assumption | intro _ | (extract_lets +onlyGivenNames x; unfold x; clear x) | with_reducible apply State.arrive_kept
    | with_reducible apply State.judge_kept | with_reducible apply State.ok_kept | with_reducible apply State.set_kept
    | (with_reducible apply kept_parts; with_reducible assumption)

theorem State.dropQueue_kept {q : List Instr} (s : State) (x1 : Nat) (h : Kept q s) : Kept q (State.dropQueue s x1) := by
  unfold State.dropQueue
  repeat' first
    | with_reducible assumption | intro _ | (extract_lets +onlyGivenNames x; unfold x; clear x) | with_reducible apply State.fail_kept
    | with_reducible apply State.forget_kept | with_reducible apply kept_foldl

theorem execDeleteIoSq_kept {q : List Instr} (id : Cid) (qid : Nat) (s : State)
    (h : Kept q s) : ∃ t, execDeleteIoSq id qid s = .next t ∧ Kept q t := by
  unfold execDeleteIoSq
  refine ⟨_, rfl, ?_⟩
  repeat' first
    | with_reducible assumption | intro _ | (extract_lets +onlyGivenNames x; unfold x; clear x) | with_reducible apply State.arrive_kept
    | with_reducible apply State.judge_kept | with_reducible apply State.ok_kept | with_reducible apply State.set_kept
    | (with_reducible apply kept_parts; with_reducible apply State.dropQueue_kept)

theorem execDeleteIoCq_kept {q : List Instr} (id : Cid) (qid : Nat) (s : State)
    (h : Kept q s) : ∃ t, execDeleteIoCq id qid s = .next t ∧ Kept q t := by
  unfold execDeleteIoCq
  refine ⟨_, rfl, ?_⟩
  repeat' first
    | with_reducible assumption | intro _ | (extract_lets +onlyGivenNames x; unfold x; clear x) | with_reducible apply State.arrive_kept
    | with_reducible apply State.judge_kept | with_reducible apply State.ok_kept
    | (with_reducible apply kept_parts; with_reducible assumption)

theorem State.notCaught_kept {q : List Instr} (s : State) (id : Cid) (h : Kept q s) : Kept q (State.notCaught s id) := by
  unfold State.notCaught
  repeat' first | with_reducible assumption | with_reducible apply State.ok_kept | with_reducible apply State.inc_kept | with_reducible apply kept_ite

theorem execAbort_kept {q : List Instr} (id : Cid) (sqid : Nat) (cid : Nat) (bad : Bool) (s : State)
    (h : Kept q s) : ∃ t, execAbort id sqid cid bad s = .next t ∧ Kept q t := by
  unfold execAbort
  refine ⟨_, rfl, ?_⟩
  repeat' first
    | with_reducible assumption | intro _ | (extract_lets +onlyGivenNames x; unfold x; clear x)
    | with_reducible apply State.arriveFree_kept | with_reducible apply State.judge_kept | with_reducible apply State.notCaught_kept
    | with_reducible apply State.forget_kept | with_reducible apply State.ok_kept | with_reducible apply State.caught_kept
    | with_reducible apply State.fail_kept | with_reducible apply kept_ite | (with_reducible apply kept_parts; with_reducible assumption)
    | split

theorem execAbortWindowExpired_kept {q : List Instr} (id : Cid) (s : State)
    (h : Kept q s) : ∃ t, execAbortWindowExpired id s = .next t ∧ Kept q t := by
  unfold execAbortWindowExpired
  refine ⟨_, rfl, ?_⟩
  repeat' first
    | with_reducible assumption | (extract_lets +onlyGivenNames x; unfold x; clear x) | with_reducible apply State.notCaught_kept
    | with_reducible apply kept_ite | (with_reducible apply kept_parts; with_reducible assumption)

theorem State.ctrlAer_kept {q : List Instr} (s : State) (id : Cid) (conn : Nat) (k : Nat) (c : Ctrl) (h : Kept q s) : Kept q
    (State.ctrlAer s id conn k c) := by
  unfold State.ctrlAer
  repeat' first
    | with_reducible assumption | (extract_lets +onlyGivenNames x; unfold x; clear x) | with_reducible apply State.ok_kept
    | with_reducible apply State.fail_kept | with_reducible apply kept_ite | (with_reducible apply kept_parts; with_reducible assumption)
    | split

theorem execAsynchronousEventRequest_kept {q : List Instr} (id : Cid) (s : State)
    (h : Kept q s) : ∃ t, execAsynchronousEventRequest id s = .next t ∧ Kept q t := by
  unfold execAsynchronousEventRequest
  refine ⟨_, rfl, ?_⟩
  repeat' first
    | with_reducible assumption | intro _ | (extract_lets +onlyGivenNames x; unfold x; clear x)
    | with_reducible apply State.arriveFree_kept | with_reducible apply State.judge_kept | with_reducible apply State.ctrlAer_kept
    | with_reducible apply State.ok_kept | with_reducible apply State.fail_kept | with_reducible apply kept_ite
    | (with_reducible apply kept_parts; with_reducible assumption) | split

theorem execKeepAlive_kept {q : List Instr} (id : Cid) (s : State) (h : Kept q s) : ∃ t, execKeepAlive id s = .next t ∧ Kept q t := by
  unfold execKeepAlive
  refine ⟨_, rfl, ?_⟩
  repeat' first
    | with_reducible assumption | intro _ | with_reducible apply State.arrive_kept | with_reducible apply State.judge_kept
    | with_reducible apply State.ok_kept

theorem execKeepAliveExpired_kept {q : List Instr} (ctrl : Nat) (s : State)
    (h : Kept q s) : ∃ t, execKeepAliveExpired ctrl s = .next t ∧ Kept q t := by
  unfold execKeepAliveExpired
  refine ⟨_, rfl, ?_⟩
  repeat' first
    | with_reducible assumption | intro _
    | (extract_lets +onlyGivenNames x; with_reducible refine kept_imp (q := q) x ?_ ?_; unfold x; clear x; rotate_left; intro _; clear_value x; revert x; intros; rotate_right)
    | (extract_lets +onlyGivenNames x; unfold x; clear x) | with_reducible apply State.raise_kept | with_reducible apply State.set_kept
    | with_reducible apply State.logError_kept | with_reducible apply State.dropConn_kept | with_reducible apply State.offloadCheck_kept
    | with_reducible apply kept_ite | with_reducible apply kept_foldl | (with_reducible apply kept_parts; with_reducible assumption)
    | split

theorem State.putCtrl_kept {q : List Instr} (s : State) (k : Nat) (c : Ctrl) (h : Kept q s) : Kept q (State.putCtrl s k c) := by
  unfold State.putCtrl
  repeat' first | (extract_lets +onlyGivenNames x; unfold x; clear x) | (with_reducible apply kept_parts; with_reducible assumption)

theorem State.setFeature_kept {q : List Instr} (s : State) (fid : Nat) (v : Nat) (h : Kept q s) : Kept q (State.setFeature s fid v) := by
  unfold State.setFeature
  repeat' first
    | with_reducible assumption | (extract_lets +onlyGivenNames x; unfold x; clear x) | with_reducible apply State.set_kept
    | (with_reducible apply kept_parts; with_reducible assumption) | split

theorem execSetFeatures_kept {q : List Instr} (id : Cid) (fid : Nat) (cdw11 : Nat) (save : Bool) (bad : Bool) (s : State)
    (h : Kept q s) : ∃ t, execSetFeatures id fid cdw11 save bad s = .next t ∧ Kept q t := by
  unfold execSetFeatures
  refine ⟨_, rfl, ?_⟩
  repeat' first
    | with_reducible assumption | intro _ | (extract_lets +onlyGivenNames x; unfold x; clear x) | with_reducible apply State.arrive_kept
    | with_reducible apply State.judge_kept | with_reducible apply State.ok_kept | with_reducible apply State.putCtrl_kept
    | with_reducible apply State.setFeature_kept | with_reducible apply kept_ite | split

theorem execGetFeatures_kept {q : List Instr} (id : Cid) (fid : Nat) (cdw11 : Nat) (sel : Nat) (bad : Bool) (s : State)
    (h : Kept q s) : ∃ t, execGetFeatures id fid cdw11 sel bad s = .next t ∧ Kept q t := by
  unfold execGetFeatures
  refine ⟨_, rfl, ?_⟩
  repeat' first
    | with_reducible assumption | intro _ | (extract_lets +onlyGivenNames x; unfold x; clear x) | with_reducible apply State.arrive_kept
    | with_reducible apply State.judge_kept | with_reducible apply State.ok_kept

theorem execDirectiveSend_kept {q : List Instr} (id : Cid) (dtype : Nat) (doper : Nat) (cdw12 : Nat) (bad : Bool) (s : State)
    (h : Kept q s) : ∃ t, execDirectiveSend id dtype doper cdw12 bad s = .next t ∧ Kept q t := by
  unfold execDirectiveSend
  refine ⟨_, rfl, ?_⟩
  repeat' first
    | with_reducible assumption | intro _ | (extract_lets +onlyGivenNames x; unfold x; clear x) | with_reducible apply State.arrive_kept
    | with_reducible apply State.judge_kept | with_reducible apply State.ok_kept | with_reducible apply kept_ite
    | (with_reducible apply kept_parts; with_reducible assumption)

theorem execDirectiveReceive_kept {q : List Instr} (id : Cid) (dtype : Nat) (doper : Nat) (bytes : Nat) (bad : Bool) (s : State)
    (h : Kept q s) : ∃ t, execDirectiveReceive id dtype doper bytes bad s = .next t ∧ Kept q t := by
  unfold execDirectiveReceive
  refine ⟨_, rfl, ?_⟩
  repeat' first
    | with_reducible assumption | intro _ | with_reducible apply State.arrive_kept | with_reducible apply State.judge_kept
    | with_reducible apply State.ok_kept | with_reducible apply State.draw_kept | with_reducible apply kept_ite

theorem execHostqClr_kept {q : List Instr} (who : Req) (s : State) (h : Kept q s) : ∃ t, execHostqClr who s = .next t ∧ Kept q t := by
  unfold execHostqClr
  refine ⟨_, rfl, ?_⟩
  repeat' first | with_reducible assumption | intro _ | with_reducible apply State.rwAction_kept | with_reducible apply State.clear_kept

theorem execPcieClr_kept {q : List Instr} (who : Req) (s : State) (h : Kept q s) : ∃ t, execPcieClr who s = .next t ∧ Kept q t := by
  unfold execPcieClr
  refine ⟨_, rfl, ?_⟩
  repeat' first | with_reducible assumption | intro _ | with_reducible apply State.rwAction_kept | with_reducible apply State.clear_kept

theorem State.trainPcie_kept {q : List Instr} (s : State) (speed : Nat) (width : Nat) (h : Kept q s) : Kept q
    (State.trainPcie s speed width) := by
  unfold State.trainPcie
  repeat' first
    | with_reducible assumption | (extract_lets +onlyGivenNames x; unfold x; clear x) | with_reducible apply State.raiseIf_kept
    | with_reducible apply State.inc_kept | with_reducible apply State.set_kept | with_reducible apply kept_ite

theorem execPcieLinkUp_kept {q : List Instr} (speed : Nat) (width : Nat) (eq : Nat) (s : State)
    (h : Kept q s) : ∃ t, execPcieLinkUp speed width eq s = .next t ∧ Kept q t := by
  unfold execPcieLinkUp
  refine ⟨_, rfl, ?_⟩
  repeat' first
    | with_reducible assumption | (extract_lets +onlyGivenNames x; unfold x; clear x) | with_reducible apply State.set_kept
    | with_reducible apply State.trainPcie_kept | with_reducible apply State.setReady_kept | with_reducible apply kept_ite
    | (with_reducible apply kept_parts; with_reducible apply State.raise_kept)

theorem execPcieLinkDown_kept {q : List Instr} (s : State) (h : Kept q s) : ∃ t, execPcieLinkDown s = .next t ∧ Kept q t := by
  unfold execPcieLinkDown
  refine ⟨_, rfl, ?_⟩
  repeat' first
    | with_reducible assumption | with_reducible apply State.pcieDown_kept | with_reducible apply State.raise_kept
    | with_reducible apply State.set_kept | with_reducible apply kept_ite

theorem execPcieRetrain_kept {q : List Instr} (who : Req) (speed : Nat) (width : Nat) (s : State)
    (h : Kept q s) : ∃ t, execPcieRetrain who speed width s = .next t ∧ Kept q t := by
  unfold execPcieRetrain
  refine ⟨_, rfl, ?_⟩
  repeat' first
    | with_reducible assumption | intro _ | with_reducible apply State.rwAction_kept | with_reducible apply State.trainPcie_kept
    | with_reducible apply State.inc_kept | with_reducible apply kept_ite

theorem execConfigSpaceWrite_kept {q : List Instr} (d3 : Bool) (msix : Bool) (busMaster : Bool) (pme : Bool) (s : State)
    (h : Kept q s) : ∃ t, execConfigSpaceWrite d3 msix busMaster pme s = .next t ∧ Kept q t := by
  unfold execConfigSpaceWrite
  refine ⟨_, rfl, ?_⟩
  repeat' first
    | with_reducible assumption | (extract_lets +onlyGivenNames x; unfold x; clear x) | with_reducible apply State.set_kept
    | with_reducible apply kept_ite | (with_reducible apply kept_parts; with_reducible assumption)


/-! ### HostTakes.lean -/

theorem State.openTake_kept {q : List Instr} (s : State) (id : Cid) (num : Nat) (first : Nat) (last : Nat)
    (h : Kept q s) : Kept q (State.openTake s id num first last) := by
  unfold State.openTake
  repeat' first
    | (extract_lets +onlyGivenNames x; unfold x; clear x) | with_reducible apply State.note_kept
    | with_reducible apply State.noteTake_kept | with_reducible apply State.beginTrans_kept | with_reducible apply State.takesOpened_kept
    | with_reducible apply kept_ite | (with_reducible apply kept_parts; with_reducible assumption)

theorem State.startTake_kept {q : List Instr} (s : State) (local' : Bool) (id : Cid) (take : Nat) (first : Nat) (last : Nat)
    (h : Kept q s) : Kept q (State.startTake s local' id take first last) := by
  unfold State.startTake
  repeat' first
    | with_reducible assumption | intro _ | with_reducible apply State.judge_kept | with_reducible apply State.relay_kept
    | with_reducible apply State.openTake_kept | with_reducible apply kept_ite

theorem State.judgeTake_kept {q : List Instr} (s : State) (id : Cid) (take : Nat) (first : Nat) (last : Nat)
    (h : Kept q s) : Kept q (State.judgeTake s id take first last) := by
  unfold State.judgeTake
  repeat' first
    | with_reducible assumption | intro _ | (extract_lets +onlyGivenNames x; unfold x; clear x) | with_reducible apply State.judge_kept
    | with_reducible apply State.startTake_kept | with_reducible apply kept_ite
    | (with_reducible apply kept_parts; with_reducible assumption)

theorem execTakeStart_kept {q : List Instr} (id : Cid) (take : Nat) (first : Nat) (last : Nat) (bad : Bool) (s : State)
    (h : Kept q s) : ∃ t, execTakeStart id take first last bad s = .next t ∧ Kept q t := by
  unfold execTakeStart
  refine ⟨_, rfl, ?_⟩
  repeat' first
    | with_reducible assumption | intro _ | with_reducible apply State.arrive_kept | with_reducible apply State.judge_kept
    | with_reducible apply State.judgeTake_kept

theorem State.stopTake_kept {q : List Instr} (s : State) (id : Cid) (t : Take) (h : Kept q s) : Kept q (State.stopTake s id t) := by
  unfold State.stopTake
  repeat' first
    | with_reducible assumption | (extract_lets +onlyGivenNames x; unfold x; clear x) | with_reducible apply State.setTake_kept
    | with_reducible apply State.closeCapture_kept | with_reducible apply State.ingestStopCheck_kept | with_reducible apply kept_ite

theorem State.askStopTake_kept {q : List Instr} (s : State) (local' : Bool) (id : Cid) (take : Nat) (h : Kept q s) : Kept q
    (State.askStopTake s local' id take) := by
  unfold State.askStopTake
  repeat' first
    | with_reducible assumption | with_reducible apply State.vendor_kept | with_reducible apply State.fail_kept
    | with_reducible apply State.relay_kept | with_reducible apply State.stopTake_kept | with_reducible apply kept_ite | split

theorem execTakeStop_kept {q : List Instr} (id : Cid) (take : Nat) (bad : Bool) (s : State)
    (h : Kept q s) : ∃ t, execTakeStop id take bad s = .next t ∧ Kept q t := by
  unfold execTakeStop
  refine ⟨_, rfl, ?_⟩
  repeat' first
    | with_reducible assumption | intro _ | with_reducible apply State.arrive_kept | with_reducible apply State.judge_kept
    | with_reducible apply State.askStopTake_kept

theorem execFrameIndexRead_kept {q : List Instr} (id : Cid) (stream : Nat) (wait : Bool) (take : Nat) (first : Nat)
    (count : Nat) (bad : Bool) (short : Bool) (s : State) (h : Kept q s) : ∃ t, execFrameIndexRead id stream wait take first count bad short s = .next t ∧ Kept q t := by
  unfold execFrameIndexRead
  refine ⟨_, rfl, ?_⟩
  repeat' first
    | with_reducible assumption | intro _ | (extract_lets +onlyGivenNames x; unfold x; clear x) | with_reducible apply State.arrive_kept
    | with_reducible apply State.judge_kept | with_reducible apply State.ok_kept | with_reducible apply kept_ite
    | (with_reducible apply kept_parts; with_reducible assumption)

theorem execLedgerQuery_kept {q : List Instr} (id : Cid) (snap : Bool) (bad : Bool) (short : Bool) (s : State)
    (h : Kept q s) : ∃ t, execLedgerQuery id snap bad short s = .next t ∧ Kept q t := by
  unfold execLedgerQuery
  refine ⟨_, rfl, ?_⟩
  repeat' first
    | with_reducible assumption | intro _ | with_reducible apply State.arriveFree_kept | with_reducible apply State.judge_kept
    | with_reducible apply State.ok_kept | with_reducible apply State.draw_kept | with_reducible apply kept_ite

theorem execModeRequest_kept {q : List Instr} (id : Cid) (target : Nat) (bad : Bool) (s : State)
    (h : Kept q s) : ∃ t, execModeRequest id target bad s = .next t ∧ Kept q t := by
  unfold execModeRequest
  refine ⟨_, rfl, ?_⟩
  repeat' first
    | with_reducible assumption | intro _ | with_reducible apply State.arrive_kept | with_reducible apply State.judge_kept
    | with_reducible apply State.requestMode_kept

theorem execMailboxPost_kept {q : List Instr} (id : Cid) (words : List Nat) (doorbell : Nat) (bad : Bool) (short : Bool)
    (s : State) (h : Kept q s) : ∃ t, execMailboxPost id words doorbell bad short s = .next t ∧ Kept q t := by
  unfold execMailboxPost
  refine ⟨_, rfl, ?_⟩
  repeat' first
    | with_reducible assumption | intro _ | (extract_lets +onlyGivenNames x; unfold x; clear x)
    | with_reducible apply State.arriveFree_kept | with_reducible apply State.judge_kept | with_reducible apply State.crcuFeed_kept
    | with_reducible apply State.setQueue_kept | with_reducible apply State.ok_kept | with_reducible apply State.mbxUnknown_kept
    | with_reducible apply State.mbxRing_kept

theorem execSnapshotTrigger_kept {q : List Instr} (id : Cid) (ret : Bool) (rearm : Bool) (bad : Bool) (short : Bool) (s : State)
    (h : Kept q s) : ∃ t, execSnapshotTrigger id ret rearm bad short s = .next t ∧ Kept q t := by
  unfold execSnapshotTrigger
  refine ⟨_, rfl, ?_⟩
  repeat' first
    | with_reducible assumption | intro _ | (extract_lets +onlyGivenNames x; unfold x; clear x)
    | with_reducible apply State.arriveFree_kept | with_reducible apply State.judge_kept | with_reducible apply State.snapshot_kept
    | with_reducible apply State.set_kept | with_reducible apply State.ok_kept | with_reducible apply kept_ite

theorem State.resetAppends_kept {q : List Instr} (s : State) (nsid : Nat) (h : Kept q s) : Kept q (State.resetAppends s nsid) := by
  unfold State.resetAppends
  repeat' first
    | with_reducible assumption | intro _ | (extract_lets +onlyGivenNames x; unfold x; clear x)
    | with_reducible apply State.noteAppend_kept | with_reducible apply kept_foldl
    | (with_reducible apply kept_parts; with_reducible assumption)

theorem State.unmapNs_kept {q : List Instr} (s : State) (nsid : Nat) (h : Kept q s) : Kept q (State.unmapNs s nsid) := by
  unfold State.unmapNs
  repeat' first
    | with_reducible assumption | (extract_lets +onlyGivenNames x; unfold x; clear x) | with_reducible apply State.verAlter_kept
    | with_reducible apply State.dropLeaves_kept | with_reducible apply kept_ite | split

theorem State.nsNote_kept {q : List Instr} (s : State) (nsid : Nat) (h : Kept q s) : Kept q (State.nsNote s nsid) := by
  unfold State.nsNote
  repeat' first | (extract_lets +onlyGivenNames x; unfold x; clear x) | (with_reducible apply kept_parts; with_reducible assumption)

theorem State.manageNs_kept {q : List Instr} (s : State) (id : Cid) (sel : Nat) (nsid : Nat) (size : Nat) (fmt : Nat)
    (dps : Nat) (h : Kept q s) : Kept q (State.manageNs s id sel nsid size fmt dps) := by
  unfold State.manageNs
  repeat' first
    | with_reducible assumption | intro _ | (extract_lets +onlyGivenNames x; unfold x; clear x) | with_reducible apply State.fail_kept
    | with_reducible apply State.okRec_kept | with_reducible apply State.resetAppends_kept | with_reducible apply State.unmapNs_kept
    | with_reducible apply State.freeBandsNow_kept | with_reducible apply kept_ite | with_reducible apply kept_foldl
    | (with_reducible apply kept_nv; with_reducible assumption) | (with_reducible apply kept_nv; with_reducible apply State.nsNote_kept)
    | split

theorem State.askManageNs_kept {q : List Instr} (s : State) (local' : Bool) (id : Cid) (sel : Nat) (nsid : Nat) (size : Nat)
    (cap : Nat) (fmt : Nat) (dps : Nat) (h : Kept q s) : Kept q (State.askManageNs s local' id sel nsid size cap fmt dps) := by
  unfold State.askManageNs
  repeat' first
    | with_reducible assumption | intro _ | with_reducible apply State.judge_kept | with_reducible apply State.relay_kept
    | with_reducible apply State.manageNs_kept | with_reducible apply kept_ite

theorem execNamespaceManagement_kept {q : List Instr} (id : Cid) (sel : Nat) (nsid : Nat) (size : Nat) (cap : Nat) (fmt : Nat)
    (dps : Nat) (bad : Bool) (s : State) (h : Kept q s) : ∃ t, execNamespaceManagement id sel nsid size cap fmt dps bad s = .next t ∧ Kept q t := by
  unfold execNamespaceManagement
  refine ⟨_, rfl, ?_⟩
  repeat' first
    | with_reducible assumption | intro _ | with_reducible apply State.arrive_kept | with_reducible apply State.judge_kept
    | with_reducible apply State.askManageNs_kept

theorem State.attachNs_kept {q : List Instr} (s : State) (id : Cid) (sel : Nat) (nsid : Nat) (h : Kept q s) : Kept q
    (State.attachNs s id sel nsid) := by
  unfold State.attachNs
  repeat' first
    | with_reducible assumption | (extract_lets +onlyGivenNames x; unfold x; clear x) | with_reducible apply State.fail_kept
    | with_reducible apply State.ok_kept | with_reducible apply State.nsNote_kept | with_reducible apply kept_ite
    | (with_reducible apply kept_nv; with_reducible assumption) | split

theorem State.askAttachNs_kept {q : List Instr} (s : State) (local' : Bool) (id : Cid) (sel : Nat) (nsid : Nat)
    (h : Kept q s) : Kept q (State.askAttachNs s local' id sel nsid) := by
  unfold State.askAttachNs
  repeat' first
    | with_reducible assumption | with_reducible apply State.fail_kept | with_reducible apply State.relay_kept
    | with_reducible apply State.attachNs_kept | with_reducible apply kept_ite

theorem execNamespaceAttachment_kept {q : List Instr} (id : Cid) (sel : Nat) (nsid : Nat) (bad : Bool) (s : State)
    (h : Kept q s) : ∃ t, execNamespaceAttachment id sel nsid bad s = .next t ∧ Kept q t := by
  unfold execNamespaceAttachment
  refine ⟨_, rfl, ?_⟩
  repeat' first
    | with_reducible assumption | intro _ | with_reducible apply State.arrive_kept | with_reducible apply State.judge_kept
    | with_reducible apply State.askAttachNs_kept

theorem State.cryptoErase_kept {q : List Instr} (s : State) (h : Kept q s) : Kept q (State.cryptoErase s) := by
  unfold State.cryptoErase
  repeat' first
    | with_reducible assumption | intro _
    | (extract_lets +onlyGivenNames x; with_reducible refine kept_imp (q := q) x ?_ ?_; unfold x; clear x; rotate_left; intro _; clear_value x; revert x; intros; rotate_right)
    | (extract_lets +onlyGivenNames x; unfold x; clear x) | with_reducible apply State.resetAppends_kept
    | with_reducible apply State.unmapNs_kept | with_reducible apply kept_foldl
    | (with_reducible apply kept_parts; with_reducible assumption) | (with_reducible apply kept_nv; with_reducible assumption)

theorem State.leaveVoid_kept {q : List Instr} (s : State) (h : Kept q s) : Kept q (State.leaveVoid s) := by
  unfold State.leaveVoid
  repeat' first
    | with_reducible assumption | (extract_lets +onlyGivenNames x; unfold x; clear x) | with_reducible apply State.setSec_kept
    | with_reducible apply kept_ite | (with_reducible apply kept_nv; with_reducible assumption)

theorem State.formatNs_kept {q : List Instr} (s : State) (id : Cid) (nsid : Nat) (fmt : Nat) (ses : Nat) (pi : Nat)
    (h : Kept q s) : Kept q (State.formatNs s id nsid fmt ses pi) := by
  unfold State.formatNs
  repeat' first
    | with_reducible assumption | intro _
    | (extract_lets +onlyGivenNames x; with_reducible refine kept_imp (q := q) x ?_ ?_; unfold x; clear x; rotate_left; intro _; clear_value x; revert x; intros; rotate_right)
    | (extract_lets +onlyGivenNames x; unfold x; clear x) | with_reducible apply State.dropTest_kept
    | with_reducible apply State.leaveVoid_kept | with_reducible apply State.cryptoErase_kept
    | with_reducible apply State.resetAppends_kept | with_reducible apply State.unmapNs_kept | with_reducible apply State.nsNote_kept
    | with_reducible apply State.okRec_kept | with_reducible apply State.freeBandsNow_kept | with_reducible apply kept_ite
    | with_reducible apply kept_foldl | (with_reducible apply kept_nv; with_reducible assumption) | split

theorem State.askFormat_kept {q : List Instr} (s : State) (local' : Bool) (id : Cid) (nsid : Nat) (fmt : Nat) (ses : Nat)
    (pi : Nat) (h : Kept q s) : Kept q (State.askFormat s local' id nsid fmt ses pi) := by
  unfold State.askFormat
  repeat' first
    | with_reducible assumption | with_reducible apply State.fail_kept | with_reducible apply State.relay_kept
    | with_reducible apply State.formatNs_kept | with_reducible apply kept_ite

theorem execFormatNvm_kept {q : List Instr} (id : Cid) (nsid : Nat) (lbaf : Nat) (ses : Nat) (pi : Nat) (first : Bool)
    (bad : Bool) (s : State) (h : Kept q s) : ∃ t, execFormatNvm id nsid lbaf ses pi first bad s = .next t ∧ Kept q t := by
  unfold execFormatNvm
  refine ⟨_, rfl, ?_⟩
  repeat' first
    | with_reducible assumption | intro _ | with_reducible apply State.arrive_kept | with_reducible apply State.judge_kept
    | with_reducible apply State.askFormat_kept

theorem State.eraseBands_kept {q : List Instr} (s : State) (h : Kept q s) : Kept q (State.eraseBands s) := by
  unfold State.eraseBands
  repeat' first
    | with_reducible assumption | intro _
    | (extract_lets +onlyGivenNames x; with_reducible refine kept_imp (q := q) x ?_ ?_; unfold x; clear x; rotate_left; intro _; clear_value x; revert x; intros; rotate_right)
    | (extract_lets +onlyGivenNames x; unfold x; clear x) | with_reducible apply State.forceNote_kept
    | with_reducible apply State.askErase_kept | with_reducible apply State.freeSeals_kept | with_reducible apply kept_foldl
    | (with_reducible apply kept_parts; with_reducible assumption) | (with_reducible apply kept_nv; with_reducible assumption)

theorem State.sanitize_kept {q : List Instr} (s : State) (id : Cid) (act : Nat) (cdw10 : Nat) (h : Kept q s) : Kept q
    (State.sanitize s id act cdw10) := by
  unfold State.sanitize
  repeat' first
    | with_reducible assumption | (extract_lets +onlyGivenNames x; unfold x; clear x) | with_reducible apply State.ok_kept
    | with_reducible apply State.cryptoErase_kept | with_reducible apply State.dropTest_kept | with_reducible apply State.okRec_kept
    | with_reducible apply State.eraseBands_kept | with_reducible apply State.aen_kept | with_reducible apply State.raise_kept
    | with_reducible apply State.freeBandsNow_kept | with_reducible apply kept_ite
    | (with_reducible apply kept_nv; with_reducible apply State.leaveVoid_kept)
    | (with_reducible apply kept_nv; with_reducible apply State.eraseBands_kept)

theorem State.askSanitize_kept {q : List Instr} (s : State) (local' : Bool) (id : Cid) (act : Nat) (cdw10 : Nat)
    (h : Kept q s) : Kept q (State.askSanitize s local' id act cdw10) := by
  unfold State.askSanitize
  repeat' first
    | with_reducible assumption | with_reducible apply State.fail_kept | with_reducible apply State.relay_kept
    | with_reducible apply State.sanitize_kept | with_reducible apply kept_ite

theorem execSanitize_kept {q : List Instr} (id : Cid) (act : Nat) (cdw10 : Nat) (bad : Bool) (s : State)
    (h : Kept q s) : ∃ t, execSanitize id act cdw10 bad s = .next t ∧ Kept q t := by
  unfold execSanitize
  refine ⟨_, rfl, ?_⟩
  repeat' first
    | with_reducible assumption | intro _ | with_reducible apply State.arrive_kept | with_reducible apply State.judge_kept
    | with_reducible apply State.askSanitize_kept

theorem execDeviceSelfTest_kept {q : List Instr} (id : Cid) (nsid : Nat) (stc : Nat) (s : State)
    (h : Kept q s) : ∃ t, execDeviceSelfTest id nsid stc s = .next t ∧ Kept q t := by
  unfold execDeviceSelfTest
  refine ⟨_, rfl, ?_⟩
  repeat' first
    | with_reducible assumption | intro _ | with_reducible apply State.arrive_kept | with_reducible apply State.judge_kept
    | with_reducible apply State.ok_kept | with_reducible apply State.dropTest_kept | with_reducible apply kept_ite
    | (with_reducible apply kept_parts; with_reducible assumption)

end Sys2Proof.Machine
end

