-- ==== Sys2Proof/Laws/KeptPeers.lean ====
section
/-!
SUPPORT. One lemma for each operation and each command of DRAM, security, the pair link and the dock: it keeps the byte memories' form and the queue; a command answers a
next state.
-/

namespace Sys2Proof.Machine

/-! ### Dram.lean -/

theorem State.sweepEnd_kept {q : List Instr} (s : State) (h : Kept q s) : Kept q (State.sweepEnd s) := by
  unfold State.sweepEnd
  repeat' first
    | with_reducible assumption | with_reducible apply State.raise_kept | with_reducible apply State.set_kept
    | with_reducible apply kept_ite

theorem State.sweepOn_kept {q : List Instr} (x0 : Nat) (x1 : State) (h : Kept q x1) : Kept q (State.sweepOn x0 x1) := by
  induction x0 generalizing x1 with
  | zero => unfold State.sweepOn; assumption
  | succ n ih =>
  unfold State.sweepOn
  repeat' first
    | with_reducible assumption | (extract_lets +onlyGivenNames x; unfold x; clear x) | with_reducible apply ih
    | with_reducible apply kept_ite | (with_reducible apply kept_dram; with_reducible assumption)

theorem State.touchRegion_kept {q : List Instr} (s : State) (l : Nat) (h : Kept q s) : Kept q (State.touchRegion s l) := by
  unfold State.touchRegion
  repeat' first
    | with_reducible assumption | (extract_lets +onlyGivenNames x; unfold x; clear x) | with_reducible apply State.sweepEnd_kept
    | with_reducible apply State.sweepOn_kept | with_reducible apply kept_ite
    | (with_reducible apply kept_dram; with_reducible assumption)

theorem execDramInitSweep_kept {q : List Instr} (s : State) (h : Kept q s) : ∃ t, execDramInitSweep s = .next t ∧ Kept q t := by
  unfold execDramInitSweep
  refine ⟨_, rfl, ?_⟩
  repeat' first
    | with_reducible assumption | (extract_lets +onlyGivenNames x; unfold x; clear x) | with_reducible apply State.sweepEnd_kept
    | with_reducible apply State.sweepOn_kept | with_reducible apply kept_ite
    | (with_reducible apply kept_dram; with_reducible assumption)

theorem State.dropReadCache_kept {q : List Instr} (s : State) (h : Kept q s) : Kept q (State.dropReadCache s) := by
  unfold State.dropReadCache
  repeat' first
    | (extract_lets +onlyGivenNames x; unfold x; clear x) | with_reducible apply State.set_kept | with_reducible apply kept_ite
    | (with_reducible refine kept_mem ?_ ?_; with_reducible apply Memory.filter_wf; rotate_left; with_reducible assumption)
    | exact Kept.mem (q := q) (by with_reducible assumption)

theorem State.touchRow_kept {q : List Instr} (s : State) (client : Nat) (l : Nat) (h : Kept q s) : Kept q (State.touchRow s client l) := by
  unfold State.touchRow
  repeat' first | (extract_lets +onlyGivenNames x; unfold x; clear x) | (with_reducible apply kept_dram; with_reducible assumption)

theorem execPageIdleTimeout_kept {q : List Instr} (chan : Nat) (bank : Nat) (s : State)
    (h : Kept q s) : ∃ t, execPageIdleTimeout chan bank s = .next t ∧ Kept q t := by
  unfold execPageIdleTimeout
  refine ⟨_, rfl, ?_⟩
  repeat' first | (extract_lets +onlyGivenNames x; unfold x; clear x) | (with_reducible apply kept_dram; with_reducible assumption)

theorem State.dramErr_kept {q : List Instr} (s : State) (kind : Nat) (client : Nat) (addr : Nat) (h : Kept q s) : Kept q
    (State.dramErr s kind client addr) := by
  unfold State.dramErr
  repeat' first | with_reducible assumption | with_reducible apply State.set_kept

theorem State.badAddr_kept {q : List Instr} (s : State) (client : Nat) (addr : Nat) (h : Kept q s) : Kept q
    (State.badAddr s client addr) := by
  unfold State.badAddr
  repeat' first | with_reducible assumption | with_reducible apply State.raise_kept | with_reducible apply State.dramErr_kept

theorem State.poisoned_kept {q : List Instr} (s : State) (client : Nat) (addr : Nat) (h : Kept q s) : Kept q
    (State.poisoned s client addr) := by
  unfold State.poisoned
  repeat' first
    | with_reducible assumption | (extract_lets +onlyGivenNames x; unfold x; clear x) | with_reducible apply State.integrity_kept
    | with_reducible apply State.quarantine_kept | with_reducible apply kept_ite
    | (with_reducible apply kept_dram; with_reducible apply State.integrity_kept)

theorem State.acceptWrites_kept {q : List Instr} (s : State) (h : Kept q s) : Kept q (State.acceptWrites s) := by
  unfold State.acceptWrites
  repeat' first
    | with_reducible assumption | intro _ | (extract_lets +onlyGivenNames x; unfold x; clear x) | with_reducible apply kept_ite
    | with_reducible apply kept_foldl | (with_reducible apply kept_dram; with_reducible assumption)

theorem execDramWrite_kept {q : List Instr} (client : Nat) (addr : Nat) (data : List Nat) (poison : Bool) (s : State)
    (h : Kept q s) : ∃ t, execDramWrite client addr data poison s = .next t ∧ Kept q t := by
  unfold execDramWrite
  refine ⟨_, rfl, ?_⟩
  repeat' first
    | with_reducible assumption | (extract_lets +onlyGivenNames x; unfold x; clear x) | with_reducible apply State.badAddr_kept
    | with_reducible apply State.acceptWrites_kept | with_reducible apply kept_ite
    | (with_reducible apply kept_dram; with_reducible apply State.touchRegion_kept)

theorem State.dramReadErr_kept {q : List Instr} (s : State) (client : Nat) (addr : Nat) (err : Nat) (bad : Bool)
    (h : Kept q s) : Kept q (State.dramReadErr s client addr err bad) := by
  unfold State.dramReadErr
  repeat' first
    | with_reducible assumption | (extract_lets +onlyGivenNames x; unfold x; clear x) | with_reducible apply State.poisoned_kept
    | with_reducible apply State.raise_kept | with_reducible apply State.dramErr_kept | with_reducible apply State.incPart_kept
    | with_reducible apply kept_ite

theorem State.dramRead_kept {q : List Instr} (s : State) (client : Nat) (addr : Nat) (n : Nat) (err : Nat)
    (h : Kept q s) : Kept q (State.dramRead s client addr n err) := by
  unfold State.dramRead
  repeat' first
    | with_reducible assumption | (extract_lets +onlyGivenNames x; unfold x; clear x) | with_reducible apply State.badAddr_kept
    | with_reducible apply State.addWrap_kept | with_reducible apply State.dramReadErr_kept | with_reducible apply State.touchRow_kept
    | with_reducible apply kept_ite | (with_reducible apply kept_dram; with_reducible assumption)
    | (with_reducible apply kept_dram; with_reducible apply State.touchRegion_kept)

theorem execDramRead_kept {q : List Instr} (client : Nat) (addr : Nat) (n : Nat) (err : Nat) (s : State)
    (h : Kept q s) : ∃ t, execDramRead client addr n err s = .next t ∧ Kept q t := by
  unfold execDramRead
  refine ⟨_, rfl, ?_⟩
  repeat' first | with_reducible assumption | with_reducible apply State.dramRead_kept | with_reducible apply kept_ite

theorem execDramWriteIssued_kept {q : List Instr} (n : Nat) (s : State)
    (h : Kept q s) : ∃ t, execDramWriteIssued n s = .next t ∧ Kept q t := by
  unfold execDramWriteIssued
  refine ⟨_, rfl, ?_⟩
  repeat' first
    | with_reducible assumption | (extract_lets +onlyGivenNames x; unfold x; clear x) | with_reducible apply State.acceptWrites_kept
    | with_reducible apply State.addWrap_kept | with_reducible apply State.touchRow_kept | with_reducible apply kept_ite
    | (with_reducible refine kept_mem ?_ ?_; with_reducible apply Memory.writeBytes_wf; rotate_left; with_reducible assumption)
    | exact Kept.mem (q := q) (by with_reducible assumption) | split

theorem execDramRefreshWindow_kept {q : List Instr} (chan : Nat) (s : State)
    (h : Kept q s) : ∃ t, execDramRefreshWindow chan s = .next t ∧ Kept q t := by
  unfold execDramRefreshWindow
  refine ⟨_, rfl, ?_⟩
  repeat' first
    | with_reducible assumption
    | (extract_lets +onlyGivenNames x; with_reducible refine kept_imp (q := q) x ?_ ?_; unfold x; clear x; rotate_left; intro _; clear_value x; revert x; intros; rotate_right)
    | (extract_lets +onlyGivenNames x; unfold x; clear x) | with_reducible apply State.adoptPage_kept | with_reducible apply kept_ite
    | (with_reducible apply kept_dram; with_reducible assumption)

theorem execMr4Poll_kept {q : List Instr} (rates : List Nat) (s : State) (h : Kept q s) : ∃ t, execMr4Poll rates s = .next t ∧ Kept q t := by
  unfold execMr4Poll
  refine ⟨_, rfl, ?_⟩
  repeat' first
    | with_reducible assumption | intro _ | (extract_lets +onlyGivenNames x; unfold x; clear x) | with_reducible apply State.setPart_kept
    | with_reducible apply State.raise_kept | with_reducible apply State.inc_kept | with_reducible apply kept_ite
    | with_reducible apply kept_foldl

theorem execPeriodicTraining_kept {q : List Instr} (chan : Nat) (driftPs : Nat) (s : State)
    (h : Kept q s) : ∃ t, execPeriodicTraining chan driftPs s = .next t ∧ Kept q t := by
  unfold execPeriodicTraining
  refine ⟨_, rfl, ?_⟩
  repeat' first | with_reducible assumption | with_reducible apply State.raiseIf_kept | with_reducible apply kept_ite

theorem execDramPatrol_kept {q : List Instr} (err : Nat) (s : State) (h : Kept q s) : ∃ t, execDramPatrol err s = .next t ∧ Kept q t := by
  unfold execDramPatrol
  refine ⟨_, rfl, ?_⟩
  repeat' first
    | with_reducible assumption
    | (extract_lets +onlyGivenNames x; with_reducible refine kept_imp (q := q) x ?_ ?_; unfold x; clear x; rotate_left; intro _; clear_value x; revert x; intros; rotate_right)
    | (extract_lets +onlyGivenNames x; unfold x; clear x) | with_reducible apply State.dramRead_kept
    | with_reducible apply State.addSat_kept | with_reducible apply kept_ite | (with_reducible apply kept_dram; with_reducible assumption)

theorem execDramcClr_kept {q : List Instr} (who : Req) (s : State) (h : Kept q s) : ∃ t, execDramcClr who s = .next t ∧ Kept q t := by
  unfold execDramcClr
  refine ⟨_, rfl, ?_⟩
  repeat' first | with_reducible assumption | intro _ | with_reducible apply State.rwAction_kept | with_reducible apply State.clear_kept


/-! ### Sec.lean -/

theorem State.toSec_kept {q : List Instr} (s : State) (v : Nat) (h : Kept q s) : Kept q (State.toSec s v) := by
  unfold State.toSec
  repeat' first
    | with_reducible assumption | (extract_lets +onlyGivenNames x; unfold x; clear x) | with_reducible apply State.setSec_kept
    | with_reducible apply State.pairLeave_kept | with_reducible apply State.setReady_kept | with_reducible apply State.pairLinkDown_kept
    | with_reducible apply kept_ite | (with_reducible apply kept_nv; with_reducible assumption)

theorem State.lockTo_kept {q : List Instr} (s : State) (v : Nat) (id : Option Cid) (h : Kept q s) : Kept q (State.lockTo s v id) := by
  unfold State.lockTo
  repeat' first | (extract_lets +onlyGivenNames x; unfold x; clear x) | (with_reducible apply kept_parts; with_reducible assumption)

theorem execKeyZeroise_kept {q : List Instr} (s : State) (h : Kept q s) : ∃ t, execKeyZeroise s = .next t ∧ Kept q t := by
  unfold execKeyZeroise
  refine ⟨_, rfl, ?_⟩
  repeat' first
    | with_reducible assumption | (extract_lets +onlyGivenNames x; unfold x; clear x) | with_reducible apply State.dropReadCache_kept
    | with_reducible apply State.toSec_kept | with_reducible apply State.ok_kept | with_reducible apply kept_ite
    | (with_reducible apply kept_parts; with_reducible assumption) | split

theorem State.credReject_kept {q : List Instr} (s : State) (id : Cid) (left : Nat) (h : Kept q s) : Kept q (State.credReject s id left) := by
  unfold State.credReject
  repeat' first
    | (extract_lets +onlyGivenNames x; unfold x; clear x) | with_reducible apply State.raise_kept | with_reducible apply State.inc_kept
    | (with_reducible apply kept_parts; with_reducible assumption)

theorem State.tryOwner_kept {q : List Instr} (s : State) (id : Cid) (secret : Nat) (f : State → State) (h : Kept q s)
    (h3 : ∀ y0, Kept q y0 → Kept q (f y0)) : Kept q (State.tryOwner s id secret f) := by
  unfold State.tryOwner
  repeat' first
    | with_reducible assumption | (extract_lets +onlyGivenNames x; unfold x; clear x) | with_reducible apply State.vendor_kept
    | with_reducible apply State.showSec_kept | with_reducible apply State.credReject_kept | with_reducible apply h3
    | with_reducible apply kept_ite | (with_reducible apply kept_nv; with_reducible assumption)

theorem State.tryRecovery_kept {q : List Instr} (s : State) (id : Cid) (key : Nat) (f : State → State) (h : Kept q s)
    (h3 : ∀ y0, Kept q y0 → Kept q (f y0)) : Kept q (State.tryRecovery s id key f) := by
  unfold State.tryRecovery
  repeat' first
    | (extract_lets +onlyGivenNames x; unfold x; clear x) | with_reducible apply State.showSec_kept
    | with_reducible apply State.credReject_kept | with_reducible apply State.toSec_kept | with_reducible apply h3
    | with_reducible apply kept_ite | (with_reducible apply kept_nv; with_reducible assumption)

theorem execCredentialRejectionDelay_kept {q : List Instr} (id : Cid) (s : State)
    (h : Kept q s) : ∃ t, execCredentialRejectionDelay id s = .next t ∧ Kept q t := by
  unfold execCredentialRejectionDelay
  refine ⟨_, rfl, ?_⟩
  repeat' first
    | with_reducible assumption | (extract_lets +onlyGivenNames x; unfold x; clear x) | with_reducible apply State.vendor_kept
    | (with_reducible apply kept_parts; with_reducible assumption) | split

theorem State.setPolicy_kept {q : List Instr} (s : State) (ok : Bool) (hours : Nat) (h : Kept q s) : Kept q (State.setPolicy s ok hours) := by
  unfold State.setPolicy
  repeat' first
    | (extract_lets +onlyGivenNames x; unfold x; clear x) | with_reducible apply State.showSec_kept
    | (with_reducible apply kept_nv; with_reducible assumption)

theorem State.ownerLock_kept {q : List Instr} (s : State) (id : Cid) (ok : Bool) (hours : Nat) (b : List Nat)
    (h : Kept q s) : Kept q (State.ownerLock s id ok hours b) := by
  unfold State.ownerLock
  repeat' first
    | with_reducible assumption | intro _ | (extract_lets +onlyGivenNames x; unfold x; clear x) | with_reducible apply State.lockTo_kept
    | with_reducible apply State.setPolicy_kept | with_reducible apply State.tryOwner_kept | with_reducible apply State.vendor_kept
    | (with_reducible apply kept_nv; with_reducible assumption) | split

theorem execOwnerLock_kept {q : List Instr} (id : Cid) (carryOk : Bool) (hours : Nat) (cred : List Nat) (bad : Bool)
    (short : Bool) (s : State) (h : Kept q s) : ∃ t, execOwnerLock id carryOk hours cred bad short s = .next t ∧ Kept q t := by
  unfold execOwnerLock
  refine ⟨_, rfl, ?_⟩
  repeat' first
    | with_reducible assumption | intro _ | with_reducible apply State.arrive_kept | with_reducible apply State.judge_kept
    | with_reducible apply State.ownerLock_kept

theorem State.armCarry_kept {q : List Instr} (s : State) (h : Kept q s) : Kept q (State.armCarry s) := by
  unfold State.armCarry
  repeat' first
    | (extract_lets +onlyGivenNames x; unfold x; clear x) | with_reducible apply State.draw_kept | with_reducible apply State.set_kept
    | (with_reducible apply kept_nv; with_reducible assumption)

theorem State.ownerUnlock_kept {q : List Instr} (s : State) (id : Cid) (arm : Bool) (b : List Nat) (h : Kept q s) : Kept q
    (State.ownerUnlock s id arm b) := by
  unfold State.ownerUnlock
  repeat' first
    | with_reducible assumption | intro _ | (extract_lets +onlyGivenNames x; unfold x; clear x) | with_reducible apply State.armCarry_kept
    | with_reducible apply State.tryOwner_kept | with_reducible apply State.ok_kept | with_reducible apply State.toSec_kept
    | with_reducible apply State.tryRecovery_kept | with_reducible apply State.disarm_kept | with_reducible apply State.vendor_kept
    | with_reducible apply kept_ite | (with_reducible apply kept_nv; with_reducible assumption) | split

theorem execOwnerUnlock_kept {q : List Instr} (id : Cid) (arm : Bool) (cred : List Nat) (bad : Bool) (short : Bool) (s : State)
    (h : Kept q s) : ∃ t, execOwnerUnlock id arm cred bad short s = .next t ∧ Kept q t := by
  unfold execOwnerUnlock
  refine ⟨_, rfl, ?_⟩
  repeat' first
    | with_reducible assumption | intro _ | with_reducible apply State.arrive_kept | with_reducible apply State.judge_kept
    | with_reducible apply State.ownerUnlock_kept

theorem execCarryExpired_kept {q : List Instr} (s : State) (h : Kept q s) : ∃ t, execCarryExpired s = .next t ∧ Kept q t := by
  unfold execCarryExpired
  refine ⟨_, rfl, ?_⟩
  repeat' first
    | with_reducible assumption | (extract_lets +onlyGivenNames x; unfold x; clear x) | with_reducible apply kept_ite
    | (with_reducible apply kept_parts; with_reducible assumption)

theorem State.tamperAct_kept {q : List Instr} (s : State) (action : Nat) (h : Kept q s) : Kept q (State.tamperAct s action) := by
  unfold State.tamperAct
  repeat' first
    | with_reducible assumption | with_reducible apply State.toSec_kept | with_reducible apply State.lockTo_kept
    | with_reducible apply State.quarantine_kept | with_reducible apply kept_ite | split

theorem State.showTamper_kept {q : List Instr} (s : State) (h : Kept q s) : Kept q (State.showTamper s) := by
  unfold State.showTamper
  repeat' first | with_reducible assumption | with_reducible apply State.raise_kept | with_reducible apply State.set_kept

theorem execTamperN_kept {q : List Instr} (low : Bool) (s : State) (h : Kept q s) : ∃ t, execTamperN low s = .next t ∧ Kept q t := by
  unfold execTamperN
  refine ⟨_, rfl, ?_⟩
  repeat' first
    | with_reducible assumption
    | (extract_lets +onlyGivenNames x; with_reducible refine kept_imp (q := q) x ?_ ?_; unfold x; clear x; rotate_left; intro _; clear_value x; revert x; intros; rotate_right)
    | (extract_lets +onlyGivenNames x; unfold x; clear x) | with_reducible apply State.disarm_kept
    | with_reducible apply State.tamperAct_kept | with_reducible apply State.showTamper_kept | with_reducible apply kept_ite
    | (with_reducible apply kept_parts; with_reducible assumption) | (with_reducible apply kept_nv; with_reducible assumption)

theorem execSecClr_kept {q : List Instr} (who : Req) (s : State) (h : Kept q s) : ∃ t, execSecClr who s = .next t ∧ Kept q t := by
  unfold execSecClr
  refine ⟨_, rfl, ?_⟩
  repeat' first | with_reducible assumption | intro _ | with_reducible apply State.rwAction_kept | with_reducible apply State.clear_kept

theorem execNewChal_kept {q : List Instr} (who : Req) (s : State) (h : Kept q s) : ∃ t, execNewChal who s = .next t ∧ Kept q t := by
  unfold execNewChal
  refine ⟨_, rfl, ?_⟩
  repeat' first
    | with_reducible assumption | intro _ | (extract_lets +onlyGivenNames x; unfold x; clear x) | with_reducible apply State.rwAction_kept
    | with_reducible apply State.draw_kept | with_reducible apply State.set_kept | with_reducible apply kept_ite
    | with_reducible apply kept_foldl

theorem execDbgSubmit_kept {q : List Instr} (who : Req) (s : State) (h : Kept q s) : ∃ t, execDbgSubmit who s = .next t ∧ Kept q t := by
  unfold execDbgSubmit
  refine ⟨_, rfl, ?_⟩
  repeat' first
    | with_reducible assumption | intro _ | (extract_lets +onlyGivenNames x; unfold x; clear x) | with_reducible apply State.rwAction_kept
    | with_reducible apply State.set_kept | with_reducible apply State.setLevel_kept | with_reducible apply State.raise_kept
    | with_reducible apply State.inc_kept | with_reducible apply kept_ite
    | (with_reducible apply kept_parts; with_reducible apply State.set_kept)

theorem execDbgDrop_kept {q : List Instr} (who : Req) (s : State) (h : Kept q s) : ∃ t, execDbgDrop who s = .next t ∧ Kept q t := by
  unfold execDbgDrop
  refine ⟨_, rfl, ?_⟩
  repeat' first | with_reducible assumption | intro _ | with_reducible apply State.rwAction_kept | with_reducible apply State.toD0_kept

theorem execDebugLifetimeExpired_kept {q : List Instr} (s : State) (h : Kept q s) : ∃ t, execDebugLifetimeExpired s = .next t ∧ Kept q t := by
  unfold execDebugLifetimeExpired
  refine ⟨_, rfl, ?_⟩
  repeat' first
    | with_reducible assumption | with_reducible apply State.raise_kept | with_reducible apply State.toD0_kept
    | with_reducible apply kept_ite

theorem execChallengeExpired_kept {q : List Instr} (s : State) (h : Kept q s) : ∃ t, execChallengeExpired s = .next t ∧ Kept q t := by
  unfold execChallengeExpired
  refine ⟨_, rfl, ?_⟩
  repeat' first | with_reducible assumption | with_reducible apply State.set_kept


/-! ### Pair.lean -/

theorem State.runHere_kept {q : List Instr} (s : State) (id : Cid) (cmd : Nat) (args : List Nat) (h : Kept q s) : Kept q
    (State.runHere s id cmd args) := by
  unfold State.runHere
  repeat' first
    | with_reducible assumption | (extract_lets +onlyGivenNames x; unfold x; clear x) | with_reducible apply State.startTake_kept
    | with_reducible apply State.askStopTake_kept | with_reducible apply State.askFormat_kept
    | with_reducible apply State.askSanitize_kept | with_reducible apply State.askManageNs_kept
    | with_reducible apply State.askAttachNs_kept | with_reducible apply State.holdMode_kept | with_reducible apply State.runMode_kept
    | with_reducible apply kept_ite

theorem execRelay_kept {q : List Instr} (n : Nat) (cmd : Nat) (args : List Nat) (s : State)
    (h : Kept q s) : ∃ t, execRelay n cmd args s = .next t ∧ Kept q t := by
  unfold execRelay
  refine ⟨_, rfl, ?_⟩
  repeat' first
    | with_reducible assumption | intro _ | (extract_lets +onlyGivenNames x; unfold x; clear x)
    | with_reducible apply State.requestMode_kept | with_reducible apply State.judge_kept | with_reducible apply State.runHere_kept
    | with_reducible apply kept_ite

theorem execRelayDone_kept {q : List Instr} (n : Nat) (sct : Nat) (sc : Nat) (s : State)
    (h : Kept q s) : ∃ t, execRelayDone n sct sc s = .next t ∧ Kept q t := by
  unfold execRelayDone
  refine ⟨_, rfl, ?_⟩
  repeat' first
    | with_reducible assumption | (extract_lets +onlyGivenNames x; unfold x; clear x) | with_reducible apply State.runHere_kept
    | with_reducible apply State.complete_kept | with_reducible apply State.modeRefused_kept | with_reducible apply State.denyMode_kept
    | with_reducible apply kept_ite | (with_reducible apply kept_parts; with_reducible assumption) | split

theorem State.mirrorEnds_kept {q : List Instr} (s : State) (pstate : Nat) (h : Kept q s) : Kept q (State.mirrorEnds s pstate) := by
  unfold State.mirrorEnds
  repeat' first
    | with_reducible assumption | intro _ | (extract_lets +onlyGivenNames x; unfold x; clear x)
    | with_reducible apply State.setPstate_kept | with_reducible apply State.release_kept | with_reducible apply State.dropReqs_kept
    | with_reducible apply State.runHere_kept | with_reducible apply State.markSegs_kept | with_reducible apply kept_foldl
    | (with_reducible apply kept_parts; with_reducible apply State.releaseHeld_kept)

theorem State.pairLoss_kept {q : List Instr} (s : State) (cause : Nat) (h : Kept q s) : Kept q (State.pairLoss s cause) := by
  unfold State.pairLoss
  repeat' first
    | with_reducible assumption | (extract_lets +onlyGivenNames x; unfold x; clear x) | with_reducible apply State.takeDown_kept
    | with_reducible apply State.raise_kept | with_reducible apply State.inc_kept | with_reducible apply State.mirrorEnds_kept
    | with_reducible apply State.draw_kept | with_reducible apply State.set_kept | with_reducible apply kept_ite
    | (with_reducible apply kept_parts; with_reducible apply State.raise_kept)

theorem execMirrorStallTimeout_kept {q : List Instr} (s : State) (h : Kept q s) : ∃ t, execMirrorStallTimeout s = .next t ∧ Kept q t := by
  unfold execMirrorStallTimeout
  refine ⟨_, rfl, ?_⟩
  repeat' first | with_reducible assumption | with_reducible apply State.pairLoss_kept | with_reducible apply kept_ite

theorem execPairStallWarning_kept {q : List Instr} (s : State) (h : Kept q s) : ∃ t, execPairStallWarning s = .next t ∧ Kept q t := by
  unfold execPairStallWarning
  refine ⟨_, rfl, ?_⟩
  repeat' first | with_reducible assumption | with_reducible apply State.raise_kept | with_reducible apply kept_ite

theorem execPrDetNHigh_kept {q : List Instr} (s : State) (h : Kept q s) : ∃ t, execPrDetNHigh s = .next t ∧ Kept q t := by
  unfold execPrDetNHigh
  refine ⟨_, rfl, ?_⟩
  repeat' first
    | (extract_lets +onlyGivenNames x; unfold x; clear x) | with_reducible apply State.pairLoss_kept
    | with_reducible apply State.takeDown_kept | with_reducible apply State.set_kept | with_reducible apply State.setPstate_kept
    | with_reducible apply kept_ite | (with_reducible apply kept_parts; with_reducible assumption)

theorem execPrDetNLow_kept {q : List Instr} (s : State) (h : Kept q s) : ∃ t, execPrDetNLow s = .next t ∧ Kept q t := by
  unfold execPrDetNLow
  refine ⟨_, rfl, ?_⟩
  repeat' first
    | (extract_lets +onlyGivenNames x; unfold x; clear x) | with_reducible apply State.setPstate_kept
    | with_reducible apply State.startPair_kept | with_reducible apply kept_ite
    | (with_reducible apply kept_parts; with_reducible assumption)

theorem execPeerSeal_kept {q : List Instr} (s : State) (h : Kept q s) : ∃ t, execPeerSeal s = .next t ∧ Kept q t := by
  unfold execPeerSeal
  refine ⟨_, rfl, ?_⟩
  repeat' first
    | with_reducible assumption | with_reducible apply State.pairLoss_kept | with_reducible apply State.raise_kept
    | with_reducible apply kept_ite

theorem execLeave_kept {q : List Instr} (planned : Bool) (s : State) (h : Kept q s) : ∃ t, execLeave planned s = .next t ∧ Kept q t := by
  unfold execLeave
  refine ⟨_, rfl, ?_⟩
  repeat' first
    | with_reducible assumption | (extract_lets +onlyGivenNames x; unfold x; clear x) | with_reducible apply State.releaseHeld_kept
    | with_reducible apply State.release_kept | with_reducible apply State.pairLinkDown_kept | with_reducible apply State.mirrorEnds_kept
    | with_reducible apply State.pairLoss_kept | with_reducible apply kept_ite

theorem State.oneToken_kept {q : List Instr} (s : State) (h : Kept q s) : Kept q (State.oneToken s) := by
  unfold State.oneToken
  repeat' first
    | with_reducible assumption | (extract_lets +onlyGivenNames x; unfold x; clear x) | with_reducible apply State.raise_kept
    | with_reducible apply kept_ite | (with_reducible apply kept_parts; with_reducible assumption)

theorem State.decideRoles_kept {q : List Instr} (s : State) (h : Kept q s) : Kept q (State.decideRoles s) := by
  unfold State.decideRoles
  repeat' first
    | with_reducible assumption | (extract_lets +onlyGivenNames x; unfold x; clear x) | with_reducible apply State.raiseIf_kept
    | (with_reducible apply kept_parts; with_reducible apply State.oneToken_kept)

theorem State.rolesAgain_kept {q : List Instr} (s : State) (h : Kept q s) : Kept q (State.rolesAgain s) := by
  unfold State.rolesAgain
  repeat' first | with_reducible assumption | with_reducible apply State.decideRoles_kept | with_reducible apply kept_ite

theorem State.recordPeer_kept {q : List Instr} (s : State) (serial : Nat) (h : Kept q s) : Kept q (State.recordPeer s serial) := by
  unfold State.recordPeer
  repeat' first | (extract_lets +onlyGivenNames x; unfold x; clear x) | (with_reducible apply kept_nv; with_reducible assumption)

theorem State.mirrored_kept {q : List Instr} (s : State) (h : Kept q s) : Kept q (State.mirrored s) := by
  unfold State.mirrored
  repeat' first
    | (extract_lets +onlyGivenNames x; unfold x; clear x) | with_reducible apply State.setPstate_kept
    | (with_reducible apply kept_nv; with_reducible assumption)

theorem State.judgePair_kept {q : List Instr} (s : State) (i : Ident) (h : Kept q s) : Kept q (State.judgePair s i) := by
  unfold State.judgePair
  repeat' first
    | (extract_lets +onlyGivenNames x; unfold x; clear x) | with_reducible apply State.raise_kept
    | with_reducible apply State.setPstate_kept | with_reducible apply State.pairSend_kept | with_reducible apply State.decideRoles_kept
    | with_reducible apply State.recordPeer_kept | with_reducible apply State.mirrored_kept | with_reducible apply kept_ite
    | (with_reducible apply kept_parts; with_reducible assumption)
    | (with_reducible apply kept_parts; with_reducible apply State.decideRoles_kept)
    | (with_reducible apply kept_parts; with_reducible apply State.recordPeer_kept) | split

theorem State.pairStopCheck_kept {q : List Instr} (s : State) (h : Kept q s) : Kept q (State.pairStopCheck s) := by
  unfold State.pairStopCheck
  repeat' first
    | with_reducible assumption | (extract_lets +onlyGivenNames x; unfold x; clear x) | with_reducible apply State.pairLinkDown_kept
    | with_reducible apply State.pairSend_kept | with_reducible apply State.startPair_kept | with_reducible apply State.set_kept
    | with_reducible apply kept_ite

theorem execIdent_kept {q : List Instr} (i : Ident) (lanes : List AlignBlk) (s : State)
    (h : Kept q s) : ∃ t, execIdent i lanes s = .next t ∧ Kept q t := by
  unfold execIdent
  refine ⟨_, rfl, ?_⟩
  repeat' first
    | with_reducible assumption | intro _
    | (extract_lets +onlyGivenNames x; with_reducible refine kept_imp (q := q) x ?_ ?_; unfold x; clear x; rotate_left; intro _; clear_value x; revert x; intros; rotate_right)
    | (extract_lets +onlyGivenNames x; unfold x; clear x) | with_reducible apply State.pairStopCheck_kept
    | with_reducible apply State.set_kept | with_reducible apply State.pairAlign_kept | with_reducible apply State.pairSend_kept
    | with_reducible apply State.setReady_kept | with_reducible apply State.judgePair_kept | with_reducible apply kept_ite
    | with_reducible apply kept_foldl | (with_reducible apply kept_parts; with_reducible assumption)

theorem State.convergeCheck_kept {q : List Instr} (s : State) (h : Kept q s) : Kept q (State.convergeCheck s) := by
  unfold State.convergeCheck
  repeat' first
    | with_reducible assumption | (extract_lets +onlyGivenNames x; unfold x; clear x) | with_reducible apply State.raise_kept
    | with_reducible apply State.mirrored_kept | with_reducible apply kept_ite
    | (with_reducible apply kept_parts; with_reducible assumption)

theorem State.sourceDone_kept {q : List Instr} (s : State) (peerState : Nat) (h : Kept q s) : Kept q (State.sourceDone s peerState) := by
  unfold State.sourceDone
  repeat' first
    | with_reducible assumption | with_reducible apply State.raise_kept | with_reducible apply State.mirrored_kept
    | with_reducible apply kept_ite

theorem State.payCopy_kept {q : List Instr} (s : State) (uas : List Nat) (h : Kept q s) : Kept q (State.payCopy s uas) := by
  unfold State.payCopy
  repeat' first
    | with_reducible assumption | intro _ | (extract_lets +onlyGivenNames x; unfold x; clear x) | with_reducible apply State.pay_kept
    | with_reducible apply kept_foldl

theorem State.sendTake_kept {q : List Instr} (s : State) (num : Nat) (h : Kept q s) : Kept q (State.sendTake s num) := by
  unfold State.sendTake
  repeat' first
    | with_reducible assumption | intro _ | (extract_lets +onlyGivenNames x; unfold x; clear x)
    | with_reducible apply State.sendRecord_kept | with_reducible apply kept_foldl | split

theorem execConvergenceCopy_kept {q : List Instr} (s : State) (h : Kept q s) : ∃ t, execConvergenceCopy s = .next t ∧ Kept q t := by
  unfold execConvergenceCopy
  refine ⟨_, rfl, ?_⟩
  repeat' first
    | with_reducible assumption | intro _
    | (extract_lets +onlyGivenNames x; with_reducible refine kept_imp (q := q) x ?_ ?_; unfold x; clear x; rotate_left; intro _; clear_value x; revert x; intros; rotate_right)
    | (extract_lets +onlyGivenNames x; unfold x; clear x) | with_reducible apply State.sendTake_kept
    | with_reducible apply State.payCopy_kept | with_reducible apply State.pairSend_kept | with_reducible apply kept_ite
    | with_reducible apply kept_foldl | (with_reducible apply kept_parts; with_reducible assumption) | split

theorem execShape_kept {q : List Instr} (seg : Nat) (keys : List Nat) (s : State)
    (h : Kept q s) : ∃ t, execShape seg keys s = .next t ∧ Kept q t := by
  unfold execShape
  refine ⟨_, rfl, ?_⟩
  repeat' first
    | with_reducible assumption | intro _
    | (extract_lets +onlyGivenNames x; with_reducible refine kept_imp (q := q) x ?_ ?_; unfold x; clear x; rotate_left; intro _; clear_value x; revert x; intros; rotate_right)
    | (extract_lets +onlyGivenNames x; unfold x; clear x) | with_reducible apply State.dropLeaves_kept
    | with_reducible apply State.convergeCheck_kept | with_reducible apply kept_ite | with_reducible apply kept_foldl
    | (with_reducible apply kept_parts; with_reducible assumption)

theorem execPairLinkFrame_kept {q : List Instr} (v : Nat) (seq : Nat) (units : Nat) (crcOk : Bool) (s : State)
    (h : Kept q s) : ∃ t, execPairLinkFrame v seq units crcOk s = .next t ∧ Kept q t := by
  unfold execPairLinkFrame
  refine ⟨_, rfl, ?_⟩
  repeat' first | with_reducible assumption | with_reducible apply State.pairFrame_kept | with_reducible apply kept_ite

theorem execLinkack_kept {q : List Instr} (v : Nat) (seq : Nat) (nak : Bool) (s : State)
    (h : Kept q s) : ∃ t, execLinkack v seq nak s = .next t ∧ Kept q t := by
  unfold execLinkack
  refine ⟨_, rfl, ?_⟩
  repeat' first
    | with_reducible assumption | (extract_lets +onlyGivenNames x; unfold x; clear x) | with_reducible apply State.ackFrames_kept
    | with_reducible apply State.resendAll_kept | with_reducible apply State.pairStopCheck_kept | with_reducible apply kept_ite
    | (with_reducible apply kept_parts; with_reducible apply State.ackFrames_kept)

theorem execPairResendTimeout_kept {q : List Instr} (v : Nat) (s : State)
    (h : Kept q s) : ∃ t, execPairResendTimeout v s = .next t ∧ Kept q t := by
  unfold execPairResendTimeout
  refine ⟨_, rfl, ?_⟩
  repeat' first | with_reducible assumption | with_reducible apply State.resendAll_kept | with_reducible apply kept_ite

theorem execCredit_kept {q : List Instr} (v : Nat) (limit : Nat) (s : State)
    (h : Kept q s) : ∃ t, execCredit v limit s = .next t ∧ Kept q t := by
  unfold execCredit
  refine ⟨_, rfl, ?_⟩
  repeat' first
    | with_reducible assumption | (extract_lets +onlyGivenNames x; unfold x; clear x) | with_reducible apply State.set_kept
    | with_reducible apply State.pairPump_kept | with_reducible apply kept_ite

theorem execTrain_kept {q : List Instr} (reason : Nat) (s : State) (h : Kept q s) : ∃ t, execTrain reason s = .next t ∧ Kept q t := by
  unfold execTrain
  refine ⟨_, rfl, ?_⟩
  repeat' first
    | with_reducible assumption | (extract_lets +onlyGivenNames x; unfold x; clear x) | with_reducible apply State.takeDown_kept
    | with_reducible apply State.startPair_kept | with_reducible apply State.set_kept | with_reducible apply kept_ite

theorem execSlot_kept {q : List Instr} (m : SlotMsg) (s : State) (h : Kept q s) : ∃ t, execSlot m s = .next t ∧ Kept q t := by
  unfold execSlot
  refine ⟨_, rfl, ?_⟩
  repeat' first
    | with_reducible assumption | (extract_lets +onlyGivenNames x; unfold x; clear x) | with_reducible apply State.returnUnits_kept
    | with_reducible apply State.request_kept | with_reducible apply kept_ite
    | (with_reducible apply kept_parts; with_reducible assumption)

theorem execHeld_kept {q : List Instr} (x0 : HeldMsg) (ns : Nat) (s : State) (h : Kept q s) : ∃ t, execHeld x0 ns s = .next t ∧ Kept q t := by
  unfold execHeld
  refine ⟨_, rfl, ?_⟩
  repeat' first
    | with_reducible assumption | (extract_lets +onlyGivenNames x; unfold x; clear x) | with_reducible apply State.set_kept
    | with_reducible apply State.release_kept | with_reducible apply kept_ite
    | (with_reducible apply kept_parts; with_reducible assumption) | split

theorem State.closedBoth_kept {q : List Instr} (s : State) (h : Kept q s) : Kept q (State.closedBoth s) := by
  unfold State.closedBoth
  repeat' first
    | with_reducible assumption | intro _ | (extract_lets +onlyGivenNames x; unfold x; clear x) | with_reducible apply State.release_kept
    | with_reducible apply State.diverge_kept | with_reducible apply kept_ite | with_reducible apply kept_foldl

theorem execResult_kept {q : List Instr} (r : PResult) (s : State) (h : Kept q s) : ∃ t, execResult r s = .next t ∧ Kept q t := by
  unfold execResult
  refine ⟨_, rfl, ?_⟩
  repeat' first
    | with_reducible assumption | (extract_lets +onlyGivenNames x; unfold x; clear x) | with_reducible apply State.matchResults_kept
    | with_reducible apply State.closedBoth_kept | with_reducible apply kept_ite
    | (with_reducible apply kept_parts; with_reducible assumption)

theorem State.applyRecord_kept {q : List Instr} (s : State) (r : LRec) (h : Kept q s) : Kept q (State.applyRecord s r) := by
  unfold State.applyRecord
  repeat' first
    | with_reducible assumption | (extract_lets +onlyGivenNames x; unfold x; clear x) | with_reducible apply State.dropLeaves_kept
    | with_reducible apply State.note_kept | with_reducible apply State.matchResults_kept | with_reducible apply State.pairSend_kept
    | with_reducible apply kept_ite | (with_reducible apply kept_parts; with_reducible apply State.note_kept) | split

theorem execRecord_kept {q : List Instr} (seq : Nat) (r : LRec) (s : State)
    (h : Kept q s) : ∃ t, execRecord seq r s = .next t ∧ Kept q t := by
  unfold execRecord
  refine ⟨_, rfl, ?_⟩
  repeat' first
    | with_reducible assumption | (extract_lets +onlyGivenNames x; unfold x; clear x) | with_reducible apply State.applyRecord_kept
    | with_reducible apply State.convergeCheck_kept | with_reducible apply State.pairSend_kept | with_reducible apply kept_ite
    | (with_reducible apply kept_parts; with_reducible assumption)

theorem execRecAck_kept {q : List Instr} (seq : Nat) (s : State) (h : Kept q s) : ∃ t, execRecAck seq s = .next t ∧ Kept q t := by
  unfold execRecAck
  refine ⟨_, rfl, ?_⟩
  repeat' first
    | with_reducible assumption | (extract_lets +onlyGivenNames x; unfold x; clear x) | with_reducible apply State.releaseHeld_kept
    | with_reducible apply kept_ite | (with_reducible apply kept_parts; with_reducible assumption)

theorem execSnapreq_kept {q : List Instr} (s : State) (h : Kept q s) : ∃ t, execSnapreq s = .next t ∧ Kept q t := by
  unfold execSnapreq
  refine ⟨_, rfl, ?_⟩
  repeat' first | with_reducible assumption | with_reducible apply State.snapshot_kept | with_reducible apply kept_ite

theorem State.pairStop_kept {q : List Instr} (s : State) (h : Kept q s) : Kept q (State.pairStop s) := by
  unfold State.pairStop
  repeat' first
    | (extract_lets +onlyGivenNames x; unfold x; clear x) | with_reducible apply State.mirrorEnds_kept
    | (with_reducible apply kept_parts; with_reducible assumption)

theorem execBeat_kept {q : List Instr} (b : BeatMsg) (s : State) (h : Kept q s) : ∃ t, execBeat b s = .next t ∧ Kept q t := by
  unfold execBeat
  refine ⟨_, rfl, ?_⟩
  repeat' first
    | with_reducible assumption | (extract_lets +onlyGivenNames x; unfold x; clear x) | with_reducible apply State.set_kept
    | with_reducible apply State.inc_kept | with_reducible apply State.rolesAgain_kept | with_reducible apply State.pairStop_kept
    | with_reducible apply State.convergeCheck_kept | with_reducible apply State.sourceDone_kept | with_reducible apply kept_ite
    | (with_reducible apply kept_parts; with_reducible assumption)

theorem State.sendBeat_kept {q : List Instr} (s : State) (h : Kept q s) : Kept q (State.sendBeat s) := by
  unfold State.sendBeat
  repeat' first
    | with_reducible assumption | (extract_lets +onlyGivenNames x; unfold x; clear x) | with_reducible apply State.pairSend_kept
    | with_reducible apply kept_ite | (with_reducible apply kept_parts; with_reducible assumption)

theorem State.countBeat_kept {q : List Instr} (s : State) (h : Kept q s) : Kept q (State.countBeat s) := by
  unfold State.countBeat
  repeat' first
    | (extract_lets +onlyGivenNames x; unfold x; clear x) | with_reducible apply State.set_kept | with_reducible apply State.pairLoss_kept
    | with_reducible apply kept_ite | (with_reducible apply kept_parts; with_reducible assumption)

theorem State.newWindow_kept {q : List Instr} (s : State) (throughout : List Nat) (h : Kept q s) : Kept q (State.newWindow s throughout) := by
  unfold State.newWindow
  repeat' first
    | with_reducible assumption | (extract_lets +onlyGivenNames x; unfold x; clear x) | with_reducible apply State.applyThermal_kept
    | with_reducible apply State.floorMisses_kept | with_reducible apply State.closeWindow_kept | with_reducible apply State.raiseIf_kept
    | with_reducible apply State.set_kept | with_reducible apply State.addWrap_kept | with_reducible apply State.ageOps_kept
    | with_reducible apply State.noteGrant_kept | with_reducible apply State.refillAll_kept

theorem execArbitrationWindowStart_kept {q : List Instr} (throughout : List Nat) (s : State)
    (h : Kept q s) : ∃ t, execArbitrationWindowStart throughout s = .next t ∧ Kept q t := by
  unfold execArbitrationWindowStart
  refine ⟨_, rfl, ?_⟩
  repeat' first
    | with_reducible assumption | (extract_lets +onlyGivenNames x; unfold x; clear x) | with_reducible apply State.newWindow_kept
    | with_reducible apply State.convergeCheck_kept | with_reducible apply State.closedBoth_kept
    | with_reducible apply State.countBeat_kept | with_reducible apply State.sendBeat_kept | with_reducible apply kept_ite

theorem execPairCtlEn_kept {q : List Instr} (who : Req) (en : Bool) (s : State)
    (h : Kept q s) : ∃ t, execPairCtlEn who en s = .next t ∧ Kept q t := by
  unfold execPairCtlEn
  refine ⟨_, rfl, ?_⟩
  repeat' first
    | with_reducible assumption | intro _ | (extract_lets +onlyGivenNames x; unfold x; clear x) | with_reducible apply State.rwAction_kept
    | with_reducible apply State.set_kept | with_reducible apply State.pairLeave_kept | with_reducible apply State.pairStopCheck_kept
    | with_reducible apply State.runHere_kept | with_reducible apply State.startPair_kept | with_reducible apply State.setPstate_kept
    | with_reducible apply kept_ite | with_reducible apply kept_foldl
    | (with_reducible apply kept_parts; with_reducible apply State.set_kept) | split

theorem execPairClr_kept {q : List Instr} (who : Req) (s : State) (h : Kept q s) : ∃ t, execPairClr who s = .next t ∧ Kept q t := by
  unfold execPairClr
  refine ⟨_, rfl, ?_⟩
  repeat' first
    | with_reducible assumption | intro _ | (extract_lets +onlyGivenNames x; unfold x; clear x) | with_reducible apply State.rwAction_kept
    | with_reducible apply State.clear_kept | (with_reducible apply kept_parts; with_reducible assumption)

theorem State.resumePair_kept {q : List Instr} (s : State) (h : Kept q s) : Kept q (State.resumePair s) := by
  unfold State.resumePair
  repeat' first
    | with_reducible assumption | (extract_lets +onlyGivenNames x; unfold x; clear x) | with_reducible apply State.pairSend_kept
    | with_reducible apply kept_ite | (with_reducible apply kept_parts; with_reducible assumption)

theorem execPairControl_kept {q : List Instr} (id : Cid) (action : Nat) (bad : Bool) (s : State)
    (h : Kept q s) : ∃ t, execPairControl id action bad s = .next t ∧ Kept q t := by
  unfold execPairControl
  refine ⟨_, rfl, ?_⟩
  repeat' first
    | with_reducible assumption | intro _ | (extract_lets +onlyGivenNames x; unfold x; clear x) | with_reducible apply State.arrive_kept
    | with_reducible apply State.judge_kept | with_reducible apply State.rolesAgain_kept | with_reducible apply State.resumePair_kept
    | with_reducible apply State.pairStop_kept | with_reducible apply State.ok_kept | with_reducible apply kept_ite
    | (with_reducible apply kept_parts; with_reducible assumption) | split


/-! ### Net.lean -/

theorem State.noteGen_kept {q : List Instr} (s : State) (before : List (Nat × Bool × Nat)) (h : Kept q s) : Kept q
    (State.noteGen s before) := by
  unfold State.noteGen
  repeat' first
    | with_reducible assumption | (extract_lets +onlyGivenNames x; unfold x; clear x) | with_reducible apply kept_ite
    | (with_reducible apply kept_parts; with_reducible assumption)

theorem State.staticAddr_kept {q : List Instr} (s : State) (p : Nat) (h : Kept q s) : Kept q (State.staticAddr s p) := by
  unfold State.staticAddr
  repeat' first | with_reducible assumption | with_reducible apply State.set_kept | with_reducible apply kept_ite

theorem State.stopNet_kept {q : List Instr} (s : State) (p : Nat) (h : Kept q s) : Kept q (State.stopNet s p) := by
  unfold State.stopNet
  repeat' first
    | with_reducible assumption | with_reducible apply State.noteGen_kept | with_reducible apply State.offloadCheck_kept
    | with_reducible apply State.set_kept | with_reducible apply State.netLinkDown_kept | with_reducible apply State.resetConns_kept

theorem execNetCtlEn_kept {q : List Instr} (who : Req) (port : Nat) (en : Bool) (s : State)
    (h : Kept q s) : ∃ t, execNetCtlEn who port en s = .next t ∧ Kept q t := by
  unfold execNetCtlEn
  refine ⟨_, rfl, ?_⟩
  repeat' first
    | with_reducible assumption | intro _ | (extract_lets +onlyGivenNames x; unfold x; clear x) | with_reducible apply State.rwAction_kept
    | with_reducible apply State.set_kept | with_reducible apply State.stopNet_kept | with_reducible apply State.startNet_kept
    | with_reducible apply kept_ite | split

theorem execLinkUp_kept {q : List Instr} (port : Nat) (s : State) (h : Kept q s) : ∃ t, execLinkUp port s = .next t ∧ Kept q t := by
  unfold execLinkUp
  refine ⟨_, rfl, ?_⟩
  repeat' first
    | with_reducible assumption | (extract_lets +onlyGivenNames x; unfold x; clear x) | with_reducible apply State.set_kept
    | with_reducible apply State.staticAddr_kept | with_reducible apply State.noteGen_kept | with_reducible apply State.raise_kept
    | with_reducible apply State.stopNet_kept | with_reducible apply State.setReady_kept | with_reducible apply kept_ite

theorem execLinkDown_kept {q : List Instr} (port : Nat) (s : State) (h : Kept q s) : ∃ t, execLinkDown port s = .next t ∧ Kept q t := by
  unfold execLinkDown
  refine ⟨_, rfl, ?_⟩
  repeat' first | with_reducible assumption | with_reducible apply State.netLinkDown_kept | with_reducible apply kept_ite

theorem execDhcpBound_kept {q : List Instr} (port : Nat) (addr : Nat) (s : State)
    (h : Kept q s) : ∃ t, execDhcpBound port addr s = .next t ∧ Kept q t := by
  unfold execDhcpBound
  refine ⟨_, rfl, ?_⟩
  repeat' first
    | with_reducible assumption | with_reducible apply State.noteGen_kept | with_reducible apply State.raise_kept
    | with_reducible apply State.set_kept | with_reducible apply kept_ite

theorem execPauseFrame_kept {q : List Instr} (port : Nat) (quanta : Nat) (s : State)
    (h : Kept q s) : ∃ t, execPauseFrame port quanta s = .next t ∧ Kept q t := by
  unfold execPauseFrame
  refine ⟨_, rfl, ?_⟩
  repeat' first | with_reducible assumption | with_reducible apply State.netRx_kept | with_reducible apply kept_ite

theorem execPauseTimeExpired_kept {q : List Instr} (port : Nat) (s : State)
    (h : Kept q s) : ∃ t, execPauseTimeExpired port s = .next t ∧ Kept q t := by
  unfold execPauseTimeExpired
  refine ⟨_, rfl, ?_⟩
  repeat' first | with_reducible assumption | with_reducible apply State.set_kept | with_reducible apply kept_ite

theorem execAddressResolutionRequest_kept {q : List Instr} (port : Nat) (addr : Nat) (v6 : Bool) (s : State)
    (h : Kept q s) : ∃ t, execAddressResolutionRequest port addr v6 s = .next t ∧ Kept q t := by
  unfold execAddressResolutionRequest
  refine ⟨_, rfl, ?_⟩
  repeat' first | with_reducible assumption | with_reducible apply State.netRx_kept | with_reducible apply kept_ite

theorem execIcmpEchoRequest_kept {q : List Instr} (port : Nat) (addr : Nat) (v6 : Bool) (data : List Nat) (s : State)
    (h : Kept q s) : ∃ t, execIcmpEchoRequest port addr v6 data s = .next t ∧ Kept q t := by
  unfold execIcmpEchoRequest
  refine ⟨_, rfl, ?_⟩
  repeat' first | with_reducible assumption | with_reducible apply State.netRx_kept | with_reducible apply kept_ite

theorem execNetClr_kept {q : List Instr} (who : Req) (port : Nat) (s : State)
    (h : Kept q s) : ∃ t, execNetClr who port s = .next t ∧ Kept q t := by
  unfold execNetClr
  refine ⟨_, rfl, ?_⟩
  repeat' first
    | with_reducible assumption | intro _ | with_reducible apply State.rwAction_kept | with_reducible apply State.clear_kept
    | with_reducible apply kept_ite

theorem State.tcpRx_kept {q : List Instr} (s : State) (p : Nat) (h : Kept q s) : Kept q (State.tcpRx s p) := by
  unfold State.tcpRx
  repeat' first
    | with_reducible assumption | (extract_lets +onlyGivenNames x; unfold x; clear x) | with_reducible apply State.addSat_kept
    | with_reducible apply State.fiUnit_kept | with_reducible apply State.passNet_kept | with_reducible apply State.inc_kept
    | with_reducible apply kept_ite | (with_reducible apply kept_parts; with_reducible refine kept_snd (by with_reducible assumption) ?_)
    | split

theorem execTcpConnectionRequest_kept {q : List Instr} (port : Nat) (addr : Nat) (v6 : Bool) (dport : Nat) (s : State)
    (h : Kept q s) : ∃ t, execTcpConnectionRequest port addr v6 dport s = .next t ∧ Kept q t := by
  unfold execTcpConnectionRequest
  refine ⟨_, rfl, ?_⟩
  repeat' first
    | with_reducible assumption | (extract_lets +onlyGivenNames x; unfold x; clear x) | with_reducible apply State.tcpRx_kept
    | with_reducible apply State.raise_kept | with_reducible apply State.inc_kept | with_reducible apply State.netSend_kept
    | with_reducible apply kept_ite | (with_reducible apply kept_parts; with_reducible apply State.tcpRx_kept)

theorem execTcpConnectionClose_kept {q : List Instr} (conn : Nat) (s : State)
    (h : Kept q s) : ∃ t, execTcpConnectionClose conn s = .next t ∧ Kept q t := by
  unfold execTcpConnectionClose
  refine ⟨_, rfl, ?_⟩
  repeat' first
    | with_reducible assumption | with_reducible apply State.offloadCheck_kept | with_reducible apply State.closeConn_kept
    | with_reducible apply State.tcpRx_kept | split

theorem State.termConn_kept {q : List Instr} (s : State) (conn : Nat) (h : Kept q s) : Kept q (State.termConn s conn) := by
  unfold State.termConn
  repeat' first
    | with_reducible assumption | with_reducible apply State.offloadCheck_kept | with_reducible apply State.closeConn_kept
    | with_reducible apply State.netSend_kept | split

theorem execIcreq_kept {q : List Instr} (conn : Nat) (hdgst : Bool) (ddgst : Bool) (s : State)
    (h : Kept q s) : ∃ t, execIcreq conn hdgst ddgst s = .next t ∧ Kept q t := by
  unfold execIcreq
  refine ⟨_, rfl, ?_⟩
  repeat' first
    | with_reducible assumption | (extract_lets +onlyGivenNames x; unfold x; clear x) | with_reducible apply State.tcpRx_kept
    | with_reducible apply State.termConn_kept | with_reducible apply State.netSend_kept | with_reducible apply kept_ite
    | (with_reducible apply kept_parts; with_reducible apply State.tcpRx_kept) | split

theorem State.enterOffload_kept {q : List Instr} (s : State) (h : Kept q s) : Kept q (State.enterOffload s) := by
  unfold State.enterOffload
  repeat' first | with_reducible assumption | with_reducible apply State.beginTrans_kept | with_reducible apply kept_ite

theorem State.connectAdmin_kept {q : List Instr} (s : State) (id : Cid) (conn : Nat) (c : Conn) (sqsize : Nat) (cntlid : Nat)
    (host : Nat) (kato : Nat) (h : Kept q s) : Kept q (State.connectAdmin s id conn c sqsize cntlid host kato) := by
  unfold State.connectAdmin
  repeat' first
    | with_reducible assumption | (extract_lets +onlyGivenNames x; unfold x; clear x) | with_reducible apply State.fail_kept
    | with_reducible apply State.enterOffload_kept | with_reducible apply State.ok_kept | with_reducible apply kept_ite
    | (with_reducible apply kept_parts; with_reducible assumption) | split

theorem State.connectIo_kept {q : List Instr} (s : State) (id : Cid) (conn : Nat) (c : Conn) (qid : Nat) (sqsize : Nat)
    (cntlid : Nat) (host : Nat) (h : Kept q s) : Kept q (State.connectIo s id conn c qid sqsize cntlid host) := by
  unfold State.connectIo
  repeat' first
    | with_reducible assumption | (extract_lets +onlyGivenNames x; unfold x; clear x) | with_reducible apply State.fail_kept
    | with_reducible apply State.enterOffload_kept | with_reducible apply State.ok_kept | with_reducible apply kept_ite
    | (with_reducible apply kept_parts; with_reducible assumption) | split

theorem execConnect_kept {q : List Instr} (id : Cid) (qid : Nat) (sqsize : Nat) (cntlid : Nat) (host : Nat) (kato : Nat)
    (s : State) (h : Kept q s) : ∃ t, execConnect id qid sqsize cntlid host kato s = .next t ∧ Kept q t := by
  unfold execConnect
  refine ⟨_, rfl, ?_⟩
  repeat' first
    | with_reducible assumption | (extract_lets +onlyGivenNames x; unfold x; clear x) | with_reducible apply State.tcpRx_kept
    | with_reducible apply State.termConn_kept | with_reducible apply State.fail_kept | with_reducible apply State.connectAdmin_kept
    | with_reducible apply State.connectIo_kept | with_reducible apply kept_ite | split

theorem execPropertyGet_kept {q : List Instr} (id : Cid) (ofst : Nat) (eight : Bool) (s : State)
    (h : Kept q s) : ∃ t, execPropertyGet id ofst eight s = .next t ∧ Kept q t := by
  unfold execPropertyGet
  refine ⟨_, rfl, ?_⟩
  repeat' first
    | with_reducible assumption | (extract_lets +onlyGivenNames x; unfold x; clear x) | with_reducible apply State.tcpRx_kept
    | with_reducible apply State.ok_kept | with_reducible apply State.draw_kept | with_reducible apply State.fail_kept | split

theorem State.resetCtrl_kept {q : List Instr} (s : State) (k : Nat) (h : Kept q s) : Kept q (State.resetCtrl s k) := by
  unfold State.resetCtrl
  repeat' first
    | with_reducible assumption | intro _ | (extract_lets +onlyGivenNames x; unfold x; clear x) | with_reducible apply State.dropConn_kept
    | with_reducible apply State.putCtrl_kept | with_reducible apply kept_foldl | split

theorem execPropertySet_kept {q : List Instr} (id : Cid) (ofst : Nat) (eight : Bool) (value : Nat) (s : State)
    (h : Kept q s) : ∃ t, execPropertySet id ofst eight value s = .next t ∧ Kept q t := by
  unfold execPropertySet
  refine ⟨_, rfl, ?_⟩
  repeat' first
    | with_reducible assumption | (extract_lets +onlyGivenNames x; unfold x; clear x) | with_reducible apply State.tcpRx_kept
    | with_reducible apply State.fail_kept | with_reducible apply State.resetCtrl_kept | with_reducible apply State.putCtrl_kept
    | with_reducible apply State.ok_kept | with_reducible apply kept_ite | split

theorem execH2cData_kept {q : List Instr} (id : Cid) (off : Nat) (sectors : List Nat) (hdrOk : Bool) (dataOk : Bool) (s : State)
    (h : Kept q s) : ∃ t, execH2cData id off sectors hdrOk dataOk s = .next t ∧ Kept q t := by
  unfold execH2cData
  refine ⟨_, rfl, ?_⟩
  repeat' first
    | with_reducible assumption | (extract_lets +onlyGivenNames x; unfold x; clear x) | with_reducible apply State.tcpRx_kept
    | with_reducible apply State.termConn_kept | with_reducible apply State.raise_kept | with_reducible apply State.inc_kept
    | with_reducible apply State.fail_kept | with_reducible apply State.dropWrite_kept | with_reducible apply State.storeWrite_kept
    | with_reducible apply kept_ite | (with_reducible apply kept_parts; with_reducible apply State.tcpRx_kept) | split

theorem execOffloadCloseTimeout_kept {q : List Instr} (s : State) (h : Kept q s) : ∃ t, execOffloadCloseTimeout s = .next t ∧ Kept q t := by
  unfold execOffloadCloseTimeout
  refine ⟨_, rfl, ?_⟩
  repeat' first | with_reducible assumption | with_reducible apply State.closeOffload_kept | with_reducible apply kept_ite

theorem execNvtcpCtlEn_kept {q : List Instr} (who : Req) (en : Bool) (s : State)
    (h : Kept q s) : ∃ t, execNvtcpCtlEn who en s = .next t ∧ Kept q t := by
  unfold execNvtcpCtlEn
  refine ⟨_, rfl, ?_⟩
  repeat' first
    | with_reducible assumption | intro _ | (extract_lets +onlyGivenNames x; unfold x; clear x) | with_reducible apply State.rwAction_kept
    | with_reducible apply State.set_kept | with_reducible apply State.clearReady_kept | with_reducible apply State.closeOffload_kept
    | with_reducible apply kept_ite

theorem execNvtcpClr_kept {q : List Instr} (who : Req) (s : State) (h : Kept q s) : ∃ t, execNvtcpClr who s = .next t ∧ Kept q t := by
  unfold execNvtcpClr
  refine ⟨_, rfl, ?_⟩
  repeat' first
    | with_reducible assumption | intro _ | (extract_lets +onlyGivenNames x; unfold x; clear x) | with_reducible apply State.rwAction_kept
    | with_reducible apply State.clear_kept | (with_reducible apply kept_parts; with_reducible assumption)


/-! ### LogPages.lean -/

theorem State.logRead_kept {q : List Instr} (s : State) (id : Cid) (lid : Nat) (h : Kept q s) : Kept q (State.logRead s id lid) := by
  unfold State.logRead
  repeat' first
    | with_reducible assumption | (extract_lets +onlyGivenNames x; unfold x; clear x) | with_reducible apply State.putCtrl_kept
    | with_reducible apply kept_ite | (with_reducible apply kept_parts; with_reducible assumption)
    | (with_reducible apply kept_dram; with_reducible assumption) | split

theorem execGetLogPage_kept {q : List Instr} (id : Cid) (lid : Nat) (off : Nat) (bytes : Nat) (rae : Bool) (bad : Bool)
    (s : State) (h : Kept q s) : ∃ t, execGetLogPage id lid off bytes rae bad s = .next t ∧ Kept q t := by
  unfold execGetLogPage
  refine ⟨_, rfl, ?_⟩
  repeat' first
    | with_reducible assumption | intro _ | (extract_lets +onlyGivenNames x; unfold x; clear x) | with_reducible apply State.arrive_kept
    | with_reducible apply State.judge_kept | with_reducible apply State.ok_kept
    | (with_reducible apply kept_parts; with_reducible assumption)
    | (with_reducible apply kept_parts; with_reducible apply State.logRead_kept) | split

theorem execIdentify_kept {q : List Instr} (id : Cid) (cns : Nat) (nsid : Nat) (cntid : Nat) (bad : Bool) (s : State)
    (h : Kept q s) : ∃ t, execIdentify id cns nsid cntid bad s = .next t ∧ Kept q t := by
  unfold execIdentify
  refine ⟨_, rfl, ?_⟩
  repeat' first
    | with_reducible assumption | intro _ | with_reducible apply State.arrive_kept | with_reducible apply State.judge_kept
    | with_reducible apply State.ok_kept | with_reducible apply State.reject_kept | split

end Sys2Proof.Machine
end

