-- ==== Sys2Proof/Laws/KeptService.lean ====
section
/-!
SUPPORT. One lemma for each operation and each command of commits, the code store, updates, self-tests, time, functions that start and service DMA: it keeps the byte memories' form and the queue; a command answers a
next state.
-/

namespace Sys2Proof.Machine

/-! ### Commit.lean -/

theorem State.adoptedStreams_kept {q : List Instr} (s : State) (old : State) (h : Kept q s) (_h1 : Kept q old) : Kept q
    (State.adoptedStreams s old) := by
  unfold State.adoptedStreams
  repeat' first
    | with_reducible assumption | intro _ | (extract_lets +onlyGivenNames x; unfold x; clear x) | with_reducible apply State.note_kept
    | with_reducible apply State.noteAppend_kept | with_reducible apply State.settleAll_kept | with_reducible apply kept_ite
    | with_reducible apply kept_foldl

theorem State.adoptedWays_kept {q : List Instr} (s : State) (h : Kept q s) : Kept q (State.adoptedWays s) := by
  unfold State.adoptedWays
  repeat' first
    | with_reducible assumption | (extract_lets +onlyGivenNames x; unfold x; clear x) | with_reducible apply State.set_kept
    | with_reducible apply State.raise_kept | with_reducible apply kept_ite | (with_reducible apply kept_parts; with_reducible assumption)
    | split

theorem State.adoptedRate_kept {q : List Instr} (s : State) (old : State) (c : Nat) (h : Kept q s) (_h1 : Kept q old) : Kept q
    (State.adoptedRate s old c) := by
  unfold State.adoptedRate
  repeat' first
    | with_reducible assumption | (extract_lets +onlyGivenNames x; unfold x; clear x) | with_reducible apply State.set_kept
    | with_reducible apply State.draw_kept | with_reducible apply kept_ite

theorem State.adopted_kept {q : List Instr} (s : State) (old : State) (p : Nat) (h : Kept q s) (h1 : Kept q old) : Kept q
    (State.adopted s old p) := by
  unfold State.adopted
  repeat' first
    | with_reducible assumption | (extract_lets +onlyGivenNames x; unfold x; clear x) | with_reducible apply State.noteFlow_kept
    | with_reducible apply State.noteHeadroom_kept | with_reducible apply State.recost_kept
    | with_reducible apply State.adoptedStreams_kept | with_reducible apply State.adoptedWays_kept
    | with_reducible apply State.noteSpace_kept | with_reducible apply State.eraseAhead_kept | with_reducible apply State.noteGen_kept
    | with_reducible apply State.staticAddr_kept | with_reducible apply State.adoptedRate_kept | with_reducible apply kept_ite
    | (with_reducible apply kept_parts; with_reducible assumption) | split

theorem State.adoptFull_kept {q : List Instr} (s : State) (p : Nat) (h : Kept q s) : Kept q (State.adoptFull s p) := by
  unfold State.adoptFull
  repeat' first
    | with_reducible assumption | (extract_lets +onlyGivenNames x; unfold x; clear x) | with_reducible apply State.adoptPage_kept
    | with_reducible apply State.adopted_kept | with_reducible apply kept_ite
    | (with_reducible apply kept_dram; with_reducible apply State.adoptPage_kept)

theorem State.acceptCommit_kept {q : List Instr} (s : State) (p : Nat) (epoch : Nat) (h : Kept q s) : Kept q
    (State.acceptCommit s p epoch) := by
  unfold State.acceptCommit
  repeat' first
    | with_reducible assumption | (extract_lets +onlyGivenNames x; unfold x; clear x) | with_reducible apply State.set_kept
    | with_reducible apply State.adoptFull_kept | with_reducible apply kept_ite
    | (with_reducible apply kept_parts; with_reducible apply State.set_kept)

theorem State.refuseCommit_kept {q : List Instr} (s : State) (p : Nat) (reason : Nat) (h : Kept q s) : Kept q
    (State.refuseCommit s p reason) := by
  unfold State.refuseCommit
  repeat' first | with_reducible assumption | with_reducible apply State.set_kept

theorem State.commitPage_kept {q : List Instr} (s : State) (who : Req) (p : Nat) (epoch : Nat) (h : Kept q s) : Kept q
    (State.commitPage s who p epoch) := by
  unfold State.commitPage
  repeat' first
    | with_reducible assumption | (extract_lets +onlyGivenNames x; unfold x; clear x) | with_reducible apply State.set_kept
    | with_reducible apply State.acceptCommit_kept | with_reducible apply State.refuseCommit_kept | with_reducible apply kept_ite

theorem State.abandonPage_kept {q : List Instr} (s : State) (p : Nat) (h : Kept q s) : Kept q (State.abandonPage s p) := by
  unfold State.abandonPage
  repeat' first | (with_reducible apply kept_parts; with_reducible assumption)

theorem execShadowCommit_kept {q : List Instr} (who : Req) (page : Nat) (epoch : Nat) (s : State)
    (h : Kept q s) : ∃ t, execShadowCommit who page epoch s = .next t ∧ Kept q t := by
  unfold execShadowCommit
  refine ⟨_, rfl, ?_⟩
  repeat' first
    | with_reducible assumption | intro _ | with_reducible apply State.regAction_kept | with_reducible apply State.commitPage_kept
    | with_reducible apply kept_ite

theorem State.abandonCommit_kept {q : List Instr} (s : State) (who : Req) (p : Nat) (commit : Bool) (h : Kept q s) : Kept q
    (State.abandonCommit s who p commit) := by
  unfold State.abandonCommit
  repeat' first
    | with_reducible assumption | (extract_lets +onlyGivenNames x; unfold x; clear x) | with_reducible apply State.abandonPage_kept
    | with_reducible apply State.modeRefused_kept | with_reducible apply State.refuseCommit_kept | with_reducible apply kept_ite

theorem execShadowAbandon_kept {q : List Instr} (who : Req) (page : Nat) (commit : Bool) (s : State)
    (h : Kept q s) : ∃ t, execShadowAbandon who page commit s = .next t ∧ Kept q t := by
  unfold execShadowAbandon
  refine ⟨_, rfl, ?_⟩
  repeat' first
    | with_reducible assumption | intro _ | with_reducible apply State.regAction_kept | with_reducible apply State.abandonCommit_kept
    | with_reducible apply kept_ite

theorem State.gcommit_kept {q : List Instr} (s : State) (who : Req) (epoch : Nat) (h : Kept q s) : Kept q (State.gcommit s who epoch) := by
  unfold State.gcommit
  repeat' first
    | with_reducible assumption | intro _ | (extract_lets +onlyGivenNames x; unfold x; clear x) | with_reducible apply State.set_kept
    | with_reducible apply State.raise_kept | with_reducible apply State.refuseCommit_kept | with_reducible apply State.acceptCommit_kept
    | with_reducible apply kept_ite | with_reducible apply kept_foldl
    | (with_reducible apply kept_parts; with_reducible apply State.set_kept)

theorem execGcommit_kept {q : List Instr} (who : Req) (epoch : Nat) (s : State)
    (h : Kept q s) : ∃ t, execGcommit who epoch s = .next t ∧ Kept q t := by
  unfold execGcommit
  refine ⟨_, rfl, ?_⟩
  repeat' first | with_reducible assumption | intro _ | with_reducible apply State.regAction_kept | with_reducible apply State.gcommit_kept

theorem execCommitAdopted_kept {q : List Instr} (page : Nat) (s : State)
    (h : Kept q s) : ∃ t, execCommitAdopted page s = .next t ∧ Kept q t := by
  unfold execCommitAdopted
  refine ⟨_, rfl, ?_⟩
  repeat' first
    | with_reducible assumption | (extract_lets +onlyGivenNames x; unfold x; clear x) | with_reducible apply State.adoptFull_kept
    | with_reducible apply kept_ite

theorem execSnapTriggerFire_kept {q : List Instr} (who : Req) (s : State)
    (h : Kept q s) : ∃ t, execSnapTriggerFire who s = .next t ∧ Kept q t := by
  unfold execSnapTriggerFire
  refine ⟨_, rfl, ?_⟩
  repeat' first | with_reducible assumption | intro _ | with_reducible apply State.rwAction_kept | with_reducible apply State.snapshot_kept

theorem execSnapInEdge_kept {q : List Instr} (rising : Bool) (s : State)
    (h : Kept q s) : ∃ t, execSnapInEdge rising s = .next t ∧ Kept q t := by
  unfold execSnapInEdge
  refine ⟨_, rfl, ?_⟩
  repeat' first | with_reducible assumption | with_reducible apply State.snapshot_kept | with_reducible apply kept_ite

theorem execSnapRearm_kept {q : List Instr} (who : Req) (s : State) (h : Kept q s) : ∃ t, execSnapRearm who s = .next t ∧ Kept q t := by
  unfold execSnapRearm
  refine ⟨_, rfl, ?_⟩
  repeat' first | with_reducible assumption | intro _ | with_reducible apply State.rwAction_kept | with_reducible apply State.set_kept

theorem execSnapClrCounts_kept {q : List Instr} (who : Req) (s : State)
    (h : Kept q s) : ∃ t, execSnapClrCounts who s = .next t ∧ Kept q t := by
  unfold execSnapClrCounts
  refine ⟨_, rfl, ?_⟩
  repeat' first | with_reducible assumption | intro _ | with_reducible apply State.rwAction_kept | with_reducible apply State.clear_kept


/-! ### Code.lean -/

theorem State.setUnlock_kept {q : List Instr} (s : State) (who : Req) (v : Nat) (h : Kept q s) : Kept q (State.setUnlock s who v) := by
  unfold State.setUnlock
  repeat' first | (extract_lets +onlyGivenNames x; unfold x; clear x) | (with_reducible apply kept_parts; with_reducible assumption)

theorem State.unlockA_kept {q : List Instr} (s : State) (who : Req) (key : Nat) (h : Kept q s) : Kept q (State.unlockA s who key) := by
  unfold State.unlockA
  repeat' first | with_reducible assumption | with_reducible apply State.setUnlock_kept

theorem State.unlockB_kept {q : List Instr} (s : State) (who : Req) (key : Nat) (h : Kept q s) : Kept q (State.unlockB s who key) := by
  unfold State.unlockB
  repeat' first | with_reducible assumption | with_reducible apply State.setUnlock_kept

theorem State.codeTouch_kept {q : List Instr} (s : State) (who : Req) (off : Nat) (h : Kept q s) : Kept q (State.codeTouch s who off) := by
  unfold State.codeTouch
  repeat' first | with_reducible assumption | with_reducible apply State.setUnlock_kept | with_reducible apply kept_ite

theorem execUnlockA_kept {q : List Instr} (who : Req) (key : Nat) (s : State)
    (h : Kept q s) : ∃ t, execUnlockA who key s = .next t ∧ Kept q t := by
  unfold execUnlockA
  refine ⟨_, rfl, ?_⟩
  repeat' first | with_reducible assumption | intro _ | with_reducible apply State.rwAction_kept | with_reducible apply State.unlockA_kept

theorem execUnlockB_kept {q : List Instr} (who : Req) (key : Nat) (s : State)
    (h : Kept q s) : ∃ t, execUnlockB who key s = .next t ∧ Kept q t := by
  unfold execUnlockB
  refine ⟨_, rfl, ?_⟩
  repeat' first | with_reducible assumption | intro _ | with_reducible apply State.rwAction_kept | with_reducible apply State.unlockB_kept

theorem execCodeUnlockTimeout_kept {q : List Instr} (who : Req) (s : State)
    (h : Kept q s) : ∃ t, execCodeUnlockTimeout who s = .next t ∧ Kept q t := by
  unfold execCodeUnlockTimeout
  refine ⟨_, rfl, ?_⟩
  repeat' first | with_reducible assumption | with_reducible apply State.setUnlock_kept

theorem State.codeEnd_kept {q : List Instr} (s : State) (err : Nat) (h : Kept q s) : Kept q (State.codeEnd s err) := by
  unfold State.codeEnd
  repeat' first
    | with_reducible assumption | with_reducible apply State.raiseIf_kept | with_reducible apply State.raise_kept
    | with_reducible apply State.set_kept

theorem State.countNorErase_kept {q : List Instr} (s : State) (sec : Nat) (h : Kept q s) : Kept q (State.countNorErase s sec) := by
  unfold State.countNorErase
  repeat' first
    | (extract_lets +onlyGivenNames x; unfold x; clear x) | with_reducible apply State.raiseIf_kept | with_reducible apply State.inc_kept
    | (with_reducible apply kept_nv; with_reducible assumption)

theorem State.codeCmd_kept {q : List Instr} (s : State) (who : Req) (op : Nat) (h : Kept q s) : Kept q (State.codeCmd s who op) := by
  unfold State.codeCmd
  repeat' first
    | with_reducible assumption | (extract_lets +onlyGivenNames x; unfold x; clear x) | with_reducible apply State.setUnlock_kept
    | with_reducible apply State.codeEnd_kept | with_reducible apply State.set_kept | with_reducible apply State.countNorErase_kept
    | with_reducible apply State.inc_kept | with_reducible apply kept_ite
    | (with_reducible apply kept_parts; with_reducible apply State.setUnlock_kept)

theorem State.codeCmdBy_kept {q : List Instr} (s : State) (who : Req) (op : Nat) (h : Kept q s) : Kept q (State.codeCmdBy s who op) := by
  unfold State.codeCmdBy
  repeat' first | with_reducible assumption | intro _ | with_reducible apply State.rwAction_kept | with_reducible apply State.codeCmd_kept

theorem execNop_kept {q : List Instr} (who : Req) (s : State) (h : Kept q s) : ∃ t, execNop who s = .next t ∧ Kept q t := by
  unfold execNop
  refine ⟨_, rfl, ?_⟩
  repeat' first | with_reducible assumption | with_reducible apply State.codeCmdBy_kept

theorem execReadLine_kept {q : List Instr} (who : Req) (s : State) (h : Kept q s) : ∃ t, execReadLine who s = .next t ∧ Kept q t := by
  unfold execReadLine
  refine ⟨_, rfl, ?_⟩
  repeat' first | with_reducible assumption | with_reducible apply State.codeCmdBy_kept

theorem execProgramLine_kept {q : List Instr} (who : Req) (s : State) (h : Kept q s) : ∃ t, execProgramLine who s = .next t ∧ Kept q t := by
  unfold execProgramLine
  refine ⟨_, rfl, ?_⟩
  repeat' first | with_reducible assumption | with_reducible apply State.codeCmdBy_kept

theorem execEraseSector_kept {q : List Instr} (who : Req) (s : State) (h : Kept q s) : ∃ t, execEraseSector who s = .next t ∧ Kept q t := by
  unfold execEraseSector
  refine ⟨_, rfl, ?_⟩
  repeat' first | with_reducible assumption | with_reducible apply State.codeCmdBy_kept

theorem execBlankCheck_kept {q : List Instr} (who : Req) (s : State) (h : Kept q s) : ∃ t, execBlankCheck who s = .next t ∧ Kept q t := by
  unfold execBlankCheck
  refine ⟨_, rfl, ?_⟩
  repeat' first | with_reducible assumption | with_reducible apply State.codeCmdBy_kept

theorem execCrcSector_kept {q : List Instr} (who : Req) (s : State) (h : Kept q s) : ∃ t, execCrcSector who s = .next t ∧ Kept q t := by
  unfold execCrcSector
  refine ⟨_, rfl, ?_⟩
  repeat' first | with_reducible assumption | with_reducible apply State.codeCmdBy_kept

theorem State.programLine_kept {q : List Instr} (s : State) (ok : Bool) (a : Nat) (bs : List Nat) (h : Kept q s) : Kept q
    (State.programLine s ok a bs).2 := by
  unfold State.programLine
  repeat' first
    | with_reducible assumption | (extract_lets +onlyGivenNames x; unfold x; clear x) | with_reducible apply State.norWrite_kept
    | (with_reducible apply kept_parts; with_reducible assumption) | with_reducible apply kept_ite_snd

theorem execCmdDone_kept {q : List Instr} (ok : Bool) (s : State) (h : Kept q s) : ∃ t, execCmdDone ok s = .next t ∧ Kept q t := by
  unfold execCmdDone
  refine ⟨_, rfl, ?_⟩
  repeat' first
    | with_reducible assumption | intro _ | (extract_lets +onlyGivenNames x; unfold x; clear x) | with_reducible apply State.set_kept
    | with_reducible apply State.codeEnd_kept | with_reducible apply State.programLine_kept | with_reducible apply State.norErase_kept
    | with_reducible apply kept_ite | with_reducible apply kept_foldl | split


/-! ### Update.lean -/

theorem State.showSlot_kept {q : List Instr} (s : State) (slot : Nat) (h : Kept q s) : Kept q (State.showSlot s slot) := by
  unfold State.showSlot
  repeat' first
    | with_reducible assumption | (extract_lets +onlyGivenNames x; unfold x; clear x) | with_reducible apply State.set_kept
    | with_reducible apply kept_ite

theorem State.updTo_kept {q : List Instr} (s : State) (f : Upd → Upd) (h : Kept q s) : Kept q (State.updTo s f) := by
  unfold State.updTo
  repeat' first | (extract_lets +onlyGivenNames x; unfold x; clear x) | (with_reducible apply kept_nv; with_reducible assumption)

theorem State.revert_kept {q : List Instr} (s : State) (h : Kept q s) : Kept q (State.revert s) := by
  unfold State.revert
  repeat' first
    | with_reducible assumption | with_reducible apply State.raise_kept | with_reducible apply State.set_kept
    | with_reducible apply State.updTo_kept

theorem State.takeActivate_kept {q : List Instr} (s : State) (h : Kept q s) : Kept q (State.takeActivate s) := by
  unfold State.takeActivate
  repeat' first
    | with_reducible assumption | with_reducible apply State.raise_kept | with_reducible apply State.updTo_kept
    | with_reducible apply kept_ite

theorem State.bootLoad_kept {q : List Instr} (s : State) (h : Kept q s) : ∀ t, State.bootLoad s = some t → Kept q t := by
  have hl : ∀ (s : State), Kept q s → ∀ t, (if s.loaderValid = true then some (s.set F.UPD_STATUS_BOOTED 2) else none) = some t → Kept q t := by
    intro s h t ht
    split at ht
    · cases ht; exact State.set_kept _ _ _ h
    · cases ht
  have ha := State.takeActivate_kept s h
  intro t ht
  unfold State.bootLoad at ht
  dsimp only at ht
  repeat' split at ht
  all_goals first
    | (cases ht; done)
    | exact hl _ h _ ht
    | exact hl _ ha _ ht
    | (cases ht; exact State.set_kept _ _ _ (State.revert_kept _ ha))
    | (cases ht; exact State.set_kept _ _ _ ha)
    | (cases ht; exact State.set_kept _ _ _ h)

theorem State.markStaged_kept {q : List Instr} (s : State) (i : Nat) (b : Bool) (h : Kept q s) : Kept q (State.markStaged s i b) := by
  unfold State.markStaged
  repeat' first | with_reducible assumption | with_reducible apply State.setBitTo_kept | with_reducible apply kept_ite

theorem State.findStaged_kept {q : List Instr} (s : State) (h : Kept q s) : Kept q (State.findStaged s) := by
  unfold State.findStaged
  repeat' first
    | with_reducible assumption | intro _ | (extract_lets +onlyGivenNames x; unfold x; clear x) | with_reducible apply State.set_kept
    | with_reducible apply State.markStaged_kept | with_reducible apply kept_ite | with_reducible apply kept_foldl

theorem State.bootUp_kept {q : List Instr} (s : State) (h : Kept q s) : ∀ t, State.bootUp s = some t → Kept q t := by
  intro t ht
  obtain ⟨s1, e, e'⟩ := Option.map_eq_some_iff.mp ht
  cases e'
  have h1 := State.showSlot_kept _ 1 (State.showSlot_kept _ 0 (State.bootLoad_kept s h s1 e))
  exact State.findStaged_kept _ ⟨h1.mem, h1.store, h1.queue⟩

theorem State.confirmImage_kept {q : List Instr} (s : State) (h : Kept q s) : Kept q (State.confirmImage s) := by
  unfold State.confirmImage
  repeat' first
    | with_reducible assumption | (extract_lets +onlyGivenNames x; unfold x; clear x) | with_reducible apply State.raise_kept
    | with_reducible apply State.updTo_kept | with_reducible apply kept_ite
    | (with_reducible apply kept_nv; with_reducible apply State.raise_kept)

theorem State.fwJudge_kept {q : List Instr} (s : State) (id : Cid) (pre : List (Bool × Why)) (post : List (Bool × Why))
    (f : State → State) (h : Kept q s) (h4 : ∀ y0, Kept q y0 → Kept q (f y0)) : Kept q (State.fwJudge s id pre post f) := by
  unfold State.fwJudge
  repeat' first
    | with_reducible assumption | (extract_lets +onlyGivenNames x; unfold x; clear x) | with_reducible apply State.inc_kept
    | with_reducible apply State.judge_kept | with_reducible apply kept_ite | split

theorem State.stageSector_kept {q : List Instr} (s : State) (sec : Nat) (bs : List Nat) (h : Kept q s) : Kept q
    (State.stageSector s sec bs) := by
  unfold State.stageSector
  repeat' first
    | with_reducible assumption | with_reducible apply State.addSat_kept | with_reducible apply State.norWrite_kept
    | with_reducible apply State.norErase_kept | with_reducible apply State.countNorErase_kept

theorem State.takeParcel_kept {q : List Instr} (s : State) (off : Nat) (p : List Nat) (h : Kept q s) : Kept q (State.takeParcel s off p) := by
  unfold State.takeParcel
  repeat' first
    | with_reducible assumption | (extract_lets +onlyGivenNames x; unfold x; clear x) | with_reducible apply State.updTo_kept
    | with_reducible apply State.set_kept | with_reducible apply State.raise_kept | with_reducible apply State.markStaged_kept
    | with_reducible apply State.stageSector_kept | with_reducible apply kept_ite

theorem State.takeParcels_kept {q : List Instr} (x0 : Nat) (x1 : Nat) (x2 : List Nat) (x3 : State) (h : Kept q x3) : Kept q
    (State.takeParcels x0 x1 x2 x3).2 := by
  induction x0 generalizing x1 x2 x3 with
  | zero => unfold State.takeParcels; assumption
  | succ n ih =>
  unfold State.takeParcels
  repeat' first
    | with_reducible assumption | (extract_lets +onlyGivenNames x; unfold x; clear x) | with_reducible apply State.takeParcel_kept
    | with_reducible apply State.raise_kept | with_reducible apply State.set_kept | with_reducible apply ih
    | with_reducible apply kept_ite_snd

theorem execFirmwareImageDownload_kept {q : List Instr} (id : Cid) (numd : Nat) (ofst : Nat) (bytes : List Nat) (bad : Bool)
    (s : State) (h : Kept q s) : ∃ t, execFirmwareImageDownload id numd ofst bytes bad s = .next t ∧ Kept q t := by
  unfold execFirmwareImageDownload
  refine ⟨_, rfl, ?_⟩
  repeat' first
    | with_reducible assumption | intro _ | (extract_lets +onlyGivenNames x; unfold x; clear x) | with_reducible apply State.arrive_kept
    | with_reducible apply State.fwJudge_kept | with_reducible apply State.takeParcels_kept | with_reducible apply State.ok_kept
    | with_reducible apply State.fail_kept
    | (with_reducible apply kept_parts; with_reducible refine kept_snd (by with_reducible assumption) ?_) | split

theorem State.pendUpdate_kept {q : List Instr} (s : State) (kind : Nat) (slot : Nat) (h : Kept q s) : Kept q
    (State.pendUpdate s kind slot) := by
  unfold State.pendUpdate
  repeat' first | with_reducible assumption | with_reducible apply State.raise_kept | with_reducible apply State.updTo_kept

theorem State.toUpdate_kept {q : List Instr} (s : State) (id : Cid) (h : Kept q s) : Kept q (State.toUpdate s id) := by
  unfold State.toUpdate
  repeat' first
    | (extract_lets +onlyGivenNames x; unfold x; clear x) | with_reducible apply State.beginTrans_kept
    | (with_reducible apply kept_parts; with_reducible assumption)

theorem State.commit_kept {q : List Instr} (s : State) (id : Cid) (ca : Nat) (slot : Nat) (h : Kept q s) : Kept q
    (State.commit s id ca slot) := by
  unfold State.commit
  repeat' first
    | with_reducible assumption | (extract_lets +onlyGivenNames x; unfold x; clear x) | with_reducible apply State.fail_kept
    | with_reducible apply State.set_kept | with_reducible apply State.ok_kept | with_reducible apply State.pendUpdate_kept
    | with_reducible apply State.toUpdate_kept | with_reducible apply kept_ite | split

theorem execFirmwareCommit_kept {q : List Instr} (id : Cid) (fs : Nat) (ca : Nat) (bad : Bool) (s : State)
    (h : Kept q s) : ∃ t, execFirmwareCommit id fs ca bad s = .next t ∧ Kept q t := by
  unfold execFirmwareCommit
  refine ⟨_, rfl, ?_⟩
  repeat' first
    | with_reducible assumption | intro _ | (extract_lets +onlyGivenNames x; unfold x; clear x) | with_reducible apply State.arrive_kept
    | with_reducible apply State.fwJudge_kept | with_reducible apply State.commit_kept

theorem State.enterUpdate_kept {q : List Instr} (s : State) (h : Kept q s) : Kept q (State.enterUpdate s) := by
  unfold State.enterUpdate
  repeat' first | with_reducible assumption | with_reducible apply State.set_kept | with_reducible apply kept_ite

theorem execUpdateCopySector_kept {q : List Instr} (ok : Bool) (s : State)
    (h : Kept q s) : ∃ t, execUpdateCopySector ok s = .next t ∧ Kept q t := by
  unfold execUpdateCopySector
  refine ⟨_, rfl, ?_⟩
  repeat' first
    | with_reducible assumption | (extract_lets +onlyGivenNames x; unfold x; clear x) | with_reducible apply State.set_kept
    | with_reducible apply State.stageSector_kept | with_reducible apply State.raise_kept | with_reducible apply State.updTo_kept
    | with_reducible apply kept_ite | split

theorem execUpdateSwitch_kept {q : List Instr} (s : State) (h : Kept q s) : ∃ t, execUpdateSwitch s = .next t ∧ Kept q t := by
  unfold execUpdateSwitch
  refine ⟨_, rfl, ?_⟩
  repeat' first
    | with_reducible assumption | (extract_lets +onlyGivenNames x; unfold x; clear x) | with_reducible apply State.showSlot_kept
    | with_reducible apply State.set_kept | with_reducible apply State.updTo_kept | with_reducible apply State.raise_kept
    | with_reducible apply State.resetTrigger_kept | with_reducible apply kept_ite


/-! ### SelfTest.lean -/

theorem State.repairRow_kept {q : List Instr} (s : State) (a : Nat) (row : Nat) (h : Kept q s) : Kept q (State.repairRow s a row) := by
  unfold State.repairRow
  repeat' first
    | with_reducible assumption | (extract_lets +onlyGivenNames x; unfold x; clear x) | with_reducible apply State.raise_kept
    | with_reducible apply State.inc_kept | with_reducible apply State.setBitTo_kept | with_reducible apply State.quarantine_kept
    | (with_reducible apply kept_nv; with_reducible assumption) | split

theorem State.repairRows_kept {q : List Instr} (s : State) (a : Nat) (rows : List Nat) (h : Kept q s) : Kept q
    (State.repairRows s a rows) := by
  unfold State.repairRows
  repeat' first | with_reducible assumption | intro _ | with_reducible apply State.repairRow_kept | with_reducible apply kept_foldl

theorem State.showRun_kept {q : List Instr} (s : State) (h : Kept q s) : Kept q (State.showRun s) := by
  unfold State.showRun
  repeat' first | with_reducible assumption | with_reducible apply State.set_kept

theorem State.runDone_kept {q : List Instr} (s : State) (h : Kept q s) : Kept q (State.runDone s) := by
  unfold State.runDone
  repeat' first
    | with_reducible assumption | with_reducible apply State.raise_kept | with_reducible apply State.set_kept
    | with_reducible apply State.showRun_kept

theorem State.startRun_kept {q : List Instr} (s : State) (arrays : List Nat) (h : Kept q s) : Kept q (State.startRun s arrays) := by
  unfold State.startRun
  repeat' first
    | with_reducible assumption | (extract_lets +onlyGivenNames x; unfold x; clear x) | with_reducible apply State.set_kept
    | with_reducible apply State.inc_kept | with_reducible apply State.runDone_kept | with_reducible apply State.showRun_kept
    | with_reducible apply kept_ite | (with_reducible apply kept_parts; with_reducible apply State.set_kept)

theorem State.bistGo_kept {q : List Instr} (s : State) (h : Kept q s) : Kept q (State.bistGo s) := by
  unfold State.bistGo
  repeat' first
    | with_reducible assumption | with_reducible apply State.modeRefused_kept | with_reducible apply State.raise_kept
    | with_reducible apply State.startRun_kept | with_reducible apply kept_ite

theorem State.bistAbort_kept {q : List Instr} (s : State) (h : Kept q s) : Kept q (State.bistAbort s) := by
  unfold State.bistAbort
  repeat' first
    | with_reducible assumption | with_reducible apply State.showRun_kept | with_reducible apply kept_ite
    | (with_reducible apply kept_parts; with_reducible assumption)

theorem execBistGo_kept {q : List Instr} (who : Req) (s : State) (h : Kept q s) : ∃ t, execBistGo who s = .next t ∧ Kept q t := by
  unfold execBistGo
  refine ⟨_, rfl, ?_⟩
  repeat' first | with_reducible assumption | intro _ | with_reducible apply State.rwAction_kept | with_reducible apply State.bistGo_kept

theorem execBistAbort_kept {q : List Instr} (who : Req) (s : State) (h : Kept q s) : ∃ t, execBistAbort who s = .next t ∧ Kept q t := by
  unfold execBistAbort
  refine ⟨_, rfl, ?_⟩
  repeat' first | with_reducible assumption | intro _ | with_reducible apply State.rwAction_kept | with_reducible apply State.bistAbort_kept

theorem execBistSegmentDone_kept {q : List Instr} (array : Nat) (rows : List Nat) (s : State)
    (h : Kept q s) : ∃ t, execBistSegmentDone array rows s = .next t ∧ Kept q t := by
  unfold execBistSegmentDone
  refine ⟨_, rfl, ?_⟩
  repeat' first
    | with_reducible assumption | (extract_lets +onlyGivenNames x; unfold x; clear x) | with_reducible apply State.runDone_kept
    | with_reducible apply State.showRun_kept | with_reducible apply kept_ite
    | (with_reducible apply kept_parts; with_reducible assumption)
    | (with_reducible apply kept_parts; with_reducible apply State.repairRows_kept) | split

theorem State.bistFuse_kept {q : List Instr} (s : State) (a : Nat) (h : Kept q s) : Kept q (State.bistFuse s a) := by
  unfold State.bistFuse
  repeat' first
    | with_reducible assumption | (extract_lets +onlyGivenNames x; unfold x; clear x) | with_reducible apply State.set_kept
    | with_reducible apply State.raise_kept | with_reducible apply kept_ite

theorem execBistFuse_kept {q : List Instr} (who : Req) (array : Nat) (s : State)
    (h : Kept q s) : ∃ t, execBistFuse who array s = .next t ∧ Kept q t := by
  unfold execBistFuse
  refine ⟨_, rfl, ?_⟩
  repeat' first | with_reducible assumption | intro _ | with_reducible apply State.rwAction_kept | with_reducible apply State.bistFuse_kept

theorem execFuseDone_kept {q : List Instr} (s : State) (h : Kept q s) : ∃ t, execFuseDone s = .next t ∧ Kept q t := by
  unfold execFuseDone
  refine ⟨_, rfl, ?_⟩
  repeat' first
    | with_reducible assumption | (extract_lets +onlyGivenNames x; unfold x; clear x) | with_reducible apply State.startRun_kept
    | with_reducible apply State.raise_kept | with_reducible apply State.set_kept | with_reducible apply kept_ite
    | (with_reducible apply kept_nv; with_reducible assumption)

theorem execBistClr_kept {q : List Instr} (who : Req) (s : State) (h : Kept q s) : ∃ t, execBistClr who s = .next t ∧ Kept q t := by
  unfold execBistClr
  refine ⟨_, rfl, ?_⟩
  repeat' first | with_reducible assumption | intro _ | with_reducible apply State.rwAction_kept | with_reducible apply State.clear_kept

theorem State.testRead_kept {q : List Instr} (s : State) (ua : Nat) (h : Kept q s) : Kept q (State.testRead s ua) := by
  unfold State.testRead
  repeat' first
    | with_reducible assumption | with_reducible apply State.wantUnit_kept | with_reducible apply State.addRead_kept
    | with_reducible apply kept_ite

theorem execSelftestChunk_kept {q : List Instr} (uas : List Nat) (s : State)
    (h : Kept q s) : ∃ t, execSelftestChunk uas s = .next t ∧ Kept q t := by
  unfold execSelftestChunk
  refine ⟨_, rfl, ?_⟩
  repeat' first
    | with_reducible assumption | intro _ | (extract_lets +onlyGivenNames x; unfold x; clear x) | with_reducible apply State.testRead_kept
    | with_reducible apply kept_ite | with_reducible apply kept_foldl | (with_reducible apply kept_parts; with_reducible assumption)

theorem execSelftestResume_kept {q : List Instr} (forced : Bool) (s : State)
    (h : Kept q s) : ∃ t, execSelftestResume forced s = .next t ∧ Kept q t := by
  unfold execSelftestResume
  refine ⟨_, rfl, ?_⟩
  repeat' first
    | with_reducible assumption | (extract_lets +onlyGivenNames x; unfold x; clear x) | with_reducible apply kept_ite
    | (with_reducible apply kept_parts; with_reducible assumption)

theorem State.failSeg_kept {q : List Instr} (s : State) (fail : Bool) (h : Kept q s) : Kept q (State.failSeg s fail) := by
  unfold State.failSeg
  repeat' first
    | with_reducible assumption | (extract_lets +onlyGivenNames x; unfold x; clear x) | with_reducible apply kept_ite
    | (with_reducible apply kept_parts; with_reducible assumption)

theorem execSelftestSegmentDone_kept {q : List Instr} (ok : Bool) (rows : List (Nat × Nat)) (s : State)
    (h : Kept q s) : ∃ t, execSelftestSegmentDone ok rows s = .next t ∧ Kept q t := by
  unfold execSelftestSegmentDone
  refine ⟨_, rfl, ?_⟩
  repeat' first
    | with_reducible assumption | intro _
    | (extract_lets +onlyGivenNames x; with_reducible refine kept_imp (q := q) x ?_ ?_; unfold x; clear x; rotate_left; intro _; clear_value x; revert x; intros; rotate_right)
    | (extract_lets +onlyGivenNames x; unfold x; clear x) | with_reducible apply State.failSeg_kept
    | with_reducible apply State.repairRow_kept | with_reducible apply State.logTest_kept | with_reducible apply kept_ite
    | with_reducible apply kept_foldl | (with_reducible apply kept_parts; with_reducible assumption)

theorem State.testRecord_kept {q : List Instr} (s : State) (h : Kept q s) : Kept q (State.testRecord s) := by
  unfold State.testRecord
  repeat' first
    | with_reducible assumption | (extract_lets +onlyGivenNames x; unfold x; clear x) | with_reducible apply kept_ite
    | (with_reducible apply kept_parts; with_reducible assumption)

theorem State.fiCfg_kept {q : List Instr} (s : State) (i : Nat) (v : Nat) (h : Kept q s) : Kept q (State.fiCfg s i v) := by
  unfold State.fiCfg
  repeat' first
    | with_reducible assumption | (extract_lets +onlyGivenNames x; unfold x; clear x) | with_reducible apply State.raise_kept
    | with_reducible apply State.fiStopOne_kept | with_reducible apply State.set_kept | with_reducible apply kept_ite

theorem execFiCfgWrite_kept {q : List Instr} (who : Req) (i : Nat) (val : Nat) (s : State)
    (h : Kept q s) : ∃ t, execFiCfgWrite who i val s = .next t ∧ Kept q t := by
  unfold execFiCfgWrite
  refine ⟨_, rfl, ?_⟩
  repeat' first
    | with_reducible assumption | intro _ | with_reducible apply State.rwAction_kept | with_reducible apply State.fiCfg_kept
    | with_reducible apply kept_ite

theorem State.fiEn_kept {q : List Instr} (s : State) (en : Bool) (h : Kept q s) : Kept q (State.fiEn s en) := by
  unfold State.fiEn
  repeat' first
    | with_reducible assumption | with_reducible apply State.set_kept | with_reducible apply State.fiStop_kept
    | with_reducible apply kept_ite

theorem execFiCtlEn_kept {q : List Instr} (who : Req) (en : Bool) (s : State)
    (h : Kept q s) : ∃ t, execFiCtlEn who en s = .next t ∧ Kept q t := by
  unfold execFiCtlEn
  refine ⟨_, rfl, ?_⟩
  repeat' first | with_reducible assumption | intro _ | with_reducible apply State.rwAction_kept | with_reducible apply State.fiEn_kept


/-! ### TimeKeep.lean -/

theorem State.advanceCal_kept {q : List Instr} (s : State) (h : Kept q s) : Kept q (State.advanceCal s) := by
  unfold State.advanceCal
  repeat' first | with_reducible assumption | (extract_lets +onlyGivenNames x; unfold x; clear x) | with_reducible apply State.set_kept | split

theorem State.tick_kept {q : List Instr} (s : State) (h : Kept q s) : Kept q (State.tick s) := by
  unfold State.tick
  repeat' first
    | with_reducible assumption | with_reducible apply State.advanceCal_kept | with_reducible apply kept_ite
    | (with_reducible apply kept_parts; with_reducible assumption)

theorem execTimebaseMarker_kept {q : List Instr} (s : State) (h : Kept q s) : ∃ t, execTimebaseMarker s = .next t ∧ Kept q t := by
  unfold execTimebaseMarker
  refine ⟨_, rfl, ?_⟩
  repeat' first
    | with_reducible assumption | (extract_lets +onlyGivenNames x; unfold x; clear x) | with_reducible apply kept_ite
    | (with_reducible apply kept_parts; with_reducible assumption)

theorem State.fireAlarm_kept {q : List Instr} (s : State) (straps : Nat) (unstable : Nat) (h : Kept q s) : Kept q
    (State.fireAlarm s straps unstable) := by
  unfold State.fireAlarm
  repeat' first
    | with_reducible assumption | (extract_lets +onlyGivenNames x; unfold x; clear x) | with_reducible apply State.set_kept
    | with_reducible apply State.restart_kept | with_reducible apply State.raise_kept | with_reducible apply State.beginTrans_kept
    | with_reducible apply State.wakeOut_kept | with_reducible apply kept_ite

theorem State.writeAlarm_kept {q : List Instr} (s : State) (v : Nat) (h : Kept q s) : Kept q (State.writeAlarm s v) := by
  unfold State.writeAlarm
  repeat' first
    | with_reducible assumption | (extract_lets +onlyGivenNames x; unfold x; clear x) | with_reducible apply State.set_kept
    | with_reducible apply State.fireAlarm_kept | with_reducible apply kept_ite

theorem execAlarmWrite_kept {q : List Instr} (who : Req) (val : Nat) (s : State)
    (h : Kept q s) : ∃ t, execAlarmWrite who val s = .next t ∧ Kept q t := by
  unfold execAlarmWrite
  refine ⟨_, rfl, ?_⟩
  repeat' first | with_reducible assumption | intro _ | with_reducible apply State.rwAction_kept | with_reducible apply State.writeAlarm_kept

theorem State.secondEdge_kept {q : List Instr} (s : State) (sub : Nat) (straps : Nat) (unstable : Nat) (h : Kept q s) : Kept q
    (State.secondEdge s sub straps unstable) := by
  unfold State.secondEdge
  repeat' first
    | (extract_lets +onlyGivenNames x; unfold x; clear x) | with_reducible apply State.set_kept
    | with_reducible apply State.fireAlarm_kept | with_reducible apply kept_ite
    | (with_reducible apply kept_parts; with_reducible assumption)

theorem execCalendarSecondEdge_kept {q : List Instr} (straps : Nat) (unstable : Nat) (s : State)
    (h : Kept q s) : ∃ t, execCalendarSecondEdge straps unstable s = .next t ∧ Kept q t := by
  unfold execCalendarSecondEdge
  refine ⟨_, rfl, ?_⟩
  repeat' first | with_reducible assumption | with_reducible apply State.secondEdge_kept | with_reducible apply kept_ite

theorem execCalendarTrim_kept {q : List Instr} (sub : Nat) (s : State) (h : Kept q s) : ∃ t, execCalendarTrim sub s = .next t ∧ Kept q t := by
  unfold execCalendarTrim
  refine ⟨_, rfl, ?_⟩
  repeat' first
    | with_reducible assumption | (extract_lets +onlyGivenNames x; unfold x; clear x) | with_reducible apply State.secondEdge_kept
    | with_reducible apply kept_ite | (with_reducible apply kept_parts; with_reducible assumption)
    | (with_reducible apply kept_dram; with_reducible assumption)

theorem State.refreshCal_kept {q : List Instr} (s : State) (h : Kept q s) : Kept q (State.refreshCal s) := by
  unfold State.refreshCal
  repeat' first
    | with_reducible assumption | (extract_lets +onlyGivenNames x; unfold x; clear x) | with_reducible apply State.set_kept
    | with_reducible apply kept_ite | (with_reducible apply kept_parts; with_reducible assumption)

theorem execCalendarRefresh_kept {q : List Instr} (sub : Nat) (s : State)
    (h : Kept q s) : ∃ t, execCalendarRefresh sub s = .next t ∧ Kept q t := by
  unfold execCalendarRefresh
  refine ⟨_, rfl, ?_⟩
  repeat' first
    | with_reducible assumption | (extract_lets +onlyGivenNames x; unfold x; clear x) | with_reducible apply State.refreshCal_kept
    | with_reducible apply kept_ite | (with_reducible apply kept_parts; with_reducible assumption)

theorem State.setCal_kept {q : List Instr} (s : State) (v : Nat) (h : Kept q s) : Kept q (State.setCal s v) := by
  unfold State.setCal
  repeat' first
    | (extract_lets +onlyGivenNames x; unfold x; clear x) | with_reducible apply State.set_kept | with_reducible apply State.raise_kept
    | with_reducible apply State.inc_kept | with_reducible apply State.fireAlarm_kept | with_reducible apply kept_ite
    | (with_reducible apply kept_parts; with_reducible assumption)

theorem execCalSet_kept {q : List Instr} (who : Req) (val : Nat) (s : State)
    (h : Kept q s) : ∃ t, execCalSet who val s = .next t ∧ Kept q t := by
  unfold execCalSet
  refine ⟨_, rfl, ?_⟩
  repeat' first | with_reducible assumption | intro _ | with_reducible apply State.rwAction_kept | with_reducible apply State.setCal_kept

theorem execVbakMeasure_kept {q : List Instr} (mv : Nat) (s : State) (h : Kept q s) : ∃ t, execVbakMeasure mv s = .next t ∧ Kept q t := by
  unfold execVbakMeasure
  refine ⟨_, rfl, ?_⟩
  repeat' first
    | with_reducible assumption | (extract_lets +onlyGivenNames x; unfold x; clear x) | with_reducible apply State.raiseIf_kept
    | with_reducible apply State.setBitTo_kept | with_reducible apply State.set_kept | with_reducible apply kept_ite

theorem execKeepSupplyLoss_kept {q : List Instr} (s : State) (h : Kept q s) : ∃ t, execKeepSupplyLoss s = .next t ∧ Kept q t := by
  unfold execKeepSupplyLoss
  refine ⟨_, rfl, ?_⟩
  repeat' first
    | with_reducible assumption | (extract_lets +onlyGivenNames x; unfold x; clear x) | with_reducible apply State.set_kept
    | with_reducible apply State.clear_kept | with_reducible apply kept_ite | (with_reducible apply kept_parts; with_reducible assumption)

theorem execKeepSupplyReturn_kept {q : List Instr} (s : State) (h : Kept q s) : ∃ t, execKeepSupplyReturn s = .next t ∧ Kept q t := by
  unfold execKeepSupplyReturn
  refine ⟨_, rfl, ?_⟩
  repeat' first | with_reducible assumption | with_reducible apply kept_ite | (with_reducible apply kept_parts; with_reducible assumption)

theorem execRtcLoss_kept {q : List Instr} (s : State) (h : Kept q s) : ∃ t, execRtcLoss s = .next t ∧ Kept q t := by
  unfold execRtcLoss
  refine ⟨_, rfl, ?_⟩
  repeat' first
    | with_reducible assumption | (extract_lets +onlyGivenNames x; unfold x; clear x) | with_reducible apply State.set_kept
    | with_reducible apply State.raise_kept | with_reducible apply kept_ite
    | (with_reducible apply kept_parts; with_reducible apply State.set_kept)

theorem execRtcRestored_kept {q : List Instr} (s : State) (h : Kept q s) : ∃ t, execRtcRestored s = .next t ∧ Kept q t := by
  unfold execRtcRestored
  refine ⟨_, rfl, ?_⟩
  repeat' first
    | with_reducible assumption | (extract_lets +onlyGivenNames x; unfold x; clear x) | with_reducible apply State.set_kept
    | with_reducible apply kept_ite | (with_reducible apply kept_parts; with_reducible apply State.set_kept)

theorem State.ltcUnlock_kept {q : List Instr} (s : State) (h : Kept q s) : Kept q (State.ltcUnlock s) := by
  unfold State.ltcUnlock
  repeat' first
    | with_reducible assumption | with_reducible apply State.raise_kept | with_reducible apply State.inc_kept
    | with_reducible apply State.set_kept | with_reducible apply kept_ite

theorem State.jam_kept {q : List Instr} (s : State) (addr : Nat) (rate : Nat) (boundary : Nat) (period : Nat)
    (h : Kept q s) : Kept q (State.jam s addr rate boundary period) := by
  unfold State.jam
  repeat' first
    | (extract_lets +onlyGivenNames x; unfold x; clear x) | with_reducible apply State.set_kept
    | (with_reducible apply kept_parts; with_reducible assumption)

theorem State.ltcValid_kept {q : List Instr} (s : State) (addr : Nat) (rate : Nat) (user : Nat) (boundary : Nat) (period : Nat)
    (h : Kept q s) : Kept q (State.ltcValid s addr rate user boundary period) := by
  unfold State.ltcValid
  repeat' first
    | with_reducible assumption | (extract_lets +onlyGivenNames x; unfold x; clear x) | with_reducible apply State.set_kept
    | with_reducible apply State.inc_kept | with_reducible apply State.tcBoundary_kept | with_reducible apply State.jam_kept
    | with_reducible apply kept_ite | (with_reducible apply kept_parts; with_reducible apply State.set_kept)
    | (with_reducible apply kept_parts; with_reducible apply State.ltcUnlock_kept)
    | (with_reducible apply kept_parts; with_reducible apply State.raise_kept) | split

theorem execLtcFrame_kept {q : List Instr} (cells : Bool) (addr : Nat) (rate : Nat) (user : Nat) (boundary : Nat) (period : Nat)
    (s : State) (h : Kept q s) : ∃ t, execLtcFrame cells addr rate user boundary period s = .next t ∧ Kept q t := by
  unfold execLtcFrame
  refine ⟨_, rfl, ?_⟩
  repeat' first
    | with_reducible assumption | (extract_lets +onlyGivenNames x; unfold x; clear x) | with_reducible apply State.ltcValid_kept
    | with_reducible apply State.inc_kept | with_reducible apply kept_ite | (with_reducible apply kept_parts; with_reducible assumption)

theorem execLtcLossTimeout_kept {q : List Instr} (s : State) (h : Kept q s) : ∃ t, execLtcLossTimeout s = .next t ∧ Kept q t := by
  unfold execLtcLossTimeout
  refine ⟨_, rfl, ?_⟩
  repeat' first
    | with_reducible assumption | (extract_lets +onlyGivenNames x; unfold x; clear x) | with_reducible apply kept_ite
    | (with_reducible apply kept_parts; with_reducible apply State.ltcUnlock_kept)

theorem execGeneratorBoundary_kept {q : List Instr} (s : State) (h : Kept q s) : ∃ t, execGeneratorBoundary s = .next t ∧ Kept q t := by
  unfold execGeneratorBoundary
  refine ⟨_, rfl, ?_⟩
  repeat' first
    | with_reducible assumption | (extract_lets +onlyGivenNames x; unfold x; clear x) | with_reducible apply State.set_kept
    | with_reducible apply State.tcBoundary_kept | with_reducible apply kept_ite
    | (with_reducible apply kept_parts; with_reducible assumption)
    | (with_reducible apply kept_parts; with_reducible apply State.ltcUnlock_kept) | split

theorem State.genPreset_kept {q : List Instr} (s : State) (addr : Nat) (h : Kept q s) : Kept q (State.genPreset s addr) := by
  unfold State.genPreset
  repeat' first
    | with_reducible assumption | (extract_lets +onlyGivenNames x; unfold x; clear x) | with_reducible apply State.raise_kept
    | with_reducible apply kept_ite | (with_reducible apply kept_parts; with_reducible assumption)

theorem execGenPreset_kept {q : List Instr} (who : Req) (addr : Nat) (s : State)
    (h : Kept q s) : ∃ t, execGenPreset who addr s = .next t ∧ Kept q t := by
  unfold execGenPreset
  refine ⟨_, rfl, ?_⟩
  repeat' first | with_reducible assumption | intro _ | with_reducible apply State.rwAction_kept | with_reducible apply State.genPreset_kept

theorem execTimeClr_kept {q : List Instr} (who : Req) (s : State) (h : Kept q s) : ∃ t, execTimeClr who s = .next t ∧ Kept q t := by
  unfold execTimeClr
  refine ⟨_, rfl, ?_⟩
  repeat' first | with_reducible assumption | intro _ | with_reducible apply State.rwAction_kept | with_reducible apply State.clear_kept


/-! ### Ready.lean -/

theorem State.secStart_kept {q : List Instr} (s : State) (h : Kept q s) : Kept q (State.secStart s) := by
  unfold State.secStart
  repeat' first
    | (extract_lets +onlyGivenNames x; unfold x; clear x) | with_reducible apply State.set_kept
    | with_reducible apply State.showTamper_kept | with_reducible apply State.setSec_kept | with_reducible apply State.raise_kept
    | with_reducible apply State.raiseIf_kept | with_reducible apply State.setReady_kept | with_reducible apply State.showSec_kept
    | with_reducible apply State.tamperAct_kept | with_reducible apply kept_ite
    | (with_reducible apply kept_nv; with_reducible assumption) | (with_reducible apply kept_nv; with_reducible apply State.disarm_kept)
    | split

theorem State.dramRegionsSet_kept {q : List Instr} (s : State) (h : Kept q s) : Kept q (State.dramRegionsSet s) := by
  unfold State.dramRegionsSet
  repeat' first | with_reducible assumption | (extract_lets +onlyGivenNames x; unfold x; clear x) | with_reducible apply State.set_kept

theorem State.dramStart_kept {q : List Instr} (s : State) (found : List Nat) (h : Kept q s) : Kept q (State.dramStart s found) := by
  unfold State.dramStart
  extract_lets +onlyGivenNames x
  split
  · exact State.failFn_kept _ _ h
  · extract_lets +onlyGivenNames chans s1 s2 s3 s4 kept held form s5 s6 s7
    have h4 : Kept q s4 := State.dramRegionsSet_kept _ (State.set_kept _ _ _ (State.set_kept _ _ _ (State.set_kept _ _ _
      (State.set_kept _ _ _ (State.set_kept _ _ _ (State.set_kept _ _ _ h))))))
    clear_value s4
    have h5 : Kept q s5 := State.set_kept _ _ _ (State.set_kept _ _ _ (State.set_kept _ _ _ h4))
    have h6 : Kept q s6 := kept_ite (State.set_kept _ _ _ h5) h5
    have h7 : Kept q s7 := by
      refine kept_mem ?_ h6
      split
      · exact h.mem
      · rfl
    exact State.setReady_kept _ _ (State.raiseIf_kept _ _ _ (State.raise_kept _ _ h7))

theorem State.applyConfig_kept {q : List Instr} (x0 : List Nat) (x1 : State) (h : Kept q x1) : Kept q (State.applyConfig x0 x1) := by
  fun_induction State.applyConfig x0 x1 with
  | case1 s a v rest fs ih =>
    refine ih (kept_foldl (fun s f hs => ?_) h)
    dsimp only
    split
    · exact State.set_kept _ _ _ hs
    · exact hs
  | case2 => exact h

theorem State.configStart_kept {q : List Instr} (s : State) (found : List Nat) (h : Kept q s) : Kept q (State.configStart s found) := by
  unfold State.configStart
  repeat' first
    | with_reducible assumption | intro _ | (extract_lets +onlyGivenNames x; unfold x; clear x)
    | with_reducible apply State.applyConfig_kept | with_reducible apply State.adopted_kept | with_reducible apply State.compareVin_kept
    | with_reducible apply State.startFns_kept | with_reducible apply State.setReady_kept | with_reducible apply kept_ite
    | with_reducible apply kept_foldl

theorem State.bistStart_kept {q : List Instr} (s : State) (rows : List Nat) (h : Kept q s) : Kept q (State.bistStart s rows) := by
  unfold State.bistStart
  repeat' first
    | with_reducible assumption | intro _ | (extract_lets +onlyGivenNames x; unfold x; clear x)
    | with_reducible apply State.repairRow_kept | with_reducible apply State.faultFn_kept | with_reducible apply State.setReady_kept
    | with_reducible apply kept_ite | with_reducible apply kept_foldl

theorem State.sealBlocksStart_kept {q : List Instr} (s : State) (h : Kept q s) : Kept q (State.sealBlocksStart s) := by
  unfold State.sealBlocksStart
  repeat' first
    | with_reducible assumption
    | (extract_lets +onlyGivenNames x; with_reducible refine kept_imp (q := q) x ?_ ?_; unfold x; clear x; rotate_left; intro _; clear_value x; revert x; intros; rotate_right)
    | (extract_lets +onlyGivenNames x; unfold x; clear x) | with_reducible apply State.setReady_kept | with_reducible apply kept_ite
    | (with_reducible apply kept_parts; with_reducible assumption) | (with_reducible apply kept_nv; with_reducible assumption)

theorem State.journalStart_kept {q : List Instr} (s : State) (h : Kept q s) : Kept q (State.journalStart s) := by
  unfold State.journalStart
  repeat' first
    | with_reducible assumption | (extract_lets +onlyGivenNames x; unfold x; clear x) | with_reducible apply State.set_kept
    | with_reducible apply State.confirmImage_kept | with_reducible apply State.setReady_kept
    | (with_reducible apply kept_parts; with_reducible apply State.set_kept)

theorem State.mapFullStart_kept {q : List Instr} (s : State) (h : Kept q s) : Kept q (State.mapFullStart s) := by
  unfold State.mapFullStart
  repeat' first
    | with_reducible assumption | (extract_lets +onlyGivenNames x; unfold x; clear x) | with_reducible apply State.set_kept
    | with_reducible apply State.noteSpace_kept | with_reducible apply State.fillReserve_kept | with_reducible apply State.raise_kept
    | with_reducible apply State.setReady_kept

theorem State.groomStart_kept {q : List Instr} (s : State) (h : Kept q s) : Kept q (State.groomStart s) := by
  unfold State.groomStart
  repeat' first
    | with_reducible assumption | intro _ | (extract_lets +onlyGivenNames x; unfold x; clear x) | with_reducible apply State.setReady_kept
    | with_reducible apply State.freeBandsNow_kept | with_reducible apply State.askErase_kept | with_reducible apply kept_foldl

theorem State.startFn_kept {q : List Instr} (s : State) (n : Nat) (found : List Nat) (h : Kept q s) : Kept q (State.startFn s n found) := by
  unfold State.startFn
  repeat' first
    | with_reducible assumption | intro _ | (extract_lets +onlyGivenNames x; unfold x; clear x) | with_reducible apply State.setReady_kept
    | with_reducible apply State.beginTrans_kept | with_reducible apply State.failFn_kept | with_reducible apply State.refreshCal_kept
    | with_reducible apply State.configStart_kept | with_reducible apply State.secStart_kept | with_reducible apply State.set_kept
    | with_reducible apply State.bistStart_kept | with_reducible apply State.dramStart_kept | with_reducible apply State.noteFlow_kept
    | with_reducible apply State.startDiscovery_kept | with_reducible apply State.sealBlocksStart_kept
    | with_reducible apply State.setAdmit_kept | with_reducible apply State.journalStart_kept
    | with_reducible apply State.mapFullStart_kept | with_reducible apply State.groomStart_kept | with_reducible apply kept_ite
    | with_reducible apply kept_foldl | (with_reducible apply State.bootUp_kept; rotate_left; with_reducible assumption) | split

theorem State.wakeCheck_kept {q : List Instr} (s : State) (h : Kept q s) : Kept q (State.wakeCheck s) := by
  unfold State.wakeCheck
  repeat' first | with_reducible assumption | with_reducible apply State.beginTrans_kept | with_reducible apply kept_ite

theorem execFunctionReady_kept {q : List Instr} (fn : Nat) (found : List Nat) (s : State)
    (h : Kept q s) : ∃ t, execFunctionReady fn found s = .next t ∧ Kept q t := by
  unfold execFunctionReady
  refine ⟨_, rfl, ?_⟩
  repeat' first
    | with_reducible assumption | with_reducible apply State.wakeCheck_kept | with_reducible apply State.startFn_kept
    | with_reducible apply kept_ite

theorem State.keepFromRest_kept {q : List Instr} (s : State) (cause : Nat) (h : Kept q s) : Kept q (State.keepFromRest s cause) := by
  unfold State.keepFromRest
  repeat' first
    | (extract_lets +onlyGivenNames x; unfold x; clear x) | with_reducible apply State.toKeep_kept
    | (with_reducible apply kept_parts; with_reducible assumption)

theorem State.endCommit_kept {q : List Instr} (s : State) (h : Kept q s) : Kept q (State.endCommit s) := by
  unfold State.endCommit
  repeat' first
    | with_reducible assumption | (extract_lets +onlyGivenNames x; unfold x; clear x) | with_reducible apply State.ok_kept
    | (with_reducible apply kept_parts; with_reducible assumption) | split

theorem State.arriveMode_kept {q : List Instr} (s : State) (t : Trans) (h : Kept q s) : Kept q (State.arriveMode s t) := by
  unfold State.arriveMode
  repeat' first
    | with_reducible assumption | (extract_lets +onlyGivenNames x; unfold x; clear x) | with_reducible apply State.keepFromRest_kept
    | with_reducible apply State.changeMode_kept | with_reducible apply State.startFns_kept | with_reducible apply State.set_kept
    | with_reducible apply State.endCommit_kept | with_reducible apply State.enterUpdate_kept | with_reducible apply kept_ite

theorem State.judgeTakes_kept {q : List Instr} (s : State) (h : Kept q s) : Kept q (State.judgeTakes s) := by
  unfold State.judgeTakes
  repeat' first
    | with_reducible assumption | intro _ | (extract_lets +onlyGivenNames x; unfold x; clear x)
    | with_reducible apply State.judgeTake_kept | with_reducible apply kept_foldl
    | (with_reducible apply kept_parts; with_reducible assumption)

theorem execModeTransitionComplete_kept {q : List Instr} (s : State)
    (h : Kept q s) : ∃ t, execModeTransitionComplete s = .next t ∧ Kept q t := by
  unfold execModeTransitionComplete
  refine ⟨_, rfl, ?_⟩
  repeat' first
    | with_reducible assumption | (extract_lets +onlyGivenNames x; unfold x; clear x) | with_reducible apply State.arriveMode_kept
    | with_reducible apply State.wakeCheck_kept | with_reducible apply State.testRecord_kept | with_reducible apply State.judgeHeld_kept
    | with_reducible apply State.groomCheck_kept | with_reducible apply State.judgeTakes_kept | with_reducible apply State.fiCheck_kept
    | with_reducible apply State.endWait_kept | with_reducible apply kept_ite
    | (with_reducible apply kept_parts; with_reducible assumption) | split


/-! ### Sdma.lean -/

theorem State.sdmaTake_kept {q : List Instr} (s : State) (n : Nat) (x : Xfer) (h : Kept q s) : Kept q (State.sdmaTake s n x) := by
  unfold State.sdmaTake
  repeat' first
    | (extract_lets +onlyGivenNames x; unfold x; clear x) | with_reducible apply State.raise_kept | with_reducible apply State.set_kept
    | with_reducible apply kept_ite | (with_reducible apply kept_parts; with_reducible assumption)

theorem State.sdmaIgnored_kept {q : List Instr} (s : State) (h : Kept q s) : Kept q (State.sdmaIgnored s) := by
  unfold State.sdmaIgnored
  repeat' first | with_reducible assumption | with_reducible apply State.raise_kept

theorem State.sdmaGo_kept {q : List Instr} (s : State) (who : Req) (n : Nat) (h : Kept q s) : Kept q (State.sdmaGo s who n) := by
  unfold State.sdmaGo
  repeat' first
    | with_reducible assumption | (extract_lets +onlyGivenNames x; unfold x; clear x) | with_reducible apply State.sdmaIgnored_kept
    | with_reducible apply State.set_kept | with_reducible apply State.sdmaError_kept | with_reducible apply State.sdmaTake_kept
    | with_reducible apply kept_ite

theorem State.sdmaFetch_kept {q : List Instr} (s : State) (n : Nat) (h : Kept q s) : Kept q (State.sdmaFetch s n) := by
  unfold State.sdmaFetch
  repeat' first | with_reducible assumption | with_reducible apply State.sdmaTake_kept

theorem State.sdmaKick_kept {q : List Instr} (s : State) (who : Req) (n : Nat) (h : Kept q s) : Kept q (State.sdmaKick s who n) := by
  unfold State.sdmaKick
  repeat' first
    | with_reducible assumption | (extract_lets +onlyGivenNames x; unfold x; clear x) | with_reducible apply State.sdmaIgnored_kept
    | with_reducible apply State.set_kept | with_reducible apply State.sdmaError_kept | with_reducible apply State.sdmaFetch_kept
    | with_reducible apply kept_ite

theorem State.sdmaRingReset_kept {q : List Instr} (s : State) (n : Nat) (h : Kept q s) : Kept q (State.sdmaRingReset s n) := by
  unfold State.sdmaRingReset
  repeat' first | with_reducible assumption | with_reducible apply State.set_kept | with_reducible apply kept_ite

theorem State.sdmaPauseTo_kept {q : List Instr} (s : State) (n : Nat) (on : Bool) (h : Kept q s) : Kept q (State.sdmaPauseTo s n on) := by
  unfold State.sdmaPauseTo
  repeat' first
    | with_reducible assumption | (extract_lets +onlyGivenNames x; unfold x; clear x) | with_reducible apply State.set_kept
    | with_reducible apply kept_ite

theorem State.sdmaEn_kept {q : List Instr} (s : State) (n : Nat) (en : Bool) (h : Kept q s) : Kept q (State.sdmaEn s n en) := by
  unfold State.sdmaEn
  repeat' first
    | with_reducible assumption | (extract_lets +onlyGivenNames x; unfold x; clear x) | with_reducible apply State.set_kept
    | with_reducible apply State.sdmaStop_kept | with_reducible apply kept_ite | split

theorem State.sdmaClr_kept {q : List Instr} (s : State) (h : Kept q s) : Kept q (State.sdmaClr s) := by
  unfold State.sdmaClr
  repeat' first | with_reducible assumption | with_reducible apply State.clear_kept

theorem State.sdmaBy_kept {q : List Instr} (s : State) (who : Req) (n : Nat) (off : Nat) (f : State → State) (h : Kept q s)
    (h4 : ∀ y0, Kept q y0 → Kept q (f y0)) : Kept q (State.sdmaBy s who n off f) := by
  unfold State.sdmaBy
  repeat' first
    | with_reducible assumption | intro _ | with_reducible apply State.rwAction_kept | with_reducible apply State.logAccess_kept
    | with_reducible apply State.raise_kept | with_reducible apply h4 | with_reducible apply kept_ite

theorem execSdmaGo_kept {q : List Instr} (who : Req) (n : Nat) (s : State) (h : Kept q s) : ∃ t, execSdmaGo who n s = .next t ∧ Kept q t := by
  unfold execSdmaGo
  refine ⟨_, rfl, ?_⟩
  repeat' first | with_reducible assumption | intro _ | with_reducible apply State.sdmaBy_kept | with_reducible apply State.sdmaGo_kept

theorem execSdmaKick_kept {q : List Instr} (who : Req) (n : Nat) (s : State)
    (h : Kept q s) : ∃ t, execSdmaKick who n s = .next t ∧ Kept q t := by
  unfold execSdmaKick
  refine ⟨_, rfl, ?_⟩
  repeat' first | with_reducible assumption | intro _ | with_reducible apply State.sdmaBy_kept | with_reducible apply State.sdmaKick_kept

theorem execSdmaRingReset_kept {q : List Instr} (who : Req) (n : Nat) (s : State)
    (h : Kept q s) : ∃ t, execSdmaRingReset who n s = .next t ∧ Kept q t := by
  unfold execSdmaRingReset
  refine ⟨_, rfl, ?_⟩
  repeat' first | with_reducible assumption | intro _ | with_reducible apply State.sdmaBy_kept | with_reducible apply State.sdmaRingReset_kept

theorem execSdmaPause_kept {q : List Instr} (who : Req) (n : Nat) (pause : Bool) (s : State)
    (h : Kept q s) : ∃ t, execSdmaPause who n pause s = .next t ∧ Kept q t := by
  unfold execSdmaPause
  refine ⟨_, rfl, ?_⟩
  repeat' first | with_reducible assumption | intro _ | with_reducible apply State.sdmaBy_kept | with_reducible apply State.sdmaPauseTo_kept

theorem execSdmaCtlEn_kept {q : List Instr} (who : Req) (n : Nat) (en : Bool) (s : State)
    (h : Kept q s) : ∃ t, execSdmaCtlEn who n en s = .next t ∧ Kept q t := by
  unfold execSdmaCtlEn
  refine ⟨_, rfl, ?_⟩
  repeat' first | with_reducible assumption | intro _ | with_reducible apply State.sdmaBy_kept | with_reducible apply State.sdmaEn_kept

theorem execSdmaStopComplete_kept {q : List Instr} (n : Nat) (s : State)
    (h : Kept q s) : ∃ t, execSdmaStopComplete n s = .next t ∧ Kept q t := by
  unfold execSdmaStopComplete
  refine ⟨_, rfl, ?_⟩
  repeat' first
    | with_reducible assumption | (extract_lets +onlyGivenNames x; unfold x; clear x) | with_reducible apply State.set_kept
    | with_reducible apply kept_ite

theorem execSdmaClr_kept {q : List Instr} (who : Req) (s : State) (h : Kept q s) : ∃ t, execSdmaClr who s = .next t ∧ Kept q t := by
  unfold execSdmaClr
  refine ⟨_, rfl, ?_⟩
  repeat' first | with_reducible assumption | intro _ | with_reducible apply State.rwAction_kept | with_reducible apply State.sdmaClr_kept

theorem State.sdmaLoad_kept {q : List Instr} (s : State) (n : Nat) (d : List Nat) (h : Kept q s) : Kept q (State.sdmaLoad s n d) := by
  unfold State.sdmaLoad
  repeat' first
    | with_reducible assumption | (extract_lets +onlyGivenNames x; unfold x; clear x) | with_reducible apply State.set_kept
    | with_reducible apply State.sdmaError_kept | with_reducible apply kept_ite
    | (with_reducible apply kept_parts; with_reducible assumption)
    | (with_reducible apply kept_parts; with_reducible apply State.set_kept)

theorem execSdmaDescFetch_kept {q : List Instr} (n : Nat) (ok : Bool) (bytes : List Nat) (s : State)
    (h : Kept q s) : ∃ t, execSdmaDescFetch n ok bytes s = .next t ∧ Kept q t := by
  unfold execSdmaDescFetch
  refine ⟨_, rfl, ?_⟩
  repeat' first
    | with_reducible assumption | (extract_lets +onlyGivenNames x; unfold x; clear x) | with_reducible apply State.sdmaError_kept
    | with_reducible apply State.sdmaLoad_kept | with_reducible apply State.touchRegion_kept | with_reducible apply kept_ite

end Sys2Proof.Machine
end

