-- ==== Sys2Proof/Laws/KeptAccess.lean ====
section
/-!
SUPPORT. One lemma for each operation and each command of serial ports, mailboxes and register access: it keeps the byte memories' form and the queue; a command answers a
next state.
-/

namespace Sys2Proof.Machine

/-! ### Aser.lean -/

theorem State.setUart_kept {q : List Instr} (s : State) (n : Nat) (p : AserPort) (h : Kept q s) : Kept q (State.setUart s n p) := by
  unfold State.setUart
  repeat' first | (with_reducible apply kept_parts; with_reducible assumption)

theorem State.rxEntry_kept {q : List Instr} (s : State) (n : Nat) (data : Nat) (flags : Nat) (h : Kept q s) : Kept q
    (State.rxEntry s n data flags) := by
  unfold State.rxEntry
  repeat' first
    | with_reducible assumption | (extract_lets +onlyGivenNames x; unfold x; clear x) | with_reducible apply State.capture_kept
    | with_reducible apply State.raise_kept | with_reducible apply State.inc_kept | with_reducible apply State.setUart_kept
    | with_reducible apply State.raiseIf_kept | with_reducible apply kept_ite

theorem execUartCharacter_kept {q : List Instr} (port : Nat) (data : Nat) (framing : Bool) (parity : Bool) (s : State)
    (h : Kept q s) : ∃ t, execUartCharacter port data framing parity s = .next t ∧ Kept q t := by
  unfold execUartCharacter
  refine ⟨_, rfl, ?_⟩
  repeat' first
    | with_reducible assumption | (extract_lets +onlyGivenNames x; unfold x; clear x) | with_reducible apply State.raise_kept
    | with_reducible apply State.inc_kept | with_reducible apply State.rxEntry_kept | with_reducible apply State.crcuFeed_kept
    | with_reducible apply kept_ite

theorem execBreak_kept {q : List Instr} (port : Nat) (s : State) (h : Kept q s) : ∃ t, execBreak port s = .next t ∧ Kept q t := by
  unfold execBreak
  refine ⟨_, rfl, ?_⟩
  repeat' first
    | with_reducible assumption | with_reducible apply State.rxEntry_kept | with_reducible apply State.raise_kept
    | with_reducible apply State.inc_kept | with_reducible apply kept_ite

theorem State.txStart_kept {q : List Instr} (s : State) (n : Nat) (h : Kept q s) : Kept q (State.txStart s n) := by
  unfold State.txStart
  repeat' first
    | with_reducible assumption | (extract_lets +onlyGivenNames x; unfold x; clear x) | with_reducible apply State.setUart_kept
    | with_reducible apply kept_ite | split

theorem State.txPush_kept {q : List Instr} (s : State) (n : Nat) (data : Nat) (h : Kept q s) : Kept q (State.txPush s n data) := by
  unfold State.txPush
  repeat' first
    | with_reducible assumption | (extract_lets +onlyGivenNames x; unfold x; clear x) | with_reducible apply State.txStart_kept
    | with_reducible apply State.setUart_kept | with_reducible apply State.inc_kept | with_reducible apply kept_ite

theorem execTxPush_kept {q : List Instr} (who : Req) (port : Nat) (data : Nat) (s : State)
    (h : Kept q s) : ∃ t, execTxPush who port data s = .next t ∧ Kept q t := by
  unfold execTxPush
  refine ⟨_, rfl, ?_⟩
  repeat' first
    | with_reducible assumption | intro _ | with_reducible apply State.rwAction_kept | with_reducible apply State.txPush_kept
    | with_reducible apply kept_ite

theorem execUartTxCharacterSent_kept {q : List Instr} (port : Nat) (s : State)
    (h : Kept q s) : ∃ t, execUartTxCharacterSent port s = .next t ∧ Kept q t := by
  unfold execUartTxCharacterSent
  refine ⟨_, rfl, ?_⟩
  repeat' first
    | with_reducible assumption | (extract_lets +onlyGivenNames x; unfold x; clear x) | with_reducible apply State.txStart_kept
    | with_reducible apply State.setUart_kept | with_reducible apply State.raiseIf_kept | split

theorem State.rxPop_kept {q : List Instr} (s : State) (n : Nat) (k : Nat) (h : Kept q s) : Kept q (State.rxPop s n k) := by
  unfold State.rxPop
  repeat' first | with_reducible assumption | (extract_lets +onlyGivenNames x; unfold x; clear x) | with_reducible apply State.setUart_kept

theorem execRxPop_kept {q : List Instr} (who : Req) (port : Nat) (n : Nat) (s : State)
    (h : Kept q s) : ∃ t, execRxPop who port n s = .next t ∧ Kept q t := by
  unfold execRxPop
  refine ⟨_, rfl, ?_⟩
  repeat' first
    | with_reducible assumption | intro _ | with_reducible apply State.rwAction_kept | with_reducible apply State.rxPop_kept
    | with_reducible apply kept_ite

theorem State.sendBreak_kept {q : List Instr} (s : State) (n : Nat) (on : Bool) (h : Kept q s) : Kept q (State.sendBreak s n on) := by
  unfold State.sendBreak
  repeat' first | with_reducible assumption | with_reducible apply State.txStart_kept | with_reducible apply State.set_kept

theorem execSendBreak_kept {q : List Instr} (who : Req) (port : Nat) (on : Bool) (s : State)
    (h : Kept q s) : ∃ t, execSendBreak who port on s = .next t ∧ Kept q t := by
  unfold execSendBreak
  refine ⟨_, rfl, ?_⟩
  repeat' first
    | with_reducible assumption | intro _ | with_reducible apply State.rwAction_kept | with_reducible apply State.sendBreak_kept
    | with_reducible apply kept_ite

theorem State.uartEn_kept {q : List Instr} (s : State) (n : Nat) (en : Bool) (h : Kept q s) : Kept q (State.uartEn s n en) := by
  unfold State.uartEn
  repeat' first | with_reducible assumption | with_reducible apply State.txStart_kept | with_reducible apply State.set_kept

theorem execUartCtlEn_kept {q : List Instr} (who : Req) (port : Nat) (en : Bool) (s : State)
    (h : Kept q s) : ∃ t, execUartCtlEn who port en s = .next t ∧ Kept q t := by
  unfold execUartCtlEn
  refine ⟨_, rfl, ?_⟩
  repeat' first
    | with_reducible assumption | intro _ | with_reducible apply State.rwAction_kept | with_reducible apply State.uartEn_kept
    | with_reducible apply kept_ite

theorem State.uartCfg_kept {q : List Instr} (s : State) (n : Nat) (v : Nat) (h : Kept q s) : Kept q (State.uartCfg s n v) := by
  unfold State.uartCfg
  repeat' first
    | with_reducible assumption | (extract_lets +onlyGivenNames x; unfold x; clear x) | with_reducible apply State.raise_kept
    | with_reducible apply State.set_kept | with_reducible apply kept_ite

theorem execUartCfgWrite_kept {q : List Instr} (who : Req) (port : Nat) (val : Nat) (s : State)
    (h : Kept q s) : ∃ t, execUartCfgWrite who port val s = .next t ∧ Kept q t := by
  unfold execUartCfgWrite
  refine ⟨_, rfl, ?_⟩
  repeat' first
    | with_reducible assumption | intro _ | with_reducible apply State.rwAction_kept | with_reducible apply State.uartCfg_kept
    | with_reducible apply kept_ite

theorem State.aserClr_kept {q : List Instr} (s : State) (n : Nat) (h : Kept q s) : Kept q (State.aserClr s n) := by
  unfold State.aserClr
  repeat' first | with_reducible assumption | with_reducible apply State.clear_kept

theorem execAserClr_kept {q : List Instr} (who : Req) (port : Nat) (s : State)
    (h : Kept q s) : ∃ t, execAserClr who port s = .next t ∧ Kept q t := by
  unfold execAserClr
  refine ⟨_, rfl, ?_⟩
  repeat' first
    | with_reducible assumption | intro _ | with_reducible apply State.rwAction_kept | with_reducible apply State.aserClr_kept
    | with_reducible apply kept_ite


/-! ### Mbx.lean -/

theorem State.mbxDeny_kept {q : List Instr} (s : State) (who : Req) (off : Nat) (h : Kept q s) : Kept q (State.mbxDeny s who off) := by
  unfold State.mbxDeny
  repeat' first | with_reducible assumption | with_reducible apply State.logAccess_kept | with_reducible apply State.raise_kept

theorem State.bySender_kept {q : List Instr} (s : State) (who : Req) (d : Nat) (r : Nat) (f : State → State) (h : Kept q s)
    (h4 : ∀ y0, Kept q y0 → Kept q (f y0)) : Kept q (State.bySender s who d r f) := by
  unfold State.bySender
  repeat' first | with_reducible assumption | with_reducible apply State.mbxDeny_kept | with_reducible apply h4 | with_reducible apply kept_ite

theorem State.byReceiver_kept {q : List Instr} (s : State) (who : Req) (d : Nat) (r : Nat) (f : State → State) (h : Kept q s)
    (h4 : ∀ y0, Kept q y0 → Kept q (f y0)) : Kept q (State.byReceiver s who d r f) := by
  unfold State.byReceiver
  repeat' first | with_reducible assumption | with_reducible apply State.mbxDeny_kept | with_reducible apply h4 | with_reducible apply kept_ite

theorem State.wRing_kept {q : List Instr} (s : State) (who : Req) (d : Nat) (b : Nat) (h : Kept q s) : Kept q (State.wRing s who d b) := by
  unfold State.wRing
  repeat' first | with_reducible assumption | intro _ | with_reducible apply State.bySender_kept | with_reducible apply State.mbxRing_kept

theorem State.wDb_kept {q : List Instr} (s : State) (who : Req) (d : Nat) (b : Nat) (h : Kept q s) : Kept q (State.wDb s who d b) := by
  unfold State.wDb
  repeat' first | with_reducible assumption | intro _ | with_reducible apply State.byReceiver_kept | with_reducible apply State.mbxClear_kept

theorem State.wMask_kept {q : List Instr} (s : State) (who : Req) (d : Nat) (v : Nat) (h : Kept q s) : Kept q (State.wMask s who d v) := by
  unfold State.wMask
  repeat' first | with_reducible assumption | intro _ | with_reducible apply State.byReceiver_kept | with_reducible apply State.set_kept

theorem State.wGo_kept {q : List Instr} (s : State) (who : Req) (d : Nat) (h : Kept q s) : Kept q (State.wGo s who d) := by
  unfold State.wGo
  repeat' first
    | with_reducible assumption | intro _ | (extract_lets +onlyGivenNames x; unfold x; clear x) | with_reducible apply State.bySender_kept
    | with_reducible apply State.mbxBusy_kept | with_reducible apply State.mbxGo_kept | with_reducible apply State.mbxUnknown_kept
    | with_reducible apply kept_ite

theorem State.wDone_kept {q : List Instr} (s : State) (who : Req) (d : Nat) (h : Kept q s) : Kept q (State.wDone s who d) := by
  unfold State.wDone
  repeat' first | with_reducible assumption | intro _ | with_reducible apply State.byReceiver_kept | with_reducible apply State.mbxDone_kept

theorem State.wRelease_kept {q : List Instr} (s : State) (who : Req) (d : Nat) (h : Kept q s) : Kept q (State.wRelease s who d) := by
  unfold State.wRelease
  repeat' first | with_reducible assumption | intro _ | with_reducible apply State.bySender_kept | with_reducible apply State.mbxRelease_kept

theorem State.wPush_kept {q : List Instr} (s : State) (who : Req) (d : Nat) (w : Nat) (h : Kept q s) : Kept q (State.wPush s who d w) := by
  unfold State.wPush
  repeat' first
    | with_reducible assumption | intro _ | (extract_lets +onlyGivenNames x; unfold x; clear x) | with_reducible apply State.bySender_kept
    | with_reducible apply State.mbxPush_kept | with_reducible apply State.mbxUnknown_kept | with_reducible apply kept_ite

theorem State.wPop_kept {q : List Instr} (s : State) (who : Req) (d : Nat) (n : Nat) (h : Kept q s) : Kept q (State.wPop s who d n) := by
  unfold State.wPop
  repeat' first | with_reducible assumption | intro _ | with_reducible apply State.byReceiver_kept | with_reducible apply State.mbxPop_kept

theorem State.wWord_kept {q : List Instr} (s : State) (who : Req) (d : Nat) (k : Nat) (v : Nat) (h : Kept q s) : Kept q
    (State.wWord s who d k v) := by
  unfold State.wWord
  repeat' first
    | with_reducible assumption | (extract_lets +onlyGivenNames x; unfold x; clear x) | with_reducible apply State.mbxDeny_kept
    | with_reducible apply State.set_kept | with_reducible apply State.mbxTravel_kept | with_reducible apply State.mbxBusy_kept
    | with_reducible apply kept_ite

theorem State.mbxWrite_kept {q : List Instr} (s : State) (who : Req) (off : Nat) (v : Nat) (h : Kept q s) : Kept q
    (State.mbxWrite s who off v) := by
  unfold State.mbxWrite
  repeat' first
    | with_reducible assumption | (extract_lets +onlyGivenNames x; unfold x; clear x) | with_reducible apply State.wRing_kept
    | with_reducible apply State.wDb_kept | with_reducible apply State.wMask_kept | with_reducible apply State.wGo_kept
    | with_reducible apply State.wDone_kept | with_reducible apply State.wRelease_kept | with_reducible apply State.wPush_kept
    | with_reducible apply State.wPop_kept | with_reducible apply State.wWord_kept | with_reducible apply kept_ite | split

theorem State.mbxAccess_kept {q : List Instr} (s : State) (who : Req) (off : Nat) (v : Nat) (h : Kept q s) : Kept q
    (State.mbxAccess s who off v) := by
  unfold State.mbxAccess
  repeat' first
    | with_reducible assumption | intro _ | with_reducible apply State.regAction_kept | with_reducible apply State.mbxWrite_kept
    | with_reducible apply State.rwAction_kept | with_reducible apply kept_ite

theorem execMbxRing_kept {q : List Instr} (who : Req) (d : Nat) (b : Nat) (s : State)
    (h : Kept q s) : ∃ t, execMbxRing who d b s = .next t ∧ Kept q t := by
  unfold execMbxRing
  refine ⟨_, rfl, ?_⟩
  repeat' first | with_reducible assumption | with_reducible apply State.mbxAccess_kept | with_reducible apply kept_ite

theorem execMbxDbClear_kept {q : List Instr} (who : Req) (d : Nat) (b : Nat) (s : State)
    (h : Kept q s) : ∃ t, execMbxDbClear who d b s = .next t ∧ Kept q t := by
  unfold execMbxDbClear
  refine ⟨_, rfl, ?_⟩
  repeat' first | with_reducible assumption | with_reducible apply State.mbxAccess_kept | with_reducible apply kept_ite

theorem execMbxBlockGo_kept {q : List Instr} (who : Req) (d : Nat) (s : State)
    (h : Kept q s) : ∃ t, execMbxBlockGo who d s = .next t ∧ Kept q t := by
  unfold execMbxBlockGo
  refine ⟨_, rfl, ?_⟩
  repeat' first | with_reducible assumption | with_reducible apply State.mbxAccess_kept | with_reducible apply kept_ite

theorem execMbxBlockDone_kept {q : List Instr} (who : Req) (d : Nat) (s : State)
    (h : Kept q s) : ∃ t, execMbxBlockDone who d s = .next t ∧ Kept q t := by
  unfold execMbxBlockDone
  refine ⟨_, rfl, ?_⟩
  repeat' first | with_reducible assumption | with_reducible apply State.mbxAccess_kept | with_reducible apply kept_ite

theorem execMbxBlockRelease_kept {q : List Instr} (who : Req) (d : Nat) (s : State)
    (h : Kept q s) : ∃ t, execMbxBlockRelease who d s = .next t ∧ Kept q t := by
  unfold execMbxBlockRelease
  refine ⟨_, rfl, ?_⟩
  repeat' first | with_reducible assumption | with_reducible apply State.mbxAccess_kept | with_reducible apply kept_ite

theorem execMbxQPush_kept {q : List Instr} (who : Req) (d : Nat) (w : Nat) (s : State)
    (h : Kept q s) : ∃ t, execMbxQPush who d w s = .next t ∧ Kept q t := by
  unfold execMbxQPush
  refine ⟨_, rfl, ?_⟩
  repeat' first | with_reducible assumption | with_reducible apply State.mbxAccess_kept | with_reducible apply kept_ite

theorem execMbxQPop_kept {q : List Instr} (who : Req) (d : Nat) (n : Nat) (s : State)
    (h : Kept q s) : ∃ t, execMbxQPop who d n s = .next t ∧ Kept q t := by
  unfold execMbxQPop
  refine ⟨_, rfl, ?_⟩
  repeat' first | with_reducible assumption | with_reducible apply State.mbxAccess_kept | with_reducible apply kept_ite

theorem execMbxacc_kept {q : List Instr} (write : Bool) (index : Nat) (data : Nat) (s : State)
    (h : Kept q s) : ∃ t, execMbxacc write index data s = .next t ∧ Kept q t := by
  unfold execMbxacc
  refine ⟨_, rfl, ?_⟩
  repeat' first
    | (extract_lets +onlyGivenNames x; unfold x; clear x) | with_reducible apply State.mbxAccess_kept | with_reducible apply kept_ite
    | (with_reducible apply kept_parts; with_reducible assumption) | (with_reducible apply kept_dram; with_reducible assumption)

theorem execTrstNAssert_kept {q : List Instr} (s : State) (h : Kept q s) : ∃ t, execTrstNAssert s = .next t ∧ Kept q t := by
  unfold execTrstNAssert
  refine ⟨_, rfl, ?_⟩
  repeat' first | (extract_lets +onlyGivenNames x; unfold x; clear x) | (with_reducible apply kept_parts; with_reducible assumption)

theorem State.mbxServe_kept {q : List Instr} (s : State) (via : Nat) (type : Nat) (f : MbxReq → State → State) (h : Kept q s)
    (h3 : ∀ y0 y1, Kept q y1 → Kept q (f y0 y1)) : Kept q (State.mbxServe s via type f) := by
  unfold State.mbxServe
  repeat' first
    | with_reducible assumption | with_reducible apply State.mbxUnknown_kept | with_reducible apply State.mbxTake_kept
    | with_reducible apply h3 | with_reducible apply kept_ite | split

theorem State.withBody_kept {q : List Instr} (s : State) (r : MbxReq) (lo : Nat) (hi : Nat) (f : List Nat → State)
    (h : Kept q s) (h4 : ∀ y0, Kept q (f y0)) : Kept q (State.withBody s r lo hi f) := by
  unfold State.withBody
  repeat' first | with_reducible assumption | with_reducible apply State.mbxReply_kept | with_reducible apply h4 | split

theorem execPing_kept {q : List Instr} (via : Nat) (s : State) (h : Kept q s) : ∃ t, execPing via s = .next t ∧ Kept q t := by
  unfold execPing
  refine ⟨_, rfl, ?_⟩
  repeat' first
    | with_reducible assumption | intro _ | with_reducible apply State.mbxServe_kept | with_reducible apply State.withBody_kept
    | with_reducible apply State.mbxReply_kept

theorem execMbxModeReq_kept {q : List Instr} (via : Nat) (s : State) (h : Kept q s) : ∃ t, execMbxModeReq via s = .next t ∧ Kept q t := by
  unfold execMbxModeReq
  refine ⟨_, rfl, ?_⟩
  repeat' first
    | with_reducible assumption | intro _ | with_reducible apply State.mbxServe_kept | with_reducible apply State.withBody_kept
    | with_reducible apply State.requestMode_kept

theorem execInfo_kept {q : List Instr} (via : Nat) (s : State) (h : Kept q s) : ∃ t, execInfo via s = .next t ∧ Kept q t := by
  unfold execInfo
  refine ⟨_, rfl, ?_⟩
  repeat' first
    | with_reducible assumption | intro _ | with_reducible apply State.mbxServe_kept | with_reducible apply State.withBody_kept
    | with_reducible apply State.mbxReply_kept

theorem State.mbxForward_kept {q : List Instr} (s : State) (r : MbxReq) (body : List Nat) (h : Kept q s) : Kept q
    (State.mbxForward s r body) := by
  unfold State.mbxForward
  repeat' first
    | with_reducible assumption | (extract_lets +onlyGivenNames x; unfold x; clear x) | with_reducible apply State.mbxReply_kept
    | with_reducible apply State.pairSend_kept | with_reducible apply kept_ite
    | (with_reducible apply kept_parts; with_reducible assumption)

theorem execForward_kept {q : List Instr} (via : Nat) (s : State) (h : Kept q s) : ∃ t, execForward via s = .next t ∧ Kept q t := by
  unfold execForward
  refine ⟨_, rfl, ?_⟩
  repeat' first
    | with_reducible assumption | intro _ | with_reducible apply State.mbxServe_kept | with_reducible apply State.withBody_kept
    | with_reducible apply State.mbxForward_kept | with_reducible apply State.mbxReply_kept | with_reducible apply kept_ite

theorem execForwardTimeout_kept {q : List Instr} (n : Nat) (s : State) (h : Kept q s) : ∃ t, execForwardTimeout n s = .next t ∧ Kept q t := by
  unfold execForwardTimeout
  refine ⟨_, rfl, ?_⟩
  repeat' first
    | with_reducible assumption | (extract_lets +onlyGivenNames x; unfold x; clear x) | with_reducible apply State.mbxReply_kept
    | (with_reducible apply kept_parts; with_reducible assumption) | split

theorem State.mbxLog_kept {q : List Instr} (s : State) (r : MbxReq) (req : Nat) (h : Kept q s) : Kept q (State.mbxLog s r req) := by
  unfold State.mbxLog
  repeat' first
    | with_reducible assumption | (extract_lets +onlyGivenNames x; unfold x; clear x) | with_reducible apply State.mbxReply_kept
    | with_reducible apply kept_ite | (with_reducible apply kept_parts; with_reducible assumption) | split

theorem execLogRead_kept {q : List Instr} (via : Nat) (s : State) (h : Kept q s) : ∃ t, execLogRead via s = .next t ∧ Kept q t := by
  unfold execLogRead
  refine ⟨_, rfl, ?_⟩
  repeat' first
    | with_reducible assumption | intro _ | with_reducible apply State.mbxServe_kept | with_reducible apply State.withBody_kept
    | with_reducible apply State.mbxLog_kept

theorem execMessageBodyTimeout_kept {q : List Instr} (s : State) (h : Kept q s) : ∃ t, execMessageBodyTimeout s = .next t ∧ Kept q t := by
  unfold execMessageBodyTimeout
  refine ⟨_, rfl, ?_⟩
  repeat' first
    | with_reducible assumption | with_reducible apply State.mbxUnknown_kept | with_reducible apply State.mbxReply_kept
    | with_reducible apply State.setQueue_kept | with_reducible apply kept_ite | split

theorem State.piWrite_kept {q : List Instr} (s : State) (kind : Nat) (idx : Nat) (ws : List Nat) (h : Kept q s) : Kept q
    (State.piWrite s kind idx ws) := by
  unfold State.piWrite
  repeat' first
    | with_reducible assumption | (extract_lets +onlyGivenNames x; unfold x; clear x) | with_reducible apply State.mbxRing_kept
    | with_reducible apply State.set_kept | with_reducible apply State.setBlk_kept | with_reducible apply State.mbxPush_kept
    | with_reducible apply kept_ite

theorem State.poUpdate_kept {q : List Instr} (s : State) (kind : Nat) (ws : List Nat) (h : Kept q s) : Kept q (State.poUpdate s kind ws) := by
  unfold State.poUpdate
  repeat' first
    | with_reducible assumption | (extract_lets +onlyGivenNames x; unfold x; clear x) | with_reducible apply State.set_kept
    | with_reducible apply State.setBlk_kept | with_reducible apply State.setQueue_kept | with_reducible apply kept_ite

theorem State.forwardDone_kept {q : List Instr} (s : State) (n : Nat) (ws : List Nat) (h : Kept q s) : Kept q (State.forwardDone s n ws) := by
  unfold State.forwardDone
  repeat' first
    | with_reducible assumption | (extract_lets +onlyGivenNames x; unfold x; clear x) | with_reducible apply State.mbxReply_kept
    | (with_reducible apply kept_parts; with_reducible assumption) | split

theorem execMailbox_kept {q : List Instr} (kind : Nat) (dir : Nat) (idx : Nat) (words : List Nat) (s : State)
    (h : Kept q s) : ∃ t, execMailbox kind dir idx words s = .next t ∧ Kept q t := by
  unfold execMailbox
  refine ⟨_, rfl, ?_⟩
  repeat' first
    | with_reducible assumption | (extract_lets +onlyGivenNames x; unfold x; clear x) | with_reducible apply State.mbxUnknown_kept
    | with_reducible apply State.forwardDone_kept | with_reducible apply State.piWrite_kept | with_reducible apply State.poUpdate_kept
    | with_reducible apply kept_ite | (with_reducible apply kept_parts; with_reducible assumption)


/-! ### Access.lean -/

theorem State.also_kept {q : List Instr} (s : State) (c : Bool) (f : State → Host.Outcome State Fault Refusal) (h : Kept q s)
    (h2 : ∀ y0, Kept q y0 → ∃ t, f y0 = .next t ∧ Kept q t) : Kept q (State.also s c f) := by
  unfold State.also
  split
  · obtain ⟨t, e, ht⟩ := h2 s h
    rw [e]
    exact ht
  · exact h

theorem State.forceEvents_kept {q : List Instr} (s : State) (p : Nat) (v : Nat) (h : Kept q s) : Kept q (State.forceEvents s p v) := by
  unfold State.forceEvents
  repeat' first
    | with_reducible assumption | intro _ | with_reducible apply State.modeRefused_kept | with_reducible apply State.raiseIf_kept
    | with_reducible apply kept_ite | with_reducible apply kept_foldl

theorem State.actSys_kept {q : List Instr} (s : State) (who : Req) (p : Nat) (off : Nat) (w : Nat) (m : Nat) (mask : Nat)
    (h : Kept q s) : Kept q (State.actSys s who p off w m mask) := by
  unfold State.actSys
  repeat' first
    | with_reducible assumption | intro _ | with_reducible apply State.also_kept | with_reducible apply execModeReq_kept
    | with_reducible apply execSoftReset_kept | with_reducible apply execIslandReset_kept | with_reducible apply execGcommit_kept
    | with_reducible apply execSnapTriggerFire_kept | with_reducible apply execSnapRearm_kept
    | with_reducible apply execSnapClrCounts_kept | with_reducible apply State.compareVin_kept | with_reducible apply execIslEnWrite_kept
    | with_reducible apply execLossClr_kept | with_reducible apply execGrantWrite_kept | with_reducible apply execBudgetClr_kept
    | with_reducible apply execLedgerCalGo_kept | with_reducible apply execLedgerClr_kept | with_reducible apply kept_foldl | split

theorem State.actUnits_kept {q : List Instr} (s : State) (who : Req) (p : Nat) (off : Nat) (w : Nat) (mask : Nat)
    (h : Kept q s) : Kept q (State.actUnits s who p off w mask) := by
  unfold State.actUnits
  repeat' first
    | with_reducible assumption | intro _ | (extract_lets +onlyGivenNames x; unfold x; clear x) | with_reducible apply State.also_kept
    | with_reducible apply execHostqClr_kept | with_reducible apply execPcieRetrain_kept | with_reducible apply execPcieClr_kept
    | with_reducible apply execIngestCtlEn_kept | with_reducible apply execIngestClr_kept | with_reducible apply execFrameClr_kept
    | with_reducible apply execMapCkptGo_kept | with_reducible apply execMapClr_kept | with_reducible apply execMcacheClr_kept
    | with_reducible apply execDramcClr_kept | with_reducible apply execPbufClr_kept | with_reducible apply execEccClr_kept
    | with_reducible apply execScrubClr_kept | with_reducible apply execGroomClr_kept | with_reducible apply execPairCtlEn_kept
    | with_reducible apply execPairClr_kept | with_reducible apply execNetCtlEn_kept | with_reducible apply execNetClr_kept
    | with_reducible apply execNvtcpCtlEn_kept | with_reducible apply execNvtcpClr_kept | with_reducible apply execFchCtlFail_kept
    | with_reducible apply execFchClr_kept | with_reducible apply kept_ite | split

theorem State.actMgmt_kept {q : List Instr} (s : State) (who : Req) (p : Nat) (off : Nat) (w : Nat) (m : Nat) (mask : Nat)
    (h : Kept q s) : Kept q (State.actMgmt s who p off w m mask) := by
  unfold State.actMgmt
  repeat' first
    | with_reducible assumption | intro _ | (extract_lets +onlyGivenNames x; unfold x; clear x) | with_reducible apply State.also_kept
    | with_reducible apply execCalSet_kept | with_reducible apply execAlarmWrite_kept | with_reducible apply execGenPreset_kept
    | with_reducible apply execTimeClr_kept | with_reducible apply execSecClr_kept | with_reducible apply execNewChal_kept
    | with_reducible apply execDbgDrop_kept | with_reducible apply execDbgSubmit_kept | with_reducible apply State.rwAction_kept
    | with_reducible apply State.unlockA_kept | with_reducible apply State.unlockB_kept | with_reducible apply State.codeCmdBy_kept
    | with_reducible apply State.codeTouch_kept | with_reducible apply execBistGo_kept | with_reducible apply execBistAbort_kept
    | with_reducible apply execBistFuse_kept | with_reducible apply execBistClr_kept | with_reducible apply execFiCtlEn_kept
    | with_reducible apply execFiCfgWrite_kept | with_reducible apply execSdmaClr_kept | with_reducible apply execSdmaPause_kept
    | with_reducible apply execSdmaCtlEn_kept | with_reducible apply execSdmaRingReset_kept | with_reducible apply execSdmaGo_kept
    | with_reducible apply execSdmaKick_kept | with_reducible apply execCrcuCfgWrite_kept | with_reducible apply execCrcuAccWrite_kept
    | with_reducible apply execCrcuClear_kept | with_reducible apply execFeed_kept | with_reducible apply execFeedPart_kept
    | with_reducible apply execSendBreak_kept | with_reducible apply execUartCtlEn_kept | with_reducible apply execUartCfgWrite_kept
    | with_reducible apply execRxPop_kept | with_reducible apply execTxPush_kept | with_reducible apply execAserClr_kept
    | with_reducible apply kept_ite | split

theorem State.act_kept {q : List Instr} (s : State) (who : Req) (p : Nat) (off : Nat) (v : Nat) (mask : Nat)
    (h : Kept q s) : Kept q (State.act s who p off v mask) := by
  unfold State.act
  repeat' first
    | with_reducible assumption | (extract_lets +onlyGivenNames x; unfold x; clear x) | with_reducible apply State.forceEvents_kept
    | with_reducible apply State.abandonCommit_kept | with_reducible apply State.commitPage_kept | with_reducible apply State.actSys_kept
    | with_reducible apply State.actMgmt_kept | with_reducible apply State.actUnits_kept | with_reducible apply kept_ite

theorem State.saveSettings_kept {q : List Instr} (s : State) (p : Nat) (h : Kept q s) : Kept q (State.saveSettings s p) := by
  unfold State.saveSettings
  repeat' first
    | with_reducible assumption | (extract_lets +onlyGivenNames x; unfold x; clear x) | with_reducible apply kept_ite
    | (with_reducible apply kept_nv; with_reducible assumption)

theorem State.mbxReg_kept {q : List Instr} (s : State) (who : Req) (off : Nat) (v : Nat) (mask : Nat) (h : Kept q s) : Kept q
    (State.mbxReg s who off v mask) := by
  unfold State.mbxReg
  repeat' first
    | with_reducible assumption | (extract_lets +onlyGivenNames x; unfold x; clear x) | with_reducible apply State.mbxAccess_kept
    | with_reducible apply kept_ite

theorem State.regWrite_kept {q : List Instr} (s : State) (who : Req) (p : Nat) (off : Nat) (v : Nat) (mask : Nat)
    (h : Kept q s) : Kept q (State.regWrite s who p off v mask) := by
  unfold State.regWrite
  repeat' first
    | with_reducible assumption | (extract_lets +onlyGivenNames x; unfold x; clear x) | with_reducible apply State.writeFields_kept
    | with_reducible apply State.logAccess_kept | with_reducible apply State.raise_kept | with_reducible apply State.mbxReg_kept
    | with_reducible apply State.saveSettings_kept | with_reducible apply State.act_kept | with_reducible apply kept_ite | split

theorem State.regRead_kept {q : List Instr} (s : State) (who : Req) (p : Nat) (off : Nat) (h : Kept q s) : Kept q
    (State.regRead s who p off).2 := by
  unfold State.regRead
  repeat' first
    | with_reducible assumption | (extract_lets +onlyGivenNames x; unfold x; clear x) | with_reducible apply State.logAccess_kept
    | with_reducible apply kept_ite_snd

theorem State.writeLow_kept {q : List Instr} (s : State) (who : Req) (a : Nat) (v : Nat) (h : Kept q s) : Kept q
    (State.writeLow s who a v) := by
  unfold State.writeLow
  repeat' first
    | with_reducible assumption | (extract_lets +onlyGivenNames x; unfold x; clear x) | with_reducible apply State.setHeldR_kept
    | with_reducible apply State.dropHeld_kept | with_reducible apply State.setHeldW_kept | with_reducible apply kept_ite

theorem State.writeHigh_kept {q : List Instr} (s : State) (who : Req) (a : Nat) (v : Nat) (h : Kept q s) : Kept q
    (State.writeHigh s who a v) := by
  unfold State.writeHigh
  repeat' first
    | with_reducible assumption | (extract_lets +onlyGivenNames x; unfold x; clear x) | with_reducible apply State.regWrite_kept
    | with_reducible apply State.setHeldW_kept | with_reducible apply State.setHeldR_kept | with_reducible apply State.dropHeld_kept
    | with_reducible apply kept_ite | split

theorem State.badWidth_kept {q : List Instr} (s : State) (who : Req) (a : Nat) (h : Kept q s) : Kept q (State.badWidth s who a) := by
  unfold State.badWidth
  repeat' first
    | with_reducible assumption | with_reducible apply State.logAccess_kept | with_reducible apply State.raise_kept
    | with_reducible apply State.setHeldR_kept

theorem State.writePiece_kept {q : List Instr} (s : State) (who : Req) (a : Nat) (n : Nat) (v : Nat) (h : Kept q s) : Kept q
    (State.writePiece s who a n v) := by
  unfold State.writePiece
  repeat' first
    | with_reducible assumption | with_reducible apply State.regWrite_kept | with_reducible apply State.dropHeld_kept
    | with_reducible apply State.writeLow_kept | with_reducible apply State.writeHigh_kept | with_reducible apply State.badWidth_kept
    | with_reducible apply kept_ite

theorem execRegisterWrite_kept {q : List Instr} (who : Req) (addr : Nat) (bytes : Nat) (val : Nat) (s : State)
    (h : Kept q s) : ∃ t, execRegisterWrite who addr bytes val s = .next t ∧ Kept q t := by
  unfold execRegisterWrite
  refine ⟨_, rfl, ?_⟩
  repeat' first
    | with_reducible assumption | intro _ | with_reducible apply State.writePiece_kept | with_reducible apply kept_ite
    | with_reducible apply kept_foldl

theorem execHalfWriteLow_kept {q : List Instr} (who : Req) (addr : Nat) (val : Nat) (s : State)
    (h : Kept q s) : ∃ t, execHalfWriteLow who addr val s = .next t ∧ Kept q t := by
  unfold execHalfWriteLow
  refine ⟨_, rfl, ?_⟩
  repeat' first | with_reducible assumption | with_reducible apply State.writeLow_kept | with_reducible apply kept_ite

theorem execHalfWriteHigh_kept {q : List Instr} (who : Req) (addr : Nat) (val : Nat) (s : State)
    (h : Kept q s) : ∃ t, execHalfWriteHigh who addr val s = .next t ∧ Kept q t := by
  unfold execHalfWriteHigh
  refine ⟨_, rfl, ?_⟩
  repeat' first | with_reducible assumption | with_reducible apply State.writeHigh_kept | with_reducible apply kept_ite

theorem State.readPiece_kept {q : List Instr} (s : State) (who : Req) (a : Nat) (n : Nat) (h : Kept q s) : Kept q
    (State.readPiece s who a n).2 := by
  unfold State.readPiece
  repeat' first
    | with_reducible assumption | (extract_lets +onlyGivenNames x; unfold x; clear x) | with_reducible apply State.regRead_kept
    | with_reducible apply State.setHeldR_kept | with_reducible apply kept_ite_snd | split

theorem execLowHalfRead_kept {q : List Instr} (who : Req) (addr : Nat) (bytes : Nat) (s : State)
    (h : Kept q s) : ∃ t, execLowHalfRead who addr bytes s = .next t ∧ Kept q t := by
  unfold execLowHalfRead
  refine ⟨_, rfl, ?_⟩
  repeat' first
    | with_reducible assumption | intro _
    | (extract_lets +onlyGivenNames x; with_reducible refine kept_imp (q := q) x ?_ ?_; unfold x; clear x; rotate_left; intro _; clear_value x; revert x; intros; rotate_right)
    | (extract_lets +onlyGivenNames x; unfold x; clear x) | with_reducible apply State.readPiece_kept | with_reducible apply kept_ite
    | (with_reducible apply kept_parts; with_reducible assumption) | with_reducible apply kept_foldl_snd

theorem execRegRead_kept {q : List Instr} (via : Nat) (s : State) (h : Kept q s) : ∃ t, execRegRead via s = .next t ∧ Kept q t := by
  unfold execRegRead
  refine ⟨_, rfl, ?_⟩
  repeat' first
    | with_reducible assumption | intro _ | (extract_lets +onlyGivenNames x; unfold x; clear x) | with_reducible apply State.mbxServe_kept
    | with_reducible apply State.withBody_kept | with_reducible apply State.regRead_kept | with_reducible apply State.setHeldR_kept
    | with_reducible apply State.mbxReply_kept | with_reducible apply kept_ite

theorem execRegWrite_kept {q : List Instr} (via : Nat) (s : State) (h : Kept q s) : ∃ t, execRegWrite via s = .next t ∧ Kept q t := by
  unfold execRegWrite
  refine ⟨_, rfl, ?_⟩
  repeat' first
    | with_reducible assumption | intro _ | (extract_lets +onlyGivenNames x; unfold x; clear x) | with_reducible apply State.mbxServe_kept
    | with_reducible apply State.withBody_kept | with_reducible apply State.regWrite_kept | with_reducible apply State.dropHeld_kept
    | with_reducible apply State.mbxReply_kept

theorem State.keepHeld_kept {q : List Instr} (s : State) (t : State) (_h : Kept q s) (h1 : Kept q t) : Kept q (State.keepHeld s t) := by
  unfold State.keepHeld
  repeat' first | (extract_lets +onlyGivenNames x; unfold x; clear x) | (with_reducible apply kept_parts; with_reducible assumption)

theorem State.sdmaIn_kept {q : List Instr} (s : State) (who : Req) (a : Nat) (pcie : List Nat)
    (h : Kept q s) : ∀ y z, State.sdmaIn s who a pcie = some (y, z) → Kept q z := by
  intro a t ht
  unfold State.sdmaIn at ht
  dsimp only at ht
  repeat' split at ht
  · cases ht
  · cases ht; exact State.touchRegion_kept _ _ h
  · cases ht; exact h
  · cases ht; exact State.regRead_kept _ _ _ _ h
  · cases ht; exact h

theorem State.sdmaOut_kept {q : List Instr} (s : State) (who : Req) (a : Nat) (bs : List Nat) (h : Kept q s) : Kept q
    (State.sdmaOut s who a bs) := by
  unfold State.sdmaOut
  repeat' first
    | with_reducible assumption | (extract_lets +onlyGivenNames x; unfold x; clear x) | with_reducible apply State.keepHeld_kept
    | with_reducible apply State.regWrite_kept | with_reducible apply State.sdmaPut_kept | with_reducible apply State.touchRegion_kept
    | with_reducible apply kept_ite

theorem State.chunkWhole_kept {q : List Instr} (s : State) (n : Nat) (dst : Nat) (h : Kept q s) : Kept q (State.chunkWhole s n dst) := by
  unfold State.chunkWhole
  repeat' first
    | with_reducible assumption | (extract_lets +onlyGivenNames x; unfold x; clear x) | with_reducible apply kept_ite
    | (with_reducible apply kept_dram; with_reducible assumption)

theorem State.sdmaMove_kept {q : List Instr} (n : Nat) (snoop : Bool) (x2 : Nat) (x3 : List Nat) (x4 : State)
    (h : Kept q x4) : Kept q (State.sdmaMove n snoop x2 x3 x4).2 := by
  induction x2 generalizing n snoop x3 x4 with
  | zero => unfold State.sdmaMove; assumption
  | succ n ih =>
  unfold State.sdmaMove
  repeat' first
    | with_reducible assumption | (extract_lets +onlyGivenNames x; unfold x; clear x) | with_reducible apply State.chunkWhole_kept
    | with_reducible apply State.sdmaOut_kept | with_reducible apply State.set_kept | with_reducible apply State.addWrap_kept
    | with_reducible apply State.crcuFeed_kept | with_reducible apply ih | with_reducible apply kept_ite
    | (with_reducible apply State.sdmaIn_kept; rotate_left; with_reducible assumption) | split

theorem State.sdmaFinish_kept {q : List Instr} (s : State) (n : Nat) (x : Xfer) (h : Kept q s) : Kept q (State.sdmaFinish s n x) := by
  unfold State.sdmaFinish
  repeat' first
    | with_reducible assumption | (extract_lets +onlyGivenNames x; unfold x; clear x) | with_reducible apply State.raise_kept
    | with_reducible apply State.set_kept | with_reducible apply State.raiseIf_kept | with_reducible apply State.writeBack_kept
    | with_reducible apply State.sdmaFetch_kept | with_reducible apply kept_ite
    | (with_reducible apply kept_parts; with_reducible assumption)
    | (with_reducible apply kept_parts; with_reducible apply State.set_kept) | split

theorem execSdmaTransferEnd_kept {q : List Instr} (n : Nat) (err : Nat) (moved : Nat) (pcie : List Nat) (s : State)
    (h : Kept q s) : ∃ t, execSdmaTransferEnd n err moved pcie s = .next t ∧ Kept q t := by
  unfold execSdmaTransferEnd
  refine ⟨_, rfl, ?_⟩
  repeat' first
    | with_reducible assumption | (extract_lets +onlyGivenNames x; unfold x; clear x) | with_reducible apply State.sdmaError_kept
    | with_reducible apply State.sdmaMove_kept | with_reducible apply State.sdmaFinish_kept | with_reducible apply kept_ite | split

theorem execSdmaPaused_kept {q : List Instr} (n : Nat) (moved : Nat) (pcie : List Nat) (s : State)
    (h : Kept q s) : ∃ t, execSdmaPaused n moved pcie s = .next t ∧ Kept q t := by
  unfold execSdmaPaused
  refine ⟨_, rfl, ?_⟩
  repeat' first
    | with_reducible assumption | with_reducible apply State.sdmaMove_kept | with_reducible apply State.sdmaError_kept
    | with_reducible apply State.raise_kept | with_reducible apply State.set_kept | with_reducible apply kept_ite | split

end Sys2Proof.Machine
end

