-- ==== Sys2Proof/Laws/State.lean ====
section
/-!
SUPPORT. What each basic update leaves of each field of the state: a write of a register field touches `regs` alone, a pending value
`pend` alone, a holding register `fabric` alone.
-/

namespace Sys2Proof.Machine

/-! ### State.set -/

@[simp] theorem State.set_pend (s : State) (g : Field) (v : Nat) : (s.set g v).pend = s.pend := rfl
@[simp] theorem State.set_adopt (s : State) (g : Field) (v : Nat) : (s.set g v).adopt = s.adopt := rfl
@[simp] theorem State.set_tb (s : State) (g : Field) (v : Nat) : (s.set g v).tb = s.tb := rfl
@[simp] theorem State.set_fresh (s : State) (g : Field) (v : Nat) : (s.set g v).fresh = s.fresh := rfl
@[simp] theorem State.set_fabric (s : State) (g : Field) (v : Nat) : (s.set g v).fabric = s.fabric := rfl
@[simp] theorem State.set_pins (s : State) (g : Field) (v : Nat) : (s.set g v).pins = s.pins := rfl
@[simp] theorem State.set_mc (s : State) (g : Field) (v : Nat) : (s.set g v).mc = s.mc := rfl
@[simp] theorem State.set_slots (s : State) (g : Field) (v : Nat) : (s.set g v).slots = s.slots := rfl
@[simp] theorem State.set_led (s : State) (g : Field) (v : Nat) : (s.set g v).led = s.led := rfl
@[simp] theorem State.set_bud (s : State) (g : Field) (v : Nat) : (s.set g v).bud = s.bud := rfl
@[simp] theorem State.set_host (s : State) (g : Field) (v : Nat) : (s.set g v).host = s.host := rfl
@[simp] theorem State.set_ing (s : State) (g : Field) (v : Nat) : (s.set g v).ing = s.ing := rfl
@[simp] theorem State.set_frm (s : State) (g : Field) (v : Nat) : (s.set g v).frm = s.frm := rfl
@[simp] theorem State.set_map (s : State) (g : Field) (v : Nat) : (s.set g v).map = s.map := rfl
@[simp] theorem State.set_tim (s : State) (g : Field) (v : Nat) : (s.set g v).tim = s.tim := rfl
@[simp] theorem State.set_pair (s : State) (g : Field) (v : Nat) : (s.set g v).pair = s.pair := rfl
@[simp] theorem State.set_mbx (s : State) (g : Field) (v : Nat) : (s.set g v).mbx = s.mbx := rfl
@[simp] theorem State.set_fi (s : State) (g : Field) (v : Nat) : (s.set g v).fi = s.fi := rfl
@[simp] theorem State.set_net (s : State) (g : Field) (v : Nat) : (s.set g v).net = s.net := rfl
@[simp] theorem State.set_dram (s : State) (g : Field) (v : Nat) : (s.set g v).dram = s.dram := rfl
@[simp] theorem State.set_sdma (s : State) (g : Field) (v : Nat) : (s.set g v).sdma = s.sdma := rfl
@[simp] theorem State.set_code (s : State) (g : Field) (v : Nat) : (s.set g v).code = s.code := rfl
@[simp] theorem State.set_tst (s : State) (g : Field) (v : Nat) : (s.set g v).tst = s.tst := rfl
@[simp] theorem State.set_sec (s : State) (g : Field) (v : Nat) : (s.set g v).sec = s.sec := rfl
@[simp] theorem State.set_bist (s : State) (g : Field) (v : Nat) : (s.set g v).bist = s.bist := rfl
@[simp] theorem State.set_aser (s : State) (g : Field) (v : Nat) : (s.set g v).aser = s.aser := rfl
@[simp] theorem State.set_keep (s : State) (g : Field) (v : Nat) : (s.set g v).keep = s.keep := rfl
@[simp] theorem State.set_nv (s : State) (g : Field) (v : Nat) : (s.set g v).nv = s.nv := rfl
@[simp] theorem State.set_pending (s : State) (g : Field) (v : Nat) : (s.set g v).pending = s.pending := rfl

/-! ### State.setP -/

@[simp] theorem State.setP_regs (s : State) (g : Field) (v : Nat) : (s.setP g v).regs = s.regs := rfl
@[simp] theorem State.setP_adopt (s : State) (g : Field) (v : Nat) : (s.setP g v).adopt = s.adopt := rfl
@[simp] theorem State.setP_tb (s : State) (g : Field) (v : Nat) : (s.setP g v).tb = s.tb := rfl
@[simp] theorem State.setP_fresh (s : State) (g : Field) (v : Nat) : (s.setP g v).fresh = s.fresh := rfl
@[simp] theorem State.setP_fabric (s : State) (g : Field) (v : Nat) : (s.setP g v).fabric = s.fabric := rfl
@[simp] theorem State.setP_pins (s : State) (g : Field) (v : Nat) : (s.setP g v).pins = s.pins := rfl
@[simp] theorem State.setP_mc (s : State) (g : Field) (v : Nat) : (s.setP g v).mc = s.mc := rfl
@[simp] theorem State.setP_slots (s : State) (g : Field) (v : Nat) : (s.setP g v).slots = s.slots := rfl
@[simp] theorem State.setP_led (s : State) (g : Field) (v : Nat) : (s.setP g v).led = s.led := rfl
@[simp] theorem State.setP_bud (s : State) (g : Field) (v : Nat) : (s.setP g v).bud = s.bud := rfl
@[simp] theorem State.setP_host (s : State) (g : Field) (v : Nat) : (s.setP g v).host = s.host := rfl
@[simp] theorem State.setP_ing (s : State) (g : Field) (v : Nat) : (s.setP g v).ing = s.ing := rfl
@[simp] theorem State.setP_frm (s : State) (g : Field) (v : Nat) : (s.setP g v).frm = s.frm := rfl
@[simp] theorem State.setP_map (s : State) (g : Field) (v : Nat) : (s.setP g v).map = s.map := rfl
@[simp] theorem State.setP_tim (s : State) (g : Field) (v : Nat) : (s.setP g v).tim = s.tim := rfl
@[simp] theorem State.setP_pair (s : State) (g : Field) (v : Nat) : (s.setP g v).pair = s.pair := rfl
@[simp] theorem State.setP_mbx (s : State) (g : Field) (v : Nat) : (s.setP g v).mbx = s.mbx := rfl
@[simp] theorem State.setP_fi (s : State) (g : Field) (v : Nat) : (s.setP g v).fi = s.fi := rfl
@[simp] theorem State.setP_net (s : State) (g : Field) (v : Nat) : (s.setP g v).net = s.net := rfl
@[simp] theorem State.setP_dram (s : State) (g : Field) (v : Nat) : (s.setP g v).dram = s.dram := rfl
@[simp] theorem State.setP_sdma (s : State) (g : Field) (v : Nat) : (s.setP g v).sdma = s.sdma := rfl
@[simp] theorem State.setP_code (s : State) (g : Field) (v : Nat) : (s.setP g v).code = s.code := rfl
@[simp] theorem State.setP_tst (s : State) (g : Field) (v : Nat) : (s.setP g v).tst = s.tst := rfl
@[simp] theorem State.setP_sec (s : State) (g : Field) (v : Nat) : (s.setP g v).sec = s.sec := rfl
@[simp] theorem State.setP_bist (s : State) (g : Field) (v : Nat) : (s.setP g v).bist = s.bist := rfl
@[simp] theorem State.setP_aser (s : State) (g : Field) (v : Nat) : (s.setP g v).aser = s.aser := rfl
@[simp] theorem State.setP_keep (s : State) (g : Field) (v : Nat) : (s.setP g v).keep = s.keep := rfl
@[simp] theorem State.setP_nv (s : State) (g : Field) (v : Nat) : (s.setP g v).nv = s.nv := rfl
@[simp] theorem State.setP_pending (s : State) (g : Field) (v : Nat) : (s.setP g v).pending = s.pending := rfl

/-! ### State.setBitTo -/

@[simp] theorem State.setBitTo_pend (s : State) (g : Field) (n : Nat) (b : Bool) : (s.setBitTo g n b).pend = s.pend := rfl
@[simp] theorem State.setBitTo_adopt (s : State) (g : Field) (n : Nat) (b : Bool) : (s.setBitTo g n b).adopt = s.adopt := rfl
@[simp] theorem State.setBitTo_tb (s : State) (g : Field) (n : Nat) (b : Bool) : (s.setBitTo g n b).tb = s.tb := rfl
@[simp] theorem State.setBitTo_fresh (s : State) (g : Field) (n : Nat) (b : Bool) : (s.setBitTo g n b).fresh = s.fresh := rfl
@[simp] theorem State.setBitTo_fabric (s : State) (g : Field) (n : Nat) (b : Bool) : (s.setBitTo g n b).fabric = s.fabric := rfl
@[simp] theorem State.setBitTo_pins (s : State) (g : Field) (n : Nat) (b : Bool) : (s.setBitTo g n b).pins = s.pins := rfl
@[simp] theorem State.setBitTo_mc (s : State) (g : Field) (n : Nat) (b : Bool) : (s.setBitTo g n b).mc = s.mc := rfl
@[simp] theorem State.setBitTo_slots (s : State) (g : Field) (n : Nat) (b : Bool) : (s.setBitTo g n b).slots = s.slots := rfl
@[simp] theorem State.setBitTo_led (s : State) (g : Field) (n : Nat) (b : Bool) : (s.setBitTo g n b).led = s.led := rfl
@[simp] theorem State.setBitTo_bud (s : State) (g : Field) (n : Nat) (b : Bool) : (s.setBitTo g n b).bud = s.bud := rfl
@[simp] theorem State.setBitTo_host (s : State) (g : Field) (n : Nat) (b : Bool) : (s.setBitTo g n b).host = s.host := rfl
@[simp] theorem State.setBitTo_ing (s : State) (g : Field) (n : Nat) (b : Bool) : (s.setBitTo g n b).ing = s.ing := rfl
@[simp] theorem State.setBitTo_frm (s : State) (g : Field) (n : Nat) (b : Bool) : (s.setBitTo g n b).frm = s.frm := rfl
@[simp] theorem State.setBitTo_map (s : State) (g : Field) (n : Nat) (b : Bool) : (s.setBitTo g n b).map = s.map := rfl
@[simp] theorem State.setBitTo_tim (s : State) (g : Field) (n : Nat) (b : Bool) : (s.setBitTo g n b).tim = s.tim := rfl
@[simp] theorem State.setBitTo_pair (s : State) (g : Field) (n : Nat) (b : Bool) : (s.setBitTo g n b).pair = s.pair := rfl
@[simp] theorem State.setBitTo_mbx (s : State) (g : Field) (n : Nat) (b : Bool) : (s.setBitTo g n b).mbx = s.mbx := rfl
@[simp] theorem State.setBitTo_fi (s : State) (g : Field) (n : Nat) (b : Bool) : (s.setBitTo g n b).fi = s.fi := rfl
@[simp] theorem State.setBitTo_net (s : State) (g : Field) (n : Nat) (b : Bool) : (s.setBitTo g n b).net = s.net := rfl
@[simp] theorem State.setBitTo_dram (s : State) (g : Field) (n : Nat) (b : Bool) : (s.setBitTo g n b).dram = s.dram := rfl
@[simp] theorem State.setBitTo_sdma (s : State) (g : Field) (n : Nat) (b : Bool) : (s.setBitTo g n b).sdma = s.sdma := rfl
@[simp] theorem State.setBitTo_code (s : State) (g : Field) (n : Nat) (b : Bool) : (s.setBitTo g n b).code = s.code := rfl
@[simp] theorem State.setBitTo_tst (s : State) (g : Field) (n : Nat) (b : Bool) : (s.setBitTo g n b).tst = s.tst := rfl
@[simp] theorem State.setBitTo_sec (s : State) (g : Field) (n : Nat) (b : Bool) : (s.setBitTo g n b).sec = s.sec := rfl
@[simp] theorem State.setBitTo_bist (s : State) (g : Field) (n : Nat) (b : Bool) : (s.setBitTo g n b).bist = s.bist := rfl
@[simp] theorem State.setBitTo_aser (s : State) (g : Field) (n : Nat) (b : Bool) : (s.setBitTo g n b).aser = s.aser := rfl
@[simp] theorem State.setBitTo_keep (s : State) (g : Field) (n : Nat) (b : Bool) : (s.setBitTo g n b).keep = s.keep := rfl
@[simp] theorem State.setBitTo_nv (s : State) (g : Field) (n : Nat) (b : Bool) : (s.setBitTo g n b).nv = s.nv := rfl
@[simp] theorem State.setBitTo_pending (s : State) (g : Field) (n : Nat) (b : Bool) : (s.setBitTo g n b).pending = s.pending := rfl

/-! ### State.setPart -/

@[simp] theorem State.setPart_pend (s : State) (g : Field) (n w v : Nat) : (s.setPart g n w v).pend = s.pend := rfl
@[simp] theorem State.setPart_adopt (s : State) (g : Field) (n w v : Nat) : (s.setPart g n w v).adopt = s.adopt := rfl
@[simp] theorem State.setPart_tb (s : State) (g : Field) (n w v : Nat) : (s.setPart g n w v).tb = s.tb := rfl
@[simp] theorem State.setPart_fresh (s : State) (g : Field) (n w v : Nat) : (s.setPart g n w v).fresh = s.fresh := rfl
@[simp] theorem State.setPart_fabric (s : State) (g : Field) (n w v : Nat) : (s.setPart g n w v).fabric = s.fabric := rfl
@[simp] theorem State.setPart_pins (s : State) (g : Field) (n w v : Nat) : (s.setPart g n w v).pins = s.pins := rfl
@[simp] theorem State.setPart_mc (s : State) (g : Field) (n w v : Nat) : (s.setPart g n w v).mc = s.mc := rfl
@[simp] theorem State.setPart_slots (s : State) (g : Field) (n w v : Nat) : (s.setPart g n w v).slots = s.slots := rfl
@[simp] theorem State.setPart_led (s : State) (g : Field) (n w v : Nat) : (s.setPart g n w v).led = s.led := rfl
@[simp] theorem State.setPart_bud (s : State) (g : Field) (n w v : Nat) : (s.setPart g n w v).bud = s.bud := rfl
@[simp] theorem State.setPart_host (s : State) (g : Field) (n w v : Nat) : (s.setPart g n w v).host = s.host := rfl
@[simp] theorem State.setPart_ing (s : State) (g : Field) (n w v : Nat) : (s.setPart g n w v).ing = s.ing := rfl
@[simp] theorem State.setPart_frm (s : State) (g : Field) (n w v : Nat) : (s.setPart g n w v).frm = s.frm := rfl
@[simp] theorem State.setPart_map (s : State) (g : Field) (n w v : Nat) : (s.setPart g n w v).map = s.map := rfl
@[simp] theorem State.setPart_tim (s : State) (g : Field) (n w v : Nat) : (s.setPart g n w v).tim = s.tim := rfl
@[simp] theorem State.setPart_pair (s : State) (g : Field) (n w v : Nat) : (s.setPart g n w v).pair = s.pair := rfl
@[simp] theorem State.setPart_mbx (s : State) (g : Field) (n w v : Nat) : (s.setPart g n w v).mbx = s.mbx := rfl
@[simp] theorem State.setPart_fi (s : State) (g : Field) (n w v : Nat) : (s.setPart g n w v).fi = s.fi := rfl
@[simp] theorem State.setPart_net (s : State) (g : Field) (n w v : Nat) : (s.setPart g n w v).net = s.net := rfl
@[simp] theorem State.setPart_dram (s : State) (g : Field) (n w v : Nat) : (s.setPart g n w v).dram = s.dram := rfl
@[simp] theorem State.setPart_sdma (s : State) (g : Field) (n w v : Nat) : (s.setPart g n w v).sdma = s.sdma := rfl
@[simp] theorem State.setPart_code (s : State) (g : Field) (n w v : Nat) : (s.setPart g n w v).code = s.code := rfl
@[simp] theorem State.setPart_tst (s : State) (g : Field) (n w v : Nat) : (s.setPart g n w v).tst = s.tst := rfl
@[simp] theorem State.setPart_sec (s : State) (g : Field) (n w v : Nat) : (s.setPart g n w v).sec = s.sec := rfl
@[simp] theorem State.setPart_bist (s : State) (g : Field) (n w v : Nat) : (s.setPart g n w v).bist = s.bist := rfl
@[simp] theorem State.setPart_aser (s : State) (g : Field) (n w v : Nat) : (s.setPart g n w v).aser = s.aser := rfl
@[simp] theorem State.setPart_keep (s : State) (g : Field) (n w v : Nat) : (s.setPart g n w v).keep = s.keep := rfl
@[simp] theorem State.setPart_nv (s : State) (g : Field) (n w v : Nat) : (s.setPart g n w v).nv = s.nv := rfl
@[simp] theorem State.setPart_pending (s : State) (g : Field) (n w v : Nat) : (s.setPart g n w v).pending = s.pending := rfl

/-! ### State.addSat -/

@[simp] theorem State.addSat_pend (s : State) (g : Field) (n : Nat) : (s.addSat g n).pend = s.pend := rfl
@[simp] theorem State.addSat_adopt (s : State) (g : Field) (n : Nat) : (s.addSat g n).adopt = s.adopt := rfl
@[simp] theorem State.addSat_tb (s : State) (g : Field) (n : Nat) : (s.addSat g n).tb = s.tb := rfl
@[simp] theorem State.addSat_fresh (s : State) (g : Field) (n : Nat) : (s.addSat g n).fresh = s.fresh := rfl
@[simp] theorem State.addSat_fabric (s : State) (g : Field) (n : Nat) : (s.addSat g n).fabric = s.fabric := rfl
@[simp] theorem State.addSat_pins (s : State) (g : Field) (n : Nat) : (s.addSat g n).pins = s.pins := rfl
@[simp] theorem State.addSat_mc (s : State) (g : Field) (n : Nat) : (s.addSat g n).mc = s.mc := rfl
@[simp] theorem State.addSat_slots (s : State) (g : Field) (n : Nat) : (s.addSat g n).slots = s.slots := rfl
@[simp] theorem State.addSat_led (s : State) (g : Field) (n : Nat) : (s.addSat g n).led = s.led := rfl
@[simp] theorem State.addSat_bud (s : State) (g : Field) (n : Nat) : (s.addSat g n).bud = s.bud := rfl
@[simp] theorem State.addSat_host (s : State) (g : Field) (n : Nat) : (s.addSat g n).host = s.host := rfl
@[simp] theorem State.addSat_ing (s : State) (g : Field) (n : Nat) : (s.addSat g n).ing = s.ing := rfl
@[simp] theorem State.addSat_frm (s : State) (g : Field) (n : Nat) : (s.addSat g n).frm = s.frm := rfl
@[simp] theorem State.addSat_map (s : State) (g : Field) (n : Nat) : (s.addSat g n).map = s.map := rfl
@[simp] theorem State.addSat_tim (s : State) (g : Field) (n : Nat) : (s.addSat g n).tim = s.tim := rfl
@[simp] theorem State.addSat_pair (s : State) (g : Field) (n : Nat) : (s.addSat g n).pair = s.pair := rfl
@[simp] theorem State.addSat_mbx (s : State) (g : Field) (n : Nat) : (s.addSat g n).mbx = s.mbx := rfl
@[simp] theorem State.addSat_fi (s : State) (g : Field) (n : Nat) : (s.addSat g n).fi = s.fi := rfl
@[simp] theorem State.addSat_net (s : State) (g : Field) (n : Nat) : (s.addSat g n).net = s.net := rfl
@[simp] theorem State.addSat_dram (s : State) (g : Field) (n : Nat) : (s.addSat g n).dram = s.dram := rfl
@[simp] theorem State.addSat_sdma (s : State) (g : Field) (n : Nat) : (s.addSat g n).sdma = s.sdma := rfl
@[simp] theorem State.addSat_code (s : State) (g : Field) (n : Nat) : (s.addSat g n).code = s.code := rfl
@[simp] theorem State.addSat_tst (s : State) (g : Field) (n : Nat) : (s.addSat g n).tst = s.tst := rfl
@[simp] theorem State.addSat_sec (s : State) (g : Field) (n : Nat) : (s.addSat g n).sec = s.sec := rfl
@[simp] theorem State.addSat_bist (s : State) (g : Field) (n : Nat) : (s.addSat g n).bist = s.bist := rfl
@[simp] theorem State.addSat_aser (s : State) (g : Field) (n : Nat) : (s.addSat g n).aser = s.aser := rfl
@[simp] theorem State.addSat_keep (s : State) (g : Field) (n : Nat) : (s.addSat g n).keep = s.keep := rfl
@[simp] theorem State.addSat_nv (s : State) (g : Field) (n : Nat) : (s.addSat g n).nv = s.nv := rfl
@[simp] theorem State.addSat_pending (s : State) (g : Field) (n : Nat) : (s.addSat g n).pending = s.pending := rfl

/-! ### State.inc -/

@[simp] theorem State.inc_pend (s : State) (g : Field) : (s.inc g).pend = s.pend := rfl
@[simp] theorem State.inc_adopt (s : State) (g : Field) : (s.inc g).adopt = s.adopt := rfl
@[simp] theorem State.inc_tb (s : State) (g : Field) : (s.inc g).tb = s.tb := rfl
@[simp] theorem State.inc_fresh (s : State) (g : Field) : (s.inc g).fresh = s.fresh := rfl
@[simp] theorem State.inc_fabric (s : State) (g : Field) : (s.inc g).fabric = s.fabric := rfl
@[simp] theorem State.inc_pins (s : State) (g : Field) : (s.inc g).pins = s.pins := rfl
@[simp] theorem State.inc_mc (s : State) (g : Field) : (s.inc g).mc = s.mc := rfl
@[simp] theorem State.inc_slots (s : State) (g : Field) : (s.inc g).slots = s.slots := rfl
@[simp] theorem State.inc_led (s : State) (g : Field) : (s.inc g).led = s.led := rfl
@[simp] theorem State.inc_bud (s : State) (g : Field) : (s.inc g).bud = s.bud := rfl
@[simp] theorem State.inc_host (s : State) (g : Field) : (s.inc g).host = s.host := rfl
@[simp] theorem State.inc_ing (s : State) (g : Field) : (s.inc g).ing = s.ing := rfl
@[simp] theorem State.inc_frm (s : State) (g : Field) : (s.inc g).frm = s.frm := rfl
@[simp] theorem State.inc_map (s : State) (g : Field) : (s.inc g).map = s.map := rfl
@[simp] theorem State.inc_tim (s : State) (g : Field) : (s.inc g).tim = s.tim := rfl
@[simp] theorem State.inc_pair (s : State) (g : Field) : (s.inc g).pair = s.pair := rfl
@[simp] theorem State.inc_mbx (s : State) (g : Field) : (s.inc g).mbx = s.mbx := rfl
@[simp] theorem State.inc_fi (s : State) (g : Field) : (s.inc g).fi = s.fi := rfl
@[simp] theorem State.inc_net (s : State) (g : Field) : (s.inc g).net = s.net := rfl
@[simp] theorem State.inc_dram (s : State) (g : Field) : (s.inc g).dram = s.dram := rfl
@[simp] theorem State.inc_sdma (s : State) (g : Field) : (s.inc g).sdma = s.sdma := rfl
@[simp] theorem State.inc_code (s : State) (g : Field) : (s.inc g).code = s.code := rfl
@[simp] theorem State.inc_tst (s : State) (g : Field) : (s.inc g).tst = s.tst := rfl
@[simp] theorem State.inc_sec (s : State) (g : Field) : (s.inc g).sec = s.sec := rfl
@[simp] theorem State.inc_bist (s : State) (g : Field) : (s.inc g).bist = s.bist := rfl
@[simp] theorem State.inc_aser (s : State) (g : Field) : (s.inc g).aser = s.aser := rfl
@[simp] theorem State.inc_keep (s : State) (g : Field) : (s.inc g).keep = s.keep := rfl
@[simp] theorem State.inc_nv (s : State) (g : Field) : (s.inc g).nv = s.nv := rfl
@[simp] theorem State.inc_pending (s : State) (g : Field) : (s.inc g).pending = s.pending := rfl

/-! ### State.addWrap -/

@[simp] theorem State.addWrap_pend (s : State) (g : Field) (n : Nat) : (s.addWrap g n).pend = s.pend := rfl
@[simp] theorem State.addWrap_adopt (s : State) (g : Field) (n : Nat) : (s.addWrap g n).adopt = s.adopt := rfl
@[simp] theorem State.addWrap_tb (s : State) (g : Field) (n : Nat) : (s.addWrap g n).tb = s.tb := rfl
@[simp] theorem State.addWrap_fresh (s : State) (g : Field) (n : Nat) : (s.addWrap g n).fresh = s.fresh := rfl
@[simp] theorem State.addWrap_fabric (s : State) (g : Field) (n : Nat) : (s.addWrap g n).fabric = s.fabric := rfl
@[simp] theorem State.addWrap_pins (s : State) (g : Field) (n : Nat) : (s.addWrap g n).pins = s.pins := rfl
@[simp] theorem State.addWrap_mc (s : State) (g : Field) (n : Nat) : (s.addWrap g n).mc = s.mc := rfl
@[simp] theorem State.addWrap_slots (s : State) (g : Field) (n : Nat) : (s.addWrap g n).slots = s.slots := rfl
@[simp] theorem State.addWrap_led (s : State) (g : Field) (n : Nat) : (s.addWrap g n).led = s.led := rfl
@[simp] theorem State.addWrap_bud (s : State) (g : Field) (n : Nat) : (s.addWrap g n).bud = s.bud := rfl
@[simp] theorem State.addWrap_host (s : State) (g : Field) (n : Nat) : (s.addWrap g n).host = s.host := rfl
@[simp] theorem State.addWrap_ing (s : State) (g : Field) (n : Nat) : (s.addWrap g n).ing = s.ing := rfl
@[simp] theorem State.addWrap_frm (s : State) (g : Field) (n : Nat) : (s.addWrap g n).frm = s.frm := rfl
@[simp] theorem State.addWrap_map (s : State) (g : Field) (n : Nat) : (s.addWrap g n).map = s.map := rfl
@[simp] theorem State.addWrap_tim (s : State) (g : Field) (n : Nat) : (s.addWrap g n).tim = s.tim := rfl
@[simp] theorem State.addWrap_pair (s : State) (g : Field) (n : Nat) : (s.addWrap g n).pair = s.pair := rfl
@[simp] theorem State.addWrap_mbx (s : State) (g : Field) (n : Nat) : (s.addWrap g n).mbx = s.mbx := rfl
@[simp] theorem State.addWrap_fi (s : State) (g : Field) (n : Nat) : (s.addWrap g n).fi = s.fi := rfl
@[simp] theorem State.addWrap_net (s : State) (g : Field) (n : Nat) : (s.addWrap g n).net = s.net := rfl
@[simp] theorem State.addWrap_dram (s : State) (g : Field) (n : Nat) : (s.addWrap g n).dram = s.dram := rfl
@[simp] theorem State.addWrap_sdma (s : State) (g : Field) (n : Nat) : (s.addWrap g n).sdma = s.sdma := rfl
@[simp] theorem State.addWrap_code (s : State) (g : Field) (n : Nat) : (s.addWrap g n).code = s.code := rfl
@[simp] theorem State.addWrap_tst (s : State) (g : Field) (n : Nat) : (s.addWrap g n).tst = s.tst := rfl
@[simp] theorem State.addWrap_sec (s : State) (g : Field) (n : Nat) : (s.addWrap g n).sec = s.sec := rfl
@[simp] theorem State.addWrap_bist (s : State) (g : Field) (n : Nat) : (s.addWrap g n).bist = s.bist := rfl
@[simp] theorem State.addWrap_aser (s : State) (g : Field) (n : Nat) : (s.addWrap g n).aser = s.aser := rfl
@[simp] theorem State.addWrap_keep (s : State) (g : Field) (n : Nat) : (s.addWrap g n).keep = s.keep := rfl
@[simp] theorem State.addWrap_nv (s : State) (g : Field) (n : Nat) : (s.addWrap g n).nv = s.nv := rfl
@[simp] theorem State.addWrap_pending (s : State) (g : Field) (n : Nat) : (s.addWrap g n).pending = s.pending := rfl

/-! ### State.incPart -/

@[simp] theorem State.incPart_pend (s : State) (g : Field) (n w : Nat) : (s.incPart g n w).pend = s.pend := rfl
@[simp] theorem State.incPart_adopt (s : State) (g : Field) (n w : Nat) : (s.incPart g n w).adopt = s.adopt := rfl
@[simp] theorem State.incPart_tb (s : State) (g : Field) (n w : Nat) : (s.incPart g n w).tb = s.tb := rfl
@[simp] theorem State.incPart_fresh (s : State) (g : Field) (n w : Nat) : (s.incPart g n w).fresh = s.fresh := rfl
@[simp] theorem State.incPart_fabric (s : State) (g : Field) (n w : Nat) : (s.incPart g n w).fabric = s.fabric := rfl
@[simp] theorem State.incPart_pins (s : State) (g : Field) (n w : Nat) : (s.incPart g n w).pins = s.pins := rfl
@[simp] theorem State.incPart_mc (s : State) (g : Field) (n w : Nat) : (s.incPart g n w).mc = s.mc := rfl
@[simp] theorem State.incPart_slots (s : State) (g : Field) (n w : Nat) : (s.incPart g n w).slots = s.slots := rfl
@[simp] theorem State.incPart_led (s : State) (g : Field) (n w : Nat) : (s.incPart g n w).led = s.led := rfl
@[simp] theorem State.incPart_bud (s : State) (g : Field) (n w : Nat) : (s.incPart g n w).bud = s.bud := rfl
@[simp] theorem State.incPart_host (s : State) (g : Field) (n w : Nat) : (s.incPart g n w).host = s.host := rfl
@[simp] theorem State.incPart_ing (s : State) (g : Field) (n w : Nat) : (s.incPart g n w).ing = s.ing := rfl
@[simp] theorem State.incPart_frm (s : State) (g : Field) (n w : Nat) : (s.incPart g n w).frm = s.frm := rfl
@[simp] theorem State.incPart_map (s : State) (g : Field) (n w : Nat) : (s.incPart g n w).map = s.map := rfl
@[simp] theorem State.incPart_tim (s : State) (g : Field) (n w : Nat) : (s.incPart g n w).tim = s.tim := rfl
@[simp] theorem State.incPart_pair (s : State) (g : Field) (n w : Nat) : (s.incPart g n w).pair = s.pair := rfl
@[simp] theorem State.incPart_mbx (s : State) (g : Field) (n w : Nat) : (s.incPart g n w).mbx = s.mbx := rfl
@[simp] theorem State.incPart_fi (s : State) (g : Field) (n w : Nat) : (s.incPart g n w).fi = s.fi := rfl
@[simp] theorem State.incPart_net (s : State) (g : Field) (n w : Nat) : (s.incPart g n w).net = s.net := rfl
@[simp] theorem State.incPart_dram (s : State) (g : Field) (n w : Nat) : (s.incPart g n w).dram = s.dram := rfl
@[simp] theorem State.incPart_sdma (s : State) (g : Field) (n w : Nat) : (s.incPart g n w).sdma = s.sdma := rfl
@[simp] theorem State.incPart_code (s : State) (g : Field) (n w : Nat) : (s.incPart g n w).code = s.code := rfl
@[simp] theorem State.incPart_tst (s : State) (g : Field) (n w : Nat) : (s.incPart g n w).tst = s.tst := rfl
@[simp] theorem State.incPart_sec (s : State) (g : Field) (n w : Nat) : (s.incPart g n w).sec = s.sec := rfl
@[simp] theorem State.incPart_bist (s : State) (g : Field) (n w : Nat) : (s.incPart g n w).bist = s.bist := rfl
@[simp] theorem State.incPart_aser (s : State) (g : Field) (n w : Nat) : (s.incPart g n w).aser = s.aser := rfl
@[simp] theorem State.incPart_keep (s : State) (g : Field) (n w : Nat) : (s.incPart g n w).keep = s.keep := rfl
@[simp] theorem State.incPart_nv (s : State) (g : Field) (n w : Nat) : (s.incPart g n w).nv = s.nv := rfl
@[simp] theorem State.incPart_pending (s : State) (g : Field) (n w : Nat) : (s.incPart g n w).pending = s.pending := rfl

/-! ### State.setEvt -/

@[simp] theorem State.setEvt_pend (s : State) (e : Ev) : (s.setEvt e).pend = s.pend := rfl
@[simp] theorem State.setEvt_adopt (s : State) (e : Ev) : (s.setEvt e).adopt = s.adopt := rfl
@[simp] theorem State.setEvt_tb (s : State) (e : Ev) : (s.setEvt e).tb = s.tb := rfl
@[simp] theorem State.setEvt_fresh (s : State) (e : Ev) : (s.setEvt e).fresh = s.fresh := rfl
@[simp] theorem State.setEvt_fabric (s : State) (e : Ev) : (s.setEvt e).fabric = s.fabric := rfl
@[simp] theorem State.setEvt_pins (s : State) (e : Ev) : (s.setEvt e).pins = s.pins := rfl
@[simp] theorem State.setEvt_mc (s : State) (e : Ev) : (s.setEvt e).mc = s.mc := rfl
@[simp] theorem State.setEvt_slots (s : State) (e : Ev) : (s.setEvt e).slots = s.slots := rfl
@[simp] theorem State.setEvt_led (s : State) (e : Ev) : (s.setEvt e).led = s.led := rfl
@[simp] theorem State.setEvt_bud (s : State) (e : Ev) : (s.setEvt e).bud = s.bud := rfl
@[simp] theorem State.setEvt_host (s : State) (e : Ev) : (s.setEvt e).host = s.host := rfl
@[simp] theorem State.setEvt_ing (s : State) (e : Ev) : (s.setEvt e).ing = s.ing := rfl
@[simp] theorem State.setEvt_frm (s : State) (e : Ev) : (s.setEvt e).frm = s.frm := rfl
@[simp] theorem State.setEvt_map (s : State) (e : Ev) : (s.setEvt e).map = s.map := rfl
@[simp] theorem State.setEvt_tim (s : State) (e : Ev) : (s.setEvt e).tim = s.tim := rfl
@[simp] theorem State.setEvt_pair (s : State) (e : Ev) : (s.setEvt e).pair = s.pair := rfl
@[simp] theorem State.setEvt_mbx (s : State) (e : Ev) : (s.setEvt e).mbx = s.mbx := rfl
@[simp] theorem State.setEvt_fi (s : State) (e : Ev) : (s.setEvt e).fi = s.fi := rfl
@[simp] theorem State.setEvt_net (s : State) (e : Ev) : (s.setEvt e).net = s.net := rfl
@[simp] theorem State.setEvt_dram (s : State) (e : Ev) : (s.setEvt e).dram = s.dram := rfl
@[simp] theorem State.setEvt_sdma (s : State) (e : Ev) : (s.setEvt e).sdma = s.sdma := rfl
@[simp] theorem State.setEvt_code (s : State) (e : Ev) : (s.setEvt e).code = s.code := rfl
@[simp] theorem State.setEvt_tst (s : State) (e : Ev) : (s.setEvt e).tst = s.tst := rfl
@[simp] theorem State.setEvt_sec (s : State) (e : Ev) : (s.setEvt e).sec = s.sec := rfl
@[simp] theorem State.setEvt_bist (s : State) (e : Ev) : (s.setEvt e).bist = s.bist := rfl
@[simp] theorem State.setEvt_aser (s : State) (e : Ev) : (s.setEvt e).aser = s.aser := rfl
@[simp] theorem State.setEvt_keep (s : State) (e : Ev) : (s.setEvt e).keep = s.keep := rfl
@[simp] theorem State.setEvt_nv (s : State) (e : Ev) : (s.setEvt e).nv = s.nv := rfl
@[simp] theorem State.setEvt_pending (s : State) (e : Ev) : (s.setEvt e).pending = s.pending := rfl

/-! ### State.setIsl -/

@[simp] theorem State.setIsl_pend (s : State) (i v : Nat) : (s.setIsl i v).pend = s.pend := rfl
@[simp] theorem State.setIsl_adopt (s : State) (i v : Nat) : (s.setIsl i v).adopt = s.adopt := rfl
@[simp] theorem State.setIsl_tb (s : State) (i v : Nat) : (s.setIsl i v).tb = s.tb := rfl
@[simp] theorem State.setIsl_fresh (s : State) (i v : Nat) : (s.setIsl i v).fresh = s.fresh := rfl
@[simp] theorem State.setIsl_fabric (s : State) (i v : Nat) : (s.setIsl i v).fabric = s.fabric := rfl
@[simp] theorem State.setIsl_pins (s : State) (i v : Nat) : (s.setIsl i v).pins = s.pins := rfl
@[simp] theorem State.setIsl_mc (s : State) (i v : Nat) : (s.setIsl i v).mc = s.mc := rfl
@[simp] theorem State.setIsl_slots (s : State) (i v : Nat) : (s.setIsl i v).slots = s.slots := rfl
@[simp] theorem State.setIsl_led (s : State) (i v : Nat) : (s.setIsl i v).led = s.led := rfl
@[simp] theorem State.setIsl_bud (s : State) (i v : Nat) : (s.setIsl i v).bud = s.bud := rfl
@[simp] theorem State.setIsl_host (s : State) (i v : Nat) : (s.setIsl i v).host = s.host := rfl
@[simp] theorem State.setIsl_ing (s : State) (i v : Nat) : (s.setIsl i v).ing = s.ing := rfl
@[simp] theorem State.setIsl_frm (s : State) (i v : Nat) : (s.setIsl i v).frm = s.frm := rfl
@[simp] theorem State.setIsl_map (s : State) (i v : Nat) : (s.setIsl i v).map = s.map := rfl
@[simp] theorem State.setIsl_tim (s : State) (i v : Nat) : (s.setIsl i v).tim = s.tim := rfl
@[simp] theorem State.setIsl_pair (s : State) (i v : Nat) : (s.setIsl i v).pair = s.pair := rfl
@[simp] theorem State.setIsl_mbx (s : State) (i v : Nat) : (s.setIsl i v).mbx = s.mbx := rfl
@[simp] theorem State.setIsl_fi (s : State) (i v : Nat) : (s.setIsl i v).fi = s.fi := rfl
@[simp] theorem State.setIsl_net (s : State) (i v : Nat) : (s.setIsl i v).net = s.net := rfl
@[simp] theorem State.setIsl_dram (s : State) (i v : Nat) : (s.setIsl i v).dram = s.dram := rfl
@[simp] theorem State.setIsl_sdma (s : State) (i v : Nat) : (s.setIsl i v).sdma = s.sdma := rfl
@[simp] theorem State.setIsl_code (s : State) (i v : Nat) : (s.setIsl i v).code = s.code := rfl
@[simp] theorem State.setIsl_tst (s : State) (i v : Nat) : (s.setIsl i v).tst = s.tst := rfl
@[simp] theorem State.setIsl_sec (s : State) (i v : Nat) : (s.setIsl i v).sec = s.sec := rfl
@[simp] theorem State.setIsl_bist (s : State) (i v : Nat) : (s.setIsl i v).bist = s.bist := rfl
@[simp] theorem State.setIsl_aser (s : State) (i v : Nat) : (s.setIsl i v).aser = s.aser := rfl
@[simp] theorem State.setIsl_keep (s : State) (i v : Nat) : (s.setIsl i v).keep = s.keep := rfl
@[simp] theorem State.setIsl_nv (s : State) (i v : Nat) : (s.setIsl i v).nv = s.nv := rfl
@[simp] theorem State.setIsl_pending (s : State) (i v : Nat) : (s.setIsl i v).pending = s.pending := rfl

/-! ### State.logAccess -/

@[simp] theorem State.logAccess_pend (s : State) (k : Nat) (w : Bool) (who : Req) (a : Nat) : (s.logAccess k w who a).pend = s.pend := rfl
@[simp] theorem State.logAccess_adopt (s : State) (k : Nat) (w : Bool) (who : Req) (a : Nat) : (s.logAccess k w who a).adopt = s.adopt := rfl
@[simp] theorem State.logAccess_tb (s : State) (k : Nat) (w : Bool) (who : Req) (a : Nat) : (s.logAccess k w who a).tb = s.tb := rfl
@[simp] theorem State.logAccess_fresh (s : State) (k : Nat) (w : Bool) (who : Req) (a : Nat) : (s.logAccess k w who a).fresh = s.fresh := rfl
@[simp] theorem State.logAccess_fabric (s : State) (k : Nat) (w : Bool) (who : Req) (a : Nat) : (s.logAccess k w who a).fabric = s.fabric := rfl
@[simp] theorem State.logAccess_pins (s : State) (k : Nat) (w : Bool) (who : Req) (a : Nat) : (s.logAccess k w who a).pins = s.pins := rfl
@[simp] theorem State.logAccess_mc (s : State) (k : Nat) (w : Bool) (who : Req) (a : Nat) : (s.logAccess k w who a).mc = s.mc := rfl
@[simp] theorem State.logAccess_slots (s : State) (k : Nat) (w : Bool) (who : Req) (a : Nat) : (s.logAccess k w who a).slots = s.slots := rfl
@[simp] theorem State.logAccess_led (s : State) (k : Nat) (w : Bool) (who : Req) (a : Nat) : (s.logAccess k w who a).led = s.led := rfl
@[simp] theorem State.logAccess_bud (s : State) (k : Nat) (w : Bool) (who : Req) (a : Nat) : (s.logAccess k w who a).bud = s.bud := rfl
@[simp] theorem State.logAccess_host (s : State) (k : Nat) (w : Bool) (who : Req) (a : Nat) : (s.logAccess k w who a).host = s.host := rfl
@[simp] theorem State.logAccess_ing (s : State) (k : Nat) (w : Bool) (who : Req) (a : Nat) : (s.logAccess k w who a).ing = s.ing := rfl
@[simp] theorem State.logAccess_frm (s : State) (k : Nat) (w : Bool) (who : Req) (a : Nat) : (s.logAccess k w who a).frm = s.frm := rfl
@[simp] theorem State.logAccess_map (s : State) (k : Nat) (w : Bool) (who : Req) (a : Nat) : (s.logAccess k w who a).map = s.map := rfl
@[simp] theorem State.logAccess_tim (s : State) (k : Nat) (w : Bool) (who : Req) (a : Nat) : (s.logAccess k w who a).tim = s.tim := rfl
@[simp] theorem State.logAccess_pair (s : State) (k : Nat) (w : Bool) (who : Req) (a : Nat) : (s.logAccess k w who a).pair = s.pair := rfl
@[simp] theorem State.logAccess_mbx (s : State) (k : Nat) (w : Bool) (who : Req) (a : Nat) : (s.logAccess k w who a).mbx = s.mbx := rfl
@[simp] theorem State.logAccess_fi (s : State) (k : Nat) (w : Bool) (who : Req) (a : Nat) : (s.logAccess k w who a).fi = s.fi := rfl
@[simp] theorem State.logAccess_net (s : State) (k : Nat) (w : Bool) (who : Req) (a : Nat) : (s.logAccess k w who a).net = s.net := rfl
@[simp] theorem State.logAccess_dram (s : State) (k : Nat) (w : Bool) (who : Req) (a : Nat) : (s.logAccess k w who a).dram = s.dram := rfl
@[simp] theorem State.logAccess_sdma (s : State) (k : Nat) (w : Bool) (who : Req) (a : Nat) : (s.logAccess k w who a).sdma = s.sdma := rfl
@[simp] theorem State.logAccess_code (s : State) (k : Nat) (w : Bool) (who : Req) (a : Nat) : (s.logAccess k w who a).code = s.code := rfl
@[simp] theorem State.logAccess_tst (s : State) (k : Nat) (w : Bool) (who : Req) (a : Nat) : (s.logAccess k w who a).tst = s.tst := rfl
@[simp] theorem State.logAccess_sec (s : State) (k : Nat) (w : Bool) (who : Req) (a : Nat) : (s.logAccess k w who a).sec = s.sec := rfl
@[simp] theorem State.logAccess_bist (s : State) (k : Nat) (w : Bool) (who : Req) (a : Nat) : (s.logAccess k w who a).bist = s.bist := rfl
@[simp] theorem State.logAccess_aser (s : State) (k : Nat) (w : Bool) (who : Req) (a : Nat) : (s.logAccess k w who a).aser = s.aser := rfl
@[simp] theorem State.logAccess_keep (s : State) (k : Nat) (w : Bool) (who : Req) (a : Nat) : (s.logAccess k w who a).keep = s.keep := rfl
@[simp] theorem State.logAccess_nv (s : State) (k : Nat) (w : Bool) (who : Req) (a : Nat) : (s.logAccess k w who a).nv = s.nv := rfl
@[simp] theorem State.logAccess_pending (s : State) (k : Nat) (w : Bool) (who : Req) (a : Nat) : (s.logAccess k w who a).pending = s.pending := rfl

/-! ### State.draw -/

@[simp] theorem State.draw_regs (s : State) : (s.draw).regs = s.regs := rfl
@[simp] theorem State.draw_pend (s : State) : (s.draw).pend = s.pend := rfl
@[simp] theorem State.draw_adopt (s : State) : (s.draw).adopt = s.adopt := rfl
@[simp] theorem State.draw_tb (s : State) : (s.draw).tb = s.tb := rfl
@[simp] theorem State.draw_fabric (s : State) : (s.draw).fabric = s.fabric := rfl
@[simp] theorem State.draw_pins (s : State) : (s.draw).pins = s.pins := rfl
@[simp] theorem State.draw_mc (s : State) : (s.draw).mc = s.mc := rfl
@[simp] theorem State.draw_slots (s : State) : (s.draw).slots = s.slots := rfl
@[simp] theorem State.draw_led (s : State) : (s.draw).led = s.led := rfl
@[simp] theorem State.draw_bud (s : State) : (s.draw).bud = s.bud := rfl
@[simp] theorem State.draw_host (s : State) : (s.draw).host = s.host := rfl
@[simp] theorem State.draw_ing (s : State) : (s.draw).ing = s.ing := rfl
@[simp] theorem State.draw_frm (s : State) : (s.draw).frm = s.frm := rfl
@[simp] theorem State.draw_map (s : State) : (s.draw).map = s.map := rfl
@[simp] theorem State.draw_tim (s : State) : (s.draw).tim = s.tim := rfl
@[simp] theorem State.draw_pair (s : State) : (s.draw).pair = s.pair := rfl
@[simp] theorem State.draw_mbx (s : State) : (s.draw).mbx = s.mbx := rfl
@[simp] theorem State.draw_fi (s : State) : (s.draw).fi = s.fi := rfl
@[simp] theorem State.draw_net (s : State) : (s.draw).net = s.net := rfl
@[simp] theorem State.draw_dram (s : State) : (s.draw).dram = s.dram := rfl
@[simp] theorem State.draw_sdma (s : State) : (s.draw).sdma = s.sdma := rfl
@[simp] theorem State.draw_code (s : State) : (s.draw).code = s.code := rfl
@[simp] theorem State.draw_tst (s : State) : (s.draw).tst = s.tst := rfl
@[simp] theorem State.draw_sec (s : State) : (s.draw).sec = s.sec := rfl
@[simp] theorem State.draw_bist (s : State) : (s.draw).bist = s.bist := rfl
@[simp] theorem State.draw_aser (s : State) : (s.draw).aser = s.aser := rfl
@[simp] theorem State.draw_keep (s : State) : (s.draw).keep = s.keep := rfl
@[simp] theorem State.draw_nv (s : State) : (s.draw).nv = s.nv := rfl
@[simp] theorem State.draw_pending (s : State) : (s.draw).pending = s.pending := rfl

/-! ### State.setHeldW -/

@[simp] theorem State.setHeldW_regs (s : State) (who : Req) (h : Option Half) : (s.setHeldW who h).regs = s.regs := by cases who <;> rfl
@[simp] theorem State.setHeldW_pend (s : State) (who : Req) (h : Option Half) : (s.setHeldW who h).pend = s.pend := by cases who <;> rfl
@[simp] theorem State.setHeldW_adopt (s : State) (who : Req) (h : Option Half) : (s.setHeldW who h).adopt = s.adopt := by cases who <;> rfl
@[simp] theorem State.setHeldW_tb (s : State) (who : Req) (h : Option Half) : (s.setHeldW who h).tb = s.tb := by cases who <;> rfl
@[simp] theorem State.setHeldW_fresh (s : State) (who : Req) (h : Option Half) : (s.setHeldW who h).fresh = s.fresh := by cases who <;> rfl
@[simp] theorem State.setHeldW_pins (s : State) (who : Req) (h : Option Half) : (s.setHeldW who h).pins = s.pins := by cases who <;> rfl
@[simp] theorem State.setHeldW_mc (s : State) (who : Req) (h : Option Half) : (s.setHeldW who h).mc = s.mc := by cases who <;> rfl
@[simp] theorem State.setHeldW_slots (s : State) (who : Req) (h : Option Half) : (s.setHeldW who h).slots = s.slots := by cases who <;> rfl
@[simp] theorem State.setHeldW_led (s : State) (who : Req) (h : Option Half) : (s.setHeldW who h).led = s.led := by cases who <;> rfl
@[simp] theorem State.setHeldW_bud (s : State) (who : Req) (h : Option Half) : (s.setHeldW who h).bud = s.bud := by cases who <;> rfl
@[simp] theorem State.setHeldW_host (s : State) (who : Req) (h : Option Half) : (s.setHeldW who h).host = s.host := by cases who <;> rfl
@[simp] theorem State.setHeldW_ing (s : State) (who : Req) (h : Option Half) : (s.setHeldW who h).ing = s.ing := by cases who <;> rfl
@[simp] theorem State.setHeldW_frm (s : State) (who : Req) (h : Option Half) : (s.setHeldW who h).frm = s.frm := by cases who <;> rfl
@[simp] theorem State.setHeldW_map (s : State) (who : Req) (h : Option Half) : (s.setHeldW who h).map = s.map := by cases who <;> rfl
@[simp] theorem State.setHeldW_tim (s : State) (who : Req) (h : Option Half) : (s.setHeldW who h).tim = s.tim := by cases who <;> rfl
@[simp] theorem State.setHeldW_pair (s : State) (who : Req) (h : Option Half) : (s.setHeldW who h).pair = s.pair := by cases who <;> rfl
@[simp] theorem State.setHeldW_mbx (s : State) (who : Req) (h : Option Half) : (s.setHeldW who h).mbx = s.mbx := by cases who <;> rfl
@[simp] theorem State.setHeldW_fi (s : State) (who : Req) (h : Option Half) : (s.setHeldW who h).fi = s.fi := by cases who <;> rfl
@[simp] theorem State.setHeldW_net (s : State) (who : Req) (h : Option Half) : (s.setHeldW who h).net = s.net := by cases who <;> rfl
@[simp] theorem State.setHeldW_dram (s : State) (who : Req) (h : Option Half) : (s.setHeldW who h).dram = s.dram := by cases who <;> rfl
@[simp] theorem State.setHeldW_sdma (s : State) (who : Req) (h : Option Half) : (s.setHeldW who h).sdma = s.sdma := by cases who <;> rfl
@[simp] theorem State.setHeldW_code (s : State) (who : Req) (h : Option Half) : (s.setHeldW who h).code = s.code := by cases who <;> rfl
@[simp] theorem State.setHeldW_tst (s : State) (who : Req) (h : Option Half) : (s.setHeldW who h).tst = s.tst := by cases who <;> rfl
@[simp] theorem State.setHeldW_sec (s : State) (who : Req) (h : Option Half) : (s.setHeldW who h).sec = s.sec := by cases who <;> rfl
@[simp] theorem State.setHeldW_bist (s : State) (who : Req) (h : Option Half) : (s.setHeldW who h).bist = s.bist := by cases who <;> rfl
@[simp] theorem State.setHeldW_aser (s : State) (who : Req) (h : Option Half) : (s.setHeldW who h).aser = s.aser := by cases who <;> rfl
@[simp] theorem State.setHeldW_keep (s : State) (who : Req) (h : Option Half) : (s.setHeldW who h).keep = s.keep := by cases who <;> rfl
@[simp] theorem State.setHeldW_nv (s : State) (who : Req) (h : Option Half) : (s.setHeldW who h).nv = s.nv := by cases who <;> rfl
@[simp] theorem State.setHeldW_pending (s : State) (who : Req) (h : Option Half) : (s.setHeldW who h).pending = s.pending := by cases who <;> rfl

/-! ### State.setHeldR -/

@[simp] theorem State.setHeldR_regs (s : State) (who : Req) (h : Option Half) : (s.setHeldR who h).regs = s.regs := by cases who <;> rfl
@[simp] theorem State.setHeldR_pend (s : State) (who : Req) (h : Option Half) : (s.setHeldR who h).pend = s.pend := by cases who <;> rfl
@[simp] theorem State.setHeldR_adopt (s : State) (who : Req) (h : Option Half) : (s.setHeldR who h).adopt = s.adopt := by cases who <;> rfl
@[simp] theorem State.setHeldR_tb (s : State) (who : Req) (h : Option Half) : (s.setHeldR who h).tb = s.tb := by cases who <;> rfl
@[simp] theorem State.setHeldR_fresh (s : State) (who : Req) (h : Option Half) : (s.setHeldR who h).fresh = s.fresh := by cases who <;> rfl
@[simp] theorem State.setHeldR_pins (s : State) (who : Req) (h : Option Half) : (s.setHeldR who h).pins = s.pins := by cases who <;> rfl
@[simp] theorem State.setHeldR_mc (s : State) (who : Req) (h : Option Half) : (s.setHeldR who h).mc = s.mc := by cases who <;> rfl
@[simp] theorem State.setHeldR_slots (s : State) (who : Req) (h : Option Half) : (s.setHeldR who h).slots = s.slots := by cases who <;> rfl
@[simp] theorem State.setHeldR_led (s : State) (who : Req) (h : Option Half) : (s.setHeldR who h).led = s.led := by cases who <;> rfl
@[simp] theorem State.setHeldR_bud (s : State) (who : Req) (h : Option Half) : (s.setHeldR who h).bud = s.bud := by cases who <;> rfl
@[simp] theorem State.setHeldR_host (s : State) (who : Req) (h : Option Half) : (s.setHeldR who h).host = s.host := by cases who <;> rfl
@[simp] theorem State.setHeldR_ing (s : State) (who : Req) (h : Option Half) : (s.setHeldR who h).ing = s.ing := by cases who <;> rfl
@[simp] theorem State.setHeldR_frm (s : State) (who : Req) (h : Option Half) : (s.setHeldR who h).frm = s.frm := by cases who <;> rfl
@[simp] theorem State.setHeldR_map (s : State) (who : Req) (h : Option Half) : (s.setHeldR who h).map = s.map := by cases who <;> rfl
@[simp] theorem State.setHeldR_tim (s : State) (who : Req) (h : Option Half) : (s.setHeldR who h).tim = s.tim := by cases who <;> rfl
@[simp] theorem State.setHeldR_pair (s : State) (who : Req) (h : Option Half) : (s.setHeldR who h).pair = s.pair := by cases who <;> rfl
@[simp] theorem State.setHeldR_mbx (s : State) (who : Req) (h : Option Half) : (s.setHeldR who h).mbx = s.mbx := by cases who <;> rfl
@[simp] theorem State.setHeldR_fi (s : State) (who : Req) (h : Option Half) : (s.setHeldR who h).fi = s.fi := by cases who <;> rfl
@[simp] theorem State.setHeldR_net (s : State) (who : Req) (h : Option Half) : (s.setHeldR who h).net = s.net := by cases who <;> rfl
@[simp] theorem State.setHeldR_dram (s : State) (who : Req) (h : Option Half) : (s.setHeldR who h).dram = s.dram := by cases who <;> rfl
@[simp] theorem State.setHeldR_sdma (s : State) (who : Req) (h : Option Half) : (s.setHeldR who h).sdma = s.sdma := by cases who <;> rfl
@[simp] theorem State.setHeldR_code (s : State) (who : Req) (h : Option Half) : (s.setHeldR who h).code = s.code := by cases who <;> rfl
@[simp] theorem State.setHeldR_tst (s : State) (who : Req) (h : Option Half) : (s.setHeldR who h).tst = s.tst := by cases who <;> rfl
@[simp] theorem State.setHeldR_sec (s : State) (who : Req) (h : Option Half) : (s.setHeldR who h).sec = s.sec := by cases who <;> rfl
@[simp] theorem State.setHeldR_bist (s : State) (who : Req) (h : Option Half) : (s.setHeldR who h).bist = s.bist := by cases who <;> rfl
@[simp] theorem State.setHeldR_aser (s : State) (who : Req) (h : Option Half) : (s.setHeldR who h).aser = s.aser := by cases who <;> rfl
@[simp] theorem State.setHeldR_keep (s : State) (who : Req) (h : Option Half) : (s.setHeldR who h).keep = s.keep := by cases who <;> rfl
@[simp] theorem State.setHeldR_nv (s : State) (who : Req) (h : Option Half) : (s.setHeldR who h).nv = s.nv := by cases who <;> rfl
@[simp] theorem State.setHeldR_pending (s : State) (who : Req) (h : Option Half) : (s.setHeldR who h).pending = s.pending := by cases who <;> rfl

/-! ### State.clear -/

@[simp] theorem State.clear_pend (s : State) (fs : List Field) : (s.clear fs).pend = s.pend := by
  induction fs generalizing s with
  | nil => rfl
  | cons f fs ih => exact ih (s.set f 0)

@[simp] theorem State.clear_adopt (s : State) (fs : List Field) : (s.clear fs).adopt = s.adopt := by
  induction fs generalizing s with
  | nil => rfl
  | cons f fs ih => exact ih (s.set f 0)

@[simp] theorem State.clear_tb (s : State) (fs : List Field) : (s.clear fs).tb = s.tb := by
  induction fs generalizing s with
  | nil => rfl
  | cons f fs ih => exact ih (s.set f 0)

@[simp] theorem State.clear_fresh (s : State) (fs : List Field) : (s.clear fs).fresh = s.fresh := by
  induction fs generalizing s with
  | nil => rfl
  | cons f fs ih => exact ih (s.set f 0)

@[simp] theorem State.clear_fabric (s : State) (fs : List Field) : (s.clear fs).fabric = s.fabric := by
  induction fs generalizing s with
  | nil => rfl
  | cons f fs ih => exact ih (s.set f 0)

@[simp] theorem State.clear_pins (s : State) (fs : List Field) : (s.clear fs).pins = s.pins := by
  induction fs generalizing s with
  | nil => rfl
  | cons f fs ih => exact ih (s.set f 0)

@[simp] theorem State.clear_mc (s : State) (fs : List Field) : (s.clear fs).mc = s.mc := by
  induction fs generalizing s with
  | nil => rfl
  | cons f fs ih => exact ih (s.set f 0)

@[simp] theorem State.clear_slots (s : State) (fs : List Field) : (s.clear fs).slots = s.slots := by
  induction fs generalizing s with
  | nil => rfl
  | cons f fs ih => exact ih (s.set f 0)

@[simp] theorem State.clear_led (s : State) (fs : List Field) : (s.clear fs).led = s.led := by
  induction fs generalizing s with
  | nil => rfl
  | cons f fs ih => exact ih (s.set f 0)

@[simp] theorem State.clear_bud (s : State) (fs : List Field) : (s.clear fs).bud = s.bud := by
  induction fs generalizing s with
  | nil => rfl
  | cons f fs ih => exact ih (s.set f 0)

@[simp] theorem State.clear_host (s : State) (fs : List Field) : (s.clear fs).host = s.host := by
  induction fs generalizing s with
  | nil => rfl
  | cons f fs ih => exact ih (s.set f 0)

@[simp] theorem State.clear_ing (s : State) (fs : List Field) : (s.clear fs).ing = s.ing := by
  induction fs generalizing s with
  | nil => rfl
  | cons f fs ih => exact ih (s.set f 0)

@[simp] theorem State.clear_frm (s : State) (fs : List Field) : (s.clear fs).frm = s.frm := by
  induction fs generalizing s with
  | nil => rfl
  | cons f fs ih => exact ih (s.set f 0)

@[simp] theorem State.clear_map (s : State) (fs : List Field) : (s.clear fs).map = s.map := by
  induction fs generalizing s with
  | nil => rfl
  | cons f fs ih => exact ih (s.set f 0)

@[simp] theorem State.clear_tim (s : State) (fs : List Field) : (s.clear fs).tim = s.tim := by
  induction fs generalizing s with
  | nil => rfl
  | cons f fs ih => exact ih (s.set f 0)

@[simp] theorem State.clear_pair (s : State) (fs : List Field) : (s.clear fs).pair = s.pair := by
  induction fs generalizing s with
  | nil => rfl
  | cons f fs ih => exact ih (s.set f 0)

@[simp] theorem State.clear_mbx (s : State) (fs : List Field) : (s.clear fs).mbx = s.mbx := by
  induction fs generalizing s with
  | nil => rfl
  | cons f fs ih => exact ih (s.set f 0)

@[simp] theorem State.clear_fi (s : State) (fs : List Field) : (s.clear fs).fi = s.fi := by
  induction fs generalizing s with
  | nil => rfl
  | cons f fs ih => exact ih (s.set f 0)

@[simp] theorem State.clear_net (s : State) (fs : List Field) : (s.clear fs).net = s.net := by
  induction fs generalizing s with
  | nil => rfl
  | cons f fs ih => exact ih (s.set f 0)

@[simp] theorem State.clear_dram (s : State) (fs : List Field) : (s.clear fs).dram = s.dram := by
  induction fs generalizing s with
  | nil => rfl
  | cons f fs ih => exact ih (s.set f 0)

@[simp] theorem State.clear_sdma (s : State) (fs : List Field) : (s.clear fs).sdma = s.sdma := by
  induction fs generalizing s with
  | nil => rfl
  | cons f fs ih => exact ih (s.set f 0)

@[simp] theorem State.clear_code (s : State) (fs : List Field) : (s.clear fs).code = s.code := by
  induction fs generalizing s with
  | nil => rfl
  | cons f fs ih => exact ih (s.set f 0)

@[simp] theorem State.clear_tst (s : State) (fs : List Field) : (s.clear fs).tst = s.tst := by
  induction fs generalizing s with
  | nil => rfl
  | cons f fs ih => exact ih (s.set f 0)

@[simp] theorem State.clear_sec (s : State) (fs : List Field) : (s.clear fs).sec = s.sec := by
  induction fs generalizing s with
  | nil => rfl
  | cons f fs ih => exact ih (s.set f 0)

@[simp] theorem State.clear_bist (s : State) (fs : List Field) : (s.clear fs).bist = s.bist := by
  induction fs generalizing s with
  | nil => rfl
  | cons f fs ih => exact ih (s.set f 0)

@[simp] theorem State.clear_aser (s : State) (fs : List Field) : (s.clear fs).aser = s.aser := by
  induction fs generalizing s with
  | nil => rfl
  | cons f fs ih => exact ih (s.set f 0)

@[simp] theorem State.clear_keep (s : State) (fs : List Field) : (s.clear fs).keep = s.keep := by
  induction fs generalizing s with
  | nil => rfl
  | cons f fs ih => exact ih (s.set f 0)

@[simp] theorem State.clear_nv (s : State) (fs : List Field) : (s.clear fs).nv = s.nv := by
  induction fs generalizing s with
  | nil => rfl
  | cons f fs ih => exact ih (s.set f 0)

@[simp] theorem State.clear_pending (s : State) (fs : List Field) : (s.clear fs).pending = s.pending := by
  induction fs generalizing s with
  | nil => rfl
  | cons f fs ih => exact ih (s.set f 0)

end Sys2Proof.Machine
end

