-- ==== Sys2Proof/Laws/Ops.lean ====
section
/-!
SUPPORT. What the shared operations do, said once: tables by key, register fields, bits of numbers, byte memories, and the gates that
a register write or a host command passes before its effect.
-/

namespace Sys2Proof.Machine

/-! ### Tables by key -/

theorem Tbl.find?_del_self {α : Type} (t : Tbl α) (k : Nat) : (t.del k).find? k = none := by
  induction t with
  | nil => rfl
  | cons x t ih =>
    by_cases hx : x.1 = k
    · simpa [Tbl.del, hx] using ih
    · simpa [Tbl.del, Tbl.find?, hx] using ih

theorem Tbl.find?_del_ne {α : Type} (t : Tbl α) {k j : Nat} (h : j ≠ k) : (t.del k).find? j = t.find? j := by
  induction t with
  | nil => rfl
  | cons x t ih =>
    by_cases hx : x.1 = k
    · have : ¬x.1 = j := fun e => h (e.symm.trans hx)
      simpa [Tbl.del, Tbl.find?, hx, Ne.symm h] using ih
    · by_cases hj : x.1 = j
      · simp [Tbl.del, Tbl.find?, hj, h]
      · simpa [Tbl.del, Tbl.find?, hx, hj] using ih

theorem Tbl.find?_ins_self {α : Type} (t : Tbl α) (k : Nat) (v : α) (h : t.find? k = none) : (t.ins k v).find? k = some v := by
  induction t with
  | nil => simp [Tbl.ins, Tbl.find?]
  | cons x t ih =>
    by_cases hx : x.1 = k
    · simp [Tbl.find?, hx] at h
    · by_cases hl : k < x.1
      · simp [Tbl.ins, Tbl.find?, hl]
      · simp only [Tbl.find?, hx, if_false] at h
        simpa [Tbl.ins, Tbl.find?, hl, hx] using ih h

theorem Tbl.find?_ins_ne {α : Type} (t : Tbl α) {k j : Nat} (v : α) (h : j ≠ k) : (t.ins k v).find? j = t.find? j := by
  induction t with
  | nil => simp [Tbl.ins, Tbl.find?, Ne.symm h]
  | cons x t ih =>
    by_cases hl : k < x.1
    · simp [Tbl.ins, Tbl.find?, hl, Ne.symm h]
    · by_cases hj : x.1 = j
      · subst hj
        simp [Tbl.ins, Tbl.find?, hl]
      · simpa [Tbl.ins, Tbl.find?, hl, hj] using ih

@[simp] theorem Tbl.find?_put_self {α : Type} (t : Tbl α) (k : Nat) (v : α) : (t.put k v).find? k = some v :=
  Tbl.find?_ins_self _ _ _ (Tbl.find?_del_self t k)

theorem Tbl.find?_put_ne {α : Type} (t : Tbl α) {k j : Nat} (v : α) (h : j ≠ k) : (t.put k v).find? j = t.find? j := by
  rw [Tbl.put, Tbl.find?_ins_ne _ _ h, Tbl.find?_del_ne _ h]

@[simp] theorem Tbl.get_put_self {α : Type} (t : Tbl α) (k : Nat) (v d : α) : (t.put k v).get k d = v := by
  simp [Tbl.get]

theorem Tbl.get_put_ne {α : Type} (t : Tbl α) {k j : Nat} (v d : α) (h : j ≠ k) : (t.put k v).get j d = t.get j d := by
  simp [Tbl.get, Tbl.find?_put_ne _ _ h]

@[simp] theorem Tbl.get_del_self {α : Type} (t : Tbl α) (k : Nat) (d : α) : (t.del k).get k d = d := by
  simp [Tbl.get, Tbl.find?_del_self]

theorem Tbl.get_del_ne {α : Type} (t : Tbl α) {k j : Nat} (d : α) (h : j ≠ k) : (t.del k).get j d = t.get j d := by
  simp [Tbl.get, Tbl.find?_del_ne _ h]

/-! ### Register fields -/

/-- A field reads what it was given, cut to its width. -/
@[simp] theorem State.get_set_self (s : State) (f : Field) (v : Nat) : (s.set f v).get f = v % 2 ^ f.width := by
  unfold State.get State.set
  dsimp only
  split
  · rename_i h
    rw [h, Tbl.get_del_self]
  · rw [Tbl.get_put_self]

/-- Giving a field a value leaves every other field. -/
theorem State.get_set_ne (s : State) {f g : Field} (v : Nat) (h : g.key ≠ f.key) : (s.set f v).get g = s.get g := by
  unfold State.get State.set
  dsimp only
  split
  · rw [Tbl.get_del_ne _ _ h]
  · rw [Tbl.get_put_ne _ _ _ h]

/-- Giving a field a value leaves everything but its entry. -/
theorem State.set_only (s : State) (f : Field) (v : Nat) : OnlyFields [f] s (s.set f v) :=
  ⟨rfl, fun g hg => State.get_set_ne s v (by simpa using hg)⟩

theorem OnlyFields.refl (fs : List Field) (s : State) : OnlyFields fs s s := ⟨rfl, fun _ _ => rfl⟩

theorem OnlyFields.trans {fs gs : List Field} {s t u : State} (h : OnlyFields fs s t) (k : OnlyFields gs t u) :
    OnlyFields (fs ++ gs) s u := by
  refine ⟨?_, fun g hg => ?_⟩
  · rw [k.1, h.1]
  · simp only [List.map_append, List.mem_append, not_or] at hg
    rw [k.2 g hg.2, h.2 g hg.1]

theorem OnlyFields.mono {fs gs : List Field} {s t : State} (h : OnlyFields fs s t) (hs : ∀ f ∈ fs, f.key ∈ gs.map Field.key) :
    OnlyFields gs s t := by
  refine ⟨h.1, fun g hg => h.2 g fun hm => hg ?_⟩
  obtain ⟨f, hf, e⟩ := List.mem_map.mp hm
  exact e ▸ hs f hf

/-- Clearing fields touches no other field. -/
theorem State.clear_only (s : State) (fs : List Field) : OnlyFields fs s (s.clear fs) := by
  induction fs generalizing s with
  | nil => exact OnlyFields.refl _ _
  | cons f fs ih => exact (State.set_only s f 0).trans (ih (s.set f 0))

/-- A pending value differs from the active one only where it was given. -/
theorem State.getP_setP_self (s : State) (f : Field) (v : Nat) : (s.setP f v).getP f = v % 2 ^ f.width := by
  unfold State.getP State.setP
  dsimp only
  split
  · rename_i h
    rw [h, Tbl.get_del_self]
    rfl
  · rw [Tbl.get_put_self]

/-- A pending value does not act (R49). -/
@[simp] theorem State.get_setP (s : State) (f g : Field) (v : Nat) : (s.setP f v).get g = s.get g := rfl

/-! ### Bits of numbers -/

theorem bits_lt (v lo w : Nat) : bits v lo w < 2 ^ w := Nat.mod_lt _ (Nat.two_pow_pos w)

theorem putBit_true (v n : Nat) : putBit v n true = setBit v n := rfl

theorem putBit_false (v n : Nat) : putBit v n false = clrBit v n := rfl

/-- A bit that has been set reads set. -/
@[simp] theorem bit_setBit (v n : Nat) : bit (setBit v n) n = true := by
  unfold setBit
  split
  · assumption
  · rename_i h
    have h0 : v / 2 ^ n % 2 ≠ 1 := by simpa [bit] using h
    simp only [bit, decide_eq_true_eq, Nat.add_div_right _ (Nat.two_pow_pos n)]
    omega

/-- A bit that has been cleared reads clear. -/
@[simp] theorem bit_clrBit (v n : Nat) : bit (clrBit v n) n = false := by
  unfold clrBit
  split
  · rename_i h
    have h1 : v / 2 ^ n % 2 = 1 := by simpa [bit] using h
    have hle : 2 ^ n ≤ v := by
      by_cases hv : v < 2 ^ n
      · rw [Nat.div_eq_of_lt hv] at h1
        omega
      · omega
    have e : (v - 2 ^ n) / 2 ^ n = v / 2 ^ n - 1 := by
      obtain ⟨d, rfl⟩ := Nat.exists_eq_add_of_le hle
      rw [Nat.add_sub_cancel_left, Nat.add_comm, Nat.add_div_right _ (Nat.two_pow_pos n)]
      rfl
    simp only [bit, e, decide_eq_false_iff_not]
    omega
  · rename_i h
    simpa using h

@[simp] theorem bit_putBit (v n : Nat) (b : Bool) : bit (putBit v n b) n = b := by
  cases b
  · exact bit_clrBit v n
  · exact bit_setBit v n

/-! ### Byte memories -/

theorem Memory.read_write_self {m : Memory} (a v : Nat) (h : Memory.wf m = true) : (Memory.write m a v).read a = v % 256 := by
  induction m with
  | nil =>
    by_cases hv : v % 256 = 0 <;> simp [Memory.write, Memory.read, hv]
  | cons x m ih =>
    obtain ⟨a', b⟩ := x
    rw [Memory.wf_iff, List.pairwise_cons] at h
    have hm : Memory.wf m = true := (Memory.wf_iff m).mpr ⟨h.1.2, fun c hc => h.2 c (List.mem_cons_of_mem _ hc)⟩
    have skip : ∀ n : Memory, (∀ c ∈ n, a < c.1) → n.read a = 0 := by
      intro n
      induction n with
      | nil => exact fun _ => rfl
      | cons y n ihn =>
        intro hn
        have hy := hn y (List.mem_cons_self ..)
        simp only [Memory.read, show ¬y.1 = a by omega, if_false]
        exact ihn fun c hc => hn c (List.mem_cons_of_mem _ hc)
    by_cases hlt : a < a'
    · by_cases hv : v % 256 = 0
      · simp only [Memory.write, hlt, hv, if_true]
        refine skip _ fun c hc => ?_
        rcases List.mem_cons.mp hc with rfl | hc
        · exact hlt
        · exact Nat.lt_trans hlt (h.1.1 c hc)
      · simp [Memory.write, Memory.read, hlt, hv]
    · by_cases he : a = a'
      · subst he
        by_cases hv : v % 256 = 0
        · simp only [Memory.write, Nat.lt_irrefl, hv, if_true, if_false]
          exact skip _ h.1.1
        · simp [Memory.write, Memory.read, hv]
      · simpa [Memory.write, Memory.read, hlt, he, Ne.symm he] using ih hm

theorem Memory.read_write_ne (m : Memory) {a a' : Nat} (v : Nat) (h : a' ≠ a) : (Memory.write m a v).read a' = m.read a' := by
  induction m with
  | nil => by_cases hv : v % 256 = 0 <;> simp [Memory.write, Memory.read, hv, Ne.symm h]
  | cons x m ih =>
    obtain ⟨k, b⟩ := x
    by_cases hlt : a < k
    · by_cases hv : v % 256 = 0 <;> simp [Memory.write, Memory.read, hlt, hv, Ne.symm h]
    · by_cases he : a = k
      · subst he
        by_cases hv : v % 256 = 0 <;> simp [Memory.write, Memory.read, hv, Ne.symm h]
      · by_cases hk : k = a'
        · subst hk
          simp [Memory.write, Memory.read, hlt, he]
        · simpa [Memory.write, Memory.read, hlt, he, hk] using ih

/-- Writing bytes leaves every byte outside them. -/
theorem Memory.read_writeBytes_out (m : Memory) (bs : List Nat) {a x : Nat} (h : x < a ∨ a + bs.length ≤ x) :
    (Memory.writeBytes m a bs).read x = m.read x := by
  induction bs generalizing m a with
  | nil => rfl
  | cons b bs ih =>
    have hl : (b :: bs).length = bs.length + 1 := rfl
    simp only [Memory.writeBytes]
    rw [ih _ (by omega), Memory.read_write_ne _ _ (by omega)]

/-! ### What a register write passes before its effect -/

/-- A write that does not reach its register leaves what stopped it. -/
theorem State.regAction_blocked {s s' : State} {who : Req} {p off : Nat} (f : State → State)
    (h : (s.dropHeld who).blocked who p off = some s') : s.regAction who p off f = s' := by
  simp [State.regAction, h]

/-- A write that reaches its register has its effect. -/
theorem State.regAction_reaches {s : State} {who : Req} {p off : Nat} (f : State → State)
    (h : (s.dropHeld who).blocked who p off = none) : s.regAction who p off f = f (s.dropHeld who) := by
  simp [State.regAction, h]

/-- As `regAction_blocked`. -/
theorem State.rwAction_blocked {s s' : State} {who : Req} {p off : Nat} (f : State → State)
    (h : (s.dropHeld who).blocked who p off = some s') : s.rwAction who p off f = s' :=
  State.regAction_blocked _ h

/-- Where the mode carries it out, an RW field or WO action takes the write (Table 04-5). -/
theorem State.rwAction_takes {s : State} {who : Req} {p off : Nat} (f : State → State) (h : (s.dropHeld who).takes who p off) :
    s.rwAction who p off f = f (s.dropHeld who) := by
  simp [State.rwAction, State.regAction_reaches _ h.1, h.2]

/-- Where the mode ignores it, MODE_REFUSED rises and nothing else happens (Table 04-5). -/
theorem State.rwAction_ignored {s : State} {who : Req} {p off : Nat} (f : State → State)
    (h : (s.dropHeld who).blocked who p off = none) (hm : (s.dropHeld who).rwMode p = false) :
    s.rwAction who p off f = (s.dropHeld who).modeRefused := by
  simp [State.rwAction, State.regAction_reaches _ h, hm]

/-- With nothing held, a write drops nothing but a captured half-read (R48). -/
theorem State.dropHeld_none {s : State} {who : Req} (h : s.heldW who = none) : s.dropHeld who = s.setHeldR who none := by
  have : (s.setHeldR who none).heldW who = none := by cases who <;> exact h
  simp [State.dropHeld, this]

/-! ### What a host command passes before its effect -/

/-- A command whose source may be fetched is judged in the state its fetch leaves (R215, R220). -/
theorem State.arrive_fetches {s : State} {id : Cid} (f : State → State) (h : s.fetches id) : s.arrive id f = f (s.atFetch id) := by
  obtain ⟨src, cid⟩ := id
  obtain ⟨h1, h2⟩ := h
  cases src with
  | host q =>
    have : (s.popSq (.host q)).host.aborts = s.host.aborts := by
      unfold State.popSq
      dsimp only
      split <;> rfl
    simp only at h1 h2
    simp [State.arrive, State.arriveFree, State.atFetch, h1, this, h2]
  | dock c => simp [State.arrive, State.arriveFree, State.atFetch, h1]
  | relay => simp [State.arrive, State.arriveFree, State.atFetch, h1]

/-- A command that passes every check runs (R218). -/
theorem State.judge_passes {s : State} {id : Cid} {ws : List (Bool × Why)} (f : State → State) (h : Passes ws) :
    s.judge id ws f = f s := by
  have : ws.find? (fun w => w.1) = none := by
    rw [List.find?_eq_none]
    intro w hw
    simp [h w hw]
  simp [State.judge, this]

/-- A command is rejected for the first check that fails (R218). -/
theorem State.judge_fails {s : State} {id : Cid} {ws : List (Bool × Why)} {w : Bool × Why} (f : State → State)
    (h : ws.find? (fun w => w.1) = some w) : s.judge id ws f = s.reject id w.2 := by
  simp [State.judge, h]

/-- An event that is not to rise changes nothing. -/
@[simp] theorem State.raiseIf_false (s : State) (e : Ev) : s.raiseIf false e = s := rfl

/-- An event that is to rise rises. -/
@[simp] theorem State.raiseIf_true (s : State) (e : Ev) : s.raiseIf true e = s.raise e := rfl

/-- A command that goes on from a state answers it. -/
theorem answers_of {c : Instr} {s t : State} {P : State → Prop} (h : exec c s = .next t) (hp : P t) : Answers c s P := ⟨t, h, hp⟩

end Sys2Proof.Machine
end

