-- ==== Sys2Proof/WellFormed.lean ====
section
/-!
DEFINITION. Well-formed commands: the operands that the fields they come from can carry. The meanings are total; a command that is
not well formed comes from no sender.
-/

namespace Sys2Proof

/-! ### Checks of one operand -/

/-- A value of `n` bits. -/
def fits (n v : Nat) : Bool := v < 2 ^ n

/-- Every element passes a check. -/
def each {α : Type} (p : α → Bool) (l : List α) : Bool := l.all p

/-- A BAR2 offset: BAR2 is 1 MiB. -/
def isBar2 (a : Nat) : Bool := a < 0x100000

/-- A length of an access: at least one byte, at most a DRAM chunk. -/
def isLength (n : Nat) : Bool := 1 ≤ n && n ≤ 64

/-- A page (R42). -/
def isPage (p : Nat) : Bool := p < 96

/-- An island (R94). -/
def isIsland (i : Nat) : Bool := i < 24

/-- A function (Table 04-2). -/
def isFn (f : Nat) : Bool := f < 48

/-- A mode (Table 04-3). -/
def isMode (m : Nat) : Bool := m < 16

/-- A bank of selectable level: VDDIO_A and four VDDQ_FL. -/
def isBank (b : Nat) : Bool := b ≤ 4

/-- What a bank is decided to be (R73). -/
def isLevel (l : Nat) : Bool := 1 ≤ l && l ≤ 3

/-- A rail of PWR.RAIL_STATUS; VBAK, bit 15, is measured. -/
def isRail (r : Nat) : Bool := r < 15

/-- PE_REFCLK or SD_REFCLK. -/
def isRef (r : Nat) : Bool := 1 ≤ r && r ≤ 2

/-- A PLL (R87). -/
def isPll (p : Nat) : Bool := p ≤ 9

/-- A flash channel. -/
def isChan (c : Nat) : Bool := c < 64

/-- A DRAM channel. -/
def isDramChan (c : Nat) : Bool := c < 4

/-- A DRAM client (Table 11-5). -/
def isClient (c : Nat) : Bool := c < 8

/-- A lane of a link of eight. -/
def isLane (l : Nat) : Bool := l < 8

/-- A virtual channel of the Busaist link. -/
def isVc (v : Nat) : Bool := v < 8

/-- A virtual channel of the pair link. -/
def isPairVc (v : Nat) : Bool := v < 3

/-- One of two ports. -/
def isPort (p : Nat) : Bool := p < 2

/-- A direction of the mailboxes. -/
def isDir (d : Nat) : Bool := d < 4

/-- Where a request of the mailboxes came from: the HI queue, the HI block or the peer. -/
def isVia (v : Nat) : Bool := v < 3

/-- A service DMA channel. -/
def isSdma (n : Nat) : Bool := n < 8

/-- A check-value unit. -/
def isUnit (n : Nat) : Bool := n < 4

/-- An injector. -/
def isInj (i : Nat) : Bool := i < 7

/-- An array of memory BIST (Table 20-1). -/
def isArray (a : Nat) : Bool := a < 14

/-- A placement group, those of grooming included. -/
def isGroup (g : Nat) : Bool := g < 64

/-! ### Checks of composed operands -/

/-- A command's identity. -/
def Cid.wf (c : Cid) : Bool :=
  fits 16 c.cid && (match c.src with
    | .host q => fits 16 q
    | .dock _ | .relay => true)

/-- The fields of an I/O command. -/
def IoCmd.wf (c : IoCmd) : Bool :=
  fits 32 c.nsid && fits 64 c.slba && (1 ≤ c.nlb && c.nlb ≤ 65536) && fits 3 c.prchk && fits 64 c.ref && fits 16 c.app && fits 16 c.mask &&
    c.dspec.all (fits 16)

/-- What a calibration found. -/
def CalChan.wf (c : CalChan) : Bool := isChan c.chan

/-- An ALIGN block. -/
def AlignBlk.wf (b : AlignBlk) : Bool := isLane b.lane && fits 8 b.logical && fits 8 b.seq

/-- What discovery finds. -/
def ChanFound.wf (c : ChanFound) : Bool := isChan c.chan && c.luns.length ≤ 16

/-- What the tracker finds. -/
def TrackRes.wf (r : TrackRes) : Bool := isChan r.chan && fits 4 r.lun

/-- A BEAT. -/
def BeatMsg.wf (b : BeatMsg) : Bool := fits 1 b.rank && fits 1 b.feed && isMode b.mode && fits 3 b.pstate && fits 32 b.tb

/-- A SLOT message. -/
def SlotMsg.wf (m : SlotMsg) : Bool := fits 8 m.kind && fits 8 m.flags && fits 8 m.stream && fits 8 m.mask && m.data.length ≤ 8

/-- An IDENT. -/
def Ident.wf (i : Ident) : Bool := fits 1 i.rank && fits 1 i.feed

/-! ### Commands -/

/-- A command is well formed. -/
def Instr.wf : Instr → Bool
  | .registerWrite _ addr bytes _ => isBar2 addr && isLength bytes
  | .halfWriteLow _ addr val => isBar2 addr && fits 32 val
  | .halfWriteHigh _ addr val => isBar2 addr && fits 32 val
  | .lowHalfRead _ addr bytes => isBar2 addr && isLength bytes
  | .shadowCommit _ page epoch => isPage page && fits 24 epoch
  | .shadowAbandon _ page _ => isPage page
  | .gcommit _ epoch => fits 24 epoch
  | .commitAdopted page => isPage page
  | .snapTriggerFire _ => true
  | .snapInEdge _ => true
  | .snapRearm _ => true
  | .snapClrCounts _ => true
  | .powerOnResetRelease straps unstable => fits 16 straps && fits 16 unstable
  | .bankLevelDecided bank level => isBank bank && isLevel level
  | .railTrip rail => isRail rail
  | .vinSenseLow mv => fits 16 mv
  | .pwrFailN _ => true
  | .xtalLoss => true
  | .refClockLoss ref _ => isRef ref
  | .refRestored ref => isRef ref
  | .pllLock pll => isPll pll
  | .sscProfileChange pll => isPll pll
  | .lossClr _ => true
  | .islEnWrite _ island _ => isIsland island
  | .islandStopComplete island => isIsland island
  | .islandStarted island => isIsland island
  | .resetNAssert => true
  | .resetNRelease straps unstable => fits 16 straps && fits 16 unstable
  | .perstNAssert => true
  | .perstNDeassert => true
  | .watchdogExpiry => true
  | .softReset _ key => fits 16 key
  | .islandReset _ key island => fits 16 key && isIsland island
  | .resetFlushEnd => true
  | .deferredResetRelease => true
  | .functionReady fn found => isFn fn && each (fits 64) found
  | .functionFault fn => isFn fn
  | .modeReq _ target => isMode target
  | .modeTransitionComplete => true
  | .wakeExitTimeout => true
  | .drainComplete => true
  | .restEntry => true
  | .restartAfterSeal straps unstable => fits 16 straps && fits 16 unstable
  | .wakeRising straps unstable => fits 16 straps && fits 16 unstable
  | .offloadNoConnectionTimeout => true
  | .holdSample code => fits 12 code
  | .admissionDecision => true
  | .ledgerCalGo _ => true
  | .calDone _ chans => each CalChan.wf chans
  | .hostWaitExpired cid => Cid.wf cid
  | .ledgerClr _ => true
  | .pbufClr _ => true
  | .sealLunsReady => true
  | .sealPageProgramDone chan _ => isChan chan
  | .sealRecordRetired => true
  | .sealKeepEntry => true
  | .journalReplay _ => true
  | .arbitrationWindowStart throughout => each (fits 3) throughout
  | .arbiterPick _ => true
  | .sequencerIssue _ => true
  | .thermalSample _ _ => true
  | .grantWrite _ mw => fits 32 mw
  | .budgetClr _ => true
  | .sqTailDoorbell q value _ => fits 16 q && fits 32 value
  | .cqHeadDoorbell q value => fits 16 q && fits 32 value
  | .ccEnable _ _ _ _ => true
  | .ccShutdown => true
  | .createIoSq id qid _ cqid _ _ => Cid.wf id && fits 16 qid && fits 16 cqid
  | .createIoCq id qid _ _ _ _ => Cid.wf id && fits 16 qid
  | .deleteIoSq id qid => Cid.wf id && fits 16 qid
  | .deleteIoCq id qid => Cid.wf id && fits 16 qid
  | .getLogPage id lid off _ _ _ => Cid.wf id && fits 8 lid && fits 64 off
  | .identify id cns nsid _ _ => Cid.wf id && fits 8 cns && fits 32 nsid
  | .abort id sqid cid _ => Cid.wf id && fits 16 sqid && fits 16 cid
  | .abortWindowExpired id => Cid.wf id
  | .setFeatures id fid cdw11 _ _ => Cid.wf id && fits 8 fid && fits 32 cdw11
  | .getFeatures id fid cdw11 _ _ => Cid.wf id && fits 8 fid && fits 32 cdw11
  | .asynchronousEventRequest id => Cid.wf id
  | .namespaceManagement id sel nsid _ _ _ _ _ => Cid.wf id && fits 4 sel && fits 32 nsid
  | .namespaceAttachment id sel nsid _ => Cid.wf id && fits 4 sel && fits 32 nsid
  | .firmwareImageDownload id numd ofst bytes _ => Cid.wf id && fits 32 numd && fits 32 ofst && each (fits 8) bytes
  | .firmwareCommit id fs ca _ => Cid.wf id && fits 3 fs && fits 3 ca
  | .deviceSelfTest id nsid stc => Cid.wf id && fits 32 nsid && fits 4 stc
  | .keepAlive id => Cid.wf id
  | .keepAliveExpired _ => true
  | .directiveSend id dtype doper cdw12 _ => Cid.wf id && fits 8 dtype && fits 8 doper && fits 32 cdw12
  | .directiveReceive id dtype doper _ _ => Cid.wf id && fits 8 dtype && fits 8 doper
  | .formatNvm id nsid _ _ _ _ _ => Cid.wf id && fits 32 nsid
  | .sanitize id _ cdw10 _ => Cid.wf id && fits 32 cdw10
  | .takeStart id take first last _ => Cid.wf id && fits 32 take && fits 8 first && fits 8 last
  | .takeStop id take _ => Cid.wf id && fits 32 take
  | .ownerLock id _ _ cred _ _ => Cid.wf id && each (fits 8) cred
  | .ownerUnlock id _ cred _ _ => Cid.wf id && each (fits 8) cred
  | .frameIndexRead id stream _ take first count _ _ => Cid.wf id && fits 8 stream && fits 32 take && fits 32 first && fits 16 count
  | .ledgerQuery id _ _ _ => Cid.wf id
  | .modeRequest id target _ => Cid.wf id && fits 8 target
  | .mailboxPost id words doorbell _ _ => Cid.wf id && each (fits 64) words && fits 32 doorbell
  | .snapshotTrigger id _ _ _ _ => Cid.wf id
  | .pairControl id action _ => Cid.wf id && fits 8 action
  | .flush id nsid _ => Cid.wf id && fits 32 nsid
  | .write id c => Cid.wf id && IoCmd.wf c
  | .hostWriteDataComplete id _ _ => Cid.wf id
  | .read id c => Cid.wf id && IoCmd.wf c
  | .compare id c _ => Cid.wf id && IoCmd.wf c
  | .writeZeroes id c => Cid.wf id && IoCmd.wf c
  | .datasetManagement id nsid _ _ _ => Cid.wf id && fits 32 nsid
  | .verify id c => Cid.wf id && IoCmd.wf c
  | .selftestChunk _ => true
  | .selftestResume _ => true
  | .selftestSegmentDone _ _ => true
  | .hostqClr _ => true
  | .pcieRetrain _ speed width => fits 3 speed && fits 3 width
  | .pcieClr _ => true
  | .pcieLinkUp speed width eq => fits 3 speed && fits 3 width && fits 3 eq
  | .laneBlockLock lane _ => isLane lane
  | .lockLoss lane => isLane lane
  | .badSyncHeader lane => isLane lane
  | .busaistAlign blks => each AlignBlk.wf blks
  | .alignTimeout => true
  | .busaistSync b1 pattern => fits 8 b1 && fits 48 pattern
  | .frameHeader h0 h1 => fits 64 h0 && fits 64 h1
  | .busaistSwitch vc => isVc vc
  | .frameDataBlock payload => fits 64 payload
  | .busaistTerm vc status crc frame => isVc vc && fits 5 status && fits 32 crc && fits 16 frame
  | .busaistAbort vc reason => isVc vc && fits 8 reason
  | .badCtrl payload => fits 64 payload
  | .fcBlock => true
  | .ingestCtlEn _ _ => true
  | .ingestStopTimeout => true
  | .ingestClr _ => true
  | .takeClose take => fits 32 take
  | .takeStopTimeout take => fits 32 take
  | .frmInPulse => true
  | .frameDurable _ => true
  | .captureUnitFlush => true
  | .frameClr _ => true
  | .programRetire _ _ => true
  | .flashReadComplete _ => true
  | .eraseComplete _ _ => true
  | .flashOpTimeout _ => true
  | .channelDiscoveryDone r => ChanFound.wf r
  | .zqCalibration chan => isChan chan
  | .fchCtlFail _ chan => isChan chan
  | .fchClr _ chan => isChan chan
  | .journalPageRetire => true
  | .mapCkptGo _ => true
  | .checkpointComplete => true
  | .padTimeout group => isGroup group
  | .partialLeafMerge _ => true
  | .segmentLoaded _ => true
  | .mapClr _ => true
  | .waysChanged => true
  | .mcacheClr _ => true
  | .dramRefreshWindow chan => isDramChan chan
  | .mr4Poll rates => each (fits 3) rates
  | .periodicTraining chan _ => isDramChan chan
  | .dramInitSweep => true
  | .dramWrite client addr data _ => isClient client && fits 40 addr && each (fits 8) data
  | .dramRead client addr n _ => isClient client && fits 40 addr && isLength n
  | .dramWriteIssued _ => true
  | .dramPatrol _ => true
  | .dramcClr _ => true
  | .codewordDecoded _ _ => true
  | .trackerRefresh rs => each TrackRes.wf rs
  | .scrubRead => true
  | .sramPatrol ce clean _ => fits 8 ce && fits 8 clean
  | .eccClr _ => true
  | .scrubClr _ => true
  | .groomVictimSelect => true
  | .bandOpen group => isGroup group
  | .groomIdleClose group => isGroup group
  | .groomClr _ => true
  | .pairLinkFrame v seq _ _ => isPairVc v && fits 16 seq
  | .linkack v seq _ => isPairVc v && fits 16 seq
  | .pairResendTimeout v => isPairVc v
  | .credit v limit => isPairVc v && fits 24 limit
  | .train reason => fits 8 reason
  | .beat b => BeatMsg.wf b
  | .mirrorStallTimeout => true
  | .prDetNHigh => true
  | .slot m => SlotMsg.wf m
  | .held _ _ => true
  | .record _ _ => true
  | .recAck _ => true
  | .ident i lanes => Ident.wf i && each AlignBlk.wf lanes
  | .result _ => true
  | .shape _ _ => true
  | .mailbox kind dir _ words => fits 4 kind && isDir dir && each (fits 64) words
  | .relay _ cmd _ => fits 8 cmd
  | .relayDone _ sct sc => fits 3 sct && fits 8 sc
  | .peerSeal => true
  | .leave _ => true
  | .snapreq => true
  | .convergenceCopy => true
  | .pairCtlEn _ _ => true
  | .pairClr _ => true
  | .netCtlEn _ port _ => isPort port
  | .linkUp port => isPort port
  | .linkDown port => isPort port
  | .dhcpBound port addr => isPort port && fits 32 addr
  | .pauseFrame port _ => isPort port
  | .tcpConnectionRequest port _ _ dport => isPort port && fits 16 dport
  | .icreq _ _ _ => true
  | .connect id qid _ cntlid _ _ => Cid.wf id && fits 16 qid && fits 16 cntlid
  | .propertyGet id ofst _ => Cid.wf id && fits 32 ofst
  | .propertySet id ofst _ value => Cid.wf id && fits 32 ofst && fits 64 value
  | .h2cData id _ _ _ _ => Cid.wf id
  | .offloadCloseTimeout => true
  | .netClr _ port => isPort port
  | .nvtcpCtlEn _ _ => true
  | .nvtcpClr _ => true
  | .mbxRing _ d b => isDir d && fits 32 b
  | .mbxDbClear _ d b => isDir d && fits 32 b
  | .mbxBlockGo _ d => isDir d
  | .mbxBlockDone _ d => isDir d
  | .mbxBlockRelease _ d => isDir d
  | .mbxQPush _ d w => isDir d && fits 64 w
  | .mbxQPop _ d n => isDir d && fits 7 n
  | .mbxacc _ index data => fits 12 index && fits 64 data
  | .ping via => isVia via
  | .regRead via => isVia via
  | .regWrite via => isVia via
  | .mbxModeReq via => isVia via
  | .info via => isVia via
  | .forward via => isVia via
  | .logRead via => isVia via
  | .messageBodyTimeout => true
  | .forwardTimeout _ => true
  | .sdmaGo _ n => isSdma n
  | .sdmaKick _ n => isSdma n
  | .sdmaRingReset _ n => isSdma n
  | .sdmaDescFetch n _ bytes => isSdma n && each (fits 8) bytes
  | .sdmaTransferEnd n err _ pcie => isSdma n && fits 3 err && each (fits 8) pcie
  | .sdmaPause _ n _ => isSdma n
  | .sdmaPaused n _ pcie => isSdma n && each (fits 8) pcie
  | .sdmaCtlEn _ n _ => isSdma n
  | .sdmaStopComplete n => isSdma n
  | .sdmaClr _ => true
  | .crcuClear _ unit => isUnit unit
  | .feed _ unit val => isUnit unit && fits 64 val
  | .feedPart _ unit val => isUnit unit && fits 64 val
  | .crcuAccWrite _ unit val => isUnit unit && fits 64 val
  | .crcuCfgWrite _ unit val => isUnit unit && fits 64 val
  | .tamperN _ => true
  | .carryExpired => true
  | .keyZeroise => true
  | .newChal _ => true
  | .dbgSubmit _ => true
  | .dbgDrop _ => true
  | .debugLifetimeExpired => true
  | .challengeExpired => true
  | .secClr _ => true
  | .unlockA _ key => fits 16 key
  | .unlockB _ key => fits 16 key
  | .codeUnlockTimeout _ => true
  | .nop _ => true
  | .readLine _ => true
  | .programLine _ => true
  | .eraseSector _ => true
  | .blankCheck _ => true
  | .crcSector _ => true
  | .cmdDone _ => true
  | .updateCopySector _ => true
  | .updateSwitch => true
  | .bistGo _ => true
  | .bistAbort _ => true
  | .bistSegmentDone array rows => isArray array && each (fits 16) rows
  | .bistFuse _ array => isArray array
  | .fuseDone => true
  | .bistClr _ => true
  | .fiCfgWrite _ inj val => isInj inj && fits 64 val
  | .fiCtlEn _ _ => true
  | .calendarSecondEdge straps unstable => fits 16 straps && fits 16 unstable
  | .calendarTrim sub => fits 15 sub
  | .calendarRefresh sub => fits 15 sub
  | .calSet _ val => fits 64 val
  | .alarmWrite _ val => fits 64 val
  | .vbakMeasure mv => fits 16 mv
  | .keepSupplyLoss => true
  | .keepSupplyReturn => true
  | .rtcLoss => true
  | .rtcRestored => true
  | .timebaseMarker => true
  | .ltcFrame _ addr rate user boundary period => fits 32 addr && fits 3 rate && fits 32 user && fits 64 boundary && fits 32 period
  | .ltcLossTimeout => true
  | .generatorBoundary => true
  | .genPreset _ addr => fits 32 addr
  | .timeClr _ => true
  | .uartCharacter port data _ _ => isPort port && fits 8 data
  | .breakCondition port => isPort port
  | .txPush _ port data => isPort port && fits 8 data
  | .uartTxCharacterSent port => isPort port
  | .rxPop _ port n => isPort port && fits 7 n
  | .sendBreak _ port _ => isPort port
  | .uartCfgWrite _ port val => isPort port && fits 64 val
  | .uartCtlEn _ port _ => isPort port
  | .aserClr _ port => isPort port
  | .prDetNLow => true
  | .railValid rail => isRail rail
  | .configSpaceWrite _ _ _ _ => true
  | .pcieLinkDown => true
  | .interruptCoalescingTimeout q => fits 16 q
  | .pageIdleTimeout chan bank => isDramChan chan && fits 7 bank
  | .pairStallWarning => true
  | .tcpConnectionClose _ => true
  | .addressResolutionRequest port _ _ => isPort port
  | .icmpEchoRequest port _ _ data => isPort port && each (fits 8) data
  | .pauseTimeExpired port => isPort port
  | .credentialRejectionDelay id => Cid.wf id
  | .trstNAssert => true

end Sys2Proof
end

