-- ==== Sys2Proof/Tests/Slice0.lean ====
section
/-!
SUPPORT. The model's own tests: ill-formed terms that `WellFormed` refuses, small theorems on single commands, whose expected
results come from the spec, and, for every statement with hypotheses, a state and operands that meet those of each of its clauses.
-/

open Sys2Proof
open Sys2Proof.Machine

namespace Sys2Proof.Tests

set_option Elab.async false

/-! ### Small states -/

/-- A state with some fields at given values. -/
def st (s : State) (l : List (Field × Nat)) : State := l.foldl (fun s x => s.set x.1 x.2) s
/-- The state in a mode. -/
def md (m : Nat) (s : State) : State := s.set F.SYS_MODE_CUR m
/-- The device in Idle: every island ON, every rail valid, every function ready, the references present, security OPEN. -/
def idle : State := st State.reset [(F.SYS_MODE_CUR, 3), (F.SYS_FUNC_READY_READY, 2 ^ 48 - 1), (F.PWR_ISL_STATE_STATE, 0xAAAAAAAAAAAA),
  (F.PWR_ISL_EN_EN, 2 ^ 24 - 1), (F.PWR_RAIL_STATUS_VALID, 0xFFFF), (F.PWR_RAIL_STATUS_IO_LEVEL, 1), (F.SEC_STATUS_STATE, 1),
  (F.CLK_REF_STATUS_XTAL_OK, 1), (F.CLK_REF_STATUS_PE_REFCLK_OK, 1), (F.CLK_REF_STATUS_SD_REFCLK_OK, 1), (F.CLK_PLL_LOCK_LOCK, 0x3FF)]
/-- Every function is ready but one. -/
def without (fn : Nat) (s : State) : State := s.set F.SYS_FUNC_READY_READY (2 ^ 48 - 1 - 2 ^ fn)
/-- No function is ready. -/
def unready (s : State) : State := s.set F.SYS_FUNC_READY_READY 0
/-- Every island in one state. -/
def islands (x : Nat) (s : State) : State := s.set F.PWR_ISL_STATE_STATE (x * 0x555555555555)
/-- A field of every channel from 0 to 3. -/
def onChans (f : Nat → Field) (v : Nat) (s : State) : State := st s ((List.range 4).map (fun c => (f c, v)))
/-- Channels 0 to 3 are READY. -/
def chans (s : State) : State := onChans F.FCH_STATUS_STATE 2 s
/-- A host's slot in a list. -/
def aSlot (n : Nat) (l : SlotList) : Slot := ⟨n, l, .host, .none, 5, 0, 1, 0x100000000 + n, 0xFF, [1, 2, 3, 4, 5, 6, 7, 8], 0, false⟩
/-- Slots in every list of the buffer. -/
def buffered (s : State) : State := { s with slots := [aSlot 1 .durable, aSlot 2 .filling, aSlot 3 .programming, aSlot 4 .durable, aSlot 5 .durable, aSlot 6 .mirror] }
/-- A command of a queue of the camera's. -/
def cid (q c : Nat) : Cid := ⟨.host q, c⟩
/-- The pins of a state, changed. -/
def pinned (s : State) (f : Pins → Pins) : State := { s with pins := f s.pins }
/-- The translation state, changed. -/
def onMap (s : State) (f : MapSt → MapSt) : State := { s with map := f s.map }
/-- The host's controller, changed. -/
def onHost (s : State) (f : HostSt → HostSt) : State := { s with host := f s.host }
/-- What the flash keeps, changed. -/
def onNv (s : State) (f : Nv → Nv) : State := { s with nv := f s.nv }
/-- What KEEP holds, changed. -/
def onKeep (s : State) (f : Keep → Keep) : State := { s with keep := f s.keep }
/-- The ledger, changed. -/
def onLed (s : State) (f : Ledger → Ledger) : State := { s with led := f s.led }
/-- The pair, changed. -/
def onPair (s : State) (f : PairSt → PairSt) : State := { s with pair := f s.pair }
/-- A command, run. -/
def run (c : Instr) (s : State) : State := match exec c s with | .next t => t | _ => s


/-! ### Witnesses: the register fabric -/

/-- A held half of a write. -/
def half : State := idle.setHeldW .camera (some ⟨0x3028, 5⟩)
/-- A captured register. -/
def captured : State := idle.setHeldR .camera (some ⟨0x1000, 0x500000007⟩)
/-- SNAP_IN is enabled. -/
def snapIn : State := { st idle [(F.SNAP_CFG_SNAP_IN_EN, 1)] with tb := 100 }
/-- A snapshot is held. -/
def snapHeld : State := st idle [(F.SNAP_STATE_HELD, 1)]
/-- Pending values of HOSTQ. -/
def dirty : State := idle.regWrite .firmware 0x10 0x100 3 (2 ^ 64 - 1)
/-- The same, committed. -/
def adopting : State := run (.shadowCommit .camera 0x10 1) dirty
/-- A page of an island that is OFF is MIXED. -/
def adoptingOff : State := islands 0 { adopting with adopt := ((F.BUDGET_CEIL_M_CEIL 3).key, 1) :: adopting.adopt }
/-- Seal. -/
def inSeal : State := md 8 idle
/-- Keep. -/
def inKeep : State := md 0 idle
/-- Service. -/
def inService : State := md 10 idle
/-- Quarantine. -/
def inQuarantine : State := md 11 idle
/-- Every island is OFF. -/
def off : State := islands 0 idle

/-- States and operands for each clause of HalfWritesMakeOneWrite. -/
theorem wit_HalfWritesMakeOneWrite :
  (idle.mode ≠ Md.KEEP ∧ Option.all (fun h => decide (h.addr = regOf 12328)) (idle.heldW .camera) = true) ∧
  (half.mode ≠ Md.KEEP ∧ half.heldW Req.camera = some { addr := regOf 12328, val := 5 % 2 ^ 32 }) := by
  refine ⟨?_, ?_⟩ <;> decide +kernel

/-- States and operands for each clause of HalfReadsUseOneCapture. -/
theorem wit_HalfReadsUseOneCapture :
  (idle.mode ≠ Md.KEEP) ∧
  (captured.mode ≠ Md.KEEP ∧ captured.heldR Req.camera = some { addr := 4096, val := 21474836487 }) := by
  refine ⟨?_, ?_⟩ <;> decide +kernel

/-- States and operands for each clause of RegisterWritesByAccess. -/
theorem wit_RegisterWritesByAccess :
  (idle.mode ≠ Md.KEEP ∧ Pg.FI < 96 ∧ (idle.dropHeld .camera).mayWrite .camera Pg.FI 40 = false) ∧
  (idle.mode ≠ Md.KEEP ∧ (idle.dropHeld .camera).blocked .camera 95 40 = none) := by
  refine ⟨?_, ?_⟩ <;> decide +kernel

/-- States and operands for each clause of ShadowCommits. -/
theorem wit_ShadowCommits :
  (hasShadow 3 = true ∧ (idle.dropHeld .firmware).blocked .firmware 3 64 = none ∧
   (idle.dropHeld .firmware).commitReason .firmware 3 0 ≠ 0) ∧
  (hasShadow 16 = true ∧ (dirty.dropHeld .firmware).blocked .firmware 16 64 = none ∧
   (dirty.dropHeld .firmware).commitReason .firmware 16 1 = 0 ∧ mgmtClass 16 = false ∧ (dirty.dropHeld .firmware).isl (pageIsland 16) = 2 ∧
   (dirty.dropHeld .firmware).dirty 16 = true ∧ (dirty.dropHeld .firmware).pend.wf = true) ∧
  (hasShadow 3 = true ∧ (idle.dropHeld .firmware).blocked .firmware 3 64 = none ∧ (idle.dropHeld .firmware).rwMode 3 = true) ∧
  ((dirty.dropHeld .firmware).blocked .firmware Pg.SYS 320 = none ∧
   (∃ p, p ∈ List.filter (dirty.dropHeld .firmware).dirty (List.range 96) ∧ (dirty.dropHeld .firmware).commitReason .firmware p 0 ≠ 0)) ∧
  ((idle.dropHeld .firmware).blocked .firmware Pg.SYS 320 = none ∧ List.filter (idle.dropHeld .firmware).dirty (List.range 96) = []) ∧
  (adopting.mixed 16 = true ∧ 16 ≠ Pg.DRAMC ∧ ¬(adopting.mode = Md.SEAL ∧ 16 = Pg.BUDGET)) ∧
  (adoptingOff.mixed 16 = true ∧ 16 ≠ Pg.DRAMC ∧ ¬(adoptingOff.mode = Md.SEAL ∧ 16 = Pg.BUDGET) ∧ adoptingOff.isl (pageIsland 16) ≠ 2 ∧
   (201367040, 1) ∈ (adoptingOff.adoptFull 16).adopt) := by
  refine ⟨?_, ?_, ?_, ?_, ?_, ?_, ?_⟩ <;> decide +kernel

/-- States and operands for each clause of SnapshotTriggers. -/
theorem wit_SnapshotTriggers :
  ((snapHeld.dropHeld .firmware).blocked .firmware Pg.SNAP 256 = none ∧ (snapHeld.dropHeld .firmware).rwMode Pg.SNAP = true) ∧
  (snapIn.mode ≠ Md.KEEP ∧ snapIn.get F.SNAP_CFG_SNAP_IN_EN = 1 ∧ (b2n !true) = snapIn.get F.SNAP_CFG_SNAP_IN_EDGE) ∧
  ((snapHeld.dropHeld .firmware).blocked .firmware Pg.SNAP 272 = none ∧ (snapHeld.dropHeld .firmware).rwMode Pg.SNAP = true) ∧
  (snapHeld.get F.SNAP_STATE_HELD = 1) ∧
  (snapIn.get F.SNAP_STATE_HELD = 0 ∧ (snapIn.get F.SNAP_LAST_EPOCH_EPOCH = 0 ∨ snapIn.get F.SNAP_LAST_TIME_TIME + 16 < snapIn.tb) ∧
   snapIn.tb < 2 ^ 64) := by
  refine ⟨?_, ?_, ?_, ?_, ?_⟩ <;> decide +kernel

/-- The register of each command that clears counts: a write that reaches it, one that does not, and one that Seal ignores. -/
theorem wit_ClearCommandsClearTheirCounts : ∀ x ∈ [(Pg.SNAP, 0x110), (Pg.CLK, 0x120), (Pg.LEDGER, 0x190), (Pg.BUDGET, 0x168), (Pg.HOSTQ, 0x168),
    (Pg.PCIE, 0x128), (Pg.INGEST, 0x180), (Pg.FRAME, 0x188), (0x20 + 63, 0x190), (Pg.MAP, 0x168), (Pg.MCACHE, 0x130), (Pg.DRAMC, 0x178),
    (Pg.ECC, 0x228), (Pg.SCRUB, 0x138), (Pg.GROOM, 0x160), (Pg.PAIR, 0x160), (Pg.NET0 + 1, 0x168), (Pg.NVTCP, 0x148), (Pg.SDMA, 0x110),
    (Pg.SEC, 0x148), (Pg.BIST, 0x140), (Pg.TIME, 0x1A8), (Pg.ASER, aserBase 1 + 0x40)],
    ((idle.dropHeld .firmware).blocked .firmware x.1 x.2 = none ∧ (idle.dropHeld .firmware).rwMode x.1 = true) ∧
    ((off.dropHeld .firmware).blocked .firmware x.1 x.2).isSome = true ∧
    ((inSeal.dropHeld .firmware).blocked .firmware x.1 x.2 = none ∧ (inSeal.dropHeld .firmware).rwMode x.1 = false) := by
  decide +kernel


/-! ### Witnesses: supplies, references, islands, resets and modes -/

/-- No bank is decided, and no rail valid. -/
def undecided : State := st idle [(F.PWR_RAIL_STATUS_VALID, 0), (F.PWR_RAIL_STATUS_IO_LEVEL, 0)]
/-- VIN_SENSE falls. -/
def vinFalls : State := pinned (st idle [(F.PWR_VIN_CFG_EN, 1), (F.PWR_VIN_CFG_TH_MV, 900)]) (fun p => { p with vinMv := 899 })
/-- VIN_SENSE stands 20 mV above its threshold. -/
def vinBack : State := pinned (st idle [(F.PWR_VIN_CFG_EN, 1), (F.PWR_VIN_CFG_TH_MV, 900)]) (fun p => { p with vinMv := 920 })
/-- A sequence of Seal at a step. -/
def seq (step : Nat) (reset : Bool) (s : State) : State := onLed s (fun l => { l with sealing := some ⟨reset, false, 0x0F, 5, step, 3,
  [aSlot 1 .durable, aSlot 4 .durable, aSlot 5 .durable], 0, [0, 0, 0, 0, 0, 0, 0, 0], [], false, 0, 0, 0⟩ })
/-- Step 1 of Seal. -/
def seal1 : State := seq 1 false inSeal
/-- Step 3 of Seal. -/
def seal3 : State := seq 3 false (chans inSeal)
/-- Step 6 of a flush that a reset began. -/
def seal6 : State := seq 6 true (buffered inSeal)
/-- Step 7 of Seal. -/
def seal7 : State := seq 7 false inSeal
/-- No reference and no PLL. -/
def norefs : State := st idle [(F.CLK_REF_STATUS_XTAL_OK, 0), (F.CLK_REF_STATUS_PE_REFCLK_OK, 0), (F.CLK_REF_STATUS_SD_REFCLK_OK, 0), (F.CLK_PLL_LOCK_LOCK, 0)]
/-- The references without the PLLs. -/
def unlocked : State := idle.set F.CLK_PLL_LOCK_LOCK 0
/-- Every island stops. -/
def stopping : State := islands 3 idle
/-- Every island starts. -/
def starting : State := islands 1 idle
/-- Rest, with PERST_N low. -/
def restPerst : State := pinned (md 1 idle) (fun p => { p with perstN := true })
/-- The flush of a reset runs. -/
def flushing : State := { buffered idle with mc := { idle.mc with flushing := 2 } }
/-- The flush of a reset has ended. -/
def flushed : State := { flushing with mc := { flushing.mc with flushDone := true } }
/-- Step 7 of the flush of a reset. -/
def flush7 : State := seq 7 true flushing
/-- Keep after a Seal and a controlled entry. -/
def kept : State := onKeep inKeep (fun k => { k with sealTrip := true, controlled := true, sealFlag := 2 })
/-- The same with RESET_N low. -/
def keptReset : State := pinned kept (fun p => { p with resetN := false })
/-- A transition. -/
def trans (m : Nat) (s : State) : State := { s with mc := { s.mc with trans := some ⟨m, 0x05⟩ } }
/-- A drain. -/
def drain (m : Nat) (d : Bool) (s : State) : State := { s with mc := { s.mc with drain := some ⟨m, 0x06, d⟩ } }
/-- Offload. -/
def inOffload : State := md 6 idle
/-- Wake. -/
def inWake : State := md 2 idle
/-- Wake with no function ready. -/
def wakeUnready : State := unready inWake
/-- Slots in every list. -/
def full : State := buffered idle
/-- Rest. -/
def inRest : State := md 1 idle
/-- A drain for Rest, that goes on. -/
def draining : State := drain 1 false idle
/-- The same with slots in the buffer. -/
def drainingFull : State := drain 1 false full
/-- A drain for Rest, that is complete. -/
def drainedRest : State := drain 1 true idle
/-- A transition to Review. -/
def toReview : State := trans 5 idle
/-- A transition to Keep. -/
def toKeep : State := trans 0 full

/-- States and operands for each clause of SupplyAndRails. -/
theorem wit_SupplyAndRails :
  (undecided.mode ≠ Md.KEEP ∧ undecided.get (bankField 0) = 0) ∧
  (undecided.mode ≠ Md.KEEP ∧ undecided.get (bankField 4) = 0) ∧
  (inKeep.get (bankField 0) ≠ 0) ∧
  (inKeep.railValid 14 = true ∧ inKeep.mode = Md.KEEP) ∧
  (idle.railValid 14 = true ∧ idle.mode ≠ Md.KEEP) ∧
  (vinFalls.pins.vinMv < vinFalls.get F.PWR_VIN_CFG_TH_MV ∧ vinFalls.get F.PWR_VIN_CFG_EN = 1) ∧
  (undecided.get F.PWR_VIN_CFG_TH_MV + 20 ≤ undecided.pins.vinMv) ∧
  (undecided.pins.pwrFail = false) := by
  refine ⟨?_, ?_, ?_, ?_, ?_, ?_, ?_, ?_⟩ <;> decide +kernel

/-- States and operands for each clause of SealSequence. -/
theorem wit_SealSequence :
  (full.mode ≠ Md.KEEP ∧ full.mode ≠ Md.REST ∧ full.mode ≠ Md.SEAL ∧ full.led.sealing = none ∧ full.fi.block = none) ∧
  (∃ z ∈ seal1.led.sealing, z.step = 1 ∧ z.todo ≠ []) ∧
  (∃ z ∈ seal3.led.sealing, z.step = 3 ∧ seal3.sealChan z 3 = true) ∧
  (∃ z ∈ seal6.led.sealing, z.step = 6 ∧ z.reset = true) ∧
  (∃ z ∈ seal7.led.sealing, z.step = 7 ∧ z.reset = false) := by
  refine ⟨?_, ?_, ?_, ?_, ?_⟩ <;> decide +kernel

/-- States and operands for each clause of ReferencesAndPlls. -/
theorem wit_ReferencesAndPlls :
  (idle.mode ≠ Md.KEEP ∧ idle.get F.CLK_REF_STATUS_XTAL_OK = 1) ∧
  (idle.mode ≠ Md.KEEP ∧ idle.get F.CLK_REF_STATUS_PE_REFCLK_OK = 1) ∧
  (idle.mode ≠ Md.KEEP ∧ idle.get F.CLK_REF_STATUS_SD_REFCLK_OK = 1) ∧
  (norefs.mode ≠ Md.KEEP ∧ norefs.get (refField 2) ≠ 1 ∧ ¬(2 = 1 ∧ norefs.mc.l1ssRef = true)) ∧
  (idle.mode ≠ Md.KEEP ∧ idle.pllRef 9 = true ∧ idle.pllNeeded 9 = true) ∧
  (idle.mode ≠ Md.KEEP ∧ idle.pllRef 6 = true ∧ idle.pllNeeded 6 = true ∧ 6 - 1 < idle.mc.ssc.length) ∧
  (idle.mode ≠ Md.KEEP ∧ idle.getBit F.CLK_PLL_LOCK_LOCK 9 = true) := by
  refine ⟨?_, ?_, ?_, ?_, ?_, ?_, ?_⟩ <;> decide +kernel

/-- States and operands for each clause of IslandsStartStopAndReset. -/
theorem wit_IslandsStartStopAndReset :
  ((inSeal.dropHeld .firmware).blocked .firmware Pg.PWR 280 = none ∧ islWritable 23 = true ∧ (inSeal.dropHeld .firmware).mode = Md.SEAL) ∧
  ((restPerst.dropHeld .firmware).blocked .firmware Pg.PWR 280 = none ∧ islWritable 23 = true ∧
   (restPerst.dropHeld .firmware).mode ≠ Md.SEAL ∧ (restPerst.dropHeld .firmware).islHeld 23 = true) ∧
  ((idle.dropHeld .firmware).blocked .firmware Pg.PWR 280 = none ∧ islWritable 23 = true ∧ (idle.dropHeld .firmware).mode ≠ Md.SEAL ∧
   (idle.dropHeld .firmware).islHeld 23 = false) ∧
  (stopping.isl 23 = 3) ∧
  (starting.isl 2 = 1 ∧ starting.heldInReset 2 = false ∧ starting.powerable 2 = true ∧ bit starting.mc.islLatch 2 = false) ∧
  ((idle.dropHeld .firmware).blocked .firmware Pg.SYS 296 = none ∧ 0 ≠ resetKey) ∧
  ((idle.dropHeld .firmware).blocked .firmware Pg.SYS 296 = none ∧ (idle.dropHeld .firmware).mayResetIsland 23 = true ∧
   ((idle.dropHeld .firmware).isl 23 = 1 ∨ (idle.dropHeld .firmware).isl 23 = 2)) ∧
  ((stopping.dropHeld .firmware).blocked .firmware Pg.SYS 296 = none ∧ (stopping.dropHeld .firmware).mayResetIsland 23 = true ∧
   ((stopping.dropHeld .firmware).isl 23 = 0 ∨ (stopping.dropHeld .firmware).isl 23 = 3)) ∧
  ((idle.dropHeld .firmware).blocked .firmware Pg.SYS 296 = none ∧ (idle.dropHeld .firmware).mayResetIsland 6 = false) ∧
  ((idle.dropHeld .firmware).blocked .firmware Pg.SYS 296 = none ∧ idle.mode ≠ Md.KEEP ∧ idle.mode ≠ Md.REST ∧ idle.mode ≠ Md.SEAL ∧
   (idle.isl 2 = 1 ∨ idle.isl 2 = 2)) ∧
  ((restPerst.dropHeld .firmware).blocked .firmware Pg.SYS 296 = none ∧ restPerst.mode = Md.REST ∧ restPerst.pins.perstN = true ∧
   restPerst.mc.trans = none ∧ restPerst.mc.drain = none) := by
  refine ⟨?_, ?_, ?_, ?_, ?_, ?_, ?_, ?_, ?_, ?_, ?_⟩ <;> decide +kernel

/-- States and operands for each clause of ResetsAndRestarts. -/
theorem wit_ResetsAndRestarts :
  (idle.mode ≠ Md.KEEP ∧ idle.mode ≠ Md.SEAL ∧ idle.mode ≠ Md.REST ∧ idle.mc.flushing = 0 ∧ idle.mc.flushDone = false ∧
   idle.led.sealing = none) ∧
  (flushing.mode ≠ Md.KEEP ∧ flushing.mode ≠ Md.SEAL ∧ flushing.mode ≠ Md.REST ∧ flushing.mc.flushing ≠ 0) ∧
  (idle.mode ≠ Md.KEEP ∧ idle.mode ≠ Md.SEAL ∧ idle.mode ≠ Md.REST ∧ idle.pins.resetN = true) ∧
  (idle.mode ≠ Md.KEEP ∧ idle.mode ≠ Md.SEAL ∧ idle.mode ≠ Md.REST ∧ idle.ready Fn.WATCHDOG = true ∧ idle.mc.flushing = 0) ∧
  (idle.mode ≠ Md.KEEP ∧ idle.mode ≠ Md.SEAL ∧ idle.mode ≠ Md.REST ∧ (idle.dropHeld .firmware).blocked .firmware Pg.SYS 296 = none ∧
   (idle.dropHeld .firmware).mode ≠ Md.SEAL) ∧
  (flushed.mc.flushing ≠ 0 ∧ flushed.pins.resetN = true ∧ flushed.codeBusy = false ∧ flushed.mc.flushDone = true ∧ flushed.dbgLevel = 0) ∧
  (flush7.mc.flushing ≠ 0 ∧ flush7.pins.resetN = true ∧ flush7.codeBusy = false ∧ (∃ z ∈ flush7.led.sealing, z.reset = true ∧ z.step = 7) ∧
   flush7.dbgLevel = 0) ∧
  (kept.mode = Md.KEEP ∧ kept.porHolds = true ∧ kept.keep.sealTrip = true) ∧
  (kept.mode = Md.KEEP ∧ kept.porHolds = true ∧ kept.keep.controlled = true) ∧
  (keptReset.mode = Md.KEEP ∧ keptReset.pins.resetN = false ∧ keptReset.keep.controlled = true ∧
   { keptReset with pins := { perstN := keptReset.pins.perstN, pwrFail := keptReset.pins.pwrFail, vinLow := keptReset.pins.vinLow, vinMv := keptReset.pins.vinMv, wakeN := keptReset.pins.wakeN, tamperN := keptReset.pins.tamperN, peerFitted := keptReset.pins.peerFitted, mbxacc := keptReset.pins.mbxacc } }.porHolds = true) := by
  refine ⟨?_, ?_, ?_, ?_, ?_, ?_, ?_, ?_, ?_, ?_⟩ <;> decide +kernel

/-- States and operands for each clause of ModesChange. -/
theorem wit_ModesChange :
  ((inSeal.dropHeld .firmware).blocked .firmware Pg.SYS 264 = none ∧
   ((inSeal.dropHeld .firmware).mode = Md.SEAL ∨ (inSeal.dropHeld .firmware).mode = Md.UPDATE)) ∧
  ((idle.dropHeld .firmware).blocked .firmware Pg.SYS 264 = none ∧ (idle.dropHeld .firmware).mode = Md.IDLE ∧
   ((idle.dropHeld .firmware).set F.SYS_MODE_REQ_TARGET 5).inTransition = false ∧ (idle.dropHeld .firmware).leads = false ∧
   (5 = Md.REVIEW ∨ 5 = Md.GROOM ∨ 5 = Md.OFFLOAD)) ∧
  ((toReview.dropHeld .firmware).blocked .firmware Pg.SYS 264 = none ∧ (toReview.dropHeld .firmware).mode = Md.IDLE ∧
   ((toReview.dropHeld .firmware).set F.SYS_MODE_REQ_TARGET 5).inTransition = true ∧ (toReview.dropHeld .firmware).mc.heldReg = none) ∧
  ((idle.dropHeld .firmware).blocked .firmware Pg.SYS 264 = none ∧ (idle.dropHeld .firmware).mode = Md.IDLE ∧
   ((idle.dropHeld .firmware).set F.SYS_MODE_REQ_TARGET 12).inTransition = false ∧ requestable (12 % 16) = false) ∧
  (toKeep.mc.trans = some { target := 0, cause := 5 } ∧ 0 = Md.KEEP) ∧
  (toReview.mc.trans = some { target := 5, cause := 5 } ∧ 5 ≠ Md.KEEP) ∧
  (toReview.mc.trans = some { target := 5, cause := 5 } ∧ toReview.tb < 2 ^ 64) := by
  refine ⟨?_, ?_, ?_, ?_, ?_, ?_, ?_⟩ <;> decide +kernel

/-- States and operands for each clause of DrainsAndFunctions. -/
theorem wit_DrainsAndFunctions :
  (draining.drained = true ∧ (∃ d ∈ draining.mc.drain, d.done = false)) ∧
  (drainingFull.drained = false ∧ (∃ d ∈ drainingFull.mc.drain, d.done = false)) ∧
  (∃ d ∈ drainedRest.mc.drain, d.target = Md.REST ∧ d.done = true) ∧
  (inOffload.mode = Md.OFFLOAD ∧ inOffload.net.conns = [] ∧ inOffload.inTransition = false) ∧
  (wakeUnready.mode = Md.WAKE ∧ wakeUnready.get F.SYS_STRAPS_ISLAND_TEST = 0 ∧ wakeUnready.exitSet.all wakeUnready.ready = false) ∧
  (inWake.mode = Md.WAKE ∧ inWake.exitSet.all inWake.ready = true) ∧
  (wakeUnready.mode ≠ Md.KEEP ∧ wakeUnready.mayStart 0 = true) ∧
  (wakeUnready.mode ≠ Md.KEEP ∧ wakeUnready.needsOk 47 = false) ∧
  (idle.mode ≠ Md.KEEP ∧ idle.ready 47 = true ∧ (idle.faultFn 47).ready 0 = true) := by
  refine ⟨?_, ?_, ?_, ?_, ?_, ?_, ?_, ?_, ?_⟩ <;> decide +kernel


/-! ### Witnesses: the buffer, the ledger and the budget -/

/-- HOLD_SENSE has been sampled. -/
def sampled : State := onLed (st idle [(F.LEDGER_BANK_V_FULL_MV, 5000)]) (fun l => { l with lastV := (st idle [(F.LEDGER_BANK_V_FULL_MV, 5000)]).railMv 4000, sampled := true })
/-- A request for one slot. -/
def ask (w : Who) (o : Owner) : SlotReq := ⟨w, 1, if w = .host then 1 else 0, false, none, [⟨0, .filling, .host, o, 5, 0, 1, 0x100000000, 0xFF, [0, 0, 0, 0, 0, 0, 0, 0], 0, false⟩]⟩
/-- A command's request waits. -/
def asking : State := onLed idle (fun l => { l with reqs := [ask .host (.cmd (cid 0 5)), ask .groom .none] })
/-- A calibration runs. -/
def calibrating : State := onLed idle (fun l => { l with calBusy := true })
/-- The link's request waits, and the bank holds enough. -/
def admits : State := onLed (st idle [(F.LEDGER_AVAILABLE_A, 2 ^ 40), (F.LEDGER_STATUS_CALIBRATED, 1)]) (fun l => { l with reqs := [ask .ingest (.frame 1)] })
/-- The same, with every slot taken. -/
def admitsNot : State := { admits with slots := List.replicate 16384 (aSlot 1 .durable) }
/-- Windows run, and no half is fitted. -/
def windows : State := st idle [(F.PWR_ISL_STATE_STATE, 0xAAAAAAAAA8AA)]
/-- THERMAL is not set. -/
def noThermal : State := without Fn.THERMAL idle
/-- A read for the host. -/
def aRead : FlashOp := ⟨7, 3, 1, .read, .queued, 10, 0, 1, 0, 5, 3, [], .host, .none, 0, 0, false⟩
/-- An operation, with credit for every class. -/
def queued (o : FlashOp) : State := { chans idle with bud := { idle.bud with ops := [o], q := 100000, b := [100000, 100000, 100000, 100000, 100000, 100000, 100000, 100000], c := [100000, 100000, 100000, 100000, 100000, 100000, 100000, 100000], ceil := [50, 50, 50, 50, 50, 50, 50, 50] } }
/-- It waits. -/
def readQueued : State := queued aRead
/-- It is picked. -/
def readPicked : State := queued { aRead with phase := .picked }

/-- States and operands for each clause of BufferCountsSumToTotal. -/
theorem wit_BufferCountsSumToTotal :
  (full.slots.length ≤ slotTotal ∧ full.isl 6 = 2) := by
  decide +kernel

/-- States and operands for each clause of EnergyLedger. -/
theorem wit_EnergyLedger :
  (idle.ready Fn.LEDGER_SENSE = true ∧ idle.railValid 1 = true) ∧
  (sampled.ready Fn.LEDGER_SENSE = true ∧ sampled.railValid 1 = true ∧ sampled.get F.LEDGER_STATUS_SENSE_FAULT = 0 ∧
   sampled.led.sampled = true ∧
   10 * (max (sampled.railMv 4094) sampled.led.lastV - min (sampled.railMv 4094) sampled.led.lastV) ≤ sampled.get F.LEDGER_BANK_V_FULL_MV) ∧
  (sampled.ready Fn.LEDGER_SENSE = true ∧ sampled.railValid 1 = true ∧ sampled.get F.LEDGER_STATUS_SENSE_FAULT = 0 ∧
   sampled.led.sampled = true ∧
   sampled.get F.LEDGER_BANK_V_FULL_MV < 10 * (max (sampled.railMv 0) sampled.led.lastV - min (sampled.railMv 0) sampled.led.lastV)) ∧
  ((List.find? (fun r => r.slots.any fun x => decide (x.owner = Owner.cmd (cid 0 5))) asking.led.reqs).isSome = true) ∧
  ((idle.dropHeld .firmware).blocked .firmware Pg.LEDGER 296 = none ∧ (idle.dropHeld .firmware).rwMode Pg.LEDGER = true ∧
   ((idle.dropHeld .firmware).mode = Md.IDLE ∨ (idle.dropHeld .firmware).mode = Md.SERVICE)) ∧
  (((md 4 idle).dropHeld .firmware).blocked .firmware Pg.LEDGER 296 = none ∧ ((md 4 idle).dropHeld .firmware).rwMode Pg.LEDGER = true ∧
   ((md 4 idle).dropHeld .firmware).mode ≠ Md.IDLE ∧ ((md 4 idle).dropHeld .firmware).mode ≠ Md.SERVICE) ∧
  (calibrating.led.calBusy = true ∧ false = false) ∧
  ((idle.dropHeld .firmware).blocked .firmware Pg.PBUF 336 = none ∧ (idle.dropHeld .firmware).rwMode Pg.PBUF = true) := by
  refine ⟨?_, ?_, ?_, ?_, ?_, ?_, ?_, ?_⟩ <;> decide +kernel

/-- A request that is admitted, one that is not, and a sequencer that looks at none. -/
theorem wit_Admission :
  (∃ r ∈ admits.nextReq, r.2.energyOk r.1 = true ∧ r.2.freeOk r.1 = true ∧ ∀ x ∈ r.1.slots, x.lst = .filling) ∧
  (∃ r ∈ admitsNot.nextReq, r.2.energyOk r.1 = false ∨ r.2.freeOk r.1 = false) ∧
  (inSeal.mode = Md.SEAL ∧ idle.led.reqs = []) ∧
  (admits.freeOk (ask .ingest .none) = true ∧ (ask .ingest .none).who ≠ .groom) := by
  decide +kernel

/-- States and operands for each clause of WindowsAndThermal. -/
theorem wit_WindowsAndThermal :
  (windows.mode ≠ Md.KEEP ∧ windows.ready Fn.BUDGET = true ∧ (windows.newWindow []).isl 4 ≠ 2) ∧
  (inKeep.mode = Md.KEEP) ∧
  (windows.nv.sanit ≠ 2 ∧ windows.classFloor 7 ≤ windows.getPart (F.BUDGET_CEIL_M_CEIL windows.mode) 7 8) ∧
  (noThermal.ready Fn.THERMAL = false) ∧
  (windows.ready Fn.THERMAL = true ∧ [-50, 119, 30, 40, 50, 60, 70, 80].length = 8 ∧
   (∀ (x : Int), x ∈ [-50, 119, 30, 40, 50, 60, 70, 80] → -50 ≤ x ∧ x < 120)) ∧
  ((windows.dropHeld .firmware).blocked .firmware Pg.BUDGET 256 = none ∧ (windows.dropHeld .firmware).rwMode Pg.BUDGET = true) := by
  refine ⟨?_, ?_, ?_, ?_, ?_, ?_⟩ <;> decide +kernel

/-- States and operands for each clause of PicksAndIssues. -/
theorem wit_PicksAndIssues :
  ((inSeal.mode = Md.SEAL ∨ inSeal.mode = Md.REST ∨ inSeal.mode = Md.KEEP ∨ inSeal.ready Fn.BUDGET = false ∨ inSeal.led.sealing.isSome =
   true)) ∧
  (readQueued.ready Fn.BUDGET = true ∧ readQueued.mode ≠ Md.SEAL ∧ readQueued.mode ≠ Md.REST ∧ readQueued.mode ≠ Md.KEEP ∧
   readQueued.led.sealing = none ∧ (∀ (x : FlashOp), x ∈ readQueued.bud.ops → x.phase = OpPhase.queued → readQueued.chanState x.chan = 2 ∧
   readQueued.getPart (F.FCH_LUN_STATE_STATE x.chan) x.lun 2 ≠ 2) ∧
   (readQueued.pickClass fun k => (readQueued.bestOp (fun o => [7].contains o.id && readQueued.creditFree o) k).isSome) = some 3 ∧
   (readQueued.bestOp (fun o => [7].contains o.id && readQueued.creditFree o) 3).isSome = true) ∧
  (readQueued.pickClass (fun k => decide (k = 3)) = some 3) ∧
  (∃ o ∈ (readQueued.op 7), (o.phase ≠ OpPhase.picked ∨ readQueued.lunAccepts o = false)) ∧
  (∃ o ∈ (readPicked.op 7), o.phase = OpPhase.picked ∧ readPicked.lunAccepts o = true ∧ o.kind ≠ OpKind.prog ∧
   readPicked.chanState o.chan = 2 ∧ readPicked.flashInjector o = none) := by
  refine ⟨?_, ?_, ?_, ?_, ?_⟩ <;> decide +kernel


/-! ### Witnesses: the camera's controller -/

/-- The controller runs with its queues. -/
def hosted : State := onHost idle (fun h => { h with en := true, busMaster := true, msixEn := true, sqs := [(0, ⟨8, 1, 3, 0⟩), (1, ⟨16, 2, 5, 1⟩)], cqs := [(0, ⟨8, 0, true, 0, 0, 0⟩), (1, ⟨16, 1, true, 0, 0, 3⟩), (256, ⟨16, 2, true, 0, 0, 0⟩)] })
/-- Two namespaces, one attached, and queue 1 bound. -/
def spaces : State := onNv (st hosted [(F.HOSTQ_QBIND_VALID 0, 1)]) (fun n => { n with tnvmcap := some (10 ^ 12), nses := [(1, ⟨100000, 0, 0, true⟩), (2, ⟨100000, 1, 0, false⟩)] })
/-- The link is down. -/
def linkDown : State := without Fn.PCIE_LINK idle
/-- Commands in the tracker. -/
def tracked : State := onHost hosted (fun h => { h with aborts := [⟨1, 77, cid 0 3⟩], cmds := [{ id := cid 1 9, op := .flush }], kato := 100 })
/-- Eight requests for events wait. -/
def eightAers : State := onHost hosted (fun h => { h with aers := List.range 8 })
/-- A Write Zeroes whose slot is there. -/
def zeroing : State := { onHost spaces (fun h => { h with cmds := [{ id := cid 1 5, op := .writeZeroes, nsid := 1, slba := 8, nlb := 8 }] }) with slots := [{ aSlot 9 .filling with owner := .cmd (cid 1 5) }] }
/-- A Write Zeroes that asks for its slots. -/
def zeroingWaits : State := onLed zeroing (fun l => { l with reqs := [ask .host (.cmd (cid 1 5))] })
/-- A take. -/
def aTake : Take := ⟨1, 0, 3, [0, 1, 2, 3], 0, 0, 5, 0, 0, 0, none, 0⟩
/-- A take in a state. -/
def withTake (t : Take) (s : State) : State := onMap s (fun m => { m with ts := { m.ts with takes := [(1, t)], lastTake := 1 } })
/-- A take is OPEN. -/
def taking : State := withTake aTake spaces
/-- The index is not there. -/
def noIndex : State := without Fn.FRAME_INDEX spaces
/-- Record. -/
def recording : State := md 4 spaces
/-- Service. -/
def servicing : State := md 10 spaces
/-- LOCKED. -/
def locked : State := spaces.set F.SEC_STATUS_STATE 2
/-- A self-test at a segment. -/
def testing (kind seg : Nat) (running yielded : Bool) (s : State) : State := { s with tst := ⟨kind, seg, running, yielded, false, none, 0⟩ }
/-- A short test. -/
def test3 : State := testing 1 3 true false spaces
/-- Its last segment. -/
def test6 : State := testing 1 6 true false spaces
/-- It has given way. -/
def testYields : State := testing 2 3 false true spaces
/-- A queue of the mailbox with 60 words. -/
def mailed : State := spaces.setQueue 0 (List.range 60)
/-- A snapshot is held. -/
def heldSnap : State := spaces.set F.SNAP_STATE_HELD 1
/-- Eight blocks of namespace 1. -/
def anIo : IoCmd := ⟨1, 8, 8, false, 0, 0, 0, 0, none, false⟩
/-- Blocks that namespace 1 has not. -/
def beyondIo : IoCmd := ⟨1, 99999, 2, false, 0, 0, 0, 0, none, false⟩

/-- States and operands for each clause of ControllerAndDoorbells. -/
theorem wit_ControllerAndDoorbells :
  (hosted.bar0 = true ∧ hosted.host.sqs.find? 2 = none) ∧
  (hosted.bar0 = true ∧ hosted.host.cqs.find? 2 = none) ∧
  (hosted.bar0 = true ∧ (∃ x ∈ (hosted.host.sqs.find? 0), x.size ≤ 15)) ∧
  (hosted.bar0 = true ∧ hosted.tst.running = false ∧ (∃ x ∈ (hosted.host.sqs.find? 0), 7 < x.size)) ∧
  (hosted.bar0 = true ∧ (∃ x ∈ (hosted.host.cqs.find? 0), x.size ≤ 15)) ∧
  (hosted.bar0 = true ∧ (∃ x ∈ (hosted.host.cqs.find? 0), 7 < x.size)) ∧
  (idle.bar0 = true ∧ idle.host.en = false) ∧
  (hosted.bar0 = true ∧ hosted.host.en = true ∧ hosted.host.shst = 0) := by
  refine ⟨?_, ?_, ?_, ?_, ?_, ?_, ?_, ?_⟩ <;> decide +kernel

/-- States and operands for each clause of QueuesAreCreatedAndDeleted. -/
theorem wit_QueuesAreCreatedAndDeleted :
  (hosted.mayFetch (Src.host 0) = true ∧ List.find? (fun a => decide (a.sq = 0) && decide (a.cid = 5)) hosted.host.aborts = none ∧
   (hosted.atFetch (cid 0 5)).host.cqs.find? 2 = none ∧ badQueueSize 4095 = false) ∧
  (hosted.mayFetch (Src.host 0) = true ∧ List.find? (fun a => decide (a.sq = 0) && decide (a.cid = 5)) hosted.host.aborts = none ∧
   (hosted.atFetch (cid 0 5)).host.sqs.find? 256 = none ∧ badQueueSize 4095 = false ∧
   ((hosted.atFetch (cid 0 5)).host.cqs.find? 256).isSome = true) ∧
  (hosted.mayFetch (Src.host 0) = true ∧ List.find? (fun a => decide (a.sq = 0) && decide (a.cid = 5)) hosted.host.aborts = none ∧
   ((hosted.atFetch (cid 0 5)).host.sqs.find? 1).isSome = true) := by
  refine ⟨?_, ?_, ?_⟩ <;> decide +kernel

/-- States and operands for each clause of PcieLink. -/
theorem wit_PcieLink :
  (linkDown.isl 2 = 2 ∧ linkDown.pins.perstN = false ∧ linkDown.get F.PWR_RAIL_STATUS_IO_LEVEL ≠ 3 ∧ linkDown.needsOk Fn.PCIE_LINK = true ∧
   linkDown.ready Fn.PCIE_LINK = false) ∧
  (hosted.isl 2 = 2 ∧ hosted.ready Fn.PCIE_LINK = true) ∧
  ((hosted.dropHeld .firmware).blocked .firmware Pg.PCIE 264 = none ∧ (hosted.dropHeld .firmware).rwMode Pg.PCIE = true ∧
   (hosted.dropHeld .firmware).ready Fn.PCIE_LINK = true) ∧
  (∃ x ∈ (hosted.host.cqs.find? 1), x.held ≠ 0) := by
  refine ⟨?_, ?_, ?_, ?_⟩ <;> decide +kernel

/-- States and operands for each clause of FeaturesAbortsAndEvents. -/
theorem wit_FeaturesAbortsAndEvents :
  (hosted.mayFetch (Src.host 0) = true ∧ List.find? (fun a => decide (a.sq = 0) && decide (a.cid = 3)) hosted.host.aborts = none ∧
   knownFid 2 = true ∧ badFeature 2 3 = false ∧ ((hosted.atFetch (cid 0 3)).mode ≠ Md.QUARANTINE ∨ quarFid 2 = true)) ∧
  (hosted.mayFetch (Src.host 0) = true ∧ List.find? (fun a => decide (a.sq = 0) && decide (a.cid = 3)) hosted.host.aborts = none ∧
   (hosted.atFetch (cid 0 3)).mode ≠ Md.QUARANTINE) ∧
  (tracked.mayFetch (Src.host 0) = true ∧ (tracked.popSq (Src.host 0)).host.aborts.length < 8 ∧
   (tracked.popSq (Src.host 0)).catchable (cid 1 9) = true) ∧
  (hosted.mayFetch (Src.host 0) = true ∧ (hosted.popSq (Src.host 0)).host.aborts.length < 8 ∧
   (hosted.popSq (Src.host 0)).outstanding (cid 1 9) = false) ∧
  (tracked.mayFetch (Src.host 0) = true ∧ (tracked.host.aborts.any fun a => decide (a.by' = (cid 0 3))) = true) ∧
  (hosted.mayFetch (Src.host 0) = true ∧ (hosted.popSq (Src.host 0)).host.aens = [] ∧ (hosted.popSq (Src.host 0)).host.aers.length < 8) ∧
  (eightAers.mayFetch (Src.host 0) = true ∧ (eightAers.popSq (Src.host 0)).host.aens = [] ∧
   8 ≤ (eightAers.popSq (Src.host 0)).host.aers.length) ∧
  (tracked.mayFetch (Src.host 0) = true ∧ tracked.isl 2 = 2 ∧ tracked.host.en = true ∧ tracked.host.kato ≠ 0) := by
  refine ⟨?_, ?_, ?_, ?_, ?_, ?_, ?_, ?_⟩ <;> decide +kernel

/-- States and operands for each clause of IoCommands. -/
theorem wit_IoCommands :
  (spaces.mayFetch (Src.host 1) = true ∧ List.find? (fun a => decide (a.sq = 1) && decide (a.cid = 5)) spaces.host.aborts = none ∧
   (∀ (w : Bool × Why), w ∈ (spaces.atFetch (cid 1 5)).ioChecks (cid 1 5) anIo false false → w.fst = false)) ∧
  (spaces.mayFetch (Src.host 1) = true ∧ List.find? (fun a => decide (a.sq = 1) && decide (a.cid = 5)) spaces.host.aborts = none ∧
   (∀ (w : Bool × Why), w ∈ (spaces.atFetch (cid 1 5)).ioChecks (cid 1 5) anIo true false ++ (spaces.atFetch (cid 1 5)).writeChecks (cid 1
   5) anIo.nsid ((spaces.atFetch (cid 1 5)).cmdLeaves anIo) → w.fst = false)) ∧
  (spaces.mayFetch (Src.host 0) = true ∧ List.find? (fun a => decide (a.sq = 0) && decide (a.cid = 5)) spaces.host.aborts = none ∧
   List.find? (fun w => w.fst) ((spaces.atFetch (cid 0 5)).ioChecks (cid 0 5) anIo false false) = some (true, 0, 1, 0)) ∧
  (spaces.mayFetch (Src.host 1) = true ∧ List.find? (fun a => decide (a.sq = 1) && decide (a.cid = 5)) spaces.host.aborts = none ∧
   (spaces.atFetch (cid 1 5)).onAdmin (Src.host 1) = false ∧ (spaces.atFetch (cid 1 5)).onDisc (Src.host 1) = false ∧
   ((spaces.atFetch (cid 1 5)).ns? 1).isSome = true ∧ (spaces.atFetch (cid 1 5)).dockClosing (Src.host 1) = false ∧
   (spaces.atFetch (cid 1 5)).ioLocked = false ∧ (spaces.atFetch (cid 1 5)).unbound (Src.host 1) = false ∧
   (spaces.atFetch (cid 1 5)).unconverged 1 = false) ∧
  (spaces.cmd? (cid 0 5) = none) ∧
  (∃ c ∈ (zeroingWaits.cmd? (cid 1 5)), (zeroingWaits.allAdmitted (cid 1 5) = false ∨ c.started = true ∨ zeroingWaits.led.sealing.isSome =
   true)) ∧
  (zeroing.allAdmitted (cid 1 5) = true ∧ zeroing.begun (cid 1 5) = true ∧ zeroing.led.sealing = none ∧ isDock (Src.host 1) = false ∧
   (∃ c ∈ (zeroing.cmd? (cid 1 5)), c.op = CmdOp.writeZeroes ∧ c.started = false)) ∧
  (spaces.mayFetch (Src.host 1) = true ∧ List.find? (fun a => decide (a.sq = 1) && decide (a.cid = 5)) spaces.host.aborts = none ∧
   [(8, 16)].length ≤ 256 ∧
   ([(8, 16)].any fun r => decide ((Option.map (fun x => x.size) ((spaces.atFetch (cid 1 5)).ns? 1)).getD 0 < r.fst + r.snd)) = false ∧
   (∀ (w : Bool × Why), w ∈ (spaces.atFetch (cid 1 5)).ioChecks (cid 1 5)
   { nsid := 1, slba := 0, nlb := 1, pract := false, prchk := 0, ref := 0, app := 0, mask := 0, dspec := none, bad := false } false
   ((spaces.atFetch (cid 1 5)).allVerified 1 (List.map (fun x => List.map (fun x => x.fst) (leavesOf ((Option.map (fun x => x.fmt)
   ((spaces.atFetch (cid 1 5)).ns? 1)).getD 0) x.fst x.snd)) [(8, 16)]).flatten) → w.snd ≠ (0, 128, 0) → w.fst = false)) := by
  refine ⟨?_, ?_, ?_, ?_, ?_, ?_, ?_, ?_⟩ <;> decide +kernel

/-- States and operands for each clause of HostDataIsReturned. -/
theorem wit_HostDataIsReturned :
  (spaces.mayFetch (Src.host 0) = true ∧ List.find? (fun a => decide (a.sq = 0) && decide (a.cid = 5)) spaces.host.aborts = none ∧
   (∃ page ∈ ((spaces.atFetch (cid 0 5)).logPage 2), 16 ≤ page.length)) ∧
  (spaces.mayFetch (Src.host 0) = true ∧ List.find? (fun a => decide (a.sq = 0) && decide (a.cid = 5)) spaces.host.aborts = none ∧
   (spaces.atFetch (cid 0 5)).logPage 9 = none) ∧
  (spaces.mayFetch (Src.host 0) = true ∧ List.find? (fun a => decide (a.sq = 0) && decide (a.cid = 5)) spaces.host.aborts = none ∧
   ((spaces.atFetch (cid 0 5)).identify (cid 0 5) 1 0 0).toOption.isSome = true) ∧
  (noIndex.mayFetch (Src.host 0) = true ∧ List.find? (fun a => decide (a.sq = 0) && decide (a.cid = 5)) noIndex.host.aborts = none ∧
   (noIndex.atFetch (cid 0 5)).ioLocked = false ∧ (noIndex.atFetch (cid 0 5)).ready Fn.FRAME_INDEX = false) ∧
  (spaces.mayFetch (Src.host 0) = true ∧ List.find? (fun a => decide (a.sq = 0) && decide (a.cid = 5)) spaces.host.aborts = none ∧
   (spaces.atFetch (cid 0 5)).ioLocked = false ∧ (spaces.atFetch (cid 0 5)).ready Fn.FRAME_INDEX = true) ∧
  (taking.mayFetch (Src.host 0) = true ∧ List.find? (fun a => decide (a.sq = 0) && decide (a.cid = 5)) taking.host.aborts = none ∧
   (taking.atFetch (cid 0 5)).ioLocked = false ∧ (taking.atFetch (cid 0 5)).ready Fn.FRAME_INDEX = true ∧
   (List.filter (fun w => decide (w.stream = 255)) (taking.atFetch (cid 0 5)).frm.waits).length < 4 ∧
   ((taking.atFetch (cid 0 5)).indexRead 1 255 0 4096).fst = [] ∧ (∃ t, t ∈ (taking.atFetch (cid 0 5)).liveTakes ∧ t.num = 1)) := by
  refine ⟨?_, ?_, ?_, ?_, ?_, ?_⟩ <;> decide +kernel

/-- States and operands for each clause of NamespacesAndErasure. -/
theorem wit_NamespacesAndErasure :
  (recording.mayFetch (Src.host 0) = true ∧ List.find? (fun a => decide (a.sq = 0) && decide (a.cid = 5)) recording.host.aborts = none ∧
   (recording.atFetch (cid 0 5)).mode ≠ Md.IDLE ∧ (recording.atFetch (cid 0 5)).mode ≠ Md.SERVICE) ∧
  (locked.mayFetch (Src.host 0) = true ∧ List.find? (fun a => decide (a.sq = 0) && decide (a.cid = 5)) locked.host.aborts = none ∧
   ((locked.atFetch (cid 0 5)).mode = Md.IDLE ∨ (locked.atFetch (cid 0 5)).mode = Md.SERVICE) ∧
   (locked.atFetch (cid 0 5)).secLocked = true) ∧
  (spaces.mayFetch (Src.host 0) = true ∧ List.find? (fun a => decide (a.sq = 0) && decide (a.cid = 5)) spaces.host.aborts = none ∧
   ((spaces.atFetch (cid 0 5)).mode = Md.IDLE ∨ (spaces.atFetch (cid 0 5)).mode = Md.SERVICE) ∧
   (spaces.atFetch (cid 0 5)).secLocked = false ∧ (spaces.atFetch (cid 0 5)).nv.sanit ≠ 2 ∧ (spaces.atFetch (cid 0 5)).leads = false ∧
   (spaces.atFetch (cid 0 5)).follows = false ∧ badFormat 0 (0 % 8) (bit 0 3) = false ∧ (spaces.atFetch (cid 0 5)).freeNsid = some 3 ∧
   (spaces.atFetch (cid 0 5)).nsBytes + 1000 * fmtBytes 0 ≤ (spaces.atFetch (cid 0 5)).nv.tnvmcap.getD 0) ∧
  (spaces.mayFetch (Src.host 0) = true ∧ List.find? (fun a => decide (a.sq = 0) && decide (a.cid = 5)) spaces.host.aborts = none ∧
   ((spaces.atFetch (cid 0 5)).mode = Md.IDLE ∨ (spaces.atFetch (cid 0 5)).mode = Md.SERVICE) ∧
   (spaces.atFetch (cid 0 5)).secLocked = false ∧ (spaces.atFetch (cid 0 5)).nv.sanit ≠ 2 ∧ (spaces.atFetch (cid 0 5)).leads = false ∧
   (spaces.atFetch (cid 0 5)).follows = false ∧ (∃ n ∈ ((spaces.atFetch (cid 0 5)).nv.nses.find? 2), n.attached = false)) ∧
  (spaces.mayFetch (Src.host 0) = true ∧ List.find? (fun a => decide (a.sq = 0) && decide (a.cid = 5)) spaces.host.aborts = none ∧
   ((spaces.atFetch (cid 0 5)).mode = Md.IDLE ∨ (spaces.atFetch (cid 0 5)).mode = Md.SERVICE) ∧
   (spaces.atFetch (cid 0 5)).secLocked = false ∧ (spaces.atFetch (cid 0 5)).nv.sanit ≠ 2 ∧ (spaces.atFetch (cid 0 5)).leads = false ∧
   (spaces.atFetch (cid 0 5)).follows = false ∧ ((spaces.atFetch (cid 0 5)).ns? 1).isSome = true ∧ badFormat 0 0 false = false) := by
  refine ⟨?_, ?_, ?_, ?_, ?_⟩ <;> decide +kernel

/-- States and operands for each clause of SelfTests. -/
theorem wit_SelfTests :
  (spaces.mayFetch (Src.host 0) = true ∧ List.find? (fun a => decide (a.sq = 0) && decide (a.cid = 5)) spaces.host.aborts = none ∧
   (spaces.atFetch (cid 0 5)).ready Fn.SELFTEST = true ∧ (spaces.atFetch (cid 0 5)).mode ≠ Md.WAKE ∧
   (spaces.atFetch (cid 0 5)).mode ≠ Md.UPDATE ∧ (spaces.atFetch (cid 0 5)).nv.sanit ≠ 2 ∧ (spaces.atFetch (cid 0 5)).tst.kind = 0) ∧
  (test3.mayFetch (Src.host 0) = true ∧ List.find? (fun a => decide (a.sq = 0) && decide (a.cid = 5)) test3.host.aborts = none ∧
   (test3.atFetch (cid 0 5)).ready Fn.SELFTEST = true ∧ (test3.atFetch (cid 0 5)).mode ≠ Md.WAKE ∧
   (test3.atFetch (cid 0 5)).mode ≠ Md.UPDATE ∧ (test3.atFetch (cid 0 5)).nv.sanit ≠ 2 ∧ (test3.atFetch (cid 0 5)).tst.kind ≠ 0) ∧
  (test3.testMay = true ∧ test3.tst.yielded = false) ∧
  ((spaces.testMay = false ∨ spaces.tst.yielded = true)) ∧
  (testYields.testMay = true ∧ testYields.tst.yielded = true ∧ testYields.ioBusy = false) ∧
  (testYields.testMay = true ∧ testYields.tst.yielded = true ∧ testYields.tst.kind ≠ 1) ∧
  (test3.tst.running = true ∧ (test3.tst.kind = 1 ∨ test3.tst.kind = 2) ∧ test3.tst.seg ≠ 2 ∧ test3.tst.seg ≠ 6 ∧ test3.tst.seg < 6) ∧
  (test6.tst.running = true ∧ (test6.tst.kind = 1 ∨ test6.tst.kind = 2) ∧ test6.tst.kind = 1 ∧ test6.tst.seg = 6) := by
  refine ⟨?_, ?_, ?_, ?_, ?_, ?_, ?_, ?_⟩ <;> decide +kernel

/-- States and operands for each clause of VendorRequests. -/
theorem wit_VendorRequests :
  (mailed.mayFetch (Src.host 0) = true ∧ List.range 5 ≠ [] ∧ (List.range 5).length ≤ 64 ∧
   64 < ((mailed.atFetch (cid 0 5)).queue 0).length + (List.range 5).length) ∧
  (spaces.mayFetch (Src.host 0) = true ∧ List.range 5 ≠ [] ∧ (List.range 5).length ≤ 64 ∧
   ((spaces.atFetch (cid 0 5)).queue 0).length + (List.range 5).length ≤ 64) ∧
  (heldSnap.mayFetch (Src.host 0) = true ∧ (heldSnap.atFetch (cid 0 5)).get F.SNAP_STATE_HELD = 1) ∧
  (spaces.mayFetch (Src.host 0) = true ∧ (spaces.atFetch (cid 0 5)).get F.SNAP_STATE_HELD = 0) ∧
  (spaces.mayFetch (Src.host 0) = true ∧ spaces.mayFetch (Src.host 0) = true ∧
   List.find? (fun a => decide (a.sq = 0) && decide (a.cid = 5)) spaces.host.aborts = none ∧
   (spaces.atFetch (cid 0 5)).inTransition = false ∧ requestable (spaces.atFetch (cid 0 5)).mode = true) ∧
  (spaces.mayFetch (Src.host 0) = true ∧ spaces.mayFetch (Src.host 0) = true ∧
   List.find? (fun a => decide (a.sq = 0) && decide (a.cid = 5)) spaces.host.aborts = none ∧
   (spaces.atFetch (cid 0 5)).inTransition = false ∧ requestable 4 = false) ∧
  (spaces.mayFetch (Src.host 0) = true ∧ spaces.mayFetch (Src.host 0) = true ∧
   List.find? (fun a => decide (a.sq = 0) && decide (a.cid = 5)) spaces.host.aborts = none ∧
   (spaces.atFetch (cid 0 5)).inTransition = false ∧ (spaces.atFetch (cid 0 5)).mode = Md.IDLE ∧
   (5 = Md.REVIEW ∨ 5 = Md.GROOM ∨ 5 = Md.OFFLOAD) ∧ (spaces.atFetch (cid 0 5)).leads = false) := by
  refine ⟨?_, ?_, ?_, ?_, ?_, ?_, ?_⟩ <;> decide +kernel


/-! ### Witnesses: the owner, tamper, debug, the link and frames -/

/-- The bytes of a credential of the owner, before its check value: zeros from byte 164 on. -/
def credBody (op sec new rec : Nat) : List Nat :=
  bytesOf 1 1 ++ bytesOf 1 op ++ bytesOf 2 0 ++ bytesOf 64 sec ++ bytesOf 64 new ++ bytesOf 32 rec ++ bytesOf 64 0 ++ bytesOf 64 0 ++ bytesOf 64 0 ++
    bytesOf 64 0 ++ bytesOf 64 0 ++ bytesOf 24 0
/-- A credential of the owner. -/
def credential (op sec new rec : Nat) : List Nat := credBody op sec new rec ++ bytesOf 4 (crc32c (credBody op sec new rec))
/-- CRC-32C goes on from a part. -/
theorem crc32cFrom_append (c : Nat) (a b : List Nat) : crc32cFrom c (a ++ b) = crc32cFrom (crc32cFrom c a) b := List.foldl_append
/-- The parts of the check value of a credential. -/
theorem credential_parts : crc32cFrom 4294967295 (bytesOf 1 1) = 1609117613 ∧
    crc32cFrom 1609117613 (bytesOf 1 1) = 4015493977 ∧
    crc32cFrom 4015493977 (bytesOf 2 0) = 3483143422 ∧
    crc32cFrom 3483143422 (bytesOf 64 5) = 3842211979 ∧
    crc32cFrom 3842211979 (bytesOf 64 0) = 227416167 ∧
    crc32cFrom 227416167 (bytesOf 32 7) = 40926877 ∧
    crc32cFrom 40926877 (bytesOf 64 0) = 1657218662 ∧
    crc32cFrom 1657218662 (bytesOf 64 0) = 1818812054 ∧
    crc32cFrom 1818812054 (bytesOf 64 0) = 1850027367 ∧
    crc32cFrom 1850027367 (bytesOf 64 0) = 2858241097 ∧
    crc32cFrom 2858241097 (bytesOf 64 0) = 2938574281 ∧
    crc32cFrom 2938574281 (bytesOf 24 0) = 4207209053 := by
  decide +kernel
/-- Its last state. -/
theorem credential_last : crc32cFrom 4294967295 (credBody 1 5 0 7) = 4207209053 := by
  simp only [credBody, crc32cFrom_append, credential_parts]
/-- The check value of a credential. -/
theorem credential_crc : crc32c (credBody 1 5 0 7) = 87758242 := by
  rw [crc32c, credential_last]
  decide +kernel
/-- A number's bytes, counted. -/
theorem bytesOf_count (n v : Nat) : (bytesOf n v).length = n := by
  induction n generalizing v with
  | zero => rfl
  | succ n ih => simp [bytesOf, ih]
/-- The bytes before it. -/
theorem credential_body (op sec new rec : Nat) (l : List Nat) : (credBody op sec new rec ++ l).take 508 = credBody op sec new rec :=
  List.take_left' (by simp only [credBody, List.length_append, bytesOf_count])
/-- A credential that is well formed. -/
theorem credential_good : badCred (credential 1 5 0 7) = false := by
  have h : credential 1 5 0 7 = credBody 1 5 0 7 ++ bytesOf 4 87758242 := by rw [credential, credential_crc]
  have hl : (credBody 1 5 0 7 ++ bytesOf 4 87758242).length = 512 := by simp only [credBody, List.length_append, bytesOf_count]
  unfold badCred
  rw [h, credential_body, credential_crc, hl]
  decide +kernel
/-- No owner, and security INIT. -/
def unowned : State := spaces.set F.SEC_STATUS_STATE 0
/-- An owner is established. -/
def owned : State := onNv spaces (fun n => { n with owner := some 5, recovery := 7, ownerLeft := 3 })
/-- The same, LOCKED. -/
def ownedLocked : State := owned.set F.SEC_STATUS_STATE 2
/-- A goal of the owner's record. -/
def goal (n : Nat) (s : State) : State := { s with sec := { s.sec with goal := some (n, none) } }
/-- A rejected credential. -/
def rejected : State := { spaces with sec := { spaces.sec with rejects := [(cid 1 5, 2)] } }
/-- Carry with hours left. -/
def carried (s : State) : State := onKeep s (fun k => { k with cs := true, carryLeft := some 3, carryHours := 5 })
/-- No attempt is left, and Carry permitted. -/
def exhausted : State := onNv owned (fun n => { n with ownerLeft := 0, carryOk := true })
/-- Service, with an owner. -/
def ownedService : State := md 10 owned
/-- What tamper does. -/
def tampering (n : Nat) (s : State) : State := onNv s (fun v => { v with tamperEn := true, tamperDo := n })
/-- A debug challenge is open. -/
def challenged (s : State) : State := st s [(F.DBG_STATUS_CHAL_VALID, 1), (F.DBG_RESP_HDR_LEVEL, 1), (F.DBG_RESP_HDR_LIFETIME_S, 100)]
/-- A failed response holds off the next. -/
def failed : State := { spaces with sec := { spaces.sec with failTb := some 0 } }
/-- The owner's goals. -/
def goal2 : State := goal 2 owned
/-- Goal 4. -/
def goal4 : State := goal 4 owned
/-- Goal 2, with slots in the buffer. -/
def goal2full : State := goal 2 (buffered owned)
/-- Tamper raises an event. -/
def tamper0 : State := tampering 0 spaces
/-- Tamper locks. -/
def tamper1 : State := tampering 1 spaces
/-- Tamper erases. -/
def tamper2 : State := tampering 2 (carried spaces)
/-- Tamper in Keep. -/
def tamperKeep : State := md 0 (tampering 0 (carried spaces))
/-- Tamper in Seal. -/
def tamperSeal : State := md 8 (tampering 1 (carried spaces))
/-- Carry. -/
def carry : State := carried spaces
/-- A challenge with no owner. -/
def challenge : State := challenged spaces
/-- A challenge with an owner. -/
def challengeOwned : State := challenged owned
/-- Debug level 2. -/
def debug2 : State := spaces.set F.DBG_STATUS_LEVEL 2
/-- Debug level 1. -/
def debug1 : State := spaces.set F.DBG_STATUS_LEVEL 1

/-- States and operands for each clause of OwnerCommands. -/
theorem wit_OwnerCommands :
  (unowned.mayFetch (Src.host 0) = true ∧ List.find? (fun a => decide (a.sq = 0) && decide (a.cid = 5)) unowned.host.aborts = none ∧
   badCred (credential 1 5 0 7) = false ∧ (true = true → 1 ≤ 8 ∧ 8 ≤ 8) ∧ (unowned.atFetch (cid 0 5)).sec.goal = none ∧
   ((unowned.atFetch (cid 0 5)).mode = Md.IDLE ∨ (unowned.atFetch (cid 0 5)).mode = Md.SERVICE) ∧
   (unowned.atFetch (cid 0 5)).nv.sanit ≠ 2 ∧ (unowned.atFetch (cid 0 5)).secState = 0) ∧
  (owned.mayFetch (Src.host 0) = true ∧ List.find? (fun a => decide (a.sq = 0) && decide (a.cid = 5)) owned.host.aborts = none ∧
   badCred (credential 1 5 0 7) = false ∧ (true = true → 1 ≤ 8 ∧ 8 ≤ 8) ∧ (owned.atFetch (cid 0 5)).sec.goal = none ∧
   ((owned.atFetch (cid 0 5)).mode = Md.IDLE ∨ (owned.atFetch (cid 0 5)).mode = Md.SERVICE) ∧ (owned.atFetch (cid 0 5)).nv.sanit ≠ 2 ∧
   (owned.atFetch (cid 0 5)).secState ≠ 0 ∧ (false = false ∨ (owned.atFetch (cid 0 5)).nv.carryOk = true)) ∧
  (owned.mayFetch (Src.host 0) = true ∧ List.find? (fun a => decide (a.sq = 0) && decide (a.cid = 5)) owned.host.aborts = none ∧
   badCred (credential 1 5 0 7) = false ∧ (true = true → 1 ≤ 8 ∧ 8 ≤ 8) ∧ (owned.atFetch (cid 0 5)).sec.goal = none ∧
   ((owned.atFetch (cid 0 5)).mode = Md.IDLE ∨ (owned.atFetch (cid 0 5)).mode = Md.SERVICE) ∧ (owned.atFetch (cid 0 5)).nv.sanit ≠ 2 ∧
   (owned.atFetch (cid 0 5)).secState ≠ 0 ∧ (owned.atFetch (cid 0 5)).nv.carryOk = false) ∧
  (unowned.secState = 0 ∧ credOp (credential 1 5 0 7) = 1 ∧ unowned.sec.goal = none) ∧
  (owned.secState = 1 ∧ credOp (credential 0 6 0 0) = 0 ∧ owned.nv.ownerLeft ≠ 0 ∧
   owned.nv.owner ≠ some (credSecret (credential 0 6 0 0))) ∧
  (exhausted.secState = 1 ∧ credOp (credential 0 5 0 0) = 0 ∧ exhausted.nv.ownerLeft = 0) ∧
  ((owned.set F.SEC_STATUS_STATE 4).secState = 4) ∧
  (((owned.set F.SEC_STATUS_STATE 3).secState = 4 ∨ (owned.set F.SEC_STATUS_STATE 3).secState = 3)) ∧
  (List.find? (fun x => decide (x.fst = (cid 1 5))) rejected.sec.rejects = some ((cid 1 5), 2)) ∧
  (goal2full.sec.goal = some (2, none) ∧ goal2full.keysIdle = false) ∧
  (goal2.sec.goal = some (2, none) ∧ goal2.keysIdle = true ∧ goal2.secState = 1 ∧ goal2.dbgLevel ≠ 2 ∧ goal2.get F.PAIR_STATUS_ALIGNED = 0) := by
  refine ⟨⟨?_, ?_, credential_good, ?_⟩, ⟨?_, ?_, credential_good, ?_⟩, ⟨?_, ?_, credential_good, ?_⟩, ?_, ?_, ?_, ?_, ?_, ?_, ?_, ?_⟩ <;> decide +kernel

/-- States and operands for each clause of TamperAndDebug. -/
theorem wit_TamperAndDebug :
  (tamper2.keep.carryLeft.isSome = true) ∧
  ((spaces.pins.tamperN = false ∨ spaces.nv.tamperEn = false)) ∧
  (tamperKeep.pins.tamperN = true ∧ tamperKeep.nv.tamperEn = true ∧ (tamperKeep.mode = Md.KEEP ∨ tamperKeep.mode = Md.SEAL)) ∧
  (tamper0.pins.tamperN = true ∧ tamper0.nv.tamperEn = true ∧ tamper0.mode ≠ Md.KEEP ∧ tamper0.mode ≠ Md.SEAL ∧
   tamper0.ready Fn.SEC = true ∧ tamper0.nv.tamperDo = 0) ∧
  ((spaces.dropHeld .camera).blocked .camera Pg.DBG 256 = none ∧ (spaces.dropHeld .camera).rwMode Pg.DBG = true ∧
   (spaces.dropHeld .camera).sec.failTb = none) ∧
  ((failed.dropHeld .camera).blocked .camera Pg.DBG 256 = none ∧ (failed.dropHeld .camera).rwMode Pg.DBG = true ∧
   (failed.dropHeld .camera).sec.failTb = some 0 ∧ (failed.dropHeld .camera).tb < 0 + 250000000) ∧
  ((spaces.dropHeld .camera).blocked .camera Pg.DBG 256 = none ∧ (spaces.dropHeld .camera).rwMode Pg.DBG = true ∧
   (spaces.dropHeld .camera).dbgLevel ≠ 2) ∧
  ((spaces.dropHeld .camera).blocked .camera Pg.DBG 416 = none ∧ (spaces.dropHeld .camera).rwMode Pg.DBG = true ∧
   ((spaces.dropHeld .camera).dbgLevel ≠ 2 ∨ (spaces.dropHeld .camera).get F.DBG_RESP_HDR_LEVEL = 2 ∨ (spaces.dropHeld .camera).dbgGood =
   false) ∧ (spaces.dropHeld .camera).dbgGood = false) ∧
  (spaces.dbgLevel = 0) ∧
  (debug2.dbgLevel = 2) ∧
  (debug1.dbgLevel = 1) := by
  refine ⟨?_, ?_, ?_, ?_, ?_, ?_, ?_, ?_, ?_, ?_, ?_⟩ <;> decide +kernel


/-! ### Witnesses: the camera link, takes and frames -/

/-- The link is aligned, with four lanes, and streams 0 to 7 bound. -/
def linked (s : State) : State := st s ([(F.INGEST_STATUS_FSTATE, 2), (F.INGEST_STATUS_ALIGNED, 1), (F.INGEST_STATUS_LOCKED, 0xFF),
  (F.INGEST_CTL_EN, 1), (F.INGEST_CFG_LANES, 4), (F.INGEST_CFG_PATTERN_TOL, 2), (F.INGEST_CFG_MAX_LEN_MIB, 64), (F.INGEST_STREAM_EN_EN 0, 0xFF)] ++
  (List.range 8).flatMap (fun i => [(F.MAP_STREAM_CFG_NSID i, 1), (F.MAP_STREAM_REGION_BASE_EXT i, 64 * i), (F.MAP_STREAM_REGION_LEN_EXT i, 64),
    (F.INGEST_LANE_LOGICAL i, i)]))
/-- A take with its streams' regions. -/
def regions (t : Take) (s : State) : State := onMap s (fun m => { m with ts := { m.ts with takes := [(1, t)], lastTake := 1, streams := (List.range 8).map (fun i => (i, ⟨1, 0, 0, 2 ^ 20 * i, 2 ^ 18⟩)) } })
/-- The link, aligned, and a take OPEN. -/
def ingest : State := regions aTake (linked spaces)
/-- The link, enabled and not aligned. -/
def unaligned : State := st ingest [(F.INGEST_STATUS_ALIGNED, 0), (F.INGEST_STATUS_FSTATE, 1)]
/-- The link, off. -/
def ingestOff : State := st ingest [(F.INGEST_STATUS_ALIGNED, 0), (F.INGEST_STATUS_FSTATE, 0)]
/-- The link stops. -/
def ingestStops : State := st ingest [(F.INGEST_STATUS_FSTATE, 3)]
/-- Two lanes are used. -/
def twoLanes : State := st ingest [(F.INGEST_CFG_LANES, 2)]
/-- An alignment block of each lane. -/
def fourLanes : List AlignBlk := [⟨0, 0, 5, 4, 0⟩, ⟨1, 1, 5, 4, 1⟩, ⟨2, 2, 5, 4, 2⟩, ⟨3, 3, 5, 4, 3⟩]
/-- The word of a frame header, with its check value. -/
def headerWord (stream frame len tc : Nat) : Nat :=
  let w := 64 + stream * 2 ^ 8 + frame * 2 ^ 16 + len * 2 ^ 48 + tc * 2 ^ 80
  w + crc16 (bytesOf 14 w) * 2 ^ 112
/-- Frame 7 of stream 2. -/
def header7 : Nat := headerWord 2 7 64 9
/-- Channel 1 has its SYNC block. -/
def synced : State := run (.busaistSync 1 syncPattern) ingest
/-- A frame's header has come. -/
def inFrame : State := run (.frameHeader (header7 % 2 ^ 64) (header7 / 2 ^ 64)) synced
/-- Four of its blocks have come. -/
def inBlocks : State := [1, 2, 3, 4].foldl (fun s x => run (.frameDataBlock x) s) inFrame
/-- The take is CLOSING. -/
def closing : State := regions { aTake with phase := 1 } ingest
/-- The frame is closed, and its slots asked. -/
def closedFrame : State := { inBlocks with led := { inBlocks.led with reqs := [] }, frm := { inBlocks.frm with recs := inBlocks.frm.recs.map (fun r => { r with closed := true, asked := 5 }) } }
/-- Its slots are not asked yet. -/
def unasked : State := { closedFrame with frm := { closedFrame.frm with recs := closedFrame.frm.recs.map (fun r => { r with asked := 0 }) } }
/-- The capture unit has a frame. -/
def capturing : State := { ingest with frm := { ingest.frm with capHead := inBlocks.frm.recs.head?.map (fun r => { r with id := 77 }) } }
/-- No take is OPEN. -/
def noTake (s : State) : State := onMap s (fun m => { m with ts := { m.ts with takes := [] } })
/-- Sixteen takes. -/
def takes16 : State := onMap ingest (fun m => { m with ts := { m.ts with takes := (List.range 16).map (fun i => (i + 1, { aTake with num := i + 1, first := 100 + i, last := 100 + i, streams := [100 + i] })) } })
/-- Record, with no take. -/
def recordNoTake : State := md 4 (noTake ingest)
/-- Record. -/
def recordIngest : State := md 4 ingest
/-- Record, with sixteen takes. -/
def record16 : State := md 4 takes16
/-- Seal, with the link. -/
def sealIngest : State := md 8 ingest

/-- States and operands for each clause of LanesAndAlignment. -/
theorem wit_LanesAndAlignment :
  (ingest.getBit F.INGEST_STATUS_LOCKED 6 = true ∧ ingest.laneUsed 6 = false) ∧
  (ingest.getBit F.INGEST_STATUS_LOCKED 2 = true ∧ ingest.laneUsed 2 = true ∧ (∀ (v : Nat), v < 8 → (ingest.vc v).frame = none) ∧
   ingest.get F.INGEST_STATUS_ALIGNED = 1) ∧
  (ingest.getBit F.INGEST_STATUS_LOCKED 6 = true ∧ (ingest.laneUsed 6 = false ∨ ingest.get F.INGEST_STATUS_ALIGNED = 0)) ∧
  (ingest.getBit F.INGEST_STATUS_LOCKED 2 = true ∧ ingest.laneUsed 2 = true ∧ ingest.get F.INGEST_STATUS_ALIGNED = 1 ∧
   ingest.get (F.FI_CFG_STATE 0) = 0 ∧ ingest.fi.carry.getD 0 0 = 0 ∧ ingest.fi.block = none ∧ (ingest.vc ingest.ing.cur).frame = none) ∧
  ((∀ (b : AlignBlk), b ∈ fourLanes → b.lane < 8) ∧ ingest.get F.INGEST_STATUS_FSTATE ≠ 0 ∧
   ingest.alignOk (ingest.alignsUsed fourLanes) = true ∧ ingest.get F.INGEST_STATUS_ALIGNED = 1) ∧
  ((∀ (b : AlignBlk), b ∈ fourLanes → b.lane < 8) ∧ unaligned.get F.INGEST_STATUS_FSTATE ≠ 0 ∧
   unaligned.alignOk (unaligned.alignsUsed fourLanes) = true ∧ unaligned.get F.INGEST_STATUS_ALIGNED = 0 ∧
   unaligned.get F.INGEST_STATUS_FSTATE = 1 ∧ unaligned.get F.INGEST_CTL_EN = 1 ∧ unaligned.ing.wasUp = false) ∧
  ((∀ (b : AlignBlk), b ∈ fourLanes → b.lane < 8) ∧ unaligned.get F.INGEST_STATUS_FSTATE ≠ 0 ∧
   unaligned.alignOk (unaligned.alignsUsed fourLanes) = true ∧ unaligned.get F.INGEST_STATUS_ALIGNED = 0 ∧
   unaligned.get F.INGEST_STATUS_FSTATE = 1 ∧ unaligned.get F.INGEST_CTL_EN = 1 ∧ unaligned.needsOk Fn.BUSAIST_LINK = true) ∧
  (ingestOff.get F.INGEST_STATUS_FSTATE = 0) ∧
  ((ingestStops.dropHeld .firmware).blocked .firmware Pg.INGEST 16 = none ∧ (ingestStops.dropHeld .firmware).rwMode Pg.INGEST = true ∧
   ingestStops.get F.INGEST_STATUS_FSTATE = 3) ∧
  ((inBlocks.dropHeld .firmware).blocked .firmware Pg.INGEST 16 = none ∧ (inBlocks.dropHeld .firmware).rwMode Pg.INGEST = true ∧
   inBlocks.get F.INGEST_STATUS_FSTATE = 2 ∧ inBlocks.elasticBlocks ≠ 0) ∧
  (ingest.get F.INGEST_STATUS_FSTATE ≠ 3) ∧
  (ingestStops.get F.INGEST_STATUS_FSTATE = 3 ∧ (∀ (v : Nat), v < 8 → (ingestStops.vc v).frame = none)) := by
  refine ⟨?_, ?_, ?_, ?_, ?_, ?_, ?_, ?_, ?_, ?_, ?_, ?_⟩ <;> decide +kernel

/-- States and operands for each clause of BusaistBlocks. -/
theorem wit_BusaistBlocks :
  (ingest.get F.INGEST_STATUS_ALIGNED = 1 ∧ ingest.get (F.FI_CFG_STATE 0) = 0 ∧ ingest.fi.carry.getD 0 0 = 0 ∧ ingest.fi.block = none ∧
   syncPattern < 2 ^ 48 ∧ hamming48 syncPattern syncPattern ≤ ingest.get F.INGEST_CFG_PATTERN_TOL) ∧
  (ingest.get F.INGEST_STATUS_ALIGNED = 1 ∧ ingest.get (F.FI_CFG_STATE 0) = 0 ∧ ingest.fi.carry.getD 0 0 = 0 ∧ ingest.fi.block = none ∧
   syncPattern < 2 ^ 48 ∧ (8 ≤ 9 ∨ ingest.get F.INGEST_CFG_PATTERN_TOL < hamming48 syncPattern syncPattern)) ∧
  (unaligned.get F.INGEST_STATUS_ALIGNED = 0 ∧ unaligned.tst.running = false) ∧
  (synced.get F.INGEST_STATUS_ALIGNED = 1 ∧ synced.get (F.FI_CFG_STATE 0) = 0 ∧ synced.fi.carry.getD 0 0 = 0 ∧ synced.fi.block = none ∧
   synced.tst.running = false ∧ (synced.vc synced.ing.cur).hdr = some [] ∧ synced.ing.blocks + 1 < 512 * synced.ing.fc ∧
   synced.get F.INGEST_STATUS_FSTATE ≠ 3 ∧ synced.ing.cur < synced.ing.vcs.length) ∧
  (ingest.judgeHdr 1 (parseHdr (header7 % 2 ^ 64) (header7 / 2 ^ 64)) = HdrErr.ok ∧ (ingest.vc 1).orphan = none ∧
   (ingest.takeOf (parseHdr (header7 % 2 ^ 64) (header7 / 2 ^ 64)).stream).isSome = true) ∧
  (ingest.fi.block = none) ∧
  (ingest.get F.INGEST_STATUS_FSTATE ≠ 3) := by
  refine ⟨?_, ?_, ?_, ?_, ?_, ?_, ?_⟩ <;> decide +kernel

/-- States and operands for each clause of TakesAndFrames. -/
theorem wit_TakesAndFrames :
  (sealIngest.mayFetch (Src.host 0) = true ∧ List.find? (fun a => decide (a.sq = 0) && decide (a.cid = 5)) sealIngest.host.aborts = none ∧
   (sealIngest.atFetch (cid 0 5)).lastTakeUsed < 4294967295 ∧ (sealIngest.atFetch (cid 0 5)).noRegion 0 2 = false ∧
   (sealIngest.atFetch (cid 0 5)).mc.trans = none ∧ (sealIngest.atFetch (cid 0 5)).takeMode = false) ∧
  (ingest.mayFetch (Src.host 0) = true ∧ List.find? (fun a => decide (a.sq = 0) && decide (a.cid = 5)) ingest.host.aborts = none ∧
   (ingest.atFetch (cid 0 5)).lastTakeUsed < 4294967295 ∧ (ingest.atFetch (cid 0 5)).noRegion 0 2 = false ∧
   (ingest.atFetch (cid 0 5)).mc.trans = none ∧ (ingest.atFetch (cid 0 5)).takeMode = true ∧ (ingest.atFetch (cid 0 5)).mc.drain = none ∧
   (ingest.atFetch (cid 0 5)).ioLocked = false ∧ (ingest.atFetch (cid 0 5)).nv.sanit ≠ 2 ∧ (ingest.atFetch (cid 0 5)).follows = false ∧
   List.find? (ingest.atFetch (cid 0 5)).streamTaken ((ingest.atFetch (cid 0 5)).newStreams 0 2) = some 0) ∧
  (record16.mayFetch (Src.host 0) = true ∧ List.find? (fun a => decide (a.sq = 0) && decide (a.cid = 5)) record16.host.aborts = none ∧
   (record16.atFetch (cid 0 5)).lastTakeUsed < 4294967295 ∧ (record16.atFetch (cid 0 5)).noRegion 0 2 = false ∧
   (record16.atFetch (cid 0 5)).mc.trans = none ∧ (record16.atFetch (cid 0 5)).takeMode = true ∧
   (record16.atFetch (cid 0 5)).mc.drain = none ∧ (record16.atFetch (cid 0 5)).ioLocked = false ∧
   (record16.atFetch (cid 0 5)).nv.sanit ≠ 2 ∧ (record16.atFetch (cid 0 5)).follows = false ∧
   List.find? (record16.atFetch (cid 0 5)).streamTaken ((record16.atFetch (cid 0 5)).newStreams 0 2) = none ∧
   16 ≤ (record16.atFetch (cid 0 5)).takesNow.length) ∧
  (recordNoTake.mayFetch (Src.host 0) = true ∧
   List.find? (fun a => decide (a.sq = 0) && decide (a.cid = 5)) recordNoTake.host.aborts = none ∧
   (recordNoTake.atFetch (cid 0 5)).lastTakeUsed < 4294967295 ∧ (recordNoTake.atFetch (cid 0 5)).noRegion 0 2 = false ∧
   (recordNoTake.atFetch (cid 0 5)).mc.trans = none ∧ (recordNoTake.atFetch (cid 0 5)).takeMode = true ∧
   (recordNoTake.atFetch (cid 0 5)).mc.drain = none ∧ (recordNoTake.atFetch (cid 0 5)).ioLocked = false ∧
   (recordNoTake.atFetch (cid 0 5)).nv.sanit ≠ 2 ∧ (recordNoTake.atFetch (cid 0 5)).follows = false ∧
   List.find? (recordNoTake.atFetch (cid 0 5)).streamTaken ((recordNoTake.atFetch (cid 0 5)).newStreams 0 2) = none ∧
   (recordNoTake.atFetch (cid 0 5)).takesNow.length < 16 ∧ (recordNoTake.atFetch (cid 0 5)).leads = false) ∧
  (ingest.mayFetch (Src.host 0) = true ∧ List.find? (fun a => decide (a.sq = 0) && decide (a.cid = 5)) ingest.host.aborts = none ∧
   List.find? (fun t => decide (t.num = 2) && decide (t.phase = 0)) (ingest.atFetch (cid 0 5)).liveTakes = none) ∧
  (ingest.mayFetch (Src.host 0) = true ∧ List.find? (fun a => decide (a.sq = 0) && decide (a.cid = 5)) ingest.host.aborts = none ∧
   (ingest.atFetch (cid 0 5)).follows = false ∧ (ingest.atFetch (cid 0 5)).leads = false ∧ (ingest.atFetch (cid 0 5)).frm.capHead = none ∧
   (ingest.atFetch (cid 0 5)).get F.INGEST_STATUS_FSTATE ≠ 3 ∧
   (List.find? (fun t => decide (t.num = 1) && decide (t.phase = 0)) (ingest.atFetch (cid 0 5)).liveTakes).isSome = true) ∧
  (Option.all (fun k => decide (k.phase ≠ 1)) (ingest.map.ts.takes.find? 1) = true) ∧
  (closing.takeRecs 1 = [] ∧ closing.frm.capHead = none ∧ closing.frm.waits = [] ∧ closing.mode ≠ Md.RECORD ∧
   (∀ (v : Nat), v < 8 → (closing.vc v).orphan = none) ∧ (∃ k ∈ (closing.map.ts.takes.find? 1), k.phase = 1 ∧ k.stopper = none)) ∧
  (∃ k ∈ (closing.map.ts.takes.find? 1), k.phase = 1) ∧
  ((sealIngest.mode = Md.KEEP ∨ sealIngest.mode = Md.REST ∨ sealIngest.mode = Md.SEAL ∨ sealIngest.ready Fn.LTC = false)) ∧
  (ingest.mode ≠ Md.KEEP ∧ ingest.mode ≠ Md.REST ∧ ingest.mode ≠ Md.SEAL ∧ ingest.ready Fn.LTC = true ∧
   ingest.get F.PWR_RAIL_STATUS_IO_LEVEL ≠ 3) ∧
  (ingest.rec? 0 = none) ∧
  (∃ r ∈ (unasked.rec? 1), (unasked.recDurable r = false ∨ unasked.recNext r = false)) ∧
  (closedFrame.mirroring = false ∧ closedFrame.frm.waits = [] ∧ closedFrame.frm.starts = [] ∧
   (∃ r ∈ (closedFrame.rec? 1), closedFrame.recDurable r = true ∧ closedFrame.recNext r = true)) ∧
  (ingest.frm.capHead = none) ∧
  (capturing.frm.capHead.isSome = true) := by
  refine ⟨?_, ?_, ?_, ?_, ?_, ?_, ?_, ?_, ?_, ?_, ?_, ?_, ?_, ?_, ?_, ?_⟩ <;> decide +kernel


/-! ### Witnesses: the translation store, the flash, decoding, scrub and grooming -/

/-- Two pages of the journal wait. -/
def journal : State := onMap spaces (fun m => { m with tail := [⟨[.unmap 5 1, .state 1 2]⟩, ⟨[.append 3 4]⟩] })
/-- Wake, before the replay. -/
def waking : State := md 2 spaces
/-- A checkpoint runs. -/
def checkpointing : State := onMap journal (fun m => { m with ckptAt := some { m.ts with map := [(2 ^ 59 + 3, 17)] }, phaseTb := 0 })
/-- BUSY of the checkpoint is set. -/
def ckptBusy : State := journal.set F.MAP_STATUS_CKPT_BUSY 1
/-- Groups of open bands. -/
def groups : State := onMap (buffered spaces) (fun m => { m with groups := [(3, { band := none, queue := [1] }), (33, { band := some 2, next := 5 })] })
/-- A slot of part of a unit. -/
def partial4 : State := { spaces with slots := [{ aSlot 1 .durable with mask := 0x0F, key := 2 ^ 59 + 5 }, aSlot 2 .durable] }
/-- A new count of ways waits. -/
def waysWait : State := onMap spaces (fun m => { m with waysWait := some 7 })
/-- MAP_FULL is not set, and a segment is not loaded. -/
def unloaded : State := without Fn.MAP_FULL (onMap spaces (fun m => { m with ts := { m.ts with map := [(2 ^ 59 + 3, 17)] } }))
/-- An operation of a kind runs. -/
def operating (k : OpKind) : State := { chans spaces with bud := { spaces.bud with ops := [{ aRead with kind := k, phase := .running }] } }
/-- A read runs. -/
def reading : State := operating .read
/-- A program runs. -/
def programming : State := operating .prog
/-- An erase runs. -/
def erasing : State := operating .erase
/-- Channels READY. -/
def flash : State := onChans F.FCH_TIMEOUT_ZQ_MS 100 (chans spaces)
/-- The same in Service. -/
def flashService : State := md 10 flash
/-- Discovery goes on. -/
def discovering : State := onChans F.FCH_STATUS_STATE 1 spaces
/-- What discovery found of channel 1. -/
def found1 : ChanFound := ⟨1, [], true, 5, false, false⟩
/-- An escalation at its first step. -/
def escal : Esc := { n := 3, ua := 77, key := some (2 ^ 59 + 3), cls := 0, step := 1, tries := 0, base := 0, best := 0, unsat := 0, mism := none, acc := [], left := 0, bad := false, fors := [.cmd (cid 1 5) (2 ^ 59 + 3)] }
/-- A unit of the flash. -/
def aUnit : Machine.Unit := { kind := 1, poison := false, frame := false, stream := 0, nsid := 1, key := 2 ^ 59 + 3, seq := 1, crc := 0, data := [1, 2, 3, 4, 5, 6, 7, 8] }
/-- Its unit is decoded. -/
def decoding : State := onMap (onNv spaces (fun n => { n with units := [(77, aUnit)] })) (fun m => { m with escs := [escal], nextEsc := 4 })
/-- A word decoded, one not decoded, and an erased one. -/
def results : List DecRes := [⟨true, 5, 0, false, false, none⟩, ⟨false, 5, 9, false, false, none⟩, ⟨false, 0, 0, true, false, none⟩]
/-- The tracker is refreshed. -/
def tracking : State := st flash [(F.SCRUB_CTL_EN, 1), (F.SCRUB_CFG_TRACK_REFRESH_S, 60), (F.FCH_LUN_STATE_STATE 1, 0x5), (F.ECC_TRACK_INDEX 16, 3), (F.ECC_TRACK_INDEX 17, 3)]
/-- A result of the tracker. -/
def aTrack : TrackRes := ⟨1, 0, true, 3, 3⟩
/-- A band in a state. -/
def band (x : BandState) : Band := { state := x, group := 3 }
/-- A pass of the scrub runs over two bands. -/
def scrubbing : State := onMap (onNv (st spaces [(F.MAP_GEOM_BAND_STRIPES, 4), (F.SCRUB_CTL_EN, 1)]) (fun n => { n with units := [(unitAddr 8 1 0, aUnit), (unitAddr 12 1 0, { aUnit with key := 2 ^ 59 + 4 })] }))
  (fun m => { m with scrub := some ⟨[2, 3], 1, 0, 1, 100, true⟩, ts := { m.ts with map := [(2 ^ 59 + 3, unitAddr 8 1 0), (2 ^ 59 + 4, unitAddr 12 1 0)], bands := [(2, band .closed), (3, band .closed), (5, band .bootRsv), (6, band .bootRsv)] } })
/-- No pass runs, and no band wants one. -/
def scrubIdle : State := spaces.set F.SCRUB_CTL_EN 1
/-- SCRUB is not set. -/
def noScrub : State := without Fn.SCRUB spaces
/-- A group waits for a band. -/
def opening : State := onMap scrubbing (fun m => { m with groups := [(3, { band := none, queue := [1] }), (35, { band := none, queue := [1] }), (33, { band := some 3, queue := [] })] })
/-- It waits before MAP_FULL. -/
def openingBoot : State := without Fn.MAP_FULL opening
/-- No band is left there. -/
def openingNone : State := onMap openingBoot (fun m => { m with ts := { m.ts with bands := [] } })
/-- A channel of 60 bands. -/
def bands60 : State := st (chans (without Fn.GROOM opening)) [(F.FCH_STATUS_LUNS 0, 16), (F.FCH_GEOM_BLOCKS_PER_PLANE 0, 60), (F.FCH_LUN_STATE_STATE 1, 0x5), (F.MAP_CFG_RSV_BANDS, 2)]
/-- None of them is free. -/
def noFree : State := onMap bands60 (fun m => { m with ts := { m.ts with bands := (List.range 60).map (fun i => (i, band (if i = 5 ∨ i = 6 then .bootRsv else .opened))) } })
/-- A victim is being emptied. -/
def victim : State := onMap scrubbing (fun m => { m with victims := [(3, 5)] })
/-- Two victims. -/
def victims2 : State := onMap scrubbing (fun m => { m with victims := [(2, 5), (3, 5)], ts := { m.ts with bands := [(2, band .victim), (3, band .victim)] } })
/-- Groom. -/
def groomMode : State := md 7 scrubbing
/-- Seal. -/
def sealed : State := md 8 spaces

/-- States and operands for each clause of JournalAndCheckpoints. -/
theorem wit_JournalAndCheckpoints :
  ((spaces.mode ≠ Md.WAKE ∨ spaces.map.replayed = true)) ∧
  (waking.mode = Md.WAKE ∧ waking.needsOk Fn.JOURNAL = true ∧ waking.map.replayed = false ∧ waking.led.sealing = none) ∧
  (spaces.map.tail = []) ∧
  (journal.ready Fn.JOURNAL = true ∧ journal.led.sealing = none ∧ journal.map.tail ≠ []) ∧
  ((ckptBusy.dropHeld .firmware).blocked .firmware Pg.MAP 320 = none ∧ (ckptBusy.dropHeld .firmware).rwMode Pg.MAP = true ∧
   (ckptBusy.ready Fn.JOURNAL = false ∨ ckptBusy.get F.MAP_STATUS_CKPT_BUSY = 1)) ∧
  ((spaces.dropHeld .firmware).blocked .firmware Pg.MAP 320 = none ∧ (spaces.dropHeld .firmware).rwMode Pg.MAP = true ∧
   spaces.ready Fn.JOURNAL = true ∧ spaces.get F.MAP_STATUS_CKPT_BUSY = 0) ∧
  (spaces.map.ckptAt = none) ∧
  (checkpointing.map.ckptAt ≠ none ∧ checkpointing.led.sealing = none) ∧
  (spaces.map.groups.find? 3 = none) ∧
  (groups.led.sealing = none ∧ groups.map.pages = [] ∧ (∃ x ∈ (groups.map.groups.find? 3), x.band = none)) ∧
  (spaces.slot 1 = none) ∧
  (∃ x ∈ (groups.slot 1), x.mask = 255) ∧
  (∃ x ∈ (partial4.slot 1), x.mask ≠ 255 ∧ x.lst = SlotList.durable ∧ (x.kind = SlotKind.host ∨ x.kind = SlotKind.frame) ∧
   partial4.map.ts.map.find? x.key = none) ∧
  ((spaces.map.resident.contains 17592186044416 = true ∨ spaces.ready Fn.MAP_FULL = true)) ∧
  (unloaded.ready Fn.JOURNAL = true ∧ unloaded.ready Fn.MAP_FULL = false ∧ unloaded.map.ts.segments.contains 17592186044416 = true ∧
   unloaded.map.resident.contains 17592186044416 = false ∧ unloaded.map.reads = []) ∧
  (spaces.map.waysWait = none) ∧
  (waysWait.map.waysWait = some 7 ∧ waysWait.get F.MCACHE_STATUS_REENABLE_PENDING = 0) := by
  refine ⟨?_, ?_, ?_, ?_, ?_, ?_, ?_, ?_, ?_, ?_, ?_, ?_, ?_, ?_, ?_, ?_, ?_⟩ <;> decide +kernel

/-- States and operands for each clause of FlashOperationsEnd. -/
theorem wit_FlashOperationsEnd :
  (Option.all (fun o => decide (o.phase ≠ OpPhase.running)) (spaces.op 7) = true) ∧
  (∃ o ∈ (programming.op 7), o.phase = OpPhase.running ∧ o.kind = OpKind.prog) ∧
  (∃ o ∈ (programming.op 7), o.phase = OpPhase.running ∧ o.kind = OpKind.prog ∧ o.started ≤ programming.tb) ∧
  (∃ o ∈ (reading.op 7), o.phase = OpPhase.running ∧ o.kind = OpKind.read) ∧
  (∃ o ∈ (erasing.op 7), o.phase = OpPhase.running ∧ o.kind = OpKind.erase) ∧
  (∃ o ∈ (reading.op 7), o.phase = OpPhase.running) ∧
  ((64 ≤ 1 ∨ spaces.startDiscovery.chanState 1 ≠ 1)) ∧
  (discovering.startDiscovery.chanState 1 = 1 ∧ discovering.startDiscovery.found? 1 = none) ∧
  ((64 ≤ 1 ∨ spaces.chanState 1 ≠ 2)) ∧
  (flash.chanState 1 = 2 ∧ flash.ready Fn.BUDGET = true ∧ flash.led.sealing = none ∧ flash.get (F.FCH_TIMEOUT_ZQ_MS 1) ≠ 0 ∧
   (∀ (l : Nat), l < 16 → flash.getPart (F.FCH_LUN_STATE_STATE 1) l 2 = 1 → flash.atLun 1 l ≠ [])) ∧
  ((spaces.dropHeld .firmware).blocked .firmware (32 + 1) 16 = none ∧ (spaces.dropHeld .firmware).mode ≠ Md.SERVICE ∧
   (spaces.dropHeld .firmware).dbgLevel ≠ 2) ∧
  ((flashService.dropHeld .firmware).blocked .firmware (32 + 1) 16 = none ∧ (flashService.dropHeld .firmware).mode = Md.SERVICE ∧
   (flashService.dropHeld .firmware).chanState 1 = 2) ∧
  ((flashService.dropHeld .firmware).blocked .firmware (32 + 9) 16 = none ∧ (flashService.dropHeld .firmware).mode = Md.SERVICE ∧
   (flashService.dropHeld .firmware).chanState 9 ≠ 2) := by
  refine ⟨?_, ?_, ?_, ?_, ?_, ?_, ?_, ?_, ?_, ?_, ?_, ?_, ?_⟩ <;> decide +kernel

/-- States and operands for each clause of DecodingScrubAndGrooming. -/
theorem wit_DecodingScrubAndGrooming :
  ((spaces.esc? 3 = none ∨ spaces.ready Fn.LDPC = false)) ∧
  (decoding.ready Fn.LDPC = true ∧ false = false ∧ (∃ e ∈ (decoding.esc? 3), e.step = 1 ∧ (decoding.unit e.ua).isSome = true)) ∧
  ((noScrub.ready Fn.SCRUB = false ∨ noScrub.get F.SCRUB_CFG_TRACK_REFRESH_S = 0 ∨ noScrub.get F.SCRUB_CTL_EN = 0)) ∧
  (spaces.ready Fn.SCRUB = true ∧ spaces.get F.SCRUB_CFG_TRACK_REFRESH_S ≠ 0 ∧ spaces.get F.SCRUB_CTL_EN = 1 ∧ spaces.led.sealing = none) ∧
  (tracking.track 1 0 ≠ 0 ∧ tracking.chanState 1 = 2 ∧ tracking.getPart (F.FCH_LUN_STATE_STATE 1) 0 2 = 1) ∧
  (noScrub.ready Fn.SCRUB = false) ∧
  (spaces.ready Fn.SCRUB = true ∧ spaces.get F.SCRUB_CTL_EN = 1 ∧ spaces.led.sealing = none ∧ spaces.mode ≠ Md.REST ∧
   spaces.mode ≠ Md.SEAL ∧ spaces.map.scrub = none ∧ spaces.passBands = [] ∧ spaces.tb < 2 ^ 64) ∧
  (scrubbing.ready Fn.SCRUB = true ∧ scrubbing.get F.SCRUB_CTL_EN = 1 ∧ scrubbing.led.sealing = none ∧ scrubbing.mode ≠ Md.REST ∧
   scrubbing.mode ≠ Md.SEAL ∧ scrubbing.validCount 2 ≠ 0 ∧ (∃ p ∈ scrubbing.map.scrub, p.bands = [2, 3] ∧ p.behind = true ∧
   p.page < 64 * scrubbing.bandStripes ∧ scrubbing.planePage 2 p.page ≠ [])) ∧
  ((off.isl 6 ≠ 2 ∨ off.ready Fn.MCACHE = false)) ∧
  (spaces.isl 6 = 2 ∧ spaces.ready Fn.MCACHE = true) ∧
  ((36 ≤ 3 ∨ (spaces.group 3).band ≠ none ∨ (spaces.group 3).queue = [] ∨ spaces.ready Fn.JOURNAL = false)) ∧
  ((openingNone.group 3).band = none ∧ (openingNone.group 3).queue ≠ [] ∧ openingNone.ready Fn.JOURNAL = true ∧
   openingNone.led.sealing = none ∧ openingNone.ready Fn.MAP_FULL = false ∧ openingNone.bootBands = []) ∧
  ((openingBoot.group 3).band = none ∧ (openingBoot.group 3).queue ≠ [] ∧ openingBoot.ready Fn.JOURNAL = true ∧
   openingBoot.led.sealing = none ∧ openingBoot.ready Fn.MAP_FULL = false ∧
   openingBoot.byWear (decide (3 = 35)) openingBoot.bootBands = some 5) ∧
  ((noFree.group 3).band = none ∧ (noFree.group 3).queue ≠ [] ∧ noFree.ready Fn.JOURNAL = true ∧ noFree.led.sealing = none ∧
   noFree.ready Fn.MAP_FULL = true ∧ noFree.get F.MAP_CFG_RSV_BANDS ≤ noFree.bandsIn BandState.bootRsv ∧ noFree.ready Fn.GROOM = false ∧
   noFree.freeBands < 1) ∧
  ((bands60.group 3).band = none ∧ (bands60.group 3).queue ≠ [] ∧ bands60.ready Fn.JOURNAL = true ∧ bands60.led.sealing = none ∧
   bands60.ready Fn.MAP_FULL = true ∧ bands60.get F.MAP_CFG_RSV_BANDS ≤ bands60.bandsIn BandState.bootRsv ∧
   bands60.ready Fn.GROOM = false ∧ 1 ≤ bands60.freeBands ∧ bands60.byWear (decide (3 = 35)) bands60.erasedBands = some 0) ∧
  (spaces.byWear false [2, 3] = some 2) ∧
  (spaces.byWear true [2, 3] = some 2) ∧
  (scrubbing.greedy = some 2 ∧ (∃ e ∈ scrubbing.map.ts.bands, e.snd.state = BandState.closed ∧ scrubbing.validCount e.fst ≠ 0)) ∧
  ((bands60.ready Fn.GROOM = false ∨ bands60.mode = Md.SEAL ∨ bands60.mode = Md.REST)) ∧
  (spaces.ready Fn.GROOM = true ∧ spaces.led.sealing = none ∧ spaces.mode ≠ Md.SEAL ∧ spaces.mode ≠ Md.REST ∧
   spaces.dropVictims.nextVictim = none) ∧
  (groomMode.ready Fn.GROOM = true ∧ groomMode.led.sealing = none ∧ groomMode.mode ≠ Md.SEAL ∧ groomMode.mode ≠ Md.REST ∧
   groomMode.dropVictims.map.victims = [] ∧ groomMode.dropVictims.nextVictim.isSome = true) ∧
  (victims2.ready Fn.GROOM = true ∧ victims2.led.sealing = none ∧ victims2.mode ≠ Md.SEAL ∧ victims2.mode ≠ Md.REST ∧
   2 ≤ victims2.dropVictims.map.victims.length) ∧
  ((3 < 32 ∨ 36 ≤ 3 ∨ (spaces.group 3).band = none)) ∧
  (opening.led.sealing = none ∧ (opening.group 33).band = some 3) := by
  refine ⟨?_, ?_, ?_, ?_, ?_, ?_, ?_, ?_, ?_, ?_, ?_, ?_, ?_, ?_, ?_, ?_, ?_, ?_, ?_, ?_, ?_, ?_, ?_, ?_⟩ <;> decide +kernel


/-! ### Witnesses: the DRAM and the pair -/

/-- A DRAM of 1 MiB on three channels. -/
def dram : State := st spaces [(F.DRAMC_SIZE_BYTES, 2 ^ 20), (F.DRAMC_GEOM_CHANNELS, 3), (F.SCRUB_CFG_DRAM_PATROL_H, 24), (F.DRAMC_STATUS_INIT_DONE, 1), (F.DRAMC_ORDERING, 1), (F.DRAMC_REFRESH_RETRAIN_MS, 100), (F.DRAMC_REFRESH_DRIFT_PS, 10)]
/-- A write waits, and a row is open. -/
def dramQueued : State := run (.dramWrite 0 64 [1, 2, 3, 4] false) { dram with dram := { dram.dram with rows := [(0, 1, 5), (1, 1, 6)], sweep := 3 } }
/-- Two writes to one chunk wait. -/
def dramTwo : State := run (.dramWrite 0 64 [5, 6] false) dramQueued
/-- The DRAM is not there. -/
def dramOff : State := islands 0 spaces
/-- Forwarding is not on. -/
def dramWaits : State := dram.set F.DRAMC_ORDERING 0
/-- A pair in a state. -/
def paired (p : Nat) (lead : Bool) (s : State) : State := onPair (pinned (st s [(F.PAIR_STATUS_ALIGNED, 1), (F.PAIR_STATUS_FSTATE, 2), (F.PAIR_CTL_EN, 1)]) (fun x => { x with peerFitted := true }))
  (fun x => { x with pstate := p, lead := lead, unacked := [(0, 3, 1, 1), (2, 4, 1, 1)], used := [5, 6, 7] })
/-- It leads, CONVERGING. -/
def leads3 : State := paired 3 true spaces
/-- It follows, CONVERGING. -/
def follows3 : State := paired 3 false spaces
/-- It leads, MIRRORING. -/
def mirrors : State := paired 4 true (buffered spaces)
/-- It follows, MIRRORING. -/
def mirrored : State := paired 4 false spaces
/-- ALONE. -/
def alone : State := paired 2 true spaces
/-- ALONE, with the token. -/
def aloneToken : State := onPair alone (fun x => { x with token := true })
/-- ALONE, and it has diverged. -/
def aloneDiv : State := onNv alone (fun n => { n with div := [3] })
/-- Its link is down. -/
def linkless : State := onPair (st alone [(F.PAIR_STATUS_ALIGNED, 0), (F.PAIR_STATUS_FSTATE, 1)]) (fun x => { x with pstate := 1 })
/-- No peer. -/
def unpaired : State := onPair (st alone [(F.PAIR_STATUS_ALIGNED, 0), (F.PAIR_STATUS_FSTATE, 0)]) (fun x => { x with pstate := 0 })
/-- The link stops. -/
def pairStops : State := leads3.set F.PAIR_STATUS_FSTATE 3
/-- A beat. -/
def aBeat : BeatMsg := ⟨true, false, 0, false, 0, 3, 2, 100⟩
/-- A beat without a token. -/
def plainBeat : BeatMsg := ⟨false, true, 1, true, 1, 3, 5, 100⟩
/-- A slot of the peer's. -/
def slotMsg : SlotMsg := ⟨1, 1, 5, 1, 2, 0, 2 ^ 59 + 8, 0x0F, 7, 1, [1, 2, 3, 4, 5, 6, 7, 8]⟩
/-- What the peer says of itself. -/
def anIdent : Ident := ⟨5, none, 1, false, 0, [(1, 100000, 0)], [], [], []⟩
/-- A result of a frame. -/
def aResult : PResult := ⟨2, 1, 7, 0, 64, 0, 5, 5, 9, 0⟩
/-- A relayed command and records wait. -/
def relaying : State := onPair leads3 (fun x => { x with relays := [⟨3, 2, cid 1 5, [1, 0, 0]⟩], recSeq := 4, recAcked := 1, recNext := 2 })
/-- It is the target of convergence. -/
def target : State := onPair follows3 (fun x => { x with target := true, left := [2 ^ 44] })
/-- It copies, with segments left. -/
def converging (l : List Nat) : State := onPair leads3 (fun x => { x with converging := true, left := l, takesLeft := [1] })
/-- None is left. -/
def convergedAll : State := converging []
/-- A unit of the next segment is in the buffer. -/
def convergingHeld : State := { converging [2 ^ 44] with slots := [{ aSlot 1 .durable with key := 2 ^ 59 + 8 }] }
/-- The identity has been sent. -/
def identSent : State := onPair alone (fun x => { x with identOut := true })
/-- Snapshots of the peer's are taken. -/
def peerIn : State := leads3.set F.SNAP_CFG_PEER_IN 1
/-- Another feed. -/
def otherFeed : State := leads3.set F.PAIR_CFG_FEED 1
/-- The link is not there. -/
def noLink : State := without Fn.PAIR_LINK spaces

/-- States and operands for each clause of DramRequestsAndRefresh. -/
theorem wit_DramRequestsAndRefresh :
  (dram.dramOn = true ∧ dram.dram.mem.wf = true ∧ dram.nv.store.wf = true ∧ dram.dramSize ≤ 2 ^ 20) ∧
  (dram.dramOn = true ∧ dram.dram.mem.wf = true ∧ dram.nv.store.wf = true ∧ 64 < dram.dramSize ∧ dram.dram.waiting = [] ∧
   dram.queueRoom { n := dram.dram.nextW, client := 1, fwd := dram.forwards 1, addr := 64, data := [1, 2, 300], poison := true } = true) ∧
  (dram.dramOn = true ∧ dram.dram.mem.wf = true ∧ dram.nv.store.wf = true ∧ List.find? (fun w => decide (w.n = 1)) dram.dram.queue = none) ∧
  (dramTwo.dramOn = true ∧ dramTwo.dram.mem.wf = true ∧ dramTwo.nv.store.wf = true ∧
   (∃ w ∈ (List.find? (fun w => decide (w.n = 2)) dramTwo.dram.queue), dramTwo.mayIssue w = false)) ∧
  (dramQueued.dramOn = true ∧ dramQueued.dram.mem.wf = true ∧ dramQueued.nv.store.wf = true ∧
   (∃ w ∈ (List.find? (fun w => decide (w.n = 1)) dramQueued.dram.queue), dramQueued.mayIssue w = true)) ∧
  (dramQueued.dramOn = true ∧ dramQueued.dram.mem.wf = true ∧ dramQueued.nv.store.wf = true ∧ 64 < dramQueued.dramSize ∧
   dramQueued.chunkPoison 1 64 = false ∧ dramQueued.visibleWrites 1 64 ≠ []) ∧
  (dram.dramOn = true ∧ dram.dram.mem.wf = true ∧ dram.nv.store.wf = true ∧ 64 < dram.dramSize ∧ dram.chunkPoison 1 64 = false ∧
   dram.visibleWrites 1 64 = []) ∧
  (dram.dramOn = true ∧ dram.dram.mem.wf = true ∧ dram.nv.store.wf = true ∧ dram.mode ≠ Md.SEAL ∧ dram.mode ≠ Md.REST ∧
   dram.dram.sweep < dram.dramRegions) ∧
  (dram.dramOn = true ∧ dram.dram.mem.wf = true ∧ dram.nv.store.wf = true ∧ dram.patrols = true ∧ 0 < dram.dramSize ∧
   dram.dram.patrol + 64 < dram.dramSize ∧ dram.chunkPoison 7 dram.dram.patrol = false) ∧
  (dramOff.dramOn = false) ∧
  (dram.dramOn = true ∧ dram.mixed Pg.DRAMC = false) ∧
  (dram.dramOn = true ∧ dram.mode ≠ Md.SEAL ∧ dram.get F.DRAMC_REFRESH_RETRAIN_MS ≠ 0 ∧ 1 < dram.dramChans) := by
  refine ⟨?_, ?_, ?_, ?_, ?_, ?_, ?_, ?_, ?_, ?_, ?_, ?_⟩ <;> decide +kernel

/-- States and operands for each clause of PairLinkFrames. -/
theorem wit_PairLinkFrames :
  (leads3.pairUp = true ∧ leads3.get (F.FI_CFG_TARGET 1) = 0 ∧ leads3.pair.rxSeq.length = 3 ∧ 0 % 65536 = leads3.pair.rxSeq.getD 0 0) ∧
  (leads3.pairUp = true ∧ leads3.get (F.FI_CFG_TARGET 1) = 0 ∧ leads3.pair.rxSeq.length = 3 ∧
   (false = false ∨ 0 % 65536 ≠ leads3.pair.rxSeq.getD 0 0) ∧ false = false) ∧
  (leads3.pairUp = true ∧ leads3.get F.PAIR_STATUS_FSTATE ≠ 3) ∧
  (leads3.pairUp = true ∧ leads3.pair.txq = []) ∧
  ((∀ (f : Nat × Nat × Nat × Nat), f ∈ leads3.pair.unacked → f.fst ≠ 1)) ∧
  (linkless.pairUp = false) := by
  refine ⟨?_, ?_, ?_, ?_, ?_, ?_⟩ <;> decide +kernel

/-- States and operands for each clause of PairRolesAndLoss. -/
theorem wit_PairRolesAndLoss :
  (aloneToken.pair.token ≠ aloneToken.pair.peerTok) ∧
  (aloneDiv.pair.token = aloneDiv.pair.peerTok ∧ aloneDiv.divergent ≠ aloneDiv.pair.peerDiv) ∧
  (leads3.pair.token = leads3.pair.peerTok ∧ leads3.divergent = leads3.pair.peerDiv) ∧
  (linkless.pair.pstate < 2) ∧
  (2 ≤ leads3.pair.pstate ∧ leads3.pair.relays = [] ∧ leads3.pair.held = [] ∧ (∀ (x : Slot), x ∈ leads3.slots → x.lst ≠ SlotList.mirror) ∧
   leads3.host.cmds = []) ∧
  (mirrors.pairUp = true ∧ mirrors.pair.pstate ≠ 3 ∧ aBeat.pstate ≠ 5 ∧ aBeat.token = mirrors.pair.peerTok) ∧
  (leads3.pairUp = true) ∧
  (linkless.pairUp = false) ∧
  (mirrors.mirroring = true ∧ (mirrors.slots.any fun x => decide (x.lst = SlotList.mirror)) = true) ∧
  ((leads3.slots.any fun x => decide (x.lst = SlotList.mirror)) = false) ∧
  (off.isl 4 ≠ 2) ∧
  (unpaired.isl 4 = 2 ∧ unpaired.pair.pstate = 0 ∧ unpaired.get F.PAIR_CTL_EN = 1 ∧ unpaired.get F.PAIR_STATUS_ALIGNED = 0 ∧
   unpaired.get F.PAIR_STATUS_FSTATE ≠ 3) ∧
  (leads3.pair.pstate ≠ 1) ∧
  ((pairStops.dropHeld .firmware).blocked .firmware Pg.PAIR 16 = none ∧ (pairStops.dropHeld .firmware).rwMode Pg.PAIR = true ∧
   pairStops.get F.PAIR_STATUS_FSTATE = 3) ∧
  ((leads3.dropHeld .firmware).blocked .firmware Pg.PAIR 16 = none ∧ (leads3.dropHeld .firmware).rwMode Pg.PAIR = true ∧
   leads3.get F.PAIR_STATUS_FSTATE = 2 ∧ leads3.pair.relays = []) ∧
  ((unpaired.dropHeld .firmware).blocked .firmware Pg.PAIR 16 = none ∧ (unpaired.dropHeld .firmware).rwMode Pg.PAIR = true ∧
   unpaired.get F.PAIR_STATUS_FSTATE = 0) := by
  refine ⟨?_, ?_, ?_, ?_, ?_, ?_, ?_, ?_, ?_, ?_, ?_, ?_, ?_, ?_, ?_, ?_⟩ <;> decide +kernel

/-- States and operands for each clause of PairMessages. -/
theorem wit_PairMessages :
  (linkless.pairUp = false) ∧
  (follows3.pairUp = true ∧ follows3.fi.pairHit = false ∧ follows3.follows = true ∧ (slotMsg.kind = 1 ∨ slotMsg.kind = 2)) ∧
  (leads3.pairUp = true ∧ leads3.fi.pairHit = false ∧ leads3.leads = true ∧ slotMsg.kind ≠ 3) ∧
  (mirrors.pairUp = true ∧ mirrors.mirroring = true ∧
   (mirrors.slots.any fun x => decide (x.seq = 6) && decide (x.lst = SlotList.mirror)) = true) ∧
  (follows3.pairUp = true ∧ follows3.follows = true ∧ 1 = follows3.pair.recNext + 1) ∧
  (leads3.pairUp = true ∧ 2 ≠ leads3.pair.recNext + 1) ∧
  (relaying.pairUp = true ∧ relaying.pair.recAcked < 2 ∧ 2 ≤ relaying.pair.recSeq ∧ relaying.pair.held = []) ∧
  (leads3.pairUp = true ∧ leads3.mirroring = true) ∧
  (leads3.pairUp = true ∧ (leads3.pair.pstate ≠ 3 ∨ leads3.pair.target = false)) ∧
  (target.pairUp = true ∧ target.pair.pstate = 3 ∧ target.pair.target = true ∧ target.map.ts.map = []) ∧
  (follows3.pairUp = true ∧ follows3.follows = true ∧ 2 ≠ RL_MODE) ∧
  (leads3.pairUp = true ∧ List.find? (fun r => decide (r.n = 3)) leads3.pair.relays = none) ∧
  (relaying.pairUp = true ∧ (List.find? (fun r => decide (r.n = 3)) relaying.pair.relays).isSome = true) ∧
  (relaying.pairUp = true ∧ (∃ r ∈ (List.find? (fun r => decide (r.n = 3)) relaying.pair.relays), r.cmd ≠ RL_MODE)) ∧
  (peerIn.pairUp = true ∧ peerIn.get F.SNAP_CFG_PEER_IN = 1) ∧
  (leads3.pairUp = true ∧ leads3.get F.SNAP_CFG_PEER_IN = 0) ∧
  (convergedAll.pairUp = true ∧ convergedAll.leads = true ∧ convergedAll.pair.pstate = 3 ∧ convergedAll.pair.converging = true ∧
   (convergedAll.mode = Md.IDLE ∨ convergedAll.mode = Md.GROOM) ∧ convergedAll.pair.left = []) ∧
  (convergingHeld.pairUp = true ∧ convergingHeld.leads = true ∧ convergingHeld.pair.pstate = 3 ∧ convergingHeld.pair.converging = true ∧
   (convergingHeld.mode = Md.IDLE ∨ convergingHeld.mode = Md.GROOM) ∧ convergingHeld.pair.left = [17592186044416] ∧
   (convergingHeld.slots.any fun x => decide (keySeg x.key = 17592186044416)) = true) ∧
  ((noLink.isl 4 ≠ 2 ∨ noLink.pins.peerFitted = false ∨ noLink.get F.PAIR_STATUS_FSTATE = 0 ∨ noLink.get F.PAIR_STATUS_FSTATE = 3)) ∧
  (identSent.isl 4 = 2 ∧ identSent.pins.peerFitted = true ∧ identSent.get F.PAIR_STATUS_FSTATE = 2 ∧ identSent.pair.identOut = true ∧
   identSent.needsOk Fn.PAIR_LINK = true ∧ identSent.getBit F.SYS_FUNC_FAULT_FAULT Fn.PAIR_LINK = false) ∧
  (otherFeed.get F.PAIR_CFG_FEED ≠ anIdent.feed) ∧
  (noLink.mayFetch (Src.host 0) = true ∧ List.find? (fun a => decide (a.sq = 0) && decide (a.cid = 5)) noLink.host.aborts = none ∧
   (noLink.atFetch (cid 0 5)).ready Fn.PAIR_LINK = false) ∧
  (leads3.mayFetch (Src.host 0) = true ∧ List.find? (fun a => decide (a.sq = 0) && decide (a.cid = 5)) leads3.host.aborts = none ∧
   (leads3.atFetch (cid 0 5)).ready Fn.PAIR_LINK = true) ∧
  (linkless.mayFetch (Src.host 0) = true ∧ List.find? (fun a => decide (a.sq = 0) && decide (a.cid = 5)) linkless.host.aborts = none ∧
   (linkless.atFetch (cid 0 5)).ready Fn.PAIR_LINK = true ∧ (linkless.atFetch (cid 0 5)).mode = Md.IDLE ∧
   (linkless.atFetch (cid 0 5)).mirroring = false) := by
  refine ⟨?_, ?_, ?_, ?_, ?_, ?_, ?_, ?_, ?_, ?_, ?_, ?_, ?_, ?_, ?_, ?_, ?_, ?_, ?_, ?_, ?_, ?_, ?_, ?_⟩ <;> decide +kernel


/-! ### Witnesses: the ports, the dock, the mailboxes, SDMA and the check value units -/

/-- Both ports run, with leases. -/
def ports : State := st spaces [(F.NET_STATUS_FSTATE 0, 2), (F.NET_STATUS_FSTATE 1, 2), (F.NET_STATUS_LINK 0, 1), (F.NET_STATUS_LINK 1, 1), (F.NET_CTL_EN 0, 1), (F.NET_CTL_EN 1, 1), (F.NET_IPV4_DHCP 0, 1), (F.NET_IPV4_LEASE_ADDR 0, 77), (F.NET_IPV4_LEASE_ADDR 1, 77), (F.NET_IPV4_DHCP 1, 1), (F.NET_CFG_PAUSE_RX 1, 1)]
/-- They start. -/
def portsStart : State := st spaces [(F.NET_STATUS_FSTATE 0, 1), (F.NET_CTL_EN 0, 1), (F.NET_STATUS_FSTATE 1, 1), (F.NET_CTL_EN 1, 1), (F.NET_CFG_FEC 0, 1)]
/-- Without DHCP. -/
def portsStatic : State := ports.set (F.NET_IPV4_DHCP 0) 0
/-- PAUSE frames are not honoured. -/
def portsDeaf : State := st ports [(F.NET_CFG_PAUSE_RX 0, 0), (F.NET_CFG_PAUSE_RX 1, 0)]
/-- A controller of the dock's. -/
def aCtrl : Ctrl := ⟨false, 5, 0, 0, 100, [], [], [], 0⟩
/-- Offload, with connections. -/
def docked : State := { md 6 ports with net := { ports.net with nextConn := 40, ctrls := [(1, aCtrl)], conns := [(1, ⟨0, false, none, none, 0, 0⟩), (2, ⟨1, true, some (false, false), none, 0, 0⟩), (3, ⟨0, false, some (true, false), some 1, 0, 31⟩), (4, ⟨0, false, some (true, false), some 1, 1, 31⟩)] } }
/-- 32 connections. -/
def dockFull : State := { docked with net := { docked.net with conns := (List.range 32).map (fun i => (i + 1, ⟨0, false, none, none, 0, 0⟩)) } }
/-- Every controller is given. -/
def dockGiven : State := { docked with net := { docked.net with ctrls := (ctrlIds true ++ ctrlIds false).map (fun k => (k, aCtrl)) } }
/-- A write of the dock's is ready for its data. -/
def dockWrite : State := { onHost docked (fun h => { h with cmds := [{ id := ⟨.dock 4, 5⟩, op := .write, nsid := 1, slba := 8, nlb := 1 }] }) with slots := [{ aSlot 9 .filling with owner := .cmd ⟨.dock 4, 5⟩ }] }
/-- Connections close. -/
def dockCloses : State := docked.set F.NVTCP_STATUS_CLOSING 1
/-- Offload ends. -/
def dockEnds : State := { docked with mc := { docked.mc with offCause := some 5 } }
/-- Idle, with the dock's connections. -/
def dockIdle : State := md 3 docked
/-- The link of port 0 is down. -/
def portDown : State := ports.set (F.NET_STATUS_LINK 0) 0
/-- A block of each direction at a state. -/
def blocks (n : Nat) (s : State) : State := st s ((List.range 4).map (fun d => (F.MBX_BLK_STATE_STATE d, n)))
/-- Queues of each direction with n words. -/
def queues (n : Nat) (s : State) : State := (List.range 4).foldl (fun s d => s.setQueue d (List.range n)) s
/-- Blocks that are posted. -/
def posted : State := blocks 1 spaces
/-- Blocks that are done. -/
def doneBlocks : State := blocks 2 spaces
/-- Full queues. -/
def queues64 : State := queues 64 spaces
/-- Queues with five words. -/
def queues5 : State := queues 5 spaces
/-- The header of a request. -/
def reqHeader (t n : Nat) : Nat := n + t * 256 + 0x12345 * 65536
/-- Words in the queue to the firmware's service. -/
def asked (ws : List Nat) : State := spaces.setQueue 0 ws
/-- A Ping. -/
def askPing : State := asked [reqHeader 1 2, 5, 6]
/-- A Ping with a wrong count. -/
def askPingShort : State := { spaces with mbx := { spaces.mbx with served := [⟨2, [reqHeader 1 3, 5, 6], 5⟩] } }
/-- A read. -/
def askRead : State := asked [reqHeader 2 1, 0x3028]
/-- A read that security denies. -/
def askReadDenied : State := (asked [reqHeader 2 1, 0x14100]).set F.SEC_STATUS_STATE 2
/-- A write. -/
def askWrite : State := asked [reqHeader 3 2, 0x3028, 5]
/-- A mode. -/
def askMode : State := asked [reqHeader 4 1, 5]
/-- A mode with a second word. -/
def askMode2 : State := asked [reqHeader 4 2, 5, 6]
/-- Information. -/
def askInfo : State := asked [reqHeader 5 0]
/-- Information, with a word. -/
def askInfo1 : State := asked [reqHeader 5 1, 3]
/-- A request for the peer. -/
def askForward : State := asked [reqHeader 6 3, reqHeader 1 2, 5, 6]
/-- The same with no peer. -/
def askForwardNone : State := without Fn.MBX_P askForward
/-- A page of a log. -/
def askLog : State := asked [reqHeader 7 1, 2 + 8 * 256]
/-- No words of it. -/
def askLog0 : State := asked [reqHeader 7 1, 2]
/-- A forwarded request waits. -/
def forwarded : State := { spaces with mbx := { spaces.mbx with fwd := [(3, ⟨0, [reqHeader 6 3, reqHeader 1 2, 5, 6], 9⟩)], fwdN := 3 } }
/-- A header whose words do not come. -/
def headerOnly : State := asked [reqHeader 1 5, 5, 6]
/-- A field of every SDMA channel. -/
def onSdma (f : Nat → Field) (v : Nat) (s : State) : State := st s ((List.range 8).map (fun n => (f n, v)))
/-- SDMA channels, RUNNING. -/
def sdma : State := onSdma F.SDMA_STATUS_FSTATE 2 (onSdma F.SDMA_CTL_EN 1 (onSdma F.SDMA_SRC_ADDR 4096 (onSdma F.SDMA_DST_ADDR (2 ^ 60 + 8192) (onSdma F.SDMA_COUNT_BYTES 64 (st spaces [(F.DRAMC_SIZE_BYTES, 2 ^ 20), (F.DRAMC_GEOM_CHANNELS, 3)])))))
/-- RUN of every channel. -/
def sdmaRun (r : Nat) (s : State) : State := onSdma F.SDMA_STATUS_RUN r s
/-- Channels that run. -/
def sdmaRuns : State := sdmaRun 1 sdma
/-- Channels that have paused. -/
def sdmaPaused : State := sdmaRun 2 (onSdma F.SDMA_CTL_PAUSE 1 sdma)
/-- PAUSE is set. -/
def sdmaHold : State := onSdma F.SDMA_CTL_PAUSE 1 sdma
/-- A source that is not aligned. -/
def sdmaOdd : State := onSdma F.SDMA_SRC_ADDR 4100 sdma
/-- Rings of descriptors. -/
def sdmaRing : State := onSdma F.SDMA_CTL_MODE 1 (onSdma F.SDMA_DESC_BASE_ADDR (2 ^ 60 + 4096) (onSdma F.SDMA_DESC_CFG_N 16 sdma))
/-- Channels that stop. -/
def sdmaStops : State := onSdma F.SDMA_STATUS_FSTATE 3 sdma
/-- Channels that are off. -/
def sdmaOff : State := onSdma F.SDMA_STATUS_FSTATE 0 sdma
/-- A transfer runs. -/
def moving (x : Xfer) (s : State) : State := { sdmaRun 1 s with sdma := { s.sdma with xfers := [(1, x), (5, x)] } }
/-- A transfer, with OWNER the firmware. -/
def sdmaMoves : State := onSdma F.SDMA_STATUS_OWNER 1 (moving ⟨64, none, false, false⟩ sdma)
/-- A descriptor is fetched. -/
def sdmaFetches : State := onSdma F.SDMA_STATUS_OWNER 1 (moving ⟨0, none, false, true⟩ sdmaRing)
/-- A transfer, with PAUSE set. -/
def sdmaMovesHold : State := moving ⟨64, none, false, false⟩ sdmaHold
/-- A transfer between addresses that are not there. -/
def sdmaNowhere : State := islands 0 sdmaMoves
/-- A poisoned source. -/
def sdmaPoison : State := { sdmaMoves with dram := { sdmaMoves.dram with poison := [64] } }
/-- The bytes of a descriptor. -/
def descriptor (src dst n ctrl : Nat) : List Nat := bytesOf 8 src ++ bytesOf 8 dst ++ bytesOf 4 n ++ bytesOf 1 ctrl ++ bytesOf 3 0 ++ bytesOf 8 0
/-- Check value units: 1 has no limit, 2 a limit of 16 bytes, 3 has reached its own. -/
def crcUnits : State := st spaces [(F.CRCU_CFG_EN 1, 1), (F.CRCU_CFG_POLY 1, 1), (F.CRCU_CFG_EN 2, 1), (F.CRCU_CFG_POLY 2, 2), (F.CRCU_LIMIT_BYTES 2, 16), (F.CRCU_CFG_EN 3, 1), (F.CRCU_CFG_SRC 3, 2), (F.CRCU_LIMIT_BYTES 3, 4), (F.CRCU_BYTES_COUNT 3, 4)]

/-- States and operands for each clause of EthernetPorts. -/
theorem wit_EthernetPorts :
  ((ports.dropHeld .firmware).blocked .firmware (Pg.NET0 + 0) 16 = none ∧ (ports.dropHeld .firmware).rwMode (Pg.NET0 + 0) = true ∧
   ports.get (F.NET_STATUS_FSTATE 0) = 2) ∧
  ((spaces.dropHeld .firmware).blocked .firmware (Pg.NET0 + 0) 16 = none ∧ (spaces.dropHeld .firmware).rwMode (Pg.NET0 + 0) = true ∧
   spaces.get (F.NET_STATUS_FSTATE 0) = 0) ∧
  ((ports.get (F.NET_STATUS_FSTATE 0) = 0 ∨ ports.get (F.NET_STATUS_LINK 0) = 1 ∨ ports.isl 5 ≠ 2)) ∧
  (portsStart.isl 5 = 2 ∧ portsStart.get (F.NET_STATUS_FSTATE 0) = 1 ∧ portsStart.get (F.NET_STATUS_LINK 0) = 0 ∧
   portsStart.get (F.NET_CTL_EN 0) = 1) ∧
  ((portsStart.get (F.NET_STATUS_LINK 0) = 0 ∨ portsStart.get (F.NET_IPV4_DHCP 0) = 0)) ∧
  (ports.get (F.NET_STATUS_LINK 0) = 1 ∧ ports.get (F.NET_IPV4_DHCP 0) = 1) ∧
  (ports.get (F.NET_STATUS_LINK 0) = 1 ∧ ports.get (F.FI_CFG_STATE (2 + 0)) = 0 ∧ ports.fi.net = [] ∧ ports.net.heldTx = [] ∧
   ports.get (F.NET_CFG_PAUSE_RX 0) = 1) ∧
  (portsDeaf.get (F.NET_STATUS_LINK 0) = 1 ∧ portsDeaf.get (F.FI_CFG_STATE (2 + 0)) = 0 ∧ portsDeaf.fi.net = [] ∧
   portsDeaf.net.heldTx = [] ∧ portsDeaf.get (F.NET_CFG_PAUSE_RX 0) = 0) ∧
  (ports.get (F.NET_STATUS_LINK 0) = 1 ∧ ports.get (F.FI_CFG_STATE (2 + 0)) = 0 ∧ ports.fi.net = [] ∧ ports.net.heldTx = [] ∧
   ports.ownAddr 0 77 false = true) ∧
  (ports.get (F.NET_STATUS_LINK 0) = 1 ∧ ports.get (F.FI_CFG_STATE (2 + 0)) = 0 ∧ ports.fi.net = [] ∧ ports.net.heldTx = [] ∧
   ports.ownAddr 0 77 true = false) := by
  refine ⟨?_, ?_, ?_, ?_, ?_, ?_, ?_, ?_, ?_, ?_⟩ <;> decide +kernel

/-- States and operands for each clause of DockConnections. -/
theorem wit_DockConnections :
  ((ports.get (F.NET_STATUS_LINK 0) = 0 ∨ ports.ownAddr 0 77 true = false)) ∧
  (ports.get (F.NET_STATUS_LINK 0) = 1 ∧ ports.get (F.FI_CFG_STATE (2 + 0)) = 0 ∧ ports.fi.net = [] ∧ ports.net.heldTx = [] ∧
   ports.hasAddr 0 = true ∧ ports.ownAddr 0 77 false = true ∧ (32 ≤ List.length ports.net.conns ∨ 5 ≠ ports.get F.NVTCP_CFG_IO_PORT ∧
   5 ≠ ports.get F.NVTCP_CFG_DISC_PORT)) ∧
  (ports.get (F.NET_STATUS_LINK 0) = 1 ∧ ports.get (F.FI_CFG_STATE (2 + 0)) = 0 ∧ ports.fi.net = [] ∧ ports.net.heldTx = [] ∧
   ports.hasAddr 0 = true ∧ ports.ownAddr 0 77 false = true ∧ List.length ports.net.conns < 32 ∧
   (4420 = ports.get F.NVTCP_CFG_IO_PORT ∨ 4420 = ports.get F.NVTCP_CFG_DISC_PORT) ∧ ports.ready Fn.NVTCP = true ∧ ports.dockMode = true) ∧
  (ports.net.conns.find? 1 = none) ∧
  ((docked.net.conns.find? 1).isSome = true) ∧
  (∃ c ∈ (docked.net.conns.find? 1), c.port < 2 ∧ docked.get (F.NET_STATUS_LINK c.port) = 1 ∧
   docked.get (F.FI_CFG_STATE (2 + c.port)) = 0 ∧ docked.fi.net = [] ∧ docked.net.heldTx = [] ∧ c.ic = none) ∧
  (∃ c ∈ (docked.net.conns.find? 1), c.ic = none) ∧
  (∃ c ∈ (dockCloses.net.conns.find? 2), c.ic ≠ none ∧ c.ctrl = none ∧ (dockCloses.tcpRx c.port).ready Fn.NVTCP = true ∧
   (dockCloses.tcpRx c.port).dockMode = true ∧ (dockCloses.tcpRx c.port).get F.NVTCP_STATUS_CLOSING = 1) ∧
  (∃ c ∈ (docked.net.conns.find? 2), c.ic ≠ none ∧ c.ctrl = none ∧ (docked.tcpRx c.port).ready Fn.NVTCP = true ∧
   (docked.tcpRx c.port).dockMode = true ∧ (docked.tcpRx c.port).get F.NVTCP_STATUS_CLOSING = 0 ∧
   List.find? (fun k => ((docked.tcpRx c.port).net.ctrls.find? k).isNone) (ctrlIds c.disc) = some 5) ∧
  (∃ c ∈ (dockGiven.net.conns.find? 2), c.ic ≠ none ∧ c.ctrl = none ∧ (dockGiven.tcpRx c.port).ready Fn.NVTCP = true ∧
   (dockGiven.tcpRx c.port).dockMode = true ∧ (dockGiven.tcpRx c.port).get F.NVTCP_STATUS_CLOSING = 0 ∧
   ((ctrlIds c.disc).all fun k => ((dockGiven.tcpRx c.port).net.ctrls.find? k).isSome) = true) ∧
  (ports.mode = Md.IDLE ∧ ports.inTransition = false) ∧
  (docked.mode ≠ Md.IDLE) ∧
  ((docked.propCtrl { src := Src.dock 3, cid := 5 }).isSome = true) ∧
  (∃ c ∈ (docked.propCtrl { src := Src.dock 3, cid := 5 }), bit c.snd.snd.cc 0 = false ∧
   (docked.tcpRx 0).net.ctrls.find? 1 = some c.snd.snd) ∧
  (∃ k ∈ (dockWrite.net.conns.find? 4), ((dockWrite.tcpRx k.port).cmd? { src := Src.dock 4, cid := 5 }).isSome = true) ∧
  (∃ k ∈ (dockWrite.net.conns.find? 4), (dockWrite.tcpRx k.port).allAdmitted { src := Src.dock 4, cid := 5 } = true ∧
   (dockWrite.tcpRx k.port).begun { src := Src.dock 4, cid := 5 } = true ∧ (dockWrite.tcpRx k.port).led.sealing = none ∧
   (∃ c ∈ ((dockWrite.tcpRx k.port).cmd? { src := Src.dock 4, cid := 5 }), c.op = CmdOp.write ∧ c.started = false ∧ 0 = c.data.length ∧
   sectorsOf ((Option.map (fun x => x.fmt) ((dockWrite.tcpRx k.port).ns? c.nsid)).getD 0) c.nlb ≤ (c.data ++ List.range 8).length)) ∧
  ((ports.mode ≠ Md.OFFLOAD ∨ ports.mc.offCause = none)) ∧
  (dockEnds.mode = Md.OFFLOAD ∧ dockEnds.mc.offCause ≠ none) ∧
  ((ports.dropHeld .firmware).blocked .firmware Pg.NVTCP 16 = none ∧ (ports.dropHeld .firmware).rwMode Pg.NVTCP = true) := by
  refine ⟨?_, ?_, ?_, ?_, ?_, ?_, ?_, ?_, ?_, ?_, ?_, ?_, ?_, ?_, ?_, ?_, ?_, ?_, ?_⟩ <;> decide +kernel

/-- States and operands for each clause of Mailboxes. -/
theorem wit_Mailboxes :
  ((spaces.dropHeld .sniwyn).blocked .sniwyn Pg.MBX (mbxOff 0 0) = none ∧ (spaces.dropHeld .sniwyn).rwMode Pg.MBX = true ∧
   (spaces.dropHeld .sniwyn).mbxSender 0 Req.sniwyn = true) ∧
  ((spaces.dropHeld .camera).blocked .camera Pg.MBX (mbxOff 0 0) = none ∧ (spaces.dropHeld .camera).rwMode Pg.MBX = true ∧
   (spaces.dropHeld .camera).mbxSender 0 Req.camera = false) ∧
  ((spaces.dropHeld .camera).blocked .camera Pg.MBX (mbxOff 1 0) = none ∧ (spaces.dropHeld .camera).rwMode Pg.MBX = true) ∧
  ((spaces.dropHeld .sniwyn).blocked .sniwyn Pg.MBX (mbxOff 1 8) = none ∧ (spaces.dropHeld .sniwyn).mbxReceiver 1 Req.sniwyn = true) ∧
  ((spaces.dropHeld .camera).blocked .camera Pg.MBX (mbxOff 0 8) = none ∧ (spaces.dropHeld .camera).mbxReceiver 0 Req.camera = false) ∧
  ((spaces.dropHeld .firmware).blocked .firmware Pg.MBX (mbxOff 1 32) = none ∧ (spaces.dropHeld .firmware).rwMode Pg.MBX = true ∧
   (spaces.dropHeld .firmware).mbxSender 1 Req.firmware = true ∧ (spaces.dropHeld .firmware).mayPost 1 = true ∧
   (spaces.dropHeld .firmware).get (F.MBX_BLK_STATE_STATE 1) = 0) ∧
  ((posted.dropHeld .firmware).blocked .firmware Pg.MBX (mbxOff 1 32) = none ∧ (posted.dropHeld .firmware).rwMode Pg.MBX = true ∧
   (posted.dropHeld .firmware).mbxSender 1 Req.firmware = true ∧ (posted.dropHeld .firmware).mayPost 1 = true ∧
   (posted.dropHeld .firmware).get (F.MBX_BLK_STATE_STATE 1) ≠ 0) ∧
  ((spaces.dropHeld .camera).blocked .camera Pg.MBX (mbxOff 0 32) = none ∧ (spaces.dropHeld .camera).rwMode Pg.MBX = true ∧
   (spaces.dropHeld .camera).mbxSender 0 Req.camera = false) ∧
  ((posted.dropHeld .sniwyn).blocked .sniwyn Pg.MBX (mbxOff 1 32) = none ∧ (posted.dropHeld .sniwyn).rwMode Pg.MBX = true ∧
   (posted.dropHeld .sniwyn).mbxReceiver 1 Req.sniwyn = true ∧ (posted.dropHeld .sniwyn).get (F.MBX_BLK_STATE_STATE 1) = 1) ∧
  ((spaces.dropHeld .sniwyn).blocked .sniwyn Pg.MBX (mbxOff 1 32) = none ∧ (spaces.dropHeld .sniwyn).rwMode Pg.MBX = true ∧
   (spaces.dropHeld .sniwyn).mbxReceiver 1 Req.sniwyn = true ∧ (spaces.dropHeld .sniwyn).get (F.MBX_BLK_STATE_STATE 1) ≠ 1) ∧
  ((doneBlocks.dropHeld .sniwyn).blocked .sniwyn Pg.MBX (mbxOff 0 32) = none ∧ (doneBlocks.dropHeld .sniwyn).rwMode Pg.MBX = true ∧
   (doneBlocks.dropHeld .sniwyn).mbxSender 0 Req.sniwyn = true ∧ (doneBlocks.dropHeld .sniwyn).get (F.MBX_BLK_STATE_STATE 0) = 2) ∧
  ((spaces.dropHeld .sniwyn).blocked .sniwyn Pg.MBX (mbxOff 0 32) = none ∧ (spaces.dropHeld .sniwyn).rwMode Pg.MBX = true ∧
   (spaces.dropHeld .sniwyn).mbxSender 0 Req.sniwyn = true ∧ (spaces.dropHeld .sniwyn).get (F.MBX_BLK_STATE_STATE 0) ≠ 2) ∧
  ((queues64.dropHeld .firmware).blocked .firmware Pg.MBX (mbxOff 1 40) = none ∧ (queues64.dropHeld .firmware).rwMode Pg.MBX = true ∧
   (queues64.dropHeld .firmware).mbxSender 1 Req.firmware = true ∧ 64 ≤ ((queues64.dropHeld .firmware).queue 1).length) ∧
  ((spaces.dropHeld .firmware).blocked .firmware Pg.MBX (mbxOff 1 40) = none ∧ (spaces.dropHeld .firmware).rwMode Pg.MBX = true ∧
   (spaces.dropHeld .firmware).mbxSender 1 Req.firmware = true ∧ ((spaces.dropHeld .firmware).queue 1).length < 64 ∧
   (spaces.dropHeld .firmware).mbx.qs.length = 4) ∧
  ((spaces.dropHeld .sniwyn).blocked .sniwyn Pg.MBX (mbxOff 0 40) = none ∧ (spaces.dropHeld .sniwyn).rwMode Pg.MBX = true ∧
   (spaces.dropHeld .sniwyn).mbxSender 0 Req.sniwyn = true) ∧
  ((spaces.dropHeld .sniwyn).blocked .sniwyn Pg.MBX (mbxOff 1 48) = none ∧ (spaces.dropHeld .sniwyn).rwMode Pg.MBX = true ∧
   (spaces.dropHeld .sniwyn).mbxReceiver 1 Req.sniwyn = true ∧ (5 % 128 = 0 ∨ ((spaces.dropHeld .sniwyn).queue 1).length < 5 % 128)) ∧
  ((queues64.dropHeld .sniwyn).blocked .sniwyn Pg.MBX (mbxOff 1 48) = none ∧ (queues64.dropHeld .sniwyn).rwMode Pg.MBX = true ∧
   (queues64.dropHeld .sniwyn).mbxReceiver 1 Req.sniwyn = true ∧ 5 % 128 ≤ ((queues64.dropHeld .sniwyn).queue 1).length ∧
   (queues64.dropHeld .sniwyn).mbx.qs.length = 4) ∧
  ((spaces.mode = Md.KEEP ∨ 31 < 32 ∨ 95 < 31)) ∧
  (spaces.mode ≠ Md.KEEP) ∧
  ((unready spaces).ready Fn.PAIR_LINK = false) ∧
  (spaces.ready Fn.PAIR_LINK = true) := by
  refine ⟨?_, ?_, ?_, ?_, ?_, ?_, ?_, ?_, ?_, ?_, ?_, ?_, ?_, ?_, ?_, ?_, ?_, ?_, ?_, ?_, ?_⟩ <;> decide +kernel

/-- States and operands for each clause of MailboxRequests. -/
theorem wit_MailboxRequests :
  ((2 = 1 → askPing.blockServing = false) ∧ askPing.mbxFront 2 = none) ∧
  ((0 = 1 → askPing.blockServing = false) ∧ hdrType 4886692098 = 1 ∧ hdrWords 4886692098 = [5, 6].length ∧ [5, 6].length ≤ 62 ∧
   (∃ r ∈ (askPing.mbxFront 0), r.words = [4886692098, 5, 6])) ∧
  ((2 = 1 → askPingShort.blockServing = false) ∧ hdrType 4886692099 = 1 ∧ hdrWords 4886692099 ≠ [5, 6].length ∧
   (∃ r ∈ (askPingShort.mbxFront 2), r.words = [4886692099, 5, 6])) ∧
  ((0 = 1 → askRead.blockServing = false) ∧ hdrType 4886692353 = 2 ∧ hdrWords 4886692353 = 1 ∧ [12328].length = 1 ∧
   (∃ r ∈ (askRead.mbxFront 0), r.words = [4886692353, 12328] ∧ (askRead.mbxTake r).regDenied false (regOf ([12328].headD 0)) = false)) ∧
  ((0 = 1 → askReadDenied.blockServing = false) ∧ hdrType 4886692353 = 2 ∧ hdrWords 4886692353 = 1 ∧ [82176].length = 1 ∧
   (∃ r ∈ (askReadDenied.mbxFront 0), r.words = [4886692353, 82176] ∧
   (askReadDenied.mbxTake r).regDenied false (regOf ([82176].headD 0)) = true)) ∧
  ((0 = 1 → askWrite.blockServing = false) ∧ hdrType 4886692610 = 3 ∧ hdrWords 4886692610 = 2 ∧ [12328, 5].length = 2 ∧
   (∃ r ∈ (askWrite.mbxFront 0), r.words = [4886692610, 12328, 5])) ∧
  ((0 = 1 → askMode.blockServing = false) ∧ hdrType 4886692865 = 4 ∧ hdrWords 4886692865 = 1 ∧ [5].length = 1 ∧
   (∃ r ∈ (askMode.mbxFront 0), r.words = [4886692865, 5])) ∧
  ((0 = 1 → askMode2.blockServing = false) ∧ hdrType 4886692866 = 4 ∧ [5, 6].length ≠ 1 ∧
   (∃ r ∈ (askMode2.mbxFront 0), r.words = [4886692866, 5, 6])) ∧
  ((0 = 1 → askInfo.blockServing = false) ∧ hdrType 4886693120 = 5 ∧ hdrWords 4886693120 = 0 ∧
   (∃ r ∈ (askInfo.mbxFront 0), r.words = [4886693120])) ∧
  ((0 = 1 → askInfo1.blockServing = false) ∧ hdrType 4886693121 = 5 ∧ (∃ r ∈ (askInfo1.mbxFront 0), r.words = [4886693121, 3])) ∧
  ((0 = 1 → askForwardNone.blockServing = false) ∧ hdrType 4886693379 = 6 ∧ hdrWords 4886693379 = [4886692098, 5, 6].length ∧
   1 ≤ [4886692098, 5, 6].length ∧ [4886692098, 5, 6].length ≤ 62 ∧ hdrWords ([4886692098, 5, 6].headD 0) + 1 = [4886692098, 5, 6].length ∧
   (∃ r ∈ (askForwardNone.mbxFront 0), r.words = [4886693379, 4886692098, 5, 6] ∧ (askForwardNone.mbxTake r).ready Fn.MBX_P = false)) ∧
  ((0 = 1 → askForward.blockServing = false) ∧ hdrType 4886693379 = 6 ∧ hdrWords 4886693379 = [4886692098, 5, 6].length ∧
   1 ≤ [4886692098, 5, 6].length ∧ [4886692098, 5, 6].length ≤ 62 ∧ hdrWords ([4886692098, 5, 6].headD 0) + 1 = [4886692098, 5, 6].length ∧
   (∃ r ∈ (askForward.mbxFront 0), r.words = [4886693379, 4886692098, 5, 6] ∧ (askForward.mbxTake r).ready Fn.MBX_P = true)) ∧
  ((0 = 1 → askLog0.blockServing = false) ∧ hdrType 4886693633 = 7 ∧ hdrWords 4886693633 = 1 ∧ [2].length = 1 ∧
   (bits ([2].headD 0) 8 8 = 0 ∨ 62 < bits ([2].headD 0) 8 8 ∨ [2].headD 0 / 2 ^ 16 % 8 ≠ 0) ∧
   (∃ r ∈ (askLog0.mbxFront 0), r.words = [4886693633, 2])) ∧
  ((0 = 1 → askLog.blockServing = false) ∧ hdrType 4886693633 = 7 ∧ hdrWords 4886693633 = 1 ∧ [2050].length = 1 ∧
   1 ≤ bits ([2050].headD 0) 8 8 ∧ bits ([2050].headD 0) 8 8 ≤ 62 ∧ [2050].headD 0 / 2 ^ 16 % 8 = 0 ∧
   (∃ r ∈ (askLog.mbxFront 0), r.words = [4886693633, 2050] ∧ (askLog.mbxTake r).secLocked = false ∧
   ((askLog.mbxTake r).logPage ([2050].headD 0 % 256)).isSome = true)) ∧
  ((0 = 1 → askPing.blockServing = false) ∧ List.find? (fun x => decide (x.fst = 3)) askPing.mbx.fwd = none) ∧
  ((0 = 1 → forwarded.blockServing = false) ∧ (List.find? (fun x => decide (x.fst = 3)) forwarded.mbx.fwd).isSome = true) ∧
  ((0 = 1 → askPing.blockServing = false) ∧ (askPing.queue 0 = [] ∨ askPing.ready Fn.MBX_H = false ∨ askPing.hiFront ≠ none)) ∧
  ((0 = 1 → headerOnly.blockServing = false) ∧ headerOnly.queue 0 = [4886692101, 5, 6] ∧ headerOnly.ready Fn.MBX_H = true ∧
   headerOnly.hiFront = none) := by
  refine ⟨?_, ?_, ?_, ?_, ?_, ?_, ?_, ?_, ?_, ?_, ?_, ?_, ?_, ?_, ?_, ?_, ?_, ?_⟩ <;> decide +kernel

/-- States and operands for each clause of SdmaChannels. -/
theorem wit_SdmaChannels :
  (Req.camera ≠ Req.firmware ∧ (sdma.dropHeld .camera).blocked .camera Pg.SDMA (sdmaReg 1 40) = none ∧
   (sdma.dropHeld .camera).rwMode Pg.SDMA = true) ∧
  (Req.camera ≠ Req.firmware ∧ (sdma.dropHeld .camera).blocked .camera Pg.SDMA (sdmaReg 1 0) = none ∧
   (sdma.dropHeld .camera).rwMode Pg.SDMA = true) ∧
  ((4 ≤ 1 ∨ Req.firmware = Req.firmware) ∧ (sdmaRuns.dropHeld .firmware).blocked .firmware Pg.SDMA (sdmaReg 1 40) = none ∧
   (sdmaRuns.dropHeld .firmware).rwMode Pg.SDMA = true ∧
   ((sdmaRuns.dropHeld .firmware).get (F.SDMA_STATUS_FSTATE 1) ≠ 2 ∨ (sdmaRuns.dropHeld .firmware).get (F.SDMA_CTL_MODE 1) ≠ 0 ∨
   (sdmaRuns.dropHeld .firmware).get (F.SDMA_STATUS_RUN 1) ∈ [1, 2, 3])) ∧
  ((4 ≤ 5 ∨ Req.camera = Req.firmware) ∧ (sdma.dropHeld .camera).blocked .camera Pg.SDMA (sdmaReg 5 40) = none ∧
   (sdma.dropHeld .camera).rwMode Pg.SDMA = true ∧ (sdma.dropHeld .camera).get (F.SDMA_STATUS_FSTATE 5) = 2 ∧
   (sdma.dropHeld .camera).get (F.SDMA_CTL_MODE 5) = 0 ∧ (sdma.dropHeld .camera).get (F.SDMA_STATUS_RUN 5) ∈ [0, 4, 5] ∧
   (sdma.dropHeld .camera).sdmaCheck .camera ((sdma.dropHeld .camera).get (F.SDMA_SRC_ADDR 5)) ((sdma.dropHeld .camera).get
   (F.SDMA_DST_ADDR 5)) ((sdma.dropHeld .camera).get (F.SDMA_COUNT_BYTES 5)) ≠ 0) ∧
  ((4 ≤ 1 ∨ Req.firmware = Req.firmware) ∧ (sdma.dropHeld .firmware).blocked .firmware Pg.SDMA (sdmaReg 1 40) = none ∧
   (sdma.dropHeld .firmware).rwMode Pg.SDMA = true ∧ (sdma.dropHeld .firmware).get (F.SDMA_STATUS_FSTATE 1) = 2 ∧
   (sdma.dropHeld .firmware).get (F.SDMA_CTL_MODE 1) = 0 ∧ (sdma.dropHeld .firmware).get (F.SDMA_STATUS_RUN 1) ∈ [0, 4, 5] ∧
   (sdma.dropHeld .firmware).sdmaCheck .firmware ((sdma.dropHeld .firmware).get (F.SDMA_SRC_ADDR 1)) ((sdma.dropHeld .firmware).get
   (F.SDMA_DST_ADDR 1)) ((sdma.dropHeld .firmware).get (F.SDMA_COUNT_BYTES 1)) = 0 ∧
   (sdma.dropHeld .firmware).get (F.SDMA_CTL_PAUSE 1) = 0) ∧
  ((4 ≤ 1 ∨ Req.firmware = Req.firmware) ∧ (sdmaHold.dropHeld .firmware).blocked .firmware Pg.SDMA (sdmaReg 1 40) = none ∧
   (sdmaHold.dropHeld .firmware).rwMode Pg.SDMA = true ∧ (sdmaHold.dropHeld .firmware).get (F.SDMA_STATUS_FSTATE 1) = 2 ∧
   (sdmaHold.dropHeld .firmware).get (F.SDMA_CTL_MODE 1) = 0 ∧ (sdmaHold.dropHeld .firmware).get (F.SDMA_STATUS_RUN 1) ∈ [0, 4, 5] ∧
   (sdmaHold.dropHeld .firmware).sdmaCheck .firmware ((sdmaHold.dropHeld .firmware).get (F.SDMA_SRC_ADDR 1)) ((sdmaHold.dropHeld
   .firmware).get (F.SDMA_DST_ADDR 1)) ((sdmaHold.dropHeld .firmware).get (F.SDMA_COUNT_BYTES 1)) = 0 ∧
   (sdmaHold.dropHeld .firmware).get (F.SDMA_CTL_PAUSE 1) = 1) ∧
  ((4 ≤ 1 ∨ Req.firmware = Req.firmware) ∧ (sdmaRing.dropHeld .firmware).blocked .firmware Pg.SDMA (sdmaReg 1 40) = none ∧
   (sdmaRing.dropHeld .firmware).rwMode Pg.SDMA = true ∧ (sdmaRing.dropHeld .firmware).get (F.SDMA_STATUS_FSTATE 1) = 2 ∧
   (sdmaRing.dropHeld .firmware).get (F.SDMA_CTL_MODE 1) = 1 ∧ (sdmaRing.dropHeld .firmware).get (F.SDMA_STATUS_RUN 1) ∈ [0, 3, 4, 5] ∧
   (sdmaRing.dropHeld .firmware).ringCheck .firmware ((sdmaRing.dropHeld .firmware).get (F.SDMA_DESC_BASE_ADDR 1)) ((sdmaRing.dropHeld
   .firmware).get (F.SDMA_DESC_CFG_N 1)) = 0 ∧ (sdmaRing.dropHeld .firmware).get (F.SDMA_CTL_PAUSE 1) = 0) ∧
  ((4 ≤ 1 ∨ Req.firmware = Req.firmware) ∧ (sdma.dropHeld .firmware).blocked .firmware Pg.SDMA (sdmaReg 1 40) = none ∧
   (sdma.dropHeld .firmware).rwMode Pg.SDMA = true ∧
   ((sdma.dropHeld .firmware).get (F.SDMA_STATUS_FSTATE 1) ≠ 2 ∨ (sdma.dropHeld .firmware).get (F.SDMA_CTL_MODE 1) ≠ 1 ∨ (sdma.dropHeld
   .firmware).get (F.SDMA_STATUS_RUN 1) ∈ [1, 2])) ∧
  ((4 ≤ 1 ∨ Req.firmware = Req.firmware) ∧ (sdmaRuns.dropHeld .firmware).blocked .firmware Pg.SDMA (sdmaReg 1 40) = none ∧
   (sdmaRuns.dropHeld .firmware).rwMode Pg.SDMA = true ∧ (sdmaRuns.dropHeld .firmware).get (F.SDMA_STATUS_RUN 1) ∈ [1, 2, 3]) ∧
  ((4 ≤ 1 ∨ Req.firmware = Req.firmware) ∧ (sdmaStops.dropHeld .firmware).blocked .firmware Pg.SDMA (sdmaReg 1 0) = none ∧
   (sdmaStops.dropHeld .firmware).rwMode Pg.SDMA = true ∧ (sdmaStops.dropHeld .firmware).get (F.SDMA_STATUS_FSTATE 1) = 3) ∧
  ((4 ≤ 1 ∨ Req.firmware = Req.firmware) ∧ (sdma.dropHeld .firmware).blocked .firmware Pg.SDMA (sdmaReg 1 0) = none ∧
   (sdma.dropHeld .firmware).rwMode Pg.SDMA = true ∧ (sdma.dropHeld .firmware).get (F.SDMA_STATUS_FSTATE 1) ≠ 3) ∧
  ((4 ≤ 1 ∨ Req.firmware = Req.firmware) ∧ (sdmaPaused.dropHeld .firmware).blocked .firmware Pg.SDMA (sdmaReg 1 0) = none ∧
   (sdmaPaused.dropHeld .firmware).rwMode Pg.SDMA = true ∧ (sdmaPaused.dropHeld .firmware).get (F.SDMA_STATUS_FSTATE 1) ≠ 3 ∧
   (sdmaPaused.dropHeld .firmware).get (F.SDMA_STATUS_RUN 1) = 2) ∧
  ((4 ≤ 1 ∨ Req.firmware = Req.firmware) ∧ (sdmaOff.dropHeld .firmware).blocked .firmware Pg.SDMA (sdmaReg 1 0) = none ∧
   (sdmaOff.dropHeld .firmware).rwMode Pg.SDMA = true ∧ (sdmaOff.dropHeld .firmware).get (F.SDMA_STATUS_FSTATE 1) = 0 ∧
   (sdmaOff.dropHeld .firmware).ready Fn.SDMA = true) ∧
  ((4 ≤ 1 ∨ Req.firmware = Req.firmware) ∧ (sdma.dropHeld .firmware).blocked .firmware Pg.SDMA (sdmaReg 1 0) = none ∧
   (sdma.dropHeld .firmware).rwMode Pg.SDMA = true ∧ (sdma.dropHeld .firmware).get (F.SDMA_STATUS_FSTATE 1) = 2) ∧
  (sdma.get (F.SDMA_STATUS_FSTATE 1) ≠ 3) ∧
  (sdmaStops.get (F.SDMA_STATUS_FSTATE 1) = 3 ∧ sdmaStops.get (F.SDMA_STATUS_REENABLE_PENDING 1) = 0) ∧
  ((onSdma F.SDMA_STATUS_REENABLE_PENDING 1 sdmaStops).get (F.SDMA_STATUS_FSTATE 1) = 3 ∧
   (onSdma F.SDMA_STATUS_REENABLE_PENDING 1 sdmaStops).get (F.SDMA_STATUS_REENABLE_PENDING 1) = 1 ∧
   (onSdma F.SDMA_STATUS_REENABLE_PENDING 1 sdmaStops).ready Fn.SDMA = true ∧
   (onSdma F.SDMA_STATUS_REENABLE_PENDING 1 sdmaStops).mode ≠ Md.SEAL) := by
  refine ⟨?_, ?_, ?_, ?_, ?_, ?_, ?_, ?_, ?_, ?_, ?_, ?_, ?_, ?_, ?_, ?_, ?_⟩ <;> decide +kernel

/-- States and operands for each clause of SdmaTransfers. -/
theorem wit_SdmaTransfers :
  (sdma.get (F.SDMA_STATUS_RUN 1) ≠ 1) ∧
  (sdmaFetches.get (F.SDMA_STATUS_RUN 1) = 1 ∧ sdmaFetches.sdmaReach (sdmaFetches.descAddr 1) = 0 ∧
   sdmaSpace (sdmaFetches.descAddr 1) = 1 ∧ bit (numIn [] 20 1) 0 = false ∧ (∃ x ∈ (sdmaFetches.sdma.xfers.find? 1), x.fetch = true)) ∧
  (sdmaFetches.get (F.SDMA_STATUS_RUN 1) = 1 ∧ sdmaFetches.sdmaReach (sdmaFetches.descAddr 1) = 0 ∧
   sdmaSpace (sdmaFetches.descAddr 1) = 1 ∧ bit (numIn (descriptor 4096 8192 64 1) 20 1) 0 = true ∧
   numIn (descriptor 4096 8192 64 1) 20 1 < 16 ∧ numIn (descriptor 4096 8192 64 1) 21 3 = 0 ∧ numIn (descriptor 4096 8192 64 1) 16 4 ≠ 0 ∧
   sdmaFetches.sdmaCheck (sdmaFetches.sdmaOwner 1) (numIn (descriptor 4096 8192 64 1) 0 8) (numIn (descriptor 4096 8192 64 1) 8 8) (numIn
   (descriptor 4096 8192 64 1) 16 4) = 0 ∧ (∃ x ∈ (sdmaFetches.sdma.xfers.find? 1), x.fetch = true)) ∧
  (sdmaNowhere.get (F.SDMA_STATUS_RUN 1) = 1 ∧
   max (sdmaNowhere.sdmaReach (sdmaNowhere.get (F.SDMA_SRC_ADDR 1))) (sdmaNowhere.sdmaReach (sdmaNowhere.get (F.SDMA_DST_ADDR 1))) ≠ 0 ∧
   (∃ x ∈ (sdmaNowhere.sdma.xfers.find? 1), x.fetch = false)) ∧
  (sdmaPoison.get (F.SDMA_STATUS_RUN 1) = 1 ∧
   max (sdmaPoison.sdmaReach (sdmaPoison.get (F.SDMA_SRC_ADDR 1))) (sdmaPoison.sdmaReach (sdmaPoison.get (F.SDMA_DST_ADDR 1))) = 0 ∧
   (∃ x ∈ (sdmaPoison.sdma.xfers.find? 1), x.fetch = false ∧
   (State.sdmaMove 1 x.snoop ((if 0 = 0 then sdmaPoison.get (F.SDMA_COUNT_BYTES 1) else min 64 (sdmaPoison.get (F.SDMA_COUNT_BYTES 1))) /
   8) [] sdmaPoison).fst = true)) ∧
  (sdmaMoves.get (F.SDMA_STATUS_RUN 1) = 1 ∧
   max (sdmaMoves.sdmaReach (sdmaMoves.get (F.SDMA_SRC_ADDR 1))) (sdmaMoves.sdmaReach (sdmaMoves.get (F.SDMA_DST_ADDR 1))) = 0 ∧
   (∃ x ∈ (sdmaMoves.sdma.xfers.find? 1), x.fetch = false ∧
   (State.sdmaMove 1 x.snoop ((if 4 = 0 then sdmaMoves.get (F.SDMA_COUNT_BYTES 1) else min 64 (sdmaMoves.get (F.SDMA_COUNT_BYTES 1))) / 8)
   [] sdmaMoves).fst = false)) ∧
  (sdmaMoves.get (F.SDMA_STATUS_RUN 1) = 1 ∧
   max (sdmaMoves.sdmaReach (sdmaMoves.get (F.SDMA_SRC_ADDR 1))) (sdmaMoves.sdmaReach (sdmaMoves.get (F.SDMA_DST_ADDR 1))) = 0 ∧
   (∃ x ∈ (sdmaMoves.sdma.xfers.find? 1), x.fetch = false ∧
   (State.sdmaMove 1 x.snoop ((if 0 = 0 then sdmaMoves.get (F.SDMA_COUNT_BYTES 1) else min 64 (sdmaMoves.get (F.SDMA_COUNT_BYTES 1))) / 8)
   [] sdmaMoves).fst = false)) ∧
  (sdmaMoves.get (F.SDMA_STATUS_RUN 1) = 1 ∧
   max (sdmaMoves.sdmaReach (sdmaMoves.get (F.SDMA_SRC_ADDR 1))) (sdmaMoves.sdmaReach (sdmaMoves.get (F.SDMA_DST_ADDR 1))) = 0 ∧
   (∃ x ∈ (sdmaMoves.sdma.xfers.find? 1), x.fetch = false ∧
   (State.sdmaMove 1 x.snoop ((if 0 = 0 then sdmaMoves.get (F.SDMA_COUNT_BYTES 1) else min 64 (sdmaMoves.get (F.SDMA_COUNT_BYTES 1))) / 8)
   [] sdmaMoves).fst = false ∧ x.desc = none)) ∧
  (sdmaMovesHold.get (F.SDMA_STATUS_RUN 1) = 1 ∧ sdmaMovesHold.get (F.SDMA_CTL_PAUSE 1) = 1 ∧
   (∃ x ∈ (sdmaMovesHold.sdma.xfers.find? 1), x.fetch = false ∧
   (State.sdmaMove 1 x.snoop (min 64 (sdmaMovesHold.get (F.SDMA_COUNT_BYTES 1)) / 8) [] sdmaMovesHold).fst = false)) := by
  refine ⟨?_, ?_, ?_, ?_, ?_, ?_, ?_, ?_, ?_⟩ <;> decide +kernel

/-- States and operands for each clause of CheckValueUnits. -/
theorem wit_CheckValueUnits :
  ((crcUnits.dropHeld .firmware).blocked .firmware Pg.CRCU (crcuBase 0 + 24) = none ∧ (crcUnits.dropHeld .firmware).rwMode Pg.CRCU = true) ∧
  ((crcUnits.dropHeld .firmware).blocked .firmware Pg.CRCU (crcuBase 0 + 8) = none ∧ (crcUnits.dropHeld .firmware).rwMode Pg.CRCU = true) ∧
  ((crcUnits.dropHeld .firmware).blocked .firmware Pg.CRCU (crcuBase 0 + 32) = none ∧ (crcUnits.dropHeld .firmware).rwMode Pg.CRCU = true ∧
   ((crcUnits.dropHeld .firmware).get (F.CRCU_CFG_SRC 0) ≠ 0 ∨ (crcUnits.dropHeld .firmware).get (F.CRCU_CFG_EN 0) = 0)) ∧
  ((crcUnits.dropHeld .firmware).blocked .firmware Pg.CRCU (crcuBase 1 + 32) = none ∧ (crcUnits.dropHeld .firmware).rwMode Pg.CRCU = true ∧
   (crcUnits.dropHeld .firmware).get (F.CRCU_CFG_SRC 1) = 0 ∧ (crcUnits.dropHeld .firmware).get (F.CRCU_CFG_EN 1) = 1 ∧
   (crcUnits.dropHeld .firmware).get (F.CRCU_LIMIT_BYTES 1) = 0) ∧
  ((crcUnits.dropHeld .firmware).blocked .firmware Pg.CRCU (crcuBase 0 + 40) = none ∧ (crcUnits.dropHeld .firmware).rwMode Pg.CRCU = true ∧
   (bits 17 56 3 = 0 ∨ (crcUnits.dropHeld .firmware).get (F.CRCU_CFG_SRC 0) ≠ 0)) ∧
  ((crcUnits.dropHeld .firmware).blocked .firmware Pg.CRCU (crcuBase 1 + 40) = none ∧ (crcUnits.dropHeld .firmware).rwMode Pg.CRCU = true ∧
   (crcUnits.dropHeld .firmware).get (F.CRCU_CFG_SRC 1) = 0 ∧ (crcUnits.dropHeld .firmware).get (F.CRCU_CFG_EN 1) = 1 ∧
   (crcUnits.dropHeld .firmware).get (F.CRCU_LIMIT_BYTES 1) = 0 ∧ bits 216172782125043183 56 3 ≠ 0) ∧
  ((crcUnits.dropHeld .firmware).blocked .firmware Pg.CRCU (crcuBase 1) = none ∧ (crcUnits.dropHeld .firmware).rwMode Pg.CRCU = true ∧
   (crcUnits.dropHeld .firmware).get (F.CRCU_CFG_EN 1) = 1 ∧ bit 216172782125043183 0 = true) ∧
  ((crcUnits.dropHeld .firmware).blocked .firmware Pg.CRCU (crcuBase 0) = none ∧ (crcUnits.dropHeld .firmware).rwMode Pg.CRCU = true ∧
   ((crcUnits.dropHeld .firmware).get (F.CRCU_CFG_EN 0) = 0 ∨ bit 17 0 = false) ∧ bits 17 8 4 < 6) ∧
  (crcUnits.get (F.CRCU_CFG_EN 3) = 1 ∧ crcUnits.get (F.CRCU_LIMIT_BYTES 3) ≠ 0 ∧
   crcUnits.get (F.CRCU_LIMIT_BYTES 3) ≤ crcUnits.get (F.CRCU_BYTES_COUNT 3)) ∧
  (crcUnits.get (F.CRCU_CFG_EN 2) = 1 ∧ crcUnits.get (F.CRCU_LIMIT_BYTES 2) ≠ 0 ∧
   crcUnits.get (F.CRCU_BYTES_COUNT 2) + [1, 2, 3].length < crcUnits.get (F.CRCU_LIMIT_BYTES 2)) := by
  refine ⟨?_, ?_, ?_, ?_, ?_, ?_, ?_, ?_, ?_, ?_⟩ <;> decide +kernel


/-! ### Witnesses: the code store, updates, BIST, injectors, time, timecode and the serial ports -/

/-- Service, with debug level 2. -/
def workshop : State := md 10 debug2
/-- The store's address, with every unlock given. -/
def atCode (a : Nat) (s : State) : State := { s.set F.CODE_ADDR a with code := { s.code with unlock := [2, 2, 2] } }
/-- The store's address, locked. -/
def lockedAt (a : Nat) : State := workshop.set F.CODE_ADDR a
/-- A sector the camera may change. -/
def codeSector : State := atCode 0x1000000 workshop
/-- A line of it. -/
def codeLine : State := atCode 0x1000100 workshop
/-- An address that is no line's. -/
def codeOdd : State := atCode 0x1000005 workshop
/-- A sector nobody may change. -/
def codeBoot : State := atCode 0x10000 workshop
/-- An operation of the store runs. -/
def codeRuns (op a : Nat) : State := { st workshop [(F.CODE_STATUS_BUSY, 1), (F.CODE_STATUS_OP, op)] with code := { workshop.code with addr := a, who := 0, data := List.range 32 } }
/-- A program of a line. -/
def codeProgram : State := codeRuns 2 0x1000100
/-- A line is read. -/
def codeReads : State := codeRuns 1 0x1000100
/-- An erase. -/
def codeErase : State := codeRuns 3 0x1000000
/-- A blank check. -/
def codeBlank : State := codeRuns 4 0x1000000
/-- A check value. -/
def codeCrc : State := codeRuns 5 0x1010000
/-- An energy for updates. -/
def charged : State := st spaces [(F.LEDGER_AVAILABLE_A, 2 ^ 47), (F.UPD_CFG_RESERVE_UJ, 0)]
/-- Parcels are staged. -/
def staged : State := charged.set F.UPD_DL_INFO_COUNT 1
/-- Slot 1 is active. -/
def active1 : State := onNv charged (fun n => { n with upd := { n.upd with active := 1 } })
/-- Update. -/
def updating (f : Upd → Upd) (phase : Nat) : State := onNv (st (md 9 spaces) [(F.UPD_STATUS_PHASE, phase), (F.UPD_COPY_TOTAL, 2)]) (fun n => { n with upd := f { n.upd with pending := 2, target := 1, image := 65536 * 2 } })
/-- Sectors are copied. -/
def copying : State := updating id 1
/-- A sector has failed twice. -/
def copyFails : State := updating (fun u => { u with tries := 2 }) 1
/-- Every sector is copied. -/
def copied : State := updating (fun u => { u with copied := [0, 1] }) 1
/-- The switch, with nothing pending. -/
def switchNone : State := updating (fun u => { u with pending := 0 }) 2
/-- The switch to a slot that is not valid. -/
def switchBad : State := onNv (updating id 2) (fun n => { n with vendorOk := false })
/-- The switch to slot 0. -/
def switch0 : State := updating (fun u => { u with target := 0 }) 2
/-- The same, for the next reset. -/
def switch0later : State := updating (fun u => { u with target := 0, pending := 1 }) 2
/-- The cause in an outcome. -/
def errorOf (e : Except Nat (List Nat)) : Option Nat := match e with | .error n => some n | .ok _ => none
/-- Slot A as it left manufacture is valid, while no SVN is fused. -/
theorem slotA_valid (s : State) (h : s.factoryRange 0 128 = true) (hv : s.nv.vendorOk = true) (hf : s.nv.fused = 0) : s.slotValid 0 = true := by
  simp [State.slotValid, slotBase, h, hv, hf]

/-- States and operands for each clause of CodeStore. -/
theorem wit_CodeStore :
  (workshop.code.unlock.length = 3 ∧ (workshop.dropHeld .camera).blocked .camera Pg.CODE 256 = none ∧
   (workshop.dropHeld .camera).rwMode Pg.CODE = true) ∧
  (workshop.code.unlock.length = 3 ∧ (workshop.dropHeld .camera).blocked .camera Pg.CODE 264 = none ∧
   (workshop.dropHeld .camera).rwMode Pg.CODE = true) ∧
  (codeProgram.code.unlock.length = 3 ∧ (codeProgram.dropHeld .camera).blocked .camera Pg.CODE 280 = none ∧
   (codeProgram.dropHeld .camera).rwMode Pg.CODE = true ∧ (codeProgram.dropHeld .camera).get F.CODE_STATUS_BUSY = 1) ∧
  (workshop.code.unlock.length = 3 ∧ (workshop.dropHeld .camera).blocked .camera Pg.CODE 280 = none ∧
   (workshop.dropHeld .camera).rwMode Pg.CODE = true ∧ (workshop.dropHeld .camera).get F.CODE_STATUS_BUSY ≠ 1 ∧
   (workshop.dropHeld .camera).unlockOf Req.camera ≠ 2) ∧
  (codeOdd.code.unlock.length = 3 ∧ (codeOdd.dropHeld .camera).blocked .camera Pg.CODE 280 = none ∧
   (codeOdd.dropHeld .camera).rwMode Pg.CODE = true ∧ (codeOdd.dropHeld .camera).get F.CODE_STATUS_BUSY ≠ 1 ∧
   (codeOdd.dropHeld .camera).unlockOf Req.camera = 2 ∧ (codeOdd.dropHeld .camera).get F.CODE_ADDR % 256 ≠ 0) ∧
  (codeLine.code.unlock.length = 3 ∧ (codeLine.dropHeld .camera).blocked .camera Pg.CODE 280 = none ∧
   (codeLine.dropHeld .camera).rwMode Pg.CODE = true ∧ (codeLine.dropHeld .camera).get F.CODE_STATUS_BUSY ≠ 1 ∧
   (codeLine.dropHeld .camera).unlockOf Req.camera = 2 ∧ (codeLine.dropHeld .camera).get F.CODE_ADDR % 65536 ≠ 0) ∧
  (codeBoot.code.unlock.length = 3 ∧ (codeBoot.dropHeld .camera).blocked .camera Pg.CODE 280 = none ∧
   (codeBoot.dropHeld .camera).rwMode Pg.CODE = true ∧ (codeBoot.dropHeld .camera).get F.CODE_STATUS_BUSY ≠ 1 ∧
   (codeBoot.dropHeld .camera).unlockOf Req.camera = 2 ∧ (codeBoot.dropHeld .camera).get F.CODE_ADDR % 65536 = 0 ∧
   mayChange .camera ((codeBoot.dropHeld .camera).get F.CODE_ADDR / 65536) = false) ∧
  (codeSector.code.unlock.length = 3 ∧ (codeSector.dropHeld .camera).blocked .camera Pg.CODE 280 = none ∧
   (codeSector.dropHeld .camera).rwMode Pg.CODE = true ∧ (codeSector.dropHeld .camera).get F.CODE_STATUS_BUSY ≠ 1 ∧
   (codeSector.dropHeld .camera).unlockOf Req.camera = 2 ∧ (codeSector.dropHeld .camera).get F.CODE_ADDR % 256 = 0 ∧
   mayChange .camera ((codeSector.dropHeld .camera).get F.CODE_ADDR / 65536) = true) ∧
  (codeSector.code.unlock.length = 3 ∧ (codeSector.dropHeld .camera).blocked .camera Pg.CODE 280 = none ∧
   (codeSector.dropHeld .camera).rwMode Pg.CODE = true ∧ (codeSector.dropHeld .camera).get F.CODE_STATUS_BUSY ≠ 1 ∧
   (codeSector.dropHeld .camera).unlockOf Req.camera = 2 ∧ (codeSector.dropHeld .camera).get F.CODE_ADDR % 65536 = 0 ∧
   mayChange .camera ((codeSector.dropHeld .camera).get F.CODE_ADDR / 65536) = true) ∧
  (workshop.code.unlock.length = 3 ∧ (workshop.dropHeld .camera).blocked .camera Pg.CODE 280 = none ∧
   (workshop.dropHeld .camera).rwMode Pg.CODE = true ∧ (workshop.dropHeld .camera).get F.CODE_STATUS_BUSY ≠ 1 ∧
   (workshop.dropHeld .camera).get F.CODE_ADDR % 256 = 0) ∧
  (workshop.code.unlock.length = 3 ∧ (workshop.dropHeld .camera).blocked .camera Pg.CODE 280 = none ∧
   (workshop.dropHeld .camera).rwMode Pg.CODE = true ∧ (workshop.dropHeld .camera).get F.CODE_STATUS_BUSY ≠ 1 ∧
   (workshop.dropHeld .camera).get F.CODE_ADDR % 65536 = 0) ∧
  (workshop.get F.CODE_STATUS_BUSY = 0) ∧
  (codeReads.get F.CODE_STATUS_BUSY ≠ 0 ∧ codeReads.get F.CODE_STATUS_OP = 1) ∧
  (codeProgram.get F.CODE_STATUS_BUSY ≠ 0 ∧ codeProgram.get F.CODE_STATUS_OP = 2 ∧ codeProgram.dram.mem.wf = true ∧
   codeProgram.nv.store.wf = true ∧ codeProgram.code.addr % 256 = 0 ∧ (List.map (bytesOf 8) codeProgram.code.data).flatten.length = 256 ∧
   List.map (fun i => ((codeProgram.norBytes codeProgram.code.addr 256).getD i 0).land ((List.map (bytesOf 8)
   codeProgram.code.data).flatten.getD i 0)) (List.range 256) = (List.map (bytesOf 8) codeProgram.code.data).flatten) ∧
  (codeProgram.get F.CODE_STATUS_BUSY ≠ 0 ∧ codeProgram.get F.CODE_STATUS_OP = 2 ∧ codeProgram.dram.mem.wf = true ∧
   codeProgram.nv.store.wf = true ∧ codeProgram.code.addr % 256 = 0 ∧ (List.map (bytesOf 8) codeProgram.code.data).flatten.length = 256 ∧
   false = false) ∧
  (codeErase.get F.CODE_STATUS_BUSY ≠ 0 ∧ codeErase.get F.CODE_STATUS_OP = 3) ∧
  (codeBlank.get F.CODE_STATUS_BUSY ≠ 0 ∧ codeBlank.get F.CODE_STATUS_OP = 4) ∧
  (codeCrc.get F.CODE_STATUS_BUSY ≠ 0 ∧ codeCrc.get F.CODE_STATUS_OP = 5) := by
  refine ⟨?_, ?_, ?_, ?_, ?_, ?_, ?_, ?_, ?_, ?_, ?_, ?_, ?_, ?_, ?_, ?_, ?_, ?_⟩ <;> decide +kernel

/-- States and operands for each clause of FirmwareCommands. -/
theorem wit_FirmwareCommands :
  (charged.mayFetch (Src.host 0) = true ∧ List.find? (fun a => decide (a.sq = 0) && decide (a.cid = 5)) charged.host.aborts = none ∧
   (∀ (w : Bool × Why), w ∈ (charged.atFetch (cid 0 5)).fwChecks false → w.fst = false)) ∧
  (spaces.mayFetch (Src.host 0) = true ∧ List.find? (fun a => decide (a.sq = 0) && decide (a.cid = 5)) spaces.host.aborts = none ∧
   List.find? (fun w => w.fst) ((spaces.atFetch (cid 0 5)).fwChecks false) = some (true, 7, 141, 0)) ∧
  (charged.mayFetch (Src.host 0) = true ∧ List.find? (fun a => decide (a.sq = 0) && decide (a.cid = 5)) charged.host.aborts = none ∧
   (∀ (w : Bool × Why), w ∈ (charged.atFetch (cid 0 5)).fwChecks (decide (0 = 3)) → w.fst = false) ∧
   (if 1 = 0 then 1 - (charged.atFetch (cid 0 5)).nv.upd.active else 1 - 1) = (charged.atFetch (cid 0 5)).nv.upd.active) ∧
  (charged.mayFetch (Src.host 0) = true ∧ List.find? (fun a => decide (a.sq = 0) && decide (a.cid = 5)) charged.host.aborts = none ∧
   (∀ (w : Bool × Why), w ∈ (charged.atFetch (cid 0 5)).fwChecks (decide (0 = 3)) → w.fst = false) ∧
   (if 0 = 0 then 1 - (charged.atFetch (cid 0 5)).nv.upd.active else 0 - 1) ≠ (charged.atFetch (cid 0 5)).nv.upd.active ∧
   errorOf (charged.atFetch (cid 0 5)).stagedImage = some 1) ∧
  (charged.mayFetch (Src.host 0) = true ∧ List.find? (fun a => decide (a.sq = 0) && decide (a.cid = 5)) charged.host.aborts = none ∧
   (∀ (w : Bool × Why), w ∈ (charged.atFetch (cid 0 5)).fwChecks (decide (2 = 3)) → w.fst = false) ∧
   (if 1 = 0 then 1 - (charged.atFetch (cid 0 5)).nv.upd.active else 1 - 1) = (charged.atFetch (cid 0 5)).nv.upd.active) ∧
  (active1.mayFetch (Src.host 0) = true ∧ List.find? (fun a => decide (a.sq = 0) && decide (a.cid = 5)) active1.host.aborts = none ∧
   (∀ (w : Bool × Why), w ∈ (active1.atFetch (cid 0 5)).fwChecks (decide (2 = 3)) → w.fst = false) ∧
   (if 0 = 0 then 1 - (active1.atFetch (cid 0 5)).nv.upd.active else 0 - 1) ≠ (active1.atFetch (cid 0 5)).nv.upd.active ∧
   (active1.atFetch (cid 0 5)).slotValid 0 = true) := by
  refine ⟨?_, ?_, ?_, ?_, ?_, ⟨?_, ?_, ?_, ?_, slotA_valid _ (by decide +kernel) (by decide +kernel) (by decide +kernel)⟩⟩ <;> decide +kernel

/-- States and operands for each clause of UpdateRuns. -/
theorem wit_UpdateRuns :
  ((spaces.mode ≠ Md.UPDATE ∨ spaces.get F.UPD_STATUS_PHASE ≠ 1)) ∧
  (copied.mode = Md.UPDATE ∧ copied.get F.UPD_STATUS_PHASE = 1 ∧ copied.nextCopy = none) ∧
  (copying.mode = Md.UPDATE ∧ copying.get F.UPD_STATUS_PHASE = 1 ∧ copying.nextCopy = some 0 ∧ copying.nv.upd.tries < 2) ∧
  (copyFails.mode = Md.UPDATE ∧ copyFails.get F.UPD_STATUS_PHASE = 1 ∧ copyFails.nextCopy = some 0 ∧ 2 ≤ copyFails.nv.upd.tries) ∧
  ((spaces.mode ≠ Md.UPDATE ∨ spaces.get F.UPD_STATUS_PHASE ≠ 2)) ∧
  (switchNone.mode = Md.UPDATE ∧ switchNone.get F.UPD_STATUS_PHASE = 2 ∧ switchNone.nv.upd.pending = 0) ∧
  (switchBad.mode = Md.UPDATE ∧ switchBad.get F.UPD_STATUS_PHASE = 2 ∧ switchBad.nv.upd.pending ≠ 0 ∧
   switchBad.slotValid switchBad.nv.upd.target = false) ∧
  (switch0later.mode = Md.UPDATE ∧ switch0later.get F.UPD_STATUS_PHASE = 2 ∧ switch0later.nv.upd.pending = 1 ∧
   switch0later.nv.upd.target = 0 ∧ switch0later.slotValid 0 = true) ∧
  (switch0.mode = Md.UPDATE ∧ switch0.get F.UPD_STATUS_PHASE = 2 ∧ 2 ≤ switch0.nv.upd.pending ∧ switch0.nv.upd.target = 0 ∧
   switch0.slotValid 0 = true) := by
  refine ⟨?_, ?_, ?_, ?_, ?_, ?_, ?_, ⟨?_, ?_, ?_, ?_, slotA_valid _ (by decide +kernel) (by decide +kernel) (by decide +kernel)⟩, ⟨?_, ?_, ?_, ?_, slotA_valid _ (by decide +kernel) (by decide +kernel) (by decide +kernel)⟩⟩ <;> decide +kernel


/-! ### Witnesses: BIST, injectors, time, timecode and the serial ports -/

/-- Service. -/
def bench : State := md 10 spaces
/-- Every array is chosen. -/
def allArrays : State := bench.set F.BIST_ARRAY_MASK_MASK 0x3FFF
/-- No array is chosen. -/
def noArrays : State := bench.set F.BIST_ARRAY_MASK_MASK 0
/-- A run of BIST. -/
def bistRun (l : Tbl Nat) : State := { bench.set F.BIST_STATUS_RUN_BUSY 1 with bist := { bench.bist with run := l } }
/-- Its last segment. -/
def bistLast : State := bistRun [(3, 1)]
/-- Two arrays, with segments left. -/
def bistTwo : State := bistRun [(3, 5), (4, 1)]
/-- Every spare row is used. -/
def noSpares : State := onNv bench (fun n => { n with bist := (List.range 14).map (fun a => (a, ⟨(List.range 8).map (fun i => (i, 100 + i)), [], false⟩)) })
/-- Every array is fused. -/
def fusedArrays : State := onNv bench (fun n => { n with bist := (List.range 14).map (fun a => (a, ⟨[], [1], true⟩)) })
/-- A fuse is burnt. -/
def fusing : State := st bench [(F.BIST_STATUS_FUSE_BUSY, 1), (F.BIST_STATUS_FUSING, 3)]
/-- Every injector: its state, EVERY, START, SHOT, ACTION and COUNT. -/
def injectors (x n start shot act count : Nat) (s : State) : State := st s ((List.range 7).flatMap (fun i => [(F.FI_CFG_STATE i, x), (F.FI_EVERY_N i, n), (F.FI_EVERY_START i, start), (F.FI_CFG_SHOT i, shot), (F.FI_CFG_ACTION i, act), (F.FI_UNITS_COUNT i, count), (F.FI_POS_SPAN i, 4), (F.FI_CFG_ARM i, if x = 1 then 1 else 0)]) ++ [(F.FI_CTL_EN, 1)])
/-- Injectors may be armed. -/
def workbench : State := bench.set F.DBG_STATUS_LEVEL 2
/-- Injectors that may be armed. -/
def unarmed : State := injectors 0 2 0 0 0 0 workbench
/-- They have no EVERY. -/
def unset : State := injectors 0 0 0 0 0 0 workbench
/-- They may not be armed. -/
def forbidden : State := unarmed.set F.FI_CTL_EN 0
/-- Armed, to drop at the next unit. -/
def armedDrop : State := injectors 1 3 2 1 0 2 workbench
/-- Armed, to corrupt it. -/
def armedCorrupt : State := injectors 1 3 2 0 1 5 workbench
/-- Armed, and the next unit passes. -/
def armedPass : State := injectors 1 3 2 0 1 4 workbench
/-- KEEP has no supply. -/
def noSupply : State := onKeep spaces (fun k => { k with powered := false })
/-- An alarm is set. -/
def alarmed : State := st spaces [(F.TIME_ALARM_EN, 1), (F.TIME_ALARM_SECONDS, 1)]
/-- An alarm that has passed. -/
def later : State := onKeep spaces (fun k => { k with seconds := 10, valid := true })
/-- Keep. -/
def keeping : State := md 0 spaces
/-- The RTC's reference. -/
def rtc (n m : Nat) : State := (md m spaces).set F.CLK_REF_STATUS_RTC_OK n
/-- The RTC is there. -/
def rtcOk : State := rtc 1 3
/-- The same in Keep. -/
def rtcOkKeep : State := rtc 1 0
/-- It is lost. -/
def rtcLost : State := rtc 0 3
/-- The same in Keep. -/
def rtcLostKeep : State := rtc 0 0
/-- The backup cell. -/
def backup : State := st spaces [(F.TIME_VBAK_MV, 3000), (F.TIME_VBAK_CFG_LOW_MV, 2500)]
/-- A trim of -1. -/
def trimDown : State := spaces.set F.TIME_TRIM_COUNTS 0xFF
/-- A trim of 127. -/
def trimUp : State := spaces.set F.TIME_TRIM_COUNTS 0x7F
/-- A marker of the time base. -/
def atMarker : State := { spaces with tb := 256 }
/-- Between markers. -/
def offMarker : State := { spaces with tb := 257 }
/-- The receiver of timecode, changed. -/
def onTim (s : State) (f : TimeSt → TimeSt) : State := { s with tim := f s.tim }
/-- Locked to timecode. -/
def ltcLocked : State := st spaces [(F.TIME_STATUS_LTC_LOCK, 1), (F.TIME_STATUS_LTC_RATE, 1), (F.TIME_LTC_ADDR_ADDR, 0x01020304)]
/-- One frame has come. -/
def ltcOne : State := onTim spaces (fun t => { t with cand := some (0x01020304, 1) })
/-- The receiver is off. -/
def ltcOff : State := onTim spaces (fun t => { t with ltcEn := false })
/-- The generator has a preset. -/
def preset : State := onTim (spaces.set F.TIME_TC_CFG_LTC_EN 1) (fun t => { t with preset := some 0x01020304 })
/-- The generator runs. -/
def generating : State := spaces.set F.TIME_TC_CFG_LTC_EN 1
/-- LTC is not set. -/
def noLtc : State := without Fn.LTC spaces
/-- The serial ports run. -/
def serial : State := st spaces [(F.ASER_CTL_EN 0, 1), (F.ASER_CTL_EN 1, 1), (F.ASER_CFG_DATA7 1, 1), (F.ASER_CFG_PARITY 1, 1)]
/-- Characters wait at each port. -/
def serialQueues (n : Nat) (b : Option Nat) : State := { serial with aser := serial.aser.map (fun p => { p with rx := List.replicate n ⟨5, 0, 9⟩, tx := List.replicate n 7, busy := b }) }
/-- Five. -/
def serial5 : State := serialQueues 5 (some 9)
/-- None, and one is sent. -/
def serialLast : State := serialQueues 0 (some 9)
/-- 64. -/
def serial64 : State := serialQueues 64 none

/-- States and operands for each clause of MemoryBist. -/
theorem wit_MemoryBist :
  ((recording.dropHeld .firmware).blocked .firmware Pg.BIST 256 = none ∧ (recording.dropHeld .firmware).rwMode Pg.BIST = true ∧
   (recording.dropHeld .firmware).bistMode = false) ∧
  ((bistLast.dropHeld .firmware).blocked .firmware Pg.BIST 256 = none ∧ (bistLast.dropHeld .firmware).rwMode Pg.BIST = true ∧
   (bistLast.dropHeld .firmware).bistMode = true ∧ (bistLast.dropHeld .firmware).bistBusy = true) ∧
  ((bench.dropHeld .firmware).blocked .firmware Pg.BIST 256 = none ∧ (bench.dropHeld .firmware).rwMode Pg.BIST = true ∧
   (bench.dropHeld .firmware).bistMode = true ∧ (bench.dropHeld .firmware).bistBusy = false ∧
   List.filter (bench.dropHeld .firmware).arrayOn (List.filter (fun a => (bench.dropHeld .firmware).getBit F.BIST_ARRAY_MASK_MASK a)
   (List.range 14)) ≠ []) ∧
  ((noArrays.dropHeld .firmware).blocked .firmware Pg.BIST 256 = none ∧ (noArrays.dropHeld .firmware).rwMode Pg.BIST = true ∧
   (noArrays.dropHeld .firmware).bistMode = true ∧ (noArrays.dropHeld .firmware).bistBusy = false ∧
   List.filter (noArrays.dropHeld .firmware).arrayOn (List.filter (fun a => (noArrays.dropHeld .firmware).getBit F.BIST_ARRAY_MASK_MASK a)
   (List.range 14)) = []) ∧
  ((bistLast.dropHeld .firmware).blocked .firmware Pg.BIST 256 = none ∧ (bistLast.dropHeld .firmware).rwMode Pg.BIST = true ∧
   (bistLast.dropHeld .firmware).get F.BIST_STATUS_RUN_BUSY = 1) ∧
  ((bench.dropHeld .firmware).blocked .firmware Pg.BIST 256 = none ∧ (bench.dropHeld .firmware).rwMode Pg.BIST = true ∧
   (bench.dropHeld .firmware).get F.BIST_STATUS_RUN_BUSY = 0) ∧
  ((bench.dropHeld .firmware).blocked .firmware Pg.BIST 256 = none ∧ (bench.dropHeld .firmware).rwMode Pg.BIST = true ∧
   ((bench.dropHeld .firmware).mode ≠ Md.SERVICE ∨ (bench.dropHeld .firmware).bistBusy = true ∨ ((bench.dropHeld .firmware).rep (14 %
   32)).fused = true ∨ 14 ≤ 14 % 32)) ∧
  ((bench.dropHeld .firmware).blocked .firmware Pg.BIST 256 = none ∧ (bench.dropHeld .firmware).rwMode Pg.BIST = true ∧
   (bench.dropHeld .firmware).mode = Md.SERVICE ∧ (bench.dropHeld .firmware).bistBusy = false ∧
   (bench.dropHeld .firmware).get F.BIST_STATUS_FUSE_BUSY = 0 ∧ ((bench.dropHeld .firmware).rep (3 % 32)).fused = false) ∧
  (bench.bist.run.find? 3 = none) ∧
  (bistTwo.bist.run.find? 3 = some 5 ∧ bistTwo.arrayOn 3 = true) ∧
  (bistLast.bist.run = [(3, 1)]) ∧
  (bench.spareRow 3 = some 0) ∧
  (bench.spareRow 14 = none) ∧
  (bench.get F.BIST_STATUS_FUSE_BUSY = 0) ∧
  (fusing.get F.BIST_STATUS_FUSE_BUSY ≠ 0) := by
  refine ⟨?_, ?_, ?_, ?_, ?_, ?_, ?_, ?_, ?_, ?_, ?_, ?_, ?_, ?_, ?_⟩ <;> decide +kernel

/-- States and operands for each clause of Injectors. -/
theorem wit_Injectors :
  ((armedDrop.dropHeld .firmware).blocked .firmware Pg.FI (256 + 64 * 3) = none ∧ (armedDrop.dropHeld .firmware).rwMode Pg.FI = true ∧
   ((armedDrop.dropHeld .firmware).get (F.FI_CFG_STATE 3) = 1 ∨ (armedDrop.dropHeld .firmware).get (F.FI_CFG_STATE 3) = 2) ∧
   bit 16 4 = true) ∧
  ((armedDrop.dropHeld .firmware).blocked .firmware Pg.FI (256 + 64 * 3) = none ∧ (armedDrop.dropHeld .firmware).rwMode Pg.FI = true ∧
   ((armedDrop.dropHeld .firmware).get (F.FI_CFG_STATE 3) = 1 ∨ (armedDrop.dropHeld .firmware).get (F.FI_CFG_STATE 3) = 2) ∧
   bit 0 4 = false) ∧
  ((forbidden.dropHeld .firmware).blocked .firmware Pg.FI (256 + 64 * 3) = none ∧ (forbidden.dropHeld .firmware).rwMode Pg.FI = true ∧
   (forbidden.dropHeld .firmware).get (F.FI_CFG_STATE 3) ≠ 1 ∧ (forbidden.dropHeld .firmware).get (F.FI_CFG_STATE 3) ≠ 2 ∧
   bits 16 0 2 < 3 ∧ bit 16 4 = true ∧ (forbidden.dropHeld .firmware).fiPermitted = false) ∧
  ((unset.dropHeld .firmware).blocked .firmware Pg.FI (256 + 64 * 3) = none ∧ (unset.dropHeld .firmware).rwMode Pg.FI = true ∧
   (unset.dropHeld .firmware).get (F.FI_CFG_STATE 3) ≠ 1 ∧ (unset.dropHeld .firmware).get (F.FI_CFG_STATE 3) ≠ 2 ∧ bits 16 0 2 < 3 ∧
   bit 16 4 = true ∧ (unset.dropHeld .firmware).fiPermitted = true ∧
   ((unset.dropHeld .firmware).get (F.FI_EVERY_N 3) = 0 ∨ (unset.dropHeld .firmware).get (F.FI_POS_SPAN 3) = 0 ∨ 64 < (unset.dropHeld
   .firmware).get (F.FI_POS_SPAN 3) ∨ bits 16 0 2 = 2 ∧
   (3 = 4 ∨ 3 = 5 ∨ (unset.dropHeld .firmware).get (F.FI_POS_WINDOW 3) = 0) ∨ bit 16 3 = true ∧ (3 = 0 ∨ 4 ≤ 3))) ∧
  ((unarmed.dropHeld .firmware).blocked .firmware Pg.FI (256 + 64 * 3) = none ∧ (unarmed.dropHeld .firmware).rwMode Pg.FI = true ∧
   (unarmed.dropHeld .firmware).get (F.FI_CFG_STATE 3) ≠ 1 ∧ (unarmed.dropHeld .firmware).get (F.FI_CFG_STATE 3) ≠ 2 ∧ bits 16 0 2 < 3 ∧
   bit 16 4 = true ∧ (unarmed.dropHeld .firmware).fiPermitted = true ∧ (unarmed.dropHeld .firmware).get (F.FI_EVERY_N 3) ≠ 0 ∧
   (unarmed.dropHeld .firmware).get (F.FI_POS_SPAN 3) ≠ 0 ∧ (unarmed.dropHeld .firmware).get (F.FI_POS_SPAN 3) ≤ 64 ∧ bits 16 0 2 ≠ 2 ∧
   bit 16 3 = false) ∧
  ((unarmed.dropHeld .firmware).blocked .firmware Pg.FI 16 = none ∧ (unarmed.dropHeld .firmware).rwMode Pg.FI = true) ∧
  (unarmed.get (F.FI_CFG_STATE 3) ≠ 1 ∧ unarmed.get (F.FI_CFG_STATE 3) ≠ 2) ∧
  (armedPass.get (F.FI_CFG_STATE 3) = 1 ∧
   (armedPass.get (F.FI_UNITS_COUNT 3) < armedPass.get (F.FI_EVERY_START 3) ∨ (armedPass.get (F.FI_UNITS_COUNT 3) - armedPass.get
   (F.FI_EVERY_START 3)) % armedPass.get (F.FI_EVERY_N 3) ≠ 0)) ∧
  (armedDrop.get (F.FI_CFG_STATE 3) = 1 ∧ armedDrop.get (F.FI_EVERY_START 3) ≤ armedDrop.get (F.FI_UNITS_COUNT 3) ∧
   armedDrop.get (F.FI_EVERY_N 3) ≠ 0 ∧
   (armedDrop.get (F.FI_UNITS_COUNT 3) - armedDrop.get (F.FI_EVERY_START 3)) % armedDrop.get (F.FI_EVERY_N 3) = 0 ∧
   armedDrop.get (F.FI_CFG_SHOT 3) = 1) ∧
  (armedDrop.get (F.FI_CFG_STATE 3) = 1 ∧ armedDrop.get (F.FI_EVERY_START 3) ≤ armedDrop.get (F.FI_UNITS_COUNT 3) ∧
   armedDrop.get (F.FI_EVERY_N 3) ≠ 0 ∧
   (armedDrop.get (F.FI_UNITS_COUNT 3) - armedDrop.get (F.FI_EVERY_START 3)) % armedDrop.get (F.FI_EVERY_N 3) = 0 ∧
   armedDrop.get (F.FI_CFG_ACTION 3) = 0) ∧
  (armedCorrupt.get (F.FI_CFG_STATE 3) = 1 ∧ armedCorrupt.get (F.FI_EVERY_START 3) ≤ armedCorrupt.get (F.FI_UNITS_COUNT 3) ∧
   armedCorrupt.get (F.FI_EVERY_N 3) ≠ 0 ∧
   (armedCorrupt.get (F.FI_UNITS_COUNT 3) - armedCorrupt.get (F.FI_EVERY_START 3)) % armedCorrupt.get (F.FI_EVERY_N 3) = 0 ∧
   armedCorrupt.get (F.FI_CFG_ACTION 3) = 1) := by
  refine ⟨?_, ?_, ?_, ?_, ?_, ?_, ?_, ?_, ?_, ?_, ?_⟩ <;> decide +kernel

/-- States and operands for each clause of TimeKeeping. -/
theorem wit_TimeKeeping :
  (noSupply.keep.powered = false) ∧
  (spaces.keep.powered = true ∧ spaces.get F.TIME_ALARM_EN = 0 ∧ -32768 < spaces.keep.phase ∧ spaces.keep.phase < 32768) ∧
  (keeping.keep.powered = true ∧ keeping.get F.TIME_ALARM_EN = 0 ∧ keeping.mode = Md.KEEP) ∧
  (spaces.keep.powered = true ∧ spaces.get F.TIME_ALARM_EN = 0 ∧ spaces.mode ≠ Md.KEEP) ∧
  (spaces.keep.powered = true ∧ spaces.get F.TIME_ALARM_EN = 0 ∧ 0 ≤ ↑0 + signed 8 (spaces.get F.TIME_TRIM_COUNTS) ∧
   ↑0 + signed 8 (spaces.get F.TIME_TRIM_COUNTS) < 32768) ∧
  (trimDown.keep.powered = true ∧ trimDown.get F.TIME_ALARM_EN = 0 ∧ ↑0 + signed 8 (trimDown.get F.TIME_TRIM_COUNTS) < 0) ∧
  (trimUp.keep.powered = true ∧ trimUp.get F.TIME_ALARM_EN = 0 ∧ 32768 ≤ ↑32767 + signed 8 (trimUp.get F.TIME_TRIM_COUNTS)) ∧
  (alarmed.keep.powered = true ∧ alarmed.get F.TIME_ALARM_EN = 1 ∧ alarmed.mode ≠ Md.KEEP ∧ alarmed.mode ≠ Md.REST ∧
   alarmed.get F.TIME_ALARM_SECONDS ≤ (alarmed.keep.seconds + 1) % 2 ^ 48) ∧
  ((spaces.dropHeld .firmware).blocked .firmware Pg.TIME 272 = none ∧ (spaces.dropHeld .firmware).rwMode Pg.TIME = true ∧
   (spaces.dropHeld .firmware).get F.TIME_ALARM_EN = 0) ∧
  ((spaces.dropHeld .firmware).blocked .firmware Pg.TIME 296 = none ∧ (spaces.dropHeld .firmware).rwMode Pg.TIME = true ∧
   ((2 ^ 15 * 50 + 1) % 2 = 0 ∨ (spaces.dropHeld .firmware).keep.seconds < bits (2 ^ 15 * 50 + 1) 15 48)) ∧
  ((later.dropHeld .firmware).blocked .firmware Pg.TIME 296 = none ∧ (later.dropHeld .firmware).rwMode Pg.TIME = true ∧
   bits (2 ^ 15 * 7 + 1) 15 48 ≤ (later.dropHeld .firmware).keep.seconds ∧ (later.dropHeld .firmware).mode ≠ Md.REST) ∧
  ((keeping.mode = Md.KEEP ∨ keeping.railValid 0 = false)) ∧
  (spaces.mode ≠ Md.KEEP ∧ spaces.railValid 0 = true) ∧
  (backup.mode ≠ Md.KEEP ∧ backup.railValid 0 = true ∧ 1600 < backup.get F.TIME_VBAK_CFG_LOW_MV ∧
   backup.get F.TIME_VBAK_CFG_LOW_MV ≤ backup.get F.TIME_VBAK_MV) ∧
  (keeping.get F.CLK_REF_STATUS_RTC_OK = 1 ∧ keeping.mode = Md.KEEP) ∧
  (spaces.get F.CLK_REF_STATUS_RTC_OK = 1 ∧ spaces.mode ≠ Md.KEEP) ∧
  (rtcLostKeep.get F.CLK_REF_STATUS_RTC_OK = 0 ∧ rtcLostKeep.mode = Md.KEEP) ∧
  (rtcLost.get F.CLK_REF_STATUS_RTC_OK = 0 ∧ rtcLost.mode ≠ Md.KEEP) ∧
  ((keeping.mode = Md.KEEP ∨ keeping.tb % 256 ≠ 0)) ∧
  (spaces.mode ≠ Md.KEEP ∧ spaces.tb % 256 = 0) := by
  refine ⟨?_, ?_, ?_, ?_, ?_, ?_, ?_, ?_, ?_, ?_, ?_, ?_, ?_, ?_, ?_, ?_, ?_, ?_, ?_, ?_⟩ <;> decide +kernel

/-- States and operands for each clause of Timecode. -/
theorem wit_Timecode :
  ((ltcOff.ready Fn.LTC = false ∨ ltcOff.tim.ltcEn = false)) ∧
  (spaces.ready Fn.LTC = true ∧ spaces.tim.ltcEn = true ∧ (true = false ∨ tcValid 1 2576980377 = false)) ∧
  (ltcOne.ready Fn.LTC = true ∧ ltcOne.tim.ltcEn = true ∧ tcValid 1 16909061 = true ∧ ltcOne.get F.TIME_STATUS_LTC_LOCK = 0 ∧
   ltcOne.tim.cand ≠ none ∧ (∀ x ∈ ltcOne.tim.cand, x.snd = 1 ∧ 16909061 = tcNext 1 x.fst)) ∧
  (spaces.ready Fn.LTC = true ∧ spaces.tim.ltcEn = true ∧ tcValid 1 16909060 = true ∧ spaces.get F.TIME_STATUS_LTC_LOCK = 0 ∧
   (∀ x ∈ spaces.tim.cand, x.snd ≠ 1 ∨ 16909060 ≠ tcNext 1 x.fst)) ∧
  (ltcLocked.ready Fn.LTC = true ∧ ltcLocked.tim.ltcEn = true ∧ tcValid 2 16909060 = true ∧ ltcLocked.get F.TIME_STATUS_LTC_LOCK = 1 ∧
   2 ≠ ltcLocked.get F.TIME_STATUS_LTC_RATE) ∧
  (ltcLocked.ready Fn.LTC = true ∧ ltcLocked.tim.ltcEn = true ∧ tcValid 1 16909060 = true ∧ ltcLocked.get F.TIME_STATUS_LTC_LOCK = 1 ∧
   1 = ltcLocked.get F.TIME_STATUS_LTC_RATE) ∧
  (noLtc.ready Fn.LTC = false) ∧
  (preset.ready Fn.LTC = true ∧ preset.tim.ltcEn = true ∧ preset.get F.TIME_TC_CFG_LTC_EN = 1 ∧ preset.tim.preset = some 16909060) ∧
  (spaces.ready Fn.LTC = true ∧ spaces.tim.ltcEn = true ∧ spaces.get F.TIME_TC_CFG_LTC_EN = 1 ∧ spaces.tim.preset = none ∧
   spaces.tim.genCfg = spaces.get F.TIME_TC_CFG_GEN_RATE) ∧
  ((spaces.dropHeld .firmware).blocked .firmware Pg.TIME 352 = none ∧ (spaces.dropHeld .firmware).rwMode Pg.TIME = true ∧
   ((spaces.dropHeld .firmware).get F.TIME_STATUS_LTC_LOCK = 1 ∨ tcValid ((spaces.dropHeld .firmware).get F.TIME_TC_CFG_GEN_RATE)
   (2576980377 % 2 ^ 32) = false)) ∧
  ((spaces.dropHeld .firmware).blocked .firmware Pg.TIME 352 = none ∧ (spaces.dropHeld .firmware).rwMode Pg.TIME = true ∧
   (spaces.dropHeld .firmware).get F.TIME_STATUS_LTC_LOCK = 0 ∧
   tcValid ((spaces.dropHeld .firmware).get F.TIME_TC_CFG_GEN_RATE) (16909060 % 2 ^ 32) = true) := by
  refine ⟨?_, ?_, ?_, ?_, ?_, ?_, ?_, ?_, ?_, ?_, ?_⟩ <;> decide +kernel

/-- States and operands for each clause of SerialPorts. -/
theorem wit_SerialPorts :
  (spaces.aser.length = 2 ∧ spaces.uartOn 1 = false) ∧
  (serial.aser.length = 2 ∧ serial.uartOn 1 = true ∧ serial.captures 1 = false ∧ (serial.uart 1).rx.length < 64) ∧
  (serial64.aser.length = 2 ∧ serial64.uartOn 1 = true ∧ serial64.captures 1 = false ∧ 64 ≤ (serial64.uart 1).rx.length) ∧
  (spaces.aser.length = 2 ∧ (spaces.uart 1).busy = none) ∧
  (serialLast.aser.length = 2 ∧ (serialLast.uart 1).busy = some 9 ∧ (serialLast.uart 1).tx = []) ∧
  (serial5.aser.length = 2 ∧ (serial5.uart 1).busy = some 9 ∧ serial5.get (F.ASER_CTL_EN 1) = 1 ∧
   serial5.get (F.ASER_CTL_SEND_BREAK 1) = 0) ∧
  (serial64.aser.length = 2 ∧ (serial64.dropHeld .firmware).blocked .firmware Pg.ASER (aserBase 1 + 32) = none ∧
   (serial64.dropHeld .firmware).rwMode Pg.ASER = true ∧ 64 ≤ ((serial64.dropHeld .firmware).uart 1).tx.length) ∧
  (serial5.aser.length = 2 ∧ (serial5.dropHeld .firmware).blocked .firmware Pg.ASER (aserBase 1 + 32) = none ∧
   (serial5.dropHeld .firmware).rwMode Pg.ASER = true ∧ ((serial5.dropHeld .firmware).uart 1).tx.length < 64 ∧
   ((serial5.dropHeld .firmware).uart 1).busy.isSome = true) ∧
  (serial.aser.length = 2 ∧ (serial.dropHeld .firmware).blocked .firmware Pg.ASER (aserBase 1 + 32) = none ∧
   (serial.dropHeld .firmware).rwMode Pg.ASER = true ∧ ((serial.dropHeld .firmware).uart 1).tx = [] ∧
   ((serial.dropHeld .firmware).uart 1).busy = none ∧ (serial.dropHeld .firmware).get (F.ASER_CTL_EN 1) = 1 ∧
   (serial.dropHeld .firmware).get (F.ASER_CTL_SEND_BREAK 1) = 0) ∧
  (spaces.aser.length = 2 ∧ (spaces.dropHeld .firmware).blocked .firmware Pg.ASER (aserBase 1 + 24) = none ∧
   (spaces.dropHeld .firmware).rwMode Pg.ASER = true) ∧
  (spaces.aser.length = 2 ∧ (spaces.dropHeld .firmware).blocked .firmware Pg.ASER (aserBase 1) = none ∧
   (spaces.dropHeld .firmware).rwMode Pg.ASER = true) ∧
  (serial.aser.length = 2 ∧ (serial.dropHeld .firmware).blocked .firmware Pg.ASER (aserBase 1 + 8) = none ∧
   (serial.dropHeld .firmware).rwMode Pg.ASER = true ∧ (serial.dropHeld .firmware).get (F.ASER_CTL_EN 1) = 1) ∧
  (spaces.aser.length = 2 ∧ (spaces.dropHeld .firmware).blocked .firmware Pg.ASER (aserBase 1 + 8) = none ∧
   (spaces.dropHeld .firmware).rwMode Pg.ASER = true ∧ (spaces.dropHeld .firmware).get (F.ASER_CTL_EN 1) ≠ 1 ∧
   bits (333 + 2 ^ 26 + 12 * 2 ^ 32) 26 2 < 3 ∧ 333 ≤ bits (333 + 2 ^ 26 + 12 * 2 ^ 32) 0 22 ∧
   bits (333 + 2 ^ 26 + 12 * 2 ^ 32) 0 22 ≤ 208334 ∧ frameBits (333 + 2 ^ 26 + 12 * 2 ^ 32) < bits (333 + 2 ^ 26 + 12 * 2 ^ 32) 32 6) := by
  refine ⟨?_, ?_, ?_, ?_, ?_, ?_, ?_, ?_, ?_, ?_, ?_, ?_, ?_⟩ <;> decide +kernel

/-! ### Witnesses of the structural statements -/

/-- Whether a command answers a next state. -/
def goesOn (c : Instr) (s : State) : Bool := match exec c s with | .next _ => true | _ => false

/-- A write of a client that forwards, and a read of it. -/
theorem wit_ForwardWritesAreVisible :
  dram.dramOn = true ∧ (dram.dram.mem.wf = true ∧ dram.nv.store.wf = true) ∧ dram.dramSize = 2 ^ 20 ∧ dram.forwards 1 = true ∧ dram.dram.waiting = [] ∧
  dram.queueRoom ⟨dram.dram.nextW, 1, true, 64, [1, 2, 3], false⟩ = true ∧ goesOn (.dramWrite 1 64 [1, 2, 3] false) dram = true ∧
  (run (.dramWrite 1 64 [1, 2, 3] false) dram).chunkPoison 2 64 = false ∧ goesOn (.dramRead 2 64 3 0) (run (.dramWrite 1 64 [1, 2, 3] false) dram) = true := by
  decide +kernel

/-- A queue with a command at its front. -/
theorem wit_StepRunsTheFrontCommand : ({ idle with pending := [.snapInEdge true, .xtalLoss] } : State).pending = .snapInEdge true :: [.xtalLoss] := rfl

/-- An empty queue. -/
theorem wit_EmptyQueueTicks : State.reset.pending = [] ∧ idle.pending = [] ∧ inKeep.mode = Md.KEEP ∧ inKeep.pending = [] := by decide +kernel

/-- Memories in their canonical form: at reset, and with a write in the DRAM. -/
theorem wit_StepsCompleteAndKeepMemory :
  (State.reset.dram.mem.wf = true ∧ State.reset.nv.store.wf = true) ∧
  ((run (.dramWriteIssued 0) dramQueued).dram.mem.wf = true ∧ (run (.dramWriteIssued 0) dramQueued).nv.store.wf = true) := by
  decide +kernel

/-- A response to a debug challenge that is good exactly where its signature is. -/
def response : State := (onNv challengeOwned (fun n => { n with dbgKey := 5 })).set F.DBG_RESP_HDR_AUTHORITY 2
theorem wit_TamperAndDebug_response : response.dbgGood = Config.ecdsaOk 5 response.dbgMessage response.dbgSig := by
  have h : (response.get F.DBG_RESP_HDR_AUTHORITY = 2 ∧ response.nv.dbgKey = 5) ∧ (response.get F.DBG_STATUS_CHAL_VALID = 1 ∧
      response.get F.DBG_RESP_HDR_LEVEL = 1 ∧ levelCap 2 response.secState = 2 ∧ response.get F.DBG_RESP_HDR_LIFETIME_S = 100) := by decide +kernel
  simp [State.dbgGood, h]

/-! ### Well-formedness: an ill-formed command for each check -/

/-- Each check refuses a value past its bound. -/
theorem test_wf_operands :
  (Instr.registerWrite .camera 0x100000 8 5).wf = false ∧ (Instr.lowHalfRead .camera 0x1000 65).wf = false ∧
  (Instr.halfWriteLow .camera 0x1000 (2 ^ 32)).wf = false ∧ (Instr.arbitrationWindowStart [1, 8]).wf = false ∧
  (Instr.shadowCommit .camera 96 1).wf = false ∧ (Instr.islandStopComplete 24).wf = false ∧ (Instr.functionFault 48).wf = false ∧
  (Instr.modeReq .camera 16).wf = false ∧ (Instr.bankLevelDecided 5 1).wf = false ∧ (Instr.bankLevelDecided 1 0).wf = false ∧
  (Instr.railTrip 15).wf = false ∧ (Instr.refRestored 0).wf = false ∧ (Instr.pllLock 10).wf = false ∧ (Instr.fchClr .camera 64).wf = false ∧
  (Instr.dramRefreshWindow 4).wf = false ∧ (Instr.dramWrite 8 0 [] false).wf = false ∧ (Instr.lockLoss 8).wf = false ∧
  (Instr.busaistSwitch 8).wf = false ∧ (Instr.pairResendTimeout 3).wf = false ∧ (Instr.linkUp 2).wf = false ∧ (Instr.mbxBlockGo .camera 4).wf = false ∧
  (Instr.ping 3).wf = false ∧ (Instr.sdmaGo .camera 8).wf = false ∧ (Instr.crcuClear .camera 4).wf = false ∧ (Instr.bistFuse .camera 14).wf = false ∧
  (Instr.padTimeout 64).wf = false ∧ (Instr.fiCfgWrite .camera 7 0).wf = false := by
  decide +kernel

/-- Each check of a composed operand refuses one. -/
theorem test_wf_composed :
  (Instr.keepAlive ⟨.host 0, 65536⟩).wf = false ∧ (Instr.keepAlive ⟨.host 65536, 0⟩).wf = false ∧ (Instr.read (cid 1 5) { anIo with nlb := 0 }).wf = false ∧
  (Instr.calDone 30 [⟨64, 180000, false, 2, 4, 0⟩]).wf = false ∧ (Instr.busaistAlign [⟨8, 0, 0, 0, 0⟩]).wf = false ∧
  (Instr.channelDiscoveryDone { found1 with chan := 64 }).wf = false ∧ (Instr.trackerRefresh [{ aTrack with lun := 16 }]).wf = false ∧
  (Instr.beat { aBeat with rank := 2 }).wf = false ∧ (Instr.slot { slotMsg with kind := 256 }).wf = false ∧
  (Instr.ident { anIdent with feed := 2 } []).wf = false := by
  decide +kernel

/-- Well-formed commands pass. -/
theorem test_wf_passes :
  (Instr.registerWrite .camera 0xFFFFF 8 5).wf = true ∧ (Instr.read (cid 1 5) anIo).wf = true ∧ (Instr.beat aBeat).wf = true ∧
  (Instr.busaistAlign fourLanes).wf = true ∧ (Instr.slot slotMsg).wf = true := by
  decide +kernel

/-! ### Single commands and operations, with results that the spec states -/

/-- The table gives no row bits: no word spells a command. -/
theorem test_no_word_is_a_command (n w : Nat) : decodeTableWord n w = none := rfl

/-- "123456789" through a check value unit that computes a polynomial. -/
def checked (poly : Nat) : Nat :=
  let s := st spaces [(F.CRCU_CFG_EN 1, 1), (F.CRCU_CFG_POLY 1, poly)]
  let s := run (.feed .firmware 1 0x3837363534333231) (run (.crcuClear .firmware 1) s)
  ((run (.feedPart .firmware 1 (0x39 + 2 ^ 56)) s).regRead .firmware Pg.CRCU (crcuBase 1 + 0x10)).1
/-- The check column of Table 17-7. -/
theorem test_crcu_checks : checked 0 = 0xE3069283 ∧ checked 1 = 0xCBF43926 ∧ checked 2 = 0x6C40DF5F0B497347 ∧ checked 3 = 0xD0DB := by
  decide +kernel

/-- Geometry of Reference Magazine A: 64 channels of two LUNs, four planes, 910 block sets, 9,216 stripes a band. -/
def magazineA : State := st idle ((List.range 64).map (fun c => (F.FCH_STATUS_STATE c, 2)) ++ [0, 38].flatMap (fun c => [(F.FCH_STATUS_LUNS c, 2), (F.FCH_GEOM_PLANES c, 2),
  (F.FCH_GEOM_BLOCKS_PER_PLANE c, 910), (F.FCH_LUN_STATE_STATE c, 5)]) ++ [(F.MAP_GEOM_BAND_STRIPES, 9216), (F.GROOM_CFG_RSV_PCT, 2),
  (F.DRAMC_GEOM_CHANNELS, 0xF), (F.DRAMC_GEOM_RANKS2, 1), (F.DRAMC_GEOM_ROW_BITS, 15), (F.DRAMC_CFG_GRAIN, 4), (F.DRAMC_CFG_ORDER, 0)])
/-- The flash chapter's example: unit 0x6F_E99A lies on FCH38, LUN 1, block set 1, page 250; it is page 63,101 of band 3's order. -/
theorem test_locates_a_unit :
  uaStripe 0x6FE99A = 28649 ∧ uaPos 0x6FE99A = 38 ∧ uaQuarter 0x6FE99A = 2 ∧ magazineA.bandOf 28649 = 3 ∧ magazineA.place 3 38 = (38, 1, 1) ∧
  magazineA.pageRow 28649 = 250 ∧ magazineA.orderPage 3 63101 = (28649, 38) := by
  decide +kernel
/-- The grooming chapter's example: 33 spares, 1,754 bands, a reserve of 36. -/
theorem test_capacity : spareSets 910 = 33 ∧ magazineA.bandTotal = 1754 ∧ magazineA.gcRsv = 36 := by
  decide +kernel
/-- The DRAM chapter's example: an address, its bank and row, and those of its check chunk, under both orders. -/
theorem test_locates_a_dram_address :
  magazineA.dramPlace 0x02001A40 = (1, 0x9254C0) ∧ magazineA.bankRow 0x9254C0 = (10, 146) ∧ magazineA.bankRow 0x9255C0 = (10, 146) ∧
  ((magazineA.set F.DRAMC_CFG_ORDER 1).bankRow 0x9254C0).1 = 4 ∧ ((magazineA.set F.DRAMC_CFG_ORDER 1).bankRow 0x9255C0).1 = 5 := by
  decide +kernel

/-- The ledger's example before its calibration. -/
def uncalibrated : State := onLed (st idle [(F.LEDGER_BANK_CAP_UF, 2820), (F.LEDGER_BANK_V_FULL_MV, 12000), (F.LEDGER_BANK_V_FLOOR_MV, 6000),
  (F.LEDGER_SEAL_CFG_SEAL_PWR_MW, 24000), (F.LEDGER_SEAL_CFG_MARGIN, 4), (F.LEDGER_SEAL_CFG_KEEP_UJ, 200), (F.MAP_CFG_JTAIL_MAX, 512)]) (fun l => { l with calBusy := true })
/-- The same, calibrated. -/
def calibrated : State := run (.calDone 30 ((List.range 64).map (fun c => ⟨c, 180000, false, 2, 4, 40960⟩))) uncalibrated
/-- The ledger chapter's example: cost 675, 109,864 ps a slot, a reserve of 7,694 µJ, an estimate of 2,185 µs. -/
theorem test_calibration :
  calibrated.get F.LEDGER_CAL_RESULT_COST_Q8 = 675 ∧ calibrated.get F.LEDGER_CAL_RESULT_T_SLOT_PS = 109864 ∧
  calibrated.get F.LEDGER_RESERVE_S = 7694 * 256 ∧ calibrated.get F.LEDGER_CAL_TIMES_SEAL_EST_US = 2185 := by
  decide +kernel
/-- A bank of 2,820 µF at 12 V holds 152,280 µJ above its floor of 6 V, and none at it. -/
theorem test_bank_energy : uncalibrated.energyAt 12000 = 152280 * 256 ∧ uncalibrated.energyAt 6000 = 0 := by
  decide +kernel

/-- The budget chapter's example: 145 µJ a window at T0, 135 at T1 and 75 at T2. -/
theorem test_refill :
  let s := st idle [(F.BUDGET_GRANT_GRANT_MW, 25000), (F.BUDGET_BASE_BASE_MW, 10500), (F.BUDGET_THERM_CAP_CAP_T1_MW, 24000), (F.BUDGET_THERM_CAP_CAP_T2_MW, 18000)]
  s.refill = 145 * 16 ∧ (s.set F.BUDGET_STATUS_TSTATE 1).refill = 135 * 16 ∧ (s.set F.BUDGET_STATUS_TSTATE 2).refill = 75 * 16 := by
  decide +kernel

/-- The host chapter's example: 1 MiB is 256 leaves; blocks of 512 bytes take sectors of theirs. -/
theorem test_leaves : (leavesOf 0 0 256).length = 256 ∧ leavesOf 3 6 4 = [(0, 0xC0), (1, 0x03)] := by
  decide +kernel
/-- The same example: Format NVM in Record completes with 7h/0x81, Dword 0 the mode. -/
theorem test_format_refused :
  (run (.formatNvm (cid 0 5) 1 0 0 0 false false) recording).host.cqes.map (fun c => (c.sct, c.sc, c.dw0)) = [(7, 0x81, 4)] := by
  decide +kernel

/-- The mailbox chapter's example: a MODE_REQ for Service, from the request to its reply. -/
def toService : State := run (.mbxModeReq 0) (asked [0x310401, 0xA])
theorem test_mode_request :
  toService.mc.trans = some ⟨10, 0x07⟩ ∧ (run .modeTransitionComplete toService).mode = Md.SERVICE ∧
  (run .modeTransitionComplete toService).queue 1 = [0x318401, 0xA] := by
  decide +kernel
/-- The same example: a REG_READ of DRAMC.SIZE. -/
theorem test_register_request :
  (run (.regRead 0) ((asked [0x320201, 0x16128]).set F.DRAMC_SIZE_BYTES 0x1C0000000)).queue 1 = [0x328201, 0x1C0000000] := by
  decide +kernel

/-- Addresses of timecode: the time chapter's example, a second and a minute's end, and what drop-frame counting omits. -/
theorem test_timecode_counts :
  tcNext 1 0x14050011 = 0x14050012 ∧ tcNext 1 0x14021023 = 0x14021100 ∧ tcNext 5 0x00005929 = 0x00010002 ∧ tcNext 5 0x00095929 = 0x00100000 ∧
  tcValid 5 0x00010000 = false ∧ tcValid 5 0x00100000 = true ∧ tcValid 1 0x14050024 = false := by
  decide +kernel

/-- Channels 12 to 15 lie on one island, and their neighbours on others (R16). -/
theorem test_flash_islands :
  pageIsland (0x20 + 12) = pageIsland (0x20 + 15) ∧ pageIsland (0x20 + 11) ≠ pageIsland (0x20 + 12) ∧ pageIsland (0x20 + 16) ≠ pageIsland (0x20 + 15) := by
  decide +kernel

/-- Take Start answers with the take's number, one above the last used. -/
theorem test_take_number :
  let s := run (.takeStart (cid 0 5) 0 0 0 false) (onMap (md 4 (linked spaces)) (fun m => { m with ts := { m.ts with lastTake := 311 } }))
  s.host.cqes.map (·.dw0) = [312] ∧ s.map.ts.lastTake = 312 := by
  decide +kernel

end Sys2Proof.Tests
end

section
/-!
The balance of the protected buffer's five slot counters (R30, R45, R56): every slot stands in one list, so the live counters sum
to the slots there are; and a snapshot gives each SNAP word of a page that latches the register it stands for, read from the state
at the trigger.
-/

namespace Sys2Proof.Machine

/-! ### Folds -/

/-- Where every step of a fold but that of `x` leaves a value, and the step of `x` gives it, a fold over `x` gives it, and so does any
fold that starts with it. -/
theorem foldl_value_of_mem_or {σ α β : Type} {f : σ → α → σ} {value : σ → β} {x : α} {v : β} (hx : ∀ s, value (f s x) = v)
    (hne : ∀ s y, y ≠ x → value (f s y) = value s) {l : List α} {s : σ} (h : x ∈ l ∨ value s = v) : value (l.foldl f s) = v := by
  induction l generalizing s with
  | nil => exact h.resolve_left List.not_mem_nil
  | cons y l ih =>
    by_cases hy : y = x
    · exact ih (.inr (hy ▸ hx s))
    · refine ih (h.imp (fun hm => ?_) (fun hv => (hne s y hy).trans hv))
      exact (List.mem_cons.mp hm).resolve_left (Ne.symm hy)

/-! ### The SNAP words of a page (R45, R56) -/

/-- A page's header holds its SNAP words (Table 02-2). -/
theorem snapWords_length_le (p : Nat) : (snapWords p).length ≤ 20 := by
  unfold snapWords
  (repeat' split) <;> decide

/-- The register file keeps a SNAP word apart from every field of another page, and from every field of its own page that lies
outside the words' offsets. -/
theorem snapWord_key_ne {p k : Nat} {f : Field} (hk : k < 20) (hoff : f.off < 0x100000) (hlo : f.lo < 64)
    (h : f.page ≠ p ∨ f.off < 0x60 ∨ 0x100 ≤ f.off) : (F.SNAP_WORD p k).key ≠ f.key := by
  simp only [Field.key, F.SNAP_WORD]
  omega

/-- Giving a field of another page, or of the words' own page outside their offsets, a value leaves a SNAP word. -/
theorem State.get_snapWord_set (s : State) {p k : Nat} {f : Field} (v : Nat) (hk : k < 20) (hoff : f.off < 0x100000) (hlo : f.lo < 64)
    (h : f.page ≠ p ∨ f.off < 0x60 ∨ 0x100 ≤ f.off) : (s.set f v).get (F.SNAP_WORD p k) = s.get (F.SNAP_WORD p k) :=
  State.get_set_ne s v (snapWord_key_ne hk hoff hlo h)

/-- SNAP word `k` of page `p` latches, reading the registers of `s0`. -/
def latchWord (s0 : State) (p : Nat) (s : State) (k : Nat) : State :=
  s.set (F.SNAP_WORD p k) (s0.readReg p ((snapWords p).getD k 0))

/-- The SNAP words of page `p` latch: the part of `latchPage` before the page's header. -/
def latchWords (s0 s : State) (p : Nat) : State := (List.range (snapWords p).length).foldl (latchWord s0 p) s

/-- A page's latch gives SNAP words what `latchWords` gives them: SNAP_EPOCH and SNAP_TIME stand apart. -/
theorem latchPage_get_snapWord (s0 s : State) (epoch source p q : Nat) {k : Nat} (hk : k < 20) :
    (latchPage s0 epoch source s p).get (F.SNAP_WORD q k) = (latchWords s0 s p).get (F.SNAP_WORD q k) := by
  unfold latchPage
  rw [State.get_snapWord_set _ _ hk, State.get_snapWord_set _ _ hk, State.get_snapWord_set _ _ hk, State.get_snapWord_set _ _ hk]
  · rfl
  all_goals simp [F.SNAP_TIME, F.SNAP_EPOCH, F.SNAP_SOURCE, F.SNAP_COMMIT_EPOCH]

/-- A word that the page latches takes its register's value. -/
theorem latchWords_get_self (s0 s : State) (p : Nat) {k : Nat} (hk : k < (snapWords p).length) :
    (latchWords s0 s p).get (F.SNAP_WORD p k) = s0.readReg p ((snapWords p).getD k 0) % 2 ^ 64 := by
  refine foldl_value_of_mem_or (f := latchWord s0 p) (value := fun t => t.get (F.SNAP_WORD p k)) (fun t => State.get_set_self t _ _)
    (fun t j hj => State.get_set_ne t _ ?_) (.inl (List.mem_range.mpr hk))
  simp only [Field.key, F.SNAP_WORD]
  omega

/-- The words of another page stay. -/
theorem latchWords_get_ne (s0 s : State) {p q k : Nat} (hq : p ≠ q) (hk : k < 20) :
    (latchWords s0 s p).get (F.SNAP_WORD q k) = s.get (F.SNAP_WORD q k) := by
  refine List.foldlRecOn (motive := fun t : State => t.get (F.SNAP_WORD q k) = s.get (F.SNAP_WORD q k)) _ _ rfl ?_
  intro t ht j hj
  have hj20 : j < 20 := Nat.lt_of_lt_of_le (List.mem_range.mp hj) (snapWords_length_le p)
  have hoff : (F.SNAP_WORD p j).off < 0x100000 := by
    simp only [F.SNAP_WORD]
    omega
  exact (State.get_snapWord_set t _ hk hoff (Nat.zero_lt_succ _) (.inl hq)).trans ht

/-! ### A snapshot -/

/-- Every page lies on an island that serves pages (R44). -/
theorem pageIsland_serves (p : Nat) : pageIsland p ≠ 0 ∧ pageIsland p < 24 := by
  unfold pageIsland
  split
  · omega
  · split <;> decide

/-- A page whose island is ON latches (R56). -/
theorem State.onIslands_contains {s : State} {p : Nat} (h : s.isl (pageIsland p) = 2) : s.onIslands.contains (pageIsland p) = true := by
  obtain ⟨h0, hlt⟩ := pageIsland_serves p
  simp [State.onIslands, h0, hlt, h]

/-- R56: a snapshot gives each SNAP word of a page whose island is ON the register it stands for, as the state at the trigger reads it. -/
theorem State.takeSnapshot_get_snapWord (s : State) (source : Nat) {p k : Nat} (hp : p < 96) (hk : k < (snapWords p).length)
    (hon : s.isl (pageIsland p) = 2) :
    (s.takeSnapshot source).get (F.SNAP_WORD p k) = s.readReg p ((snapWords p).getD k 0) % 2 ^ 64 := by
  have hk20 : k < 20 := Nat.lt_of_lt_of_le hk (snapWords_length_le p)
  have hmem : p ∈ (List.range 96).filter (fun p => s.onIslands.contains (pageIsland p)) :=
    List.mem_filter.mpr ⟨List.mem_range.mpr hp, State.onIslands_contains hon⟩
  have hpages := foldl_value_of_mem_or (value := fun t => t.get (F.SNAP_WORD p k))
    (f := latchPage s (nextEpoch (s.get F.SNAP_LAST_EPOCH_EPOCH)) (2 ^ source))
    (fun t => (latchPage_get_snapWord s t _ _ p p hk20).trans (latchWords_get_self s t p hk))
    (fun t q hq => (latchPage_get_snapWord s t _ _ q p hk20).trans (latchWords_get_ne s t hq hk20))
    (s := s) (.inl hmem)
  unfold State.takeSnapshot
  change State.get (State.set _ _ _) _ = _
  rw [State.get_snapWord_set _ _ hk20, State.get_snapWord_set _ _ hk20, State.get_snapWord_set _ _ hk20,
    State.get_snapWord_set _ _ hk20, State.get_snapWord_set _ _ hk20]
  · exact hpages
  all_goals
    simp [F.SNAP_SKEW_SPREAD, F.SNAP_SKEW_LATCHED, F.SNAP_STATE_HELD, F.SNAP_LAST_TIME_TIME, F.SNAP_LAST_EPOCH_EPOCH]

/-! ### The slot counters (Table 01-3, R28, R30) -/

/-- Every slot that is not free stands in exactly one of the four lists. -/
theorem State.inList_sum (s : State) :
    s.inList .filling + s.inList .durable + s.inList .programming + s.inList .mirror = s.slots.length := by
  unfold State.inList
  induction s.slots with
  | nil => rfl
  | cons x l ih =>
    simp only [List.filter_cons]
    cases x.lst <;> simp <;> omega

/-- The five lists hold every slot of the buffer between them. -/
theorem State.slotCounts_sum {s : State} (h : s.bufferOk) :
    s.free + s.inList .filling + s.inList .durable + s.inList .programming + s.inList .mirror = 16384 := by
  have hsum := s.inList_sum
  have hfree : s.free = 16384 - s.slots.length := rfl
  have hle : s.slots.length ≤ 16384 := h
  omega

/-- The slot count that PBUF shows in the register of its SNAP word `k`, for the five lists of Table 01-3. -/
def State.slotCount (s : State) : Nat → Nat
  | 0 => s.free
  | 1 => s.inList .filling
  | 2 => s.inList .durable
  | 3 => s.inList .programming
  | _ => s.inList .mirror

/-- No list holds more slots than the buffer has. -/
theorem State.slotCount_le {s : State} (h : s.bufferOk) (k : Nat) : s.slotCount k ≤ 16384 := by
  have hsum := State.slotCounts_sum h
  unfold State.slotCount
  split <;> omega

/-- A register of PBUF that holds one field from bit 0 on reads that field. -/
theorem State.readReg_pbuf (s : State) {off : Nat} {f : Field} (hoff : 0x100 ≤ off) (hf : fieldsAt Pg.PBUF off = [f]) (hlo : f.lo = 0) :
    s.readReg Pg.PBUF off = s.readField f := by
  have hheader : off ≠ 0x000 ∧ off ≠ 0x008 ∧ off ≠ 0x030 ∧ off ≠ 0x048 := by omega
  obtain ⟨hid, hcaps, hevt, hshadow⟩ := hheader
  have hwhole : s.wholeReg Pg.PBUF off = none := by
    simp [State.wholeReg, Pg.PBUF, hid, hcaps, hevt]
  have hwindow : s.window Pg.PBUF off = off := rfl
  simp [State.readReg, hwhole, hwindow, hf, hlo, hshadow]

/-- The registers that PBUF's first five SNAP words latch read the slot counts. -/
theorem State.readReg_slotCount (s : State) {k : Nat} (hk : k < 5) :
    s.readReg Pg.PBUF ((snapWords Pg.PBUF).getD k 0) = s.slotCount k := by
  match k, hk with
  | 0, _ => exact s.readReg_pbuf (off := 0x100) (f := F.PBUF_FREE_COUNT) (by decide) (by decide) rfl
  | 1, _ => exact s.readReg_pbuf (off := 0x108) (f := F.PBUF_FILLING_COUNT) (by decide) (by decide) rfl
  | 2, _ => exact s.readReg_pbuf (off := 0x110) (f := F.PBUF_DURABLE_COUNT) (by decide) (by decide) rfl
  | 3, _ => exact s.readReg_pbuf (off := 0x118) (f := F.PBUF_PROGRAMMING_COUNT) (by decide) (by decide) rfl
  | 4, _ => exact s.readReg_pbuf (off := 0x120) (f := F.PBUF_MIRROR_PEND_COUNT) (by decide) (by decide) rfl

/-- A snapshot with PBUF's island ON latches the slot counts of the state at the trigger. -/
theorem State.takeSnapshot_get_slotCount {s : State} (h : s.bufferOk) (hon : s.isl 6 = 2) (source : Nat) {k : Nat} (hk : k < 5) :
    (s.takeSnapshot source).get (F.SNAP_WORD Pg.PBUF k) = s.slotCount k := by
  have hlt : s.slotCount k < 2 ^ 64 := Nat.lt_of_le_of_lt (State.slotCount_le h k) (by decide)
  have hwords : k < (snapWords Pg.PBUF).length := Nat.lt_of_lt_of_le hk (by decide)
  rw [State.takeSnapshot_get_snapWord s source (by decide) hwords hon, State.readReg_slotCount s hk, Nat.mod_eq_of_lt hlt]

/-- Settles O16: the live counters are computed from the slots, of which each stands in one list; a snapshot latches these counts from
the one state at its trigger. -/
theorem bufferCountsSumToTotal : Obligations.BufferCountsSumToTotal := by
  unfold Obligations.BufferCountsSumToTotal
  intro s h
  refine ⟨State.slotCounts_sum h, fun hon source => ?_⟩
  dsimp only
  have latched := fun (k : Nat) (hk : k < 5) => State.takeSnapshot_get_slotCount h hon source hk
  rw [latched 0 (by decide), latched 1 (by decide), latched 2 (by decide), latched 3 (by decide), latched 4 (by decide)]
  exact State.slotCounts_sum h

end Sys2Proof.Machine
end

section
/-!
Half-writes (R47, R59, R60): a low half is held for its requester, and the high half of the same register performs both as the one
64-bit write of the register.
-/

namespace Sys2Proof.Machine

/-! ### The holding registers -/

/-- A half-write holding register holds what it was given. -/
@[simp] theorem State.heldW_setHeldW_self (s : State) (who : Req) (h : Option Half) : (s.setHeldW who h).heldW who = h := by
  cases who <;> rfl

/-- Each requester has a half-write holding register of its own. -/
theorem State.heldW_setHeldW_ne (s : State) {who w : Req} (h : Option Half) (hw : w ≠ who) : (s.setHeldW who h).heldW w = s.heldW w := by
  cases who with
  | camera => cases w with | camera => contradiction | firmware | sniwyn => rfl
  | firmware => cases w with | firmware => contradiction | camera | sniwyn => rfl
  | sniwyn => cases w with | sniwyn => contradiction | camera | firmware => rfl

/-- What is captured of a read is apart from what is held of writes. -/
@[simp] theorem State.heldW_setHeldR (s : State) (who w : Req) (h : Option Half) : (s.setHeldR who h).heldW w = s.heldW w := by
  cases who <;> cases w <;> rfl

/-- The two holding registers of a requester may be written in either order. -/
theorem State.setHeldR_setHeldW (s : State) (who : Req) (r w : Option Half) :
    (s.setHeldW who w).setHeldR who r = (s.setHeldR who r).setHeldW who w := by
  cases who <;> rfl

/-- What is held of writes does not change the mode. -/
@[simp] theorem State.setHeldW_mode (s : State) (who : Req) (h : Option Half) : (s.setHeldW who h).mode = s.mode := by
  cases who <;> rfl

/-! ### Accesses outside Keep -/

/-- Outside Keep a write of a low half is served. -/
theorem exec_halfWriteLow {s : State} (who : Req) (addr v : Nat) (h : s.mode ≠ Md.KEEP) :
    exec (.halfWriteLow who addr v) s = .next (s.writeLow who (regOf addr) v) := by
  change execHalfWriteLow who addr v s = _
  simp [execHalfWriteLow, done, State.fabricUp, h]

/-- Outside Keep a write of a high half is served. -/
theorem exec_halfWriteHigh {s : State} (who : Req) (addr v : Nat) (h : s.mode ≠ Md.KEEP) :
    exec (.halfWriteHigh who addr v) s = .next (s.writeHigh who (regOf addr + 4) v) := by
  change execHalfWriteHigh who addr v s = _
  simp [execHalfWriteHigh, done, State.fabricUp, h]

/-- An access of eight bytes at a register is one piece. -/
theorem pieces_regOf (addr : Nat) : pieces 8 (regOf addr) 8 = [(regOf addr, 8)] := by
  have haligned : regOf addr % 8 = 0 := Nat.mul_mod_left _ _
  simp [pieces, haligned]

/-- Outside Keep a 64-bit write of a register drops the requester's halves and writes every bit of the register. -/
theorem exec_registerWrite_regOf {s : State} (who : Req) (addr v : Nat) (h : s.mode ≠ Md.KEEP) :
    exec (.registerWrite who (regOf addr) 8 v) s =
      .next ((s.dropHeld who).regWrite who (regOf addr / 0x1000) (regOf addr % 0x1000) (v % 2 ^ 64) (2 ^ 64 - 1)) := by
  change execRegisterWrite who (regOf addr) 8 v s = _
  simp [execRegisterWrite, done, State.fabricUp, h, pieces_regOf, State.writePiece]

/-! ### The two half-writes -/

/-- A low half is held, whatever was held before it. -/
theorem State.writeLow_heldW (s : State) (who : Req) (a v : Nat) : (s.writeLow who a v).heldW who = some ⟨a, v % 2 ^ 32⟩ :=
  State.heldW_setHeldW_self _ _ _

/-- With no half of another register held, a low half changes the requester's two holding registers alone. -/
theorem State.writeLow_sameRegister {s : State} {who : Req} {a : Nat} (v : Nat) (h : (s.heldW who).all (fun x => x.addr = a) = true) :
    s.writeLow who a v = (s.setHeldR who none).setHeldW who (some ⟨a, v % 2 ^ 32⟩) := by
  unfold State.writeLow
  cases hheld : s.heldW who with
  | none => simp [State.dropHeld_none hheld]
  | some x =>
    have haddr : x.addr = a := by simpa [hheld] using h
    simp [haddr]

/-- Such a low half leaves everything outside the fabric as it is. -/
theorem State.writeLow_onlyFabric {s : State} {who : Req} {a : Nat} (v : Nat) (h : (s.heldW who).all (fun x => x.addr = a) = true) :
    s.writeLow who a v = { s with fabric := (s.writeLow who a v).fabric } := by
  rw [State.writeLow_sameRegister v h]
  cases who <;> rfl

/-- Such a low half leaves what the other requesters hold. -/
theorem State.writeLow_heldW_ne {s : State} {who w : Req} {a : Nat} (v : Nat) (h : (s.heldW who).all (fun x => x.addr = a) = true)
    (hw : w ≠ who) : (s.writeLow who a v).heldW w = s.heldW w := by
  rw [State.writeLow_sameRegister v h, State.heldW_setHeldW_ne _ _ hw, State.heldW_setHeldR]

/-- The high half's address lies in the register of the low half. -/
theorem regOf_regOf_add_four (addr : Nat) : regOf (regOf addr + 4) = regOf addr := by
  unfold regOf
  omega

/-- The high half of the register whose low half is held writes every bit of the register, once both holding registers are empty. -/
theorem State.writeHigh_joins {s : State} {who : Req} {addr lo : Nat} (hi : Nat) (h : s.heldW who = some ⟨regOf addr, lo⟩) :
    s.writeHigh who (regOf addr + 4) hi =
      ((s.setHeldR who none).setHeldW who none).regWrite who (regOf addr / 0x1000) (regOf addr % 0x1000)
        (lo + hi % 2 ^ 32 * 2 ^ 32) (2 ^ 64 - 1) := by
  simp [State.writeHigh, h, regOf_regOf_add_four]

/-- With nothing held of a write, a 64-bit write drops the captured half-read alone. -/
theorem State.dropHeld_setHeldW_none (s : State) (who : Req) :
    (s.setHeldW who none).dropHeld who = (s.setHeldR who none).setHeldW who none := by
  rw [State.dropHeld_none (State.heldW_setHeldW_self s who none), State.setHeldR_setHeldW]

/-- Two halves make a value of 64 bits. -/
theorem halves_lt (lo hi : Nat) : lo % 2 ^ 32 + hi % 2 ^ 32 * 2 ^ 32 < 2 ^ 64 := by
  omega

/-- Settles O3: a low half ends in the holding register; the high half and the 64-bit write reach the same write of the register. -/
theorem halfWritesMakeOneWrite : Obligations.HalfWritesMakeOneWrite := by
  unfold Obligations.HalfWritesMakeOneWrite
  intro s who addr lo hi hmode
  constructor
  · refine answers_of (exec_halfWriteLow who addr lo hmode) ⟨s.writeLow_heldW who _ lo, fun hsame => ?_⟩
    exact ⟨State.writeLow_onlyFabric lo hsame, fun w hw => State.writeLow_heldW_ne lo hsame hw⟩
  · intro hheld
    have hmode' : (s.setHeldW who none).mode ≠ Md.KEEP := by rwa [State.setHeldW_mode]
    refine answers_of (exec_halfWriteHigh who addr hi hmode) ?_
    rw [exec_registerWrite_regOf who addr _ hmode', State.dropHeld_setHeldW_none, Nat.mod_eq_of_lt (halves_lt lo hi),
      State.writeHigh_joins hi hheld]

end Sys2Proof.Machine
end

section
/-!
Admission (R147): which request a decision takes, what its two tests compare, and what an admitted and a refused request leave of the
buffer's slots and of the waiting requests. Raising an event reaches many operations (snapshots, completions, the peer's link); none of
them touches slots or requests.
-/

namespace Sys2Proof.Machine

/-! ### The slots and the requests that wait -/

/-- What an admission decision is about: the slots of the buffer that are not free, and the requests that wait. -/
def State.intake (s : State) : List Slot × List SlotReq := (s.slots, s.led.reqs)

theorem State.slots_of_intake {s t : State} (h : t.intake = s.intake) : t.slots = s.slots := congrArg Prod.fst h

theorem State.reqs_of_intake {s t : State} (h : t.intake = s.intake) : t.led.reqs = s.led.reqs := congrArg Prod.snd h

/-- A choice between two states with one intake has that intake. -/
theorem State.ite_intake {c : Prop} [Decidable c] {a b s : State} (ha : a.intake = s.intake) (hb : b.intake = s.intake) :
    (if c then a else b).intake = s.intake := by
  split
  · exact ha
  · exact hb

/-- A fold whose steps keep the intake keeps it. -/
theorem State.foldl_intake {α : Type} {f : State → α → State} (hf : ∀ s x, (f s x).intake = s.intake) (l : List α) (s : State) :
    (l.foldl f s).intake = s.intake := by
  induction l generalizing s with
  | nil => rfl
  | cons x l ih => exact (ih _).trans (hf s x)

@[simp] theorem State.set_intake (s : State) (f : Field) (v : Nat) : (s.set f v).intake = s.intake := rfl
@[simp] theorem State.inc_intake (s : State) (f : Field) : (s.inc f).intake = s.intake := rfl

/-! ### Raising an event keeps the intake -/

@[simp] theorem latchPage_intake (s0 : State) (epoch source : Nat) (s : State) (p : Nat) :
    (latchPage s0 epoch source s p).intake = s.intake := by
  unfold latchPage
  simp only [State.set_intake]
  exact State.foldl_intake (fun _ _ => State.set_intake _ _ _) _ _

@[simp] theorem State.takeSnapshot_intake (s : State) (source : Nat) : (s.takeSnapshot source).intake = s.intake :=
  State.foldl_intake (latchPage_intake s _ _) _ s

@[simp] theorem State.joinSnapshot_intake (s : State) (source : Nat) : (s.joinSnapshot source).intake = s.intake :=
  State.foldl_intake (fun _ _ => State.set_intake _ _ _) _ _

@[simp] theorem State.trigger_intake (s : State) (source : Nat) : (s.trigger source).intake = s.intake :=
  State.ite_intake (s.inc_intake _) (State.ite_intake (s.joinSnapshot_intake source) (s.takeSnapshot_intake source))

@[simp] theorem State.pairPump_intake (n v : Nat) (s : State) : (State.pairPump n v s).intake = s.intake := by
  induction n generalizing s with
  | zero => rfl
  | succ n ih =>
    unfold State.pairPump
    split
    · rfl
    · exact State.ite_intake rfl (ih _)

@[simp] theorem State.pairSend_intake (s : State) (m : PairMsg) : (s.pairSend m).intake = s.intake := by
  unfold State.pairSend
  split
  · rfl
  · exact State.ite_intake rfl (State.pairPump_intake _ _ _)

@[simp] theorem State.snapshot_intake (s : State) (source : Nat) : (s.snapshot source).intake = s.intake :=
  State.ite_intake ((State.pairSend_intake _ _).trans (s.trigger_intake source)) (s.trigger_intake source)

@[simp] theorem State.postEntry_intake (s : State) (e : Cqe) : (s.postEntry e).intake = s.intake := by
  unfold State.postEntry
  split
  · exact State.ite_intake rfl rfl
  · exact State.ite_intake rfl rfl
  · exact s.pairSend_intake _

@[simp] theorem State.fiUnit_intake (s : State) (i : Nat) : (s.fiUnit i).2.intake = s.intake := by
  unfold State.fiUnit
  split
  · dsimp only
    split
    · exact State.ite_intake rfl rfl
    · rfl
  · rfl

@[simp] theorem State.fiCorrupt_intake (s : State) (i : Nat) (acts : Bool) (ws : List Nat) :
    (s.fiCorrupt i acts ws).2.intake = s.intake := rfl

@[simp] theorem State.post_intake (s : State) (e : Cqe) : (s.post e).intake = s.intake := by
  unfold State.post
  split
  · extract_lets t
    refine State.ite_intake ?_ (s.postEntry_intake e)
    split
    next d s1 hunit =>
      have hs1 : s1.intake = s.intake := (congrArg (State.intake ·.2) hunit).symm.trans (s.fiUnit_intake 6)
      split
      next e' s2 hpass =>
        have hs2 : s2.intake = s.intake := by
          refine (congrArg (State.intake ·.2) hpass).symm.trans ?_
          dsimp only
          split
          · exact (s1.fiCorrupt_intake 6 _ e.words).trans hs1
          · exact hs1
        have hposted := (s2.postEntry_intake e').trans hs2
        split
        · exact hs2
        · exact hs2
        · dsimp only
          split
          · exact State.ite_intake ((State.postEntry_intake _ _).trans hposted) hposted
          · exact hposted
  · exact s.postEntry_intake e

@[simp] theorem State.complete_intake (s : State) (id : Cid) (sct sc : Nat) (dnr : Bool) (dw0 dw1 : Nat) (data : List Nat) :
    (s.complete id sct sc dnr dw0 dw1 data).intake = s.intake := by
  have hposted := (s.untrack id).post_intake ⟨id, sct, sc, dnr, dw0, dw1, data⟩
  have hflushed (l : List Cid) :=
    (State.foldl_intake (fun s f => (s.untrack f).post_intake ⟨f, 0, 0, false, 0, 0, []⟩) l _).trans hposted
  exact State.ite_intake (hflushed _) (hflushed _)

@[simp] theorem State.aen_intake (s : State) (a : Aen) : (s.aen a).intake = s.intake := by
  refine State.ite_intake rfl ?_
  split
  · rfl
  · exact State.complete_intake _ _ _ _ _ _ _ _

@[simp] theorem State.reroute_intake (s : State) : s.reroute.intake = s.intake :=
  State.ite_intake (State.aen_intake _ _) (State.ite_intake rfl rfl)

@[simp] theorem State.raise_intake (s : State) (e : Ev) : (s.raise e).intake = s.intake :=
  (State.reroute_intake _).trans (State.ite_intake (State.snapshot_intake _ _) rfl)

@[simp] theorem State.raiseIf_intake (s : State) (c : Bool) (e : Ev) : (s.raiseIf c e).intake = s.intake :=
  State.ite_intake (s.raise_intake e) rfl

@[simp] theorem State.xoff_intake (s : State) : s.xoff.intake = s.intake :=
  State.ite_intake rfl (State.raise_intake _ _)

@[simp] theorem State.noteFlow_intake (s : State) : s.noteFlow.intake = s.intake :=
  State.ite_intake s.xoff_intake (State.ite_intake (State.raise_intake _ _) rfl)

@[simp] theorem State.notePbuf_intake (before : Nat) (s : State) : (State.notePbuf before s).intake = s.intake :=
  State.raiseIf_intake _ _ _

@[simp] theorem State.noteHeadroom_intake (s : State) : s.noteHeadroom.intake = s.intake := by
  unfold State.noteHeadroom
  extract_lets h s1
  have hs1 : s1.intake = s.intake := State.ite_intake rfl rfl
  refine State.ite_intake (State.ite_intake hs1 ?_) hs1
  exact (State.aen_intake _ _).trans ((State.raise_intake _ _).trans hs1)

/-! ### The request whose turn it is (R35) -/

/-- The head request of a requester waits. -/
theorem State.headReq_mem {s : State} {w : Who} {queue : Nat} {r : SlotReq} (h : s.headReq w queue = some r) : r ∈ s.led.reqs :=
  List.mem_of_find?_eq_some h

/-- A requester offers its head request only where it may be decided. -/
theorem State.offered_admitting {s s1 t : State} {w : Who} {queue : Nat} {r : SlotReq}
    (h : (s.headReq w queue).bind (fun r => if s.admitting r then some (r, t) else none) = some (r, s1)) :
    r ∈ s.led.reqs ∧ s.admitting r = true := by
  obtain ⟨r', hhead, hr⟩ := Option.bind_eq_some_iff.mp h
  split at hr
  next hadmitting =>
    cases hr
    exact ⟨State.headReq_mem hhead, hadmitting⟩
  · cases hr

/-- The request whose turn it is waits, and may be decided. -/
theorem State.nextReq_admitting {s s1 : State} {r : SlotReq} (h : s.nextReq = some (r, s1)) :
    r ∈ s.led.reqs ∧ s.admitting r = true := by
  obtain ⟨w, -, hw⟩ := List.exists_of_findSome?_eq_some h
  dsimp only at hw
  split at hw
  · split at hw
    · exact State.offered_admitting hw
    · cases hw
  · exact State.offered_admitting hw

/-- R119, R153: a request that may be decided finds nothing sealing, and a mode other than Seal, Rest and Keep. -/
theorem State.admitting_modes {s : State} {r : SlotReq} (h : s.admitting r = true) :
    s.led.sealing = none ∧ s.mode ≠ Md.SEAL ∧ s.mode ≠ Md.REST ∧ s.mode ≠ Md.KEEP := by
  simp only [State.admitting, Bool.and_eq_true, decide_eq_true_eq, Option.isNone_iff_eq_none] at h
  obtain ⟨⟨⟨⟨⟨-, hsealing⟩, hseal⟩, hkeep⟩, hrest⟩, -⟩ := h
  exact ⟨hsealing, hseal, hrest, hkeep⟩

/-- While a record is sealed, in Seal, Rest and Keep, and where none waits, no request's turn comes. -/
theorem State.nextReq_none {s : State}
    (h : s.led.sealing.isSome = true ∨ s.mode = Md.SEAL ∨ s.mode = Md.REST ∨ s.mode = Md.KEEP ∨ s.led.reqs = []) :
    s.nextReq = none := by
  refine Option.eq_none_iff_forall_ne_some.mpr fun ⟨r, s1⟩ hnext => ?_
  obtain ⟨hmem, hadmitting⟩ := State.nextReq_admitting hnext
  obtain ⟨hsealing, hseal, hrest, hkeep⟩ := State.admitting_modes hadmitting
  rcases h with h | h | h | h | h
  · simp [hsealing] at h
  · exact hseal h
  · exact hrest h
  · exact hkeep h
  · exact List.not_mem_nil (h ▸ hmem)

/-! ### The decision -/

/-- With no request that may be decided a decision changes nothing. -/
theorem exec_admissionDecision_none {s : State} (h : s.nextReq = none) : exec .admissionDecision s = .next s := by
  change execAdmissionDecision s = _
  simp [execAdmissionDecision, done, h]

/-- A request that passes both tests enters, and what it waited for follows. -/
theorem exec_admissionDecision_admits {s s1 : State} {r : SlotReq} (h : s.nextReq = some (r, s1)) (henergy : s1.energyOk r = true)
    (hfree : s1.freeOk r = true) :
    exec .admissionDecision s = .next (((s1.takeReq r).letIn r).admitted r (s1.get F.PBUF_ADMIT_SEQ_SEQ)) := by
  change execAdmissionDecision s = _
  simp [execAdmissionDecision, done, h, henergy, hfree]

/-- A request that fails a test is refused and goes on waiting. -/
theorem exec_admissionDecision_refuses {s s1 : State} {r : SlotReq} (h : s.nextReq = some (r, s1))
    (htest : s1.energyOk r = false ∨ s1.freeOk r = false) : exec .admissionDecision s = .next ((s1.refuse r).markRefused r) := by
  have hboth : (s1.energyOk r && s1.freeOk r) = false := Bool.and_eq_false_iff.mpr htest
  change execAdmissionDecision s = _
  simp [execAdmissionDecision, done, h, hboth]

/-! ### An admitted request (R146) -/

theorem State.letIn_slots (s : State) (r : SlotReq) : (s.letIn r).slots = s.slots ++ s.numbered r.slots := by
  unfold State.letIn
  extract_lets before new s1 s2
  have hflow := (s2.notePbuf before).noteHeadroom.noteFlow_intake
  exact State.slots_of_intake (hflow.trans ((State.noteHeadroom_intake _).trans (State.notePbuf_intake before s2)))

/-- A numbered slot is one of the request's, with the charge of its kind. -/
theorem State.mem_numbered {s : State} {slots : List Slot} {x : Slot} (h : x ∈ s.numbered slots) :
    x.charge = s.slotCost x.kind ∧ ∃ y ∈ slots, x.lst = y.lst := by
  obtain ⟨⟨y, i⟩, hy, rfl⟩ := List.mem_map.mp h
  exact ⟨rfl, y, (List.of_mem_zip hy).1, rfl⟩

/-- The charges of the numbered slots are the costs of the request's. -/
theorem State.map_charge_numbered (s : State) (slots : List Slot) :
    (s.numbered slots).map (·.charge) = slots.map (fun x => s.slotCost x.kind) := by
  have hfst : (slots.zip (List.range slots.length)).map Prod.fst = slots := List.map_fst_zip (by simp)
  calc (s.numbered slots).map (·.charge)
    _ = ((slots.zip (List.range slots.length)).map Prod.fst).map (fun x => s.slotCost x.kind) := by
      simp [State.numbered, Function.comp_def]
    _ = slots.map (fun x => s.slotCost x.kind) := by rw [hfst]

theorem State.reqCost_eq_sum (s : State) (r : SlotReq) : s.reqCost r = (r.slots.map (fun x => s.slotCost x.kind)).sum :=
  List.sum_eq_foldl.symm

theorem State.committed_eq_sum (s : State) :
    s.committed = ((s.slots.filter (fun x => x.lst ≠ .programming)).map (·.charge)).sum :=
  List.sum_eq_foldl.symm

/-- Slots whose program has not been issued add their charges to committed (R31). -/
theorem State.committed_append {s t : State} {new : List Slot} (hslots : t.slots = s.slots ++ new)
    (hnew : ∀ x ∈ new, x.lst ≠ .programming) : t.committed = s.committed + (new.map (·.charge)).sum := by
  have hkept : new.filter (fun x => x.lst ≠ .programming) = new := List.filter_eq_self.mpr fun x hx => decide_eq_true (hnew x hx)
  rw [State.committed_eq_sum, State.committed_eq_sum, hslots, List.filter_append, hkept, List.map_append, List.sum_append]

/-- A request of filling slots adds its whole cost to committed. -/
theorem State.letIn_committed {s : State} {r : SlotReq} (h : ∀ x ∈ r.slots, x.lst = .filling) :
    (s.letIn r).committed = s.committed + s.reqCost r := by
  rw [State.committed_append (s.letIn_slots r), State.map_charge_numbered, State.reqCost_eq_sum]
  intro x hx
  obtain ⟨-, y, hy, hlst⟩ := State.mem_numbered hx
  simp [hlst, h y hy]

/-! ### A refused request -/

@[simp] theorem State.refuse_intake (s : State) (r : SlotReq) : (s.refuse r).intake = s.intake := by
  unfold State.refuse
  extract_lets s1
  have hs1 : s1.intake = s.intake := by
    refine State.ite_intake rfl ((State.raise_intake _ _).trans ?_)
    split
    · rfl
    · rfl
  exact State.ite_intake ((State.xoff_intake _).trans hs1) hs1

/-- A request marked as refused asks for the slots it asked for. -/
theorem State.markRefused_reqs_slots (s : State) (r : SlotReq) :
    (s.markRefused r).led.reqs.map (·.slots) = s.led.reqs.map (·.slots) := by
  refine (List.map_map ..).trans (List.map_congr_left fun x _ => ?_)
  dsimp only [Function.comp_apply]
  split
  · rfl
  · rfl

/-! ### The two tests of R147 -/

theorem State.energyOk_iff (s : State) (r : SlotReq) :
    s.energyOk r = true ↔ s.reqCost r = 0 ∨ s.headroom - s.ingestRsv r.who ≥ s.reqCost r := by
  simp [State.energyOk]

theorem State.ingestRsv_eq (s : State) (w : Who) :
    s.ingestRsv w = if w = .host ∨ w = .net then 256 * s.get F.LEDGER_ADMIT_INGEST_RSV_UJ else 0 := by
  simp [State.ingestRsv]

theorem State.freeOk_groom {s : State} {r : SlotReq} (h : r.who = .groom) :
    s.freeOk r = true ↔ r.slots.length ≤ s.free ∧ s.relocSlots + 4 ≤ s.get F.GROOM_CFG_RELOC_MAX := by
  simp [State.freeOk, h]

theorem State.freeOk_other {s : State} {r : SlotReq} (h : r.who ≠ .groom) :
    s.freeOk r = true ↔ r.slots.length + (512 - s.relocSlots) ≤ s.free := by
  simp [State.freeOk, h]

/-- Whoever asks, the second test leaves no request more slots than are free. -/
theorem State.length_le_free_of_freeOk {s : State} {r : SlotReq} (h : s.freeOk r = true) : r.slots.length ≤ s.free := by
  by_cases hwho : r.who = .groom
  · exact ((State.freeOk_groom hwho).mp h).1
  · exact Nat.le_of_add_right_le ((State.freeOk_other hwho).mp h)

/-- Settles O18: the outcomes of a decision by `nextReq` and the two tests; `letIn` adds the numbered slots alone, and `refuse` leaves slots
and requests. -/
theorem admission : Obligations.Admission := by
  unfold Obligations.Admission
  refine ⟨fun s r s1 hnext => ⟨fun henergy hfree => ?_, fun htest => ?_⟩, fun s h => ?_, fun s r => ⟨?_, ?_, ?_⟩⟩
  · refine answers_of (exec_admissionDecision_admits hnext henergy hfree) ⟨rfl, (s1.takeReq r).letIn_slots r, fun x hx => ?_, ?_⟩
    · exact (State.mem_numbered hx).1
    · exact State.letIn_committed
  · have hrefused := s1.refuse_intake r
    have hslots : (s1.refuse r).slots = s1.slots := State.slots_of_intake hrefused
    refine answers_of (exec_admissionDecision_refuses hnext htest) ⟨rfl, hslots, ?_⟩
    rw [State.markRefused_reqs_slots, State.reqs_of_intake hrefused]
  · exact answers_of (exec_admissionDecision_none (State.nextReq_none h)) rfl
  · rw [State.energyOk_iff, State.ingestRsv_eq, State.headroom]
    omega
  · exact State.length_le_free_of_freeOk
  · exact State.freeOk_other

end Sys2Proof.Machine
end

section
/-!
The step as a whole: whatever the command, it answers a next state that keeps the memories' form and the queue; a step on an empty
queue is a tick; and the state after reset.
-/

namespace Sys2Proof.Machine

/-! ### Small numbers, by cases: a port, a virtual channel, a direction, an injector, a lane -/

theorem cases_lt_two {n : Nat} (h : n < 2) : n = 0 ∨ n = 1 := by omega

theorem cases_lt_three {n : Nat} (h : n < 3) : n = 0 ∨ n = 1 ∨ n = 2 := by omega

theorem cases_lt_four {n : Nat} (h : n < 4) : n = 0 ∨ n = 1 ∨ n = 2 ∨ n = 3 := by omega

theorem cases_lt_seven {n : Nat} (h : n < 7) : n = 0 ∨ n = 1 ∨ n = 2 ∨ n = 3 ∨ n = 4 ∨ n = 5 ∨ n = 6 := by omega

theorem cases_lt_eight {n : Nat} (h : n < 8) : n = 0 ∨ n = 1 ∨ n = 2 ∨ n = 3 ∨ n = 4 ∨ n = 5 ∨ n = 6 ∨ n = 7 := by omega

/-! ### Commands, one by one -/

/-- Every command answers a next state with the byte memories' form and the queue of the state it runs in. -/
theorem exec_kept {q : List Instr} (c : Instr) (s : State) (hk : Kept q s) : ∃ t, exec c s = .next t ∧ Kept q t := by
  cases c with
  | registerWrite who addr bytes val => exact execRegisterWrite_kept who addr bytes val s hk
  | halfWriteLow who addr val => exact execHalfWriteLow_kept who addr val s hk
  | halfWriteHigh who addr val => exact execHalfWriteHigh_kept who addr val s hk
  | lowHalfRead who addr bytes => exact execLowHalfRead_kept who addr bytes s hk
  | shadowCommit who page epoch => exact execShadowCommit_kept who page epoch s hk
  | shadowAbandon who page commit => exact execShadowAbandon_kept who page commit s hk
  | gcommit who epoch => exact execGcommit_kept who epoch s hk
  | commitAdopted page => exact execCommitAdopted_kept page s hk
  | snapTriggerFire who => exact execSnapTriggerFire_kept who s hk
  | snapInEdge rising => exact execSnapInEdge_kept rising s hk
  | snapRearm who => exact execSnapRearm_kept who s hk
  | snapClrCounts who => exact execSnapClrCounts_kept who s hk
  | powerOnResetRelease straps unstable => exact execPowerOnResetRelease_kept straps unstable s hk
  | bankLevelDecided bank level => exact execBankLevelDecided_kept bank level s hk
  | railTrip rail => exact execRailTrip_kept rail s hk
  | vinSenseLow mv => exact execVinSenseLow_kept mv s hk
  | pwrFailN low => exact execPwrFailN_kept low s hk
  | xtalLoss => exact execXtalLoss_kept s hk
  | refClockLoss ref inL1ss => exact execRefClockLoss_kept ref inL1ss s hk
  | refRestored ref => exact execRefRestored_kept ref s hk
  | pllLock pll => exact execPllLock_kept pll s hk
  | sscProfileChange pll => exact execSscProfileChange_kept pll s hk
  | lossClr who => exact execLossClr_kept who s hk
  | islEnWrite who island en => exact execIslEnWrite_kept who island en s hk
  | islandStopComplete island => exact execIslandStopComplete_kept island s hk
  | islandStarted island => exact execIslandStarted_kept island s hk
  | resetNAssert => exact execResetNAssert_kept s hk
  | resetNRelease straps unstable => exact execResetNRelease_kept straps unstable s hk
  | perstNAssert => exact execPerstNAssert_kept s hk
  | perstNDeassert => exact execPerstNDeassert_kept s hk
  | watchdogExpiry => exact execWatchdogExpiry_kept s hk
  | softReset who key => exact execSoftReset_kept who key s hk
  | islandReset who key island => exact execIslandReset_kept who key island s hk
  | resetFlushEnd => exact execResetFlushEnd_kept s hk
  | deferredResetRelease => exact execDeferredResetRelease_kept s hk
  | functionReady fn found => exact execFunctionReady_kept fn found s hk
  | functionFault fn => exact execFunctionFault_kept fn s hk
  | modeReq who target => exact execModeReq_kept who target s hk
  | modeTransitionComplete => exact execModeTransitionComplete_kept s hk
  | wakeExitTimeout => exact execWakeExitTimeout_kept s hk
  | drainComplete => exact execDrainComplete_kept s hk
  | restEntry => exact execRestEntry_kept s hk
  | restartAfterSeal straps unstable => exact execRestartAfterSeal_kept straps unstable s hk
  | wakeRising straps unstable => exact execWakeRising_kept straps unstable s hk
  | offloadNoConnectionTimeout => exact execOffloadNoConnectionTimeout_kept s hk
  | holdSample code => exact execHoldSample_kept code s hk
  | admissionDecision => exact execAdmissionDecision_kept s hk
  | ledgerCalGo who => exact execLedgerCalGo_kept who s hk
  | calDone tAbortUs chans => exact execCalDone_kept tAbortUs chans s hk
  | hostWaitExpired cid => exact execHostWaitExpired_kept cid s hk
  | ledgerClr who => exact execLedgerClr_kept who s hk
  | pbufClr who => exact execPbufClr_kept who s hk
  | sealLunsReady => exact execSealLunsReady_kept s hk
  | sealPageProgramDone chan ok => exact execSealPageProgramDone_kept chan ok s hk
  | sealRecordRetired => exact execSealRecordRetired_kept s hk
  | sealKeepEntry => exact execSealKeepEntry_kept s hk
  | journalReplay bad => exact execJournalReplay_kept bad s hk
  | arbitrationWindowStart throughout => exact execArbitrationWindowStart_kept throughout s hk
  | arbiterPick pickable => exact execArbiterPick_kept pickable s hk
  | sequencerIssue op => exact execSequencerIssue_kept op s hk
  | thermalSample tj extMv => exact execThermalSample_kept tj extMv s hk
  | grantWrite who mw => exact execGrantWrite_kept who mw s hk
  | budgetClr who => exact execBudgetClr_kept who s hk
  | sqTailDoorbell q value fetchNs => exact execSqTailDoorbell_kept q value fetchNs s hk
  | cqHeadDoorbell q value => exact execCqHeadDoorbell_kept q value s hk
  | ccEnable en ams asqs acqs => exact execCcEnable_kept en ams asqs acqs s hk
  | ccShutdown => exact execCcShutdown_kept s hk
  | createIoSq id qid size cqid prio bad => exact execCreateIoSq_kept id qid size cqid prio bad s hk
  | createIoCq id qid size vec ien bad => exact execCreateIoCq_kept id qid size vec ien bad s hk
  | deleteIoSq id qid => exact execDeleteIoSq_kept id qid s hk
  | deleteIoCq id qid => exact execDeleteIoCq_kept id qid s hk
  | getLogPage id lid off bytes rae bad => exact execGetLogPage_kept id lid off bytes rae bad s hk
  | identify id cns nsid cntid bad => exact execIdentify_kept id cns nsid cntid bad s hk
  | abort id sqid cid bad => exact execAbort_kept id sqid cid bad s hk
  | abortWindowExpired id => exact execAbortWindowExpired_kept id s hk
  | setFeatures id fid cdw11 save bad => exact execSetFeatures_kept id fid cdw11 save bad s hk
  | getFeatures id fid cdw11 sel bad => exact execGetFeatures_kept id fid cdw11 sel bad s hk
  | asynchronousEventRequest id => exact execAsynchronousEventRequest_kept id s hk
  | namespaceManagement id sel nsid size cap fmt dps bad => exact execNamespaceManagement_kept id sel nsid size cap fmt dps bad s hk
  | namespaceAttachment id sel nsid bad => exact execNamespaceAttachment_kept id sel nsid bad s hk
  | firmwareImageDownload id numd ofst bytes bad => exact execFirmwareImageDownload_kept id numd ofst bytes bad s hk
  | firmwareCommit id fs ca bad => exact execFirmwareCommit_kept id fs ca bad s hk
  | deviceSelfTest id nsid stc => exact execDeviceSelfTest_kept id nsid stc s hk
  | keepAlive id => exact execKeepAlive_kept id s hk
  | keepAliveExpired ctrl => exact execKeepAliveExpired_kept ctrl s hk
  | directiveSend id dtype doper cdw12 bad => exact execDirectiveSend_kept id dtype doper cdw12 bad s hk
  | directiveReceive id dtype doper bytes bad => exact execDirectiveReceive_kept id dtype doper bytes bad s hk
  | formatNvm id nsid lbaf ses pi first bad => exact execFormatNvm_kept id nsid lbaf ses pi first bad s hk
  | sanitize id act cdw10 bad => exact execSanitize_kept id act cdw10 bad s hk
  | takeStart id take first last bad => exact execTakeStart_kept id take first last bad s hk
  | takeStop id take bad => exact execTakeStop_kept id take bad s hk
  | ownerLock id carryOk hours cred bad short => exact execOwnerLock_kept id carryOk hours cred bad short s hk
  | ownerUnlock id arm cred bad short => exact execOwnerUnlock_kept id arm cred bad short s hk
  | frameIndexRead id stream wait take first count bad short => exact execFrameIndexRead_kept id stream wait take first count bad short s hk
  | ledgerQuery id snap bad short => exact execLedgerQuery_kept id snap bad short s hk
  | modeRequest id target bad => exact execModeRequest_kept id target bad s hk
  | mailboxPost id words doorbell bad short => exact execMailboxPost_kept id words doorbell bad short s hk
  | snapshotTrigger id ret rearm bad short => exact execSnapshotTrigger_kept id ret rearm bad short s hk
  | pairControl id action bad => exact execPairControl_kept id action bad s hk
  | flush id nsid bad => exact execFlush_kept id nsid bad s hk
  | write id c => exact execWrite_kept id c s hk
  | hostWriteDataComplete id sectors ackNs => exact execHostWriteDataComplete_kept id sectors ackNs s hk
  | read id c => exact execRead_kept id c s hk
  | compare id c data => exact execCompare_kept id c data s hk
  | writeZeroes id c => exact execWriteZeroes_kept id c s hk
  | datasetManagement id nsid ranges ad bad => exact execDatasetManagement_kept id nsid ranges ad bad s hk
  | verify id c => exact execVerify_kept id c s hk
  | selftestChunk uas => exact execSelftestChunk_kept uas s hk
  | selftestResume forced => exact execSelftestResume_kept forced s hk
  | selftestSegmentDone ok rows => exact execSelftestSegmentDone_kept ok rows s hk
  | hostqClr who => exact execHostqClr_kept who s hk
  | pcieRetrain who speed width => exact execPcieRetrain_kept who speed width s hk
  | pcieClr who => exact execPcieClr_kept who s hk
  | pcieLinkUp speed width eq => exact execPcieLinkUp_kept speed width eq s hk
  | laneBlockLock lane slips => exact execLaneBlockLock_kept lane slips s hk
  | lockLoss lane => exact execLockLoss_kept lane s hk
  | badSyncHeader lane => exact execBadSyncHeader_kept lane s hk
  | busaistAlign blks => exact execBusaistAlign_kept blks s hk
  | alignTimeout => exact execAlignTimeout_kept s hk
  | busaistSync b1 pattern => exact execBusaistSync_kept b1 pattern s hk
  | frameHeader h0 h1 => exact execFrameHeader_kept h0 h1 s hk
  | busaistSwitch vc => exact execBusaistSwitch_kept vc s hk
  | frameDataBlock payload => exact execFrameDataBlock_kept payload s hk
  | busaistTerm vc status crc frame => exact execBusaistTerm_kept vc status crc frame s hk
  | busaistAbort vc reason => exact execBusaistAbort_kept vc reason s hk
  | badCtrl payload => exact execBadCtrl_kept payload s hk
  | fcBlock => exact execFcBlock_kept s hk
  | ingestCtlEn who en => exact execIngestCtlEn_kept who en s hk
  | ingestStopTimeout => exact execIngestStopTimeout_kept s hk
  | ingestClr who => exact execIngestClr_kept who s hk
  | takeClose take => exact execTakeClose_kept take s hk
  | takeStopTimeout take => exact execTakeStopTimeout_kept take s hk
  | frmInPulse => exact execFrmInPulse_kept s hk
  | frameDurable id => exact execFrameDurable_kept id s hk
  | captureUnitFlush => exact execCaptureUnitFlush_kept s hk
  | frameClr who => exact execFrameClr_kept who s hk
  | programRetire op ok => exact execProgramRetire_kept op ok s hk
  | flashReadComplete op => exact execFlashReadComplete_kept op s hk
  | eraseComplete op ok => exact execEraseComplete_kept op ok s hk
  | flashOpTimeout op => exact execFlashOpTimeout_kept op s hk
  | channelDiscoveryDone r => exact execChannelDiscoveryDone_kept r s hk
  | zqCalibration chan => exact execZqCalibration_kept chan s hk
  | fchCtlFail who chan => exact execFchCtlFail_kept who chan s hk
  | fchClr who chan => exact execFchClr_kept who chan s hk
  | journalPageRetire => exact execJournalPageRetire_kept s hk
  | mapCkptGo who => exact execMapCkptGo_kept who s hk
  | checkpointComplete => exact execCheckpointComplete_kept s hk
  | padTimeout group => exact execPadTimeout_kept group s hk
  | partialLeafMerge seq => exact execPartialLeafMerge_kept seq s hk
  | segmentLoaded seg => exact execSegmentLoaded_kept seg s hk
  | mapClr who => exact execMapClr_kept who s hk
  | waysChanged => exact execWaysChanged_kept s hk
  | mcacheClr who => exact execMcacheClr_kept who s hk
  | dramRefreshWindow chan => exact execDramRefreshWindow_kept chan s hk
  | mr4Poll rates => exact execMr4Poll_kept rates s hk
  | periodicTraining chan driftPs => exact execPeriodicTraining_kept chan driftPs s hk
  | dramInitSweep => exact execDramInitSweep_kept s hk
  | dramWrite client addr data poison => exact execDramWrite_kept client addr data poison s hk
  | dramRead client addr n err => exact execDramRead_kept client addr n err s hk
  | dramWriteIssued n => exact execDramWriteIssued_kept n s hk
  | dramPatrol err => exact execDramPatrol_kept err s hk
  | dramcClr who => exact execDramcClr_kept who s hk
  | codewordDecoded n r => exact execCodewordDecoded_kept n r s hk
  | trackerRefresh rs => exact execTrackerRefresh_kept rs s hk
  | scrubRead => exact execScrubRead_kept s hk
  | sramPatrol ce clean dirty => exact execSramPatrol_kept ce clean dirty s hk
  | eccClr who => exact execEccClr_kept who s hk
  | scrubClr who => exact execScrubClr_kept who s hk
  | groomVictimSelect => exact execGroomVictimSelect_kept s hk
  | bandOpen group => exact execBandOpen_kept group s hk
  | groomIdleClose group => exact execGroomIdleClose_kept group s hk
  | groomClr who => exact execGroomClr_kept who s hk
  | pairLinkFrame v seq units crcOk => exact execPairLinkFrame_kept v seq units crcOk s hk
  | linkack v seq nak => exact execLinkack_kept v seq nak s hk
  | pairResendTimeout v => exact execPairResendTimeout_kept v s hk
  | credit v limit => exact execCredit_kept v limit s hk
  | train reason => exact execTrain_kept reason s hk
  | beat b => exact execBeat_kept b s hk
  | mirrorStallTimeout => exact execMirrorStallTimeout_kept s hk
  | prDetNHigh => exact execPrDetNHigh_kept s hk
  | slot m => exact execSlot_kept m s hk
  | held h ns => exact execHeld_kept h ns s hk
  | record seq r => exact execRecord_kept seq r s hk
  | recAck seq => exact execRecAck_kept seq s hk
  | ident ident lanes => exact execIdent_kept ident lanes s hk
  | result r => exact execResult_kept r s hk
  | shape seg keys => exact execShape_kept seg keys s hk
  | mailbox kind dir idx words => exact execMailbox_kept kind dir idx words s hk
  | relay n cmd args => exact execRelay_kept n cmd args s hk
  | relayDone n sct sc => exact execRelayDone_kept n sct sc s hk
  | peerSeal => exact execPeerSeal_kept s hk
  | leave planned => exact execLeave_kept planned s hk
  | snapreq => exact execSnapreq_kept s hk
  | convergenceCopy => exact execConvergenceCopy_kept s hk
  | pairCtlEn who en => exact execPairCtlEn_kept who en s hk
  | pairClr who => exact execPairClr_kept who s hk
  | netCtlEn who port en => exact execNetCtlEn_kept who port en s hk
  | linkUp port => exact execLinkUp_kept port s hk
  | linkDown port => exact execLinkDown_kept port s hk
  | dhcpBound port addr => exact execDhcpBound_kept port addr s hk
  | pauseFrame port quanta => exact execPauseFrame_kept port quanta s hk
  | tcpConnectionRequest port addr v6 dport => exact execTcpConnectionRequest_kept port addr v6 dport s hk
  | icreq conn hdgst ddgst => exact execIcreq_kept conn hdgst ddgst s hk
  | connect id qid sqsize cntlid host kato => exact execConnect_kept id qid sqsize cntlid host kato s hk
  | propertyGet id ofst eight => exact execPropertyGet_kept id ofst eight s hk
  | propertySet id ofst eight value => exact execPropertySet_kept id ofst eight value s hk
  | h2cData id off sectors hdrOk dataOk => exact execH2cData_kept id off sectors hdrOk dataOk s hk
  | offloadCloseTimeout => exact execOffloadCloseTimeout_kept s hk
  | netClr who port => exact execNetClr_kept who port s hk
  | nvtcpCtlEn who en => exact execNvtcpCtlEn_kept who en s hk
  | nvtcpClr who => exact execNvtcpClr_kept who s hk
  | mbxRing who d b => exact execMbxRing_kept who d b s hk
  | mbxDbClear who d b => exact execMbxDbClear_kept who d b s hk
  | mbxBlockGo who d => exact execMbxBlockGo_kept who d s hk
  | mbxBlockDone who d => exact execMbxBlockDone_kept who d s hk
  | mbxBlockRelease who d => exact execMbxBlockRelease_kept who d s hk
  | mbxQPush who d w => exact execMbxQPush_kept who d w s hk
  | mbxQPop who d n => exact execMbxQPop_kept who d n s hk
  | mbxacc write index data => exact execMbxacc_kept write index data s hk
  | ping via => exact execPing_kept via s hk
  | regRead via => exact execRegRead_kept via s hk
  | regWrite via => exact execRegWrite_kept via s hk
  | mbxModeReq via => exact execMbxModeReq_kept via s hk
  | info via => exact execInfo_kept via s hk
  | forward via => exact execForward_kept via s hk
  | logRead via => exact execLogRead_kept via s hk
  | messageBodyTimeout => exact execMessageBodyTimeout_kept s hk
  | forwardTimeout n => exact execForwardTimeout_kept n s hk
  | sdmaGo who n => exact execSdmaGo_kept who n s hk
  | sdmaKick who n => exact execSdmaKick_kept who n s hk
  | sdmaRingReset who n => exact execSdmaRingReset_kept who n s hk
  | sdmaDescFetch n ok bytes => exact execSdmaDescFetch_kept n ok bytes s hk
  | sdmaTransferEnd n err moved pcie => exact execSdmaTransferEnd_kept n err moved pcie s hk
  | sdmaPause who n pause => exact execSdmaPause_kept who n pause s hk
  | sdmaPaused n moved pcie => exact execSdmaPaused_kept n moved pcie s hk
  | sdmaCtlEn who n en => exact execSdmaCtlEn_kept who n en s hk
  | sdmaStopComplete n => exact execSdmaStopComplete_kept n s hk
  | sdmaClr who => exact execSdmaClr_kept who s hk
  | crcuClear who unit => exact execCrcuClear_kept who unit s hk
  | feed who unit val => exact execFeed_kept who unit val s hk
  | feedPart who unit val => exact execFeedPart_kept who unit val s hk
  | crcuAccWrite who unit val => exact execCrcuAccWrite_kept who unit val s hk
  | crcuCfgWrite who unit val => exact execCrcuCfgWrite_kept who unit val s hk
  | tamperN low => exact execTamperN_kept low s hk
  | carryExpired => exact execCarryExpired_kept s hk
  | keyZeroise => exact execKeyZeroise_kept s hk
  | newChal who => exact execNewChal_kept who s hk
  | dbgSubmit who => exact execDbgSubmit_kept who s hk
  | dbgDrop who => exact execDbgDrop_kept who s hk
  | debugLifetimeExpired => exact execDebugLifetimeExpired_kept s hk
  | challengeExpired => exact execChallengeExpired_kept s hk
  | secClr who => exact execSecClr_kept who s hk
  | unlockA who key => exact execUnlockA_kept who key s hk
  | unlockB who key => exact execUnlockB_kept who key s hk
  | codeUnlockTimeout who => exact execCodeUnlockTimeout_kept who s hk
  | nop who => exact execNop_kept who s hk
  | readLine who => exact execReadLine_kept who s hk
  | programLine who => exact execProgramLine_kept who s hk
  | eraseSector who => exact execEraseSector_kept who s hk
  | blankCheck who => exact execBlankCheck_kept who s hk
  | crcSector who => exact execCrcSector_kept who s hk
  | cmdDone ok => exact execCmdDone_kept ok s hk
  | updateCopySector ok => exact execUpdateCopySector_kept ok s hk
  | updateSwitch => exact execUpdateSwitch_kept s hk
  | bistGo who => exact execBistGo_kept who s hk
  | bistAbort who => exact execBistAbort_kept who s hk
  | bistSegmentDone array rows => exact execBistSegmentDone_kept array rows s hk
  | bistFuse who array => exact execBistFuse_kept who array s hk
  | fuseDone => exact execFuseDone_kept s hk
  | bistClr who => exact execBistClr_kept who s hk
  | fiCfgWrite who inj val => exact execFiCfgWrite_kept who inj val s hk
  | fiCtlEn who en => exact execFiCtlEn_kept who en s hk
  | calendarSecondEdge straps unstable => exact execCalendarSecondEdge_kept straps unstable s hk
  | calendarTrim sub => exact execCalendarTrim_kept sub s hk
  | calendarRefresh sub => exact execCalendarRefresh_kept sub s hk
  | calSet who val => exact execCalSet_kept who val s hk
  | alarmWrite who val => exact execAlarmWrite_kept who val s hk
  | vbakMeasure mv => exact execVbakMeasure_kept mv s hk
  | keepSupplyLoss => exact execKeepSupplyLoss_kept s hk
  | keepSupplyReturn => exact execKeepSupplyReturn_kept s hk
  | rtcLoss => exact execRtcLoss_kept s hk
  | rtcRestored => exact execRtcRestored_kept s hk
  | timebaseMarker => exact execTimebaseMarker_kept s hk
  | ltcFrame cells addr rate user boundary period => exact execLtcFrame_kept cells addr rate user boundary period s hk
  | ltcLossTimeout => exact execLtcLossTimeout_kept s hk
  | generatorBoundary => exact execGeneratorBoundary_kept s hk
  | genPreset who addr => exact execGenPreset_kept who addr s hk
  | timeClr who => exact execTimeClr_kept who s hk
  | uartCharacter port data framing parity => exact execUartCharacter_kept port data framing parity s hk
  | breakCondition port => exact execBreak_kept port s hk
  | txPush who port data => exact execTxPush_kept who port data s hk
  | uartTxCharacterSent port => exact execUartTxCharacterSent_kept port s hk
  | rxPop who port n => exact execRxPop_kept who port n s hk
  | sendBreak who port on => exact execSendBreak_kept who port on s hk
  | uartCfgWrite who port val => exact execUartCfgWrite_kept who port val s hk
  | uartCtlEn who port en => exact execUartCtlEn_kept who port en s hk
  | aserClr who port => exact execAserClr_kept who port s hk
  | prDetNLow => exact execPrDetNLow_kept s hk
  | railValid rail => exact execRailValid_kept rail s hk
  | configSpaceWrite d3 msix busMaster pme => exact execConfigSpaceWrite_kept d3 msix busMaster pme s hk
  | pcieLinkDown => exact execPcieLinkDown_kept s hk
  | interruptCoalescingTimeout q => exact execInterruptCoalescingTimeout_kept q s hk
  | pageIdleTimeout chan bank => exact execPageIdleTimeout_kept chan bank s hk
  | pairStallWarning => exact execPairStallWarning_kept s hk
  | tcpConnectionClose conn => exact execTcpConnectionClose_kept conn s hk
  | addressResolutionRequest port addr v6 => exact execAddressResolutionRequest_kept port addr v6 s hk
  | icmpEchoRequest port addr v6 data => exact execIcmpEchoRequest_kept port addr v6 data s hk
  | pauseTimeExpired port => exact execPauseTimeExpired_kept port s hk
  | credentialRejectionDelay id => exact execCredentialRejectionDelay_kept id s hk
  | trstNAssert => exact execTrstNAssert_kept s hk

/-- Settles O60: a command in front runs on the queue's rest, which `exec_kept` keeps; on an empty queue the step is a tick. -/
theorem stepsCompleteAndKeepMemory : Obligations.StepsCompleteAndKeepMemory := by
  unfold Obligations.StepsCompleteAndKeepMemory
  intro s ⟨hmem, hstore⟩
  cases hq : s.pending with
  | nil =>
    obtain ⟨hm, hs, hp⟩ := State.tick_kept s ⟨hmem, hstore, hq⟩
    exact ⟨s.tick, by simp [step, hq], ⟨hm, hs⟩, hp⟩
  | cons c rest =>
    obtain ⟨t, ht, hm, hs, hp⟩ := exec_kept c { s with pending := rest } ⟨hmem, hstore, rfl⟩
    exact ⟨t, by simp [step, hq, ht], ⟨hm, hs⟩, hp⟩

/-- Settles O1: the definition of a step where the queue is not empty. -/
theorem stepRunsTheFrontCommand : Obligations.StepRunsTheFrontCommand := by
  unfold Obligations.StepRunsTheFrontCommand
  intro s c rest hq
  simp [step, hq]

/-! ### The tick -/

/-- The calendar's copy advances in its own field alone. -/
theorem State.advanceCal_only (s : State) : OnlyFields [F.TIME_CAL] s s.advanceCal := by
  unfold State.advanceCal
  split
  · exact OnlyFields.refl _ _
  · exact State.set_only _ _ _

/-- The timebase is no part of the calendar's copy. -/
@[simp] theorem State.advanceCal_tb (s : State) : s.advanceCal.tb = s.tb := by
  unfold State.advanceCal
  split
  · rfl
  · rfl

/-- A tick moves the timebase, except in Keep. -/
theorem State.tick_tb (s : State) : s.tick.tb = if s.mode = Md.KEEP then s.tb else (s.tb + 1) % 2 ^ 64 := by
  unfold State.tick
  split
  · rfl
  · exact State.advanceCal_tb _

/-- A tick leaves everything but the timebase and TIME.CAL. -/
theorem State.tick_only (s : State) : OnlyFields [F.TIME_CAL] { s with tb := s.tick.tb } s.tick := by
  unfold State.tick
  split
  · exact OnlyFields.refl _ _
  · rw [State.advanceCal_tb]
    exact State.advanceCal_only _

/-- Settles O2: what a tick moves. -/
theorem emptyQueueTicks : Obligations.EmptyQueueTicks := by
  unfold Obligations.EmptyQueueTicks
  intro s hq
  obtain ⟨hrest, hfields⟩ := s.tick_only
  refine ⟨s.tick, by simp [step, hq], s.tick_tb, hrest, fun g hg => ?_⟩
  exact hfields g (by simpa using hg)

/-! ### The state after reset -/

/-- After reset no pending value and no value in adoption stands, so every field reads its reset value. -/
theorem State.reset_get (f : Field) : State.reset.get f = f.rst ∧ State.reset.getP f = f.rst := ⟨rfl, rfl⟩

/-- The first step after reset is a tick: nothing has set the calendar. -/
theorem step_reset : step State.reset = .next { State.reset with tb := 1 } := rfl

/-- Settles O58. -/
theorem resetState : Obligations.ResetState := by
  unfold Obligations.ResetState
  exact ⟨State.reset_get, rfl, rfl, rfl, rfl, fun p _ => ⟨rfl, rfl⟩, step_reset⟩

/-- Settles O59: both memories are empty. -/
theorem memoryAtReset : Obligations.MemoryAtReset := by
  unfold Obligations.MemoryAtReset
  exact ⟨rfl, rfl⟩

end Sys2Proof.Machine
end

section
/-!
Half-reads (R48): the read of a low half captures the register, and the read of its high half returns the captured half.
-/

namespace Sys2Proof.Machine

/-- An access of one half is one piece. -/
theorem pieces_half {a : Nat} (h : a % 4 = 0) : pieces 4 a 4 = [(a, 4)] := by
  simp [pieces, h]

/-- Outside Keep a read of a half answers that half. -/
theorem exec_halfRead {s : State} (who : Req) {a : Nat} (hmode : s.mode ≠ Md.KEEP) (ha : a % 4 = 0) :
    exec (.lowHalfRead who a 4) s = .next { (s.readPiece who a 4).2 with
      fabric := { (s.readPiece who a 4).2.fabric with data := (s.readPiece who a 4).1 } } := by
  change execLowHalfRead who a 4 s = _
  simp [execLowHalfRead, done, State.fabricUp, hmode, pieces_half ha]

/-- A low half reads the register's low bits and captures the register. -/
theorem State.readPiece_low (s : State) (who : Req) {a : Nat} (h : a % 8 = 0) :
    s.readPiece who a 4 = ((s.regRead who (a / 0x1000) (a % 0x1000)).1 % 2 ^ 32,
      (s.regRead who (a / 0x1000) (a % 0x1000)).2.setHeldR who (some ⟨a, (s.regRead who (a / 0x1000) (a % 0x1000)).1⟩)) := by
  have hreg : regOf a = a := by
    unfold regOf
    omega
  simp [State.readPiece, hreg, h, bits]

/-- A high half reads the captured register's high bits and changes nothing. -/
theorem State.readPiece_high {s : State} {who : Req} {a v : Nat} (h : a % 8 = 0) (hheld : s.heldR who = some ⟨a, v⟩) :
    s.readPiece who (a + 4) 4 = (v / 2 ^ 32 % 2 ^ 32, s) := by
  have hreg : regOf (a + 4) = a := by
    unfold regOf
    omega
  have hhalf : (a + 4) % 8 = 4 := by omega
  simp [State.readPiece, hreg, hhalf, hheld, bits]

/-- Settles O4. -/
theorem halfReadsUseOneCapture : Obligations.HalfReadsUseOneCapture := by
  unfold Obligations.HalfReadsUseOneCapture
  intro s who addr hmode haddr
  refine ⟨answers_of (exec_halfRead who hmode (by omega)) ?_, fun v hheld => answers_of (exec_halfRead who hmode (by omega)) ?_⟩
  · rw [State.readPiece_low s who haddr]
    refine ⟨rfl, ?_⟩
    cases who <;> rfl
  · rw [State.readPiece_high haddr hheld]
    exact ⟨rfl, rfl⟩

end Sys2Proof.Machine
end

section
/-!
Frames by register fields, and the value of a field after a list of fields has been cleared.
-/

namespace Sys2Proof.Machine

/-- A frame over a list of fields goes on through a write of one of them. -/
theorem OnlyFields.set {fs : List Field} {s t : State} (h : OnlyFields fs s t) {f : Field} (hf : f ∈ fs) (v : Nat) :
    OnlyFields fs s (t.set f v) := by
  obtain ⟨hrest, hfields⟩ := h
  refine ⟨?_, fun g hg => ?_⟩
  · rw [hrest]
    rfl
  · have hne : g.key ≠ f.key := fun e => hg (e.symm ▸ List.mem_map.mpr ⟨f, hf, rfl⟩)
    rw [State.get_set_ne _ _ hne, hfields g hg]

/-- A field whose reset value is 0 and that reads 0 still reads 0 after another such field, or itself, is cleared. -/
theorem State.get_set_zero {s : State} {f g : Field} (hf : f.rst = 0) (hg : g.rst = 0) (h : s.get f = 0) : (s.set g 0).get f = 0 := by
  by_cases hkey : f.key = g.key
  · simp [State.get, State.set, hf, hg, hkey]
  · rw [State.get_set_ne _ _ hkey, h]

/-- Fields whose reset value is 0 read 0 once they have been cleared. -/
theorem State.get_clear {s : State} {fs : List Field} (hrst : fs.all (fun g => g.rst == 0) = true) {f : Field} (hf : f.rst = 0)
    (h : f ∈ fs ∨ s.get f = 0) : (s.clear fs).get f = 0 := by
  induction fs generalizing s with
  | nil => exact h.resolve_left List.not_mem_nil
  | cons g fs ih =>
    obtain ⟨hg, hfs⟩ := Bool.and_eq_true_iff.mp (List.all_cons ▸ hrst)
    have hg0 : g.rst = 0 := by simpa using hg
    refine ih hfs ?_
    rcases h with h | h
    · rcases List.mem_cons.mp h with rfl | h
      · exact .inr (by simp)
      · exact .inl h
    · exact .inr (State.get_set_zero hf hg0 h)

/-- Every field of a cleared list reads 0. -/
theorem State.get_clear_mem (s : State) {fs : List Field} (hrst : fs.all (fun g => g.rst == 0) = true) {f : Field} (h : f ∈ fs) :
    (s.clear fs).get f = 0 :=
  State.get_clear hrst (by simpa using List.all_eq_true.mp hrst f h) (.inl h)

/-- A bit below the width of a value cut to that width is the value's. -/
theorem bit_mod_two_pow {v n w : Nat} (h : n < w) : bit (v % 2 ^ w) n = bit v n := by
  have hbit (x : Nat) : bit x n = x.testBit n := Nat.testBit_eq_decide_div_mod_eq.symm
  simp [hbit, Nat.testBit_mod_two_pow, h]

/-- A bit of a field reads what it was given. -/
theorem State.getBit_setBitTo_self (s : State) {f : Field} {n : Nat} (b : Bool) (h : n < f.width) : (s.setBitTo f n b).getBit f n = b := by
  simp [State.getBit, State.setBitTo, bit_mod_two_pow h]

end Sys2Proof.Machine
end

section
/-!
The commands that clear counts: each is a register write whose action clears its page's counts, so one lemma serves them all.
-/

namespace Sys2Proof.Machine

/-- A command that clears a list of counts, having done `put` behind the registers, where the write reaches its register and the mode
carries the action out; else it does what `blocked` and `modeRefused` say. -/
theorem clearCommand {cmd : Instr} {who : Req} {page off : Nat} {fields : List Field} {put : State → State} (s : State)
    (hexec : exec cmd s = .next (s.rwAction who page off (fun s => (put s).clear fields)))
    (hrst : fields.all (fun g => g.rst == 0) = true) :
    let s0 := s.dropHeld who
    (s0.takes who page off → Answers cmd s (fun t => (∀ f ∈ fields, t.get f = 0) ∧ FieldsAnd fields put s0 t)) ∧
    (∀ s' : State, s0.blocked who page off = some s' → exec cmd s = .next s') ∧
    (s0.blocked who page off = none → s0.rwMode page = false → exec cmd s = .next s0.modeRefused) := by
  refine ⟨fun h => ⟨_, hexec, ?_⟩, fun s' h => ?_, fun h hm => ?_⟩
  · rw [State.rwAction_takes _ h]
    exact ⟨fun f hf => State.get_clear_mem _ hrst hf, State.clear_only _ _⟩
  · rw [hexec, State.rwAction_blocked _ h]
  · rw [hexec, State.rwAction_ignored _ h hm]

/-- FCH.CLR of a channel that there is. -/
theorem exec_fchClr (who : Req) {chan : Nat} (h : chan < 64) (s : State) :
    exec (.fchClr who chan) s = .next (s.rwAction who (0x20 + chan) 0x190 (fun s => s.clear
      [F.FCH_READS_COUNT chan, F.FCH_PROGS_COUNT chan, F.FCH_ERASES_COUNT chan, F.FCH_ERR_TIMEOUTS chan, F.FCH_ERR_PROG_FAIL chan,
        F.FCH_ERR_ERASE_FAIL chan, F.FCH_ERR_SUSPENDS chan, F.FCH_LAT_MAX_ERASE_US chan, F.FCH_LAT_MAX_PROG_US chan])) := by
  change execFchClr who chan s = _
  simp [execFchClr, done, show ¬64 ≤ chan by omega]

/-- NETp.CLR of a port that there is. -/
theorem exec_netClr (who : Req) {port : Nat} (h : port < 2) (s : State) :
    exec (.netClr who port) s = .next (s.rwAction who (Pg.NET0 + port) 0x168 (fun s => s.clear
      [F.NET_RX_BYTES_COUNT port, F.NET_TX_BYTES_COUNT port, F.NET_RX_ERR_FEC_UNCORR port, F.NET_RX_ERR_LENGTH port,
       F.NET_RX_ERR_FCS port, F.NET_RX_ERR_DROPPED port, F.NET_FEC_CORR_COUNT port, F.NET_PAUSE_COUNT port])) := by
  change execNetClr who port s = _
  simp [execNetClr, done, show ¬1 < port by omega]

/-- CLR of a serial port that there is. -/
theorem exec_aserClr (who : Req) {port : Nat} (h : port < 2) (s : State) :
    exec (.aserClr who port) s = .next (s.rwAction who Pg.ASER (aserBase port + 0x40) (fun s => s.aserClr port)) := by
  change execAserClr who port s = _
  simp [execAserClr, done, h]

/-- Settles O8: each command is a `clearCommand`. -/
theorem clearCommandsClearTheirCounts : Obligations.ClearCommandsClearTheirCounts := by
  unfold Obligations.ClearCommandsClearTheirCounts
  intro s who n
  have hchan : n % 64 < 64 := Nat.mod_lt _ (by decide)
  have hport : n % 2 < 2 := Nat.mod_lt _ (by decide)
  exact ⟨clearCommand s rfl rfl, clearCommand s rfl rfl, clearCommand s rfl rfl, clearCommand s rfl rfl, clearCommand s rfl rfl,
    clearCommand s rfl rfl, clearCommand s rfl rfl, clearCommand s rfl rfl, clearCommand s (exec_fchClr who hchan s) rfl,
    clearCommand s rfl rfl, clearCommand s rfl rfl, clearCommand s rfl rfl, clearCommand s rfl rfl, clearCommand s rfl rfl,
    clearCommand s rfl rfl, clearCommand s rfl rfl, clearCommand s (exec_netClr who hport s) rfl, clearCommand s rfl rfl,
    clearCommand s rfl rfl, clearCommand s rfl rfl, clearCommand s rfl rfl, clearCommand s rfl rfl,
    clearCommand s (exec_aserClr who hport s) rfl⟩

end Sys2Proof.Machine
end

section
/-!
References and PLLs (R87, R89, R98, R99).
-/

namespace Sys2Proof.Machine

/-- The loss of PE_REFCLK in an L1 substate, outside Keep, unlocks its PLL and raises nothing. -/
theorem exec_refClockLoss_l1 {s : State} (hmode : s.mode ≠ Md.KEEP) (hok : s.get F.CLK_REF_STATUS_PE_REFCLK_OK = 1) :
    exec (.refClockLoss 1 true) s = .next
      (((State.set { s with mc := { s.mc with l1ssRef := true } } F.CLK_REF_STATUS_PE_REFCLK_OK 0).setBitTo F.CLK_PLL_LOCK_LOCK 9 false).set
        F.PCIE_STATUS_L1SS 1) := by
  change execRefClockLoss 1 true s = _
  simp only [execRefClockLoss, done, if_true, hok, Nat.one_ne_zero, if_false, hmode]
  rfl

/-- What the loss of PE_REFCLK in an L1 substate leaves. -/
theorem State.l1Loss_effect (s : State) :
    let t := ((s.set F.CLK_REF_STATUS_PE_REFCLK_OK 0).setBitTo F.CLK_PLL_LOCK_LOCK 9 false).set F.PCIE_STATUS_L1SS 1
    OnlyFields [F.CLK_REF_STATUS_PE_REFCLK_OK, F.CLK_PLL_LOCK_LOCK, F.PCIE_STATUS_L1SS] s t ∧
      t.get F.CLK_REF_STATUS_PE_REFCLK_OK = 0 ∧ t.getBit F.CLK_PLL_LOCK_LOCK 9 = false := by
  refine ⟨(((OnlyFields.refl _ s).set (by decide) _).set (by decide) _).set (by decide) _, ?_, ?_⟩
  · rw [State.get_set_ne _ _ (by decide), State.setBitTo, State.get_set_ne _ _ (by decide), State.get_set_self]
    rfl
  · rw [State.getBit, State.get_set_ne _ _ (by decide)]
    exact State.getBit_setBitTo_self _ _ (by decide)

/-- A PLL that takes its spread changes no register. -/
theorem State.takeSsc_only (s : State) (p : Nat) : s.takeSsc p = { s with mc := (s.takeSsc p).mc } := by
  unfold State.takeSsc
  split
  · rfl
  · rfl

/-- A spread PLL takes the profile last adopted. -/
theorem State.takeSsc_ssc {s : State} {p : Nat} (hp : 1 ≤ p ∧ p ≤ 6) (hlen : p - 1 < s.mc.ssc.length) :
    (s.takeSsc p).mc.ssc.getD (p - 1) 0 = s.sscActive p := by
  simp [State.takeSsc, hp, hlen]

/-- The lock bits are no part of the spread. -/
theorem State.sscActive_lock (s : State) (pll p : Nat) (b : Bool) : (s.setBitTo F.CLK_PLL_LOCK_LOCK pll b).sscActive p = s.sscActive p := by
  unfold State.sscActive State.setBitTo
  (split <;> exact State.get_set_ne _ _ (by decide))

/-- What the lock of a PLL leaves. -/
theorem State.pllLock_effect (s : State) {pll : Nat} (h : pll ≤ 9) :
    let t := (s.setBitTo F.CLK_PLL_LOCK_LOCK pll true).takeSsc pll
    t.getBit F.CLK_PLL_LOCK_LOCK pll = true ∧ OnlyFields [F.CLK_PLL_LOCK_LOCK] { s with mc := t.mc } t ∧
      (1 ≤ pll ∧ pll ≤ 6 → pll - 1 < s.mc.ssc.length → t.mc.ssc.getD (pll - 1) 0 = s.sscActive pll) := by
  intro t
  have ht : t = { s.setBitTo F.CLK_PLL_LOCK_LOCK pll true with mc := t.mc } := State.takeSsc_only _ _
  refine ⟨?_, ?_, fun hp hlen => ?_⟩
  · rw [ht]
    exact State.getBit_setBitTo_self s true (Nat.lt_succ_of_le h)
  · exact (congrArg (OnlyFields _ _) ht).mpr (State.set_only { s with mc := t.mc } _ _)
  · rw [← State.sscActive_lock s pll pll true]
    exact State.takeSsc_ssc hp hlen

/-- Settles O11. -/
theorem referencesAndPlls : Obligations.ReferencesAndPlls := by
  unfold Obligations.ReferencesAndPlls
  intro s hmode
  refine ⟨fun hok => ⟨_, rfl, ?_⟩, fun hok => ⟨_, exec_refClockLoss_l1 hmode hok, State.l1Loss_effect _⟩, fun hok l1 => ⟨_, rfl, ?_⟩,
    fun ref href hlost hl1 => ⟨_, rfl, ?_⟩, fun pll hpll href hneeded => ⟨(s.setBitTo F.CLK_PLL_LOCK_LOCK pll true).takeSsc pll, ?_, ?_⟩,
    fun pll hlock => ⟨_, rfl, ?_⟩⟩
  · simp [hok, hmode]
  · simp [hok, hmode]
  · have hsimple : (ref = 1 && s.mc.l1ssRef) = false := by simpa using hl1
    simp [hlost, hmode, hsimple, Nat.not_lt.mpr href]
  · change execPllLock pll s = _
    simp [execPllLock, done, hmode, hpll, href, hneeded]
  · exact State.pllLock_effect s hpll
  · simp [hlock]

end Sys2Proof.Machine
end

section
/-!
The budget arbiter: windows (R172 to R180), thermal samples (R181 to R184), picks (R177) and the issue of a picked operation (R354, R355).
-/

namespace Sys2Proof.Machine

/-! ### Windows -/

/-- Outside Keep, once BUDGET is set, a window start whose PAIR island is not ON runs the window's steps. -/
theorem exec_arbitrationWindowStart {s : State} (throughout : List Nat) (hmode : s.mode ≠ Md.KEEP) (hready : s.ready Fn.BUDGET = true)
    (hpair : (s.newWindow throughout).isl 4 ≠ 2) :
    exec (.arbitrationWindowStart throughout) s = .next (s.newWindow throughout) := by
  change execArbitrationWindowStart throughout s = _
  simp [execArbitrationWindowStart, done, hmode, hready, hpair]

/-- In Keep no window starts. -/
theorem exec_arbitrationWindowStart_keep {s : State} (throughout : List Nat) (hmode : s.mode = Md.KEEP) :
    exec (.arbitrationWindowStart throughout) s = .next s := by
  change execArbitrationWindowStart throughout s = _
  simp [execArbitrationWindowStart, done, hmode]

/-- R176: a refill tops up each floor balance to at most the class's floor share. -/
theorem State.refillAll_b (s : State) {k : Nat} (h : k < 8) :
    s.refillAll.bud.b.getD k 0 = topUp (s.bud.b.getD k 0) (s.classFloor k * s.refill : Nat) := by
  have hb : s.refillAll.bud.b = (List.range 8).map (fun k =>
    topUp (s.bud.b.getD k 0) (((List.range 8).map s.classFloor).getD k 0 * s.refill : Nat)) := rfl
  simp [hb, h]

/-- R176: a refill tops up each ceiling balance to at most the class's ceiling share. -/
theorem State.refillAll_c (s : State) {k : Nat} (h : k < 8) :
    s.refillAll.bud.c.getD k 0 = topUp (s.bud.c.getD k 0) (s.classCeil k * s.refill : Nat) := by
  have hc : s.refillAll.bud.c = (List.range 8).map (fun k =>
    topUp (s.bud.c.getD k 0) (((List.range 8).map s.classCeil).getD k 0 * s.refill : Nat)) := rfl
  simp [hc, h]

/-- A balance after a refill is at most the refill. -/
theorem topUp_le (b p : Int) : topUp b p ≤ p := Int.min_le_right _ _

/-- R175: P is at least POOL_MIN. -/
theorem State.poolMin_le_refill (s : State) : 16 * s.get F.BUDGET_POOL_POOL_MIN_UJ ≤ s.refill := Nat.le_max_left _ _

/-- R180, Table 06-4: a ledger state or a rung lowers a ceiling no further than the floor. -/
theorem State.classFloor_le_classCeil {s : State} {k : Nat} (hsanit : s.nv.sanit ≠ 2)
    (h : s.classFloor k ≤ s.getPart (F.BUDGET_CEIL_M_CEIL s.mode) k 8) : s.classFloor k ≤ s.classCeil k := by
  unfold State.classCeil
  simp only [hsanit, if_false]
  split
  · exact Nat.le_min.mpr ⟨h, Nat.le_refl _⟩
  · exact h

/-! ### Thermal samples -/

/-- Before THERMAL a sample is ignored. -/
theorem exec_thermalSample_ignored {s : State} (tj : List Int) (mv : Nat) (h : s.ready Fn.THERMAL = false) :
    exec (.thermalSample tj mv) s = .next s := by
  change execThermalSample tj mv s = _
  simp [execThermalSample, done, h]

/-- A sensor below 120 °C, where every sensor reads from -50 °C up. -/
theorem reading_cool {tj : List Int} (hlen : tj.length = 8) (h : ∀ x ∈ tj, -50 ≤ x ∧ x < 120) {i : Nat} (hi : i < 8) :
    inRange (tj.getD i 0) = true ∧ tj.getD i 0 < 120 := by
  have hi' : i < tj.length := hlen.symm ▸ hi
  have hmem : tj.getD i 0 ∈ tj := by simp [hi']
  obtain ⟨hlow, hhigh⟩ := h _ hmem
  refine ⟨?_, hhigh⟩
  simp only [inRange, Bool.and_eq_true, decide_eq_true_eq]
  omega

/-- Eight numbers that are each 0. -/
theorem map_range_eight_zero {f : Nat → Nat} (h : ∀ i < 8, f i = 0) : (List.range 8).map f = List.replicate 8 0 :=
  List.eq_replicate_iff.mpr ⟨by simp, fun x hx => by
    obtain ⟨i, hi, rfl⟩ := List.mem_map.mp hx
    exact h i (List.mem_range.mp hi)⟩

/-- R181: where every sensor is in range, no run of readings out of range goes on and no sensor is excluded. -/
theorem State.noteSensors_inRange (s : State) {tj : List Int} (h : ∀ i < 8, inRange (tj.getD i 0) = true) :
    s.noteSensors tj = { s with bud := { s.bud with badRun := List.replicate 8 0 } } := by
  have hruns : (List.range 8).map (fun i => if inRange (tj.getD i 0) then 0 else s.bud.badRun.getD i 0 + 1) = List.replicate 8 0 :=
    map_range_eight_zero fun i hi => by rw [if_pos (h i hi)]
  unfold State.noteSensors
  rw [hruns]
  rfl

/-- The state that a sample asks for is noted in the arbiter's own run and next state. -/
theorem State.thermalAsk_effect (s : State) (hot : Option (Nat × Int)) (mv : Nat) :
    ∃ run next, s.thermalAsk hot mv = { s with bud := { s.bud with coolRun := run, tNext := next } } := by
  unfold State.thermalAsk
  dsimp only
  repeat' split
  all_goals exact ⟨_, _, rfl⟩

/-- R184: with every sensor below 120 °C no run towards the fatal fault goes on. -/
theorem State.noteHot_cool (s : State) {tj : List Int} (h : ∀ i < 8, tj.getD i 0 < 120) :
    s.noteHot tj = { s with bud := { s.bud with hotRun := List.replicate 8 0 } } := by
  have hruns : (List.range 8).map (fun i => if (inRange (tj.getD i 0) && !bit (s.get F.BUDGET_TEMP_EXCLUDED) i) &&
      decide (120 ≤ tj.getD i 0) then s.bud.hotRun.getD i 0 + 1 else 0) = List.replicate 8 0 :=
    map_range_eight_zero fun i hi => if_neg fun hhot => by
      have hmax := (Bool.and_eq_true_iff.mp hhot).2
      exact absurd (h i hi) (Int.not_lt.mpr (of_decide_eq_true hmax))
  unfold State.noteHot
  dsimp only
  rw [hruns]
  rfl

/-- The hottest sensor is shown. -/
def State.showHot (s : State) (hot : Option (Nat × Int)) : State :=
  match hot with
  | some (i, t) => (s.set F.BUDGET_TEMP_SENSOR i).set F.BUDGET_TEMP_TJ_MAX (unsigned 8 t)
  | none => s

/-- THERM_IN is shown where it is enabled. -/
def State.showExt (s : State) (mv : Nat) : State :=
  if s.get F.BUDGET_THERM_EXT_EN = 1 then s.set F.BUDGET_TEMP_EXT_MV (min mv 1200) else s

/-- The fields that show a sample. -/
def thermalShown : List Field := [F.BUDGET_TEMP_SENSOR, F.BUDGET_TEMP_TJ_MAX, F.BUDGET_TEMP_EXT_MV]

theorem State.showHot_only (s : State) (hot : Option (Nat × Int)) : OnlyFields thermalShown s (s.showHot hot) := by
  unfold State.showHot
  split
  · exact ((OnlyFields.refl _ s).set (by decide) _).set (by decide) _
  · exact OnlyFields.refl _ _

theorem State.showExt_only (s : State) (mv : Nat) : OnlyFields thermalShown s (s.showExt mv) := by
  unfold State.showExt
  split
  · exact (OnlyFields.refl _ s).set (by decide) _
  · exact OnlyFields.refl _ _

/-- A sample, once THERMAL is set, in its steps. -/
theorem exec_thermalSample {s : State} (tj : List Int) (mv : Nat) (h : s.ready Fn.THERMAL = true) :
    ∃ hot, exec (.thermalSample tj mv) s = .next (((((State.noteSensors { s with bud := { s.bud with
      fatalHeld := s.bud.fatalHeld && s.mode = Md.QUARANTINE } } tj).showHot hot).showExt mv).thermalAsk hot (min mv 1200)).noteHot tj) := by
  change ∃ hot, execThermalSample tj mv s = _
  simp only [execThermalSample, done, h, Bool.not_true, Bool.false_eq_true, if_false]
  exact ⟨_, rfl⟩

/-- A sample with every sensor in range and below 120 °C changes fields that show it, and the arbiter's runs, alone. -/
theorem answers_thermalSample_cool {s : State} {tj : List Int} (mv : Nat) (hready : s.ready Fn.THERMAL = true) (hlen : tj.length = 8)
    (h : ∀ x ∈ tj, -50 ≤ x ∧ x < 120) :
    Answers (.thermalSample tj mv) s (fun t => (∀ g : Field, g.key ∉ thermalShown.map Field.key → t.get g = s.get g) ∧ t.nv = s.nv ∧
      t.bud.hotRun = List.replicate 8 0 ∧ t.bud.badRun = List.replicate 8 0) := by
  obtain ⟨hot, hexec⟩ := exec_thermalSample tj mv hready
  have hcool := fun i hi => reading_cool hlen h (i := i) hi
  rw [State.noteSensors_inRange _ (fun i hi => (hcool i hi).1)] at hexec
  let s1 : State := { s with bud := { s.bud with fatalHeld := s.bud.fatalHeld && s.mode = Md.QUARANTINE, badRun := List.replicate 8 0 } }
  change exec (.thermalSample tj mv) s = .next ((((s1.showHot hot).showExt mv).thermalAsk hot (min mv 1200)).noteHot tj) at hexec
  obtain ⟨hrest1, hfields1⟩ := s1.showHot_only hot
  obtain ⟨hrest2, hfields2⟩ := (s1.showHot hot).showExt_only mv
  obtain ⟨run, next, hask⟩ := ((s1.showHot hot).showExt mv).thermalAsk_effect hot (min mv 1200)
  rw [hask, State.noteHot_cool _ (fun i hi => (hcool i hi).2)] at hexec
  refine ⟨_, hexec, fun g hg => ?_, ?_, rfl, ?_⟩
  · exact (hfields2 g hg).trans (hfields1 g hg)
  · dsimp only
    rw [hrest2, hrest1]
  · dsimp only
    rw [hrest2, hrest1]

/-- Settles O19: windows run `newWindow`, whose refill is a `topUp`; a cool sample shows itself and moves no run. -/
theorem windowsAndThermal : Obligations.WindowsAndThermal := by
  unfold Obligations.WindowsAndThermal
  refine ⟨fun s => ⟨fun throughout hmode hready hpair => ⟨_, exec_arbitrationWindowStart throughout hmode hready hpair, rfl⟩,
    fun throughout hmode => ⟨_, exec_arbitrationWindowStart_keep throughout hmode, rfl⟩, topUp_le _ _, s.poolMin_le_refill,
    fun k hk => ⟨?_, ?_⟩, fun k hsanit h => State.classFloor_le_classCeil hsanit h⟩,
    fun s => ⟨fun tj mv h => ⟨_, exec_thermalSample_ignored tj mv h, rfl⟩, fun tj mv hready hlen h => ?_, fun who mw h => ?_⟩⟩
  · exact s.refillAll_b hk ▸ topUp_le _ _
  · exact s.refillAll_c hk ▸ topUp_le _ _
  · obtain ⟨t, ht, hfields, hnv, hhot, hbad⟩ := answers_thermalSample_cool mv hready hlen h
    exact ⟨t, ht, hfields F.SYS_MODE_CUR (by decide), hfields F.BUDGET_TEMP_EXCLUDED (by decide), hnv, hhot, hbad⟩
  · refine ⟨_, rfl, ?_⟩
    rw [State.rwAction_takes _ h]
    exact ⟨State.set_only _ _ _, State.get_set_self _ _ _⟩

/-! ### Picks -/

/-- R172, R191: before BUDGET, in Seal, Rest and Keep, and while a record is sealed, no pick is made. -/
theorem exec_arbiterPick_none {s : State} (pickable : List Nat)
    (h : s.mode = Md.SEAL ∨ s.mode = Md.REST ∨ s.mode = Md.KEEP ∨ s.ready Fn.BUDGET = false ∨ s.led.sealing.isSome = true) :
    exec (.arbiterPick pickable) s = .next s := by
  change execArbiterPick pickable s = _
  unfold execArbiterPick done
  rw [if_pos]
  rcases h with h | h | h | h | h <;> simp [h]

/-- What a pick of operation `o` for class `k` leaves. -/
def State.pick (s : State) (k : Nat) (o : FlashOp) : State :=
  let s1 := (s.pay k o.chan o.cost).mapOp o.id (fun o => { o with phase := .picked })
  { s1 with bud := { s1.bud with picked := s1.bud.picked.set k (s1.bud.picked.getD k 0 + 1) } }

/-- With every queued operation's channel and LUN in use, the arbiter picks the best operation of the class the three steps name. -/
theorem exec_arbiterPick {s : State} {pickable : List Nat} {k : Nat} {o : FlashOp} (hready : s.ready Fn.BUDGET = true)
    (hmode : s.mode ≠ Md.SEAL ∧ s.mode ≠ Md.REST ∧ s.mode ≠ Md.KEEP) (hsealing : s.led.sealing = none)
    (hops : ∀ x ∈ s.bud.ops, x.phase = .queued → s.chanState x.chan = 2 ∧ s.getPart (F.FCH_LUN_STATE_STATE x.chan) x.lun 2 ≠ 2)
    (hclass : s.pickClass (fun k => (s.bestOp (fun o => pickable.contains o.id && s.creditFree o) k).isSome) = some k)
    (hbest : s.bestOp (fun o => pickable.contains o.id && s.creditFree o) k = some o) :
    exec (.arbiterPick pickable) s = .next (s.pick k o) := by
  obtain ⟨hseal, hrest, hkeep⟩ := hmode
  have hgone : s.bud.ops.find? (fun o => o.phase = .queued &&
      (s.chanState o.chan ≠ 2 || s.getPart (F.FCH_LUN_STATE_STATE o.chan) o.lun 2 = 2)) = none := by
    rw [List.find?_eq_none]
    intro x hx
    have hused := hops x hx
    by_cases hphase : x.phase = .queued
    · simp [hphase, hused hphase]
    · simp [hphase]
  change execArbiterPick pickable s = _
  unfold execArbiterPick done
  simp only [hready, hseal, hrest, hkeep, hsealing, hgone, hclass, hbest]
  rfl

/-- R177: the class picked from has a pickable operation and an open ceiling. -/
theorem State.pickClass_open {s : State} {has : Nat → Bool} {k : Nat} (h : s.pickClass has = some k) :
    has k = true ∧ s.bud.ceil.getD k 0 ≠ 0 := by
  simp only [State.pickClass, Option.or_eq_some_iff] at h
  rcases h with h | ⟨-, h | ⟨-, h⟩⟩
  · split at h
    · have hfound := List.find?_some h
      simp only [Bool.and_eq_true, decide_eq_true_eq] at hfound
      exact hfound.1.1
    · cases h
  · have hfound := List.find?_some h
    simp only [Bool.and_eq_true, decide_eq_true_eq] at hfound
    exact hfound.1.1
  · have hfound := List.find?_some h
    simp only [Bool.and_eq_true, decide_eq_true_eq] at hfound
    exact hfound.1.1

/-- A pick marks its operation. -/
theorem State.pick_phase {s : State} {k : Nat} {o x : FlashOp} (hx : x ∈ (s.pick k o).bud.ops) (hid : x.id = o.id) : x.phase = .picked := by
  obtain ⟨y, -, rfl⟩ := List.mem_map.mp hx
  by_cases hy : y.id = o.id
  · simp [hy]
  · simp [hy] at hid

/-! ### Issue -/

/-- An operation that is not picked, or that its LUN does not accept, stays as it is. -/
theorem exec_sequencerIssue_waits {s : State} {op : Nat} {o : FlashOp} (hop : s.op op = some o)
    (h : o.phase ≠ .picked ∨ s.lunAccepts o = false) : exec (.sequencerIssue op) s = .next s := by
  change execSequencerIssue op s = _
  unfold execSequencerIssue done
  simp only [hop]
  rw [if_pos]
  rcases h with h | h <;> simp [h]

/-- A picked operation other than a program that its LUN accepts, on a channel in use and with no injector armed for it, is issued. -/
theorem exec_sequencerIssue {s : State} {op : Nat} {o : FlashOp} (hop : s.op op = some o) (hphase : o.phase = .picked)
    (haccepts : s.lunAccepts o = true) (hkind : o.kind ≠ .prog) (hchan : s.chanState o.chan = 2) (hinj : s.flashInjector o = none) :
    exec (.sequencerIssue op) s = .next (s.issueOp o) := by
  change execSequencerIssue op s = _
  simp [execSequencerIssue, done, hop, hphase, haccepts, hkind, hchan, hinj]

/-- R358: what a read suspends stands among the operations; beside them only the channel's count moves. -/
theorem State.suspendFor_effect (s : State) (rd : FlashOp) :
    ∃ ops regs, s.suspendFor rd = { s with regs := regs, bud := { s.bud with ops := ops } } := by
  unfold State.suspendFor
  dsimp only
  split
  · exact ⟨_, _, rfl⟩
  · exact ⟨_, _, rfl⟩

/-- R178: an operation other than a program that is issued spends its tokens, and touches no slot and nothing of the map. -/
theorem State.issueOp_effect {s : State} {o : FlashOp} (h : o.kind ≠ .prog) :
    (s.issueOp o).bud.spent.get o.chan 0 = s.bud.spent.get o.chan 0 + o.cost ∧ (s.issueOp o).slots = s.slots ∧
      (s.issueOp o).map = s.map := by
  obtain ⟨ops, regs, hsusp⟩ := (s.spend o.chan o.cost).suspendFor_effect o
  simp only [State.issueOp, h, if_false, State.mapOp, hsusp]
  exact ⟨Tbl.get_put_self _ _ _ _, rfl, rfl⟩

/-- Settles O20: the outcomes of a pick by its three conditions, and of an issue by the LUN. -/
theorem picksAndIssues : Obligations.PicksAndIssues := by
  unfold Obligations.PicksAndIssues
  refine ⟨fun s pickable => ⟨fun h => ⟨_, exec_arbiterPick_none pickable h, rfl⟩, ?_, fun has k h => State.pickClass_open h⟩,
    fun s op o hop => ⟨fun h => ⟨_, exec_sequencerIssue_waits hop h, rfl⟩, ?_⟩⟩
  · intro k o hready hseal hrest hkeep hsealing hops hclass hbest
    refine ⟨_, exec_arbiterPick hready ⟨hseal, hrest, hkeep⟩ hsealing hops hclass hbest, rfl, ?_, rfl, rfl,
      fun x => State.pick_phase, rfl⟩
    exact Tbl.get_put_self _ _ _ _
  · intro hphase haccepts hkind hchan hinj
    exact ⟨_, exec_sequencerIssue hop hphase haccepts hkind hchan hinj, rfl, State.issueOp_effect hkind⟩

end Sys2Proof.Machine
end

section
/-!
Host commands that are fetched, judged and carried out in one step: I/O queues (R198, R224), the commands that return data (R197, R202,
R211), self-tests (R216, R217), and the vendor commands that need no take (R209, R212, R494).
-/

namespace Sys2Proof.Machine

/-! ### Fetched and judged -/

@[simp] theorem passes_nil : Passes [] := fun _ h => absurd h List.not_mem_nil

@[simp] theorem passes_cons (w : Bool × Why) (ws : List (Bool × Why)) : Passes (w :: ws) ↔ w.1 = false ∧ Passes ws :=
  List.forall_mem_cons

/-- A check with a status that is not a vendor's. -/
theorem State.reject_fail (s : State) (id : Cid) {sct sc dw0 : Nat} (h : sct ≠ 7) : s.reject id (sct, sc, dw0) = s.fail id sct sc := by
  simp [State.reject, h]

/-- A command of the camera's that no Abort can mark is judged in the state its fetch leaves. -/
theorem State.arriveFree_host {s : State} {id : Cid} {q : Nat} (f : State → State) (hfetch : s.mayFetch id.src = true)
    (hsrc : id.src = .host q) : s.arriveFree id f = f (s.atFetch id) := by
  rw [hsrc] at hfetch
  simp [State.arriveFree, State.atFetch, hfetch, hsrc]

/-- The fetch of the camera's entry moves its queue's head alone. -/
theorem State.atFetch_host {s : State} {id : Cid} {q : Nat} (hsrc : id.src = .host q) :
    s.atFetch id = { s with host := (s.atFetch id).host } := by
  simp only [State.atFetch, hsrc, State.popSq]
  split
  · rfl
  · rfl

/-- The camera's admin queue is an admin queue. -/
theorem hostAdminOnly_admin {id : Cid} (hsrc : id.src = .host 0) : (hostAdminOnly id).1 = false := by
  simp [hostAdminOnly, hsrc]

/-- The camera's admin queue is an admin queue, and not the Discovery controller's. -/
theorem State.adminOnly_admin (s : State) {id : Cid} (hsrc : id.src = .host 0) (disc : Bool) : (s.adminOnly id disc).1 = false := by
  simp [State.adminOnly, State.onAdmin, State.onDisc, hsrc]

/-- The camera's commands read every log page. -/
theorem State.logFor_admin (s : State) {id : Cid} (hsrc : id.src = .host 0) (lid : Nat) : s.logFor id lid = s.logPage lid := by
  simp [State.logFor, State.onDisc, isDock, hsrc]

/-! ### I/O queues -/

/-- Settles O22: each command is fetched and passes or fails its checks. -/
theorem queuesAreCreatedAndDeleted : Obligations.QueuesAreCreatedAndDeleted := by
  unfold Obligations.QueuesAreCreatedAndDeleted
  intro s id qid size hfetch hsrc
  have hadmin := hostAdminOnly_admin hsrc
  refine ⟨fun vec ien hlow hhigh hnew hsize hvec => ⟨_, rfl, ?_⟩, fun prio hlow hhigh hnew hsize hcq => ⟨_, rfl, ?_⟩,
    fun cqid prio hne hlow hhigh hnew hsize => ⟨_, rfl, ?_⟩, fun hq hcq hsq => ⟨_, rfl, ?_⟩, fun hq hsq => ⟨_, rfl, ?_⟩⟩
  · rw [State.arrive_fetches _ hfetch, State.judge_passes]
    simp [hadmin, badField, hsize, hnew]
    omega
  · rw [State.arrive_fetches _ hfetch, State.judge_passes]
    simp [hadmin, badField, hsize, hnew, hcq]
    omega
  · rw [State.arrive_fetches _ hfetch, State.judge_fails (w := (true, (1, 0x00, 0)))]
    · exact State.reject_fail _ id (by decide)
    · have hqid : (decide (qid = 0) || decide (256 < qid)) = false := by
        simp
        omega
      simp [hadmin, badField, hsize, hnew, hne, hqid]
  · rw [State.arrive_fetches _ hfetch, State.judge_passes]
    simp [hadmin, hq, hcq, hsq]
  · rw [State.arrive_fetches _ hfetch, State.judge_passes]
    simp [hadmin, hq, hsq]

/-! ### Data that commands return -/

/-- Settles O26: each command is fetched and passes or fails its checks, and a read's data is what the state shows. -/
theorem hostDataIsReturned : Obligations.HostDataIsReturned := by
  unfold Obligations.HostDataIsReturned
  intro s id hfetch hsrc
  have hadmin := fun disc => (s.atFetch id).adminOnly_admin hsrc disc
  have hlog := (s.atFetch id).logFor_admin hsrc
  have hpos (count : Nat) (h : 1 ≤ count) : count ≠ 0 := Nat.ne_of_gt h
  refine ⟨fun lid off n page hpage hoff => ⟨_, rfl, ?_⟩, fun lid off n rae hpage => ⟨_, rfl, ?_⟩,
    fun cns nsid cntid page hpage => ⟨_, rfl, ?_⟩, ⟨_, rfl, ?_⟩,
    fun stream take first count hstream hlow hhigh hlocked => ⟨fun hready wait => ⟨_, rfl, ?_⟩, fun hready => ⟨_, rfl, ?_⟩,
      fun hready hroom hnone hlive => ⟨_, rfl, ?_⟩⟩⟩
  · rw [State.arrive_fetches _ hfetch, State.judge_passes]
    · simp [hlog, hpage]
    · simp [hadmin, badField, hlog, hpage, hoff]
  · rw [State.arrive_fetches _ hfetch, State.judge_fails (w := (true, (1, 0x09, 0)))]
    · exact State.reject_fail _ id (by decide)
    · simp [hadmin, badField, hlog, hpage]
  · rw [State.arrive_fetches _ hfetch, State.judge_passes]
    · simp [hpage]
    · simp [hadmin, badField]
  · rw [State.arriveFree_host _ hfetch.1 hsrc, State.judge_passes]
    · simp
    · simp [hadmin, badField, badLength]
  · rw [State.arrive_fetches _ hfetch, State.judge_fails (w := (true, (7, 0x8E, 0)))]
    · rfl
    · simp [hadmin, badField, badLength, hpos count hlow, hhigh, hstream, hlocked, hready]
  · rw [State.arrive_fetches _ hfetch, State.judge_passes]
    · simp
    · simp [hadmin, badField, badLength, hpos count hlow, hhigh, hstream, hlocked, hready]
  · obtain ⟨t, ht, htake⟩ := hlive
    have hany : (s.atFetch id).liveTakes.any (fun t => t.num = take) = true := List.any_eq_true.mpr ⟨t, ht, by simpa using htake⟩
    rw [State.arrive_fetches _ hfetch, State.judge_passes]
    · simp only [hnone, hany]
      rfl
    · simp [hadmin, badField, badLength, hpos count hlow, hhigh, hstream, hlocked, hready, hroom]

/-! ### Self-tests -/

/-- A fetch leaves the mode. -/
theorem State.mode_atFetch {s : State} {id : Cid} {q : Nat} (hsrc : id.src = .host q) : (s.atFetch id).mode = s.mode := by
  rw [State.atFetch_host hsrc]
  rfl

/-- A segment's failure is kept where none was kept before, and changes nothing else. -/
theorem State.failSeg_eq (s : State) (fail : Bool) :
    s.failSeg fail = { s with tst := { s.tst with
      failed := if fail = true ∧ s.tst.failed = none then some s.tst.seg else s.tst.failed } } := by
  cases fail with
  | false => simp [State.failSeg]
  | true =>
    cases hfailed : s.tst.failed with
    | none => simp [State.failSeg, hfailed]
    | some k =>
      have hkept : s.tst.failed ≠ none := by simp [hfailed]
      simp [State.failSeg, ← hfailed, hkept]

/-- R216: a segment that is neither the SRAM segment nor the last ends, and the next one follows. -/
theorem exec_selftestSegmentDone_next {s : State} (ok : Bool) (hrun : s.tst.running = true) (hkind : s.tst.kind = 1 ∨ s.tst.kind = 2)
    (hseg : s.tst.seg ≠ 2) (hlast : s.tst.seg < 6) :
    exec (.selftestSegmentDone ok []) s = .next { s with tst := { s.tst with
      failed := if ok = false ∧ s.tst.failed = none then some s.tst.seg else s.tst.failed, seg := s.tst.seg + 1 } } := by
  have hkind0 : s.tst.kind ≠ 0 := by omega
  have hmore : ¬(if s.tst.kind = 1 then 6 else 8) ≤ s.tst.seg := by
    split
    · omega
    · omega
  change execSelftestSegmentDone ok [] s = _
  simp [execSelftestSegmentDone, done, hkind0, hrun, hseg, Nat.ne_of_lt hlast, State.failSeg_eq, hmore]

/-- R216: the last segment of a short test ends it: its result joins the log. -/
theorem exec_selftestSegmentDone_last {s : State} (ok : Bool) (hrun : s.tst.running = true) (hkind : s.tst.kind = 1)
    (hseg : s.tst.seg = 6) :
    exec (.selftestSegmentDone ok []) s = .next
      ((s.failSeg s.senseBad).logTest (if (s.failSeg s.senseBad).tst.failed.isSome then 7 else 0)) := by
  change execSelftestSegmentDone ok [] s = _
  have hkept : (s.failSeg s.senseBad).tst.kind = 1 := by
    rw [State.failSeg_eq]
    exact hkind
  simp [execSelftestSegmentDone, done, hkind, hrun, hseg, hkept]

/-- Settles O28: the command by its checks, a chunk and a resumption by `testMay`, the end of a segment by `failSeg_eq`. -/
theorem selfTests : Obligations.SelfTests := by
  unfold Obligations.SelfTests
  intro s
  refine ⟨fun id stc hfetch hsrc hstc => ?_, fun hmay hyield => ⟨_, rfl, ?_⟩, fun hidle uas => ⟨_, rfl, ?_⟩,
    fun hmay hyield hbusy => ⟨_, rfl, ?_⟩, fun hmay hyield hkind => ⟨_, rfl, ?_⟩, fun hrun hkind => ⟨fun ok h2 h6 hlast => ?_,
      fun ok hshort hseg => ?_⟩⟩
  · dsimp only
    intro hready hwake hupdate hsanit
    have hadmin := hostAdminOnly_admin hsrc
    have hmode : (s.atFetch id).mode = s.mode := State.mode_atFetch hsrc
    have hstc15 : stc ≠ 15 := by omega
    refine ⟨fun hkind => ⟨_, rfl, ?_⟩, fun hkind => ⟨_, rfl, ?_⟩, ⟨_, rfl, ?_⟩⟩
    · rw [State.arrive_fetches _ hfetch, State.judge_passes]
      · simp [hstc15, hmode]
      · simp [hadmin, badField, hready, hwake, hupdate, hsanit, hkind]
        omega
    · rw [State.arrive_fetches _ hfetch, State.judge_fails (w := (true, (1, 0x1D, 0)))]
      · exact State.reject_fail _ id (by decide)
      · simp [hadmin, badField, hstc, hstc15, hready, hwake, hupdate, hsanit, hkind]
    · rw [State.arrive_fetches _ hfetch, State.judge_passes]
      · rfl
      · simp [hadmin, badField]
  · simp [hmay, hyield]
  · rw [if_pos]
    rcases hidle with h | h <;> simp [h]
  · simp [hmay, hyield, hbusy]
  · simp [hkind]
  · exact ⟨_, exec_selftestSegmentDone_next ok hrun hkind h2 hlast, rfl, rfl, rfl⟩
  · refine ⟨_, exec_selftestSegmentDone_last ok hrun hshort hseg, rfl, ?_⟩
    rw [State.failSeg_eq]
    cases hfailed : s.tst.failed with
    | none =>
      cases hsense : s.senseBad with
      | false => simp [State.logTest, hshort]
      | true => simp [State.logTest, hshort, hseg]
    | some k => simp [State.logTest, hshort]

/-! ### Vendor commands without a take -/

/-- Settles O29: the posts and triggers by their checks, a mode request by `judgeMode`. -/
theorem vendorRequests : Obligations.VendorRequests := by
  unfold Obligations.VendorRequests
  intro s id hmay hsrc
  have hadmin := hostAdminOnly_admin hsrc
  refine ⟨fun ws db hne hlen => ⟨fun hfull => ⟨_, rfl, ?_⟩, fun hroom => ⟨_, rfl, ?_⟩⟩, fun hheld ret => ⟨_, rfl, ?_⟩,
    fun hfree => ⟨_, rfl, ?_⟩, fun hfetch hstill => ⟨fun hreq => ⟨_, rfl, ?_⟩, fun target htarget hreq => ⟨_, rfl, ?_⟩,
      fun target htarget hidle hto hlead => ⟨_, rfl, ?_⟩⟩⟩
  · rw [State.arriveFree_host _ hmay hsrc, State.judge_fails (w := (true, (7, 0x8A, 64 - ((s.atFetch id).queue 0).length)))]
    · rfl
    · simp [hadmin, badField, badLength, hne, hlen, hfull]
  · rw [State.arriveFree_host _ hmay hsrc, State.judge_passes]
    simp [hadmin, badField, badLength, hne, hlen, hroom]
  · rw [State.arriveFree_host _ hmay hsrc,
      State.judge_fails (w := (true, (7, 0x8B, (s.atFetch id).get F.SNAP_LAST_EPOCH_EPOCH)))]
    · rfl
    · simp [hadmin, badField, badLength, hheld]
  · rw [State.arriveFree_host _ hmay hsrc, State.judge_passes]
    · rfl
    · simp [hadmin, badField, badLength, hfree]
  · have hrange : ¬15 < (s.atFetch id).mode := fun h => by
      simp [requestable, Md.KEEP, Md.REST, Md.IDLE, Md.REVIEW, Md.OFFLOAD, Md.GROOM, Md.SERVICE] at hreq
      omega
    rw [State.arrive_fetches _ hfetch, State.judge_passes]
    · simp [State.requestMode, hstill, State.runMode, State.judgeMode, hreq, State.grantMode]
    · simp [hadmin, badField, hrange]
  · rw [State.arrive_fetches _ hfetch, State.judge_passes]
    · simp [State.requestMode, hstill, State.runMode, State.judgeMode, hreq, State.denyMode]
    · simp [hadmin, badField, htarget]
  · have hgo : (s.atFetch id).judgeMode target = .go := by
      rcases hto with rfl | rfl | rfl <;>
        simp [State.judgeMode, hidle, requestable, Md.IDLE, Md.REVIEW, Md.GROOM, Md.OFFLOAD]
    rw [State.arrive_fetches _ hfetch, State.judge_passes]
    · simp [State.requestMode, hstill, State.runMode, hgo, hlead]
    · simp [hadmin, badField, htarget]

end Sys2Proof.Machine
end

section
/-!
What the raising of an event and the completion of a command may touch, said once. Both reach far: an event may take a snapshot, wake the
camera, and complete an Asynchronous Event Request, whose entry passes an injector. `Calm` says what they leave: every part of the state but
`aside`, every register field of a `quiet` key, and every event that stood.
-/

namespace Sys2Proof.Machine

/-! ### The relation -/

/-- The state without the parts that an event or a completion may touch: the register file, the holding registers, the counter of free
values, what a snapshot latches, the camera's controller, what the pair sends, the injectors, and the reads of commands. -/
def State.aside (s : State) : State :=
  { s with
    regs := [], fabric := {}, fresh := 0, led := { s.led with latched := [] }, host := {}, fi := {}, map := { s.map with reads := [] }
    pair := { pstate := s.pair.pstate, lead := s.pair.lead } }

/-- The keys of the register fields that no event and no completion touches: all but EVT_RAW and the SNAP words of each page, the
snapshot's own registers, the pair's credits, injector 6 but for its ARM, HOSTQ.REFUSED and SYS.ACCESS_LOG. -/
def quiet (k : Nat) : Bool :=
  keyOff k ≠ 0x20 && !(0x50 ≤ keyOff k && keyOff k < 0x100) && !(keyPage k = Pg.SNAP && 0x118 ≤ keyOff k) &&
    !(keyPage k = Pg.FI && 0x280 ≤ keyOff k && keyOff k < 0x2C0 && k ≠ (F.FI_CFG_ARM 6).key) &&
    !(keyPage k = Pg.PAIR && 0x108 ≤ keyOff k && keyOff k < 0x120) && !(keyPage k = Pg.HOSTQ && keyOff k = 0x150) && !(keyPage k = Pg.SYS && keyOff k = 0x160)

/-- One state follows another with all but `aside` left, the fields of the keys `Q` left, and every event that stood standing. -/
structure Calm (Q : Nat → Bool) (s t : State) : Prop where
  rest : t.aside = s.aside
  get : ∀ g : Field, Q g.key = true → t.get g = s.get g
  evt : ∀ p n, n < 64 → s.getBit (F.EVT_RAW p) n = true → t.getBit (F.EVT_RAW p) n = true

variable {Q : Nat → Bool}

theorem Calm.refl (s : State) : Calm Q s s := ⟨rfl, fun _ _ => rfl, fun _ _ _ h => h⟩

theorem Calm.trans {s t u : State} (h : Calm Q s t) (k : Calm Q t u) : Calm Q s u :=
  ⟨k.rest.trans h.rest, fun g hg => (k.get g hg).trans (h.get g hg), fun p n hn he => k.evt p n hn (h.evt p n hn he)⟩

theorem Calm.mono {Q' : Nat → Bool} {s t : State} (h : Calm Q s t) (hQ : ∀ k, Q' k = true → Q k = true) : Calm Q' s t :=
  ⟨h.rest, fun g hg => h.get g (hQ _ hg), h.evt⟩

/-- A change aside of the registers. -/
theorem Calm.of_regs {s t : State} (hrest : t.aside = s.aside) (hregs : t.regs = s.regs) : Calm Q s t := by
  have hget (g : Field) : t.get g = s.get g := by rw [State.get, State.get, hregs]
  refine ⟨hrest, fun g _ => hget g, fun p n _ he => ?_⟩
  rw [State.getBit, hget]
  exact he

theorem Calm.withHost (s : State) (x : HostSt) : Calm Q s { s with host := x } := Calm.of_regs rfl rfl

/-- A change of the pair that leaves its state and its lead. -/
theorem Calm.withPair (s : State) (x : PairSt) (hpstate : x.pstate = s.pair.pstate) (hlead : x.lead = s.pair.lead) : Calm Q s { s with pair := x } := by
  refine Calm.of_regs ?_ rfl
  simp only [State.aside, hpstate, hlead]

theorem Calm.withFi (s : State) (x : FiSt) : Calm Q s { s with fi := x } := Calm.of_regs rfl rfl

theorem Calm.ite {c : Prop} [Decidable c] {s a b : State} (ha : Calm Q s a) (hb : Calm Q s b) : Calm Q s (if c then a else b) := by
  split
  · exact ha
  · exact hb

theorem Calm.foldl {α : Type} {f : State → α → State} (l : List α) (hf : ∀ s, ∀ x ∈ l, Calm Q s (f s x)) (s : State) :
    Calm Q s (l.foldl f s) :=
  List.foldlRecOn l f (motive := fun t => Calm Q s t) (Calm.refl s) fun t ht x hx => ht.trans (hf t x hx)

/-- The key of an event register stands at its offset. -/
theorem keyOff_evtRaw (p : Nat) : keyOff (F.EVT_RAW p).key = 0x20 := by
  simp only [keyOff, Field.key, F.EVT_RAW]
  omega

/-- A field that is neither kept nor an event register may be given a value. -/
theorem Calm.set {s : State} {f : Field} (v : Nat) (hQ : Q f.key = false) (hoff : keyOff f.key ≠ 0x20) : Calm Q s (s.set f v) := by
  refine ⟨rfl, fun g hg => State.get_set_ne s v fun e => ?_, fun p n _ he => ?_⟩
  · rw [e, hQ] at hg
    cases hg
  · have hne : (F.EVT_RAW p).key ≠ f.key := fun e => hoff (e ▸ keyOff_evtRaw p)
    rw [State.getBit, State.get_set_ne s v hne]
    exact he

/-! ### The parts left -/

section
variable {s t : State}

theorem Calm.pend (h : Calm Q s t) : t.pend = s.pend := (congrArg State.pend h.rest :)
theorem Calm.adopt (h : Calm Q s t) : t.adopt = s.adopt := (congrArg State.adopt h.rest :)
theorem Calm.tb (h : Calm Q s t) : t.tb = s.tb := (congrArg State.tb h.rest :)
theorem Calm.pins (h : Calm Q s t) : t.pins = s.pins := (congrArg State.pins h.rest :)
theorem Calm.mc (h : Calm Q s t) : t.mc = s.mc := (congrArg State.mc h.rest :)
theorem Calm.slots (h : Calm Q s t) : t.slots = s.slots := (congrArg State.slots h.rest :)
theorem Calm.bud (h : Calm Q s t) : t.bud = s.bud := (congrArg State.bud h.rest :)
theorem Calm.ing (h : Calm Q s t) : t.ing = s.ing := (congrArg State.ing h.rest :)
theorem Calm.frm (h : Calm Q s t) : t.frm = s.frm := (congrArg State.frm h.rest :)
theorem Calm.tim (h : Calm Q s t) : t.tim = s.tim := (congrArg State.tim h.rest :)
theorem Calm.mbx (h : Calm Q s t) : t.mbx = s.mbx := (congrArg State.mbx h.rest :)
theorem Calm.net (h : Calm Q s t) : t.net = s.net := (congrArg State.net h.rest :)
theorem Calm.dram (h : Calm Q s t) : t.dram = s.dram := (congrArg State.dram h.rest :)
theorem Calm.sdma (h : Calm Q s t) : t.sdma = s.sdma := (congrArg State.sdma h.rest :)
theorem Calm.code (h : Calm Q s t) : t.code = s.code := (congrArg State.code h.rest :)
theorem Calm.tst (h : Calm Q s t) : t.tst = s.tst := (congrArg State.tst h.rest :)
theorem Calm.sec (h : Calm Q s t) : t.sec = s.sec := (congrArg State.sec h.rest :)
theorem Calm.bist (h : Calm Q s t) : t.bist = s.bist := (congrArg State.bist h.rest :)
theorem Calm.aser (h : Calm Q s t) : t.aser = s.aser := (congrArg State.aser h.rest :)
theorem Calm.keep (h : Calm Q s t) : t.keep = s.keep := (congrArg State.keep h.rest :)
theorem Calm.nv (h : Calm Q s t) : t.nv = s.nv := (congrArg State.nv h.rest :)

/-- Whether the half is mirrored is left. -/
theorem Calm.mirroring (h : Calm Q s t) : t.mirroring = s.mirroring :=
  (congrArg (fun s : State => decide (s.pair.pstate = 3) || decide (s.pair.pstate = 4)) h.rest :)

/-- The requests for slots that wait are left. -/
theorem Calm.reqs (h : Calm Q s t) : t.led.reqs = s.led.reqs := (congrArg (fun s : State => s.led.reqs) h.rest :)

end

/-! ### Bits that are set -/

theorem bit_eq_testBit (v n : Nat) : bit v n = v.testBit n := Nat.testBit_eq_decide_div_mod_eq.symm

/-- Above a clear bit, a number with that bit added has the number's bits. -/
theorem add_two_pow_div {v n m : Nat} (hclear : v / 2 ^ n % 2 = 0) (h : n < m) : (v + 2 ^ n) / 2 ^ m = v / 2 ^ m := by
  obtain ⟨d, rfl⟩ := Nat.exists_eq_add_of_lt h
  have hsplit (x : Nat) : x / 2 ^ (n + d + 1) = x / 2 ^ n / 2 / 2 ^ d := by
    rw [Nat.div_div_eq_div_mul, Nat.div_div_eq_div_mul]
    congr 1
    rw [Nat.pow_succ, Nat.pow_add]
    ac_rfl
  rw [hsplit, hsplit, Nat.add_div_right _ (Nat.two_pow_pos n)]
  congr 1
  omega

/-- Setting a bit leaves every bit that is set. -/
theorem bit_setBit_of_bit {v m n : Nat} (h : bit v m = true) : bit (setBit v n) m = true := by
  unfold setBit
  split
  · exact h
  · next hn =>
    have hclear : v / 2 ^ n % 2 = 0 := by simpa [bit] using hn
    rcases Nat.lt_trichotomy m n with hlt | rfl | hgt
    · rw [bit_eq_testBit] at h ⊢
      rw [Nat.add_comm, Nat.testBit_two_pow_add_gt hlt, h]
    · exact absurd h hn
    · rw [bit, add_two_pow_div hclear hgt]
      exact h

/-- An event sets. -/
theorem State.setEvt_getBit (s : State) {e : Ev} (he : e.bit < 64) : (s.setEvt e).getBit (F.EVT_RAW e.page) e.bit = true :=
  State.getBit_setBitTo_self s true he

/-- An event that sets leaves every event that stands. -/
theorem State.setEvt_calm (s : State) (e : Ev) : Calm quiet s (s.setEvt e) := by
  refine ⟨rfl, fun g hg => State.get_set_ne s _ fun heq => ?_, fun p n hn he => ?_⟩
  · rw [heq, quiet, keyOff_evtRaw] at hg
    simp at hg
  · by_cases hp : p = e.page
    · rw [hp] at he ⊢
      rw [State.getBit, State.setEvt, State.setBitTo, State.get_set_self]
      exact (bit_mod_two_pow hn).trans (bit_setBit_of_bit he)
    · have hne : (F.EVT_RAW p).key ≠ (F.EVT_RAW e.page).key := by
        simp only [Field.key, F.EVT_RAW]
        omega
      rw [State.getBit, State.setEvt, State.setBitTo, State.get_set_ne s _ hne]
      exact he

/-! ### Snapshots -/

/-- A field of a page's header between 0x50 and 0x100 belongs to snapshots. -/
theorem quiet_header {f : Field} (hlow : 0x50 ≤ f.off) (hhigh : f.off < 0x100) (hlo : f.lo < 64) :
    quiet f.key = false ∧ keyOff f.key ≠ 0x20 := by
  have hoff : keyOff f.key = f.off := by
    simp only [keyOff, Field.key]
    omega
  refine ⟨?_, by omega⟩
  simp [quiet, hoff, hlow, hhigh]

theorem Calm.setHeader (s : State) {f : Field} (v : Nat) (hlow : 0x50 ≤ f.off) (hhigh : f.off < 0x100) (hlo : f.lo < 64) :
    Calm quiet s (s.set f v) :=
  Calm.set v (quiet_header hlow hhigh hlo).1 (quiet_header hlow hhigh hlo).2

theorem latchPage_calm (s0 : State) (epoch source : Nat) (s : State) (p : Nat) : Calm quiet s (latchPage s0 epoch source s p) := by
  have hwords : Calm quiet s (latchWords s0 s p) := by
    refine Calm.foldl _ (fun s k hk => ?_) s
    have hk20 : k < 20 := Nat.lt_of_lt_of_le (List.mem_range.mp hk) (snapWords_length_le p)
    refine Calm.setHeader s _ ?_ ?_ (Nat.zero_lt_succ _)
    · simp only [F.SNAP_WORD]
      omega
    · simp only [F.SNAP_WORD]
      omega
  refine ((((hwords.trans (Calm.setHeader _ _ ?_ ?_ ?_)).trans (Calm.setHeader _ _ ?_ ?_ ?_)).trans (Calm.setHeader _ _ ?_ ?_ ?_)).trans
    (Calm.setHeader _ _ ?_ ?_ ?_))
  all_goals simp [F.SNAP_COMMIT_EPOCH, F.SNAP_SOURCE, F.SNAP_EPOCH, F.SNAP_TIME]

theorem State.takeSnapshot_calm (s : State) (source : Nat) : Calm quiet s (s.takeSnapshot source) := by
  have hpages := Calm.foldl ((List.range 96).filter (fun p => s.onIslands.contains (pageIsland p)))
    (fun t p _ => latchPage_calm s (nextEpoch (s.get F.SNAP_LAST_EPOCH_EPOCH)) (2 ^ source) t p) s
  unfold State.takeSnapshot
  extract_lets e on d s1 s2 s3
  have h2 : Calm quiet s1 s2 := ((Calm.set _ (by decide) (by decide)).trans (Calm.set _ (by decide) (by decide))).trans
    (Calm.set _ (by decide) (by decide))
  have h3 : Calm quiet s2 s3 := (Calm.set _ (by decide) (by decide)).trans (Calm.set _ (by decide) (by decide))
  exact ((hpages.trans h2).trans h3).trans (Calm.of_regs rfl rfl)

theorem State.joinSnapshot_calm (s : State) (source : Nat) : Calm quiet s (s.joinSnapshot source) := by
  have hcount : Calm quiet s (s.inc F.SNAP_COUNTS_MERGED) := Calm.set _ (by decide) (by decide)
  refine hcount.trans (Calm.foldl _ (fun s p _ => Calm.setHeader s _ ?_ ?_ ?_) _)
  all_goals simp [F.SNAP_SOURCE]

theorem State.trigger_calm (s : State) (source : Nat) : Calm quiet s (s.trigger source) :=
  Calm.ite (Calm.set _ (by decide) (by decide)) (Calm.ite (s.joinSnapshot_calm source) (s.takeSnapshot_calm source))

/-! ### Messages to the peer -/

theorem PairMsg.vc_lt {m : PairMsg} {v : Nat} (h : m.vc = some v) : v < 3 := by
  have hall : ∀ v ∈ m.vc, v < 3 := by cases m <;> simp [PairMsg.vc]
  exact hall v h

theorem State.pairPump_calm (n : Nat) {v : Nat} (hv : v < 3) (s : State) : Calm quiet s (State.pairPump n v s) := by
  induction n generalizing s with
  | zero => exact Calm.refl s
  | succ n ih =>
    unfold State.pairPump
    split
    · exact Calm.refl s
    · refine Calm.ite (Calm.refl s) (Calm.trans ?_ (ih _))
      refine (Calm.set (f := F.PAIR_CREDIT_AVAIL v) _ ?_ ?_).trans (Calm.of_regs rfl rfl)
      all_goals obtain rfl | rfl | rfl := cases_lt_three hv <;> decide

theorem State.pairSend_calm (s : State) (m : PairMsg) : Calm quiet s (s.pairSend m) := by
  unfold State.pairSend
  split
  · exact Calm.of_regs rfl rfl
  · next v hv =>
    refine Calm.ite (Calm.refl s) ?_
    refine (Calm.withPair s _ ?_ ?_).trans (State.pairPump_calm _ (PairMsg.vc_lt hv) _)
    · rfl
    · rfl

theorem State.snapshot_calm (s : State) (source : Nat) : Calm quiet s (s.snapshot source) :=
  Calm.ite ((s.trigger_calm source).trans (State.pairSend_calm _ _)) (s.trigger_calm source)

/-! ### Completions -/

theorem State.postEntry_calm (s : State) (e : Cqe) : Calm quiet s (s.postEntry e) := by
  unfold State.postEntry
  split
  · exact Calm.ite (Calm.withHost s _) (Calm.refl s)
  · exact Calm.ite (Calm.withHost s _) (Calm.refl s)
  · exact s.pairSend_calm _

theorem State.setFi6_calm (s : State) (v : Nat) : Calm quiet s (s.set (F.FI_CFG_STATE 6) v) := Calm.set v (by decide) (by decide)

/-- What injector 6 counts. -/
theorem State.fiUnit6_calm (s : State) : Calm quiet s (s.fiUnit 6).2 := by
  unfold State.fiUnit
  split
  · extract_lets c start n s1 s2 s3
    have h1 : Calm quiet s s1 := Calm.set _ (by decide) (by decide)
    have h2 : Calm quiet s s2 :=
      ((h1.trans (Calm.set _ (by decide) (by decide))).trans (Calm.set _ (by decide) (by decide))).trans (State.setEvt_calm _ _)
    have h3 : Calm quiet s s3 := Calm.ite (h2.trans (Calm.set _ (by decide) (by decide))) h2
    split
    · exact h3
    · exact h1
  · exact Calm.refl s

theorem State.fiCorrupt_calm (s : State) (i : Nat) (acts : Bool) (ws : List Nat) : Calm quiet s (s.fiCorrupt i acts ws).2 :=
  Calm.of_regs rfl rfl

theorem State.post_calm (s : State) (e : Cqe) : Calm quiet s (s.post e) := by
  unfold State.post
  split
  · extract_lets t
    refine Calm.ite ?_ (s.postEntry_calm e)
    split
    next d s1 hunit =>
      have hs1 : Calm quiet s s1 := by
        have h := s.fiUnit6_calm
        rwa [hunit] at h
      split
      next e' s2 hpass =>
        have hs2 : Calm quiet s s2 := by
          split at hpass
          · cases hpass
            exact hs1.trans (s1.fiCorrupt_calm 6 _ e.words)
          · cases hpass
            exact hs1
        have hposted := hs2.trans (s2.postEntry_calm e')
        split
        · exact hs2
        · exact (hs2.trans (Calm.withFi s2 _)).trans (State.setFi6_calm _ _)
        · dsimp only
          split
          · refine Calm.ite ?_ (hposted.trans (Calm.withFi _ _))
            exact ((hposted.trans (Calm.withFi _ _)).trans (State.postEntry_calm _ _)).trans
              (State.setFi6_calm _ _)
          · exact hposted
  · exact s.postEntry_calm e

theorem State.untrack_calm (s : State) (id : Cid) : Calm quiet s (s.untrack id) := Calm.of_regs rfl rfl

theorem State.shutCheck_calm (s : State) : Calm quiet s s.shutCheck := Calm.ite (Calm.of_regs rfl rfl) (Calm.refl s)

/-- What the completion of a command leaves. -/
theorem State.complete_calm (s : State) (id : Cid) (sct sc : Nat) (dnr : Bool) (dw0 dw1 : Nat) (data : List Nat) :
    Calm quiet s (s.complete id sct sc dnr dw0 dw1 data) :=
  ((((s.untrack_calm id).trans (State.post_calm _ _)).trans
    (Calm.foldl _ (fun t f _ => (t.untrack_calm f).trans (State.post_calm _ _)) _)).trans (State.shutCheck_calm _))

theorem State.ok_calm (s : State) (id : Cid) (dw0 dw1 : Nat) (data : List Nat) : Calm quiet s (s.ok id dw0 dw1 data) :=
  s.complete_calm _ _ _ _ _ _ _

/-! ### Events -/

theorem State.aen_calm (s : State) (a : Aen) : Calm quiet s (s.aen a) := by
  refine Calm.ite (Calm.refl s) ?_
  split
  · exact Calm.of_regs rfl rfl
  · exact (Calm.withHost s _).trans (State.ok_calm _ _ _ _ _)

theorem State.vendorEvent_calm (s : State) (info log : Nat) : Calm quiet s (s.vendorEvent info log) := s.aen_calm _

theorem State.rearmEvent_calm (s : State) (info log : Nat) : Calm quiet s (s.rearmEvent info log) := Calm.of_regs rfl rfl

theorem State.reroute_calm (s : State) : Calm quiet s s.reroute :=
  Calm.ite ((Calm.withHost s _).trans (State.vendorEvent_calm _ _ _))
    (Calm.ite ((Calm.withHost s _).trans (State.rearmEvent_calm _ _ _)) (Calm.refl s))

/-- What follows once an event bit has set. -/
theorem State.raise_after (s : State) (e : Ev) : Calm quiet (s.setEvt e) (s.raise e) :=
  (Calm.ite (State.snapshot_calm _ _) (Calm.refl _)).trans (State.reroute_calm _)

/-- What the raising of an event leaves. -/
theorem State.raise_calm (s : State) (e : Ev) : Calm quiet s (s.raise e) := (s.setEvt_calm e).trans (s.raise_after e)

/-- A raised event stands. -/
theorem State.raise_getBit (s : State) {e : Ev} (he : e.bit < 64) : (s.raise e).getBit (F.EVT_RAW e.page) e.bit = true :=
  (s.raise_after e).evt _ _ he (s.setEvt_getBit he)

theorem State.raiseIf_calm (s : State) (c : Bool) (e : Ev) : Calm quiet s (s.raiseIf c e) := Calm.ite (s.raise_calm e) (Calm.refl s)

/-! ### Held halves that are dropped -/

theorem State.setHeldR_calm (s : State) (who : Req) (h : Option Half) : Calm quiet s (s.setHeldR who h) := by
  cases who <;> exact Calm.of_regs rfl rfl

theorem State.setHeldW_calm (s : State) (who : Req) (h : Option Half) : Calm quiet s (s.setHeldW who h) := by
  cases who <;> exact Calm.of_regs rfl rfl

theorem State.logAccess_calm (s : State) (kind : Nat) (write : Bool) (who : Req) (addr : Nat) :
    Calm quiet s (s.logAccess kind write who addr) :=
  (((Calm.set _ (by decide) (by decide)).trans (Calm.set _ (by decide) (by decide))).trans (Calm.set _ (by decide) (by decide))).trans
    (Calm.set _ (by decide) (by decide))

/-- What a write that discards its requester's held halves leaves. -/
theorem State.dropHeld_calm (s : State) (who : Req) : Calm quiet s (s.dropHeld who) := by
  unfold State.dropHeld
  extract_lets s1
  have hs1 : Calm quiet s s1 := s.setHeldR_calm who none
  split
  · exact hs1
  · exact ((hs1.trans (State.setHeldW_calm _ _ _)).trans (State.raise_calm _ _)).trans (State.logAccess_calm _ _ _ _ _)

end Sys2Proof.Machine
end

section
/-!
Carry, tamper events and the debug level (R532 to R536, R539 to R542).
-/

namespace Sys2Proof.Machine

/-- Giving fields of a list values, one after another, changes the register file alone. -/
theorem State.foldl_set_regs {α : Type} (f : α → Field) (v : α → Nat) (l : List α) (s : State) :
    ∃ r, l.foldl (fun s i => s.set (f i) (v i)) s = { s with regs := r } := by
  induction l generalizing s with
  | nil => exact ⟨s.regs, rfl⟩
  | cons x l ih => exact ih (s.set (f x) (v x))

/-- A field reads the register file alone. -/
theorem State.get_of_regs {s t : State} (h : s.regs = t.regs) (f : Field) : s.get f = t.get f := by
  rw [State.get, State.get, h]

/-! ### Tamper events -/

/-- TAMPER_N falls where it counts for nothing: the pin is noted. -/
theorem exec_tamperN_ignored {s : State} (h : s.pins.tamperN = false ∨ s.nv.tamperEn = false) :
    exec (.tamperN true) s = .next { s with pins := { s.pins with tamperN := false } } := by
  change execTamperN true s = _
  unfold execTamperN done
  dsimp only
  rw [if_pos]
  · rfl
  · rcases h with h | h <;> simp [h]

/-- R535: in Keep and in Seal KEEP holds the action and the events. -/
theorem exec_tamperN_later {s : State} (hpin : s.pins.tamperN = true) (hen : s.nv.tamperEn = true) (hmode : s.mode = Md.KEEP ∨ s.mode = Md.SEAL) :
    exec (.tamperN true) s = .next
      (let s1 := State.disarm { s with pins := { s.pins with tamperN := false } }
       { s1 with keep := { s1.keep with
          tamperSec := s.keep.ticks, tampers := min (s.keep.tampers + 1) 65535, tamperAct := some s.nv.tamperDo } }) := by
  have hlater : (decide (s.mode = Md.KEEP) || decide (s.mode = Md.SEAL) || !s.ready Fn.SEC) = true := by
    rcases hmode with h | h <;> simp [h]
  change execTamperN true s = _
  simp only [execTamperN, done, hpin, hen, hlater]
  rfl

/-- R535: outside them, once SEC is set, the event is counted and shown, and action 0 does nothing more. -/
theorem exec_tamperN_shown {s : State} (hpin : s.pins.tamperN = true) (hen : s.nv.tamperEn = true) (hkeep : s.mode ≠ Md.KEEP)
    (hseal : s.mode ≠ Md.SEAL) (hsec : s.ready Fn.SEC = true) (haction : s.nv.tamperDo = 0) :
    exec (.tamperN true) s = .next (State.showTamper
      (let s1 := State.disarm { s with pins := { s.pins with tamperN := false } }
       { s1 with keep := { s1.keep with tamperSec := s.keep.ticks }, nv := { s1.nv with tampers := min (s.nv.tampers + 1) 65535 } })) := by
  have hgoal (st : Nat) : tamperGoal 0 st = none := by
    unfold tamperGoal
    split <;> simp_all
  have hnone (s : State) : s.tamperAct 0 = s := by simp [State.tamperAct, hgoal]
  change execTamperN true s = _
  simp only [execTamperN, done, hpin, hen, hkeep, hseal, hsec, State.disarm, haction, hnone]
  rfl

/-- What a tamper event shows. -/
theorem State.showTamper_effect (s : State) :
    s.showTamper.keep = s.keep ∧ s.showTamper.nv = s.nv ∧ s.showTamper.get F.SEC_TAMPER_LOG_COUNT = s.nv.tampers % 2 ^ 16 ∧
      s.showTamper.get F.SEC_STATUS_TAMPER_LATCHED = 1 ∧ s.showTamper.secState = s.secState := by
  have hraise := State.raise_calm (((s.set F.SEC_TAMPER_LOG_COUNT s.nv.tampers).set F.SEC_TAMPER_LOG_KEEP_SEC s.keep.tamperSec).set
    F.SEC_STATUS_TAMPER_LATCHED 1) E.SEC_TAMPER
  refine ⟨hraise.keep, hraise.nv, (hraise.get _ (by decide)).trans ?_, (hraise.get _ (by decide)).trans ?_, (hraise.get _ (by decide)).trans ?_⟩
  · rw [State.get_set_ne _ _ (by decide), State.get_set_ne _ _ (by decide), State.get_set_self]
    rfl
  · exact State.get_set_self _ _ _
  · rw [State.get_set_ne _ _ (by decide), State.get_set_ne _ _ (by decide), State.get_set_ne _ _ (by decide)]
    rfl

/-! ### The debug level -/

/-- What a change of the debug level leaves of `quiet`. -/
def levelQuiet (k : Nat) : Bool :=
  quiet k && !([F.DBG_STATUS_LEVEL.key, F.DBG_STATUS_AUTHORITY.key, F.DBG_SESSION_SECONDS_LEFT.key].contains k)

theorem levelQuiet_quiet (k : Nat) (h : levelQuiet k = true) : quiet k = true := (Bool.and_eq_true_iff.mp h).1

/-- R542: a change of level that does not end D2 touches the level's own fields and what its event touches, and the level reads as
it was given. -/
theorem State.setLevel_effect {s : State} {lv : Nat} (auth : Nat) (hlv : lv < 4) (h : s.dbgLevel ≠ 2 ∨ lv = 2) :
    Calm levelQuiet s (s.setLevel lv auth) ∧ (s.setLevel lv auth).dbgLevel = lv := by
  have hkept : (decide (s.dbgLevel = 2) && decide (lv ≠ 2)) = false := by
    rcases h with h | h <;> simp [h]
  unfold State.setLevel
  split
  · next heq => exact ⟨Calm.refl s, heq⟩
  · extract_lets old s1 s2 s3
    have h1 : Calm levelQuiet s s1 := (Calm.set _ (by decide) (by decide)).trans (Calm.set _ (by decide) (by decide))
    have hl1 : s1.dbgLevel = lv := by
      have hread : s1.dbgLevel = lv % 2 ^ F.DBG_STATUS_LEVEL.width :=
        (State.get_set_ne _ _ (by decide)).trans (State.get_set_self _ _ _)
      exact hread.trans (Nat.mod_eq_of_lt hlv)
    have h2 : Calm levelQuiet s1 s2 ∧ s2.dbgLevel = lv := by
      by_cases hzero : lv = 0
      · have hs2 : s2 = s1.set F.DBG_SESSION_SECONDS_LEFT 0 := if_pos hzero
        rw [hs2]
        exact ⟨Calm.set _ (by decide) (by decide), (State.get_set_ne _ _ (by decide)).trans hl1⟩
      · have hs2 : s2 = s1 := if_neg hzero
        rw [hs2]
        exact ⟨Calm.refl s1, hl1⟩
    have hraise := s2.raise_calm E.DBG_LEVEL_CHANGE
    rw [if_neg (by simpa [old] using hkept)]
    exact ⟨(h1.trans h2.1).trans (hraise.mono levelQuiet_quiet), (hraise.get F.DBG_STATUS_LEVEL (by decide)).trans h2.2⟩

/-- R541: a highest level is at most D2. -/
theorem levelCap_le (auth st : Nat) : levelCap auth st ≤ 2 := by
  unfold levelCap
  split <;> decide

/-- R540: a good response asks for a level that its authority can grant. -/
theorem State.level_of_dbgGood {s : State} (h : s.dbgGood = true) : s.get F.DBG_RESP_HDR_LEVEL ≤ 2 := by
  simp only [State.dbgGood, Bool.and_eq_true, decide_eq_true_eq] at h
  obtain ⟨⟨⟨⟨-, hcap⟩, -⟩, -⟩, -⟩ := h
  exact Nat.le_trans hcap (levelCap_le _ _)

/-- R541: a submission ends its challenge; a good response gives its level, another is noted with its time. -/
theorem State.submit_effect {s : State} (who : Req) (htakes : (s.dropHeld who).takes who Pg.DBG 0x1A0)
    (h : (s.dropHeld who).dbgLevel ≠ 2 ∨ (s.dropHeld who).get F.DBG_RESP_HDR_LEVEL = 2 ∨ (s.dropHeld who).dbgGood = false) :
    let s0 := s.dropHeld who
    Answers (.dbgSubmit who) s (fun t => t.get F.DBG_STATUS_CHAL_VALID = 0 ∧ t.nv = s.nv ∧
      (s0.dbgGood = true → t.dbgLevel = s0.get F.DBG_RESP_HDR_LEVEL) ∧
      (s0.dbgGood = false → t.dbgLevel = s0.dbgLevel ∧ t.sec.failTb = some s0.tb)) := by
  intro s0
  have hnv : s0.nv = s.nv := (s.dropHeld_calm who).nv
  refine ⟨_, rfl, ?_⟩
  rw [State.rwAction_takes _ htakes]
  change State.get (if s0.dbgGood then _ else _) _ = 0 ∧ State.nv (if s0.dbgGood then _ else _) = _ ∧
    (_ → State.dbgLevel (if s0.dbgGood then _ else _) = _) ∧
    (_ → State.dbgLevel (if s0.dbgGood then _ else _) = _ ∧ (State.sec (if s0.dbgGood then _ else _)).failTb = _)
  cases hgood : s0.dbgGood with
  | true =>
    have hlv : s0.get F.DBG_RESP_HDR_LEVEL < 4 := Nat.lt_of_le_of_lt (State.level_of_dbgGood hgood) (by decide)
    have hkeeps : (s0.set F.DBG_STATUS_CHAL_VALID 0).dbgLevel ≠ 2 ∨ s0.get F.DBG_RESP_HDR_LEVEL = 2 := by
      rw [State.dbgLevel, State.get_set_ne _ _ (by decide)]
      rcases h with h | h | h
      · exact .inl h
      · exact .inr h
      · exact absurd (hgood.symm.trans h) (by decide)
    obtain ⟨hcalm, hlevel⟩ := State.setLevel_effect (s0.get F.DBG_RESP_HDR_AUTHORITY) hlv hkeeps
    refine ⟨?_, hcalm.nv.trans hnv, fun _ => ?_, nofun⟩
    · refine (State.get_set_ne _ _ (by decide)).trans ((hcalm.get F.DBG_STATUS_CHAL_VALID (by decide)).trans ?_)
      exact State.get_set_self _ _ _
    · exact (State.get_set_ne _ _ (by decide)).trans hlevel
  | false =>
    let s1 : State := { s0.set F.DBG_STATUS_CHAL_VALID 0 with sec := { s0.sec with failTb := some s0.tb } }
    have hs1 (f : Field) (hne : f.key ≠ F.DBG_FAILS_COUNT.key) : (s1.inc F.DBG_FAILS_COUNT).get f = (s0.set F.DBG_STATUS_CHAL_VALID 0).get f :=
      (State.get_set_ne s1 _ hne).trans (State.get_of_regs rfl f)
    have hraise : Calm quiet (s1.inc F.DBG_FAILS_COUNT) ((s1.inc F.DBG_FAILS_COUNT).raise E.DBG_AUTH_FAIL) := State.raise_calm _ _
    refine ⟨(hraise.get F.DBG_STATUS_CHAL_VALID (by decide)).trans ?_, hraise.nv.trans hnv, nofun, fun _ => ⟨?_, ?_⟩⟩
    · exact (hs1 _ (by decide)).trans (State.get_set_self _ _ _)
    · refine (hraise.get F.DBG_STATUS_LEVEL (by decide)).trans ((hs1 _ (by decide)).trans ?_)
      exact State.get_set_ne (f := F.DBG_STATUS_CHAL_VALID) (g := F.DBG_STATUS_LEVEL) s0 0 (by decide)
    · exact congrArg SecSt.failTb hraise.sec

/-- R539: a new challenge is shown word by word. -/
theorem State.newChallenge_effect (s : State) (r : Nat) :
    let t := (((List.range 6).foldl (fun s i => s.set (F.DBG_CHAL i) (bits r (64 * i) 64)) s).set F.DBG_STATUS_CHAL_VALID 1).draw
    t.get F.DBG_STATUS_CHAL_VALID = 1 ∧ (∀ i < 6, t.get (F.DBG_CHAL i) = bits r (64 * i) 64) ∧ t.slots = s.slots ∧ t.nv = s.nv := by
  obtain ⟨regs, hfold⟩ := State.foldl_set_regs (F.DBG_CHAL) (fun i => bits r (64 * i) 64) (List.range 6) s
  have hdraw (u : State) (f : Field) : u.draw.get f = u.get f := State.get_of_regs rfl f
  refine ⟨(hdraw _ _).trans (State.get_set_self _ _ _), fun i hi => ?_, ?_, ?_⟩
  · have hne : (F.DBG_CHAL i).key ≠ F.DBG_STATUS_CHAL_VALID.key := by
      simp only [Field.key, F.DBG_CHAL, F.DBG_STATUS_CHAL_VALID]
      omega
    refine (hdraw _ _).trans ((State.get_set_ne _ _ hne).trans ?_)
    refine foldl_value_of_mem_or (value := fun t : State => t.get (F.DBG_CHAL i)) (x := i) (fun t => ?_) (fun t j hj => ?_)
      (.inl (List.mem_range.mpr hi))
    · exact (State.get_set_self _ _ _).trans (Nat.mod_eq_of_lt (bits_lt _ _ _))
    · refine State.get_set_ne _ _ ?_
      simp only [Field.key, F.DBG_CHAL]
      omega
  · simp only [State.draw, hfold, State.set_slots]
  · simp only [State.draw, hfold, State.set_nv]

/-- R540: within a second of a bad response no challenge is given. -/
theorem exec_newChal_early {s : State} {who : Req} {tb : Nat} (htakes : (s.dropHeld who).takes who Pg.DBG 0x100)
    (hfail : (s.dropHeld who).sec.failTb = some tb) (htb : (s.dropHeld who).tb < tb + 250000000) :
    exec (.newChal who) s = .next (s.dropHeld who) := by
  change execNewChal who s = _
  rw [execNewChal, done, State.rwAction_takes _ htakes, hfail, Option.any_some, if_pos (decide_eq_true htb)]

/-- R539: else a challenge is drawn. -/
theorem exec_newChal {s : State} {who : Req} (htakes : (s.dropHeld who).takes who Pg.DBG 0x100)
    (hfail : (s.dropHeld who).sec.failTb = none) :
    exec (.newChal who) s = .next
      (((List.range 6).foldl (fun t i => t.set (F.DBG_CHAL i) (bits (Config.random (s.dropHeld who).fresh) (64 * i) 64))
        (s.dropHeld who)).set F.DBG_STATUS_CHAL_VALID 1).draw := by
  change execNewChal who s = _
  rw [execNewChal, done, State.rwAction_takes _ htakes, hfail, Option.any_none, if_neg Bool.false_ne_true]

/-- Settles O31: a tamper event by `exec_tamperN_…`, the debug level by `setLevel_effect`. -/
theorem tamperAndDebug : Obligations.TamperAndDebug := by
  unfold Obligations.TamperAndDebug
  intro s who
  refine ⟨fun hleft => ⟨_, rfl, ?_⟩, fun h => ⟨_, exec_tamperN_ignored h, rfl⟩,
    fun hpin hen hmode => ⟨_, exec_tamperN_later hpin hen hmode, rfl, rfl, rfl, rfl, rfl⟩,
    fun hpin hen hkeep hseal hsec haction => ?_,
    fun htakes => ⟨fun hfail => ?_, fun tb hfail htb => ⟨_, exec_newChal_early htakes hfail htb, rfl⟩, ⟨_, rfl, ?_⟩⟩,
    fun htakes h => State.submit_effect who htakes h, fun h0 => ⟨_, rfl, if_pos h0⟩, fun h2 => ⟨_, rfl, ?_⟩, fun h1 => ⟨_, rfl, ?_⟩,
    ⟨_, rfl, State.set_only _ _ _, State.get_set_self _ _ _⟩⟩
  · rw [if_pos hleft]
    exact ⟨rfl, rfl⟩
  · obtain ⟨hk, hn, hcount, hlatched, hstate⟩ := State.showTamper_effect
      (let s1 := State.disarm { s with pins := { s.pins with tamperN := false } }
       { s1 with keep := { s1.keep with tamperSec := s.keep.ticks }, nv := { s1.nv with tampers := min (s.nv.tampers + 1) 65535 } })
    refine ⟨_, exec_tamperN_shown hpin hen hkeep hseal hsec haction, ?_, ?_, ?_, hlatched, hstate.trans ?_⟩
    · rw [hk]
      rfl
    · rw [hn]
    · rw [hn]
      exact hcount
    · exact State.get_set_ne (f := F.SEC_STATUS_CARRY_ARMED) (g := F.SEC_STATUS_STATE) s 0 (by decide)
  · refine ⟨_, exec_newChal htakes hfail, ?_⟩
    obtain ⟨hvalid, hwords, hslots, hnv⟩ := (s.dropHeld who).newChallenge_effect (Config.random (s.dropHeld who).fresh)
    exact ⟨hvalid, hwords, hslots.trans (s.dropHeld_calm who).slots, hnv.trans (s.dropHeld_calm who).nv⟩
  · rw [State.rwAction_takes _ htakes]
    refine ⟨rfl, fun hlevel => ?_⟩
    obtain ⟨hcalm, hzero⟩ := State.setLevel_effect (lv := 0) 0 (by decide) (.inl hlevel)
    exact ⟨hzero, hcalm.nv.trans (s.dropHeld_calm who).nv,
      (hcalm.get F.SEC_STATUS_STATE (by decide)).trans ((s.dropHeld_calm who).get F.SEC_STATUS_STATE (by decide))⟩
  · rw [if_neg (by simp [h2])]
  · rw [if_neg (by simp [h1])]
    obtain ⟨-, hzero⟩ := State.setLevel_effect (s := s) (lv := 0) 0 (by decide) (.inl (by simp [h1]))
    exact ⟨((State.raise_calm _ _).get F.DBG_STATUS_LEVEL (by decide)).trans hzero, State.raise_getBit _ (by decide)⟩

end Sys2Proof.Machine
end

section
/-!
Parts of a field that holds several values side by side.
-/

namespace Sys2Proof.Machine

/-- A number cut at or above a part keeps the part. -/
theorem bits_mod_two_pow {v lo w m : Nat} (h : lo + w ≤ m) : bits (v % 2 ^ m) lo w = bits v lo w := by
  refine Nat.eq_of_testBit_eq fun i => ?_
  by_cases hi : i < w
  · simp [bits, Nat.testBit_mod_two_pow, Nat.testBit_div_two_pow, hi, show i + lo < m by omega]
  · simp [bits, Nat.testBit_mod_two_pow, hi]

/-- A number with a part replaced: what stands above it, the new part, and what stands below it. -/
theorem putBits_eq (v lo w x : Nat) : putBits v lo w x = 2 ^ lo * (2 ^ w * (v / 2 ^ lo / 2 ^ w) + x % 2 ^ w) + v % 2 ^ lo := by
  have hlow := Nat.div_add_mod v (2 ^ lo)
  have hpart := Nat.div_add_mod (v / 2 ^ lo) (2 ^ w)
  have hv : v = 2 ^ lo * (2 ^ w * (v / 2 ^ lo / 2 ^ w)) + 2 ^ lo * bits v lo w + v % 2 ^ lo := by
    rw [← Nat.mul_add, bits, hpart, hlow]
  rw [putBits, Nat.mul_add, Nat.mul_comm (bits v lo w), Nat.mul_comm (x % 2 ^ w)]
  omega

/-- A part reads what it was given. -/
theorem bits_putBits (v lo w x : Nat) : bits (putBits v lo w x) lo w = x % 2 ^ w := by
  rw [putBits_eq, bits, Nat.mul_add_div (Nat.two_pow_pos lo), Nat.div_eq_of_lt (Nat.mod_lt v (Nat.two_pow_pos lo)), Nat.add_zero,
    Nat.mul_add_mod, Nat.mod_mod]

/-- A part below the one replaced is left. -/
theorem bits_putBits_below {v lo w x lo' w' : Nat} (h : lo' + w' ≤ lo) : bits (putBits v lo w x) lo' w' = bits v lo' w' := by
  rw [← bits_mod_two_pow h, putBits_eq, Nat.mul_add_mod, Nat.mod_mod, bits_mod_two_pow h]

/-- A part above the one replaced is left. -/
theorem bits_putBits_above {v lo w x lo' w' : Nat} (h : lo + w ≤ lo') : bits (putBits v lo w x) lo' w' = bits v lo' w' := by
  have hsame : putBits v lo w x / 2 ^ lo / 2 ^ w = v / 2 ^ lo / 2 ^ w := by
    rw [putBits_eq, Nat.mul_add_div (Nat.two_pow_pos lo), Nat.div_eq_of_lt (Nat.mod_lt v (Nat.two_pow_pos lo)), Nat.add_zero,
      Nat.mul_add_div (Nat.two_pow_pos w), Nat.div_eq_of_lt (Nat.mod_lt x (Nat.two_pow_pos w)), Nat.add_zero]
  obtain ⟨d, rfl⟩ := Nat.exists_eq_add_of_le h
  have hsplit (u : Nat) : u / 2 ^ (lo + w + d) = u / 2 ^ lo / 2 ^ w / 2 ^ d := by
    rw [Nat.div_div_eq_div_mul, Nat.div_div_eq_div_mul, Nat.pow_add, Nat.pow_add, Nat.mul_assoc]
  rw [bits, bits, hsplit, hsplit, hsame]

/-- A part of a field reads what it was given. -/
theorem State.getPart_setPart_self (s : State) {f : Field} {n w : Nat} (v : Nat) (h : n * w + w ≤ f.width) :
    (s.setPart f n w v).getPart f n w = v % 2 ^ w := by
  rw [State.getPart, State.setPart, State.get_set_self, bits_mod_two_pow h, bits_putBits]

/-- Giving a part a value leaves the field's other parts of that width. -/
theorem State.getPart_setPart_ne (s : State) {f : Field} {n m w : Nat} (v : Nat) (hm : m * w + w ≤ f.width) (hne : m ≠ n) :
    (s.setPart f n w v).getPart f m w = s.getPart f m w := by
  rw [State.getPart, State.setPart, State.get_set_self, bits_mod_two_pow hm]
  rcases Nat.lt_or_gt_of_ne hne with hlt | hgt
  · refine bits_putBits_below ?_
    calc m * w + w = (m + 1) * w := (Nat.succ_mul m w).symm
      _ ≤ n * w := Nat.mul_le_mul_right w hlt
  · refine bits_putBits_above ?_
    calc n * w + w = (n + 1) * w := (Nat.succ_mul n w).symm
      _ ≤ m * w := Nat.mul_le_mul_right w hgt

/-- A count that stops at its greatest value reads one more, or that value. -/
theorem State.get_addSat_self (s : State) (f : Field) (n : Nat) : (s.addSat f n).get f = min (s.get f + n) (2 ^ f.width - 1) := by
  rw [State.addSat, State.get_set_self]
  exact Nat.mod_eq_of_lt (Nat.lt_of_le_of_lt (Nat.min_le_right _ _) (Nat.sub_lt (Nat.two_pow_pos _) Nat.one_pos))

/-- As `get_addSat_self`, of one. -/
theorem State.get_inc_self (s : State) (f : Field) : (s.inc f).get f = min (s.get f + 1) (2 ^ f.width - 1) := s.get_addSat_self f 1

/-- A count leaves every other field. -/
theorem State.get_inc_ne (s : State) {f g : Field} (h : g.key ≠ f.key) : (s.inc f).get g = s.get g := State.get_set_ne s _ h

/-- A count leaves everything but itself. -/
theorem State.inc_only (s : State) (f : Field) : OnlyFields [f] s (s.inc f) := State.set_only s f _

/-! ### What reads a field alone -/

section
variable {s t : State}

theorem State.getBit_congr {f : Field} (h : t.get f = s.get f) : t.getBit f = s.getBit f := by
  funext n
  rw [State.getBit, State.getBit, h]

theorem State.ready_congr (h : t.get F.SYS_FUNC_READY_READY = s.get F.SYS_FUNC_READY_READY) (n : Nat) : t.ready n = s.ready n := by
  rw [State.ready, State.ready, State.getBit_congr h]

theorem State.isl_congr (h : t.get F.PWR_ISL_STATE_STATE = s.get F.PWR_ISL_STATE_STATE) (i : Nat) : t.isl i = s.isl i := by
  rw [State.isl, State.isl, State.getPart, State.getPart, h]

end

end Sys2Proof.Machine
end

section
/-!
DRAM: the regions that a request touches, the write queue and reads (R328, R331 to R340, R344, R346, R392).
-/

namespace Sys2Proof.Machine

/-! ### Byte memories -/

/-- Writing bytes places each at its address. -/
theorem Memory.read_writeBytes_in {m : Memory} {bs : List Nat} (a : Nat) {i : Nat} (hm : Memory.wf m = true) (hi : i < bs.length) :
    (Memory.writeBytes m a bs).read (a + i) = bs.getD i 0 % 256 := by
  induction bs generalizing m a i with
  | nil => exact absurd hi (Nat.not_lt_zero i)
  | cons b bs ih =>
    rw [Memory.writeBytes]
    cases i with
    | zero => rw [Memory.read_writeBytes_out _ _ (.inl (by omega)), Nat.add_zero, Memory.read_write_self a b hm, List.getD_cons_zero]
    | succ i =>
      rw [show a + (i + 1) = a + 1 + i by omega, ih (a + 1) (Memory.write_wf a b hm) (Nat.lt_of_succ_lt_succ hi), List.getD_cons_succ]

/-- Bytes just written read back, each cut to a byte. -/
theorem Memory.bytes_writeBytes {m : Memory} (a : Nat) (bs : List Nat) (hm : Memory.wf m = true) :
    (Memory.writeBytes m a bs).bytes a bs.length = bs.map (· % 256) := by
  refine List.ext_getElem (by simp [Memory.bytes]) fun i hi _ => ?_
  have hlen : i < bs.length := by simpa [Memory.bytes] using hi
  simp only [Memory.bytes, List.getElem_map, List.getElem_range, Memory.read_writeBytes_in a hm hlen, List.getD_eq_getElem?_getD,
    List.getElem?_eq_getElem hlen, Option.getD_some]

/-! ### Regions (R339) -/

/-- What the initialisation of regions leaves of `quiet`. -/
def dramQuiet (k : Nat) : Bool := quiet k && k ≠ F.DRAMC_STATUS_INIT_DONE.key

theorem dramQuiet_quiet (k : Nat) (h : dramQuiet k = true) : quiet k = true := (Bool.and_eq_true_iff.mp h).1

/-- The state with the sweep and the initialised regions given. -/
def State.withRegions (s : State) (sweep : Nat) (inited : List Nat) : State :=
  { s with dram := { s.dram with sweep := sweep, inited := inited } }

/-- The sweep only goes on. -/
theorem State.sweepOn_regions (n : Nat) (s : State) :
    ∃ sweep inited, State.sweepOn n s = s.withRegions sweep inited ∧ s.dram.sweep ≤ sweep := by
  induction n generalizing s with
  | zero => exact ⟨s.dram.sweep, s.dram.inited, rfl, Nat.le_refl _⟩
  | succ n ih =>
    unfold State.sweepOn
    split
    · obtain ⟨sweep, inited, heq, hle⟩ := ih (s.withRegions (s.dram.sweep + 1) (s.dram.inited.filter (· ≠ s.dram.sweep)))
      exact ⟨sweep, inited, heq, Nat.le_of_succ_le hle⟩
    · exact ⟨s.dram.sweep, s.dram.inited, rfl, Nat.le_refl _⟩

theorem State.sweepEnd_calm (s : State) : Calm dramQuiet s s.sweepEnd :=
  Calm.ite ((Calm.set _ (by decide) (by decide)).trans ((State.raise_calm _ _).mono dramQuiet_quiet)) (Calm.refl s)

/-- A request that reaches a region leaves all but the regions, the end of the sweep and what its event touches. -/
theorem State.touchRegion_calm (s : State) (l : Nat) :
    ∃ sweep inited, Calm dramQuiet (s.withRegions sweep inited) (s.touchRegion l) := by
  unfold State.touchRegion
  extract_lets r d s1
  split
  · exact ⟨s.dram.sweep, s.dram.inited, Calm.refl s⟩
  · obtain ⟨sweep, inited, heq, -⟩ := State.sweepOn_regions (s.dram.inited ++ [r]).length (s.withRegions s.dram.sweep (s.dram.inited ++ [r]))
    change ∃ sweep inited, Calm dramQuiet (s.withRegions sweep inited)
      (State.sweepOn (s.dram.inited ++ [r]).length (s.withRegions s.dram.sweep (s.dram.inited ++ [r]))).sweepEnd
    rw [heq]
    exact ⟨sweep, inited, State.sweepEnd_calm _⟩

/-- The parts of a state that requests read are as they were. -/
structure SameDram (s t : State) : Prop where
  mem : t.dram.mem = s.dram.mem
  poison : t.dram.poison = s.dram.poison
  queue : t.dram.queue = s.dram.queue
  waiting : t.dram.waiting = s.dram.waiting
  nextW : t.dram.nextW = s.dram.nextW
  get : ∀ g : Field, dramQuiet g.key = true → t.get g = s.get g

theorem State.touchRegion_same (s : State) (l : Nat) : SameDram s (s.touchRegion l) := by
  obtain ⟨sweep, inited, hcalm⟩ := s.touchRegion_calm l
  have hdram := hcalm.dram
  exact ⟨by rw [hdram]; rfl, by rw [hdram]; rfl, by rw [hdram]; rfl, by rw [hdram]; rfl, by rw [hdram]; rfl, fun g hg => hcalm.get g hg⟩

section
variable {s t : State} (h : SameDram s t)
include h

theorem SameDram.dramChan (l : Nat) : t.dramChan l = s.dramChan l := by
  simp only [State.dramChan, State.dramPlace, State.dramChans, h.get F.DRAMC_CFG_GRAIN (by decide),
    State.getBit_congr (h.get F.DRAMC_GEOM_CHANNELS (by decide))]

theorem SameDram.forwards (client : Nat) : t.forwards client = s.forwards client := by
  simp only [State.forwards, State.getBit_congr (h.get F.DRAMC_ORDERING (by decide))]

theorem SameDram.dramSize : t.dramSize = s.dramSize := h.get F.DRAMC_SIZE_BYTES (by decide)

theorem SameDram.dramOn : t.dramOn = s.dramOn := by
  rw [State.dramOn, State.ready_congr (h.get _ (by decide)), State.isl_congr (h.get _ (by decide)), State.dramOn]

theorem SameDram.visibleWrites (client addr : Nat) : t.visibleWrites client addr = s.visibleWrites client addr := by
  simp only [State.visibleWrites, h.queue, h.forwards]

theorem SameDram.chunkBytes (client addr n : Nat) : t.chunkBytes client addr n = s.chunkBytes client addr n := by
  simp only [State.chunkBytes, h.visibleWrites, h.mem]

theorem SameDram.chunkPoison (client addr : Nat) : t.chunkPoison client addr = s.chunkPoison client addr := by
  simp only [State.chunkPoison, h.visibleWrites, h.poison]

end

/-! ### Writes (R331 to R333) -/

/-- Writes that wait are accepted into the queue alone. -/
theorem State.acceptWrites_dram (s : State) :
    ∃ queue waiting, s.acceptWrites = { s with dram := { s.dram with queue := queue, waiting := waiting } } := by
  unfold State.acceptWrites
  refine List.foldlRecOn (motive := fun t : State => ∃ queue waiting, t = { s with dram := { s.dram with queue := queue, waiting := waiting } })
    _ _ ⟨s.dram.queue, s.dram.waiting, rfl⟩ fun t ht w _ => ?_
  obtain ⟨queue, waiting, rfl⟩ := ht
  dsimp only
  split
  · exact ⟨_, _, rfl⟩
  · exact ⟨queue, waiting, rfl⟩

/-- A write for which there is room is queued at once. -/
theorem State.acceptWrites_single {s : State} {w : DramWrite} (hwait : s.dram.waiting = [w]) (hroom : s.queueRoom w = true) :
    s.acceptWrites = { s with dram := { s.dram with queue := s.dram.queue ++ [w], waiting := [] } } := by
  simp [State.acceptWrites, hwait, hroom]

/-- R331: a write within the data space that finds room is queued, and is not yet in DRAM. -/
theorem State.dramWrite_queued {s : State} {client addr : Nat} {data : List Nat} {poison : Bool} (hon : s.dramOn = true) (hclient : client ≤ 7)
    (haddr : addr < s.dramSize) (hwait : s.dram.waiting = [])
    (hroom : s.queueRoom ⟨s.dram.nextW, client, s.forwards client, addr, data, poison⟩ = true) :
    ∃ t, exec (.dramWrite client addr data poison) s = .next t ∧ t.dram.mem = s.dram.mem ∧ t.dram.poison = s.dram.poison ∧ t.dram.waiting = [] ∧
      t.dram.queue = s.dram.queue ++ [⟨s.dram.nextW, client, s.forwards client, addr, data.take (64 - addr % 64), poison⟩] ∧
      ∀ g : Field, dramQuiet g.key = true → t.get g = s.get g := by
  have hsame := s.touchRegion_same addr
  let w : DramWrite := ⟨s.dram.nextW, client, s.forwards client, addr, data.take (64 - addr % 64), poison⟩
  let u : State := { s.touchRegion addr with dram := { (s.touchRegion addr).dram with
    nextW := s.dram.nextW + 1, waiting := [w] } }
  have hexec : exec (.dramWrite client addr data poison) s = .next u.acceptWrites := by
    change execDramWrite client addr data poison s = _
    simp only [execDramWrite, done, hon, Bool.not_true, Bool.false_or, decide_eq_true_eq, Nat.not_lt.mpr hclient, if_false,
      Nat.not_le.mpr haddr, hsame.nextW, hsame.forwards, hsame.waiting, hwait, List.nil_append, u, w]
  have huroom : u.queueRoom w = true := by
    refine Eq.trans ?_ hroom
    have hchan (l : Nat) : u.dramChan l = s.dramChan l := hsame.dramChan l
    have hqueue : u.dram.queue = s.dram.queue := hsame.queue
    simp only [State.queueRoom, hchan, hqueue, w]
  rw [State.acceptWrites_single rfl huroom] at hexec
  refine ⟨_, hexec, hsame.mem, hsame.poison, rfl, ?_, hsame.get⟩
  change (s.touchRegion addr).dram.queue ++ [w] = _
  rw [hsame.queue]

/-- A queued write that may be issued is written, byte by byte. -/
theorem State.dramWriteIssued_writes {s : State} {n : Nat} {w : DramWrite} (hon : s.dramOn = true) (hmem : Memory.wf s.dram.mem = true)
    (hfind : s.dram.queue.find? (fun w => w.n = n) = some w) (hissue : s.mayIssue w = true) :
    Answers (.dramWriteIssued n) s (fun t =>
      (∀ a, a < w.addr ∨ w.addr + w.data.length ≤ a → t.dram.mem.read a = s.dram.mem.read a) ∧
      (∀ i < w.data.length, t.dram.mem.read (w.addr + i) = w.data.getD i 0 % 256) ∧ t.slots = s.slots ∧ t.nv = s.nv) := by
  refine ⟨_, rfl, ?_⟩
  simp only [hfind, hon, hissue, Bool.not_true, Bool.or_self, Bool.false_eq_true, if_false]
  generalize hbefore : State.addWrap _ F.DRAMC_TRAFFIC_BYTES_64 1 = u
  have humem : u.dram.mem = s.dram.mem.writeBytes w.addr w.data := by rw [← hbefore]; rfl
  have huslots : u.slots = s.slots := by rw [← hbefore]; rfl
  have hunv : u.nv = s.nv := by rw [← hbefore]; rfl
  obtain ⟨queue, waiting, haccept⟩ := u.acceptWrites_dram
  rw [haccept]
  dsimp only
  rw [humem]
  exact ⟨fun a ha => Memory.read_writeBytes_out _ _ ha, fun i hi => Memory.read_writeBytes_in _ hmem hi, huslots, hunv⟩

/-! ### Reads (R328, R331, R346) -/

/-- A read that meets neither poison nor an error: its bytes, and the count of where it was served. -/
theorem State.dramRead_clean {s : State} {client addr : Nat} (n : Nat) (haddr : addr < s.dramSize) (hclean : s.chunkPoison client addr = false) :
    let t := s.dramRead client addr n 0
    t.dram.rdata = s.chunkBytes client addr n ∧ t.dram.rpoison = false ∧ t.dram.mem = s.dram.mem ∧ t.dram.queue = s.dram.queue ∧
      (s.visibleWrites client addr ≠ [] → t.get F.DRAMC_FWD_COUNT = (s.get F.DRAMC_FWD_COUNT + 1) % 2 ^ 64 ∧
        t.get F.DRAMC_TRAFFIC_BYTES_64 = s.get F.DRAMC_TRAFFIC_BYTES_64) ∧
      (s.visibleWrites client addr = [] → t.get F.DRAMC_TRAFFIC_BYTES_64 = (s.get F.DRAMC_TRAFFIC_BYTES_64 + 1) % 2 ^ 64) := by
  have hsame := s.touchRegion_same addr
  let u : State := { s.touchRegion addr with dram := { (s.touchRegion addr).dram with rdata := s.chunkBytes client addr n, rpoison := false } }
  have hread : s.dramRead client addr n 0 =
      if s.visibleWrites client addr ≠ [] then u.addWrap F.DRAMC_FWD_COUNT 1
      else (u.touchRow client addr).addWrap F.DRAMC_TRAFFIC_BYTES_64 1 := by
    have herr (b : Bool) : (false || b && decide (2 ≤ 0)) = false := by cases b <;> rfl
    have hnone (v : State) (bad : Bool) (hbad : bad = false) : v.dramReadErr client addr 0 bad = v := by rw [hbad]; rfl
    simp only [State.dramRead, Nat.not_le.mpr haddr, if_false, hsame.visibleWrites, hsame.chunkPoison, hclean, hsame.chunkBytes, herr,
      Bool.false_eq_true, hnone, u]
  have hget (g : Field) (hg : dramQuiet g.key = true) : u.get g = s.get g := hsame.get g hg
  intro t
  have ht : t = _ := hread
  split at ht
  · next hvisible =>
    rw [ht]
    refine ⟨rfl, rfl, hsame.mem, hsame.queue, fun _ => ⟨?_, ?_⟩, fun hnone => absurd hnone hvisible⟩
    · rw [State.addWrap, State.get_set_self, hget _ (by decide)]
      rfl
    · rw [State.addWrap, State.get_set_ne _ _ (by decide), hget _ (by decide)]
  · next hvisible =>
    rw [ht]
    refine ⟨rfl, rfl, hsame.mem, hsame.queue, fun hsome => absurd hsome hvisible, fun _ => ?_⟩
    have hrow : (u.touchRow client addr).get F.DRAMC_TRAFFIC_BYTES_64 = s.get F.DRAMC_TRAFFIC_BYTES_64 := hget _ (by decide)
    rw [State.addWrap, State.get_set_self, hrow]
    rfl

/-- R328: what an address at or beyond SIZE records. -/
theorem State.badAddr_effect (s : State) {client : Nat} (addr : Nat) (hclient : client ≤ 7) :
    (s.badAddr client addr).dram = s.dram ∧ (s.badAddr client addr).get F.DRAMC_LAST_ERR_KIND = 3 ∧
      (s.badAddr client addr).get F.DRAMC_LAST_ERR_CLIENT = client ∧ (s.badAddr client addr).get F.DRAMC_LAST_ERR_ADDR = addr % 2 ^ 40 := by
  have hraise := State.raise_calm (s.dramErr 3 client addr) E.DRAMC_BAD_ADDR
  refine ⟨hraise.dram, (hraise.get F.DRAMC_LAST_ERR_KIND (by decide)).trans ?_, (hraise.get F.DRAMC_LAST_ERR_CLIENT (by decide)).trans ?_,
    (hraise.get F.DRAMC_LAST_ERR_ADDR (by decide)).trans ?_⟩
  · rw [State.dramErr, State.get_set_ne _ _ (by decide), State.get_set_ne _ _ (by decide), State.get_set_self]
    rfl
  · rw [State.dramErr, State.get_set_ne _ _ (by decide), State.get_set_self]
    exact Nat.mod_eq_of_lt (Nat.lt_succ_of_le hclient)
  · exact State.get_set_self _ _ _

/-! ### The sweep, the patrol and MR4 -/

/-- R339: the sweep initialises the next region. -/
theorem State.dramInitSweep_goesOn {s : State} (hon : s.dramOn = true) (hseal : s.mode ≠ Md.SEAL) (hrest : s.mode ≠ Md.REST)
    (hmore : s.dram.sweep < s.dramRegions) :
    Answers .dramInitSweep s (fun t => s.dram.sweep + 1 ≤ t.dram.sweep ∧ t.dramInited s.dram.sweep = true ∧ t.dram.mem = s.dram.mem) := by
  let u := s.withRegions (s.dram.sweep + 1) s.dram.inited
  obtain ⟨sweep, inited, heq, hle⟩ := State.sweepOn_regions u.dram.inited.length u
  have hexec : exec .dramInitSweep s = .next (u.withRegions sweep inited).sweepEnd := by
    rw [← heq]
    change execDramInitSweep s = _
    simp only [execDramInitSweep, done, hon, hseal, hrest, hmore, ne_eq, not_false_eq_true, decide_true, Bool.and_self, if_true]
    rfl
  have hdram := (State.sweepEnd_calm (u.withRegions sweep inited)).dram
  refine ⟨_, hexec, ?_, ?_, ?_⟩
  · rw [hdram]
    exact hle
  · rw [State.dramInited, hdram, Bool.or_eq_true]
    exact .inl (decide_eq_true hle)
  · rw [hdram]
    rfl

/-- R392: the patrol reads a clean chunk and goes on to the next. -/
theorem State.dramPatrol_goesOn {s : State} (hpatrols : s.patrols = true) (hsize : 0 < s.dramSize) (hmore : s.dram.patrol + 64 < s.dramSize)
    (hclean : s.chunkPoison 7 s.dram.patrol = false) :
    Answers (.dramPatrol 0) s (fun t => t.dram.patrol = s.dram.patrol + 64 ∧ t.dram.rdata = s.dram.rdata ∧ t.dram.mem = s.dram.mem) := by
  have haddr : s.dram.patrol < s.dramSize := by omega
  obtain ⟨-, -, hmem, -⟩ := State.dramRead_clean 64 haddr hclean
  refine ⟨_, rfl, ?_⟩
  simp only [hpatrols, Bool.not_true, Bool.false_or, decide_eq_true_eq, Nat.ne_of_gt hsize, if_false, Nat.not_le.mpr haddr, Nat.not_le.mpr hmore]
  exact ⟨trivial, trivial, hmem⟩

/-- MR4 of the first rank sets its rate; one above the operating limit is counted. -/
theorem State.mr4Poll_rank {s : State} (hon : s.dramOn = true) (r : Nat) :
    (r ≤ 2 → Answers (.mr4Poll [r]) s (fun t => t.getPart F.DRAMC_TEMP_RATE 0 2 = r ∧ OnlyFields [F.DRAMC_TEMP_RATE] s t)) ∧
    (3 ≤ r → Answers (.mr4Poll [r]) s (fun t => t.getPart F.DRAMC_TEMP_RATE 0 2 = 2 ∧
      t.get F.DRAMC_TEMP_HIGH_COUNT = min (s.get F.DRAMC_TEMP_HIGH_COUNT + 1) 65535 ∧ t.getBit (F.EVT_RAW Pg.DRAMC) E.DRAMC_TEMP_HIGH.bit = true)) := by
  let s1 := s.setPart F.DRAMC_TEMP_RATE 0 2 (min r 2)
  have hexec : exec (.mr4Poll [r]) s = .next (if 3 ≤ r then (s1.inc F.DRAMC_TEMP_HIGH_COUNT).raise E.DRAMC_TEMP_HIGH else s1) := by
    change execMr4Poll [r] s = _
    rw [execMr4Poll, done, hon]
    rfl
  have hrate : s1.getPart F.DRAMC_TEMP_RATE 0 2 = min r 2 := by
    rw [State.getPart_setPart_self _ _ (by decide)]
    exact Nat.mod_eq_of_lt (by omega)
  refine ⟨fun hle => ?_, fun hge => ?_⟩
  · rw [if_neg (by omega)] at hexec
    exact ⟨s1, hexec, by omega, State.set_only _ _ _⟩
  · rw [if_pos hge] at hexec
    have hraise := State.raise_calm (s1.inc F.DRAMC_TEMP_HIGH_COUNT) E.DRAMC_TEMP_HIGH
    refine ⟨_, hexec, ?_, ?_, State.raise_getBit _ (by decide)⟩
    · rw [State.getPart, hraise.get _ (by decide), State.get_inc_ne _ (by decide)]
      exact hrate.trans (by omega)
    · rw [hraise.get _ (by decide), State.get_inc_self]
      congr 2
      exact State.get_set_ne _ _ (by decide)

/-! ### The obligations -/

/-- Settles O39: the write stands last in the queue, so a read that is served from the queue sees it over all the others. -/
theorem forwardWritesAreVisible : Obligations.ForwardWritesAreVisible := by
  unfold Obligations.ForwardWritesAreVisible
  intro s t u client reader addr data hon hmemOk hclient hreader haddr hfwd hwait hroom hlen hwrite hclean hread
  obtain ⟨t', hexec, hmem, -, hwaiting, hqueue, hget⟩ := State.dramWrite_queued hon hclient haddr hwait (by rw [hfwd]; exact hroom)
  obtain rfl : t' = t := Host.Outcome.next.inj (hexec.symm.trans hwrite)
  have hton : t'.dramOn = true := by
    rw [← hon, State.dramOn, State.dramOn, State.ready_congr (hget _ (by decide)), State.isl_congr (hget _ (by decide))]
  have htsize : addr < t'.dramSize := by
    rw [State.dramSize, hget _ (by decide)]
    exact haddr
  have hu : u = t'.dramRead reader addr data.length 0 := by
    refine Host.Outcome.next.inj (hread.symm.trans ?_)
    change execDramRead reader addr data.length 0 t' = _
    rw [execDramRead, done, hton, Bool.true_and, if_pos (decide_eq_true hreader)]
  obtain ⟨hdata, -⟩ := State.dramRead_clean data.length htsize hclean
  rw [hu, hdata, State.chunkBytes, State.visibleWrites, hqueue, List.filter_append, List.foldl_append, hfwd, List.take_of_length_le hlen,
    Nat.min_eq_left hlen]
  simp only [List.filter_cons, decide_true, Bool.true_or, Bool.and_self, if_true, List.filter_nil, List.foldl_cons, List.foldl_nil]
  refine Memory.bytes_writeBytes addr data (List.foldlRecOn (motive := fun m => Memory.wf m = true) _ _ ?_ fun m hm w _ => Memory.writeBytes_wf _ hm)
  rw [hmem]
  exact hmemOk.1

/-- Settles O38: writes by `dramWrite_queued` and `dramWriteIssued_writes`, reads by `dramRead_clean`. -/
theorem dramRequestsAndRefresh : Obligations.DramRequestsAndRefresh := by
  unfold Obligations.DramRequestsAndRefresh
  refine ⟨fun s hon hmemOk => ⟨fun client addr data poison hclient => ⟨fun hbad => ⟨_, rfl, ?_⟩, fun haddr hwait hroom => ?_⟩,
    fun n hnone => ⟨_, rfl, ?_⟩, fun n w hfind => ⟨fun hno => ⟨_, rfl, ?_⟩, fun hissue => State.dramWriteIssued_writes hon hmemOk.1 hfind hissue⟩,
    fun client addr n err hclient => ⟨fun hbad => ⟨_, rfl, ?_⟩, fun haddr herr hclean => ⟨_, rfl, ?_⟩⟩,
    fun hseal hrest hmore => ?_, fun hpatrols hsize hmore hclean => ?_⟩,
    fun s => ⟨fun hoff => ?_, fun hon hmixed c => ?_, fun hon r => ?_, fun hon hseal hms c d hc => ⟨_, rfl, ?_⟩,
      fun c b => ⟨_, rfl, rfl, fun x => ?_⟩⟩⟩
  · simp [hon, hbad, Nat.not_lt.mpr hclient]
  · obtain ⟨t, hexec, hmem, hpoison, hwaiting, hqueue, -⟩ := State.dramWrite_queued hon hclient haddr hwait hroom
    exact ⟨t, hexec, hmem, hpoison, hwaiting, hqueue⟩
  · simp [hnone]
  · simp [hfind, hno]
  · obtain ⟨hdram, hkind, hclient', haddr⟩ := State.badAddr_effect
      { s with dram := { s.dram with rdata := List.replicate n 0, rpoison := false } } addr hclient
    simp only [hon, hclient, State.dramRead, hbad, if_true, decide_true, Bool.and_self]
    exact ⟨by rw [hdram], by rw [hdram], hkind, hclient', haddr⟩
  · simp only [hon, hclient, decide_true, Bool.and_self, if_true, herr]
    exact State.dramRead_clean n haddr hclean
  · exact State.dramInitSweep_goesOn hon hseal hrest hmore
  · exact State.dramPatrol_goesOn hpatrols hsize hmore hclean
  · have hpatrols : s.patrols = false := by simp [State.patrols, hoff]
    refine ⟨fun c => ⟨_, rfl, ?_⟩, fun rs => ⟨_, rfl, ?_⟩, fun c d => ⟨_, rfl, ?_⟩, ⟨_, rfl, ?_⟩, fun e => ⟨_, rfl, ?_⟩,
      fun c a n e => ⟨_, rfl, ?_⟩,
      fun c a d p => ⟨_, rfl, ?_⟩⟩ <;> simp [hoff, hpatrols]
  · refine ⟨_, rfl, ?_⟩
    have hmixed' (d : DramSt) : State.mixed { s with dram := d } Pg.DRAMC = false := hmixed
    simp [hon, hmixed, hmixed']
  · exact State.mr4Poll_rank hon r
  · simp [hon, hseal, hms, hc]
  · simp only [List.mem_filter, Bool.not_eq_true', Bool.and_eq_false_iff, decide_eq_false_iff_not, Classical.not_and_iff_not_or_not]

end Sys2Proof.Machine
end

section
/-!
What the stop of a function, the verify-on-read of the dock and the records of takes leave: register fields, events that stood and the
protected buffer, where other parts of the state may change.
-/

namespace Sys2Proof.Machine

/-- One state follows another with the fields of the keys `Q`, the protected buffer and every event that stood left. -/
structure Leaves (Q : Nat → Bool) (s t : State) : Prop where
  get : ∀ g : Field, Q g.key = true → t.get g = s.get g
  slots : t.slots = s.slots
  evt : ∀ p n, n < 64 → s.getBit (F.EVT_RAW p) n = true → t.getBit (F.EVT_RAW p) n = true

variable {Q : Nat → Bool}

theorem Leaves.refl (s : State) : Leaves Q s s := ⟨fun _ _ => rfl, rfl, fun _ _ _ h => h⟩

theorem Leaves.trans {s t u : State} (h : Leaves Q s t) (k : Leaves Q t u) : Leaves Q s u :=
  ⟨fun g hg => (k.get g hg).trans (h.get g hg), k.slots.trans h.slots, fun p n hn he => k.evt p n hn (h.evt p n hn he)⟩

theorem Calm.leaves {s t : State} (h : Calm Q s t) : Leaves Q s t := ⟨h.get, h.slots, h.evt⟩

theorem Leaves.mono {Q' : Nat → Bool} {s t : State} (h : Leaves Q s t) (hQ : ∀ k, Q' k = true → Q k = true) : Leaves Q' s t :=
  ⟨fun g hg => h.get g (hQ _ hg), h.slots, h.evt⟩

/-- A change aside of the registers and the protected buffer. -/
theorem Leaves.of_regs {s t : State} (hregs : t.regs = s.regs) (hslots : t.slots = s.slots) : Leaves Q s t :=
  ⟨fun g _ => State.get_of_regs hregs g, hslots, fun p n _ he => by rwa [State.getBit, State.get_of_regs hregs]⟩

theorem Leaves.withNet (s : State) (x : NetSt) : Leaves Q s { s with net := x } := Leaves.of_regs rfl rfl

theorem Leaves.withMap (s : State) (x : MapSt) : Leaves Q s { s with map := x } := Leaves.of_regs rfl rfl

theorem Leaves.withMbx (s : State) (x : MbxSt) : Leaves Q s { s with mbx := x } := Leaves.of_regs rfl rfl

theorem Leaves.withNv (s : State) (x : Nv) : Leaves Q s { s with nv := x } := Leaves.of_regs rfl rfl

theorem Leaves.ite {c : Prop} [Decidable c] {s a b : State} (ha : Leaves Q s a) (hb : Leaves Q s b) : Leaves Q s (if c then a else b) := by
  split
  · exact ha
  · exact hb

theorem Leaves.foldl {α : Type} {f : State → α → State} (l : List α) (hf : ∀ s, ∀ x ∈ l, Leaves Q s (f s x)) (s : State) :
    Leaves Q s (l.foldl f s) :=
  List.foldlRecOn l f (motive := fun t => Leaves Q s t) (Leaves.refl s) fun t ht x hx => ht.trans (hf t x hx)

theorem Leaves.set {s : State} {f : Field} (v : Nat) (hQ : Q f.key = false) (hoff : keyOff f.key ≠ 0x20) : Leaves Q s (s.set f v) :=
  (Calm.set v hQ hoff).leaves

/-! ### Functions that stop (R108, R493) -/

/-- What the stop of a function leaves of `quiet`: all but FUNC_READY and the mailboxes. -/
def fnQuiet (k : Nat) : Bool := quiet k && k ≠ F.SYS_FUNC_READY_READY.key && keyPage k ≠ Pg.MBX

theorem fnQuiet_quiet (k : Nat) (h : fnQuiet k = true) : quiet k = true := by
  simp only [fnQuiet, Bool.and_eq_true] at h
  exact h.1.1

theorem State.raise_leaves (s : State) (e : Ev) : Leaves quiet s (s.raise e) := (s.raise_calm e).leaves

theorem State.raise_fnLeaves (s : State) (e : Ev) : Leaves fnQuiet s (s.raise e) := (s.raise_leaves e).mono fnQuiet_quiet

theorem State.setFn_leaves (s : State) (n : Nat) (b : Bool) : Leaves fnQuiet s (s.setBitTo F.SYS_FUNC_READY_READY n b) :=
  Leaves.set _ (by decide) (by decide)

theorem State.setReady_leaves (s : State) (n : Nat) : Leaves fnQuiet s (s.setReady n) :=
  Leaves.ite (Leaves.refl s) ((s.setFn_leaves n true).trans (State.raise_fnLeaves _ _))

theorem State.cascade_leaves (s : State) : Leaves fnQuiet s s.cascade :=
  Leaves.foldl _ (fun s n _ => Leaves.ite (s.setFn_leaves n false) (Leaves.refl s)) s

theorem State.clearDir_leaves (s : State) {d : Nat} (hd : d < 4) : Leaves fnQuiet s (s.clearDir d) := by
  refine Leaves.trans (Leaves.trans (Leaves.set _ ?_ ?_) (Leaves.set _ ?_ ?_)) (Leaves.withMbx _ _)
  all_goals obtain rfl | rfl | rfl | rfl := cases_lt_four hd <;> decide

theorem State.resetSetP_leaves (s : State) : Leaves fnQuiet s s.resetSetP := by
  have hdirs := (s.clearDir_leaves (d := 2) (by decide)).trans (State.clearDir_leaves _ (d := 3) (by decide))
  have hlost : Leaves fnQuiet ((s.clearDir 2).clearDir 3) (((s.clearDir 2).clearDir 3).addSat F.MBX_STATUS_P_LOST s.mbx.fly.length) :=
    Leaves.set _ (by decide) (by decide)
  exact ((hdirs.trans hlost).trans (Leaves.withMbx _ _)).trans (State.raise_fnLeaves _ _)

/-- What functions that stop leave. -/
theorem State.clearReady_leaves (s : State) (ns : List Nat) : Leaves fnQuiet s (s.clearReady ns) := by
  unfold State.clearReady
  refine Leaves.ite ?_ (Leaves.refl s)
  extract_lets s1
  have hs1 : Leaves fnQuiet s s1 :=
    ((Leaves.foldl ns (fun s n _ => s.setFn_leaves n false) s).trans (State.cascade_leaves _)).trans (State.raise_fnLeaves _ _)
  exact Leaves.ite (hs1.trans s1.resetSetP_leaves) hs1

/-! ### Records of takes -/

theorem State.journal_note_leaves (s : State) (r : Rec) : Leaves quiet s (s.note r) := by
  unfold State.note State.journal
  dsimp only
  exact Leaves.ite (Leaves.withMap s _) ((Leaves.withMap s _).trans (State.raise_leaves _ _))

theorem State.sendRecord_calm (s : State) (r : LRec) : Calm quiet s (s.sendRecord r) := by
  refine Calm.ite ((Calm.withPair s _ ?_ ?_).trans (State.pairSend_calm _ _)) (Calm.refl s)
  · rfl
  · rfl

theorem State.sendRecord_leaves (s : State) (r : LRec) : Leaves quiet s (s.sendRecord r) := (s.sendRecord_calm r).leaves

theorem State.listTake_leaves (s : State) (num : Nat) : Leaves quiet s (s.listTake num) :=
  Leaves.ite (Leaves.refl s) ((Leaves.withNv s _).trans (State.raiseIf_calm _ _ _).leaves)

theorem State.noteTake_leaves (s : State) (t : Take) : Leaves quiet s (s.noteTake t) :=
  ((s.journal_note_leaves _).trans (State.sendRecord_leaves _ _)).trans (State.listTake_leaves _ _)

/-! ### Verify-on-read (R471 to R478) -/

/-- What an outcome of an entry leaves of `quiet`: all but the count of declared takes. -/
def verQuiet (k : Nat) : Bool := quiet k && k ≠ F.NVTCP_TAKES_DECLARED.key

theorem verQuiet_quiet (k : Nat) (h : verQuiet k = true) : quiet k = true := (Bool.and_eq_true_iff.mp h).1

theorem State.ctrlAen_leaves (s : State) (a : Aen) (id : Nat) : Leaves quiet s (s.ctrlAen a id) := by
  unfold State.ctrlAen
  split
  · exact Leaves.refl s
  · refine Leaves.ite (Leaves.refl s) ?_
    split
    · exact Leaves.withNet s _
    · exact (Leaves.withNet s _).trans (State.ok_calm _ _ _ _ _).leaves

theorem State.verifyEvent_leaves (s : State) : Leaves quiet s s.verifyEvent :=
  (s.vendorEvent_calm _ _).leaves.trans (Leaves.foldl _ (fun s id _ => s.ctrlAen_leaves _ id) _)

theorem State.mapTrack_leaves (s : State) (take : Nat) (f : Track → Track) : Leaves Q s (s.mapTrack take f) := Leaves.withNet s _

theorem State.trackTake_leaves (s : State) (take : Nat) : Leaves Q s (s.trackTake take) := by
  unfold State.trackTake
  dsimp only
  exact (Leaves.withNet s _).trans (Leaves.ite (State.mapTrack_leaves _ _ _) (Leaves.ite (Leaves.of_regs rfl rfl) (Leaves.refl _)))

theorem State.verRecord_leaves (s : State) (i : EntryId) (o nsid d : Nat) : Leaves quiet s (s.verRecord i o nsid d) :=
  (Leaves.withNet s _).trans (State.verifyEvent_leaves _)

theorem State.tryDeclare_leaves (s : State) (take : Nat) : Leaves verQuiet s (s.tryDeclare take) := by
  unfold State.tryDeclare
  split
  · extract_lets es s1 s2
    refine Leaves.ite ?_ (Leaves.refl s)
    have hrecord : Leaves verQuiet s s2 := ((s.noteTake_leaves _).mono verQuiet_quiet).trans (State.mapTrack_leaves _ _ _)
    refine ((hrecord.trans (Leaves.set _ (by decide) (by decide))).trans ((State.raise_leaves _ _).mono verQuiet_quiet)).trans
      ((State.verifyEvent_leaves _).mono verQuiet_quiet)
  · exact Leaves.refl s

theorem State.verOutcome_leaves (s : State) (i : EntryId) (o digest : Nat) : Leaves verQuiet s (s.verOutcome i o digest) := by
  unfold State.verOutcome
  extract_lets n net s1 was s2 nsid s3 s4
  have h2 : Leaves verQuiet s s2 := ((Leaves.withNet s _).trans (State.trackTake_leaves _ _)).trans (State.mapTrack_leaves _ _ _)
  have h3 : Leaves verQuiet s s3 :=
    Leaves.ite (h2.trans (((State.raise_leaves _ _).trans (State.verRecord_leaves _ _ _ _ _)).mono verQuiet_quiet)) h2
  have h4 : Leaves verQuiet s s4 := Leaves.ite (h3.trans ((State.verifyEvent_leaves _).mono verQuiet_quiet)) h3
  exact h4.trans (State.tryDeclare_leaves _ _)

theorem State.closePort_leaves (s : State) (p : Nat) : Leaves verQuiet s (s.closePort p) :=
  Leaves.foldl _ (fun s _ _ => (Leaves.withNet s _).trans (State.verOutcome_leaves _ _ _ _)) s

end Sys2Proof.Machine
end

section
/-!
The Ethernet ports (R457 to R459).
-/

namespace Sys2Proof.Machine

/-! ### Links -/

theorem State.noteGen_leaves {Q : Nat → Bool} (s : State) (before : List (Nat × Bool × Nat)) : Leaves Q s (s.noteGen before) :=
  Leaves.ite (Leaves.refl s) (Leaves.withNet s _)

/-- A link that goes down reads 0; one that is down stays as it is. -/
theorem State.netLinkDown_link (s : State) {p : Nat} (hp : p < 2) :
    (s.netLinkDown p).get (F.NET_STATUS_LINK p) = 0 ∧ (s.get (F.NET_STATUS_LINK p) = 0 → s.netLinkDown p = s) := by
  unfold State.netLinkDown
  split
  · next hdown => exact ⟨hdown, fun _ => rfl⟩
  · next hup =>
    extract_lets s1
    refine ⟨?_, fun hdown => absurd hdown hup⟩
    have h1 : s1.get (F.NET_STATUS_LINK p) = 0 := by
      have hne1 : (F.NET_STATUS_LINK p).key ≠ (F.NET_STATUS_PAUSED p).key := by obtain rfl | rfl := cases_lt_two hp <;> decide
      have hne2 : (F.NET_STATUS_LINK p).key ≠ (F.NET_STATUS_FEC_LOCK p).key := by obtain rfl | rfl := cases_lt_two hp <;> decide
      exact (State.get_set_ne _ _ hne1).trans ((State.get_set_ne _ _ hne2).trans (State.get_set_self _ _ _))
    have hstop := (State.raise_fnLeaves s1 (E.NET_LINK_DOWN p)).trans (State.clearReady_leaves _ [42 + p])
    have hfn : fnQuiet (F.NET_STATUS_LINK p).key = true := by obtain rfl | rfl := cases_lt_two hp <;> decide
    have hver : verQuiet (F.NET_STATUS_LINK p).key = true := by obtain rfl | rfl := cases_lt_two hp <;> decide
    exact ((State.closePort_leaves _ p).get _ hver).trans ((hstop.get _ hfn).trans h1)

/-- What a port's lock sets. -/
theorem State.setLink_get (s : State) {p fec : Nat} (hp : p < 2) (hfec : fec < 2) :
    let t := ((s.set (F.NET_STATUS_FSTATE p) 2).set (F.NET_STATUS_LINK p) 1).set (F.NET_STATUS_FEC_LOCK p) fec
    t.get (F.NET_STATUS_FSTATE p) = 2 ∧ t.get (F.NET_STATUS_LINK p) = 1 ∧ t.get (F.NET_STATUS_FEC_LOCK p) = fec ∧
      t.get (F.NET_CTL_EN p) = s.get (F.NET_CTL_EN p) := by
  dsimp only
  refine ⟨?_, ?_, (State.get_set_self _ _ _).trans (Nat.mod_eq_of_lt hfec), ?_⟩
  · obtain rfl | rfl := cases_lt_two hp <;> simp (disch := decide) only [State.get_set_ne, State.get_set_self] <;> rfl
  · obtain rfl | rfl := cases_lt_two hp <;> simp (disch := decide) only [State.get_set_ne, State.get_set_self] <;> rfl
  · obtain rfl | rfl := cases_lt_two hp <;> simp (disch := decide) only [State.get_set_ne]

/-- A port whose lock comes while it starts is ON, with its link up, and its event stands. -/
theorem State.linkUp_effect {s : State} {p : Nat} (hp : p < 2) (hisl : s.isl 5 = 2) (hstate : s.get (F.NET_STATUS_FSTATE p) = 1)
    (hlink : s.get (F.NET_STATUS_LINK p) = 0) (hen : s.get (F.NET_CTL_EN p) = 1) :
    Answers (.linkUp p) s (fun t => t.get (F.NET_STATUS_FSTATE p) = 2 ∧ t.get (F.NET_STATUS_LINK p) = 1 ∧
      t.get (F.NET_STATUS_FEC_LOCK p) = b2n (s.get (F.NET_CFG_FEC p) = 1 && s.get (F.NET_CFG_SPEED p) = 0) ∧
      t.getBit (F.EVT_RAW (Pg.NET0 + p)) (E.NET_LINK_UP p).bit = true ∧ t.slots = s.slots) := by
  let fec := b2n (s.get (F.NET_CFG_FEC p) = 1 && s.get (F.NET_CFG_SPEED p) = 0)
  let s1 := (((s.set (F.NET_STATUS_FSTATE p) 2).set (F.NET_STATUS_LINK p) 1).set (F.NET_STATUS_FEC_LOCK p) fec)
  let s2 := s1.staticAddr p
  let s3 := (s2.raise (E.NET_LINK_UP p)).noteGen s.discEntries
  have hfec : fec < 2 := by
    simp only [fec, b2n]
    split <;> decide
  obtain ⟨hfstate, hup, hlock, henabled⟩ := s.setLink_get hp hfec
  have hs2 (g : Field) (hg : g.key ≠ (F.NET_IPV4_LEASE_ADDR p).key) : s2.get g = s1.get g := by
    simp only [s2, State.staticAddr]
    split
    · exact State.get_set_ne _ _ hg
    · rfl
  have hs3 : Leaves quiet s2 s3 := (State.raise_leaves _ _).trans (State.noteGen_leaves _ _)
  have hread (g : Field) (hg : quiet g.key = true) (hne : g.key ≠ (F.NET_IPV4_LEASE_ADDR p).key) : s3.get g = s1.get g :=
    (hs3.get g hg).trans (hs2 g hne)
  have hevt : s3.getBit (F.EVT_RAW (Pg.NET0 + p)) (E.NET_LINK_UP p).bit = true :=
    (State.noteGen_leaves (Q := quiet) _ _).evt _ _ (by simp [E.NET_LINK_UP]) (State.raise_getBit s2 (by simp [E.NET_LINK_UP]))
  have hslots : s3.slots = s.slots := by
    refine hs3.slots.trans ?_
    simp only [s2, State.staticAddr]
    split <;> rfl
  let t := if s3.needsOk (42 + p) then s3.setReady (42 + p) else s3
  have ht : Leaves fnQuiet s3 t := Leaves.ite (State.setReady_leaves _ _) (Leaves.refl _)
  have hexec : exec (.linkUp p) s = .next t := by
    have hon : s3.get (F.NET_CTL_EN p) ≠ 0 := by
      rw [hread _ (by obtain rfl | rfl := cases_lt_two hp <;> decide) (by obtain rfl | rfl := cases_lt_two hp <;> decide), henabled, hen]
      decide
    have ht : t = (if s3.get (F.NET_CTL_EN p) = 0 then s3.stopNet p else t) := (if_neg hon).symm
    rw [ht]
    change execLinkUp p s = _
    simp only [execLinkUp, done, hp, hisl, hstate, hlink, decide_true, Bool.true_and, Bool.true_or, Bool.and_self, if_true]
    rfl
  have hkeys : ∀ g ∈ [F.NET_STATUS_FSTATE p, F.NET_STATUS_LINK p, F.NET_STATUS_FEC_LOCK p],
      fnQuiet g.key = true ∧ quiet g.key = true ∧ g.key ≠ (F.NET_IPV4_LEASE_ADDR p).key := by
    obtain rfl | rfl := cases_lt_two hp <;> decide
  have hshown (g : Field) (hg : g ∈ [F.NET_STATUS_FSTATE p, F.NET_STATUS_LINK p, F.NET_STATUS_FEC_LOCK p]) : t.get g = s1.get g := by
    obtain ⟨hfn, hquiet, hne⟩ := hkeys g hg
    exact (ht.get g hfn).trans (hread g hquiet hne)
  refine ⟨t, hexec, ?_, ?_, ?_, ht.evt _ _ (by simp [E.NET_LINK_UP]) hevt, ht.slots.trans hslots⟩
  · rw [hshown _ (by simp), hfstate]
  · rw [hshown _ (by simp), hup]
  · rw [hshown _ (by simp), hlock]

/-- An address from DHCP is the one in use, and its event stands. -/
theorem State.dhcpBound_effect {s : State} {p : Nat} (hp : p < 2) (addr : Nat) (hlink : s.get (F.NET_STATUS_LINK p) = 1)
    (hdhcp : s.get (F.NET_IPV4_DHCP p) = 1) :
    Answers (.dhcpBound p addr) s (fun t => t.get (F.NET_IPV4_LEASE_ADDR p) = addr % 2 ^ 32 ∧
      t.getBit (F.EVT_RAW (Pg.NET0 + p)) (E.NET_DHCP_BOUND p).bit = true ∧ t.slots = s.slots) := by
  let s1 := s.set (F.NET_IPV4_LEASE_ADDR p) addr
  let t := (s1.raise (E.NET_DHCP_BOUND p)).noteGen s.discEntries
  have hexec : exec (.dhcpBound p addr) s = .next t := by
    change execDhcpBound p addr s = _
    simp only [execDhcpBound, done, hp, hlink, hdhcp, decide_true, Bool.and_self, if_true]
    rfl
  have hgen : Leaves quiet (s1.raise (E.NET_DHCP_BOUND p)) t := State.noteGen_leaves _ _
  have ht : Leaves quiet s1 t := (State.raise_leaves _ _).trans hgen
  refine ⟨t, hexec, ?_, hgen.evt _ _ (by simp [E.NET_DHCP_BOUND]) (State.raise_getBit s1 (by simp [E.NET_DHCP_BOUND])), ht.slots⟩
  rw [ht.get _ (by obtain rfl | rfl := cases_lt_two hp <;> decide)]
  exact State.get_set_self _ _ _

/-! ### Frames -/

/-- With its injector idle, a port's frame goes out as it is. -/
theorem State.netSend_idle {s : State} {p : Nat} (m : NetTx) (hfi : s.get (F.FI_CFG_STATE (2 + p)) = 0) (hheld : s.net.heldTx = []) :
    s.netSend p m = s.netOut p m := by
  have hunit : s.fiUnit (2 + p) = (.pass, s) := by simp [State.fiUnit, hfi]
  have hpass : (s.netOut p m).passTx p = s.netOut p m := by simp [State.passTx, State.netOut, State.addSat, hheld]
  simp only [State.netSend, hunit, hpass, ite_self]

/-- With its injector idle and nothing held back, a port takes a frame as it is. -/
theorem State.netRx_pass {s : State} {p : Nat} {m : NetRx} (h : s.framesPass p) (hkeeps : (s.netFrame p m).fi.net = []) :
    s.netRx p m = s.netFrame p m := by
  obtain ⟨hlink, hfi, hnet, hheld⟩ := h
  have hunit : s.fiUnit (2 + p) = (.pass, s) := by simp [State.fiUnit, hfi]
  have hpass : (s.netFrame p m).passNet p = s.netFrame p m := by simp [State.passNet, hkeeps]
  simp only [State.netRx, hlink, hunit, hpass, ite_self, Nat.one_ne_zero, if_false]

/-- A request for an address of the port's own is answered; another is not. -/
theorem State.netRx_request {s : State} {p : Nat} (hp : p < 2) (h : s.framesPass p) (m : NetRx) (answer : NetTx) (own : Bool)
    (hframe : s.netFrame p m = if own then (s.addSat (F.NET_RX_BYTES_COUNT p) m.bytes).netSend p answer
      else s.addSat (F.NET_RX_BYTES_COUNT p) m.bytes) :
    (own = true → (s.netRx p m).net.sent = s.net.sent ++ [answer]) ∧ (own = false → (s.netRx p m).net = s.net) := by
  have hkeep := h
  obtain ⟨-, hfi, hnet, hheld⟩ := h
  let s1 := s.addSat (F.NET_RX_BYTES_COUNT p) m.bytes
  have hfi1 : s1.get (F.FI_CFG_STATE (2 + p)) = 0 := by
    refine Eq.trans (State.get_set_ne _ _ ?_) hfi
    obtain rfl | rfl := cases_lt_two hp <;> decide
  refine ⟨fun hown => ?_, fun hown => ?_⟩
  · have heq : s.netFrame p m = s1.netOut p answer := by
      rw [hframe, if_pos hown]
      exact State.netSend_idle _ hfi1 hheld
    rw [State.netRx_pass hkeep (by rw [heq]; exact hnet), heq]
    rfl
  · have heq : s.netFrame p m = s1 := by
      rw [hframe, hown]
      rfl
    rw [State.netRx_pass hkeep (by rw [heq]; exact hnet), heq]
    rfl

/-- A PAUSE frame is counted, and obeyed where PAUSE_RX is set. -/
theorem State.netRx_pause {s : State} {p : Nat} (hp : p < 2) (h : s.framesPass p) (q : Nat) :
    let t := s.netRx p (.pause q)
    t.get (F.NET_PAUSE_COUNT p) = min (s.get (F.NET_PAUSE_COUNT p) + 1) (2 ^ 32 - 1) ∧
      (s.get (F.NET_CFG_PAUSE_RX p) = 1 → t.get (F.NET_STATUS_PAUSED p) = b2n (q ≠ 0)) ∧
      (s.get (F.NET_CFG_PAUSE_RX p) = 0 → t.get (F.NET_STATUS_PAUSED p) = s.get (F.NET_STATUS_PAUSED p)) ∧
      OnlyFields [F.NET_PAUSE_COUNT p, F.NET_STATUS_PAUSED p, F.NET_RX_BYTES_COUNT p] s t := by
  let s1 := s.addSat (F.NET_RX_BYTES_COUNT p) 64
  let s2 := s1.inc (F.NET_PAUSE_COUNT p)
  have hframe : s.netFrame p (.pause q) =
      if s.get (F.NET_CFG_PAUSE_RX p) = 1 then s2.set (F.NET_STATUS_PAUSED p) (b2n (q ≠ 0)) else s2 := rfl
  have hfi : (s.netFrame p (.pause q)).fi.net = [] := by
    rw [hframe]
    split
    · exact h.2.2.1
    · exact h.2.2.1
  have hcount : s2.get (F.NET_PAUSE_COUNT p) = min (s.get (F.NET_PAUSE_COUNT p) + 1) (2 ^ 32 - 1) := by
    rw [State.get_inc_self]
    congr 2
    refine State.get_set_ne _ _ ?_
    obtain rfl | rfl := cases_lt_two hp <;> decide
  have hpaused : s2.get (F.NET_STATUS_PAUSED p) = s.get (F.NET_STATUS_PAUSED p) := by
    refine (State.get_inc_ne _ ?_).trans (State.get_set_ne _ _ ?_)
    all_goals obtain rfl | rfl := cases_lt_two hp <;> decide
  have honly : OnlyFields [F.NET_PAUSE_COUNT p, F.NET_STATUS_PAUSED p, F.NET_RX_BYTES_COUNT p] s s2 :=
    ((OnlyFields.refl _ s).set (by simp) _).set (by simp) _
  intro t
  have ht : t = _ := (State.netRx_pass h hfi).trans hframe
  split at ht
  · next hobeys =>
    rw [ht]
    have hne : (F.NET_PAUSE_COUNT p).key ≠ (F.NET_STATUS_PAUSED p).key := by obtain rfl | rfl := cases_lt_two hp <;> decide
    refine ⟨(State.get_set_ne _ _ hne).trans hcount, fun _ => ?_, fun h0 => absurd (hobeys.symm.trans h0) (by decide), honly.set (by simp) _⟩
    rw [State.get_set_self]
    exact Nat.mod_eq_of_lt (show b2n (q ≠ 0) < 2 by simp only [b2n]; split <;> decide)
  · next hobeys =>
    rw [ht]
    exact ⟨hcount, fun h1 => absurd h1 hobeys, fun _ => hpaused, honly⟩

/-- Settles O43: locks by `linkUp_effect` and `netLinkDown_link`, frames by `netRx_pause` and `netRx_request`. -/
theorem ethernetPorts : Obligations.EthernetPorts := by
  unfold Obligations.EthernetPorts
  intro s p hp
  refine ⟨fun who en htakes => ?_, fun hno => ⟨_, rfl, ?_⟩, fun hisl hstate hlink hen => State.linkUp_effect hp hisl hstate hlink hen,
    ⟨_, rfl, ?_⟩, fun addr hno => ⟨_, rfl, ?_⟩, fun addr hlink hdhcp => State.dhcpBound_effect hp addr hlink hdhcp, ⟨_, rfl, ?_⟩,
    fun hpass => ⟨fun q => ⟨_, rfl, ?_⟩, fun addr v6 => ⟨fun hown => ⟨_, rfl, ?_⟩, fun hown => ⟨_, rfl, ?_⟩, fun hown d => ⟨_, rfl, ?_⟩,
      fun hown d => ⟨_, rfl, ?_⟩⟩⟩, fun hdown a v6 d => ⟨⟨_, rfl, ?_⟩, ⟨_, rfl, ?_⟩, ⟨_, rfl, ?_⟩⟩⟩
  · have hfs : (s.dropHeld who).get (F.NET_STATUS_FSTATE p) = s.get (F.NET_STATUS_FSTATE p) :=
      (s.dropHeld_calm who).get _ (by obtain rfl | rfl := cases_lt_two hp <;> decide)
    refine ⟨fun hon => ⟨_, rfl, ?_⟩, fun hon => ⟨_, rfl, ?_⟩, fun hoff => ⟨_, rfl, ?_⟩⟩
    all_goals
      rw [if_neg (by omega), State.rwAction_takes _ htakes, hfs]
    · rw [hon]
      rfl
    · rw [hon]
      rfl
    · rw [hoff]
      rfl
  · rcases hno with h | h | h <;> simp [h]
  · rw [if_pos hp]
    exact ⟨rfl, State.netLinkDown_link s hp⟩
  · rcases hno with h | h <;> simp [h]
  · rw [if_pos hp]
    exact ⟨State.set_only _ _ _, State.get_set_self _ _ _⟩
  · rw [if_pos hp]
    exact State.netRx_pause hp hpass q
  · rw [if_pos hp]
    exact (State.netRx_request hp hpass (.resolve addr v6) (.resolved p addr v6) _ rfl).1 hown
  · rw [if_pos hp]
    exact (State.netRx_request hp hpass (.resolve addr v6) (.resolved p addr v6) _ rfl).2 hown
  · rw [if_pos hp]
    exact (State.netRx_request hp hpass (.echo addr v6 d) (.echoed p addr v6 d) _ rfl).1 hown
  · rw [if_pos hp]
    exact (State.netRx_request hp hpass (.echo addr v6 d) (.echoed p addr v6 d) _ rfl).2 hown
  all_goals simp [State.netRx, hdown]

end Sys2Proof.Machine
end

section
/-!
Connections of the NVMe/TCP target (R460, R463 to R465, R479, R484).
-/

namespace Sys2Proof.Machine

/-- With its injector idle, a segment that a port receives is counted and changes nothing else. -/
theorem State.tcpRx_idle {s : State} {p : Nat} (hp : p < 2) (h : s.framesPass p) : s.tcpRx p = s.addSat (F.NET_RX_BYTES_COUNT p) 64 := by
  obtain ⟨-, hfi, hnet, -⟩ := h
  have hne : (F.FI_CFG_STATE (2 + p)).key ≠ (F.NET_RX_BYTES_COUNT p).key := by obtain rfl | rfl := cases_lt_two hp <;> decide
  have hfi1 : (s.addSat (F.NET_RX_BYTES_COUNT p) 64).get (F.FI_CFG_STATE (2 + p)) = 0 := (State.get_set_ne _ _ hne).trans hfi
  have hunit : (s.addSat (F.NET_RX_BYTES_COUNT p) 64).fiUnit (2 + p) = (.pass, s.addSat (F.NET_RX_BYTES_COUNT p) 64) := by
    simp [State.fiUnit, hfi1]
  have hpass : (s.addSat (F.NET_RX_BYTES_COUNT p) 64).passNet p = s.addSat (F.NET_RX_BYTES_COUNT p) 64 := by
    have hnet1 : (s.addSat (F.NET_RX_BYTES_COUNT p) 64).fi.net = [] := hnet
    rw [State.passNet, hnet1]
    rfl
  simp only [State.tcpRx, hunit, hpass, ite_self]

/-- R460: the 33rd connection, or one to another port, is reset and counted. -/
theorem State.tcpConnectionRequest_refused {s : State} {p addr dport : Nat} {v6 : Bool} (hp : p < 2) (hpass : s.framesPass p)
    (haddr : s.hasAddr p = true) (hown : s.ownAddr p addr v6 = true)
    (hno : 32 ≤ s.net.conns.length ∨ (dport ≠ s.get F.NVTCP_CFG_IO_PORT ∧ dport ≠ s.get F.NVTCP_CFG_DISC_PORT)) :
    Answers (.tcpConnectionRequest p addr v6 dport) s (fun t => t.net.conns = s.net.conns ∧ t.net.sent = s.net.sent ++ [.rst p none] ∧
      t.get F.NVTCP_CONN_REFUSED = min (s.get F.NVTCP_CONN_REFUSED + 1) (2 ^ 32 - 1) ∧
      t.get F.NVTCP_CONN_ACCEPTED = s.get F.NVTCP_CONN_ACCEPTED) := by
  have hrx := State.tcpRx_idle hp hpass
  obtain ⟨hlink, hfi, hnet, hheld⟩ := hpass
  let s1 := s.addSat (F.NET_RX_BYTES_COUNT p) 64
  let s2 := s1.netOut p (.rst p none)
  have hsend : s1.netSend p (.rst p none) = s2 := by
    refine State.netSend_idle _ (Eq.trans (State.get_set_ne _ _ ?_) hfi) hheld
    obtain rfl | rfl := cases_lt_two hp <;> decide
  have hexec : exec (.tcpConnectionRequest p addr v6 dport) s = .next ((s2.inc F.NVTCP_CONN_REFUSED).raise E.NVTCP_REFUSED) := by
    change execTcpConnectionRequest p addr v6 dport s = _
    have hfull : (decide (32 ≤ s1.net.conns.length) ||
        (decide (dport ≠ s.get F.NVTCP_CFG_IO_PORT) && !decide (dport = s.get F.NVTCP_CFG_DISC_PORT))) = true := by
      rcases hno with h | ⟨h1, h2⟩
      · exact Bool.or_eq_true_iff.mpr (.inl (decide_eq_true h))
      · simp [h1, h2]
    simp only [execTcpConnectionRequest, done, Nat.not_lt.mpr (Nat.le_of_lt_succ hp), hlink, haddr, hown, hrx, decide_false, Nat.one_ne_zero,
      Bool.not_true, Bool.or_self, Bool.false_eq_true, if_false]
    rw [if_pos hfull]
    exact congrArg (fun x : State => Host.Outcome.next ((x.inc F.NVTCP_CONN_REFUSED).raise E.NVTCP_REFUSED)) hsend
  have hraise := State.raise_calm (s2.inc F.NVTCP_CONN_REFUSED) E.NVTCP_REFUSED
  have hs2 (g : Field) (h1 : g.key ≠ (F.NET_TX_BYTES_COUNT p).key) (h2 : g.key ≠ (F.NET_RX_BYTES_COUNT p).key) : s2.get g = s.get g :=
    (State.get_set_ne _ _ h1).trans ((State.get_of_regs rfl g).trans (State.get_set_ne s _ h2))
  have hkeys : ∀ g ∈ [F.NVTCP_CONN_REFUSED, F.NVTCP_CONN_ACCEPTED],
      g.key ≠ (F.NET_TX_BYTES_COUNT p).key ∧ g.key ≠ (F.NET_RX_BYTES_COUNT p).key := by
    obtain rfl | rfl := cases_lt_two hp <;> decide
  have hkept (g : Field) (hg : g ∈ [F.NVTCP_CONN_REFUSED, F.NVTCP_CONN_ACCEPTED]) : s2.get g = s.get g :=
    hs2 g (hkeys g hg).1 (hkeys g hg).2
  refine ⟨_, hexec, ?_, ?_, ?_, ?_⟩
  · rw [hraise.net]
    rfl
  · rw [hraise.net]
    rfl
  · rw [hraise.get _ (by decide), State.get_inc_self, hkept _ (by simp)]
    rfl
  · rw [hraise.get _ (by decide), State.get_inc_ne _ (by decide), hkept _ (by simp)]

/-- R460: a connection that is accepted has neither its ICReq nor its Connect yet. -/
theorem State.tcpConnectionRequest_accepted {s : State} {p addr dport : Nat} {v6 : Bool} (hp : p < 2) (hpass : s.framesPass p)
    (haddr : s.hasAddr p = true) (hown : s.ownAddr p addr v6 = true) (hroom : s.net.conns.length < 32)
    (hport : dport = s.get F.NVTCP_CFG_IO_PORT ∨ dport = s.get F.NVTCP_CFG_DISC_PORT) (hready : s.ready Fn.NVTCP = true)
    (hmode : s.dockMode = true) :
    Answers (.tcpConnectionRequest p addr v6 dport) s (fun t =>
      t.net.conns.find? s.net.nextConn = some ⟨p, dport = s.get F.NVTCP_CFG_DISC_PORT, none, none, 0, 0⟩ ∧ t.mode = s.mode ∧
      t.get F.NVTCP_CONN_ACCEPTED = min (s.get F.NVTCP_CONN_ACCEPTED + 1) (2 ^ 32 - 1)) := by
  have hrx := State.tcpRx_idle hp hpass
  obtain ⟨hlink, -⟩ := hpass
  let s1 := s.addSat (F.NET_RX_BYTES_COUNT p) 64
  have hs1 (g : Field) (h : g.key ≠ (F.NET_RX_BYTES_COUNT p).key) : s1.get g = s.get g := State.get_set_ne s _ h
  let s2 : State := { s1 with net := { s1.net with
    nextConn := s1.net.nextConn + 1
    conns := s1.net.conns.put s1.net.nextConn ⟨p, dport = s.get F.NVTCP_CFG_DISC_PORT, none, none, 0, 0⟩ } }
  have hexec : exec (.tcpConnectionRequest p addr v6 dport) s = .next ((s2.inc F.NVTCP_CONN_ACCEPTED).raise E.NVTCP_CONNECT) := by
    change execTcpConnectionRequest p addr v6 dport s = _
    have hfull : (decide (32 ≤ s1.net.conns.length) ||
        (decide (dport ≠ s.get F.NVTCP_CFG_IO_PORT) && !decide (dport = s.get F.NVTCP_CFG_DISC_PORT))) = false := by
      have hlen : ¬32 ≤ s1.net.conns.length := Nat.not_le.mpr hroom
      rcases hport with h | h <;> simp [hlen, h]
    have hready1 : s1.ready Fn.NVTCP = true :=
      (State.ready_congr (hs1 _ (by obtain rfl | rfl := cases_lt_two hp <;> decide)) _).trans hready
    have hmode1 : s1.dockMode = true := by
      rw [State.dockMode, State.mode, hs1 _ (by obtain rfl | rfl := cases_lt_two hp <;> decide)]
      exact hmode
    simp only [execTcpConnectionRequest, done, Nat.not_lt.mpr (Nat.le_of_lt_succ hp), hlink, haddr, hown, hrx, decide_false, Nat.one_ne_zero,
      Bool.not_true, Bool.or_self, Bool.false_eq_true, if_false]
    rw [if_neg (Bool.eq_false_iff.mp hfull)]
    change Host.Outcome.next (if (!s1.ready Fn.NVTCP || !s1.dockMode) = true then _ else _) = _
    rw [if_neg (by simp [hready1, hmode1])]
  have hraise := State.raise_calm (s2.inc F.NVTCP_CONN_ACCEPTED) E.NVTCP_CONNECT
  have hs2 (g : Field) (h : g.key ≠ (F.NET_RX_BYTES_COUNT p).key) : s2.get g = s.get g := (State.get_of_regs rfl g).trans (hs1 g h)
  refine ⟨_, hexec, ?_, ?_, ?_⟩
  · rw [hraise.net]
    exact Tbl.find?_put_self _ _ _
  · rw [State.mode, hraise.get _ (by decide), State.get_inc_ne _ (by decide), hs2 _ (by obtain rfl | rfl := cases_lt_two hp <;> decide)]
    rfl
  · rw [hraise.get _ (by decide), State.get_inc_self, hs2 _ (by obtain rfl | rfl := cases_lt_two hp <;> decide)]
    rfl

/-- R463: an ICReq is answered with the digests that are asked for and configured. -/
theorem State.icreq_answered {s : State} {conn : Nat} {c : Conn} (hfind : s.net.conns.find? conn = some c) (hp : c.port < 2)
    (hpass : s.framesPass c.port) (hic : c.ic = none) (h d : Bool) :
    Answers (.icreq conn h d) s (fun t =>
      let h' := h && s.get F.NVTCP_CFG_HDGST_OK = 1
      let d' := d && s.get F.NVTCP_CFG_DDGST_OK = 1
      t.net.conns.find? conn = some { c with ic := some (h', d') } ∧ t.net.sent = s.net.sent ++ [.icResp conn h' d']) := by
  have hrx := State.tcpRx_idle hp hpass
  obtain ⟨-, hfi, -, hheld⟩ := hpass
  refine ⟨_, rfl, ?_⟩
  dsimp only
  rw [hfind]
  dsimp only
  rw [hic, hrx, Option.isSome_none, if_neg Bool.false_ne_true, State.netSend_idle]
  · exact ⟨Tbl.find?_put_self _ _ _, rfl⟩
  · refine (State.get_of_regs rfl _).trans (Eq.trans (State.get_set_ne s _ ?_) hfi)
    have hports : ∀ p < 2, (F.FI_CFG_STATE (2 + p)).key ≠ (F.NET_RX_BYTES_COUNT p).key := by decide
    exact hports _ hp
  · exact hheld

/-- R464, R465: what a Connect of an admin queue meets. -/
theorem State.connectAdmin_cases {s : State} (id : Cid) (conn : Nat) {c : Conn} {sqsize : Nat} (host kato : Nat) (hlow : 1 ≤ sqsize)
    (hhigh : sqsize ≤ 31) :
    (∀ k, (ctrlIds c.disc).find? (fun k => (s.net.ctrls.find? k).isNone) = some k →
      s.connectAdmin id conn c sqsize 0xFFFF host kato = (State.ok { s with net := { s.net with
        ctrls := s.net.ctrls.put k ⟨c.disc, host, 0, 0, kato, [], [], [], 0⟩
        conns := s.net.conns.put conn { c with ctrl := some k, qid := 0, qsize := sqsize } } } id k 0 []).enterOffload) ∧
    ((ctrlIds c.disc).all (fun k => (s.net.ctrls.find? k).isSome) = true →
      s.connectAdmin id conn c sqsize 0xFFFF host kato = s.fail id 1 0x81) := by
  have hsize : (decide (sqsize = 0) || decide (31 < sqsize) || decide (0xFFFF ≠ 0xFFFF)) = false := by
    simp [Nat.not_lt.mpr hhigh, Nat.ne_of_gt hlow]
  unfold State.connectAdmin
  rw [if_neg (Bool.eq_false_iff.mp hsize)]
  refine ⟨fun k hk => by rw [hk], fun hall => ?_⟩
  have hnone : (ctrlIds c.disc).find? (fun k => (s.net.ctrls.find? k).isNone) = none := by
    rw [List.find?_eq_none]
    intro k hk
    simpa using Option.isSome_iff_ne_none.mp (List.all_eq_true.mp hall k hk)
  rw [hnone]

/-- Settles O44: connections by `tcpConnectionRequest_…`, their first PDU by `icreq_answered`, controllers by `connectAdmin_cases`. -/
theorem dockConnections : Obligations.DockConnections := by
  unfold Obligations.DockConnections
  intro s
  refine ⟨fun p addr dport v6 hp => ⟨fun hno => ⟨_, rfl, ?_⟩, fun hpass haddr hown =>
      ⟨State.tcpConnectionRequest_refused hp hpass haddr hown, State.tcpConnectionRequest_accepted hp hpass haddr hown⟩⟩,
    fun conn hnone => ⟨⟨_, rfl, ?_⟩, fun h d => ⟨_, rfl, ?_⟩, fun cid q z c h k => ⟨_, rfl, ?_⟩⟩,
    fun conn c hfind => ⟨⟨_, rfl, ?_⟩, fun hp hpass hic => State.icreq_answered hfind hp hpass hic, fun cid qid sqsize cntlid host kato => ?_⟩,
    fun hidle htrans => ?_, fun hno => ?_, fun id p k c hctrl => ?_, fun conn cid off k ws ok hfind => ?_, fun hno => ⟨_, rfl, ?_⟩,
    fun hmode hcause => ⟨_, rfl, ?_⟩, fun who htakes => ⟨⟨_, rfl, ?_⟩, ⟨_, rfl, ?_⟩⟩⟩
  · rcases hno with h | h <;> simp [h]
  · simp [hnone]
  · simp [hnone]
  · simp [hnone]
  · simp [hfind]
  · intro id s1
    refine ⟨fun hic => ⟨_, rfl, ?_⟩, fun hic hctrl hready hmode => ?_⟩
    · simp [id, s1, hfind, hic]
    · have hsome : c.ic.isNone = false := by simpa [Option.isSome_iff_ne_none] using hic
      have hexec : exec (.connect id qid sqsize cntlid host kato) s = .next (if s1.get F.NVTCP_STATUS_CLOSING = 1 then s1.fail id 1 0x81
          else if qid = 0 then s1.connectAdmin id conn c sqsize cntlid host kato else s1.connectIo id conn c qid sqsize cntlid host) := by
        change execConnect id qid sqsize cntlid host kato s = _
        simp only [execConnect, done, id, hfind]
        change Host.Outcome.next (if c.ic.isNone = true then _ else if (!s1.ready Fn.NVTCP || !s1.dockMode) = true then _ else _) = _
        rw [hsome, hready, hmode, hctrl]
        rfl
      refine ⟨fun hclosing => ⟨_, hexec, if_pos hclosing⟩, fun hopen hqid hlow hhigh hcntlid => ?_⟩
      rw [if_neg (by omega), if_pos hqid, hcntlid] at hexec
      obtain ⟨hfree, hfull⟩ := State.connectAdmin_cases (s := s1) id conn (c := c) host kato hlow hhigh
      subst hqid hcntlid
      exact ⟨fun k hk => ⟨_, hexec, hfree k hk⟩, fun hall => ⟨_, hexec, hfull hall⟩⟩
  · simp [State.enterOffload, hidle, htrans]
  · simp [State.enterOffload, hno]
  · refine ⟨⟨_, rfl, ?_⟩, ⟨_, rfl, ?_⟩, fun ofst v hofst => ⟨_, rfl, ?_⟩, fun v hcc hk => ⟨_, rfl, ?_⟩⟩
    · simp [hctrl]
    · simp [hctrl]
    · simp [hctrl, hofst]
    · simp [hctrl, hcc, hk]
  · intro id s1
    refine ⟨⟨_, rfl, ?_⟩, fun c hcmd => ⟨⟨_, rfl, ?_⟩, fun hop hstarted hadmitted hbegun hsealing hoff hlen => ⟨_, rfl, ?_⟩⟩⟩
    · simp [id, s1, hfind]
    · simp only [id, hfind]
      change (match s1.cmd? id with | none => _ | some c => _) = _
      rw [hcmd]
      rfl
    · simp only [id, hfind]
      change (match s1.cmd? id with | none => _ | some c => _) = _
      rw [hcmd]
      have htakes : (decide (c.op ≠ .write) || c.started || !s1.allAdmitted id || !s1.begun id || s1.led.sealing.isSome ||
          decide (off ≠ c.data.length)) = false := by
        simp [hop, hstarted, hadmitted, hbegun, hsealing, hoff]
      refine (if_neg Bool.false_ne_true).trans ((if_neg (Bool.eq_false_iff.mp htakes)).trans (if_neg ?_))
      rw [List.length_take, Nat.min_eq_left hlen]
      exact Nat.lt_irrefl _
  · rcases hno with h | h <;> simp [h]
  · simp [hmode, Option.isSome_iff_ne_none.mpr hcause]
  · rw [State.rwAction_takes _ htakes]
    rfl
  · rw [State.rwAction_takes _ htakes]
    rfl

end Sys2Proof.Machine
end

section
/-!
Check-value units that are fed, and the mailboxes' registers (R486 to R492, R509 to R512).
-/

namespace Sys2Proof.Machine

/-! ### Check-value units -/

/-- What a feed of the check-value units leaves of `quiet`: all but their page. -/
def feedQuiet (k : Nat) : Bool := quiet k && keyPage k ≠ Pg.CRCU

theorem feedQuiet_quiet (k : Nat) (h : feedQuiet k = true) : quiet k = true := (Bool.and_eq_true_iff.mp h).1

theorem State.raise_feedCalm (s : State) (e : Ev) : Calm feedQuiet s (s.raise e) := (s.raise_calm e).mono feedQuiet_quiet

theorem State.crcuTake_calm (s : State) {n : Nat} (hn : n < 4) (bs : List Nat) : Calm feedQuiet s (s.crcuTake n bs) := by
  have hacc : feedQuiet (F.CRCU_ACC n).key = false ∧ keyOff (F.CRCU_ACC n).key ≠ 0x20 := by
    obtain rfl | rfl | rfl | rfl := cases_lt_four hn <;> decide
  have hcount : feedQuiet (F.CRCU_BYTES_COUNT n).key = false ∧ keyOff (F.CRCU_BYTES_COUNT n).key ≠ 0x20 := by
    obtain rfl | rfl | rfl | rfl := cases_lt_four hn <;> decide
  unfold State.crcuTake
  extract_lets lim before mine s1
  refine Calm.ite (Calm.refl s) (Calm.ite (Calm.refl s) ?_)
  have hs1 : Calm feedQuiet s s1 := (Calm.set _ hacc.1 hacc.2).trans (Calm.set _ hcount.1 hcount.2)
  exact Calm.ite (hs1.trans (Calm.ite (State.raise_feedCalm _ _) (Calm.refl _))) hs1

/-- What a feed of the check-value units leaves. -/
theorem State.crcuFeed_calm (s : State) (src chan : Nat) (bs : List Nat) : Calm feedQuiet s (s.crcuFeed src chan bs) :=
  Calm.foldl _ (fun s _ hn => Calm.ite (s.crcuTake_calm (List.mem_range.mp hn) bs) (Calm.refl s)) s

/-! ### Writes that reach a direction (R486) -/

/-- A write whose register is taken reaches it. -/
theorem State.mbxAccess_takes {s : State} {who : Req} {off : Nat} (v : Nat) (hoff : off % 0x100 ≠ 0x08)
    (h : (s.dropHeld who).takes who Pg.MBX off) : s.mbxAccess who off v = (s.dropHeld who).mbxWrite who off v := by
  rw [State.mbxAccess, if_neg hoff, State.rwAction_takes _ h]

/-- A clear of DB reaches it in every mode. -/
theorem State.mbxAccess_db {s : State} {who : Req} {off : Nat} (v : Nat) (hoff : off % 0x100 = 0x08)
    (h : (s.dropHeld who).blocked who Pg.MBX off = none) : s.mbxAccess who off v = (s.dropHeld who).mbxWrite who off v := by
  rw [State.mbxAccess, if_pos hoff, State.regAction_reaches _ h]

section
variable (s : State) (who : Req) {d : Nat} (hd : d < 4) (v : Nat)
include hd

theorem State.mbxWrite_ring : s.mbxWrite who (mbxOff d 0x00) v = s.wRing who d v := by obtain rfl | rfl | rfl | rfl := cases_lt_four hd <;> rfl

theorem State.mbxWrite_db : s.mbxWrite who (mbxOff d 0x08) v = s.wDb who d v := by obtain rfl | rfl | rfl | rfl := cases_lt_four hd <;> rfl

theorem State.mbxWrite_go : s.mbxWrite who (mbxOff d 0x20) 1 = s.wGo who d := by obtain rfl | rfl | rfl | rfl := cases_lt_four hd <;> rfl

theorem State.mbxWrite_done : s.mbxWrite who (mbxOff d 0x20) 2 = s.wDone who d := by obtain rfl | rfl | rfl | rfl := cases_lt_four hd <;> rfl

theorem State.mbxWrite_release : s.mbxWrite who (mbxOff d 0x20) 4 = s.wRelease who d := by obtain rfl | rfl | rfl | rfl := cases_lt_four hd <;> rfl

theorem State.mbxWrite_push : s.mbxWrite who (mbxOff d 0x28) v = s.wPush who d v := by obtain rfl | rfl | rfl | rfl := cases_lt_four hd <;> rfl

theorem State.mbxWrite_pop : s.mbxWrite who (mbxOff d 0x30) v = s.wPop who d v := by obtain rfl | rfl | rfl | rfl := cases_lt_four hd <;> rfl

end

/-! ### Doorbells, blocks and queues (R488 to R492) -/

theorem State.mbxTravel_calm (s : State) (d kind idx : Nat) (ws : List Nat) : Calm quiet s (s.mbxTravel d kind idx ws) :=
  Calm.ite (s.pairSend_calm _) (Calm.refl s)

/-- R488: doorbell bits that are rung join those that stand. -/
theorem State.mbxRing_doorbells (s : State) {d : Nat} (hd : d < 4) (h0 : d ≠ 0) (b : Nat) :
    (s.mbxRing d b).get (F.MBX_DB d) = Nat.lor (s.get (F.MBX_DB d)) (b % 2 ^ 32) % 2 ^ 32 := by
  have hquiet : quiet (F.MBX_DB d).key = true := by obtain rfl | rfl | rfl | rfl := cases_lt_four hd <;> decide
  unfold State.mbxRing
  extract_lets old s1 fresh s2 s3
  have h2 : Calm quiet s1 s2 := s1.raiseIf_calm _ _
  have h3 : Calm quiet s2 s3 := Calm.ite (State.mbxTravel_calm _ _ _ _ _) (Calm.refl s2)
  rw [if_neg (by simp [h0]), (h2.trans h3).get _ hquiet]
  exact State.get_set_self _ _ _

/-- R489: the receiver's clear leaves the other bits. -/
theorem State.mbxClear_doorbells (s : State) {d : Nat} (hd : d < 4) (b : Nat) :
    (s.mbxClear d b).get (F.MBX_DB d) = (s.get (F.MBX_DB d) - Nat.land (s.get (F.MBX_DB d)) (b % 2 ^ 32)) % 2 ^ 32 := by
  have hquiet : quiet (F.MBX_DB d).key = true := by obtain rfl | rfl | rfl | rfl := cases_lt_four hd <;> decide
  exact ((State.mbxTravel_calm _ _ _ _ _).get _ hquiet).trans (State.get_set_self _ _ _)

theorem reqCode_lt (who : Req) : reqCode who < 4 := by cases who <;> decide

/-- R490: GO posts a block that is IDLE; another is refused. -/
theorem State.mbxGo_effect (s : State) {d : Nat} (hd : d < 4) (who : Req) :
    (s.get (F.MBX_BLK_STATE_STATE d) = 0 → (s.mbxGo d (reqCode who)).get (F.MBX_BLK_STATE_STATE d) = 1 ∧
      (s.mbxGo d (reqCode who)).get (F.MBX_BLK_STATE_POSTER d) = reqCode who ∧ (s.mbxGo d (reqCode who)).mbx = s.mbx) ∧
    (s.get (F.MBX_BLK_STATE_STATE d) ≠ 0 → s.mbxGo d (reqCode who) = s.mbxBusy d) := by
  have hstate : quiet (F.MBX_BLK_STATE_STATE d).key = true := by obtain rfl | rfl | rfl | rfl := cases_lt_four hd <;> decide
  have hposter : quiet (F.MBX_BLK_STATE_POSTER d).key = true := by obtain rfl | rfl | rfl | rfl := cases_lt_four hd <;> decide
  have hne : (F.MBX_BLK_STATE_STATE d).key ≠ (F.MBX_BLK_STATE_POSTER d).key := by obtain rfl | rfl | rfl | rfl := cases_lt_four hd <;> decide
  unfold State.mbxGo
  refine ⟨fun hidle => ?_, fun hbusy => if_pos hbusy⟩
  rw [if_neg (not_not_intro hidle)]
  extract_lets s1 s2
  have h : Calm quiet s1 (if d = 2 then s2.mbxTravel 2 MB_GO 0 (s2.blkWords 2) else s2) :=
    (s1.raiseIf_calm _ _).trans (Calm.ite (State.mbxTravel_calm _ _ _ _ _) (Calm.refl s2))
  refine ⟨(h.get _ hstate).trans ?_, (h.get _ hposter).trans ?_, h.mbx⟩
  · exact (State.get_set_ne _ _ hne).trans (State.get_set_self _ _ _)
  · exact (State.get_set_self _ _ _).trans (Nat.mod_eq_of_lt (reqCode_lt who))

/-- R490: DONE answers a block that is POSTED; another is refused. -/
theorem State.mbxDone_effect (s : State) {d : Nat} (hd : d < 4) :
    (s.get (F.MBX_BLK_STATE_STATE d) = 1 → (s.mbxDone d).get (F.MBX_BLK_STATE_STATE d) = 2 ∧ (s.mbxDone d).mbx = s.mbx) ∧
    (s.get (F.MBX_BLK_STATE_STATE d) ≠ 1 → s.mbxDone d = s.mbxBusy d) := by
  have hstate : quiet (F.MBX_BLK_STATE_STATE d).key = true := by obtain rfl | rfl | rfl | rfl := cases_lt_four hd <;> decide
  unfold State.mbxDone
  refine ⟨fun hposted => ?_, fun hbusy => if_pos hbusy⟩
  rw [if_neg (not_not_intro hposted)]
  extract_lets s1
  have h : Calm quiet (s.set (F.MBX_BLK_STATE_STATE d) 2) (if d = 3 then s1.mbxTravel 3 MB_DONE 0 (s1.blkWords 3) else s1) :=
    (State.raiseIf_calm _ _ _).trans (Calm.ite (State.mbxTravel_calm _ _ _ _ _) (Calm.refl s1))
  exact ⟨(h.get _ hstate).trans (State.get_set_self _ _ _), h.mbx⟩

/-- R490: RELEASE frees a block that is ANSWERED; another is refused. -/
theorem State.mbxRelease_effect (s : State) {d : Nat} (hd : d < 4) :
    (s.get (F.MBX_BLK_STATE_STATE d) = 2 → (s.mbxRelease d).get (F.MBX_BLK_STATE_STATE d) = 0 ∧ (s.mbxRelease d).mbx = s.mbx) ∧
    (s.get (F.MBX_BLK_STATE_STATE d) ≠ 2 → s.mbxRelease d = s.mbxBusy d) := by
  have hstate : quiet (F.MBX_BLK_STATE_STATE d).key = true := by obtain rfl | rfl | rfl | rfl := cases_lt_four hd <;> decide
  unfold State.mbxRelease
  refine ⟨fun hanswered => ?_, fun hbusy => if_pos hbusy⟩
  rw [if_neg (not_not_intro hanswered)]
  have h := State.mbxTravel_calm (s.set (F.MBX_BLK_STATE_STATE d) 0) d MB_RELEASE 0 []
  exact ⟨(h.get _ hstate).trans (State.get_set_self _ _ _), h.mbx⟩

/-- A queue that is given its words has them, and the others stay. -/
theorem State.queue_setQueue {s : State} {d : Nat} (hd : d < 4) (hlen : s.mbx.qs.length = 4) (ws : List Nat) :
    (s.setQueue d ws).queue d = ws ∧ ∀ e, e < 4 → e ≠ d → (s.setQueue d ws).queue e = s.queue e := by
  refine ⟨?_, fun e _ hne => ?_⟩
  · simp [State.queue, State.setQueue, List.getD, hlen, hd]
  · simp [State.queue, State.setQueue, List.getD, List.getElem?_set_ne (Ne.symm hne)]

/-- What a state shows of its queues is its mailboxes' part alone. -/
theorem State.queue_congr {s t : State} (h : t.mbx.qs = s.mbx.qs) (d : Nat) : t.queue d = s.queue d := by
  rw [State.queue, State.queue, h]

/-- R491: a word that finds room joins its queue; one that does not is refused. -/
theorem State.mbxPush_effect {s : State} {d : Nat} (hd : d < 4) (w : Nat) :
    (64 ≤ (s.queue d).length → s.mbxPush d w = (s.inc (F.MBX_Q_STATE_PUSH_REFUSED d)).raise E.MBX_PUSH_REFUSED) ∧
    ((s.queue d).length < 64 → s.mbx.qs.length = 4 → (s.mbxPush d w).queue d = s.queue d ++ [w % 2 ^ 64] ∧
      ∀ e, e < 4 → e ≠ d → (s.mbxPush d w).queue e = s.queue e) := by
  unfold State.mbxPush
  refine ⟨fun hfull => if_neg (Nat.not_lt.mpr hfull), fun hroom hlen => ?_⟩
  rw [if_pos hroom]
  extract_lets s1 s2 s3 m
  have h2 : s2.mbx = s1.mbx := (Calm.ite (State.crcuFeed_calm _ _ _ _) (Calm.refl s1) : Calm feedQuiet s1 s2).mbx
  have h3 : s3.mbx = s1.mbx := (State.raiseIf_calm _ _ _).mbx.trans h2
  have hqs : (if d = 2 then State.mbxTravel { s3 with mbx := { s3.mbx with fly := s3.mbx.fly ++ [s3.nextVc1] } } 2 MB_PUSH 0 [w % 2 ^ 64]
      else s3).mbx.qs = s1.mbx.qs := by
    split
    · rw [(State.mbxTravel_calm _ _ _ _ _).mbx, h3]
    · rw [h3]
  obtain ⟨hself, hother⟩ := State.queue_setQueue hd hlen (s.queue d ++ [w % 2 ^ 64])
  exact ⟨(State.queue_congr hqs d).trans hself, fun e he hne => (State.queue_congr hqs e).trans (hother e he hne)⟩

/-- R491: words that stand in a queue leave it from the front; a wrong number is refused. -/
theorem State.mbxPop_effect {s : State} {d : Nat} (hd : d < 4) (n : Nat) :
    (n = 0 ∨ (s.queue d).length < n → s.mbxPop d n = s.mbxBusy d) ∧
    (n ≠ 0 → n ≤ (s.queue d).length → s.mbx.qs.length = 4 → (s.mbxPop d n).queue d = (s.queue d).drop n ∧
      ∀ e, e < 4 → e ≠ d → (s.mbxPop d n).queue e = s.queue e) := by
  unfold State.mbxPop
  refine ⟨fun hbad => if_pos (by simpa using hbad), fun hn hle hlen => ?_⟩
  rw [if_neg (by simp [hn, hle])]
  have hqs := congrArg MbxSt.qs (State.mbxTravel_calm (s.setQueue d ((s.queue d).drop n)) d MB_POP 0 [n]).mbx
  obtain ⟨hself, hother⟩ := State.queue_setQueue hd hlen ((s.queue d).drop n)
  exact ⟨(State.queue_congr hqs d).trans hself, fun e he hne => (State.queue_congr hqs e).trans (hother e he hne)⟩

/-! ### The obligation -/

/-- The offset of a register within its direction's block. -/
theorem mbxOff_mod {d r : Nat} (hr : r < 0x100) : mbxOff d r % 0x100 = r := by
  simp only [mbxOff]
  omega

/-- Settles O45: each command reaches its register (`mbxWrite_…`), whose effect is `mbxGo_effect` and its like. -/
theorem mailboxes : Obligations.Mailboxes := by
  unfold Obligations.Mailboxes
  intro s who d hd s0
  refine ⟨fun b htakes => ?_, fun b hreach => ?_, fun htakes => ?_, fun w htakes hsender => ?_, fun n htakes hreceiver => ?_, ?_, fun k dir i ws => ?_⟩
  · have hexec : exec (.mbxRing who d b) s = .next (s0.wRing who d b) := by
      change execMbxRing who d b s = _
      rw [execMbxRing, done, if_pos hd, State.mbxAccess_takes _ (by rw [mbxOff_mod] <;> decide) htakes, State.mbxWrite_ring _ _ hd]
    exact ⟨fun hsender => ⟨_, hexec, if_pos hsender⟩, fun hno => ⟨_, hexec, if_neg (by simp [hno])⟩, fun h0 => State.mbxRing_doorbells s0 hd h0 b⟩
  · have hexec : exec (.mbxDbClear who d b) s = .next (s0.wDb who d b) := by
      change execMbxDbClear who d b s = _
      rw [execMbxDbClear, done, if_pos hd, State.mbxAccess_db _ (mbxOff_mod (by decide)) hreach, State.mbxWrite_db _ _ hd]
    refine ⟨fun hreceiver => ⟨_, hexec, if_pos hreceiver, ?_⟩, fun hno => ⟨_, hexec, if_neg (by simp [hno])⟩⟩
    rw [State.wDb, State.byReceiver, if_pos hreceiver]
    exact State.mbxClear_doorbells s0 hd b
  · have hgo : exec (.mbxBlockGo who d) s = .next (s0.wGo who d) := by
      change execMbxBlockGo who d s = _
      rw [execMbxBlockGo, done, if_pos hd, State.mbxAccess_takes _ (by rw [mbxOff_mod] <;> decide) htakes, State.mbxWrite_go _ _ hd]
    have hdone : exec (.mbxBlockDone who d) s = .next (s0.wDone who d) := by
      change execMbxBlockDone who d s = _
      rw [execMbxBlockDone, done, if_pos hd, State.mbxAccess_takes _ (by rw [mbxOff_mod] <;> decide) htakes, State.mbxWrite_done _ _ hd]
    have hrelease : exec (.mbxBlockRelease who d) s = .next (s0.wRelease who d) := by
      change execMbxBlockRelease who d s = _
      rw [execMbxBlockRelease, done, if_pos hd, State.mbxAccess_takes _ (by rw [mbxOff_mod] <;> decide) htakes, State.mbxWrite_release _ _ hd]
    refine ⟨fun hsender h0 hmay => ?_, fun hsender h0 => ⟨_, hgo, ?_⟩, fun hno => ⟨_, hgo, if_neg (by simp [hno])⟩, fun hreceiver => ?_,
      fun hsender => ?_⟩
    · have hpost : s0.wGo who d = s0.mbxGo d (reqCode who) := by simp [State.wGo, State.bySender, hsender, hmay, h0]
      rw [hpost] at hgo
      obtain ⟨hidle, hbusy⟩ := State.mbxGo_effect s0 hd who
      exact ⟨fun h => ⟨_, hgo, hidle h⟩, fun h => ⟨_, hgo, hbusy h⟩⟩
    · subst h0
      simp [State.wGo, State.bySender, hsender, State.mayPost]
    · have hanswer : s0.wDone who d = s0.mbxDone d := if_pos hreceiver
      rw [hanswer] at hdone
      obtain ⟨hposted, hbusy⟩ := State.mbxDone_effect s0 hd
      exact ⟨fun h => ⟨_, hdone, hposted h⟩, fun h => ⟨_, hdone, hbusy h⟩⟩
    · have hfree : s0.wRelease who d = s0.mbxRelease d := if_pos hsender
      rw [hfree] at hrelease
      obtain ⟨hanswered, hbusy⟩ := State.mbxRelease_effect s0 hd
      exact ⟨fun h => ⟨_, hrelease, hanswered h⟩, fun h => ⟨_, hrelease, hbusy h⟩⟩
  · have hexec : exec (.mbxQPush who d w) s = .next (if d = 0 then State.mbxUnknown 66 (s0.mbxPush d w) else s0.mbxPush d w) := by
      change execMbxQPush who d w s = _
      rw [execMbxQPush, done, if_pos hd, State.mbxAccess_takes _ (by rw [mbxOff_mod] <;> decide) htakes, State.mbxWrite_push _ _ hd]
      exact congrArg _ (if_pos hsender)
    obtain ⟨hfull, hroom⟩ := State.mbxPush_effect (s := s0) hd w
    refine ⟨fun hlen h0 => ?_, fun hlen h0 hqs => ?_, fun h0 => ?_⟩
    · rw [if_neg h0] at hexec
      exact ⟨_, hexec, hfull hlen⟩
    · rw [if_neg h0] at hexec
      exact ⟨_, hexec, hroom hlen hqs⟩
    · subst h0
      exact ⟨_, hexec, rfl⟩
  · have hexec : exec (.mbxQPop who d n) s = .next (s0.mbxPop d (n % 128)) := by
      change execMbxQPop who d n s = _
      rw [execMbxQPop, done, if_pos hd, State.mbxAccess_takes _ (by rw [mbxOff_mod] <;> decide) htakes, State.mbxWrite_pop _ _ hd]
      exact congrArg _ (if_pos hreceiver)
    obtain ⟨hbad, hgood⟩ := State.mbxPop_effect (s := s0) hd (n % 128)
    exact ⟨fun h => ⟨_, hexec, hbad h⟩, fun h0 hle hqs => ⟨_, hexec, hgood h0 hle hqs⟩⟩
  · refine ⟨fun w idx v hno => ⟨_, rfl, ?_⟩, fun idx v hkeep hlow hhigh => ⟨⟨_, rfl, ?_⟩, ⟨_, rfl, ?_⟩⟩, ⟨_, rfl, rfl⟩⟩
    · refine if_pos ?_
      rcases hno with h | h | h
      · have hmode : State.mode { s with pins := { s.pins with mbxacc := true } } = Md.KEEP := h
        simp [hmode]
      · simp [h]
      · simp [h]
    all_goals
      have hmode : State.mode { s with pins := { s.pins with mbxacc := true } } ≠ Md.KEEP := hkeep
      refine (if_neg ?_).trans rfl
      simp [hmode, Nat.not_lt.mpr hlow, Nat.not_lt.mpr hhigh]
  · refine ⟨fun hoff => ⟨_, rfl, ?_⟩, fun hon hk => ⟨fun hdir => ⟨_, rfl, ?_⟩, fun hdir => ⟨_, rfl, ?_⟩⟩⟩
    · simp [hoff]
    · rw [if_neg (by simp [hon]), if_neg (by omega), if_neg (by omega), if_pos hdir]
    · rw [if_neg (by simp [hon]), if_neg (by omega), if_neg (by omega), if_neg (by omega), if_pos hdir]

end Sys2Proof.Machine
end

section
/-!
Requests that firmware serves (R495 to R497).
-/

namespace Sys2Proof.Machine

/-- A source without a request has nothing served. -/
theorem State.mbxServe_none {s : State} {via : Nat} (type : Nat) (f : MbxReq → State → State) (h : s.mbxFront via = none) :
    s.mbxServe via type f = s := by
  unfold State.mbxServe
  rw [h]
  exact ite_self s

/-- R496: the front request of the type is taken and served; requests of an unknown type that then stand in front are answered. -/
theorem State.mbxServe_front {s : State} {via type h : Nat} {r : MbxReq} {b : List Nat} (f : MbxReq → State → State)
    (hvia : via = 1 → s.blockServing = false) (hfront : s.mbxFront via = some r) (hwords : r.words = h :: b) (htype : hdrType h = type) :
    s.mbxServe via type f = State.mbxUnknown 66 (f r (s.mbxTake r)) := by
  have hfree : ¬(decide (via = 1) && s.blockServing) = true := by
    by_cases h1 : via = 1
    · simp [hvia h1]
    · simp [h1]
  unfold State.mbxServe
  rw [if_neg hfree, hfront]
  exact if_pos (by rw [hwords, List.headD_cons, htype])

/-- A body of the length that its header and its type say is served. -/
theorem State.withBody_fits (s : State) {r : MbxReq} {h lo hi : Nat} {b : List Nat} (f : List Nat → State) (hwords : r.words = h :: b)
    (hlen : hdrWords h = b.length) (hlo : lo ≤ b.length) (hhi : b.length ≤ hi) : s.withBody r lo hi f = f b := by
  simp [State.withBody, mbxBody, hwords, hlen, hlo, hhi]

/-- A body of another length is answered BAD_LENGTH. -/
theorem State.withBody_bad (s : State) {r : MbxReq} {h lo hi : Nat} {b : List Nat} (f : List Nat → State) (hwords : r.words = h :: b)
    (hbad : hdrWords h ≠ b.length ∨ b.length < lo ∨ hi < b.length) : s.withBody r lo hi f = s.mbxReply r 2 [] := by
  have hno : ¬(decide (hdrWords h = b.length) && decide (lo ≤ b.length) && decide (b.length ≤ hi)) = true := by
    rcases hbad with hb | hb | hb
    · simp [hb]
    · simp [Nat.not_le.mpr hb]
    · simp [Nat.not_le.mpr hb]
  simp only [State.withBody, mbxBody, hwords, if_neg hno]

/-- Table 17-3: what a LOG_READ of words within a known page answers. -/
theorem State.mbxLog_page {s : State} (r : MbxReq) {req : Nat} {page : List Nat} (hlow : 1 ≤ bits req 8 8) (hhigh : bits req 8 8 ≤ 62)
    (hoff : req / 2 ^ 16 % 8 = 0) (hopen : s.secLocked = false) (hpage : s.logPage (req % 256) = some page) :
    s.mbxLog r req = State.mbxReply { s with fresh := s.fresh + 2 } r 0 (pageWords page (req / 2 ^ 16) (bits req 8 8)) := by
  unfold State.mbxLog
  extract_lets lid n off
  have hgood : ¬(decide (n = 0) || decide (62 < n) || decide (off % 8 ≠ 0)) = true := by
    have hoff' : off % 8 = 0 := hoff
    simp [n, hoff', Nat.ne_of_gt hlow, hhigh]
  have hfree : ¬(s.secLocked && decide (s.dbgLevel = 0) && (decide (lid = 0xC1) || decide (lid = 0xC2))) = true := by simp [hopen]
  rw [if_neg hgood, if_neg hfree, hpage]

/-- A LOG_READ of no words, of too many, or from an offset that is not of whole words is answered BAD_LENGTH. -/
theorem State.mbxLog_bad (s : State) (r : MbxReq) {req : Nat} (hbad : bits req 8 8 = 0 ∨ 62 < bits req 8 8 ∨ req / 2 ^ 16 % 8 ≠ 0) :
    s.mbxLog r req = s.mbxReply r 2 [] := by
  unfold State.mbxLog
  extract_lets lid n off
  have hbad' : n = 0 ∨ 62 < n ∨ off % 8 ≠ 0 := hbad
  refine if_pos ?_
  rcases hbad' with h | h | h <;> simp [h]

/-- Settles O46: each request is served by `mbxServe_front`, with its body or without by `withBody_fits` and `withBody_bad`. -/
theorem mailboxRequests : Obligations.MailboxRequests := by
  unfold Obligations.MailboxRequests
  intro s via hvia
  refine ⟨fun hnone => ?_, fun r h b hfront hwords => ?_, fun n hnone => ⟨_, rfl, ?_⟩, fun n k r hfind => ⟨_, rfl, ?_⟩, fun hno => ⟨_, rfl, ?_⟩,
    fun h rest hqueue hready hshort => ⟨_, rfl, ?_⟩⟩
  · exact ⟨⟨_, rfl, State.mbxServe_none _ _ hnone⟩, ⟨_, rfl, State.mbxServe_none _ _ hnone⟩, ⟨_, rfl, State.mbxServe_none _ _ hnone⟩,
      ⟨_, rfl, State.mbxServe_none _ _ hnone⟩, ⟨_, rfl, State.mbxServe_none _ _ hnone⟩, ⟨_, rfl, State.mbxServe_none _ _ hnone⟩,
      ⟨_, rfl, State.mbxServe_none _ _ hnone⟩⟩
  · intro s1
    have hserve {type : Nat} (f : MbxReq → State → State) (htype : hdrType h = type) :
        s.mbxServe via type f = State.mbxUnknown 66 (f r s1) := State.mbxServe_front f hvia hfront hwords htype
    refine ⟨fun htype => ⟨fun hlen hmax => ⟨_, rfl, ?_⟩, fun hbad => ⟨_, rfl, ?_⟩⟩, fun htype hlen hone => ?_, fun htype hlen htwo => ?_,
      fun htype => ⟨fun hlen hone => ⟨_, rfl, ?_⟩, fun hbad => ⟨_, rfl, ?_⟩⟩,
      fun htype => ⟨fun hlen hnil => ⟨_, rfl, ?_⟩, fun hbad => ⟨_, rfl, ?_⟩⟩, fun htype hlen hlow hhigh hinner => ?_, fun htype hlen hone => ?_⟩
    · rw [hserve _ htype, State.withBody_fits _ _ hwords hlen (Nat.zero_le _) hmax]
    · rw [hserve _ htype, State.withBody_bad _ _ hwords (.inl hbad)]
    · intro a x
      refine ⟨fun hallowed => ⟨_, rfl, ?_⟩, fun hdenied => ⟨_, rfl, ?_⟩⟩
      · rw [hserve _ htype, State.withBody_fits _ _ hwords (by omega) (by omega) (by omega)]
        exact congrArg (State.mbxUnknown 66) (if_neg (Bool.eq_false_iff.mp hallowed))
      · rw [hserve _ htype, State.withBody_fits _ _ hwords (by omega) (by omega) (by omega)]
        exact congrArg (State.mbxUnknown 66) (if_pos hdenied)
    · intro a s2
      refine ⟨_, rfl, ?_⟩
      rw [hserve _ htype, State.withBody_fits _ _ hwords (by omega) (by omega) (by omega)]
    · rw [hserve _ htype, State.withBody_fits _ _ hwords (by omega) (by omega) (by omega)]
    · rw [hserve _ htype, State.withBody_bad _ _ hwords (by omega)]
    · rw [hserve _ htype, State.withBody_fits _ _ hwords (by simp [hlen, hnil]) (by omega) (by simp [hnil])]
    · rw [hserve _ htype, State.withBody_bad _ _ hwords (.inr (.inr (List.length_pos_iff.mpr hbad)))]
    · refine ⟨fun hno => ⟨_, rfl, ?_⟩, fun hup => ⟨_, rfl, ?_⟩⟩
      all_goals
        rw [hserve _ htype, State.withBody_fits _ _ hwords hlen hlow hhigh, if_pos hinner, State.mbxForward]
      · rw [if_pos (by simp [hno])]
      · rw [if_neg (by simp [hup])]
    · intro lid n
      have hbody (f : List Nat → State) : s1.withBody r 1 1 f = f b := State.withBody_fits _ _ hwords (by omega) (by omega) (by omega)
      refine ⟨fun hbad => ⟨_, rfl, ?_⟩, fun hlow hhigh hoff hopen page hpage => ⟨_, rfl, ?_⟩⟩
      · rw [hserve _ htype, hbody, State.mbxLog_bad _ _ hbad]
      · rw [hserve _ htype, hbody, State.mbxLog_page r hlow hhigh hoff hopen hpage]
  · simp [hnone]
  · simp [hfind]
  · rcases hno with hq | hoff | hwhole
    · rw [hq]
    · split
      · rfl
      · exact if_pos (by simp [hoff])
    · split
      · rfl
      · exact if_pos (by simp [Option.isSome_iff_ne_none.mpr hwhole])
  · rw [hqueue]
    exact if_neg (by simp [hready, hshort])

end Sys2Proof.Machine
end

section
/-!
The service DMA channels (R499 to R508, R517).
-/

namespace Sys2Proof.Machine

/-! ### Their registers -/

/-- Two registers of a channel, at other offsets of its block or at other bits, are two. -/
theorem sdmaKey_ne {f g : Nat → Field} (h : ∀ n < 8, (f n).key ≠ (g n).key) {n : Nat} (hn : n < 8) : (f n).key ≠ (g n).key := h n hn

/-- Every register of a channel is left by an event. -/
theorem sdmaKey_quiet {f : Nat → Field} (h : ∀ n < 8, quiet (f n).key = true) {n : Nat} (hn : n < 8) : quiet (f n).key = true := h n hn

/-- A write that reaches a channel's register, by a requester that the channel is not kept from. -/
theorem State.sdmaBy_takes {s : State} {who : Req} {n off : Nat} (hn : n < 8) (f : State → State) (htakes : (s.dropHeld who).takes who Pg.SDMA (sdmaReg n off))
    (hmay : 4 ≤ n ∨ who = .firmware) : s.sdmaBy who n off f = f (s.dropHeld who) := by
  rw [State.sdmaBy, if_neg (Nat.not_le.mpr hn), State.rwAction_takes _ htakes, if_neg]
  rcases hmay with h | h
  · simp [Nat.not_lt.mpr h]
  · simp [h]

/-- R499: a write by another requester of one of firmware's channels is denied. -/
theorem State.sdmaBy_denied {s : State} {who : Req} {n off : Nat} (hn : n < 4) (f : State → State) (htakes : (s.dropHeld who).takes who Pg.SDMA (sdmaReg n off))
    (hwho : who ≠ .firmware) :
    s.sdmaBy who n off f = ((s.dropHeld who).raise E.SYS_ACCESS_DENY).logAccess 2 true who (regAddr Pg.SDMA (sdmaReg n off)) := by
  rw [State.sdmaBy, if_neg (by omega), State.rwAction_takes _ htakes, if_pos (by simp [hn, hwho])]

/-! ### Starts (R503, R504, R507) -/

/-- What an error of a channel shows. -/
theorem State.sdmaError_shows (s : State) {n : Nat} (hn : n < 8) (code : Nat) :
    (s.sdmaError n code).get (F.SDMA_STATUS_RUN n) = 5 ∧ (s.sdmaError n code).get (F.SDMA_STATUS_ERR n) = code % 16 := by
  have hrun := sdmaKey_quiet (f := F.SDMA_STATUS_RUN) (by decide) hn
  have herr := sdmaKey_quiet (f := F.SDMA_STATUS_ERR) (by decide) hn
  have hne := sdmaKey_ne (f := F.SDMA_STATUS_RUN) (g := F.SDMA_STATUS_ERR) (by decide) hn
  have hrc := sdmaKey_ne (f := F.SDMA_STATUS_RUN) (g := fun _ => F.SDMA_ERRORS_COUNT) (by decide) hn
  have hec := sdmaKey_ne (f := F.SDMA_STATUS_ERR) (g := fun _ => F.SDMA_ERRORS_COUNT) (by decide) hn
  refine ⟨((State.raise_calm _ _).get _ hrun).trans ((State.get_inc_ne _ hrc).trans ?_),
    ((State.raise_calm _ _).get _ herr).trans ((State.get_inc_ne _ hec).trans ?_)⟩
  · exact (State.get_set_ne _ _ hne).trans (State.get_set_self _ _ _)
  · exact State.get_set_self _ _ _

/-- The state with a channel's transfer noted. -/
def State.withXfer (s : State) (n : Nat) (x : Xfer) : State := { s with sdma := { s.sdma with xfers := s.sdma.xfers.put n x } }

/-- R503, R507: a channel that takes a transfer runs, or enters PAUSED. -/
theorem State.sdmaTake_effect (s : State) {n : Nat} (hn : n < 8) (x : Xfer) :
    (s.get (F.SDMA_CTL_PAUSE n) = 0 → s.sdmaTake n x = (s.withXfer n x).set (F.SDMA_STATUS_RUN n) 1) ∧
    (s.get (F.SDMA_CTL_PAUSE n) = 1 → (s.sdmaTake n x).get (F.SDMA_STATUS_RUN n) = 2) := by
  have hrun := sdmaKey_quiet (f := F.SDMA_STATUS_RUN) (by decide) hn
  refine ⟨fun h0 => if_neg ?_, fun h1 => ?_⟩
  · change ¬s.get (F.SDMA_CTL_PAUSE n) = 1
    omega
  · have htake : s.sdmaTake n x = ((s.withXfer n x).set (F.SDMA_STATUS_RUN n) 2).raise (E.SDMA_PAUSED n) := if_pos h1
    rw [htake]
    exact ((State.raise_calm _ _).get _ hrun).trans (State.get_set_self _ _ _)

/-- The state of a start: the channel's owner, and no error yet. -/
def State.sdmaStarted (s : State) (who : Req) (n : Nat) : State := (s.set (F.SDMA_STATUS_OWNER n) (reqCode who)).set (F.SDMA_STATUS_ERR n) 0

theorem State.sdmaStarted_pause (s : State) (who : Req) {n : Nat} (hn : n < 8) :
    (s.sdmaStarted who n).get (F.SDMA_CTL_PAUSE n) = s.get (F.SDMA_CTL_PAUSE n) :=
  (State.get_set_ne _ _ (sdmaKey_ne (f := F.SDMA_CTL_PAUSE) (g := F.SDMA_STATUS_ERR) (by decide) hn)).trans
    (State.get_set_ne _ _ (sdmaKey_ne (f := F.SDMA_CTL_PAUSE) (g := F.SDMA_STATUS_OWNER) (by decide) hn))

/-- A channel that starts with a transfer and without PAUSE. -/
theorem State.sdmaStarted_runs (s : State) (who : Req) {n : Nat} (hn : n < 8) (x : Xfer) :
    let t := ((s.sdmaStarted who n).withXfer n x).set (F.SDMA_STATUS_RUN n) 1
    OnlyFields [F.SDMA_STATUS_OWNER n, F.SDMA_STATUS_ERR n, F.SDMA_STATUS_RUN n] { s with sdma := t.sdma } t ∧
      t.get (F.SDMA_STATUS_RUN n) = 1 ∧ t.get (F.SDMA_STATUS_OWNER n) = reqCode who ∧ t.get (F.SDMA_STATUS_ERR n) = 0 ∧
      t.sdma.xfers.find? n = some x := by
  intro t
  have hro := sdmaKey_ne (f := F.SDMA_STATUS_OWNER) (g := F.SDMA_STATUS_RUN) (by decide) hn
  have hre := sdmaKey_ne (f := F.SDMA_STATUS_ERR) (g := F.SDMA_STATUS_RUN) (by decide) hn
  have heo := sdmaKey_ne (f := F.SDMA_STATUS_OWNER) (g := F.SDMA_STATUS_ERR) (by decide) hn
  have hnoted (g : Field) : ((s.sdmaStarted who n).withXfer n x).get g = (s.sdmaStarted who n).get g := State.get_of_regs rfl g
  refine ⟨⟨rfl, fun g hg => ?_⟩, State.get_set_self _ _ _, ?_, ?_, Tbl.find?_put_self _ _ _⟩
  · simp only [List.map_cons, List.map_nil, List.mem_cons, List.not_mem_nil, or_false, not_or] at hg
    obtain ⟨howner, herr, hrun⟩ := hg
    calc t.get g = (s.sdmaStarted who n).get g := (State.get_set_ne _ _ hrun).trans (hnoted g)
      _ = s.get g := (State.get_set_ne _ _ herr).trans (State.get_set_ne _ _ howner)
      _ = _ := (State.get_of_regs rfl g).symm
  · refine (State.get_set_ne _ _ hro).trans ((hnoted _).trans ((State.get_set_ne _ _ heo).trans ((State.get_set_self _ _ _).trans ?_)))
    exact Nat.mod_eq_of_lt (reqCode_lt who)
  · exact (State.get_set_ne _ _ hre).trans ((hnoted _).trans (State.get_set_self _ _ _))

/-- A GO that finds its channel ready for a register transfer. -/
theorem State.sdmaGo_starts {s : State} (who : Req) {n : Nat} (hon : s.get (F.SDMA_STATUS_FSTATE n) = 2) (hmode : s.get (F.SDMA_CTL_MODE n) = 0)
    (hrun : s.get (F.SDMA_STATUS_RUN n) ∈ [0, 4, 5]) :
    let e := s.sdmaCheck who (s.get (F.SDMA_SRC_ADDR n)) (s.get (F.SDMA_DST_ADDR n)) (s.get (F.SDMA_COUNT_BYTES n))
    s.sdmaGo who n = if e ≠ 0 then (s.sdmaStarted who n).sdmaError n e
      else (s.sdmaStarted who n).sdmaTake n ⟨s.get (F.SDMA_COUNT_BYTES n), none, s.get (F.SDMA_CTL_SNOOP n) = 1, false⟩ := by
  have hfree : [0, 4, 5].contains (s.get (F.SDMA_STATUS_RUN n)) = true := List.contains_iff_mem.mpr hrun
  exact if_neg (by simp only [hon, hmode, hfree]; decide)

/-- A KICK that finds its channel ready for its ring. -/
theorem State.sdmaKick_starts {s : State} (who : Req) {n : Nat} (hon : s.get (F.SDMA_STATUS_FSTATE n) = 2) (hmode : s.get (F.SDMA_CTL_MODE n) = 1)
    (hrun : s.get (F.SDMA_STATUS_RUN n) ∈ [0, 3, 4, 5])
    (hring : s.ringCheck who (s.get (F.SDMA_DESC_BASE_ADDR n)) (s.get (F.SDMA_DESC_CFG_N n)) = 0) :
    s.sdmaKick who n = (s.sdmaStarted who n).sdmaTake n ⟨0, none, false, true⟩ := by
  have hfree : [0, 3, 4, 5].contains (s.get (F.SDMA_STATUS_RUN n)) = true := List.contains_iff_mem.mpr hrun
  exact (if_neg (by simp only [hon, hmode, hfree]; decide)).trans (if_neg (not_not_intro hring))

/-! ### Stops (R508) -/

/-- A stop leaves the channel STOPPING. -/
theorem State.sdmaStop_state {s : State} {n : Nat} (hn : n < 8) (hon : s.get (F.SDMA_STATUS_FSTATE n) = 2) :
    (s.sdmaStop n).get (F.SDMA_STATUS_FSTATE n) = 3 := by
  have hne := sdmaKey_ne (f := F.SDMA_STATUS_FSTATE) (g := F.SDMA_STATUS_RUN) (by decide) hn
  have hstop : s.sdmaStop n = ((s.sdmaKill n).set (F.SDMA_STATUS_FSTATE n) 3).set (F.SDMA_STATUS_RUN n) 0 := if_pos (by simp [hon])
  rw [hstop]
  exact (State.get_set_ne _ _ hne).trans (State.get_set_self _ _ _)

/-- A stop that completes leaves the channel OFF, or ON again where it was enabled meanwhile. -/
theorem State.sdmaStopComplete_effect {s : State} {n : Nat} (hn : n < 8) (hstop : s.get (F.SDMA_STATUS_FSTATE n) = 3) :
    Answers (.sdmaStopComplete n) s (fun t =>
      OnlyFields [F.SDMA_STATUS_FSTATE n, F.SDMA_STATUS_REENABLE_PENDING n, F.SDMA_STATUS_RUN n] s t ∧ t.get (F.SDMA_STATUS_RUN n) = 0 ∧
      (s.get (F.SDMA_STATUS_REENABLE_PENDING n) = 0 → t.get (F.SDMA_STATUS_FSTATE n) = 0) ∧
      (s.get (F.SDMA_STATUS_REENABLE_PENDING n) = 1 → s.ready Fn.SDMA = true → s.mode ≠ Md.SEAL → t.get (F.SDMA_STATUS_FSTATE n) = 2)) := by
  have hfr := sdmaKey_ne (f := F.SDMA_STATUS_FSTATE) (g := F.SDMA_STATUS_RUN) (by decide) hn
  have hfp := sdmaKey_ne (f := F.SDMA_STATUS_FSTATE) (g := F.SDMA_STATUS_REENABLE_PENDING) (by decide) hn
  have hstate (u : State) (v : Nat) (hv : v < 4) :
      (((u.set (F.SDMA_STATUS_FSTATE n) v).set (F.SDMA_STATUS_REENABLE_PENDING n) 0).set (F.SDMA_STATUS_RUN n) 0).get (F.SDMA_STATUS_FSTATE n) = v :=
    (State.get_set_ne _ _ hfr).trans ((State.get_set_ne _ _ hfp).trans ((State.get_set_self _ _ _).trans (Nat.mod_eq_of_lt hv)))
  refine ⟨_, rfl, ?_⟩
  rw [if_neg (by simp [hstop, hn])]
  refine ⟨(((OnlyFields.refl _ s).set (by simp) _).set (by simp) _).set (by simp) _, State.get_set_self _ _ _, fun h0 => ?_, fun h1 hready hmode => ?_⟩
  · rw [hstate _ _ (by split <;> decide)]
    exact if_neg (by simp [h0])
  · rw [hstate _ _ (by split <;> decide)]
    exact if_pos (by simp [h1, hready, hmode])

/-- Settles O47: starts by `sdmaGo_starts` and `sdmaKick_starts`, stops by `sdmaStop_state` and `sdmaStopComplete_effect`. -/
theorem sdmaChannels : Obligations.SdmaChannels := by
  unfold Obligations.SdmaChannels
  intro s n hn
  refine ⟨fun who en hlow hwho => ?_, fun who hmay => ?_, fun hno => ⟨_, rfl, if_pos (by simp [hno])⟩,
    fun hstop => State.sdmaStopComplete_effect hn hstop⟩
  · intro s0 denied
    exact ⟨fun htakes => ⟨⟨_, rfl, State.sdmaBy_denied hlow _ htakes hwho⟩, ⟨_, rfl, State.sdmaBy_denied hlow _ htakes hwho⟩,
      ⟨_, rfl, State.sdmaBy_denied hlow _ htakes hwho⟩⟩,
      fun htakes => ⟨⟨_, rfl, State.sdmaBy_denied hlow _ htakes hwho⟩, ⟨_, rfl, State.sdmaBy_denied hlow _ htakes hwho⟩⟩⟩
  · intro s0
    have hpause := s0.sdmaStarted_pause who hn
    refine ⟨fun htakes => ?_, fun htakes => ?_⟩
    · have hgo : exec (.sdmaGo who n) s = .next (s0.sdmaGo who n) := congrArg Host.Outcome.next (State.sdmaBy_takes hn _ htakes hmay)
      have hkick : exec (.sdmaKick who n) s = .next (s0.sdmaKick who n) := congrArg Host.Outcome.next (State.sdmaBy_takes hn _ htakes hmay)
      have hreset : exec (.sdmaRingReset who n) s = .next (s0.sdmaRingReset n) := congrArg Host.Outcome.next (State.sdmaBy_takes hn _ htakes hmay)
      refine ⟨fun hno => ⟨_, hgo, if_pos ?_⟩, fun hon hmode hrun => ?_, fun hon hmode hrun hring h0 => ⟨_, hkick, ?_⟩,
        fun hno => ⟨_, hkick, if_pos ?_⟩,
        fun hidle => ⟨_, hreset, if_pos (by simpa using hidle)⟩, fun hbusy => ⟨_, hreset, if_neg ?_⟩⟩
      · rcases hno with h | h | h
        · simp [h]
        · simp [h]
        · simp only [List.mem_cons, List.not_mem_nil, or_false] at h
          rcases h with h | h | h <;> simp [h]
      · have hstart := State.sdmaGo_starts who hon hmode hrun
        intro e
        refine ⟨fun hbad => ⟨_, hgo, ?_⟩, fun hgood h0 => ⟨_, hgo, ?_⟩, fun hgood h1 => ⟨_, hgo, ?_⟩⟩
        · have herror : s0.sdmaGo who n = (s0.sdmaStarted who n).sdmaError n e := hstart.trans (if_pos hbad)
          rw [herror]
          exact ⟨rfl, State.sdmaError_shows _ hn _⟩
        · rw [hstart.trans (if_neg (not_not_intro hgood)), ((s0.sdmaStarted who n).sdmaTake_effect hn _).1 (hpause.trans h0)]
          exact s0.sdmaStarted_runs who hn _
        · rw [hstart.trans (if_neg (not_not_intro hgood))]
          exact ((s0.sdmaStarted who n).sdmaTake_effect hn _).2 (hpause.trans h1)
      · rw [State.sdmaKick_starts who hon hmode hrun hring, ((s0.sdmaStarted who n).sdmaTake_effect hn _).1 (hpause.trans h0)]
        obtain ⟨-, hruns, howner, -, hnoted⟩ := s0.sdmaStarted_runs who hn ⟨0, none, false, true⟩
        exact ⟨hruns, hnoted, howner⟩
      · rcases hno with h | h | h
        · simp [h]
        · simp [h]
        · simp only [List.mem_cons, List.not_mem_nil, or_false] at h
          rcases h with h | h <;> simp [h]
      · simp only [List.mem_cons, List.not_mem_nil, or_false] at hbusy
        rcases hbusy with h | h | h <;> simp [h]
    · have hpauseTo (on : Bool) : exec (.sdmaPause who n on) s = .next (s0.sdmaPauseTo n on) :=
        congrArg Host.Outcome.next (State.sdmaBy_takes hn _ htakes hmay)
      have hen (en : Bool) : exec (.sdmaCtlEn who n en) s = .next (s0.sdmaEn n en) :=
        congrArg Host.Outcome.next (State.sdmaBy_takes hn _ htakes hmay)
      have hpr := sdmaKey_ne (f := F.SDMA_CTL_PAUSE) (g := F.SDMA_STATUS_RUN) (by decide) hn
      have hfr := sdmaKey_ne (f := F.SDMA_STATUS_FSTATE) (g := F.SDMA_STATUS_RUN) (by decide) hn
      have hfe := sdmaKey_ne (f := F.SDMA_STATUS_FSTATE) (g := F.SDMA_CTL_EN) (by decide) hn
      have hfp := sdmaKey_ne (f := F.SDMA_STATUS_FSTATE) (g := F.SDMA_STATUS_REENABLE_PENDING) (by decide) hn
      refine ⟨fun on hstop => ⟨_, hpauseTo on, if_pos hstop⟩, fun hstop => ⟨⟨_, hpauseTo true, if_neg hstop⟩,
        fun hpaused => ⟨_, hpauseTo false, ?_⟩⟩,
        fun hoff hready => ⟨_, hen true, ?_⟩, fun hon => ⟨_, hen false, ?_⟩, fun hstop => ⟨_, hen true, ?_⟩⟩
      · have hgoes : s0.sdmaPauseTo n false = (s0.set (F.SDMA_CTL_PAUSE n) 0).set (F.SDMA_STATUS_RUN n) 1 :=
          (if_neg hstop).trans (if_pos (by simp [hpaused]))
        rw [hgoes]
        exact ⟨State.get_set_self _ _ _, (State.get_set_ne _ _ hpr).trans (State.get_set_self _ _ _),
          ((OnlyFields.refl _ s0).set (by simp) _).set (by simp) _⟩
      · have hstarts : s0.sdmaEn n true = ((s0.set (F.SDMA_CTL_EN n) 1).set (F.SDMA_STATUS_FSTATE n) 2).set (F.SDMA_STATUS_RUN n) 0 := by
          unfold State.sdmaEn
          rw [hoff, hready]
          rfl
        rw [hstarts]
        exact ⟨(((OnlyFields.refl _ s0).set (by simp) _).set (by simp) _).set (by simp) _,
          (State.get_set_ne _ _ hfr).trans (State.get_set_self _ _ _), State.get_set_self _ _ _⟩
      · have hstops : s0.sdmaEn n false = (s0.set (F.SDMA_CTL_EN n) 0).sdmaStop n := by
          unfold State.sdmaEn
          rw [hon]
          rfl
        rw [hstops]
        exact ⟨rfl, State.sdmaStop_state hn ((State.get_set_ne _ _ hfe).trans hon)⟩
      · have hlater : s0.sdmaEn n true = (s0.set (F.SDMA_CTL_EN n) 1).set (F.SDMA_STATUS_REENABLE_PENDING n) 1 := by
          unfold State.sdmaEn
          rw [hstop]
          rfl
        rw [hlater]
        exact ⟨State.get_set_self _ _ _, (State.get_set_ne _ _ hfp).trans ((State.get_set_ne _ _ hfe).trans hstop)⟩

end Sys2Proof.Machine
end

section
/-!
How a transfer of the service DMA ends (R504 to R507, R517).
-/

namespace Sys2Proof.Machine

theorem ofBytes_lt (bs : List Nat) : ofBytes bs < 256 ^ bs.length := by
  induction bs with
  | nil => exact Nat.one_pos
  | cons b bs ih =>
    rw [ofBytes, List.length_cons, Nat.pow_succ]
    have := Nat.mod_lt b (show 0 < 256 by decide)
    omega

/-- A number of `n` bytes. -/
theorem numIn_lt (bs : List Nat) (off n : Nat) : numIn bs off n < 256 ^ n :=
  Nat.lt_of_lt_of_le (ofBytes_lt _) (Nat.pow_le_pow_right (by decide) (List.length_take_le _ _))

/-! ### The checks of a descriptor's transfer (R500, R501) -/

section
variable {s t : State} (hget : ∀ g : Field, keyPage g.key ≠ Pg.SDMA → t.get g = s.get g)
include hget

theorem State.dramOn_congr : t.dramOn = s.dramOn := by
  rw [State.dramOn, State.dramOn, State.ready_congr (hget _ (by decide)), State.isl_congr (hget _ (by decide))]

theorem State.sdmaInside_congr (a n : Nat) : t.sdmaInside a n = s.sdmaInside a n := by
  unfold State.sdmaInside State.dramSize
  rw [State.dramOn_congr hget, hget F.DRAMC_SIZE_BYTES (by decide)]

theorem State.secLocked_congr : t.secLocked = s.secLocked := by
  unfold State.secLocked State.secState
  rw [hget F.SEC_STATUS_STATE (by decide)]

theorem State.mayRead_congr : t.mayRead = s.mayRead := by
  funext who p off
  unfold State.mayRead State.dbgLevel
  rw [State.secLocked_congr hget, hget F.DBG_STATUS_LEVEL (by decide)]

theorem State.mayWrite_congr : t.mayWrite = s.mayWrite := by
  funext who p off
  unfold State.mayWrite State.dbgLevel State.mode State.secState
  rw [State.secLocked_congr hget, hget F.DBG_STATUS_LEVEL (by decide), hget F.SYS_MODE_CUR (by decide), hget F.SEC_STATUS_STATE (by decide)]

theorem State.sdmaMay_congr (who : Req) (write : Bool) (a n : Nat) : t.sdmaMay who write a n = s.sdmaMay who write a n := by
  unfold State.sdmaMay State.mode
  rw [State.mayRead_congr hget, State.mayWrite_congr hget, hget F.SYS_MODE_CUR (by decide)]

theorem State.sdmaReach_congr (hhost : t.host = s.host) (a : Nat) : t.sdmaReach a = s.sdmaReach a := by
  unfold State.sdmaReach
  rw [State.dramOn_congr hget, State.isl_congr (hget F.PWR_ISL_STATE_STATE (by decide)), hhost]

/-- The checks of a transfer read nothing of the channels. -/
theorem State.sdmaCheck_congr (hhost : t.host = s.host) (who : Req) (src dst n : Nat) : t.sdmaCheck who src dst n = s.sdmaCheck who src dst n := by
  simp only [State.sdmaCheck, State.sdmaInside_congr hget, State.sdmaMay_congr hget, State.sdmaReach_congr hget hhost]

end

/-! ### Descriptors (R504) -/

/-- A descriptor that is not owned leaves the channel in WAIT. -/
theorem State.sdmaLoad_waits {s : State} {n : Nat} {d : List Nat} (hown : bit (numIn d 20 1) 0 = false) :
    OnlyFields [F.SDMA_STATUS_RUN n] { s with sdma := (s.sdmaLoad n d).sdma } (s.sdmaLoad n d) ∧
      (s.sdmaLoad n d).get (F.SDMA_STATUS_RUN n) = 3 ∧ (s.sdmaLoad n d).sdma.xfers.find? n = none := by
  have hload : s.sdmaLoad n d = State.set { s with sdma := { s.sdma with xfers := s.sdma.xfers.del n } } (F.SDMA_STATUS_RUN n) 3 := by
    unfold State.sdmaLoad
    exact if_pos (by rw [hown]; rfl)
  rw [hload]
  exact ⟨State.set_only _ _ _, State.get_set_self _ _ _, Tbl.find?_del_self _ _⟩

/-- A descriptor that is owned, and passes its checks, loads its transfer. -/
theorem State.sdmaLoad_loads {s : State} {n : Nat} {d : List Nat} (hn : n < 8) (hown : bit (numIn d 20 1) 0 = true) (hctrl : numIn d 20 1 < 16)
    (hrest : numIn d 21 3 = 0) (hcnt : numIn d 16 4 ≠ 0)
    (hcheck : s.sdmaCheck (s.sdmaOwner n) (numIn d 0 8) (numIn d 8 8) (numIn d 16 4) = 0) :
    OnlyFields [F.SDMA_SRC_ADDR n, F.SDMA_DST_ADDR n, F.SDMA_COUNT_BYTES n] { s with sdma := (s.sdmaLoad n d).sdma } (s.sdmaLoad n d) ∧
      (s.sdmaLoad n d).get (F.SDMA_COUNT_BYTES n) = numIn d 16 4 ∧
      (s.sdmaLoad n d).sdma.xfers.find? n = some ⟨numIn d 16 4, some (numIn d 20 1), bit (numIn d 20 1) 3, false⟩ := by
  let s1 := ((s.set (F.SDMA_SRC_ADDR n) (numIn d 0 8)).set (F.SDMA_DST_ADDR n) (numIn d 8 8)).set (F.SDMA_COUNT_BYTES n) (numIn d 16 4)
  let x : Xfer := ⟨numIn d 16 4, some (numIn d 20 1), bit (numIn d 20 1) 3, false⟩
  have honly : OnlyFields [F.SDMA_SRC_ADDR n, F.SDMA_DST_ADDR n, F.SDMA_COUNT_BYTES n] s s1 :=
    (((OnlyFields.refl _ s).set (by simp) _).set (by simp) _).set (by simp) _
  have hnoted (g : Field) : (s1.withXfer n x).get g = s1.get g := State.get_of_regs rfl g
  have hpage (g : Field) (hg : keyPage g.key ≠ Pg.SDMA) : (s1.withXfer n x).get g = s.get g := by
    refine (hnoted g).trans (honly.2 g fun hmem => hg ?_)
    simp only [List.map_cons, List.map_nil, List.mem_cons, List.not_mem_nil, or_false] at hmem
    rcases hmem with h | h | h
    · rw [h]
      exact (by decide : ∀ n < 8, keyPage (F.SDMA_SRC_ADDR n).key = Pg.SDMA) n hn
    · rw [h]
      exact (by decide : ∀ n < 8, keyPage (F.SDMA_DST_ADDR n).key = Pg.SDMA) n hn
    · rw [h]
      exact (by decide : ∀ n < 8, keyPage (F.SDMA_COUNT_BYTES n).key = Pg.SDMA) n hn
  have howner : (s1.withXfer n x).sdmaOwner n = s.sdmaOwner n := by
    have h1 := sdmaKey_ne (f := F.SDMA_STATUS_OWNER) (g := F.SDMA_COUNT_BYTES) (by decide) hn
    have h2 := sdmaKey_ne (f := F.SDMA_STATUS_OWNER) (g := F.SDMA_DST_ADDR) (by decide) hn
    have h3 := sdmaKey_ne (f := F.SDMA_STATUS_OWNER) (g := F.SDMA_SRC_ADDR) (by decide) hn
    have hsame : (s1.withXfer n x).get (F.SDMA_STATUS_OWNER n) = s.get (F.SDMA_STATUS_OWNER n) :=
      (hnoted _).trans ((State.get_set_ne _ _ h1).trans ((State.get_set_ne _ _ h2).trans (State.get_set_ne _ _ h3)))
    rw [State.sdmaOwner, State.sdmaOwner, hsame]
  have hload : s.sdmaLoad n d = s1.withXfer n x := by
    have hgood : ¬(decide (16 ≤ numIn d 20 1) || decide (numIn d 21 3 ≠ 0) || decide (numIn d 16 4 = 0)) = true := by
      simp [Nat.not_le.mpr hctrl, hrest, hcnt]
    have hpasses : ¬(s1.withXfer n x).sdmaCheck ((s1.withXfer n x).sdmaOwner n) (numIn d 0 8) (numIn d 8 8) (numIn d 16 4) ≠ 0 := by
      rw [howner, State.sdmaCheck_congr hpage rfl, hcheck]
      exact not_not_intro rfl
    unfold State.sdmaLoad
    exact (if_neg (by rw [hown]; decide)).trans ((if_neg hgood).trans (if_neg hpasses))
  rw [hload]
  refine ⟨⟨rfl, fun g hg => (hnoted g).trans ((honly.2 g hg).trans (State.get_of_regs rfl g).symm)⟩, (hnoted _).trans ?_, Tbl.find?_put_self _ _ _⟩
  exact (State.get_set_self _ _ _).trans (Nat.mod_eq_of_lt (numIn_lt _ _ 4))

/-! ### Ends (R505 to R507) -/

/-- The transfer of a channel that runs one. -/
theorem State.sdmaLive_some {s : State} {n : Nat} {x : Xfer} (hn : n < 8) (hrun : s.get (F.SDMA_STATUS_RUN n) = 1)
    (hfind : s.sdma.xfers.find? n = some x) (hfetch : x.fetch = false) : s.sdmaLive n = some x := by
  simp [State.sdmaLive, hn, hrun, hfind, hfetch]

/-- A register transfer that is whole is DONE, and its event stands. -/
theorem State.sdmaFinish_done (s : State) {n : Nat} {x : Xfer} (hn : n < 8) (hdesc : x.desc = none) :
    (s.sdmaFinish n x).get (F.SDMA_STATUS_RUN n) = 4 ∧ (s.sdmaFinish n x).getBit (F.EVT_RAW Pg.SDMA) (E.SDMA_DONE n).bit = true := by
  have hrun := sdmaKey_quiet (f := F.SDMA_STATUS_RUN) (by decide) hn
  unfold State.sdmaFinish
  rw [hdesc]
  refine ⟨((State.raise_calm _ _).get _ hrun).trans (State.get_set_self _ _ _), State.raise_getBit _ ?_⟩
  simp only [E.SDMA_DONE]
  omega

/-- Settles O48: descriptors by `sdmaLoad_waits` and `sdmaLoad_loads`, ends by the answer of `sdmaMove`. -/
theorem sdmaTransfers : Obligations.SdmaTransfers := by
  unfold Obligations.SdmaTransfers
  intro s n hn
  refine ⟨fun hidle => ⟨fun ok bs => ⟨_, rfl, if_pos (by simp [hidle])⟩, fun m e bs => ⟨⟨_, rfl, ?_⟩, ⟨_, rfl, if_pos (by simp [hidle])⟩⟩⟩,
    fun x hrun hfind => ⟨fun hfetch hreach hspace bs => ?_, fun hfetch e m bs => ?_⟩⟩
  · have hlive : s.sdmaLive n = none := by simp [State.sdmaLive, hidle]
    rw [hlive]
  · have hexec (ok : Bool) : exec (.sdmaDescFetch n ok bs) s = .next (if ok then s.sdmaLoad n bs else s.sdmaError n 7) := by
      change execSdmaDescFetch n ok bs s = _
      simp only [execSdmaDescFetch, done, hrun, hfind, Option.any_some, hfetch, hreach, hspace, Nat.not_le.mpr hn]
      rfl
    exact ⟨⟨_, hexec false, rfl⟩, fun hown => ⟨_, hexec true, State.sdmaLoad_waits hown⟩, fun hown hctrl hrest hcnt hcheck =>
      ⟨_, hexec true, State.sdmaLoad_loads hn hown hctrl hrest hcnt hcheck⟩⟩
  · have hlive := State.sdmaLive_some hn hrun hfind hfetch
    intro reach
    refine ⟨fun hno => ⟨_, rfl, ?_⟩, fun hyes => ?_, fun hpause => ?_⟩
    · rw [hlive]
      exact if_pos hno
    · intro r
      have hexec : exec (.sdmaTransferEnd n e m bs) s = .next (if r.1 then r.2.sdmaError n 4 else if e ≠ 0 then r.2.sdmaError n (if e ≤ 7 then e else 5)
          else r.2.sdmaFinish n x) := by
        change execSdmaTransferEnd n e m bs s = _
        rw [execSdmaTransferEnd, done, hlive]
        exact congrArg Host.Outcome.next (if_neg (not_not_intro hyes))
      refine ⟨fun hbad => ⟨_, hexec, if_pos hbad⟩, fun hclean herr hle => ⟨_, hexec, ?_⟩, fun hclean hend => ⟨_, hexec, ?_⟩⟩
      · rw [if_neg (by simp [hclean]), if_pos herr, if_pos hle]
      · rw [if_neg (by simp [hclean]), if_neg (not_not_intro hend)]
        exact ⟨rfl, fun hdesc => State.sdmaFinish_done _ hn hdesc⟩
    · intro r hclean
      refine ⟨_, rfl, ?_⟩
      have hpaused : ¬(decide (8 ≤ n) || decide (s.get (F.SDMA_STATUS_RUN n) ≠ 1) || decide (s.get (F.SDMA_CTL_PAUSE n) = 0)) = true := by
        simp [hrun, hpause, hn]
      have hends : (if r.1 then r.2.sdmaError n 4 else (r.2.set (F.SDMA_STATUS_RUN n) 2).raise (E.SDMA_PAUSED n)) =
          (r.2.set (F.SDMA_STATUS_RUN n) 2).raise (E.SDMA_PAUSED n) := if_neg (by simp [hclean])
      rw [if_neg hpaused, hlive]
      refine ⟨hends, ?_⟩
      refine (congrArg (fun t : State => t.get (F.SDMA_STATUS_RUN n)) hends).trans ?_
      exact ((State.raise_calm _ _).get _ (sdmaKey_quiet (f := F.SDMA_STATUS_RUN) (by decide) hn)).trans (State.get_set_self _ _ _)

end Sys2Proof.Machine
end

section
/-!
Firmware download and commit, and the run of an update (R564 to R569, R572, R573, R576).
-/

namespace Sys2Proof.Machine

/-! ### The code store -/

/-- A memory whose cells at an address are all kept reads there as it did. -/
theorem Memory.read_filter {m : Memory} {p : Host.Cell → Bool} {a : Nat} (h : ∀ c ∈ m, c.1 = a → p c = true) : Memory.read (m.filter p) a = m.read a := by
  induction m with
  | nil => rfl
  | cons c m ih =>
    have ih' := ih fun c hc => h c (List.mem_cons_of_mem _ hc)
    obtain ⟨a', b⟩ := c
    by_cases ha : a' = a
    · have hp : p (a', b) = true := h _ List.mem_cons_self ha
      rw [List.filter_cons_of_pos hp, Memory.read, Memory.read, if_pos ha, if_pos ha]
    · cases hp : p (a', b) <;> simp [List.filter_cons, hp, Memory.read, ha, ih']

/-- The bytes of the code store are what the store and its touched sectors say. -/
theorem State.norByte_congr {s t : State} (h : t.nv.store = s.nv.store) (h' : t.nv.touched = s.nv.touched) (b : Nat) : t.norByte b = s.norByte b := by
  unfold State.norByte State.factory
  rw [h, h']

/-- R554: an erase leaves every byte of another sector. -/
theorem State.norErase_norByte (s : State) {sec b : Nat} (hb : b / 65536 ≠ sec) : (s.norErase sec).norByte b = s.norByte b := by
  have htouched : (s.norErase sec).nv.touched.contains (b / 65536) = s.nv.touched.contains (b / 65536) := by
    simp only [State.norErase]
    split
    · simp [hb]
    · rfl
  have hstore : (s.norErase sec).nv.store.read b = s.nv.store.read b := by
    refine Memory.read_filter fun c _ hc => ?_
    rw [hc]
    simpa using hb
  unfold State.norByte State.factory
  rw [htouched, hstore]

/-- An erased sector holds nothing of what it held at manufacture. -/
theorem State.norErase_factory (s : State) (sec : Nat) : (s.norErase sec).factory sec = false := by
  cases hf : factorySector sec with
  | false => simp [State.factory, hf]
  | true =>
    by_cases hc : sec ∈ s.nv.touched
    · simp [State.factory, State.norErase, hf, hc]
    · simp [State.factory, State.norErase, hf, hc]

/-- Bytes written at the front of a sector that holds nothing of manufacture. -/
theorem State.norWrite_eq {s : State} {sec : Nat} (bs : List Nat) (hf : s.factory sec = false) : s.norWrite (sec * 65536) bs =
    { s with nv := { s.nv with store := s.nv.store.writeBytes (sec * 65536) (bs.map (fun b => 255 - b % 256)) } } := by
  have hsec : sec * 65536 / 65536 = sec := Nat.mul_div_cancel _ (by decide)
  simp only [State.norWrite, hsec, hf, Bool.false_eq_true, if_false]

/-- They leave every byte of another sector. -/
theorem State.norWrite_norByte {s : State} {sec b : Nat} {bs : List Nat} (hf : s.factory sec = false) (hlen : bs.length ≤ 65536)
    (hb : b / 65536 ≠ sec) : (s.norWrite (sec * 65536) bs).norByte b = s.norByte b := by
  have hread : (s.norWrite (sec * 65536) bs).nv.store.read b = s.nv.store.read b := by
    rw [State.norWrite_eq bs hf]
    exact Memory.read_writeBytes_out _ _ (by rw [List.length_map]; omega)
  have htouched : (s.norWrite (sec * 65536) bs).nv.touched = s.nv.touched := by rw [State.norWrite_eq bs hf]
  unfold State.norByte State.factory
  rw [hread, htouched]

/-- The erases of a sector are counted. -/
theorem State.countNorErase_nv (s : State) (sec : Nat) :
    (s.countNorErase sec).nv = { s.nv with storeEc := s.nv.storeEc.put sec (min (s.nv.storeEc.get sec 0 + 1) (2 ^ 32 - 1)) } :=
  (State.raiseIf_calm _ _ _).nv

/-- Writing a sector leaves what the journal says of updates. -/
theorem State.stageSector_upd (s : State) (sec : Nat) (bs : List Nat) : (s.stageSector sec bs).nv.upd = s.nv.upd := by
  have hcount : (s.countNorErase sec).nv.upd = s.nv.upd := by rw [State.countNorErase_nv]
  rw [State.stageSector, State.addSat_nv, State.norWrite_eq bs (State.norErase_factory _ _)]
  exact hcount

/-- Writing a sector changes no other. -/
theorem State.stageSector_norByte (s : State) {sec b : Nat} {bs : List Nat} (hlen : bs.length ≤ 65536) (hb : b / 65536 ≠ sec) :
    (s.stageSector sec bs).norByte b = s.norByte b := by
  have hcount (u : State) : (u.addSat F.CODE_OPS_PROGRAMS 256).norByte b = u.norByte b :=
    State.norByte_congr (by rw [State.addSat_nv]) (by rw [State.addSat_nv]) b
  rw [State.stageSector, hcount, State.norWrite_norByte (State.norErase_factory _ _) hlen hb, State.norErase_norByte _ hb]
  exact State.norByte_congr (by rw [State.countNorErase_nv]) (by rw [State.countNorErase_nv]) b

/-! ### Firmware commands (R564 to R569) -/

/-- R569: checks that let the command pass count nothing. -/
theorem State.fwJudge_passes {s : State} {id : Cid} {pre post : List (Bool × Why)} (f : State → State) (h : Passes (pre ++ post)) :
    s.fwJudge id pre post f = f s := by
  have hnone : (pre ++ post).find? (fun w => w.1) = none := by
    rw [List.find?_eq_none]
    intro w hw
    simp [h w hw]
  unfold State.fwJudge
  rw [hnone]
  exact State.judge_passes f h

/-- R569: a check that refuses for LOCKED, for supply or for energy is counted. -/
theorem State.fwJudge_fails {s : State} {id : Cid} {pre post : List (Bool × Why)} {w : Bool × Why} (f : State → State)
    (h : (pre ++ post).find? (fun w => w.1) = some w) :
    s.fwJudge id pre post f = (if w.2.2.1 = 0x83 ∨ w.2.2.1 = 0x8D then s.inc F.UPD_REFUSALS_COUNT else s).reject id w.2 := by
  unfold State.fwJudge
  rw [h]
  refine (State.judge_fails f h).trans ?_
  simp only [Bool.or_eq_true, decide_eq_true_eq]

/-- Checks that pass are skipped. -/
theorem find?_append_of_passes {pre : List (Bool × Why)} (post : List (Bool × Why)) (h : Passes pre) :
    (pre ++ post).find? (fun w => w.1) = post.find? (fun w => w.1) := by
  have hnone : pre.find? (fun w => w.1) = none := by
    rw [List.find?_eq_none]
    intro w hw
    simp [h w hw]
  rw [List.find?_append, hnone, Option.none_or]

theorem passes_append {pre post : List (Bool × Why)} : Passes (pre ++ post) ↔ Passes pre ∧ Passes post := List.forall_mem_append

/-- A mark is read back. -/
theorem State.markStaged_isStaged (s : State) {i : Nat} (hi : i < 128) : (s.markStaged i true).isStaged i = true := by
  by_cases hlow : i < 64
  · rw [State.isStaged, State.markStaged, if_pos hlow, if_pos hlow]
    exact State.getBit_setBitTo_self s true hlow
  · rw [State.isStaged, State.markStaged, if_neg hlow, if_neg hlow]
    exact State.getBit_setBitTo_self s true (show i - 64 < 64 by omega)

/-- A parcel that lands leaves the slot in use, and is marked. -/
theorem State.takeParcel_effect (s : State) (off : Nat) (p : List Nat) :
    (s.takeParcel off p).nv.upd.active = s.nv.upd.active ∧ (off / 65536 < 128 → (s.takeParcel off p).isStaged (off / 65536) = true) := by
  unfold State.takeParcel
  extract_lets s2 s1
  have hactive : s1.nv.upd.active = s.nv.upd.active := by
    have hs2 : s2.nv.upd.active = s.nv.upd.active := by
      simp only [s2]
      split <;> rfl
    simp only [s1]
    split
    · exact hs2
    · rfl
  have hmark (u : State) (i : Nat) : (u.markStaged i true).nv = u.nv := by
    unfold State.markStaged
    split <;> rfl
  have hraise := State.raise_calm ((s1.stageSector (256 + off / 65536) p).markStaged (off / 65536) true) E.UPD_PARCEL_OK
  refine ⟨?_, fun hi => ?_⟩
  · rw [hraise.nv, hmark, State.stageSector_upd, hactive]
  · refine Eq.trans ?_ (State.markStaged_isStaged (s1.stageSector (256 + off / 65536) p) hi)
    rw [State.isStaged, State.isStaged, State.getBit_congr (hraise.get _ (by decide)), State.getBit_congr (hraise.get _ (by decide))]

/-- Settles O51: what the checks let through is carried out (`fwJudge_passes`), what they refuse is counted (`fwJudge_fails`). -/
theorem firmwareCommands : Obligations.FirmwareCommands := by
  unfold Obligations.FirmwareCommands
  intro s id hfetch s0
  refine ⟨fun numd ofst bytes hwhole hnumd hofst hsrc => ?_, fun fs ca hfs hca hsrc hpass => ?_, fun off p => s0.takeParcel_effect off p⟩
  · have hadmin := hostAdminOnly_admin hsrc
    have hpre : Passes [hostAdminOnly id, badField (false || (numd + 1) * 4 % 65536 ≠ 0 || 16 * 65536 < (numd + 1) * 4 || ofst * 4 % 65536 ≠ 0)] := by
      have hmax : ¬16 * 65536 < (numd + 1) * 4 := by omega
      simp only [passes_cons, passes_nil, and_true, badField, hadmin, hwhole, hofst, hmax, ne_eq, not_true_eq_false, decide_false, Bool.or_self]
    refine ⟨fun hpass => ⟨_, rfl, ?_⟩, fun w hw => ⟨_, rfl, ?_⟩⟩
    · rw [State.arrive_fetches _ hfetch]
      refine (State.fwJudge_passes _ (passes_append.mpr ⟨hpre, hpass⟩)).trans ?_
      split
      · next s1 heq => simp only [s0, heq, if_true]
      · next s1 heq => simp only [s0, heq, Bool.false_eq_true, if_false]
    · rw [State.arrive_fetches _ hfetch]
      exact State.fwJudge_fails _ ((find?_append_of_passes _ hpre).trans hw)
  · intro slot
    let post : List (Bool × Why) := [(2 < fs || (ca < 2 && slot = s0.nv.upd.active), (1, 0x06, 0)), (ca = 3 && s0.inTransition, (7, 0x81, s0.mode))]
    have hexec : exec (.firmwareCommit id fs ca false) s = .next (s0.fwJudge id [hostAdminOnly id, badField (false || 3 < ca)]
        (s0.fwChecks (ca = 3) ++ post) (fun s => s.commit id ca slot)) := by
      change execFirmwareCommit id fs ca false s = _
      rw [execFirmwareCommit, done, State.arrive_fetches _ hfetch]
    have hpre : Passes [hostAdminOnly id, badField (false || 3 < ca)] := by
      simp [badField, hostAdminOnly_admin hsrc, hca]
    have hrefused (hlow : ca < 2) (hactive : slot = s0.nv.upd.active) :
        Answers (.firmwareCommit id fs ca false) s (fun t => t = s0.reject id (1, 0x06, 0)) := by
      refine ⟨_, hexec, (State.fwJudge_fails (w := (true, (1, 0x06, 0))) _ ?_).trans (by simp)⟩
      rw [find?_append_of_passes _ hpre, find?_append_of_passes _ hpass]
      simp [post, hlow, hactive]
    have hjudged (hslot : ca < 2 → slot ≠ s0.nv.upd.active) (htrans : ca = 3 → s0.inTransition = false) :
        exec (.firmwareCommit id fs ca false) s = .next (s0.commit id ca slot) := by
      refine hexec.trans (congrArg Host.Outcome.next (State.fwJudge_passes _ (passes_append.mpr ⟨hpre, passes_append.mpr ⟨hpass, ?_⟩⟩)))
      have hfirst : (decide (2 < fs) || (decide (ca < 2) && decide (slot = s0.nv.upd.active))) = false := by
        by_cases hlow : ca < 2
        · simp [hfs, hslot hlow]
        · simp [hfs, hlow]
      have hsecond : (decide (ca = 3) && s0.inTransition) = false := by
        by_cases h3 : ca = 3
        · simp [htrans h3]
        · simp [h3]
      simp only [post, passes_cons, passes_nil, and_true, hfirst, hsecond, and_self]
    refine ⟨hrefused, fun hlow hother => ?_, fun h2 hactive => ?_, fun h2 hother hvalid => ?_, fun h3 hother htrans img himg => ?_⟩
    · have hexec := hjudged (fun _ => hother) (by omega)
      refine ⟨fun img himg => ⟨_, hexec, ?_⟩, fun e he => ⟨_, hexec, ?_⟩⟩
      · rw [State.commit, if_pos hlow, himg]
      · rw [State.commit, if_pos hlow, he]
    · refine ⟨_, hjudged (by omega) (by omega), ?_⟩
      rw [State.commit, if_neg (by omega), if_pos hactive]
    · refine ⟨_, hjudged (by omega) (by omega), ?_⟩
      rw [State.commit, if_neg (by omega), if_neg hother, if_pos h2, if_pos hvalid]
    · refine ⟨_, hjudged (by omega) (fun _ => htrans), ?_⟩
      rw [State.commit, if_neg (by omega), if_neg hother, if_neg (by omega), himg]

/-! ### The run of an update (R572, R573, R576) -/

/-- What every copy of a sector leaves: the slot in use, and every byte of another sector. -/
def State.CopyKeeps (s : State) (sec : Nat) (t : State) : Prop :=
  t.nv.upd.active = s.nv.upd.active ∧ ∀ b, b / 65536 ≠ sec → t.norByte b = s.norByte b

/-- A copy of a sector and what only the journal says of it leaves the other sectors. -/
theorem State.copySector_keeps {s s1 t : State} {sec : Nat} {bs : List Nat} (hlen : bs.length ≤ 65536) (hs1 : s.stageSector sec bs = s1)
    (hactive : t.nv.upd.active = s.nv.upd.active) (hstore : t.nv.store = s1.nv.store) (htouched : t.nv.touched = s1.nv.touched) :
    s.CopyKeeps sec t := by
  subst hs1
  exact ⟨hactive, fun b hb => (State.norByte_congr hstore htouched b).trans (State.stageSector_norByte s hlen hb)⟩

/-- A copied sector that verifies is journaled. -/
theorem State.copied_effect {s s1 t : State} {k sec : Nat} {bs : List Nat} (hlen : bs.length ≤ 65536) (hs1 : s.stageSector sec bs = s1)
    (ht : t.nv = (s1.updTo (fun u => { u with copied := u.copied ++ [k], tries := 0 })).nv) :
    s.CopyKeeps sec t ∧ t.nv.upd.copied = s.nv.upd.copied ++ [k] ∧ t.nv.upd.tries = 0 ∧ t.nv.upd.pending = s.nv.upd.pending := by
  have hupd : s1.nv.upd = s.nv.upd := by rw [← hs1, State.stageSector_upd]
  refine ⟨State.copySector_keeps hlen hs1 ?_ ?_ ?_, ?_, ?_, ?_⟩
  all_goals rw [ht]
  · exact (congrArg Upd.active hupd :)
  · rfl
  · rfl
  · exact (congrArg (fun u : Upd => u.copied ++ [k]) hupd :)
  · rfl
  · exact (congrArg Upd.pending hupd :)

/-- A first or second failure is counted. -/
theorem State.copyRetry_effect {s s1 : State} {sec : Nat} {bs : List Nat} (hlen : bs.length ≤ 65536) (hs1 : s.stageSector sec bs = s1) :
    let t := s1.updTo (fun u => { u with tries := u.tries + 1 })
    s.CopyKeeps sec t ∧ t.nv.upd.copied = s.nv.upd.copied ∧ t.nv.upd.tries = s.nv.upd.tries + 1 := by
  have hupd : s1.nv.upd = s.nv.upd := by rw [← hs1, State.stageSector_upd]
  exact ⟨State.copySector_keeps hlen hs1 (congrArg Upd.active hupd :) rfl rfl, (congrArg Upd.copied hupd :),
    (congrArg (fun u : Upd => u.tries + 1) hupd :)⟩

/-- A third failure ends the update. -/
theorem State.copyFailed_effect {s s1 : State} {sec : Nat} {bs : List Nat} (hlen : bs.length ≤ 65536) (hs1 : s.stageSector sec bs = s1) :
    let t := ((s1.updTo (fun u => { u with pending := 0, tries := 0, failed := true })).set F.UPD_STATUS_LAST_FAIL 8).set F.UPD_STATUS_PHASE 2
    s.CopyKeeps sec t ∧ t.nv.upd.pending = 0 ∧ t.get F.UPD_STATUS_LAST_FAIL = 8 ∧ t.get F.UPD_STATUS_PHASE = 2 := by
  have hupd : s1.nv.upd = s.nv.upd := by rw [← hs1, State.stageSector_upd]
  exact ⟨State.copySector_keeps hlen hs1 (congrArg Upd.active hupd :) rfl rfl, rfl,
    (State.get_set_ne _ _ (by decide)).trans (State.get_set_self _ _ _), State.get_set_self _ _ _⟩

/-- What a step of the copy does with the sector that is next. -/
theorem exec_updateCopySector {s s1 : State} {k : Nat} (ok : Bool) (hmode : s.mode = Md.UPDATE) (hphase : s.get F.UPD_STATUS_PHASE = 1)
    (hk : s.nextCopy = some k)
    (hs1 : s.stageSector (128 * s.nv.upd.target + k) ((List.range 65536).map (fun i => s.updImage.getD (65536 * k + i) 255)) = s1) :
    exec (.updateCopySector ok) s = .next (
      if ok then
        let s2 := (s1.updTo (fun u => { u with copied := u.copied ++ [k], tries := 0 })).raise E.UPD_COPY_DONE
        if s2.nextCopy.isNone then s2.set F.UPD_STATUS_PHASE 2 else s2
      else if s.nv.upd.tries < 2 then s1.updTo (fun u => { u with tries := u.tries + 1 })
      else ((s1.updTo (fun u => { u with pending := 0, tries := 0, failed := true })).set F.UPD_STATUS_LAST_FAIL 8).set F.UPD_STATUS_PHASE 2) := by
  change execUpdateCopySector ok s = _
  rw [execUpdateCopySector, done, if_neg (by simp [hmode, hphase]), hk, ← hs1]

/-- A step of the copy, by its outcome: journaled, tried again, or the end of the update. -/
theorem State.updateCopySector_answers {s : State} {k : Nat} (hmode : s.mode = Md.UPDATE) (hphase : s.get F.UPD_STATUS_PHASE = 1) (hk : s.nextCopy = some k) :
    let sec := 128 * s.nv.upd.target + k
    Answers (.updateCopySector true) s (fun t => s.CopyKeeps sec t ∧ t.nv.upd.copied = s.nv.upd.copied ++ [k] ∧ t.nv.upd.tries = 0 ∧
      t.nv.upd.pending = s.nv.upd.pending) ∧
    (s.nv.upd.tries < 2 → Answers (.updateCopySector false) s (fun t => s.CopyKeeps sec t ∧ t.nv.upd.copied = s.nv.upd.copied ∧
      t.nv.upd.tries = s.nv.upd.tries + 1)) ∧
    (2 ≤ s.nv.upd.tries → Answers (.updateCopySector false) s (fun t => s.CopyKeeps sec t ∧ t.nv.upd.pending = 0 ∧
      t.get F.UPD_STATUS_LAST_FAIL = 8 ∧ t.get F.UPD_STATUS_PHASE = 2)) := by
  intro sec
  obtain ⟨bs, hbs⟩ : ∃ bs, bs = (List.range 65536).map (fun i => s.updImage.getD (65536 * k + i) 255) := ⟨_, rfl⟩
  obtain ⟨s1, hs1⟩ : ∃ s1, s.stageSector sec bs = s1 := ⟨_, rfl⟩
  have hlen : bs.length ≤ 65536 := Nat.le_of_eq (by rw [hbs, List.length_map, List.length_range])
  have hexec (ok : Bool) := exec_updateCopySector ok hmode hphase hk (hbs ▸ hs1)
  clear hbs
  refine ⟨⟨_, hexec true, State.copied_effect hlen hs1 ?_⟩, fun htries => ⟨_, ?_, State.copyRetry_effect hlen hs1⟩,
    fun htries => ⟨_, ?_, State.copyFailed_effect hlen hs1⟩⟩
  · have hnv (u : State) : (if u.nextCopy.isNone then u.set F.UPD_STATUS_PHASE 2 else u).nv = u.nv := by split <;> rfl
    rw [if_pos rfl, hnv, (State.raise_calm _ E.UPD_COPY_DONE).nv]
  · rw [hexec false, if_neg Bool.false_ne_true, if_pos htries]
  · rw [hexec false, if_neg Bool.false_ne_true, if_neg (Nat.not_lt.mpr htries)]

/-- Settles O52: a copied sector by `updateCopySector_answers`, the switch case by case. -/
theorem updateRuns : Obligations.UpdateRuns := by
  unfold Obligations.UpdateRuns
  intro s
  refine ⟨fun hno ok => ⟨_, rfl, if_pos (by rcases hno with h | h <;> simp [h])⟩, fun hmode hphase => ⟨fun hnone ok => ⟨_, rfl, ?_⟩, fun k hk => ?_⟩,
    fun hno => ⟨_, rfl, if_pos (by rcases hno with h | h <;> simp [h])⟩, fun hmode hphase => ?_⟩
  · rw [if_neg (by simp [hmode, hphase]), hnone]
  · exact State.updateCopySector_answers hmode hphase hk
  · intro s1
    have hon : ¬(decide (s.mode ≠ Md.UPDATE) || decide (s.get F.UPD_STATUS_PHASE ≠ 2)) = true := by simp [hmode, hphase]
    refine ⟨fun h0 => ⟨_, rfl, ?_⟩, fun h0 hbad => ⟨_, rfl, ?_⟩, fun h1 hvalid => ⟨_, rfl, ?_⟩, fun h2 hvalid => ⟨_, rfl, ?_⟩⟩
    all_goals rw [if_neg hon]
    · exact congrArg (fun s : State => (s.set F.UPD_STATUS_PHASE 3).resetTrigger 4 0x03) (if_pos h0)
    · refine congrArg (fun s : State => (s.set F.UPD_STATUS_PHASE 3).resetTrigger 4 0x03) ((if_neg h0).trans (if_pos ?_))
      rw [hbad]
      rfl
    · refine congrArg (fun s : State => (s.set F.UPD_STATUS_PHASE 3).resetTrigger 4 0x03)
        ((if_neg (by omega)).trans ((if_neg ?_).trans (if_pos h1)))
      rw [hvalid]
      decide
    · refine congrArg (fun s : State => (s.set F.UPD_STATUS_PHASE 3).resetTrigger 4 0x03)
        ((if_neg (by omega)).trans ((if_neg ?_).trans (if_neg (by omega))))
      rw [hvalid]
      decide

end Sys2Proof.Machine
end

section
/-!
The accessory serial ports: what enters the receive FIFO, what is sent and when, and the writes of a port's registers (R618 to R625).
-/

namespace Sys2Proof.Machine

/-! ### A port of the state -/

theorem State.uart_congr {s t : State} (h : t.aser = s.aser) (n : Nat) : t.uart n = s.uart n := by
  rw [State.uart, State.uart, h]

theorem State.uart_setUart_self {s : State} {n : Nat} (p : AserPort) (hn : n < s.aser.length) : (s.setUart n p).uart n = p := by
  simp [State.uart, State.setUart, hn]

theorem State.uart_setUart_ne (s : State) {n m : Nat} (p : AserPort) (h : m ≠ n) : (s.setUart n p).uart m = s.uart m := by
  simp [State.uart, State.setUart, List.getD_eq_getElem?_getD, List.getElem?_set_ne h.symm]

/-- Whether capture takes a port is said by the takes and by the registers of FRAME. -/
theorem State.captures_congr {s t : State} (hts : t.map.ts = s.map.ts) (hget : ∀ g : Field, quiet g.key = true → keyPage g.key = Pg.FRAME → t.get g = s.get g)
    (n : Nat) : t.captures n = s.captures n := by
  have hstream : t.capStream = s.capStream := hget _ (by decide) (by decide)
  have hen : t.get (if n = 0 then F.FRAME_ACAP_EN0 else F.FRAME_ACAP_EN1) = s.get (if n = 0 then F.FRAME_ACAP_EN0 else F.FRAME_ACAP_EN1) := by
    split
    · exact hget _ (by decide) (by decide)
    · exact hget _ (by decide) (by decide)
  unfold State.captures State.takeOf
  rw [hts, hstream, hen]

/-! ### The receive FIFO (R623) -/

/-- An entry that finds room and no capture enters with its time. -/
theorem State.rxEntry_room {s : State} {n : Nat} (data flags : Nat) (hcap : s.captures n = false) (hroom : (s.uart n).rx.length < 64) :
    Calm quiet (s.setUart n { s.uart n with
      rx := (s.uart n).rx ++ [⟨data, flags + (if (s.uart n).lost then 8 else 0), s.tb % 2 ^ 48⟩], lost := false }) (s.rxEntry n data flags) := by
  unfold State.rxEntry
  rw [hcap, if_neg Bool.false_ne_true, if_neg (Nat.not_le.mpr hroom)]
  exact State.raiseIf_calm _ _ _

/-- One that finds the FIFO full is lost and counted. -/
theorem State.rxEntry_full {s : State} {n : Nat} (data flags : Nat) (hcap : s.captures n = false) (hfull : 64 ≤ (s.uart n).rx.length) :
    Calm quiet ((s.setUart n { s.uart n with lost := true }).inc (F.ASER_RX_STAT_OVERRUN n)) (s.rxEntry n data flags) := by
  unfold State.rxEntry
  rw [hcap, if_neg Bool.false_ne_true, if_pos hfull]
  exact State.raise_calm _ _

/-- What a character and a break leave before their entry: what `feedQuiet` says, but for the ports' page. -/
def charQuiet (k : Nat) : Bool := feedQuiet k && keyPage k ≠ Pg.ASER

theorem charQuiet_feed (k : Nat) (h : charQuiet k = true) : feedQuiet k = true := (Bool.and_eq_true_iff.mp h).1

theorem aser_keys {n : Nat} (hn : n < 2) :
    (charQuiet (F.ASER_RX_STAT_FRAMING n).key = false ∧ keyOff (F.ASER_RX_STAT_FRAMING n).key ≠ 0x20) ∧
    (charQuiet (F.ASER_BREAKS_COUNT n).key = false ∧ keyOff (F.ASER_BREAKS_COUNT n).key ≠ 0x20) ∧
    feedQuiet (F.ASER_RX_STAT_FRAMING n).key = true ∧ feedQuiet (F.ASER_BREAKS_COUNT n).key = true ∧ feedQuiet (F.ASER_RX_STAT_OVERRUN n).key = true := by
  obtain rfl | rfl := cases_lt_two hn <;> decide

/-- A state whose ports, takes and time are left captures, and stamps, as before. -/
theorem State.captures_calm {s t : State} (h : Calm charQuiet s t) (n : Nat) : t.captures n = s.captures n := by
  have hts : t.map.ts = s.map.ts := (congrArg (fun s : State => s.map.ts) h.rest :)
  refine State.captures_congr hts (fun g hq hp => h.get g ?_) n
  simp [charQuiet, feedQuiet, hq, hp, Pg.FRAME, Pg.CRCU, Pg.ASER]

/-- A character is counted where its stop bit is low, and fed to the check-value units. -/
theorem State.character_calm (s : State) {n : Nat} (hn : n < 2) (f : Bool) (d : Nat) :
    let s2 := (if f then (s.inc (F.ASER_RX_STAT_FRAMING n)).raise (E.ASER_FRAMING n) else s).crcuFeed (2 + n) 0 [d]
    Calm charQuiet s s2 ∧ s2.get (F.ASER_RX_STAT_FRAMING n) =
      (if f then min (s.get (F.ASER_RX_STAT_FRAMING n) + 1) 65535 else s.get (F.ASER_RX_STAT_FRAMING n)) := by
  obtain ⟨⟨hframing, hoff⟩, -, hfeed, -, -⟩ := aser_keys hn
  intro s2
  have hcalm := State.crcuFeed_calm (if f then (s.inc (F.ASER_RX_STAT_FRAMING n)).raise (E.ASER_FRAMING n) else s) (2 + n) 0 [d]
  refine ⟨Calm.trans ?_ (hcalm.mono charQuiet_feed), (hcalm.get _ hfeed).trans ?_⟩
  · exact Calm.ite ((Calm.set _ hframing hoff).trans ((State.raise_feedCalm _ _).mono charQuiet_feed)) (Calm.refl s)
  · cases f
    · rfl
    · exact ((State.raise_feedCalm _ _).get _ hfeed).trans (State.get_inc_self s _)

/-! ### The transmitter -/

theorem State.txStart_empty {s : State} {n : Nat} (h : (s.uart n).tx = []) : s.txStart n = s := by
  simp only [State.txStart, h]
  split <;> simp_all

theorem State.txStart_busy {s : State} {n : Nat} (h : (s.uart n).busy.isSome = true) : s.txStart n = s := by
  obtain ⟨b, hb⟩ := Option.isSome_iff_exists.mp h
  simp only [State.txStart, hb]

/-- Without EN, or with a break asked for, no character starts. -/
theorem State.txStart_off {s : State} {n : Nat} (h : s.get (F.ASER_CTL_EN n) ≠ 1 ∨ s.get (F.ASER_CTL_SEND_BREAK n) ≠ 0) : s.txStart n = s := by
  have hoff : (s.get (F.ASER_CTL_EN n) = 1 && s.get (F.ASER_CTL_SEND_BREAK n) = 0) = false := by
    rcases h with h | h <;> simp [h]
  unfold State.txStart
  extract_lets p
  split
  · rw [hoff, if_neg Bool.false_ne_true]
  · rfl

/-- The front character starts on a port that is enabled and free. -/
theorem State.txStart_next {s : State} {n b : Nat} {rest : List Nat} (hbusy : (s.uart n).busy = none) (htx : (s.uart n).tx = b :: rest)
    (hen : s.get (F.ASER_CTL_EN n) = 1) (hbrk : s.get (F.ASER_CTL_SEND_BREAK n) = 0) :
    s.txStart n = s.setUart n { s.uart n with busy := some b, tx := rest } := by
  simp [State.txStart, hbusy, htx, hen, hbrk]

/-- A start leaves what has been sent. -/
theorem State.txStart_sent {s : State} {n : Nat} (hn : n < s.aser.length) : ((s.txStart n).uart n).sent = (s.uart n).sent := by
  unfold State.txStart
  extract_lets p
  split
  · split
    · rw [State.uart_setUart_self _ hn]
    · rfl
  · rfl

/-! ### The writes of CFG -/

/-- A write of CFG of good values while the port is off gives its five fields those values. -/
theorem State.uartCfg_effect {s : State} {n v : Nat} (hn : n < 2) (hoff : s.get (F.ASER_CTL_EN n) ≠ 1) (hpar : bits v 26 2 < 3)
    (hlow : 333 ≤ bits v 0 22) (hhigh : bits v 0 22 ≤ 208334) (hbrk : frameBits v < bits v 32 6) :
    OnlyFields [F.ASER_CFG_STOP2 n, F.ASER_CFG_DATA7 n, F.ASER_CFG_PARITY n, F.ASER_CFG_DIVQ6 n, F.ASER_CFG_BREAK_BITS n] s (s.uartCfg n v) ∧
      (s.uartCfg n v).get (F.ASER_CFG_DIVQ6 n) = bits v 0 22 ∧ (s.uartCfg n v).get (F.ASER_CFG_PARITY n) = bits v 26 2 ∧
      (s.uartCfg n v).get (F.ASER_CFG_DATA7 n) = bits v 24 1 ∧ (s.uartCfg n v).get (F.ASER_CFG_STOP2 n) = bits v 28 1 ∧
      (s.uartCfg n v).get (F.ASER_CFG_BREAK_BITS n) = bits v 32 6 := by
  have heq : s.uartCfg n v = ((((s.set (F.ASER_CFG_STOP2 n) (bits v 28 1)).set (F.ASER_CFG_DATA7 n) (bits v 24 1)).set (F.ASER_CFG_PARITY n)
      (bits v 26 2)).set (F.ASER_CFG_DIVQ6 n) (bits v 0 22)).set (F.ASER_CFG_BREAK_BITS n) (bits v 32 6) := by
    simp [State.uartCfg, hoff, hpar, hlow, hhigh, hbrk]
  have hmod {lo w : Nat} : bits v lo w % 2 ^ w = bits v lo w := Nat.mod_mod _ _
  rw [heq]
  refine ⟨(((((OnlyFields.refl _ s).set (by simp) _).set (by simp) _).set (by simp) _).set (by simp) _).set (by simp) _, ?_, ?_, ?_, ?_, ?_⟩
  all_goals obtain rfl | rfl := cases_lt_two hn <;> simp (disch := decide) only [State.get_set_ne, State.get_set_self] <;> exact hmod

/-! ### The ports -/

/-- What an entry that finds room leaves, after what a character or a break does before it. -/
theorem State.rxEntry_enters {s s2 : State} {n : Nat} (data flags : Nat) (hpre : Calm charQuiet s s2) (hn : n < s.aser.length)
    (hcap : s.captures n = false) (hroom : (s.uart n).rx.length < 64) :
    ((s2.rxEntry n data flags).uart n).rx = (s.uart n).rx ++ [⟨data, flags + (if (s.uart n).lost then 8 else 0), s.tb % 2 ^ 48⟩] ∧
      ((s2.rxEntry n data flags).uart n).lost = false ∧ ((s2.rxEntry n data flags).uart n).tx = (s.uart n).tx ∧
      (∀ m, m ≠ n → (s2.rxEntry n data flags).uart m = s.uart m) ∧ ∀ g : Field, quiet g.key = true → (s2.rxEntry n data flags).get g = s2.get g := by
  have hport := State.uart_congr hpre.aser n
  have hcalm := State.rxEntry_room data flags ((State.captures_calm hpre n).trans hcap) (hport ▸ hroom)
  rw [hport, hpre.tb] at hcalm
  have hself := (State.uart_congr hcalm.aser n).trans (State.uart_setUart_self _ (hpre.aser ▸ hn))
  exact ⟨(congrArg AserPort.rx hself :), (congrArg AserPort.lost hself :), (congrArg AserPort.tx hself :),
    fun m hm => (State.uart_congr hcalm.aser m).trans ((State.uart_setUart_ne _ _ hm).trans (State.uart_congr hpre.aser m)), hcalm.get⟩

/-- What a lost entry leaves. -/
theorem State.rxEntry_loses {s s2 : State} {n : Nat} (data flags : Nat) (hpre : Calm charQuiet s s2) (hn : n < s.aser.length)
    (hcap : s.captures n = false) (hfull : 64 ≤ (s.uart n).rx.length) (hkey : quiet (F.ASER_RX_STAT_OVERRUN n).key = true) :
    ((s2.rxEntry n data flags).uart n).rx = (s.uart n).rx ∧ ((s2.rxEntry n data flags).uart n).lost = true ∧
      (s2.rxEntry n data flags).get (F.ASER_RX_STAT_OVERRUN n) = min (s2.get (F.ASER_RX_STAT_OVERRUN n) + 1) 65535 := by
  have hport := State.uart_congr hpre.aser n
  have hcalm := State.rxEntry_full data flags ((State.captures_calm hpre n).trans hcap) (hport ▸ hfull)
  have hself := (State.uart_congr hcalm.aser n).trans (State.uart_setUart_self _ (hpre.aser ▸ hn))
  exact ⟨(congrArg AserPort.rx hself :).trans (congrArg AserPort.rx hport :), (congrArg AserPort.lost hself :),
    (hcalm.get _ hkey).trans (State.get_inc_self _ _)⟩

/-- What a port sends next, after the character it was sending. -/
theorem State.txSent_effect {s s1 : State} {n b : Nat} (hn : n < 2) (hlen : n < s.aser.length)
    (hs1 : s1 = s.setUart n { s.uart n with busy := none, sent := (s.uart n).sent ++ [b] }) :
    let t := (s1.txStart n).raiseIf ((s.uart n).tx = []) (E.ASER_TX_EMPTY n)
    (t.uart n).sent = (s.uart n).sent ++ [b] ∧
      ((s.uart n).tx = [] → (t.uart n).busy = none ∧ t.getBit (F.EVT_RAW Pg.ASER) (E.ASER_TX_EMPTY n).bit = true) ∧
      (∀ c rest, (s.uart n).tx = c :: rest → s.get (F.ASER_CTL_EN n) = 1 → s.get (F.ASER_CTL_SEND_BREAK n) = 0 →
        (t.uart n).busy = some c ∧ (t.uart n).tx = rest) := by
  intro t
  have hself : s1.uart n = { s.uart n with busy := none, sent := (s.uart n).sent ++ [b] } := hs1 ▸ State.uart_setUart_self _ hlen
  have hlen1 : n < s1.aser.length := by
    rw [hs1]
    simpa [State.setUart] using hlen
  have ht : t.uart n = (s1.txStart n).uart n := State.uart_congr (State.raiseIf_calm _ _ _).aser n
  refine ⟨?_, fun htx => ⟨?_, ?_⟩, fun c rest htx hen hbrk => ?_⟩
  · rw [ht, State.txStart_sent hlen1, hself]
  · rw [ht, State.txStart_empty (by rw [hself]; exact htx), hself]
  · simp only [t, htx, State.raiseIf, decide_true, if_true]
    exact State.raise_getBit _ (show 8 * n + 4 < 64 by omega)
  · have hget (f : Field) : s1.get f = s.get f := by rw [hs1]; rfl
    have hnext := State.txStart_next (s := s1) (n := n) (b := c) (rest := rest) (by rw [hself]) (by rw [hself]; exact htx) ((hget _).trans hen)
      ((hget _).trans hbrk)
    rw [ht, hnext, State.uart_setUart_self _ hlen1]
    exact ⟨rfl, rfl⟩

/-- A push of a character: refused where the FIFO is full, queued behind one that is sent, or sent at once. -/
theorem State.txPush_effect {s : State} {n : Nat} (d : Nat) (hlen : n < s.aser.length) :
    (64 ≤ (s.uart n).tx.length → s.txPush n d = s.inc (F.ASER_TX_STAT_REFUSED n)) ∧
    ((s.uart n).tx.length < 64 → (s.uart n).busy.isSome = true → s.txPush n d = { s with aser := (s.txPush n d).aser } ∧
      ((s.txPush n d).uart n).tx = (s.uart n).tx ++ [d % 256] ∧ ((s.txPush n d).uart n).busy = (s.uart n).busy) ∧
    ((s.uart n).tx = [] → (s.uart n).busy = none → s.get (F.ASER_CTL_EN n) = 1 → s.get (F.ASER_CTL_SEND_BREAK n) = 0 →
      s.txPush n d = { s with aser := (s.txPush n d).aser } ∧ ((s.txPush n d).uart n).busy = some (d % 256) ∧ ((s.txPush n d).uart n).tx = []) := by
  have hself := State.uart_setUart_self { s.uart n with tx := (s.uart n).tx ++ [d % 256] } hlen
  refine ⟨fun hfull => if_neg (Nat.not_lt.mpr hfull), fun hroom hbusy => ?_, fun htx hbusy hen hbrk => ?_⟩
  · have heq : s.txPush n d = s.setUart n { s.uart n with tx := (s.uart n).tx ++ [d % 256] } :=
      (if_pos hroom).trans (State.txStart_busy (by rw [hself]; exact hbusy))
    rw [heq]
    exact ⟨rfl, (congrArg AserPort.tx hself :), (congrArg AserPort.busy hself :)⟩
  · have hlen1 : n < (s.setUart n { s.uart n with tx := (s.uart n).tx ++ [d % 256] }).aser.length := by simpa [State.setUart] using hlen
    have heq : s.txPush n d = (s.setUart n { s.uart n with tx := (s.uart n).tx ++ [d % 256] }).setUart n _ :=
      (if_pos (by rw [htx]; decide)).trans (State.txStart_next (by rw [hself]; exact hbusy) (by rw [hself, htx]; rfl) hen hbrk)
    rw [heq, State.uart_setUart_self _ hlen1]
    exact ⟨rfl, rfl, rfl⟩

/-- Settles O57: what enters by `rxEntry_enters` and `rxEntry_loses`, what is sent by `txSent_effect` and `txPush_effect`, CFG by `uartCfg_effect`. -/
theorem serialPorts : Obligations.SerialPorts := by
  unfold Obligations.SerialPorts
  intro s n hn hlen
  have hn' : n < s.aser.length := hlen ▸ hn
  obtain ⟨-, ⟨hbreaks, hbreaksOff⟩, hframing, hbreaksFeed, hoverrun⟩ := aser_keys hn
  refine ⟨fun hoff => ⟨fun d f p => ⟨_, rfl, ?_⟩, ⟨_, rfl, ?_⟩⟩, fun hon hcap => ?_, fun hbusy => ⟨_, rfl, ?_⟩,
    fun b hbusy => ⟨_, rfl, ?_⟩, fun who => ?_⟩
  · simp [hoff]
  · simp [hoff]
  · intro lost
    have hon' : ¬(!s.uartOn n) = true := by simp [hon]
    refine ⟨fun hroom => ⟨⟨_, rfl, ?_⟩, fun d f p => ⟨_, rfl, ?_⟩⟩, fun hfull d p => ⟨_, rfl, ?_⟩⟩
    · rw [if_neg hon']
      have hpre : Calm charQuiet s ((s.inc (F.ASER_BREAKS_COUNT n)).raise (E.ASER_BREAK n)) :=
        (Calm.set _ hbreaks hbreaksOff).trans ((State.raise_feedCalm _ _).mono charQuiet_feed)
      obtain ⟨hrx, hlost, htx, -, hget⟩ := State.rxEntry_enters 0 4 hpre hn' hcap hroom
      refine ⟨hrx, hlost, htx, (hget _ (feedQuiet_quiet _ hbreaksFeed)).trans ?_⟩
      exact ((State.raise_feedCalm _ _).get _ hbreaksFeed).trans (State.get_inc_self s _)
    · rw [if_neg hon']
      obtain ⟨hpre, hcount⟩ := s.character_calm hn f (d % (if s.get (F.ASER_CFG_DATA7 n) = 1 then 128 else 256))
      obtain ⟨hrx, hlost, -, hother, hget⟩ := State.rxEntry_enters _ _ hpre hn' hcap hroom
      exact ⟨hrx, hlost, hother _ (by omega), (hget _ (feedQuiet_quiet _ hframing)).trans hcount⟩
    · rw [if_neg hon']
      obtain ⟨hpre, -⟩ := s.character_calm hn false (d % (if s.get (F.ASER_CFG_DATA7 n) = 1 then 128 else 256))
      obtain ⟨hrx, hlost, hcount⟩ := State.rxEntry_loses _ _ hpre hn' hcap hfull (feedQuiet_quiet _ hoverrun)
      refine ⟨hrx, hlost, hcount.trans (congrArg (fun c => min (c + 1) 65535) ?_)⟩
      exact (State.crcuFeed_calm s _ _ _).get _ hoverrun
  · rw [hbusy]
  · rw [hbusy]
    exact State.txSent_effect hn hn' rfl
  · intro s0
    have hn0 : n < s0.aser.length := (s.dropHeld_calm who : Calm quiet s s0).aser ▸ hn'
    refine ⟨fun htakes d => ?_, fun htakes k hk => ⟨_, rfl, ?_⟩, fun htakes => ?_, fun htakes v => ?_⟩
    · obtain ⟨hfull, hbusy, hfree⟩ := State.txPush_effect d hn0
      have hexec : exec (.txPush who n d) s = .next (s0.txPush n d) :=
        congrArg Host.Outcome.next ((if_pos hn).trans (State.rwAction_takes _ htakes))
      exact ⟨fun h => ⟨_, hexec, hfull h⟩, fun h h' => ⟨_, hexec, hbusy h h'⟩, fun h h' he hb => ⟨_, hexec, hfree h h' he hb⟩⟩
    · rw [if_pos hn, State.rwAction_takes _ htakes, State.rxPop, Nat.mod_eq_of_lt hk]
      have hself := State.uart_setUart_self { s0.uart n with rx := (s0.uart n).rx.drop k } hn0
      exact ⟨rfl, (congrArg AserPort.rx hself :), (congrArg AserPort.tx hself :), State.uart_setUart_ne _ _ (by omega)⟩
    · refine ⟨⟨_, rfl, ?_⟩, ⟨_, rfl, ?_⟩, ⟨_, rfl, ?_⟩, ⟨_, rfl, ?_⟩⟩
      all_goals rw [if_pos hn, State.rwAction_takes _ htakes]
      · refine State.txStart_off (Or.inr ?_)
        rw [State.get_set_self]
        exact Nat.one_ne_zero
      · rfl
      · refine State.txStart_off (Or.inl ?_)
        rw [State.get_set_self]
        exact Nat.zero_ne_one
      · rfl
    · have hexec : exec (.uartCfgWrite who n v) s = .next (s0.uartCfg n v) :=
        congrArg Host.Outcome.next ((if_pos hn).trans (State.rwAction_takes _ htakes))
      exact ⟨fun hen => ⟨_, hexec, if_pos hen⟩, fun hen hpar hlow hhigh hbrk => ⟨_, hexec, State.uartCfg_effect hn hen hpar hlow hhigh hbrk⟩⟩

end Sys2Proof.Machine
end

section
/-!
The LTC reader and the timecode generator (R612 to R616).
-/

namespace Sys2Proof.Machine

/-! ### What each step of the reader leaves -/

theorem State.get_tcBoundary (s : State) (g : Field) : s.tcBoundary.get g = s.get g := rfl

theorem State.get_raise (s : State) (e : Ev) {g : Field} (h : quiet g.key = true) : (s.raise e).get g = s.get g := (s.raise_calm e).get g h

theorem State.jam_get_ne (s : State) (a r b p : Nat) {g : Field} (haddr : g.key ≠ F.TIME_GEN_ADDR_ADDR.key) (hper : g.key ≠ F.TIME_PERIOD_TICKS_Q8.key) :
    (s.jam a r b p).get g = s.get g := by
  rw [State.jam, State.get_set_ne _ _ hper, State.get_set_ne _ _ haddr]
  rfl

theorem State.jam_get_addr (s : State) (a r b p : Nat) : (s.jam a r b p).get F.TIME_GEN_ADDR_ADDR = a % 2 ^ 32 := by
  rw [State.jam, State.get_set_ne _ _ (by decide)]
  exact State.get_set_self _ _ _

/-- An unlock of a reader that is locked. -/
theorem State.ltcUnlock_locked {s : State} (h : s.get F.TIME_STATUS_LTC_LOCK = 1) :
    s.ltcUnlock = (((s.set F.TIME_STATUS_LTC_LOCK 0).set F.TIME_STATUS_GEN_FREE 1).inc F.TIME_LTC_STAT_LOCK_LOSS).raise E.TIME_LTC_UNLOCK :=
  if_neg (by omega)

/-- What an unlock leaves of the fields, beside its own three. -/
theorem State.ltcUnlock_get {s : State} {g : Field} (hq : quiet g.key = true) (hlock : g.key ≠ F.TIME_STATUS_LTC_LOCK.key)
    (hfree : g.key ≠ F.TIME_STATUS_GEN_FREE.key) (hloss : g.key ≠ F.TIME_LTC_STAT_LOCK_LOSS.key) : s.ltcUnlock.get g = s.get g := by
  unfold State.ltcUnlock
  split
  · rfl
  · rw [State.get_raise _ _ hq, State.get_inc_ne _ hloss, State.get_set_ne _ _ hfree, State.get_set_ne _ _ hlock]

/-- An unlock: LOCK falls, the generator runs free, the loss is counted and reported. -/
theorem State.ltcUnlock_effect {s : State} (h : s.get F.TIME_STATUS_LTC_LOCK = 1) :
    s.ltcUnlock.get F.TIME_STATUS_LTC_LOCK = 0 ∧ s.ltcUnlock.get F.TIME_STATUS_GEN_FREE = 1 ∧
      s.ltcUnlock.get F.TIME_LTC_STAT_LOCK_LOSS = min (s.get F.TIME_LTC_STAT_LOCK_LOSS + 1) 65535 ∧
      s.ltcUnlock.getBit (F.EVT_RAW Pg.TIME) E.TIME_LTC_UNLOCK.bit = true := by
  rw [State.ltcUnlock_locked h]
  refine ⟨?_, ?_, ?_, State.raise_getBit _ (by decide)⟩
  · rw [State.get_raise _ _ (by decide), State.get_inc_ne _ (by decide), State.get_set_ne _ _ (by decide)]
    exact State.get_set_self _ _ _
  · rw [State.get_raise _ _ (by decide), State.get_inc_ne _ (by decide)]
    exact State.get_set_self _ _ _
  · rw [State.get_raise _ _ (by decide), State.get_inc_self, State.get_set_ne _ _ (by decide), State.get_set_ne _ _ (by decide)]
    rfl

/-! ### A valid frame, case by case (R612 to R615) -/

/-- The registers of a frame that is read. -/
def State.ltcRead (s : State) (addr user boundary : Nat) : State :=
  (((s.inc F.TIME_LTC_STAT_FRAMES_OK).set F.TIME_LTC_ADDR_ADDR addr).set F.TIME_LTC_USER_BITS user).set F.TIME_LTC_TB_TB boundary

/-- A frame waits for the one that follows it. -/
def State.ltcWait (s : State) (addr rate : Nat) : State := { s with tim := { s.tim with cand := some (addr, rate), periods := [] } }

section
variable {s : State} {addr rate user boundary period : Nat}

theorem State.ltcValid_unlocks (hlock : s.get F.TIME_STATUS_LTC_LOCK = 1) (hrate : rate ≠ s.get F.TIME_STATUS_LTC_RATE) :
    s.ltcValid addr rate user boundary period = (s.ltcRead addr user boundary).ltcUnlock.ltcWait addr rate := by
  rw [State.ltcValid, if_pos hlock, if_pos hrate]
  rfl

theorem State.ltcValid_follows (hlock : s.get F.TIME_STATUS_LTC_LOCK = 1) (hrate : rate = s.get F.TIME_STATUS_LTC_RATE) :
    s.ltcValid addr rate user boundary period =
      ((if addr ≠ tcNext rate (s.get F.TIME_LTC_ADDR_ADDR) then (s.ltcRead addr user boundary).inc F.TIME_LTC_STAT_JUMPS
        else s.ltcRead addr user boundary).jam addr rate boundary period).tcBoundary := by
  rw [State.ltcValid, if_pos hlock, if_neg (not_not_intro hrate)]
  rfl

/-- The reader as two frames that follow one another leave it. -/
def State.ltcLock (s : State) (rate : Nat) : State :=
  let s1 := (((s.set F.TIME_STATUS_LTC_LOCK 1).set F.TIME_STATUS_LTC_RATE rate).set F.TIME_STATUS_GEN_FREE 0).raise E.TIME_LTC_LOCK
  { s1 with tim := { s1.tim with cand := none } }

theorem State.ltcValid_locks {a : Nat} (hlock : s.get F.TIME_STATUS_LTC_LOCK ≠ 1) (hcand : s.tim.cand = some (a, rate)) (hnext : addr = tcNext rate a) :
    s.ltcValid addr rate user boundary period = (((s.ltcRead addr user boundary).ltcLock rate).jam addr rate boundary period).tcBoundary := by
  simp only [State.ltcValid, hlock, hcand, ← hnext, decide_true, Bool.and_self, if_true, if_false]
  rfl

theorem State.ltcValid_waits (hlock : s.get F.TIME_STATUS_LTC_LOCK ≠ 1) (hcand : ∀ x, s.tim.cand = some x → x.2 ≠ rate ∨ addr ≠ tcNext rate x.1) :
    s.ltcValid addr rate user boundary period = (s.ltcRead addr user boundary).ltcWait addr rate := by
  unfold State.ltcValid
  extract_lets prev s1 wait
  rw [if_neg hlock]
  split
  · next a r hx =>
    have hno : ¬(decide (r = rate) && decide (addr = tcNext rate a)) = true := by
      rcases hcand _ hx with h | h <;> simp [h]
    exact if_neg hno
  · rfl

end

/-- A frame that is read shows its address, its user bits and its boundary, and is counted; another field is left. -/
theorem State.ltcRead_get_ne (s : State) (addr user boundary : Nat) {g : Field} (hok : g.key ≠ F.TIME_LTC_STAT_FRAMES_OK.key)
    (ha : g.key ≠ F.TIME_LTC_ADDR_ADDR.key) (hu : g.key ≠ F.TIME_LTC_USER_BITS.key) (hb : g.key ≠ F.TIME_LTC_TB_TB.key) :
    (s.ltcRead addr user boundary).get g = s.get g := by
  rw [State.ltcRead, State.get_set_ne _ _ hb, State.get_set_ne _ _ hu, State.get_set_ne _ _ ha, State.get_inc_ne _ hok]

/-- What a lock leaves of the fields. -/
theorem State.ltcLock_get_ne (s : State) (rate : Nat) {g : Field} (hq : quiet g.key = true) (hlock : g.key ≠ F.TIME_STATUS_LTC_LOCK.key)
    (hfree : g.key ≠ F.TIME_STATUS_GEN_FREE.key) (hrate : g.key ≠ F.TIME_STATUS_LTC_RATE.key) : (s.ltcLock rate).get g = s.get g := by
  refine (State.get_raise _ _ hq).trans ?_
  rw [State.get_set_ne _ _ hfree, State.get_set_ne _ _ hrate, State.get_set_ne _ _ hlock]

/-- A lock: LOCK rises at the frames' rate, and the generator no longer runs free. -/
theorem State.ltcLock_effect (s : State) (rate : Nat) : (s.ltcLock rate).get F.TIME_STATUS_LTC_LOCK = 1 ∧
    (s.ltcLock rate).get F.TIME_STATUS_GEN_FREE = 0 ∧ (s.ltcLock rate).get F.TIME_STATUS_LTC_RATE = rate % 8 := by
  refine ⟨(State.get_raise _ _ (by decide)).trans ?_, (State.get_raise _ _ (by decide)).trans ?_, (State.get_raise _ _ (by decide)).trans ?_⟩
  all_goals simp (disch := decide) only [State.get_set_ne, State.get_set_self]
  all_goals rfl

/-- The four registers of a frame stand apart from those of the lock and of the generator. -/
theorem ltc_keys : ∀ g ∈ [F.TIME_LTC_ADDR_ADDR, F.TIME_LTC_USER_BITS, F.TIME_LTC_TB_TB, F.TIME_LTC_STAT_FRAMES_OK],
    quiet g.key = true ∧ g.key ≠ F.TIME_STATUS_LTC_LOCK.key ∧ g.key ≠ F.TIME_STATUS_GEN_FREE.key ∧ g.key ≠ F.TIME_LTC_STAT_LOCK_LOSS.key ∧
      g.key ≠ F.TIME_STATUS_LTC_RATE.key ∧ g.key ≠ F.TIME_GEN_ADDR_ADDR.key ∧ g.key ≠ F.TIME_PERIOD_TICKS_Q8.key ∧
      g.key ≠ F.TIME_LTC_STAT_JUMPS.key := by
  decide

/-- The four registers of a frame keep what was read, whatever follows. -/
theorem State.ltcValid_keeps (s : State) (addr rate user boundary period : Nat) {g : Field}
    (hg : g ∈ [F.TIME_LTC_ADDR_ADDR, F.TIME_LTC_USER_BITS, F.TIME_LTC_TB_TB, F.TIME_LTC_STAT_FRAMES_OK]) :
    (s.ltcValid addr rate user boundary period).get g = (s.ltcRead addr user boundary).get g := by
  obtain ⟨hq, hlock, hfree, hloss, hlrate, haddr, hper, hjumps⟩ := ltc_keys g hg
  by_cases h1 : s.get F.TIME_STATUS_LTC_LOCK = 1
  case neg =>
    by_cases hfollows : ∃ a, s.tim.cand = some (a, rate) ∧ addr = tcNext rate a
    · obtain ⟨a, hx, hnext⟩ := hfollows
      rw [State.ltcValid_locks h1 hx hnext, State.get_tcBoundary, State.jam_get_ne _ _ _ _ _ haddr hper, State.ltcLock_get_ne _ _ hq hlock hfree hlrate]
    · have hcand : ∀ x, s.tim.cand = some x → x.2 ≠ rate ∨ addr ≠ tcNext rate x.1 := fun x hx =>
        Decidable.not_and_iff_or_not.mp fun ⟨hrate, hnext⟩ => hfollows ⟨x.1, hrate ▸ hx, hnext⟩
      rw [State.ltcValid_waits h1 hcand]
      rfl
  case pos =>
    by_cases hrate : rate = s.get F.TIME_STATUS_LTC_RATE
    · rw [State.ltcValid_follows h1 hrate, State.get_tcBoundary, State.jam_get_ne _ _ _ _ _ haddr hper]
      split
      · exact State.get_inc_ne _ hjumps
      · rfl
    · rw [State.ltcValid_unlocks h1 hrate]
      exact State.ltcUnlock_get hq hlock hfree hloss

/-- The generator at a boundary takes an address, a rate and a period. -/
def State.genStep (s : State) (addr r period : Nat) : State :=
  (State.set { s with tim := { s.tim with
    preset := none, genRate := r, genTb := s.tb, ltcEn := true, genCfg := s.get F.TIME_TC_CFG_GEN_RATE } } F.TIME_GEN_ADDR_ADDR addr).set
    F.TIME_PERIOD_TICKS_Q8 period

/-- What that step leaves, whether or not the counts of SUBFRAME begin again with it. -/
theorem State.genStep_effect (s : State) (addr r period : Nat) (c : Prop) [Decidable c] :
    let t := if c then s.genStep addr r period else (s.genStep addr r period).tcBoundary
    t.get F.TIME_GEN_ADDR_ADDR = addr % 2 ^ 32 ∧ t.get F.TIME_PERIOD_TICKS_Q8 = period % 2 ^ 32 ∧ t.tim.preset = none ∧ t.tim.genRate = r ∧
      t.tim.genTb = s.tb := by
  have haddr : (s.genStep addr r period).get F.TIME_GEN_ADDR_ADDR = addr % 2 ^ 32 :=
    (State.get_set_ne _ _ (by decide)).trans (State.get_set_self _ _ _)
  have hper : (s.genStep addr r period).get F.TIME_PERIOD_TICKS_Q8 = period % 2 ^ 32 := State.get_set_self _ _ _
  intro t
  by_cases hc : c
  · rw [show t = s.genStep addr r period from if_pos hc]
    exact ⟨haddr, hper, rfl, rfl, rfl⟩
  · rw [show t = (s.genStep addr r period).tcBoundary from if_neg hc]
    exact ⟨haddr, hper, rfl, rfl, rfl⟩

/-- R615, R616: a boundary of a generator whose reader stays enabled. `fresh` says that a preset or a changed rate takes effect. -/
theorem exec_generatorBoundary {s : State} (fresh : Bool) (hready : s.ready Fn.LTC = true) (hen : s.tim.ltcEn = true)
    (hcfg : s.get F.TIME_TC_CFG_LTC_EN = 1)
    (hfresh : (s.tim.preset.isSome || (decide (s.tim.genCfg ≠ s.get F.TIME_TC_CFG_GEN_RATE) && !decide (s.get F.TIME_STATUS_LTC_LOCK = 1) &&
      decide (s.get F.TIME_TC_CFG_GEN_RATE < 6))) = fresh) :
    let r := if fresh then s.get F.TIME_TC_CFG_GEN_RATE else s.tim.genRate
    let t := s.genStep (s.tim.preset.getD (tcNext r (s.get F.TIME_GEN_ADDR_ADDR))) r
      (if fresh || s.get F.TIME_PERIOD_TICKS_Q8 = 0 then nominalPeriod r else s.get F.TIME_PERIOD_TICKS_Q8)
    exec .generatorBoundary s = .next (if s.get F.TIME_STATUS_LTC_LOCK = 1 then t else t.tcBoundary) := by
  intro r t
  change execGeneratorBoundary s = _
  simp only [execGeneratorBoundary, done, hready, hen, hcfg, hfresh, decide_true, Bool.not_true, Bool.and_false, Bool.false_eq_true, if_false,
    decide_eq_true_eq]
  rfl

/-- Settles O56: the reader by the cases of `ltcValid`, the loss by `ltcUnlock_effect`, the generator by its two kinds of boundary. -/
theorem timecode : Obligations.Timecode := by
  unfold Obligations.Timecode
  intro s
  refine ⟨fun c a r u b p => ⟨fun hoff => ⟨_, rfl, ?_⟩, fun hready hen => ⟨fun hbad => ⟨_, rfl, ?_⟩, fun hvalid => ?_⟩⟩,
    fun hlock => ⟨_, rfl, if_neg (by omega)⟩, fun hlock => ⟨_, rfl, ?_⟩, fun hready => ⟨_, rfl, ?_⟩, fun hready hen hcfg => ?_, fun who a htakes => ?_⟩
  · refine if_pos ?_
    rcases hoff with h | h <;> simp [h]
  · have hno : (c && tcValid r a) = false := by rcases hbad with h | h <;> simp [h]
    rw [if_neg (by simp [hready, hen]), hno, if_neg Bool.false_ne_true]
    exact ⟨State.inc_only _ _, State.get_inc_self _ _⟩
  · have hexec : exec (.ltcFrame true a r u b p) s = .next (s.ltcValid a r (u % 2 ^ 32) b p) := by
      change execLtcFrame true a r u b p s = _
      rw [execLtcFrame, done, if_neg (by simp [hready, hen]), hvalid]
      rfl
    refine ⟨_, hexec, ?_, ?_, ?_, ?_, fun hlock hsome hcand => ?_, fun hlock hcand => ?_, fun hlock hrate => ?_, fun hlock hrate => ?_⟩
    · rw [State.ltcValid_keeps _ _ _ _ _ _ (by decide)]
      simp (disch := decide) only [State.ltcRead, State.get_set_ne, State.get_set_self]
      rfl
    · rw [State.ltcValid_keeps _ _ _ _ _ _ (by decide)]
      simp (disch := decide) only [State.ltcRead, State.get_set_ne, State.get_set_self]
      exact Nat.mod_mod _ _
    · rw [State.ltcValid_keeps _ _ _ _ _ _ (by decide)]
      exact State.get_set_self _ _ _
    · rw [State.ltcValid_keeps _ _ _ _ _ _ (by decide)]
      simp (disch := decide) only [State.ltcRead, State.get_set_ne, State.get_inc_self]
      rfl
    · obtain ⟨⟨a0, r0⟩, hx⟩ := Option.ne_none_iff_exists'.mp hsome
      obtain ⟨rfl, hnext⟩ := hcand _ hx
      rw [State.ltcValid_locks (by omega) hx hnext]
      obtain ⟨hl, hf, hr⟩ := State.ltcLock_effect (s.ltcRead a (u % 2 ^ 32) b) r0
      exact ⟨(State.jam_get_ne _ _ _ _ _ (by decide) (by decide)).trans hl, (State.jam_get_ne _ _ _ _ _ (by decide) (by decide)).trans hf,
        (State.jam_get_ne _ _ _ _ _ (by decide) (by decide)).trans hr, State.jam_get_addr _ _ _ _ _, rfl⟩
    · rw [State.ltcValid_waits (by omega) hcand]
      exact ⟨(State.ltcRead_get_ne _ _ _ _ (by decide) (by decide) (by decide) (by decide)).trans hlock, rfl,
        State.ltcRead_get_ne _ _ _ _ (by decide) (by decide) (by decide) (by decide)⟩
    · have hread : (s.ltcRead a (u % 2 ^ 32) b).get F.TIME_STATUS_LTC_LOCK = 1 :=
        (State.ltcRead_get_ne _ _ _ _ (by decide) (by decide) (by decide) (by decide)).trans hlock
      obtain ⟨hl, hf, hloss, -⟩ := State.ltcUnlock_effect hread
      rw [State.ltcRead_get_ne _ _ _ _ (by decide) (by decide) (by decide) (by decide)] at hloss
      rw [State.ltcValid_unlocks hlock hrate]
      exact ⟨hl, hf, hloss, rfl⟩
    · rw [State.ltcValid_follows hlock hrate]
      have hread : ∀ g : Field, g ∈ [F.TIME_STATUS_LTC_LOCK, F.TIME_LTC_STAT_JUMPS] → (s.ltcRead a (u % 2 ^ 32) b).get g = s.get g := by
        intro g hg
        rcases List.mem_cons.mp hg with rfl | hg'
        · exact State.ltcRead_get_ne _ _ _ _ (by decide) (by decide) (by decide) (by decide)
        · obtain rfl := List.mem_singleton.mp hg'
          exact State.ltcRead_get_ne _ _ _ _ (by decide) (by decide) (by decide) (by decide)
      refine ⟨(State.jam_get_ne _ _ _ _ _ (by decide) (by decide)).trans ?_, State.jam_get_addr _ _ _ _ _,
        (State.jam_get_ne _ _ _ _ _ (by decide) (by decide)).trans ?_⟩
      · split
        · exact (State.get_inc_ne _ (by decide)).trans ((hread _ (by decide)).trans hlock)
        · exact (hread _ (by decide)).trans hlock
      · by_cases hnext : a = tcNext r (s.get F.TIME_LTC_ADDR_ADDR)
        · rw [if_neg (not_not_intro hnext), if_pos hnext]
          exact hread _ (by decide)
        · rw [if_pos hnext, if_neg hnext, State.get_inc_self, hread _ (by decide)]
          rfl
  · obtain ⟨hl, hf, hloss, hevt⟩ := State.ltcUnlock_effect hlock
    rw [if_pos hlock]
    exact ⟨hl, hf, hloss, rfl, hevt, State.ltcUnlock_get (by decide) (by decide) (by decide) (by decide)⟩
  · exact if_pos (by simp [hready])
  · refine ⟨fun a hpreset => ?_, fun hpreset hsame => ?_⟩
    · have hexec := exec_generatorBoundary true hready hen hcfg (by rw [hpreset]; rfl)
      rw [hpreset] at hexec
      obtain ⟨haddr, hper, hnone, hrate, -⟩ := State.genStep_effect s a (s.get F.TIME_TC_CFG_GEN_RATE)
        (nominalPeriod (s.get F.TIME_TC_CFG_GEN_RATE)) (s.get F.TIME_STATUS_LTC_LOCK = 1)
      exact ⟨_, hexec, haddr, hnone, hrate, hper⟩
    · have hexec := exec_generatorBoundary false hready hen hcfg (by simp [hpreset, hsame])
      rw [hpreset] at hexec
      obtain ⟨haddr, -, -, hrate, htb⟩ := State.genStep_effect s (tcNext s.tim.genRate (s.get F.TIME_GEN_ADDR_ADDR)) s.tim.genRate
        (if false || s.get F.TIME_PERIOD_TICKS_Q8 = 0 then nominalPeriod s.tim.genRate else s.get F.TIME_PERIOD_TICKS_Q8)
        (s.get F.TIME_STATUS_LTC_LOCK = 1)
      exact ⟨_, hexec, haddr, htb, hrate⟩
  · have hexec : exec (.genPreset who a) s = .next ((s.dropHeld who).genPreset a) := congrArg Host.Outcome.next (State.rwAction_takes _ htakes)
    refine ⟨fun hno => ⟨_, hexec, if_pos ?_⟩, fun hlock hvalid => ⟨_, hexec, if_neg ?_⟩⟩
    · rw [Bool.or_eq_true, Bool.not_eq_true', decide_eq_true_eq]
      exact hno
    · rw [hvalid, hlock]
      decide

end Sys2Proof.Machine
end

section
/-!
The calendar, its edges, trim and sets, its alarm, its supply and its crystal; the replicas of the timebase (R600 to R611, R626).
-/

namespace Sys2Proof.Machine

/-! ### The alarm (R607) -/

/-- Outside Keep and Rest the alarm clears EN, sets FIRED and reports. -/
theorem State.fireAlarm_effect {s : State} (straps unstable : Nat) (hkeep : s.mode ≠ Md.KEEP) (hrest : s.mode ≠ Md.REST) :
    (s.fireAlarm straps unstable).get F.TIME_ALARM_EN = 0 ∧ (s.fireAlarm straps unstable).get F.TIME_STATUS_ALARM_FIRED = 1 ∧
      (s.fireAlarm straps unstable).getBit (F.EVT_RAW Pg.TIME) E.TIME_ALARM.bit = true := by
  have heq : s.fireAlarm straps unstable = ((s.set F.TIME_ALARM_EN 0).set F.TIME_STATUS_ALARM_FIRED 1).raise E.TIME_ALARM := by
    simp [State.fireAlarm, hkeep, hrest]
  rw [heq]
  refine ⟨(State.get_raise _ _ (by decide)).trans ?_, (State.get_raise _ _ (by decide)).trans (State.get_set_self _ _ _),
    State.raise_getBit _ (by decide)⟩
  exact (State.get_set_ne _ _ (by decide)).trans (State.get_set_self _ _ _)

theorem State.alarmDue_off {s : State} (h : s.get F.TIME_ALARM_EN = 0) : s.alarmDue = false := by
  simp [State.alarmDue, h]

theorem State.alarmDue_on {s : State} (hen : s.get F.TIME_ALARM_EN = 1) (hsec : s.get F.TIME_ALARM_SECONDS ≤ s.keep.seconds) : s.alarmDue = true := by
  simp [State.alarmDue, hen, hsec]

/-- A page that takes writes is not in Keep. -/
theorem State.takes_mode {s : State} {who : Req} {p off : Nat} (h : s.takes who p off) : s.mode ≠ Md.KEEP := by
  intro hkeep
  obtain ⟨hnone, -⟩ := h
  rw [State.blocked, if_pos hkeep] at hnone
  cases hnone

/-- A write that the calendar has not reached, or with EN clear, is kept and nothing else. -/
theorem State.writeAlarm_waits {s : State} {v : Nat} (h : v % 2 = 0 ∨ s.keep.seconds < bits v 15 48) :
    OnlyFields [F.TIME_ALARM_SECONDS, F.TIME_ALARM_EN] s (s.writeAlarm v) ∧ (s.writeAlarm v).get F.TIME_ALARM_SECONDS = bits v 15 48 ∧
      (s.writeAlarm v).get F.TIME_ALARM_EN = v % 2 := by
  have hsec : ((s.set F.TIME_ALARM_SECONDS (bits v 15 48)).set F.TIME_ALARM_EN (v % 2)).get F.TIME_ALARM_SECONDS = bits v 15 48 :=
    (State.get_set_ne _ _ (by decide)).trans ((State.get_set_self _ _ _).trans (Nat.mod_eq_of_lt (bits_lt v 15 48)))
  have hen : ((s.set F.TIME_ALARM_SECONDS (bits v 15 48)).set F.TIME_ALARM_EN (v % 2)).get F.TIME_ALARM_EN = v % 2 :=
    (State.get_set_self _ _ _).trans (Nat.mod_mod _ _)
  have hdue : ((s.set F.TIME_ALARM_SECONDS (bits v 15 48)).set F.TIME_ALARM_EN (v % 2)).alarmDue = false := by
    rcases h with h | h
    · exact State.alarmDue_off (hen.trans h)
    · rw [State.alarmDue, hsec, Bool.and_eq_false_iff]
      exact Or.inr (decide_eq_false (Nat.not_le.mpr h))
  have heq : s.writeAlarm v = (s.set F.TIME_ALARM_SECONDS (bits v 15 48)).set F.TIME_ALARM_EN (v % 2) := by
    rw [State.writeAlarm, hdue]
    rfl
  rw [heq]
  exact ⟨((OnlyFields.refl _ s).set (by simp) _).set (by simp) _, hsec, hen⟩

/-- One that the calendar has reached fires at once. -/
theorem State.writeAlarm_fires {s : State} {v : Nat} (hen : v % 2 = 1) (hsec : bits v 15 48 ≤ s.keep.seconds) (hkeep : s.mode ≠ Md.KEEP)
    (hrest : s.mode ≠ Md.REST) : (s.writeAlarm v).get F.TIME_ALARM_EN = 0 ∧ (s.writeAlarm v).get F.TIME_STATUS_ALARM_FIRED = 1 := by
  have hmode : ((s.set F.TIME_ALARM_SECONDS (bits v 15 48)).set F.TIME_ALARM_EN (v % 2)).mode = s.mode :=
    (State.get_set_ne _ _ (by decide)).trans (State.get_set_ne _ _ (by decide))
  have hdue : ((s.set F.TIME_ALARM_SECONDS (bits v 15 48)).set F.TIME_ALARM_EN (v % 2)).alarmDue = true := by
    refine State.alarmDue_on ((State.get_set_self _ _ _).trans ?_) ?_
    · rw [hen]
      rfl
    · refine Nat.le_trans (Nat.le_of_eq ?_) hsec
      exact (State.get_set_ne _ _ (by decide)).trans ((State.get_set_self _ _ _).trans (Nat.mod_eq_of_lt (bits_lt v 15 48)))
  have heq : s.writeAlarm v = ((s.set F.TIME_ALARM_SECONDS (bits v 15 48)).set F.TIME_ALARM_EN (v % 2)).fireAlarm 0 0 := by
    rw [State.writeAlarm, hdue]
    rfl
  rw [heq]
  obtain ⟨he, hf, -⟩ := State.fireAlarm_effect (s := (s.set F.TIME_ALARM_SECONDS (bits v 15 48)).set F.TIME_ALARM_EN (v % 2)) 0 0
    (hmode ▸ hkeep) (hmode ▸ hrest)
  exact ⟨he, hf⟩

/-! ### A second edge (R600 to R605, R611) -/

/-- KEEP after a second edge. -/
def Keep.edge (k : Keep) (sub : Nat) : Keep :=
  { k with seconds := (k.seconds + 1) % 2 ^ 48, subsec := sub, ticks := k.ticks + k.counts
           phase := k.phase + 32768 * ((k.counts : Int) - 1), carryLeft := k.carryLeft.map (· - k.counts) }

theorem Keep.counts_one {k : Keep} (hlow : -32768 < k.phase) (hhigh : k.phase < 32768) : k.counts = 1 := by
  rw [Keep.counts, if_neg (Int.not_le.mpr hhigh), if_neg (Int.not_le.mpr hlow)]

/-- The state after a second edge, before the alarm is judged. -/
def State.edged (s : State) (sub : Nat) : State :=
  let s1 := { s with keep := s.keep.edge sub }
  if s.mode = Md.KEEP then s1 else (s1.set F.TIME_SEC_TB_TB s.tb).set F.TIME_SEC_CAL_SECONDS s1.keep.seconds

theorem State.secondEdge_eq (s : State) (sub straps unstable : Nat) :
    s.secondEdge sub straps unstable = if (s.edged sub).alarmDue then (s.edged sub).fireAlarm straps unstable else s.edged sub := rfl

theorem State.edged_keep (s : State) (sub : Nat) : (s.edged sub).keep = s.keep.edge sub := by
  unfold State.edged
  split <;> rfl

/-- Beside KEEP a second edge touches the two registers that capture it. -/
theorem State.edged_get (s : State) (sub : Nat) {g : Field} (htb : g.key ≠ F.TIME_SEC_TB_TB.key) (hcal : g.key ≠ F.TIME_SEC_CAL_SECONDS.key) :
    (s.edged sub).get g = s.get g := by
  unfold State.edged
  split
  · rfl
  · exact (State.get_set_ne _ _ hcal).trans (State.get_set_ne _ _ htb)

/-- With the alarm disabled. -/
theorem State.secondEdge_off {s : State} (sub straps unstable : Nat) (h : s.get F.TIME_ALARM_EN = 0) :
    s.secondEdge sub straps unstable = s.edged sub := by
  rw [State.secondEdge_eq, State.alarmDue_off ((s.edged_get sub (by decide) (by decide)).trans h), if_neg Bool.false_ne_true]

/-- With the alarm's second reached. -/
theorem State.secondEdge_due {s : State} (sub straps unstable : Nat) (hen : s.get F.TIME_ALARM_EN = 1)
    (hsec : s.get F.TIME_ALARM_SECONDS ≤ (s.keep.seconds + 1) % 2 ^ 48) :
    s.secondEdge sub straps unstable = (s.edged sub).fireAlarm straps unstable := by
  rw [State.secondEdge_eq, State.alarmDue_on ((s.edged_get sub (by decide) (by decide)).trans hen), if_pos rfl]
  rw [s.edged_get sub (by decide) (by decide), State.edged_keep]
  exact hsec

/-- What an edge captures outside Keep. -/
theorem State.edged_captures {s : State} (sub : Nat) (h : s.mode ≠ Md.KEEP) :
    OnlyFields [F.TIME_SEC_TB_TB, F.TIME_SEC_CAL_SECONDS] { s with keep := (s.edged sub).keep } (s.edged sub) ∧
      (s.edged sub).get F.TIME_SEC_TB_TB = s.tb % 2 ^ 64 ∧ (s.edged sub).get F.TIME_SEC_CAL_SECONDS = (s.edged sub).keep.seconds := by
  rw [State.edged_keep, State.edged, if_neg h]
  refine ⟨((OnlyFields.refl _ _).set (by simp) _).set (by simp) _, (State.get_set_ne _ _ (by decide)).trans (State.get_set_self _ _ _), ?_⟩
  exact (State.get_set_self _ _ _).trans (Nat.mod_mod _ _)

/-! ### Sets of the calendar (R604) -/

/-- A value written to the calendar, as KEEP holds it. -/
theorem calendar_value (v : Nat) : (1 * 2 ^ 63 + bits v 15 48 % 2 ^ 48 * 2 ^ 15 + bits v 0 15 % 2 ^ 15) % 2 ^ 64 = 2 ^ 63 + v % 2 ^ 63 := by
  simp only [bits]
  omega

/-- KEEP after a set. -/
def Keep.written (k : Keep) (v : Nat) : Keep :=
  { k.shift ((bits v 0 15 : Int) - k.subsec) with valid := true, seconds := bits v 15 48, subsec := bits v 0 15 }

/-- The state after a set, before its count, its event and the alarm. -/
def State.calWritten (s : State) (v : Nat) : State :=
  let s1 : State := { s with keep := s.keep.written v, tim := { s.tim with calAt := some (v % 2 ^ 63, s.tb) } }
  (((s1.set F.TIME_CAL s1.keepCal).set F.TIME_STATUS_LOST 0).set F.TIME_STATUS_STALE 0).set F.TIME_CAL_SET_TB_TB s.tb

/-- What a set leaves of the fields, beside its own four. -/
theorem State.calWritten_get (s : State) (v : Nat) {g : Field} (hcal : g.key ≠ F.TIME_CAL.key) (hlost : g.key ≠ F.TIME_STATUS_LOST.key)
    (hstale : g.key ≠ F.TIME_STATUS_STALE.key) (htb : g.key ≠ F.TIME_CAL_SET_TB_TB.key) : (s.calWritten v).get g = s.get g :=
  (State.get_set_ne _ _ htb).trans ((State.get_set_ne _ _ hstale).trans ((State.get_set_ne _ _ hlost).trans (State.get_set_ne _ _ hcal)))

theorem State.calWritten_effect (s : State) (v : Nat) :
    (s.calWritten v).get F.TIME_STATUS_LOST = 0 ∧ (s.calWritten v).get F.TIME_STATUS_STALE = 0 ∧
      (s.calWritten v).get F.TIME_CAL_SET_TB_TB = s.tb % 2 ^ 64 ∧ (s.calWritten v).get F.TIME_CAL = 2 ^ 63 + v % 2 ^ 63 := by
  unfold State.calWritten
  extract_lets s1
  refine ⟨?_, (State.get_set_ne _ _ (by decide)).trans (State.get_set_self _ _ _), State.get_set_self _ _ _, ?_⟩
  · exact (State.get_set_ne _ _ (by decide)).trans ((State.get_set_ne _ _ (by decide)).trans (State.get_set_self _ _ _))
  · rw [State.get_set_ne _ _ (by decide), State.get_set_ne _ _ (by decide), State.get_set_ne _ _ (by decide), State.get_set_self]
    exact calendar_value v

/-- A set with the alarm disabled is counted and reported. -/
theorem State.setCal_off {s : State} (v : Nat) (h : s.get F.TIME_ALARM_EN = 0) :
    s.setCal v = ((s.calWritten v).inc F.TIME_CAL_STEPS_COUNT).raise E.TIME_CAL_SET := by
  have heq : s.setCal v = if (((s.calWritten v).inc F.TIME_CAL_STEPS_COUNT).raise E.TIME_CAL_SET).alarmDue then
      (((s.calWritten v).inc F.TIME_CAL_STEPS_COUNT).raise E.TIME_CAL_SET).fireAlarm 0 0
      else ((s.calWritten v).inc F.TIME_CAL_STEPS_COUNT).raise E.TIME_CAL_SET := rfl
  rw [heq, State.alarmDue_off, if_neg Bool.false_ne_true]
  rw [State.get_raise _ _ (by decide), State.get_inc_ne _ (by decide), State.calWritten_get _ _ (by decide) (by decide) (by decide) (by decide)]
  exact h

/-! ### The replicas (R610) -/

/-- A table made from a list has an entry for each of its keys. -/
theorem Tbl.find?_map_of_mem {α : Type} (f : Nat → α) {l : List Nat} {i : Nat} (h : i ∈ l) : Tbl.find? (l.map (fun i => (i, f i))) i = some (f i) := by
  induction l with
  | nil => cases h
  | cons j l ih =>
    rw [List.map_cons, Tbl.find?]
    split
    · next e => rw [e]
    · next e => exact ih ((List.mem_cons.mp h).resolve_left fun e' => e e'.symm)

/-! ### The calendar as a whole -/

theorem exec_calendarSecondEdge {s : State} (straps unstable : Nat) (hon : s.keep.powered = true) :
    exec (.calendarSecondEdge straps unstable) s = .next (s.secondEdge 0 straps unstable) :=
  congrArg Host.Outcome.next (if_pos hon)

/-- The state after a trim: `n` is the prescaler with TRIM's counts. -/
def State.trimmed (s : State) (sub : Nat) (n : Int) : State :=
  let s1 : State := { s with keep := s.keep.shift ((n.toNat : Int) - sub) }
  if 32768 ≤ n then s1.secondEdge (n.toNat - 32768) 0 0 else { s1 with keep := { s1.keep with subsec := n.toNat } }

theorem exec_calendarTrim {s : State} {sub : Nat} (hon : s.keep.powered = true) (hsub : sub < 32768) :
    exec (.calendarTrim sub) s = .next (s.trimmed sub ((sub : Int) + signed 8 (s.get F.TIME_TRIM_COUNTS))) := by
  change execCalendarTrim sub s = _
  rw [execCalendarTrim, done, if_neg (by simp [hon]), Nat.mod_eq_of_lt hsub]
  rfl

/-- The copy never moves back, and only the prescaler of KEEP is taken. -/
theorem State.refresh_effect (s : State) (sub : Nat) :
    let s1 : State := { s with keep := { s.keep with subsec := sub % 32768 } }
    let t := if s.get F.CLK_REF_STATUS_RTC_OK = 1 then s1.refreshCal else s1
    s.get F.TIME_CAL % 2 ^ 63 ≤ t.get F.TIME_CAL % 2 ^ 63 ∧ t.keep.subsec = sub % 32768 ∧ t.keep.seconds = s.keep.seconds := by
  intro s1 t
  by_cases hrtc : s.get F.CLK_REF_STATUS_RTC_OK = 1
  · by_cases hback : s1.keepCal % 2 ^ 63 < s1.get F.TIME_CAL % 2 ^ 63
    · have ht : t = s1 := (if_pos hrtc).trans (if_pos hback)
      rw [ht]
      exact ⟨Nat.le_refl _, rfl, rfl⟩
    · have ht : t = State.set { s1 with tim := { s1.tim with calAt := some (s1.keepCal % 2 ^ 63, s1.tb) } } F.TIME_CAL s1.keepCal :=
        (if_pos hrtc).trans (if_neg hback)
      rw [ht]
      refine ⟨?_, rfl, rfl⟩
      rw [State.get_set_self, Nat.mod_mod_of_dvd _ (by decide)]
      exact Nat.not_lt.mp hback
  · have ht : t = s1 := if_neg hrtc
    rw [ht]
    exact ⟨Nat.le_refl _, rfl, rfl⟩

/-- R606: a measurement of VBAK is shown, judged against the rail's limit, and reported when it falls below LOW. -/
theorem State.vbak_effect (s : State) (mv : Nat) :
    let t := ((s.set F.TIME_VBAK_MV (min mv 4095)).setBitTo F.PWR_RAIL_STATUS_VALID 15 (decide (1600 ≤ mv))).raiseIf
      (decide (min mv 4095 < s.get F.TIME_VBAK_CFG_LOW_MV) && (s.get F.TIME_VBAK_MV = 0 || decide (s.get F.TIME_VBAK_CFG_LOW_MV ≤ s.get F.TIME_VBAK_MV)))
      E.TIME_VBAK_LOW
    t.get F.TIME_VBAK_MV = min mv 4095 ∧ t.railValid 15 = decide (1600 ≤ mv) ∧
      (mv < s.get F.TIME_VBAK_CFG_LOW_MV → mv < 4096 → s.get F.TIME_VBAK_CFG_LOW_MV ≤ s.get F.TIME_VBAK_MV →
        t.getBit (F.EVT_RAW Pg.TIME) E.TIME_VBAK_LOW.bit = true) := by
  intro t
  have hcalm : Calm quiet ((s.set F.TIME_VBAK_MV (min mv 4095)).setBitTo F.PWR_RAIL_STATUS_VALID 15 (decide (1600 ≤ mv))) t := State.raiseIf_calm _ _ _
  refine ⟨?_, ?_, fun hlow hmv hold => ?_⟩
  · refine (hcalm.get _ (by decide)).trans ((State.get_set_ne _ _ (by decide)).trans ((State.get_set_self _ _ _).trans (Nat.mod_eq_of_lt ?_)))
    exact Nat.lt_of_le_of_lt (Nat.min_le_right _ _) (by decide)
  · rw [State.railValid, State.getBit_congr (hcalm.get _ (by decide))]
    exact State.getBit_setBitTo_self _ _ (by decide)
  · have hc : (decide (min mv 4095 < s.get F.TIME_VBAK_CFG_LOW_MV) &&
        (decide (s.get F.TIME_VBAK_MV = 0) || decide (s.get F.TIME_VBAK_CFG_LOW_MV ≤ s.get F.TIME_VBAK_MV))) = true := by
      simp [hold, Nat.lt_of_le_of_lt (Nat.min_le_left mv 4095) hlow]
    have ht : t = ((s.set F.TIME_VBAK_MV (min mv 4095)).setBitTo F.PWR_RAIL_STATUS_VALID 15 (decide (1600 ≤ mv))).raise E.TIME_VBAK_LOW := if_pos hc
    rw [ht]
    exact State.raise_getBit _ (by decide)

/-- R626: the crystal's loss in the registers. -/
theorem State.rtcLost_get (s : State) : ((s.set F.CLK_REF_STATUS_RTC_OK 0).set F.TIME_STATUS_STALE 1).get F.CLK_REF_STATUS_RTC_OK = 0 ∧
    ((s.set F.CLK_REF_STATUS_RTC_OK 0).set F.TIME_STATUS_STALE 1).get F.TIME_STATUS_STALE = 1 :=
  ⟨(State.get_set_ne _ _ (by decide)).trans (State.get_set_self _ _ _), State.get_set_self _ _ _⟩

/-- Settles O55: edges by `edged`, sets by `setCal_off`, the alarm by `fireAlarm_effect`. -/
theorem timeKeeping : Obligations.TimeKeeping := by
  unfold Obligations.TimeKeeping
  intro s
  refine ⟨fun hoff => ⟨fun a b => ⟨_, rfl, ?_⟩, fun a => ⟨⟨_, rfl, ?_⟩, ⟨_, rfl, ?_⟩⟩, ⟨_, rfl, ?_⟩⟩,
    fun hon => ⟨⟨_, rfl, if_pos hon⟩, fun hen => ⟨fun a b => ?_, fun sub hsub => ?_⟩, fun hen hkeep hrest hsec a b => ?_,
      fun hkeep sub => ⟨_, rfl, if_pos (by simp [hkeep])⟩, fun hkeep sub => ⟨_, rfl, ?_⟩⟩,
    fun who v => ?_, fun mv hno => ⟨_, rfl, ?_⟩, fun mv hkeep hrail => ⟨_, rfl, ?_⟩, fun hkeep => ⟨_, rfl, if_pos hkeep⟩, fun hkeep => ⟨_, rfl, ?_⟩,
    fun hrtc => ⟨_, rfl, if_pos hrtc⟩, fun hrtc => ⟨⟨_, rfl, if_pos hrtc⟩, fun hkeep => ⟨_, rfl, ?_⟩, fun hkeep => ⟨_, rfl, ?_⟩⟩,
    fun hrtc => ⟨fun hkeep => ⟨_, rfl, ?_⟩, fun hkeep => ⟨_, rfl, ?_⟩⟩, fun hno => ⟨_, rfl, ?_⟩, fun hkeep htb => ⟨_, rfl, ?_⟩⟩
  · simp [hoff]
  · simp [hoff]
  · simp [hoff]
  · simp [hoff]
  · have hexec := exec_calendarSecondEdge a b hon
    rw [State.secondEdge_off 0 a b hen] at hexec
    have hkeep := s.edged_keep 0
    refine ⟨_, hexec, (congrArg Keep.seconds hkeep :), (congrArg Keep.subsec hkeep :), (congrArg Keep.valid hkeep :), fun hlow hhigh => ?_, fun hmode => ?_,
      fun hmode => State.edged_captures 0 hmode⟩
    · exact (congrArg Keep.ticks hkeep :).trans (congrArg (s.keep.ticks + ·) (Keep.counts_one hlow hhigh))
    · rw [State.edged, if_pos hmode]
  · have hexec := exec_calendarTrim hon hsub
    intro n
    refine ⟨fun hlow hhigh => ⟨_, hexec, ?_⟩, fun hneg => ⟨_, hexec, ?_⟩, fun hwrap => ⟨_, hexec, ?_⟩⟩
    · rw [State.trimmed, if_neg (Int.not_le.mpr hhigh)]
      exact ⟨rfl, Int.toNat_of_nonneg hlow, rfl, rfl⟩
    · rw [State.trimmed, if_neg (by omega)]
      exact ⟨rfl, Int.toNat_of_nonpos (Int.le_of_lt hneg), rfl⟩
    · rw [State.trimmed, if_pos hwrap, State.secondEdge_off]
      · exact (congrArg Keep.seconds (State.edged_keep _ _) :)
      · exact hen
  · have hexec := exec_calendarSecondEdge a b hon
    rw [State.secondEdge_due 0 a b hen hsec] at hexec
    have hmode : (s.edged 0).mode = s.mode := s.edged_get 0 (by decide) (by decide)
    refine ⟨_, hexec, ?_⟩
    exact State.fireAlarm_effect a b (hmode ▸ hkeep) (hmode ▸ hrest)
  · rw [if_neg (by simp [hkeep, hon])]
    exact s.refresh_effect sub
  · intro s0
    refine ⟨fun htakes hen => ?_, fun htakes hwait => ⟨_, rfl, ?_⟩, fun htakes hen hsec hrest => ⟨_, rfl, ?_⟩⟩
    · have hexec : exec (.calSet who v) s = .next (s0.setCal v) := congrArg Host.Outcome.next (State.rwAction_takes _ htakes)
      rw [State.setCal_off v hen] at hexec
      have hcalm := State.raise_calm ((s0.calWritten v).inc F.TIME_CAL_STEPS_COUNT) E.TIME_CAL_SET
      have hget {g : Field} (hq : quiet g.key = true) (hne : g.key ≠ F.TIME_CAL_STEPS_COUNT.key) :=
        (hcalm.get g hq).trans (State.get_inc_ne _ hne)
      have hkeep : _ = s0.keep.written v := hcalm.keep
      obtain ⟨hlost, hstale, htb, hcal⟩ := s0.calWritten_effect v
      refine ⟨_, hexec, (congrArg Keep.valid hkeep :), (congrArg Keep.seconds hkeep :), (congrArg Keep.subsec hkeep :), (congrArg Keep.ticks hkeep :),
        (hget (by decide) (by decide)).trans hlost, (hget (by decide) (by decide)).trans hstale, (hget (by decide) (by decide)).trans htb,
        (hget (by decide) (by decide)).trans hcal, ?_, State.raise_getBit _ (by decide)⟩
      rw [hcalm.get _ (by decide), State.get_inc_self, State.calWritten_get _ _ (by decide) (by decide) (by decide) (by decide)]
      rfl
    · rw [State.rwAction_takes _ htakes]
      exact State.writeAlarm_waits hwait
    · rw [State.rwAction_takes _ htakes]
      exact State.writeAlarm_fires hen hsec (State.takes_mode htakes) hrest
  · refine if_pos ?_
    rcases hno with h | h <;> simp [h]
  · rw [if_neg (by simp [hkeep, hrail])]
    exact s.vbak_effect mv
  · rw [if_neg (not_not_intro hkeep)]
    refine ⟨rfl, State.get_set_self _ _ _, (State.get_set_ne _ _ (by decide)).trans ?_, rfl⟩
    simp (disch := decide) only [State.clear, List.foldl_cons, List.foldl_nil, State.get_set_ne, State.get_set_self]
    rfl
  · rw [if_neg (by omega), if_pos hkeep]
    have honly : OnlyFields [F.CLK_REF_STATUS_RTC_OK, F.TIME_STATUS_STALE] { s with keep := { s.keep with valid := false } }
        ((State.set { s with keep := { s.keep with valid := false } } F.CLK_REF_STATUS_RTC_OK 0).set F.TIME_STATUS_STALE 1) :=
      ((OnlyFields.refl _ _).set (by simp) _).set (by simp) _
    obtain ⟨hok, hstale⟩ := s.rtcLost_get
    exact ⟨honly, rfl, hok, hstale⟩
  · rw [if_neg (by omega), if_neg hkeep]
    obtain ⟨hok, hstale⟩ := s.rtcLost_get
    exact ⟨(State.get_raise _ _ (by decide)).trans hok, (State.get_raise _ _ (by decide)).trans hstale, (State.raise_calm _ _).keep,
      State.raise_getBit _ (by decide)⟩
  · rw [if_neg (by omega), if_pos hkeep]
  · rw [if_neg (by omega), if_neg hkeep]
    have hok : (s.set F.CLK_REF_STATUS_RTC_OK 1).get F.CLK_REF_STATUS_RTC_OK = 1 := State.get_set_self _ _ _
    have hsteps : (s.set F.CLK_REF_STATUS_RTC_OK 1).get F.TIME_CAL_STEPS_COUNT = s.get F.TIME_CAL_STEPS_COUNT := State.get_set_ne _ _ (by decide)
    exact ⟨(State.get_set_ne _ _ (by decide)).trans hok, State.get_set_self _ _ _, rfl, rfl, rfl, (State.get_set_ne _ _ (by decide)).trans hsteps⟩
  · refine if_pos ?_
    rcases hno with h | h <;> simp [h]
  · rw [if_neg (by simp [hkeep, htb])]
    refine ⟨rfl, fun i hlow hhigh hon => Tbl.find?_map_of_mem (fun i => max (s.tim.reps.get i 0) s.tb) ?_⟩
    rw [List.mem_filter, List.mem_range]
    exact ⟨hhigh, by simp [hon, Nat.ne_of_gt hlow]⟩

end Sys2Proof.Machine
end

section
/-!
Memory BIST, repairs and fuses (R584 to R588).
-/

namespace Sys2Proof.Machine

/-! ### A run (R585) -/

/-- What a run leaves of `quiet`: all but the registers of its result and its progress. -/
def runQuiet (k : Nat) : Bool :=
  quiet k && k ∉ [F.BIST_RESULT_SKIPPED, F.BIST_RESULT_REPAIRED, F.BIST_RESULT_FAILED, F.BIST_COUNTS_RUNS, F.BIST_STATUS_RUN_BUSY,
    F.BIST_STATUS_SEG_LEFT].map Field.key

theorem runQuiet_quiet (k : Nat) (h : runQuiet k = true) : quiet k = true := (Bool.and_eq_true_iff.mp h).1

theorem State.showRun_leaves (s : State) : Leaves runQuiet s s.showRun := Leaves.set _ (by decide) (by decide)

/-- The end of a run: RUN_BUSY falls, RUN_DONE rises. -/
theorem State.runDone_effect (s : State) : Leaves runQuiet s s.runDone ∧ s.runDone.bist = s.bist ∧ s.runDone.nv = s.nv ∧
    s.runDone.get F.BIST_STATUS_RUN_BUSY = 0 ∧ s.runDone.getBit (F.EVT_RAW Pg.BIST) E.BIST_RUN_DONE.bit = true := by
  have hcalm := State.raise_calm (s.showRun.set F.BIST_STATUS_RUN_BUSY 0) E.BIST_RUN_DONE
  refine ⟨?_, hcalm.bist, hcalm.nv, (hcalm.get _ (by decide)).trans (State.get_set_self _ _ _), State.raise_getBit _ (by decide)⟩
  exact s.showRun_leaves.trans ((Leaves.set _ (by decide) (by decide)).trans ((State.raise_leaves _ _).mono runQuiet_quiet))

/-- The registers at the start of a run. -/
def State.runStarted (s : State) (arrays : List Nat) : State :=
  let s1 := ((s.set F.BIST_RESULT_SKIPPED (total ((arrays.filter (fun a => !s.arrayOn a)).map (2 ^ ·)))).set F.BIST_RESULT_REPAIRED 0).set
    F.BIST_RESULT_FAILED 0
  { (s1.inc F.BIST_COUNTS_RUNS).set F.BIST_STATUS_RUN_BUSY 1 with bist := { run := (arrays.filter s.arrayOn).map (fun a => (a, bistSegs a)) } }

theorem State.runStarted_leaves (s : State) (arrays : List Nat) : Leaves runQuiet s (s.runStarted arrays) := by
  refine Leaves.trans (t := ((((s.set F.BIST_RESULT_SKIPPED _).set F.BIST_RESULT_REPAIRED 0).set F.BIST_RESULT_FAILED 0).inc F.BIST_COUNTS_RUNS).set
    F.BIST_STATUS_RUN_BUSY 1) ?_ (Leaves.of_regs rfl rfl)
  exact (Leaves.set _ (by decide) (by decide)).trans ((Leaves.set _ (by decide) (by decide)).trans ((Leaves.set _ (by decide) (by decide)).trans
    ((Leaves.set _ (by decide) (by decide)).trans (Leaves.set _ (by decide) (by decide)))))

theorem State.startRun_eq (s : State) (arrays : List Nat) :
    s.startRun arrays = if arrays.filter s.arrayOn = [] then (s.runStarted arrays).runDone else (s.runStarted arrays).showRun := rfl

/-- What the start of a run leaves. -/
theorem State.startRun_leaves (s : State) (arrays : List Nat) : Leaves runQuiet s (s.startRun arrays) ∧ (s.startRun arrays).nv = s.nv := by
  rw [State.startRun_eq]
  split
  · obtain ⟨hleaves, -, hnv, -⟩ := (s.runStarted arrays).runDone_effect
    exact ⟨(s.runStarted_leaves arrays).trans hleaves, hnv⟩
  · exact ⟨(s.runStarted_leaves arrays).trans (State.showRun_leaves _), rfl⟩

/-- With an array that is on, the run is in progress; those that are off are named. -/
theorem State.startRun_on {s : State} {arrays : List Nat} (h : arrays.filter s.arrayOn ≠ []) :
    (s.startRun arrays).get F.BIST_STATUS_RUN_BUSY = 1 ∧
      (s.startRun arrays).bist.run = (arrays.filter s.arrayOn).map (fun a => (a, bistSegs a)) ∧
      (s.startRun arrays).get F.BIST_RESULT_SKIPPED = total ((arrays.filter (fun a => !s.arrayOn a)).map (2 ^ ·)) % 2 ^ 14 := by
  rw [State.startRun_eq, if_neg h]
  have hget (g : Field) : (s.runStarted arrays).get g = (((((s.set F.BIST_RESULT_SKIPPED (total ((arrays.filter
      (fun a => !s.arrayOn a)).map (2 ^ ·)))).set F.BIST_RESULT_REPAIRED 0).set F.BIST_RESULT_FAILED 0).inc F.BIST_COUNTS_RUNS).set
        F.BIST_STATUS_RUN_BUSY 1).get g := rfl
  refine ⟨(State.get_set_ne _ _ (by decide)).trans ((hget _).trans (State.get_set_self _ _ _)), rfl,
    (State.get_set_ne _ _ (by decide)).trans ((hget _).trans ?_)⟩
  refine (State.get_set_ne _ _ (by decide)).trans ((State.get_inc_ne _ (by decide)).trans ?_)
  exact (State.get_set_ne _ _ (by decide)).trans ((State.get_set_ne _ _ (by decide)).trans (State.get_set_self _ _ _))

/-- With none, it is over at once. -/
theorem State.startRun_off {s : State} {arrays : List Nat} (h : arrays.filter s.arrayOn = []) :
    (s.startRun arrays).get F.BIST_STATUS_RUN_BUSY = 0 ∧ (s.startRun arrays).bist.run = [] ∧
      (s.startRun arrays).getBit (F.EVT_RAW Pg.BIST) E.BIST_RUN_DONE.bit = true := by
  rw [State.startRun_eq, if_pos h]
  obtain ⟨-, hbist, -, hbusy, hevt⟩ := (s.runStarted arrays).runDone_effect
  refine ⟨hbusy, ?_, hevt⟩
  rw [hbist, State.runStarted, h]
  rfl

/-! ### Segments (R586) -/

/-- A segment without failing rows counts in its array's run. -/
theorem State.segmentDone_effect {s : State} {a n : Nat} {run : Tbl Nat} (hfind : s.bist.run.find? a = some n)
    (hrun : (if n ≤ 1 || !s.arrayOn a then s.bist.run.del a else s.bist.run.put a (n - 1)) = run) :
    Answers (.bistSegmentDone a []) s (fun t => t.bist.run = run ∧ t.nv = s.nv ∧ t.slots = s.slots ∧
      (run = [] → t.get F.BIST_STATUS_RUN_BUSY = 0)) := by
  have hexec : exec (.bistSegmentDone a []) s =
      .next (if run = [] then State.runDone { s with bist := { run := run } } else State.showRun { s with bist := { run := run } }) := by
    change execBistSegmentDone a [] s = _
    have hrows : (if s.arrayOn a then s.repairRows a [] else s) = s := ite_self s
    simp only [execBistSegmentDone, done, hfind, hrows, hrun]
  refine ⟨_, hexec, ?_⟩
  by_cases hempty : run = []
  · rw [if_pos hempty]
    obtain ⟨hleaves, hbist, hnv, hbusy, -⟩ := State.runDone_effect { s with bist := { run := run } }
    exact ⟨(congrArg BistSt.run hbist :), hnv, hleaves.slots, fun _ => hbusy⟩
  · rw [if_neg hempty]
    exact ⟨rfl, rfl, rfl, fun h => absurd h hempty⟩

/-! ### Repairs (R584) -/

/-- A table's entry after it has been put. -/
theorem State.rep_put (s : State) (a : Nat) (r : BistRep) : State.rep { s with nv := { s.nv with bist := s.nv.bist.put a r } } a = r := by
  simp [State.rep, Tbl.get]

/-- A failing row takes the lowest unused spare. -/
theorem State.repairRow_spare {s : State} {a row i : Nat} (h : s.spareRow a = some i) :
    (s.repairRow a row).rep a = { s.rep a with soft := (s.rep a).soft ++ [(i, row)] } ∧ (s.repairRow a row).slots = s.slots := by
  have heq : s.repairRow a row = ((State.setBitTo { s with nv := { s.nv with bist := s.nv.bist.put a { s.rep a with
      soft := (s.rep a).soft ++ [(i, row)] } } } F.BIST_RESULT_REPAIRED a true).inc F.BIST_COUNTS_REPAIRS).raise E.BIST_REPAIRED := by
    rw [State.repairRow, h]
  have hcalm := State.raise_calm ((State.setBitTo { s with nv := { s.nv with bist := s.nv.bist.put a { s.rep a with
      soft := (s.rep a).soft ++ [(i, row)] } } } F.BIST_RESULT_REPAIRED a true).inc F.BIST_COUNTS_REPAIRS) E.BIST_REPAIRED
  rw [heq]
  refine ⟨?_, hcalm.slots⟩
  rw [State.rep, hcalm.nv]
  exact s.rep_put a _

/-! ### Fuses (R587, R588) -/

/-- The fuses of an array are blown, and a run of it follows. -/
theorem State.fuseDone_effect {s : State} (h : s.get F.BIST_STATUS_FUSE_BUSY ≠ 0) :
    Answers .fuseDone s (fun t =>
      t.rep (s.get F.BIST_STATUS_FUSING) = ⟨[], (s.rep (s.get F.BIST_STATUS_FUSING)).rows ++ (s.rep (s.get F.BIST_STATUS_FUSING)).soft.map (·.1), true⟩ ∧
      t.get F.BIST_STATUS_FUSE_BUSY = 0 ∧ t.getBit (F.EVT_RAW Pg.BIST) E.BIST_FUSE_DONE.bit = true ∧ t.slots = s.slots) := by
  generalize ha : s.get F.BIST_STATUS_FUSING = a
  generalize hr : (⟨[], (s.rep a).rows ++ (s.rep a).soft.map (·.1), true⟩ : BistRep) = r
  let s1 : State := { s with nv := { s.nv with bist := s.nv.bist.put a r } }
  have hexec : exec .fuseDone s =
      .next ((((s1.set F.BIST_STATUS_FUSE_BUSY 0).set F.BIST_STATUS_FUSING 0x1F).raise E.BIST_FUSE_DONE).startRun [a]) := by
    change execFuseDone s = _
    rw [execFuseDone, done, if_neg h, ha]
    simp only [hr]
    rfl
  have hcalm := State.raise_calm ((s1.set F.BIST_STATUS_FUSE_BUSY 0).set F.BIST_STATUS_FUSING 0x1F) E.BIST_FUSE_DONE
  obtain ⟨hleaves, hnv⟩ := State.startRun_leaves (((s1.set F.BIST_STATUS_FUSE_BUSY 0).set F.BIST_STATUS_FUSING 0x1F).raise E.BIST_FUSE_DONE) [a]
  refine ⟨_, hexec, ?_, ?_, hleaves.evt _ _ (by decide) (State.raise_getBit _ (by decide)), hleaves.slots.trans hcalm.slots⟩
  · rw [State.rep, hnv, hcalm.nv]
    exact s.rep_put a r
  · rw [hleaves.get _ (by decide), hcalm.get _ (by decide)]
    exact (State.get_set_ne _ _ (by decide)).trans (State.get_set_self _ _ _)

/-- The start of a fuse operation: what is asked for is shown, and accepted only in Service, on an array that is whole and idle. -/
theorem State.bistFuse_effect (s : State) (a : Nat) :
    (s.mode ≠ Md.SERVICE ∨ s.bistBusy = true ∨ (s.rep a).fused = true ∨ 14 ≤ a →
      s.bistFuse a = (s.set F.BIST_CMD_FUSE_ARRAY a).raise E.BIST_FUSE_REFUSED) ∧
    (s.mode = Md.SERVICE → s.bistBusy = false → s.get F.BIST_STATUS_FUSE_BUSY = 0 → a < 14 → (s.rep a).fused = false →
      s.bistFuse a = ((s.set F.BIST_CMD_FUSE_ARRAY a).set F.BIST_STATUS_FUSE_BUSY 1).set F.BIST_STATUS_FUSING a) := by
  have hmode : (s.set F.BIST_CMD_FUSE_ARRAY a).mode = s.mode := State.get_set_ne _ _ (by decide)
  have hbusy : (s.set F.BIST_CMD_FUSE_ARRAY a).bistBusy = s.bistBusy := by
    rw [State.bistBusy, State.get_set_ne _ _ (by decide)]
    rfl
  have hfuse : (s.set F.BIST_CMD_FUSE_ARRAY a).get F.BIST_STATUS_FUSE_BUSY = s.get F.BIST_STATUS_FUSE_BUSY := State.get_set_ne _ _ (by decide)
  have hrep : (s.set F.BIST_CMD_FUSE_ARRAY a).rep a = s.rep a := rfl
  refine ⟨fun hno => if_neg ?_, fun hm hb hf ha hr => if_pos ?_⟩
  · rw [hmode, hbusy, hfuse, hrep]
    rcases hno with h | h | h | h
    · simp [h]
    · simp [h]
    · simp [h]
    · simp [Nat.not_lt.mpr h]
  · rw [hmode, hbusy, hfuse, hrep]
    simp [hm, hb, hf, ha, hr]

/-- Settles O53: runs by `startRun_on` and `startRun_off`, segments, repairs and fuses by the lemmas of their parts. -/
theorem memoryBist : Obligations.MemoryBist := by
  unfold Obligations.MemoryBist
  intro s
  refine ⟨fun who htakes => ?_, fun a rows hnone => ⟨_, rfl, ?_⟩, fun a n hfind hon hn => ?_, fun a n hrun hn => ?_,
    fun a row i hspare => ?_, fun a row hnone => ?_, fun hidle => ⟨_, rfl, if_pos hidle⟩, fun hbusy => State.fuseDone_effect hbusy⟩
  · intro s0
    have hgo : exec (.bistGo who) s = .next s0.bistGo := congrArg Host.Outcome.next (State.rwAction_takes _ htakes)
    have habort : exec (.bistAbort who) s = .next s0.bistAbort := congrArg Host.Outcome.next (State.rwAction_takes _ htakes)
    have hfuse (a : Nat) : exec (.bistFuse who a) s = .next (s0.bistFuse (a % 32)) := congrArg Host.Outcome.next (State.rwAction_takes _ htakes)
    refine ⟨fun hmode => ⟨_, hgo, if_pos (by simp [hmode])⟩, fun hmode hbusy => ⟨_, hgo, ?_⟩, fun hmode hbusy => ?_, fun hrun => ⟨_, habort, ?_⟩,
      fun hrun => ⟨_, habort, if_neg (by omega)⟩, fun a hno => ⟨_, hfuse a, ?_⟩, fun a hmode hbusy hidle ha hwhole => ⟨_, hfuse a, ?_⟩⟩
    · exact (if_neg (by simp [hmode])).trans (if_pos hbusy)
    · intro arrays
      have hstart : s0.bistGo = s0.startRun arrays := (if_neg (by simp [hmode])).trans (if_neg (by simp [hbusy]))
      rw [hstart] at hgo
      refine ⟨fun hsome => ⟨_, hgo, ?_⟩, fun hnone => ⟨_, hgo, State.startRun_off hnone⟩⟩
      obtain ⟨hb, hr, hskip⟩ := State.startRun_on hsome
      exact ⟨hb, hr, hskip, (s0.startRun_leaves arrays).1.slots⟩
    · rw [State.bistAbort, if_pos hrun]
      exact ⟨rfl, (State.get_set_ne _ _ (by decide)).trans hrun, rfl⟩
    · exact (s0.bistFuse_effect (a % 32)).1 hno
    · rw [(s0.bistFuse_effect (a % 32)).2 hmode hbusy hidle ha hwhole]
      refine ⟨(((OnlyFields.refl _ s0).set (by simp) _).set (by simp) _).set (by simp) _,
        (State.get_set_ne _ _ (by decide)).trans (State.get_set_self _ _ _), ?_⟩
      exact (State.get_set_self _ _ _).trans (Nat.mod_mod _ _)
  · rw [hnone]
  · obtain ⟨t, hexec, hrun, hnv, hslots, -⟩ := State.segmentDone_effect hfind (by rw [if_neg (by simp [hon, hn])])
    exact ⟨t, hexec, hrun, hnv, hslots⟩
  · have hfind : s.bist.run.find? a = some n := by simp [hrun, Tbl.find?]
    obtain ⟨t, hexec, hrun', hnv, hslots, hbusy⟩ := State.segmentDone_effect (run := []) hfind (by simp [hrun, hn, Tbl.del])
    exact ⟨t, hexec, hrun', hbusy rfl, hnv, hslots⟩
  · obtain ⟨hrep, hslots⟩ := State.repairRow_spare (row := row) hspare
    exact ⟨(congrArg BistRep.soft hrep :), (congrArg BistRep.rows hrep :), hslots⟩
  · rw [State.repairRow, hnone]

end Sys2Proof.Machine
end

section
/-!
The fault injectors: when one arms, what a write finds armed, and what an armed one counts and acts on (R592 to R594).
-/

namespace Sys2Proof.Machine

/-! ### A write of CFG (R593) -/

/-- The five fields of CFG that a write gives before it arms. -/
def fiCfgFields (i : Nat) : List Field := [F.FI_CFG_OPS i, F.FI_CFG_TARGET i, F.FI_CFG_FIX i, F.FI_CFG_SHOT i, F.FI_CFG_ACTION i]

/-- The state with those fields given. -/
def State.fiGiven (s : State) (i v : Nat) : State :=
  ((((s.set (F.FI_CFG_OPS i) (bits v 32 3)).set (F.FI_CFG_TARGET i) (bits v 16 16)).set (F.FI_CFG_FIX i) (bits v 3 1)).set
    (F.FI_CFG_SHOT i) (bits v 2 1)).set (F.FI_CFG_ACTION i) (bits v 0 2)

theorem State.fiGiven_only (s : State) (i v : Nat) : OnlyFields (fiCfgFields i) s (s.fiGiven i v) :=
  (((((OnlyFields.refl _ s).set (by simp [fiCfgFields]) _).set (by simp [fiCfgFields]) _).set (by simp [fiCfgFields]) _).set
    (by simp [fiCfgFields]) _).set (by simp [fiCfgFields]) _

/-- The registers that arming reads or gives beside those five. -/
def fiOthers (i : Nat) : List Field := [F.FI_CFG_ARM i, F.FI_CFG_STATE i, F.FI_EVERY_N i, F.FI_POS_SPAN i, F.FI_POS_WINDOW i, F.FI_CTL_EN,
  F.SYS_FUNC_READY_READY, F.SYS_MODE_CUR, F.DBG_STATUS_LEVEL]

/-- They stand apart from those five. -/
theorem fi_keys {i : Nat} (hi : i < 7) : ∀ g ∈ fiOthers i, g.key ∉ (fiCfgFields i).map Field.key :=
  (by decide : ∀ i < 7, ∀ g ∈ fiOthers i, g.key ∉ (fiCfgFields i).map Field.key) i hi

theorem State.fiGiven_other (s : State) {i : Nat} (hi : i < 7) (v : Nat) {g : Field} (hg : g ∈ fiOthers i) : (s.fiGiven i v).get g = s.get g :=
  (s.fiGiven_only i v).2 g (fi_keys hi g hg)

/-- What the five fields read. -/
theorem State.fiGiven_get (s : State) {i : Nat} (hi : i < 7) (v : Nat) :
    (s.fiGiven i v).get (F.FI_CFG_ACTION i) = bits v 0 2 ∧ (s.fiGiven i v).get (F.FI_CFG_TARGET i) = bits v 16 16 ∧
      (s.fiGiven i v).get (F.FI_CFG_SHOT i) = bits v 2 1 ∧ (s.fiGiven i v).get (F.FI_CFG_FIX i) = bits v 3 1 := by
  have hmod {lo w : Nat} : bits v lo w % 2 ^ w = bits v lo w := Nat.mod_mod _ _
  refine ⟨?_, ?_, ?_, ?_⟩
  all_goals
    obtain rfl | rfl | rfl | rfl | rfl | rfl | rfl := cases_lt_seven hi <;>
      simp (disch := decide) only [State.fiGiven, State.get_set_ne, State.get_set_self] <;> exact hmod

/-- Whether arming is permitted does not hang on an injector's registers. -/
theorem State.fiGiven_permitted (s : State) {i : Nat} (hi : i < 7) (v : Nat) : (s.fiGiven i v).fiPermitted = s.fiPermitted := by
  have hget {g : Field} (hg : g ∈ fiOthers i) := s.fiGiven_other hi v hg
  have hmode : (s.fiGiven i v).mode = s.mode := hget (by simp [fiOthers])
  have hlevel : (s.fiGiven i v).dbgLevel = s.dbgLevel := hget (by simp [fiOthers])
  unfold State.fiPermitted
  rw [State.ready_congr (hget (by simp [fiOthers])), hget (g := F.FI_CTL_EN) (by simp [fiOthers]), hmode, hlevel]

/-- A write with ARM set, on an injector that is neither armed nor holds a unit. -/
theorem State.fiCfg_arms {s : State} {i v : Nat} (h1 : s.get (F.FI_CFG_STATE i) ≠ 1) (h2 : s.get (F.FI_CFG_STATE i) ≠ 2) (hact : bits v 0 2 < 3)
    (harm : bit v 4 = true) :
    s.fiCfg i v = if !(s.fiGiven i v).fiPermitted then s.fiGiven i v
      else if !(s.fiGiven i v).fiValid i then (s.fiGiven i v).raise E.FI_ARM_REFUSED
      else (((s.fiGiven i v).set (F.FI_CFG_ARM i) 1).set (F.FI_CFG_STATE i) 1).set (F.FI_UNITS_COUNT i) 0 := by
  have hidle : s.fiActive i = false := by simp [State.fiActive, h1, h2]
  unfold State.fiCfg
  extract_lets s1 s2
  have hs2 : s2 = s.fiGiven i v := if_pos hact
  rw [hidle, if_neg Bool.false_ne_true, harm, hs2]
  rfl

theorem bits_one_eq_one {v n : Nat} : bits v n 1 = 1 ↔ bit v n = true := by simp [bits, bit]

/-- A configuration that is reserved is not valid. -/
theorem State.fiGiven_invalid {s : State} {i v : Nat} (hi : i < 7)
    (h : s.get (F.FI_EVERY_N i) = 0 ∨ s.get (F.FI_POS_SPAN i) = 0 ∨ 64 < s.get (F.FI_POS_SPAN i) ∨
      (bits v 0 2 = 2 ∧ (i = 4 ∨ i = 5 ∨ s.get (F.FI_POS_WINDOW i) = 0)) ∨ (bit v 3 = true ∧ (i = 0 ∨ 4 ≤ i))) :
    (s.fiGiven i v).fiValid i = false := by
  obtain ⟨hact, -, -, hfix⟩ := s.fiGiven_get hi v
  have hget {g : Field} (hg : g ∈ fiOthers i) := s.fiGiven_other hi v hg
  unfold State.fiValid
  rw [hget (g := F.FI_EVERY_N i) (by simp [fiOthers]), hget (g := F.FI_POS_SPAN i) (by simp [fiOthers]),
    hget (g := F.FI_POS_WINDOW i) (by simp [fiOthers]), hact, hfix]
  rcases h with h | h | h | ⟨h, h4 | h5 | hw⟩ | ⟨h, hrange⟩
  · simp [h]
  · simp [h]
  · simp [Nat.not_le.mpr h]
  · simp [h, h4]
  · simp [h, h5]
  · simp [h, hw]
  · have hno : (decide (1 ≤ i) && decide (i ≤ 3)) = false := by
      rw [Bool.and_eq_false_iff, decide_eq_false_iff_not, decide_eq_false_iff_not]
      omega
    simp [bits_one_eq_one.mpr h, hno]

/-- One that drops or corrupts, within its range, is valid. -/
theorem State.fiGiven_valid {s : State} {i v : Nat} (hi : i < 7) (hn : s.get (F.FI_EVERY_N i) ≠ 0) (hspan : s.get (F.FI_POS_SPAN i) ≠ 0)
    (hmax : s.get (F.FI_POS_SPAN i) ≤ 64) (hre : bits v 0 2 ≠ 2) (hfix : bit v 3 = false) : (s.fiGiven i v).fiValid i = true := by
  obtain ⟨hact, -, -, hfix'⟩ := s.fiGiven_get hi v
  have hget {g : Field} (hg : g ∈ fiOthers i) := s.fiGiven_other hi v hg
  have hno : bits v 3 1 ≠ 1 := fun h => by simp [bits_one_eq_one.mp h] at hfix
  unfold State.fiValid
  rw [hget (g := F.FI_EVERY_N i) (by simp [fiOthers]), hget (g := F.FI_POS_SPAN i) (by simp [fiOthers]),
    hget (g := F.FI_POS_WINDOW i) (by simp [fiOthers]), hact, hfix']
  simp [hn, hspan, hmax, hre, hno]

/-- An injector that arms: ARM and STATE rise, its count of units begins again, and the three fields it acts by are left. -/
theorem State.fiArmed_get (s : State) {i : Nat} (hi : i < 7) :
    let t := ((s.set (F.FI_CFG_ARM i) 1).set (F.FI_CFG_STATE i) 1).set (F.FI_UNITS_COUNT i) 0
    t.get (F.FI_CFG_ARM i) = 1 ∧ t.get (F.FI_CFG_STATE i) = 1 ∧ t.get (F.FI_UNITS_COUNT i) = 0 ∧
      ∀ g ∈ [F.FI_CFG_ACTION i, F.FI_CFG_TARGET i, F.FI_CFG_SHOT i], t.get g = s.get g := by
  have harm : (F.FI_CFG_ARM i).key ≠ (F.FI_CFG_STATE i).key ∧ (F.FI_CFG_ARM i).key ≠ (F.FI_UNITS_COUNT i).key ∧
      (F.FI_CFG_STATE i).key ≠ (F.FI_UNITS_COUNT i).key := by
    obtain rfl | rfl | rfl | rfl | rfl | rfl | rfl := cases_lt_seven hi <;> decide
  have hother : ∀ g ∈ [F.FI_CFG_ACTION i, F.FI_CFG_TARGET i, F.FI_CFG_SHOT i],
      g.key ≠ (F.FI_UNITS_COUNT i).key ∧ g.key ≠ (F.FI_CFG_STATE i).key ∧ g.key ≠ (F.FI_CFG_ARM i).key := by
    obtain rfl | rfl | rfl | rfl | rfl | rfl | rfl := cases_lt_seven hi <;> decide
  obtain ⟨has, hau, hsu⟩ := harm
  refine ⟨?_, ?_, State.get_set_self _ _ _, fun g hg => ?_⟩
  · rw [State.get_set_ne _ _ hau, State.get_set_ne _ _ has]
    exact State.get_set_self _ _ _
  · rw [State.get_set_ne _ _ hsu]
    exact State.get_set_self _ _ _
  · obtain ⟨hu, hs, ha⟩ := hother g hg
    rw [State.get_set_ne _ _ hu, State.get_set_ne _ _ hs, State.get_set_ne _ _ ha]

/-! ### A qualifying unit (R592) -/

/-- What a unit counts on an armed injector. -/
def State.fiCounted (s : State) (i : Nat) : State := s.addSat (F.FI_UNITS_COUNT i) 1

/-- What ACTION says. -/
def fiAction : Nat → FiDo
  | 0 => .drop
  | 1 => .corrupt
  | _ => .reorder

/-- What an injector records when it acts. -/
def State.fiActed (s : State) (i : Nat) : State :=
  let s1 := (((s.fiCounted i).inc (F.FI_ACTED_COUNT i)).set (F.FI_LAST_TB_TB i) s.tb).setEvt ⟨Pg.FI, i⟩
  if s.get (F.FI_CFG_SHOT i) = 1 then s1.set (F.FI_CFG_STATE i) 3 else s1

section
variable {s : State} {i : Nat}

theorem State.fiUnit_idle (h1 : s.get (F.FI_CFG_STATE i) ≠ 1) (h2 : s.get (F.FI_CFG_STATE i) ≠ 2) : s.fiUnit i = (.pass, s) :=
  if_neg (by simp [h1, h2])

theorem State.fiUnit_pass (hact : s.get (F.FI_CFG_STATE i) = 1)
    (hno : s.get (F.FI_UNITS_COUNT i) < s.get (F.FI_EVERY_START i) ∨
      (s.get (F.FI_UNITS_COUNT i) - s.get (F.FI_EVERY_START i)) % s.get (F.FI_EVERY_N i) ≠ 0) : s.fiUnit i = (.pass, s.fiCounted i) := by
  refine (if_pos (by simp [hact])).trans (if_neg ?_)
  rcases hno with h | h
  · simp [Nat.not_le.mpr h]
  · simp [h]

theorem State.fiUnit_acts (hact : s.get (F.FI_CFG_STATE i) = 1) (hstart : s.get (F.FI_EVERY_START i) ≤ s.get (F.FI_UNITS_COUNT i))
    (hn : s.get (F.FI_EVERY_N i) ≠ 0) (hmod : (s.get (F.FI_UNITS_COUNT i) - s.get (F.FI_EVERY_START i)) % s.get (F.FI_EVERY_N i) = 0) :
    s.fiUnit i = (fiAction (s.get (F.FI_CFG_ACTION i)), s.fiActed i) :=
  (if_pos (by simp [hact])).trans (if_pos (by simp [hstart, hn, hmod]))

end

/-- What an act leaves in the registers. -/
theorem State.fiActed_get (s : State) {i : Nat} (hi : i < 7) :
    (s.fiActed i).get (F.FI_UNITS_COUNT i) = min (s.get (F.FI_UNITS_COUNT i) + 1) (2 ^ 64 - 1) ∧
      (s.fiActed i).get (F.FI_ACTED_COUNT i) = min (s.get (F.FI_ACTED_COUNT i) + 1) (2 ^ 32 - 1) ∧
      (s.fiActed i).get (F.FI_LAST_TB_TB i) = s.tb % 2 ^ 64 ∧
      (s.get (F.FI_CFG_SHOT i) = 1 → (s.fiActed i).get (F.FI_CFG_STATE i) = 3) := by
  have hshot {g : Field} (hne : g.key ≠ (F.FI_CFG_STATE i).key) :
      (s.fiActed i).get g = ((((s.fiCounted i).inc (F.FI_ACTED_COUNT i)).set (F.FI_LAST_TB_TB i) s.tb).setEvt ⟨Pg.FI, i⟩).get g := by
    unfold State.fiActed
    split
    · exact State.get_set_ne _ _ hne
    · rfl
  obtain ⟨hus, has, hts, hue, hae, hte, hut, hua, hat⟩ : (F.FI_UNITS_COUNT i).key ≠ (F.FI_CFG_STATE i).key ∧
      (F.FI_ACTED_COUNT i).key ≠ (F.FI_CFG_STATE i).key ∧
      (F.FI_LAST_TB_TB i).key ≠ (F.FI_CFG_STATE i).key ∧ (F.FI_UNITS_COUNT i).key ≠ (F.EVT_RAW Pg.FI).key ∧
      (F.FI_ACTED_COUNT i).key ≠ (F.EVT_RAW Pg.FI).key ∧ (F.FI_LAST_TB_TB i).key ≠ (F.EVT_RAW Pg.FI).key ∧
      (F.FI_UNITS_COUNT i).key ≠ (F.FI_LAST_TB_TB i).key ∧ (F.FI_UNITS_COUNT i).key ≠ (F.FI_ACTED_COUNT i).key ∧
      (F.FI_ACTED_COUNT i).key ≠ (F.FI_LAST_TB_TB i).key := by
    obtain rfl | rfl | rfl | rfl | rfl | rfl | rfl := cases_lt_seven hi <;> decide
  refine ⟨?_, ?_, ?_, fun h => ?_⟩
  · rw [hshot hus, State.setEvt, State.setBitTo, State.get_set_ne _ _ hue, State.get_set_ne _ _ hut, State.get_inc_ne _ hua]
    exact s.get_inc_self _
  · rw [hshot has, State.setEvt, State.setBitTo, State.get_set_ne _ _ hae, State.get_set_ne _ _ hat, State.get_inc_self, State.fiCounted,
      State.addSat, State.get_set_ne _ _ hua.symm]
    rfl
  · rw [hshot hts, State.setEvt, State.setBitTo, State.get_set_ne _ _ hte]
    exact State.get_set_self _ _ _
  · rw [State.fiActed, if_pos h]
    exact State.get_set_self _ _ _

/-- Settles O54: CFG by `fiCfg_arms`, a unit by the cases of `fiUnit`. -/
theorem injectors : Obligations.Injectors := by
  unfold Obligations.Injectors
  intro s i hi
  refine ⟨fun who v htakes => ?_, fun who htakes => ⟨⟨_, rfl, State.rwAction_takes _ htakes⟩, ⟨_, rfl, State.rwAction_takes _ htakes⟩⟩,
    State.fiUnit_idle, fun hact => ?_⟩
  · intro s0
    have hexec : exec (.fiCfgWrite who i v) s = .next (s0.fiCfg i v) :=
      congrArg Host.Outcome.next ((if_pos hi).trans (State.rwAction_takes _ htakes))
    refine ⟨fun hactive => ?_, fun h1 h2 hact harm => ?_⟩
    · have hactive : s0.fiActive i = true := by rcases hactive with h | h <;> simp [State.fiActive, h]
      refine ⟨fun harm => ⟨_, hexec, (if_pos hactive).trans (if_pos harm)⟩, fun harm => ⟨_, hexec, (if_pos hactive).trans (if_neg ?_)⟩⟩
      rw [harm]
      exact Bool.false_ne_true
    · have harms := State.fiCfg_arms h1 h2 hact harm
      rw [s0.fiGiven_permitted hi v] at harms
      have honly := s0.fiGiven_only i v
      have hkept {g : Field} (hg : g ∈ fiOthers i) := s0.fiGiven_other hi v hg
      refine ⟨fun hno => ⟨_, hexec, ?_⟩, fun hperm hbad => ⟨_, hexec, ?_⟩, fun hperm hn hspan hmax hre hfix => ⟨_, hexec, ?_⟩⟩
      · rw [harms, hno]
        exact ⟨hkept (by simp [fiOthers]), hkept (by simp [fiOthers]), honly.1⟩
      · rw [harms, hperm, State.fiGiven_invalid hi hbad]
        refine ⟨(State.get_raise _ _ ?_).trans (hkept (by simp [fiOthers])), State.raise_getBit _ (by decide)⟩
        exact (by decide : ∀ i < 7, quiet (F.FI_CFG_ARM i).key = true) i hi
      · rw [harms, hperm, State.fiGiven_valid hi hn hspan hmax hre hfix]
        obtain ⟨hact', htarget, hshot, -⟩ := s0.fiGiven_get hi v
        obtain ⟨harm', hstate, hunits, hlast⟩ := (s0.fiGiven i v).fiArmed_get hi
        exact ⟨harm', hstate, hunits, (hlast _ (by simp)).trans hact', (hlast _ (by simp)).trans htarget, (hlast _ (by simp)).trans hshot, rfl⟩
  · intro c start n
    obtain ⟨hunits, hacted, hlast, hshot⟩ := s.fiActed_get hi
    refine ⟨?_, fun hno => ?_, fun hstart hn hmod => ?_⟩
    · by_cases hall : start ≤ c ∧ n ≠ 0 ∧ (c - start) % n = 0
      · rw [State.fiUnit_acts hact hall.1 hall.2.1 hall.2.2]
        exact hunits
      · have hpass : s.fiUnit i = (.pass, s.fiCounted i) := (if_pos (by simp [hact])).trans (if_neg (by simpa [and_assoc] using hall))
        rw [hpass]
        exact s.get_inc_self _
    · rw [State.fiUnit_pass hact hno]
      exact ⟨rfl, State.set_only _ _ _⟩
    · rw [State.fiUnit_acts hact hstart hn hmod]
      exact ⟨hacted, hlast, hshot, fun h => congrArg fiAction h, fun h => congrArg fiAction h⟩

end Sys2Proof.Machine
end

section
/-!
Takes that start, stop and close, frames that become durable, FRM_IN pulses and capture units (R258 to R263, R266, R271, R278).
-/

namespace Sys2Proof.Machine

/-! ### What the records of takes and frames leave -/

/-- One state follows another with the registers, the protected buffer and the events left as `quiet` says, and with the Frame Engine and
the state of the pair left. -/
structure Noted (s t : State) : Prop where
  leaves : Leaves quiet s t
  frm : t.frm = s.frm
  mirroring : t.mirroring = s.mirroring

theorem Noted.refl (s : State) : Noted s s := ⟨Leaves.refl s, rfl, rfl⟩

theorem Noted.trans {s t u : State} (h : Noted s t) (k : Noted t u) : Noted s u :=
  ⟨h.leaves.trans k.leaves, k.frm.trans h.frm, k.mirroring.trans h.mirroring⟩

theorem Calm.noted {s t : State} (h : Calm quiet s t) : Noted s t := ⟨h.leaves, h.frm, h.mirroring⟩

theorem Noted.ite {c : Prop} [Decidable c] {s a b : State} (ha : Noted s a) (hb : Noted s b) : Noted s (if c then a else b) := by
  split
  · exact ha
  · exact hb

theorem Noted.withMap (s : State) (x : MapSt) : Noted s { s with map := x } := ⟨Leaves.withMap s x, rfl, rfl⟩

theorem Noted.withNv (s : State) (x : Nv) : Noted s { s with nv := x } := ⟨Leaves.withNv s x, rfl, rfl⟩

theorem State.note_noted (s : State) (r : Rec) : Noted s (s.note r) := by
  unfold State.note State.journal
  dsimp only
  exact Noted.ite (Noted.withMap s _) ((Noted.withMap s _).trans (State.raise_calm _ _).noted)

theorem State.listTake_noted (s : State) (num : Nat) : Noted s (s.listTake num) :=
  Noted.ite (Noted.refl s) ((Noted.withNv s _).trans (State.raiseIf_calm _ _ _).noted)

theorem State.noteTake_noted (s : State) (t : Take) : Noted s (s.noteTake t) :=
  ((s.note_noted _).trans (State.sendRecord_calm _ _).noted).trans (State.listTake_noted _ _)

theorem State.noteAppend_noted (s : State) (st n : Nat) : Noted s (s.noteAppend st n) := (s.note_noted _).trans (State.sendRecord_calm _ _).noted

theorem State.noteEntry_noted (s : State) (e : Entry) : Noted s (s.noteEntry e) :=
  Noted.ite (((s.note_noted _).trans (State.listTake_noted _ _)).trans (State.sendRecord_calm _ _).noted)
    ((s.note_noted _).trans (State.listTake_noted _ _))

/-! ### Takes (R258 to R263) -/

/-- R250: the link's stop is judged while it drains only. -/
theorem State.ingestStopCheck_idle {s : State} (h : s.get F.INGEST_STATUS_FSTATE ≠ 3) : s.ingestStopCheck = s := if_neg (by simp [h])

/-- A fold whose steps change nothing. -/
theorem foldl_eq_self {α β : Type} {f : β → α → β} {l : List α} {b : β} (h : ∀ x ∈ l, f b x = b) : l.foldl f b = b :=
  List.foldlRecOn l f (motive := fun b' => b' = b) rfl fun _ hb x hx => hb ▸ h x hx

/-- A Take Start whose fields are valid comes to its mode. -/
theorem State.takeStart_judged {s : State} {id : Cid} {first last : Nat} (hfetch : s.fetches id) (hsrc : id.src = .host 0) (hle : first ≤ last)
    (hmax : last ≤ 255) (hroom : (s.atFetch id).lastTakeUsed < 0xFFFFFFFF) (hregion : (s.atFetch id).noRegion first last = false)
    (htrans : (s.atFetch id).mc.trans = none) :
    exec (.takeStart id 0 first last false) s = .next ((s.atFetch id).judge id
      [(!(s.atFetch id).takeMode || (s.atFetch id).mc.drain.isSome, (7, 0x81, (s.atFetch id).mode)), ((s.atFetch id).ioLocked, (7, 0x83, 0)),
        (s.atFetch id).sanitCheck]
      (fun s => s.startTake false id 0 first last)) := by
  change execTakeStart id 0 first last false s = _
  rw [execTakeStart, State.arrive_fetches _ hfetch, State.judge_passes]
  · have hno : ¬((s.atFetch id).mc.trans.any (fun t => t.target ≠ Md.RECORD) && decide ((s.atFetch id).mode ≠ Md.REST)) = true := by simp [htrans]
    exact congrArg Host.Outcome.next (if_neg hno)
  · simp [hostAdminOnly_admin hsrc, badField, Nat.not_lt.mpr hle, Nat.not_lt.mpr hmax, Nat.not_le.mpr hroom, hregion]

/-- A Take Stop comes to the takes that are live. -/
theorem State.takeStop_judged {s : State} {id : Cid} (take : Nat) (hfetch : s.fetches id) (hsrc : id.src = .host 0) :
    exec (.takeStop id take false) s = .next ((s.atFetch id).askStopTake false id take) := by
  change execTakeStop id take false s = _
  rw [execTakeStop, State.arrive_fetches _ hfetch, State.judge_passes]
  · rfl
  · simp [hostAdminOnly_admin hsrc, badField]

/-- Closing with reason 1 leaves the Frame Engine's waits and the mode. -/
theorem State.takeClosed_noted (s : State) (k : Take) : Noted s (s.takeClosed k 1) :=
  (s.noteTake_noted _).trans (State.raise_calm _ _).noted

/-- No orphan: none is closed. -/
theorem State.closeTakeOrphans_none {s : State} (take : Nat) (h : ∀ v < 8, (s.vc v).orphan = none) : s.closeTakeOrphans take = s :=
  foldl_eq_self fun v hv => by rw [h v (List.mem_range.mp hv)]

/-- Without waits none is dropped. -/
theorem State.dropWaits_none {s : State} (take : Nat) (h : s.frm.waits = []) : s.dropWaits take = s := by
  rw [State.dropWaits, h]
  rfl

/-- A take that no frame keeps open closes with reason 1. -/
theorem State.takeClose_closes {s : State} {take : Nat} {k : Take} (hfind : s.map.ts.takes.find? take = some k) (hphase : k.phase = 1)
    (hrecs : s.takeRecs take = []) (hcap : s.frm.capHead = none) (hstop : k.stopper = none) (hwaits : s.frm.waits = []) (hmode : s.mode ≠ Md.RECORD)
    (horphan : ∀ v < 8, (s.vc v).orphan = none) : exec (.takeClose take) s = .next ((s.takeClosed k 1).dropWaits take) := by
  have hnoted := s.takeClosed_noted k
  have hmode' : ((s.takeClosed k 1).dropWaits take).mode = s.mode := by
    rw [State.dropWaits_none take (congrArg FrameSt.waits hnoted.frm |>.trans hwaits)]
    exact hnoted.leaves.get _ (by decide)
  change execTakeClose take s = _
  simp only [execTakeClose, done, hfind, hphase, ne_eq, not_true_eq_false, if_false, hrecs, List.all_nil, if_true,
    State.closeTakeOrphans_none take horphan, hcap, hstop, Option.any_none, Bool.or_false, decide_not, decide_true, Bool.not_true, Bool.false_eq_true,
    hmode', hmode, decide_false, Bool.false_and]

/-! ### Pulses (R266) -/

theorem State.addPulse_effect (s : State) (p : Pulse) :
    (s.addPulse p).frm.pulses = s.frm.pulses + 1 ∧ (s.addPulse p).tim = s.tim ∧ (s.addPulse p).frm.ring.getLast? = some p ∧
      (s.addPulse p).frm.ring.length ≤ 64 ∧ (s.addPulse p).slots = s.slots ∧ (s.addPulse p).frm.recs = s.frm.recs := by
  unfold State.addPulse
  extract_lets ring ring' total' oldest late lost frm s1
  have hcalm := State.raiseIf_calm (s1.addSat F.FRAME_PULSE_STAT_PULSE_SKIP lost) (lost ≠ 0) E.FRAME_PULSE_SKIP
  have hfrm : _ = s1.frm := hcalm.frm
  have hlen : ring.length = s.frm.ring.length + 1 := by simp [ring]
  refine ⟨(congrArg FrameSt.pulses hfrm :), hcalm.tim, (congrArg (fun f : FrameSt => f.ring.getLast?) hfrm).trans ?_,
    Nat.le_trans (Nat.le_of_eq (congrArg (fun f : FrameSt => f.ring.length) hfrm)) ?_, hcalm.slots, (congrArg FrameSt.recs hfrm :)⟩
  · change (ring.drop (ring.length - 64)).getLast? = some p
    rw [List.getLast?_drop, if_neg (by omega)]
    simp [ring]
  · change (ring.drop (ring.length - 64)).length ≤ 64
    rw [List.length_drop]
    omega

/-! ### Durable frames (R271, R272) -/

/-- The state with a durable frame's entry journaled and counted, before its result goes to the peer. -/
def State.entered (s : State) (r : FrameRec) (id : Nat) : State :=
  let s1 := (s.noteEntry (s.entryOf r)).noteAppend r.stream (r.leaf0 + r.units)
  let s1 := { s1 with frm := { s1.frm with recs := s1.frm.recs.filter (fun x => x.id ≠ id) } }
  let s1 := s1.mapSlots (fun x => x.owner = .frame id) (fun x => { x with owner := .none })
  let s1 := s1.inc F.FRAME_COUNTS_ENTRIES
  let s1 := if bit r.flags 9 then s1.inc F.FRAME_COUNTS_SKETCHES else s1
  if bit r.flags 10 then s1.inc F.FRAME_ACAP_STAT_UNITS else s1

/-- A count leaves all but its field. -/
theorem State.countIf_effect (s : State) (c : Bool) {f g : Field} (hne : g.key ≠ f.key) :
    (if c then s.inc f else s).frm = s.frm ∧ (if c then s.inc f else s).mirroring = s.mirroring ∧ (if c then s.inc f else s).get g = s.get g := by
  cases c
  · exact ⟨rfl, rfl, rfl⟩
  · exact ⟨rfl, rfl, State.get_inc_ne s hne⟩

theorem State.entered_effect (s : State) (r : FrameRec) (id : Nat) :
    (s.entered r id).frm = { s.frm with recs := s.frm.recs.filter (fun x => x.id ≠ id) } ∧ (s.entered r id).mirroring = s.mirroring ∧
      (s.entered r id).get F.FRAME_COUNTS_ENTRIES = min (s.get F.FRAME_COUNTS_ENTRIES + 1) (2 ^ 32 - 1) ∧ (s.entered r id).mode = s.mode := by
  have hnoted := (s.noteEntry_noted (s.entryOf r)).trans (State.noteAppend_noted _ r.stream (r.leaf0 + r.units))
  let u := (s.noteEntry (s.entryOf r)).noteAppend r.stream (r.leaf0 + r.units)
  let v : State := State.inc (State.mapSlots { u with frm := { u.frm with recs := u.frm.recs.filter (fun x => x.id ≠ id) } }
    (fun x => x.owner = .frame id) (fun x => { x with owner := .none })) F.FRAME_COUNTS_ENTRIES
  have hv : v.frm = { s.frm with recs := s.frm.recs.filter (fun x => x.id ≠ id) } :=
    (congrArg (fun f : FrameSt => { f with recs := f.recs.filter (fun x => x.id ≠ id) }) hnoted.frm :)
  have hcounted {g : Field} (h9 : g.key ≠ F.FRAME_COUNTS_SKETCHES.key) (h10 : g.key ≠ F.FRAME_ACAP_STAT_UNITS.key) :
      (s.entered r id).frm = v.frm ∧ (s.entered r id).mirroring = v.mirroring ∧ (s.entered r id).get g = v.get g := by
    obtain ⟨hfrm, hm, hget⟩ := State.countIf_effect v (bit r.flags 9) h9
    obtain ⟨hfrm', hm', hget'⟩ := State.countIf_effect (if bit r.flags 9 then v.inc F.FRAME_COUNTS_SKETCHES else v) (bit r.flags 10) h10
    exact ⟨hfrm'.trans hfrm, hm'.trans hm, hget'.trans hget⟩
  obtain ⟨hfrm, hm, hentries⟩ := hcounted (g := F.FRAME_COUNTS_ENTRIES) (by decide) (by decide)
  obtain ⟨-, -, hmode⟩ := hcounted (g := F.SYS_MODE_CUR) (by decide) (by decide)
  refine ⟨hfrm.trans hv, hm.trans hnoted.mirroring, hentries.trans ((State.get_inc_self _ _).trans ?_), hmode.trans ?_⟩
  · exact congrArg (fun c => min (c + 1) (2 ^ 32 - 1)) (hnoted.leaves.get F.FRAME_COUNTS_ENTRIES (by decide))
  · exact (State.get_inc_ne _ (by decide)).trans (hnoted.leaves.get _ (by decide))

/-- Without waits none is served. -/
theorem State.serveWaits_none {s : State} (h : s.frm.waits = []) : s.serveWaits = s := by
  rw [State.serveWaits, h]
  rfl

/-- A durable frame without a peer or a wait has its entry, and its record is gone. -/
theorem exec_frameDurable {s : State} {id : Nat} {r : FrameRec} (hrec : s.rec? id = some r) (hdur : s.recDurable r = true) (hnext : s.recNext r = true)
    (hmirror : s.mirroring = false) (hwaits : s.frm.waits = []) : exec (.frameDurable id) s = .next (s.entered r id) := by
  obtain ⟨hfrm, hm, -⟩ := s.entered_effect r id
  have hno : ¬(s.entered r id).mirroring = true := by rw [hm, hmirror]; exact Bool.false_ne_true
  change execFrameDurable id s = _
  rw [execFrameDurable, done, hrec]
  dsimp only
  rw [if_pos (by simp [hdur, hnext])]
  exact (congrArg (fun u : State => Host.Outcome.next u.serveWaits) (if_neg hno)).trans
    (congrArg Host.Outcome.next (State.serveWaits_none ((congrArg FrameSt.waits hfrm).trans hwaits)))

/-- Settles O34: takes by `takeStart_judged`, `takeStop_judged` and `takeClose_closes`, pulses by `addPulse_effect`, frames by
`exec_frameDurable`. -/
theorem takesAndFrames : Obligations.TakesAndFrames := by
  unfold Obligations.TakesAndFrames
  refine ⟨fun s id => ⟨fun hfetch hsrc => ?_, fun take hnone => ?_, fun take k hfind hphase => ?_⟩, fun s => ?_⟩
  · intro s0
    refine ⟨fun first last hle hmax hroom hregion htrans => ?_, fun take hnone => ⟨_, State.takeStop_judged take hfetch hsrc, ?_⟩,
      fun take k hfind hfollows hleads hcap hstate => ⟨_, State.takeStop_judged take hfetch hsrc, ?_⟩⟩
    · have hexec := State.takeStart_judged hfetch hsrc hle hmax hroom hregion htrans
      refine ⟨fun hmode => ⟨_, hexec, ?_⟩, fun hmode hdrain hlock hsanit hfollows => ?_⟩
      · rw [State.judge_fails (w := (true, (7, 0x81, s0.mode)))]
        · rfl
        · simp [s0, hmode]
      · have hstart : (s0.judge id [(!s0.takeMode || s0.mc.drain.isSome, (7, 0x81, s0.mode)), (s0.ioLocked, (7, 0x83, 0)), s0.sanitCheck]
            (fun s => s.startTake false id 0 first last)) = s0.startTake false id 0 first last :=
          State.judge_passes _ (by simp [hmode, hdrain, hlock, State.sanitCheck, hsanit])
        rw [hstart] at hexec
        refine ⟨fun st hst => ⟨_, hexec, ?_⟩, fun hfree hfull => ⟨_, hexec, ?_⟩, fun hfree hfew hleads => ⟨_, hexec, ?_⟩⟩
        · rw [State.startTake, State.judge_fails (w := (true, (7, 0x86, st)))]
          · rfl
          · simp [State.takeRefusal, hfollows, hst]
        · rw [State.startTake, State.judge_fails (w := (true, (7, 0x88, 16)))]
          · rfl
          · simp [State.takeRefusal, hfollows, hfree, hfull]
        · rw [State.startTake, State.judge_passes]
          · rw [hleads]
            rfl
          · simp [State.takeRefusal, hfollows, hfree, Nat.not_le.mpr hfew]
    · rw [State.askStopTake, hnone]
    · have hstop : s0.askStopTake false id take = s0.stopTake id k := by
        rw [State.askStopTake, hfind]
        simp only [hfollows, hleads, Bool.false_and, Bool.false_eq_true, if_false]
      rw [hstop, State.stopTake, State.setTake, hcap]
      exact State.ingestStopCheck_idle hstate
  · cases hfind : s.map.ts.takes.find? take with
    | none =>
      refine ⟨⟨_, rfl, ?_⟩, ⟨_, rfl, ?_⟩⟩
      · rw [hfind]
      · rw [hfind]
    | some k =>
      have hphase : k.phase ≠ 1 := by simpa [hfind] using hnone
      refine ⟨⟨_, rfl, ?_⟩, ⟨_, rfl, ?_⟩⟩
      · rw [hfind]
        exact if_pos hphase
      · rw [hfind]
        exact if_neg hphase
  · refine ⟨fun hrecs hcap hstop hwaits hmode horphan => ⟨_, State.takeClose_closes hfind hphase hrecs hcap hstop hwaits hmode horphan, rfl⟩,
      ⟨_, rfl, ?_⟩⟩
    rw [hfind]
    exact if_pos hphase
  · refine ⟨fun hoff => ⟨_, rfl, if_pos ?_⟩, fun hkeep hrest hseal hready hlevel => ⟨_, rfl, ?_⟩, fun id hnone => ⟨_, rfl, ?_⟩, fun id r hrec => ?_,
      fun hnone => ⟨_, rfl, ?_⟩, fun h _ => ⟨_, rfl, rfl⟩, fun a b => ?_, fun feed a hcrc => ?_⟩
    · rcases hoff with h | h | h | h <;> simp [h]
    · rw [if_neg (by simp [hkeep, hrest, hseal, hready, hlevel])]
      extract_lets s1 s2 n
      have hfrm : s2.frm = s.frm := by
        simp only [s2]
        split <;> rfl
      have hslots : s2.slots = s.slots := by
        simp only [s2]
        split <;> rfl
      obtain ⟨hpulses, htim, hlast, hlen, hkept, hrecs⟩ := State.addPulse_effect (State.inc { s2 with
        tim := { s2.tim with lastFrm := some s.tb }, frm := { s2.frm with pulseSub := s.frm.pulseSub + 1 } } F.FRAME_PULSE_STAT_PULSES)
        ⟨s.tb, n.addr, n.used, n.user, n.drop, s.frm.pulseSub⟩
      exact ⟨hpulses.trans (congrArg (fun f : FrameSt => f.pulses + 1) hfrm :), congrArg TimeSt.lastFrm htim, hlast, hlen, hkept.trans hslots,
        hrecs.trans (congrArg FrameSt.recs hfrm :)⟩
    · rw [hnone]
    · refine ⟨fun hno => ⟨_, rfl, ?_⟩, fun hdur hnext hmirror hwaits _ => ⟨_, exec_frameDurable hrec hdur hnext hmirror hwaits, ?_⟩⟩
      · rw [hrec]
        refine if_neg ?_
        rcases hno with h | h <;> simp [h]
      · obtain ⟨hfrm, -, hentries, hmode⟩ := s.entered_effect r id
        exact ⟨congrArg FrameSt.recs hfrm, hentries, hmode⟩
    · rw [State.closeCapture, hnone]
    · simp only [sameFrame, eq_comm]
    · simp [arbOutcome, hcrc]

end Sys2Proof.Machine
end

section
/-!
The map cache's ways (R309): what the clean of ways that were switched off leaves of a latched raise.
-/

namespace Sys2Proof.Machine

/-! ### A field that holds more than its width -/

/-- A state with a clean of ways in progress whose one-bit REENABLE_PENDING holds 2. No step gives a field a value beyond its width
(`State.set` cuts it), but a state of the model may hold one. -/
def wideReenable : State := { regs := [(F.MCACHE_STATUS_REENABLE_PENDING.key, 2)], map := { waysWait := some 0 } }

/-- R309: without a raise latched (REENABLE_PENDING 1) the clean's end leaves REENABLE_PENDING as it is. -/
theorem exec_waysChanged_plain {s : State} {n : Nat} (hwait : s.map.waysWait = some n) (hplain : s.get F.MCACHE_STATUS_REENABLE_PENDING ≠ 1) :
    ∃ t, exec .waysChanged s = .next t ∧ t.get F.MCACHE_STATUS_REENABLE_PENDING = s.get F.MCACHE_STATUS_REENABLE_PENDING := by
  have hget : ((State.set { s with map := { s.map with waysWait := none } } F.MCACHE_STATUS_WAYS_ON n).raise E.MCACHE_WAYS_CHANGED).get
      F.MCACHE_STATUS_REENABLE_PENDING = s.get F.MCACHE_STATUS_REENABLE_PENDING :=
    (State.get_raise _ _ (by decide)).trans (State.get_set_ne _ _ (by decide))
  refine ⟨_, ?_, hget⟩
  change execWaysChanged s = _
  rw [execWaysChanged, done, hwait]
  exact congrArg Host.Outcome.next (if_neg (hget ▸ hplain))

/-- Refutes O35: its last clause says that REENABLE_PENDING reads 0 once a clean of ways is complete, from every state of the model. The
end of a clean clears the field where it reads 1 and leaves it otherwise, so `wideReenable`, where it reads 2, keeps 2. -/
theorem not_journalAndCheckpoints : ¬ Obligations.JournalAndCheckpoints := by
  unfold Obligations.JournalAndCheckpoints
  intro h
  obtain ⟨-, -, -, -, -, -, -, -, -, -, -, -, -, -, -, hways⟩ := h wideReenable
  obtain ⟨t, hexec, -, hzero, -⟩ := hways 0 (by decide) rfl
  obtain ⟨u, hexec', htwo⟩ := exec_waysChanged_plain (s := wideReenable) (n := 0) rfl (by decide)
  obtain rfl : t = u := Host.Outcome.next.inj (hexec.symm.trans hexec')
  rw [htwo] at hzero
  exact absurd hzero (by decide)

end Sys2Proof.Machine
end

section
/-!
The Busaist link: lanes, alignment, the back channel and the enable of the link (R232 to R235, R246 to R250).
-/

namespace Sys2Proof.Machine

/-! ### What a stop of the link, and the end of its alignment, leave -/

/-- What the check of a stop leaves: all but the readiness of functions and the three fields of a stop. -/
def stopQuiet (k : Nat) : Bool :=
  fnQuiet k && k ∉ [F.INGEST_STATUS_FSTATE, F.INGEST_STATUS_LOCKED, F.INGEST_STATUS_REENABLE_PENDING].map Field.key

theorem stopQuiet_fn (k : Nat) (h : stopQuiet k = true) : fnQuiet k = true := (Bool.and_eq_true_iff.mp h).1

theorem State.unalign_idle {s : State} (h : s.get F.INGEST_STATUS_ALIGNED = 0) : s.unalign = s := if_pos h

/-- A link that is not aligned has its stop judged. -/
theorem State.ingestStopCheck_leaves {s : State} (h : s.get F.INGEST_STATUS_ALIGNED = 0) : Leaves stopQuiet s s.ingestStopCheck := by
  unfold State.ingestStopCheck
  rw [State.unalign_idle h]
  refine Leaves.ite ?_ (Leaves.refl s)
  have hstop : Leaves stopQuiet s (((s.clearReady [Fn.BUSAIST_LINK]).set F.INGEST_STATUS_FSTATE 0).set F.INGEST_STATUS_LOCKED 0) :=
    ((s.clearReady_leaves _).mono stopQuiet_fn).trans ((Leaves.set _ (by decide) (by decide)).trans (Leaves.set _ (by decide) (by decide)))
  have hdown := hstop.trans (Leaves.of_regs (t := { ((s.clearReady [Fn.BUSAIST_LINK]).set F.INGEST_STATUS_FSTATE 0).set F.INGEST_STATUS_LOCKED 0 with
    ing := { (((s.clearReady [Fn.BUSAIST_LINK]).set F.INGEST_STATUS_FSTATE 0).set F.INGEST_STATUS_LOCKED 0).ing with wasUp := false } }) rfl rfl)
  exact Leaves.ite (hdown.trans ((Leaves.set _ (by decide) (by decide)).trans (Leaves.set _ (by decide) (by decide)))) hdown

/-- A virtual channel without a frame in progress enters SEEKING. -/
def State.seekVc (s : State) (v : Nat) : State := (s.setVcState v VcS.SEEKING).setVc v { (s.setVcState v VcS.SEEKING).vc v with hdr := none }

/-- What the end of an alignment leaves: all but the readiness of functions and the state of the link and of its channels. -/
def linkQuiet (k : Nat) : Bool :=
  stopQuiet k && k ∉ [F.INGEST_STATUS_ALIGNED, F.INGEST_STATUS_READY, F.INGEST_VC_STATE_STATE].map Field.key

theorem linkQuiet_stop (k : Nat) (h : linkQuiet k = true) : stopQuiet k = true := (Bool.and_eq_true_iff.mp h).1

theorem linkQuiet_quiet (k : Nat) (h : linkQuiet k = true) : quiet k = true := fnQuiet_quiet k (stopQuiet_fn k (linkQuiet_stop k h))

theorem State.vc_congr {s t : State} (h : t.ing.vcs = s.ing.vcs) (v : Nat) : t.vc v = s.vc v := by
  rw [State.vc, State.vc, h]

theorem State.seekVc_effect (s : State) {v : Nat} (hv : v < 8) (hframe : (s.vc v).frame = none) :
    Leaves linkQuiet s (s.seekVc v) ∧ (s.seekVc v).get F.INGEST_STATUS_ALIGNED = s.get F.INGEST_STATUS_ALIGNED ∧
      (∀ w, (s.vc w).frame = none → ((s.seekVc v).vc w).frame = none) ∧
      (s.seekVc v).vcState v = VcS.SEEKING ∧ ∀ w, w < 8 → w ≠ v → (s.seekVc v).vcState w = s.vcState w := by
  refine ⟨?_, ?_, fun w hw => ?_, ?_, fun w hw hne => ?_⟩
  · exact (Leaves.set _ (by decide) (by decide)).trans (Leaves.of_regs rfl rfl)
  · exact State.get_set_ne _ _ (by decide)
  · by_cases hwv : w = v
    · subst hwv
      by_cases hlen : w < s.ing.vcs.length
      · have hvc : (s.seekVc w).vc w = { s.vc w with hdr := none } := by
          simp [State.seekVc, State.vc, State.setVc, State.setVcState, State.setPart, State.set, hlen]
        rw [hvc]
        exact hframe
      · simp [State.seekVc, State.vc, State.setVc, State.setVcState, State.setPart, State.set, hlen]
    · have hvc : (s.seekVc v).vc w = s.vc w := by
        simp [State.seekVc, State.vc, State.setVc, State.setVcState, State.setPart, State.set, List.getD_eq_getElem?_getD,
          List.getElem?_set_ne (Ne.symm hwv)]
      rw [hvc]
      exact hw
  · exact s.getPart_setPart_self _ (show v * 2 + 2 ≤ 16 by omega)
  · exact s.getPart_setPart_ne _ (show w * 2 + 2 ≤ 16 by omega) hne

/-- Channels without frames enter SEEKING one after another. -/
theorem State.seekAll_effect (l : List Nat) (hl : ∀ v ∈ l, v < 8) {s : State} (hframes : ∀ v < 8, (s.vc v).frame = none) :
    let t := l.foldl State.seekVc s
    Leaves linkQuiet s t ∧ t.get F.INGEST_STATUS_ALIGNED = s.get F.INGEST_STATUS_ALIGNED ∧ (∀ v < 8, (t.vc v).frame = none) ∧
      ∀ v < 8, v ∈ l ∨ s.vcState v = VcS.SEEKING → t.vcState v = VcS.SEEKING := by
  induction l generalizing s with
  | nil => exact ⟨Leaves.refl s, rfl, hframes, fun v _ h => h.resolve_left List.not_mem_nil⟩
  | cons x l ih =>
    obtain ⟨hleaves, haligned, hkeeps, hself, hother⟩ := s.seekVc_effect (hl x List.mem_cons_self) (hframes x (hl x List.mem_cons_self))
    obtain ⟨hleaves', haligned', hframes', hseek⟩ := ih (fun v hv => hl v (List.mem_cons_of_mem x hv)) (fun v hv => hkeeps v (hframes v hv))
    refine ⟨hleaves.trans hleaves', haligned'.trans haligned, hframes', fun v hv h => hseek v hv ?_⟩
    by_cases hvx : v = x
    · exact Or.inr (hvx ▸ hself)
    · refine h.imp (fun hm => (List.mem_cons.mp hm).resolve_left hvx) fun hs => ?_
      rw [hother v hv hvx]
      exact hs

/-- What the end of an alignment does to a virtual channel. -/
def State.loseVc (s : State) (v : Nat) : State :=
  let s := (s.closeVc v FLAG_DAMAGED none).setVcState v VcS.SEEKING
  s.setVc v { s.vc v with hdr := none }

theorem State.loseVc_eq {s : State} {v : Nat} (h : (s.vc v).frame = none) : s.loseVc v = s.seekVc v := by
  have hclose : s.closeVc v FLAG_DAMAGED none = s := by rw [State.closeVc, h]
  rw [State.loseVc, hclose]
  rfl

theorem State.loseAll_eq (l : List Nat) (hl : ∀ v ∈ l, v < 8) {s : State} (hframes : ∀ v < 8, (s.vc v).frame = none) :
    l.foldl State.loseVc s = l.foldl State.seekVc s := by
  induction l generalizing s with
  | nil => rfl
  | cons x l ih =>
    have hx := hl x List.mem_cons_self
    rw [List.foldl_cons, List.foldl_cons, State.loseVc_eq (hframes x hx)]
    obtain ⟨-, -, hkeeps, -⟩ := s.seekVc_effect hx (hframes x hx)
    exact ih (fun v hv => hl v (List.mem_cons_of_mem x hv)) fun v hv => hkeeps v (hframes v hv)

/-- The current channel is 0. -/
def State.curFirst (s : State) : State := { s with ing := { s.ing with cur := 0 } }

theorem State.unalign_eq {s : State} (h : s.get F.INGEST_STATUS_ALIGNED ≠ 0) :
    s.unalign = ((List.range 8).foldl State.loseVc
      (((s.set F.INGEST_STATUS_ALIGNED 0).set F.INGEST_STATUS_READY 0).raise E.INGEST_ALIGN_LOST)).curFirst := by
  unfold State.unalign
  rw [if_neg h]
  extract_lets s1 s2
  have hs2 : s2 = (List.range 8).foldl State.loseVc s1 := rfl
  exact congrArg State.curFirst hs2

/-- R253: the end of an alignment, with no frame in progress. -/
theorem State.unalign_effect {s : State} (hframes : ∀ v < 8, (s.vc v).frame = none) :
    Leaves linkQuiet s s.unalign ∧ s.unalign.get F.INGEST_STATUS_ALIGNED = 0 ∧
      (s.get F.INGEST_STATUS_ALIGNED = 1 → ∀ v < 8, s.unalign.vcState v = VcS.SEEKING) := by
  by_cases h : s.get F.INGEST_STATUS_ALIGNED = 0
  · rw [State.unalign_idle h]
    exact ⟨Leaves.refl s, h, fun h1 => by omega⟩
  · let s1 := ((s.set F.INGEST_STATUS_ALIGNED 0).set F.INGEST_STATUS_READY 0).raise E.INGEST_ALIGN_LOST
    have hcalm := State.raise_calm ((s.set F.INGEST_STATUS_ALIGNED 0).set F.INGEST_STATUS_READY 0) E.INGEST_ALIGN_LOST
    have hs1 : Leaves linkQuiet s s1 :=
      ((Leaves.set _ (by decide) (by decide)).trans (Leaves.set _ (by decide) (by decide))).trans (hcalm.leaves.mono linkQuiet_quiet)
    have haligned1 : s1.get F.INGEST_STATUS_ALIGNED = 0 :=
      (hcalm.get _ (by decide)).trans ((State.get_set_ne _ _ (by decide)).trans (State.get_set_self _ _ _))
    have hframes1 : ∀ v < 8, (s1.vc v).frame = none := fun v hv => by
      rw [State.vc_congr (congrArg IngestSt.vcs hcalm.ing) v]
      exact hframes v hv
    obtain ⟨hseek, haligned, -, hstates⟩ := State.seekAll_effect (List.range 8) (fun v hv => List.mem_range.mp hv) hframes1
    have ht := State.unalign_eq h
    rw [State.loseAll_eq (List.range 8) (fun v hv => List.mem_range.mp hv) hframes1] at ht
    generalize (List.range 8).foldl State.seekVc s1 = t at hseek haligned hstates ht
    rw [ht]
    exact ⟨hs1.trans (hseek.trans (Leaves.of_regs rfl rfl)), haligned.trans haligned1,
      fun _ v hv => hstates v hv (Or.inl (List.mem_range.mpr hv))⟩

/-- The end of an alignment and the check of a stop after it. -/
theorem State.unalign_checked {s : State} (hframes : ∀ v < 8, (s.vc v).frame = none) :
    Leaves linkQuiet s s.unalign.ingestStopCheck ∧ s.unalign.ingestStopCheck.get F.INGEST_STATUS_ALIGNED = 0 ∧
      (s.get F.INGEST_STATUS_ALIGNED = 1 → ∀ v < 8, s.unalign.ingestStopCheck.vcState v = VcS.SEEKING) := by
  obtain ⟨hleaves, haligned, hstates⟩ := State.unalign_effect hframes
  have hstop := State.ingestStopCheck_leaves haligned
  refine ⟨hleaves.trans (hstop.mono linkQuiet_stop), (hstop.get _ (by decide)).trans haligned, fun h v hv => ?_⟩
  rw [State.vcState, State.getPart, hstop.get _ (by decide)]
  exact hstates h v hv

/-! ### Alignment (R234, R235) -/

/-- The lanes of ALIGN blocks. -/
def State.lanesGiven (s : State) (bs : List AlignBlk) : State :=
  bs.foldl (fun s b => (s.set (F.INGEST_LANE_LOGICAL b.lane) b.logical).set (F.INGEST_LANE_SKEW_UI b.lane) b.skew) s

/-- They touch the two fields of their lanes. -/
theorem State.lanesGiven_only (bs : List AlignBlk) (hbs : ∀ b ∈ bs, b.lane < 8) (s : State) :
    OnlyFields ((List.range 8).flatMap (fun l => [F.INGEST_LANE_LOGICAL l, F.INGEST_LANE_SKEW_UI l])) s (s.lanesGiven bs) := by
  refine List.foldlRecOn bs _ (motive := fun t => OnlyFields _ s t) (OnlyFields.refl _ s) fun t ht b hb => (ht.set ?_ _).set ?_ _
  · exact List.mem_flatMap.mpr ⟨b.lane, List.mem_range.mpr (hbs b hb), by simp⟩
  · exact List.mem_flatMap.mpr ⟨b.lane, List.mem_range.mpr (hbs b hb), by simp⟩

/-- The state of a link that ALIGN blocks have aligned, before its enable, its function and its stop are judged. -/
def State.linkMet (s s1 : State) : State :=
  let s2 := (s1.set F.INGEST_STATUS_ALIGNED 1).raise E.INGEST_ALIGNED
  let s2 := if s.ing.wasUp then s2.inc F.INGEST_LINK_REALIGNS
    else { s2 with ing := { s2.ing with wasUp := true, fc := 64 + s.ing.blocks / 512 } }
  { s2 with ing := { s2.ing with cur := 0 } }

/-- What that leaves: the fields but ALIGNED and the count of alignments, and the receiver but for its channel and its first credit. -/
theorem State.linkMet_effect {s s1 : State} (hing : s1.ing = s.ing) :
    (∀ g : Field, quiet g.key = true → g.key ≠ F.INGEST_STATUS_ALIGNED.key → g.key ≠ F.INGEST_LINK_REALIGNS.key → (s.linkMet s1).get g = s1.get g) ∧
      (s.linkMet s1).get F.INGEST_STATUS_ALIGNED = 1 ∧ (s.linkMet s1).ing.cur = 0 ∧ (s.linkMet s1).ing.wasUp = true ∧
      (s.ing.wasUp = false → (s.linkMet s1).ing.fc = 64 + s.ing.blocks / 512) := by
  have hcalm := State.raise_calm (s1.set F.INGEST_STATUS_ALIGNED 1) E.INGEST_ALIGNED
  cases hup : s.ing.wasUp with
  | true =>
    have heq : s.linkMet s1 = State.curFirst (((s1.set F.INGEST_STATUS_ALIGNED 1).raise E.INGEST_ALIGNED).inc F.INGEST_LINK_REALIGNS) := by
      rw [State.linkMet, hup]
      rfl
    rw [heq]
    refine ⟨fun g hq hal hre => ?_, ?_, rfl, ?_, fun h => absurd h (by decide)⟩
    · exact (State.get_inc_ne _ hre).trans ((hcalm.get g hq).trans (State.get_set_ne _ _ hal))
    · exact (State.get_inc_ne _ (by decide)).trans ((hcalm.get _ (by decide)).trans (State.get_set_self _ _ _))
    · exact (congrArg IngestSt.wasUp (hcalm.ing.trans hing) :).trans hup
  | false =>
    have heq : s.linkMet s1 = State.curFirst { (s1.set F.INGEST_STATUS_ALIGNED 1).raise E.INGEST_ALIGNED with
        ing := { ((s1.set F.INGEST_STATUS_ALIGNED 1).raise E.INGEST_ALIGNED).ing with wasUp := true, fc := 64 + s.ing.blocks / 512 } } := by
      rw [State.linkMet, hup]
      rfl
    rw [heq]
    refine ⟨fun g hq hal _ => (hcalm.get g hq).trans (State.get_set_ne _ _ hal), ?_, rfl, rfl, fun _ => rfl⟩
    exact (hcalm.get _ (by decide)).trans (State.get_set_self _ _ _)

/-- What the needs of BUSAIST_LINK read. -/
theorem State.needsLink_congr {s t : State} (hready : t.get F.SYS_FUNC_READY_READY = s.get F.SYS_FUNC_READY_READY)
    (hrail : t.get F.PWR_RAIL_STATUS_VALID = s.get F.PWR_RAIL_STATUS_VALID) : t.needsOk Fn.BUSAIST_LINK = s.needsOk Fn.BUSAIST_LINK := by
  change (t.ready 4 && t.railValid 8) = (s.ready 4 && s.railValid 8)
  rw [State.ready_congr hready, State.railValid, State.railValid, State.getBit_congr hrail]

/-- A function whose needs hold becomes ready. -/
theorem State.setReady_ready (s : State) {n : Nat} (hn : n < 48) : (s.setReady n).ready n = true := by
  unfold State.setReady
  split
  · next h => exact h
  · rw [State.ready, State.getBit_congr ((State.raise_calm _ _).get _ (by decide))]
    exact State.getBit_setBitTo_self s true hn

/-- A function that becomes ready leaves the receiver. -/
theorem State.setReady_ing (s : State) (n : Nat) : (s.setReady n).ing = s.ing := by
  unfold State.setReady
  split
  · rfl
  · exact (State.raise_calm _ _).ing

/-- ALIGN blocks that match align an enabled link. -/
theorem exec_busaistAlign_aligns {s : State} {bs : List AlignBlk} (hbs : ∀ b ∈ bs, b.lane < 8) (hok : s.alignOk (s.alignsUsed bs) = true)
    (haligned : s.get F.INGEST_STATUS_ALIGNED = 0) (hstate : s.get F.INGEST_STATUS_FSTATE = 1) (hen : s.get F.INGEST_CTL_EN = 1) :
    Answers (.busaistAlign bs) s (fun t => t.get F.INGEST_STATUS_ALIGNED = 1 ∧ t.get F.INGEST_STATUS_FSTATE = 2 ∧ t.ing.cur = 0 ∧ t.ing.wasUp = true ∧
      (s.ing.wasUp = false → t.ing.fc = 64 + s.ing.blocks / 512) ∧ (s.needsOk Fn.BUSAIST_LINK = true → t.ready Fn.BUSAIST_LINK = true)) := by
  have honly := State.lanesGiven_only (s.alignsUsed bs) (fun b hb => hbs b (List.mem_filter.mp hb).1) s
  have hing : (s.lanesGiven (s.alignsUsed bs)).ing = s.ing := (congrArg State.ing honly.1 :)
  obtain ⟨hget, hal, hcur, hup, hfc⟩ := State.linkMet_effect hing
  have hkept {g : Field} (hq : quiet g.key = true) (hal : g.key ≠ F.INGEST_STATUS_ALIGNED.key) (hre : g.key ≠ F.INGEST_LINK_REALIGNS.key)
      (hg : g.key ∉ ((List.range 8).flatMap (fun l => [F.INGEST_LANE_LOGICAL l, F.INGEST_LANE_SKEW_UI l])).map Field.key) :=
    (hget g hq hal hre).trans (honly.2 g hg)
  let u := (s.linkMet (s.lanesGiven (s.alignsUsed bs))).set F.INGEST_STATUS_FSTATE 2
  have hfstate : u.get F.INGEST_STATUS_FSTATE = 2 := State.get_set_self _ _ _
  let t := if u.needsOk Fn.BUSAIST_LINK then u.setReady Fn.BUSAIST_LINK else u
  have ht : Leaves fnQuiet u t := Leaves.ite (State.setReady_leaves _ _) (Leaves.refl _)
  have hting : t.ing = u.ing := by
    simp only [t]
    split
    · exact State.setReady_ing _ _
    · rfl
  have hidle : t.ingestStopCheck = t := State.ingestStopCheck_idle (by rw [ht.get _ (by decide), hfstate]; decide)
  have hstate' : (s.linkMet (s.lanesGiven (s.alignsUsed bs))).get F.INGEST_STATUS_FSTATE = 1 :=
    (hkept (by decide) (by decide) (by decide) (by decide)).trans hstate
  have hen' : (s.linkMet (s.lanesGiven (s.alignsUsed bs))).get F.INGEST_CTL_EN = 1 :=
    (hkept (by decide) (by decide) (by decide) (by decide)).trans hen
  have hexec : exec (.busaistAlign bs) s = .next t.ingestStopCheck := by
    change execBusaistAlign bs s = _
    rw [execBusaistAlign, done, if_neg (by omega)]
    refine congrArg Host.Outcome.next ((if_pos hok).trans ((if_neg (by omega)).trans ?_))
    exact congrArg (fun u : State => (if u.needsOk Fn.BUSAIST_LINK then u.setReady Fn.BUSAIST_LINK else u).ingestStopCheck)
      ((if_pos hstate').trans (if_pos hen'))
  rw [hidle] at hexec
  refine ⟨t, hexec, ?_, (ht.get _ (by decide)).trans hfstate, ?_, ?_, fun h => ?_, fun hneeds => ?_⟩
  · exact (ht.get _ (by decide)).trans ((State.get_set_ne _ _ (by decide)).trans hal)
  · exact (congrArg IngestSt.cur hting).trans hcur
  · exact (congrArg IngestSt.wasUp hting).trans hup
  · exact (congrArg IngestSt.fc hting).trans (hfc h)
  · have hu : u.needsOk Fn.BUSAIST_LINK = true := by
      rw [State.needsLink_congr (s := s) ((State.get_set_ne _ _ (by decide)).trans (hkept (by decide) (by decide) (by decide) (by decide)))
        ((State.get_set_ne _ _ (by decide)).trans (hkept (by decide) (by decide) (by decide) (by decide)))]
      exact hneeds
    rw [show t = u.setReady Fn.BUSAIST_LINK from if_pos hu]
    exact State.setReady_ready _ (by decide)

/-! ### Lanes (R232, R233) -/

/-- What the loss of a lane's lock leaves of `quiet`: all but LOCKED and the lanes' own registers. -/
def lockQuiet (k : Nat) : Bool := quiet k && !(keyPage k = Pg.INGEST && (k = F.INGEST_STATUS_LOCKED.key || 0x200 ≤ keyOff k))

theorem lockQuiet_quiet (k : Nat) (h : lockQuiet k = true) : quiet k = true := (Bool.and_eq_true_iff.mp h).1

/-- A lane that loses lock. -/
theorem State.lockLost_effect (s : State) {lane : Nat} (hlane : lane < 8) :
    let t := ((s.setBitTo F.INGEST_STATUS_LOCKED lane false).inc (F.INGEST_LANE_LOCK_LOSS lane)).raise E.INGEST_LOCK_LOSS
    Calm lockQuiet s t ∧ t.getBit F.INGEST_STATUS_LOCKED lane = false ∧
      t.get (F.INGEST_LANE_LOCK_LOSS lane) = min (s.get (F.INGEST_LANE_LOCK_LOSS lane) + 1) 65535 := by
  intro t
  obtain ⟨hkey, hoff, hq, hne⟩ : lockQuiet (F.INGEST_LANE_LOCK_LOSS lane).key = false ∧ keyOff (F.INGEST_LANE_LOCK_LOSS lane).key ≠ 0x20 ∧
      quiet (F.INGEST_LANE_LOCK_LOSS lane).key = true ∧ F.INGEST_STATUS_LOCKED.key ≠ (F.INGEST_LANE_LOCK_LOSS lane).key := by
    obtain rfl | rfl | rfl | rfl | rfl | rfl | rfl | rfl := cases_lt_eight hlane <;> decide
  have hraise : Calm quiet _ t := State.raise_calm _ _
  refine ⟨(Calm.set _ (by decide) (by decide)).trans ((Calm.set _ hkey hoff).trans (hraise.mono lockQuiet_quiet)), ?_, ?_⟩
  · rw [State.getBit_congr ((hraise.get _ (by decide)).trans (State.get_inc_ne _ hne))]
    exact State.getBit_setBitTo_self _ _ (show lane < 8 from hlane)
  · rw [hraise.get _ hq, State.get_inc_self, State.setBitTo, State.get_set_ne _ _ hne.symm]
    rfl

/-! ### Blocks and the back channel (R233, R246 to R249) -/

/-- A data block of a link whose injector is idle reaches its channel. -/
theorem State.logical_data {s : State} (payload : Nat) (haligned : s.get F.INGEST_STATUS_ALIGNED = 1) (hidle : s.get (F.FI_CFG_STATE 0) = 0)
    (hcarry : s.fi.carry.getD 0 0 = 0) : s.logical false payload = (s.block false payload).passHeld := by
  have hunit : s.fiUnit 0 = (.pass, s) := State.fiUnit_idle (by omega) (by omega)
  rw [State.logical, if_neg (by omega), hunit]
  exact if_neg (not_not_intro hcarry)

/-- What an FC block shows of the link and sends. -/
theorem State.fcBlock_effect {s : State} (hon : s.get F.INGEST_STATUS_FSTATE ≠ 0) : Answers .fcBlock s (fun t =>
    t.get F.INGEST_STATUS_READY = b2n s.ingestReady ∧ t.get F.INGEST_STATUS_XOFF = b2n s.ingestXoff ∧ t.ing.fcSeq = (s.ing.fcSeq + 1) % 256 ∧
    t.ing.fcSent.take 2 = [0x78, b2n s.ingestXoff + 2 * b2n s.ingestReady] ∧ t.ing.fcSent.length = 8 ∧ s.ing.fc ≤ t.ing.fc ∧ t.slots = s.slots) := by
  refine ⟨_, rfl, ?_⟩
  rw [if_neg hon]
  extract_lets rdy xof cr seq b stop s1 s2 s3 s4
  have hbit (b : Bool) : b2n b % 2 ^ 1 = b2n b := by cases b <;> rfl
  have hcalm : Calm quiet s2 s4 := (State.raiseIf_calm _ _ _).trans (State.raiseIf_calm _ _ _)
  have hslots : s1.slots = s.slots := by
    simp only [s1]
    split <;> rfl
  refine ⟨(hcalm.get _ (by decide)).trans ((State.get_set_ne _ _ (by decide)).trans ((State.get_set_self _ _ _).trans (hbit rdy))),
    (hcalm.get _ (by decide)).trans ((State.get_set_self _ _ _).trans (hbit xof)), rfl, rfl, rfl, Nat.le_max_left _ _, hcalm.slots.trans hslots⟩

/-! ### The enable of the link (R250) -/

/-- The elastic buffer is what records and waiting requests say. -/
theorem State.elasticBlocks_congr {s t : State} (hfrm : t.frm = s.frm) (hreqs : t.led.reqs = s.led.reqs) : t.elasticBlocks = s.elasticBlocks := by
  have hwaiting : t.recWaiting = s.recWaiting := by
    funext r
    unfold State.recWaiting
    rw [hreqs]
  unfold State.elasticBlocks
  rw [hfrm, hwaiting]

/-- A stop drains while the elastic buffer holds blocks. -/
theorem State.stopIngest_drains {s : State} (hrun : s.get F.INGEST_STATUS_FSTATE = 2) (helastic : s.elasticBlocks ≠ 0) :
    s.stopIngest = s.set F.INGEST_STATUS_FSTATE 3 := by
  have helastic' : (s.set F.INGEST_STATUS_FSTATE 3).elasticBlocks ≠ 0 := by
    rw [State.elasticBlocks_congr (t := s.set F.INGEST_STATUS_FSTATE 3) (s := s) rfl rfl]
    exact helastic
  exact (if_pos hrun).trans (if_neg (by simp [helastic']))

/-- Settles O32: lanes by `lockLost_effect`, the end of an alignment by `unalign_checked`, the back channel by `fcBlock_effect`, the enable by
`stopIngest_drains`. -/
theorem lanesAndAlignment : Obligations.LanesAndAlignment := by
  unfold Obligations.LanesAndAlignment
  intro s
  refine ⟨fun lane slips hlane hon => ⟨_, rfl, ?_⟩, fun lane hlane hlocked => ⟨fun hfree => ⟨_, rfl, ?_⟩, fun hused hframes => ⟨_, rfl, ?_⟩,
      fun hno => ⟨_, rfl, ?_⟩, fun hused hpass hframe => ⟨_, rfl, ?_⟩⟩, fun bs hbs hon hok => ?_, fun bs hoff => ⟨_, rfl, if_pos hoff⟩,
    fun hno => ⟨_, rfl, if_neg (by omega)⟩, fun haligned hframes => ⟨_, rfl, ?_⟩, fun hon => ?_, fun who en htakes hstop => ?_,
    fun who htakes hrun helastic => ?_, fun hno => ⟨_, rfl, if_neg hno⟩, fun hstop hframes => ⟨_, rfl, ?_⟩⟩
  · rw [if_pos (by simp [hlane, hon])]
    exact ⟨State.getBit_setBitTo_self _ _ (show lane < 8 from hlane), ((OnlyFields.refl _ s).set (by simp) _).set (by simp) _⟩
  · rw [if_pos (by simp [hlane, hlocked]), hfree, if_neg Bool.false_ne_true]
    obtain ⟨hcalm, hbit, hcount⟩ := s.lockLost_effect hlane
    exact ⟨hbit, hcount, hcalm.ing⟩
  · rw [if_pos (by simp [hlane, hlocked]), hused, if_pos rfl]
    obtain ⟨hcalm, -, -⟩ := s.lockLost_effect hlane
    obtain ⟨hleaves, haligned, hstates⟩ := State.unalign_checked (s := ((s.setBitTo F.INGEST_STATUS_LOCKED lane false).inc
      (F.INGEST_LANE_LOCK_LOSS lane)).raise E.INGEST_LOCK_LOSS) fun v hv => by
        rw [State.vc_congr (congrArg IngestSt.vcs hcalm.ing) v]
        exact hframes v hv
    exact ⟨haligned, hleaves.slots.trans hcalm.slots, fun h => hstates ((hcalm.get _ (by decide)).trans h)⟩
  · have hno : (s.laneUsed lane && decide (s.get F.INGEST_STATUS_ALIGNED = 1)) = false := by
      rcases hno with h | h <;> simp [h]
    rw [if_pos (by simp [hlane, hlocked]), hno, if_neg Bool.false_ne_true]
    exact ⟨State.inc_only _ _, State.get_inc_self _ _⟩
  · obtain ⟨haligned, hidle, hcarry, -⟩ := hpass
    have hkeys : F.INGEST_STATUS_ALIGNED.key ≠ (F.INGEST_LANE_BAD_SH lane).key ∧ (F.FI_CFG_STATE 0).key ≠ (F.INGEST_LANE_BAD_SH lane).key := by
      obtain rfl | rfl | rfl | rfl | rfl | rfl | rfl | rfl := cases_lt_eight hlane <;> decide
    have hvc : ¬((s.inc (F.INGEST_LANE_BAD_SH lane)).vc s.ing.cur).frame.isSome = true := by
      rw [show ((s.inc (F.INGEST_LANE_BAD_SH lane)).vc s.ing.cur).frame = none from hframe]
      exact Bool.false_ne_true
    rw [if_pos (by simp [hlane, hlocked]), if_pos (by simp [hused, haligned])]
    exact (congrArg (fun s : State => s.logical false 0) (if_neg hvc)).trans
      (State.logical_data 0 ((State.get_inc_ne _ hkeys.1).trans haligned) ((State.get_inc_ne _ hkeys.2).trans hidle) hcarry)
  · have hlanes := State.lanesGiven_only (s.alignsUsed bs) (fun b hb => hbs b (List.mem_filter.mp hb).1) s
    refine ⟨fun haligned => ⟨_, rfl, ?_⟩, fun haligned hstate hen => exec_busaistAlign_aligns hbs hok haligned hstate hen⟩
    rw [if_neg hon]
    refine Eq.mpr (congrArg _ ((if_pos hok).trans (if_pos haligned))) hlanes
  · rw [if_pos haligned]
    have hcalm := State.raise_calm (s.inc F.INGEST_LINK_ALIGN_FAIL) E.INGEST_ALIGN_FAIL
    obtain ⟨hleaves, hdown, -⟩ := State.unalign_checked (s := (s.inc F.INGEST_LINK_ALIGN_FAIL).raise E.INGEST_ALIGN_FAIL) fun v hv => by
      rw [State.vc_congr (congrArg IngestSt.vcs hcalm.ing) v]
      exact hframes v hv
    refine ⟨hdown, ?_, hleaves.slots.trans hcalm.slots⟩
    rw [hleaves.get _ (by decide), hcalm.get _ (by decide)]
    exact State.get_inc_self _ _
  · exact State.fcBlock_effect hon
  · have hcalm : Calm quiet s (s.dropHeld who) := s.dropHeld_calm who
    have hexec : exec (.ingestCtlEn who en) s =
        .next (((s.dropHeld who).set F.INGEST_CTL_EN (b2n en)).set F.INGEST_STATUS_REENABLE_PENDING (b2n en)) := by
      change execIngestCtlEn who en s = _
      rw [execIngestCtlEn, State.rwAction_takes _ htakes, State.enIngest, (hcalm.get _ (by decide)).trans hstop]
      rfl
    have hbit : b2n en % 2 ^ 1 = b2n en := by cases en <;> rfl
    refine ⟨_, hexec, ?_, (State.get_set_self _ _ _).trans hbit, ((OnlyFields.refl _ _).set (by simp) _).set (by simp) _⟩
    exact (State.get_set_ne _ _ (by decide)).trans ((State.get_set_self _ _ _).trans hbit)
  · have hcalm : Calm quiet s (s.dropHeld who) := s.dropHeld_calm who
    have hrun0 : (s.dropHeld who).get F.INGEST_STATUS_FSTATE = 2 := (hcalm.get _ (by decide)).trans hrun
    have hdrain := State.stopIngest_drains (s := (s.dropHeld who).set F.INGEST_CTL_EN 0) ((State.get_set_ne _ _ (by decide)).trans hrun0)
      (by rw [State.elasticBlocks_congr (t := (s.dropHeld who).set F.INGEST_CTL_EN 0) (s := s) hcalm.frm hcalm.reqs]; exact helastic)
    have hexec : exec (.ingestCtlEn who false) s = .next (((s.dropHeld who).set F.INGEST_CTL_EN 0).set F.INGEST_STATUS_FSTATE 3) := by
      change execIngestCtlEn who false s = _
      rw [execIngestCtlEn, State.rwAction_takes _ htakes, State.enIngest, hrun0, ← hdrain]
      rfl
    exact ⟨_, hexec, (State.get_set_ne _ _ (by decide)).trans (State.get_set_self _ _ _), State.get_set_self _ _ _⟩
  · rw [if_pos hstop]
    refine congrArg State.ingestStopCheck (foldl_eq_self fun v hv => if_neg ?_)
    rw [hframes v (List.mem_range.mp hv)]
    exact Bool.false_ne_true

end Sys2Proof.Machine
end
